-- ==== Sys2Proof/Word.lean ====
section
/-!
DEFINITION. The plain data that every other file uses: bytes, 32-bit register words and the association
table. A register is 32 bits wide (01, R7 to R14 notation; 00, "Register tables"); a byte of a packet,
an object, a Deck row or a Span row is 8 bits.
-/

namespace Sys2Proof

/-- A 32-bit register value (00, Register tables: every register is 32 bits wide). -/
abbrev Word := BitVec 32

/-- One byte of a packet, of memory or of an audio or camera datum. -/
abbrev Byte := BitVec 8

/-- A byte string, lowest address first. -/
abbrev Bytes := List (BitVec 8)

/-- A sparse table from a number (an index, a handle, an address) to a value, kept with rising keys. -/
abbrev Tab (α : Type) := List (Nat × α)

end Sys2Proof
end

