-- ==== Sys2Proof/Syntax.lean ====
section
/-!
DEFINITION. The commands of the block: one constructor of `Instr` per row of the opcode table, with the
operands the spec gives that row. A Kraros command carries `Req`, the header fields that R512 gives its
packet; an event carries what the event itself says (a pin level, a received frame, a measured value, the
outcome of something outside the block).
-/

namespace Sys2Proof

/-- The two interfaces on which Kraros is terminated (R509). -/
inductive Iface where
  | host | mgmt
deriving DecidableEq, Repr

/-- The header fields of a Kraros command that its handling needs (R512, R518). -/
structure Req where
  /-- the interface the packet came in on (R509) -/
  iface : Iface
  /-- the SESSION field (R518) -/
  sess : Nat
  /-- the source address and the source UDP port (R518) -/
  src : Nat
  sport : Nat
  /-- the Ethernet port, 0 to 2, or 3 for port M (R506) -/
  port : Nat
  /-- the SEQUENCE field (R520) -/
  seq : Nat
  /-- the CONTEXT field (R516) -/
  ctx : Nat
deriving DecidableEq, Repr

/-- The writer identity that a block stamps on a window write (R156, R157). -/
inductive Writer where
  | core (n : Nat) | host | isp | audio | remote (device : Nat)
deriving DecidableEq, Repr

/-- The header of a window write together with its data (R157): the space (0 to 7 the Deck of a logical
core, 8 the Span), the image slot and window index, the epoch, the byte offset and the writer. With `pitch`
not zero the data are rows of `row` bytes that lie `pitch` bytes apart, as a pitched tile's are (R206, R208). -/
structure WinHdr where
  space : Nat
  ctx : Nat
  slot : Nat
  win : Nat
  epoch : Nat
  off : Nat
  data : Bytes
  writer : Writer
  pitch : Nat := 0
  row : Nat := 0
deriving DecidableEq, Repr

/-- Who opens or closes a window (R158, R169): the host, or a stage program on a logical core. The command's slot beside it is
the image slot that the host names, or the stage slot of the program, which acts for the image whose job runs. -/
inductive WinBy where
  | host (rq : Req)
  | stage (core : Nat)
deriving DecidableEq, Repr

/-- The parameters of CTX_CREATE (R364, R536). -/
structure CtxParams where
  sealed : Nat
  cores : Nat
  spanBanks : Nat
  ddrSlots : Nat
  boundUs : Nat
  remoteMs : Nat
  quantumUs : Nat
deriving DecidableEq, Repr

/-- The quotas of CTX_QUOTA_SET (R191, R313, R536): T1 rows per logical core, T2 rows, streams, T3 and T4
granules. -/
structure Quotas where
  t1 : List Nat := [0, 0, 0, 0, 0, 0, 0, 0]
  t2 : Nat := 0
  streams : Nat := 0
  t3 : Nat := 0
  t4 : Nat := 0
deriving DecidableEq, Repr

/-- The page geometry of KV_SEQ_FORK (R540). -/
structure KvGeom where
  maxTokens : Nat := 0
  layers : Nat := 0
  slices : Nat := 0
  fmtK : Nat := 0
  fmtV : Nat := 0
  coding : Nat := 0
deriving DecidableEq, Repr

/-- The parameters of STREAM_OPEN (R540). -/
structure StreamArgs where
  index : Nat
  options : Nat
  channels : Nat
  homeCore : Nat
  aObject : Nat
deriving DecidableEq, Repr

/-- The parameters of an I3C_XFER (R542): the controller, the kind of transfer, the target address, the CCC,
the bytes written and the number of bytes to read. -/
structure I3cArgs where
  ctrl : Nat
  kind : Nat
  addr : Nat
  ccc : Nat
  wdata : Bytes
  readLen : Nat
deriving DecidableEq, Repr

/-- What the I3C bus did with a transfer (R438): no acknowledgement, a bus error, or the bytes read. -/
inductive I3cBus where
  | nack | err | done (rdata : Bytes)
deriving DecidableEq, Repr

/-- What the far end of the PCIe link offers at training (R753). -/
structure PcieLink where
  up : Bool
  gen : Nat
  width : Nat
  ready : Bool
  granules : Nat
deriving DecidableEq, Repr

/-- What a received Ethernet frame carries (R507, R509): a UDP datagram, an ARP request, a neighbour solicitation, an ICMP
echo request, one of the device's own answers to these, or anything else, which can only be bridged. -/
inductive NetKind where
  | udp | arpRequest | neighbourSolicit | echoRequest | arpReply | neighbourAdvert | echoReply | other
deriving DecidableEq, Repr

/-- The destination of a frame: the MAC address of the device's own interface, a group address, or a station's. -/
inductive MacDst where
  | own | group
  | station (addr : Nat)
deriving DecidableEq, Repr

/-- A received Ethernet frame. Addresses are IPv6, or IPv4 in IPv4-mapped form. Of a UDP datagram it says whether the UDP
checksum is valid, its bytes, and whether its final reply will take longer than 200 µs (R514, R522). -/
structure Datagram where
  iface : Iface
  src : Nat
  sport : Nat
  port : Nat
  checksumOk : Bool
  late : Bool
  bytes : Bytes
  /-- the destination address and UDP port (R509); the address asked for in an ARP request or a neighbour solicitation -/
  dst : Nat
  dport : Nat
  /-- the IEEE 802.1Q tag: PCP and VID (R507, R509) -/
  tag : Option (Nat × Nat) := none
  /-- the destination and source MAC addresses -/
  dmac : MacDst := .own
  smac : Nat := 0
  kind : NetKind := .udp
deriving DecidableEq, Repr

/-- One period of the PDM clocks (R441): the levels of PDM_DAT[3:0] on their rising and on their falling edge. -/
structure Pdm where
  rise : Nat
  fall : Nat
deriving DecidableEq, Repr

/-- What a link comes up with (R506, R507): its rate, as a SPEED code, and whether the partner's MKA agrees on a CAK. -/
structure LinkUp where
  speed : Nat
  mka : Bool
deriving DecidableEq, Repr

/-- The header of a CSI-2 short packet (R405, R408): its virtual channel, and its errors: bit 0 one that was corrected, bit 1 one
that cannot be. -/
structure CsiHead where
  vc : Nat
  errs : Nat
deriving DecidableEq, Repr

/-- The lanes of a receiver (R405, R410): a sensor is present, and they are in ULPS. -/
structure CamLanes where
  present : Bool
  ulps : Bool
deriving DecidableEq, Repr

/-- What the ECC of a served DDR4 or scrub read says (R602, R680). -/
inductive Ecc where
  | clean | corrected | uncorrectable
deriving DecidableEq, Repr

/-- A request to a DDR4 channel (R587): its channel, the requester's own number for it, its port, the context it
is made for, its first 64-byte line (the DDR address ÷ 64) and its lines, 1 to 4, and the bytes that a write
stores. -/
structure DdrReq where
  channel : Nat
  id : Nat
  port : Nat
  ctx : Nat
  line : Nat
  lines : Nat
  write : Bool
  data : Bytes
deriving DecidableEq, Repr

/-- What a cold boot meets outside the block (R767). -/
structure BootInput where
  /-- the images of slots A and B pass the checks of R642 -/
  slotOk : List Bool
  /-- the known-answer tests pass (R666) -/
  selfTest : Bool
  /-- the tags of the snapshot and of the repair record are good (R768, R769) -/
  snapshot : Bool
  repair : Bool
  /-- the self-tests of the physical cores 0 to 8 pass (R767 step 7, R690) -/
  cores : List Bool
  /-- the digests of the two Odometer copies verify, newest first (R700) -/
  copies : List Bool
deriving DecidableEq, Repr

/-- The commands: one constructor per row of the opcode table. -/
inductive Instr where
  /-- HELLO_OPEN (R518): HELLO with mode OPEN creates a session for the interface, source address and port and returns a session ID and a challenge. -/
  | helloOpen (rq : Req) (maxPayload : Nat) (events : Bool)
  /-- HELLO_PROVE (R519): HELLO with mode PROVE verifies an ML-DSA-65 signature over the session challenge against the credential set of the interface. -/
  | helloProve (rq : Req) (keyDigest : Bytes) (signature : Bytes)
  /-- HELLO_REFRESH (R521): HELLO with mode REFRESH keeps a session alive. -/
  | helloRefresh (rq : Req)
  /-- HELLO_END (R521): HELLO with mode END ends the session and discards its outbound entries and remembered numbers. -/
  | helloEnd (rq : Req)
  /-- DEVICE_INFO (R534): Returns the part, stepping, role, features, pool, channels and device key digest. -/
  | deviceInfo (rq : Req)
  /-- REG_READ (R535): Reads up to 256 registers where the interface's access rules permit. -/
  | regRead (rq : Req) (addr : Nat) (count : Nat)
  /-- REG_WRITE (R741): Writes shadows or plain fields of registers that have no row of their own, in ascending address, stopping at the first refusal. -/
  | regWrite (rq : Req) (addr : Nat) (values : List Word)
  /-- POWER_VOTE_CAST (R614): Adds the client's explicit vote to each named domain. -/
  | powerVoteCast (rq : Req) (client : Nat) (domains : Nat)
  /-- POWER_VOTE_WITHDRAW (R614): Removes the client's explicit vote from each named domain. -/
  | powerVoteWithdraw (rq : Req) (client : Nat) (domains : Nat)
  /-- POWER_VOTE_ENTER (R622): Orders entry to DEEP or OFF, refused on any refuser, else proceeding through save, reply and power-down. -/
  | powerVoteEnter (rq : Req) (client : Nat) (target : Nat)
  /-- POWER_STATE_GET (R611): Returns the state code, envelope and domains up. -/
  | powerStateGet (rq : Req)
  /-- CTX_CREATE (R810): Checks the parameters and creates a context with the lowest free ID, Shared or with a new Sealed partition. -/
  | ctxCreate (rq : Req) (params : CtxParams)
  /-- CTX_DESTROY (R366): Destroys a context: cancels jobs, unloads images, frees objects, streams and sequences, and retires its key. -/
  | ctxDestroy (rq : Req)
  /-- CTX_QUOTA_SET (R808): Checks and sets a context's tier and stream quotas in three passes. -/
  | ctxQuotaSet (rq : Req) (quotas : Quotas)
  /-- OBJ_ALLOC (R806): Checks and allocates an object, evicting within the context and filling with encrypted zeros unless NOFILL. -/
  | objAlloc (rq : Req) (flags : Nat) (tilesM1 : Nat) (storedM1 : Nat) (loc : Nat)
  /-- OBJ_FREE (R232): Invalidates a handle, discards any upper copy and queues the zero-fill of its stored granules. -/
  | objFree (rq : Req) (handle : Nat)
  /-- OBJ_WRITE (R537): Writes stored bytes of an object at its home with integrity tags, with mirror copies on a set. -/
  | objWrite (rq : Req) (handle : Nat) (off : Nat) (data : Bytes)
  /-- OBJ_READ (R537): Reads stored bytes of an object at its home after writing back a dirty upper copy. -/
  | objRead (rq : Req) (handle : Nat) (len : Nat) (off : Nat)
  /-- OBJ_PLACE_PLACE (R187): Requests an upper copy of an object in a named tier within the context's quotas. -/
  | objPlacePlace (rq : Req) (handle : Nat) (tier : Nat) (core : Nat)
  /-- OBJ_PLACE_REMOVE (R187): Removes an object's upper copy. -/
  | objPlaceRemove (rq : Req) (handle : Nat)
  /-- OBJ_PLACE_PIN (R187): Sets PINNED on an object's upper copy. -/
  | objPlacePin (rq : Req) (handle : Nat)
  /-- OBJ_PLACE_UNPIN (R187): Clears PINNED on an object's upper copy. -/
  | objPlaceUnpin (rq : Req) (handle : Nat)
  /-- IMAGE_LOAD (R348): Checks an Eburter image in order and, when all checks pass, places shares, copies programs, allocates objects and grants windows and slots. -/
  | imageLoad (rq : Req) (image : Nat) (list : Nat) (bindCount : Nat) (handles : List Nat)
  /-- IMAGE_UNLOAD (R360): Closes the image's windows, waits for its tags, returns entries and shares and frees its allocated objects. -/
  | imageUnload (rq : Req) (slot : Nat)
  /-- RUN (R374): Queues a job of an image slot, replying when the job completes. -/
  | run (rq : Req) (slot : Nat) (param : Nat)
  /-- RUN_CANCEL (R390): Cancels the running job and every queued RUN of a context. -/
  | runCancel (rq : Req)
  /-- PREEMPT_YIELD (R379): Orders pre-emption of a Shared context's running job. -/
  | preemptYield (rq : Req)
  /-- PREEMPT_PARK (R391): Parks an idle Shared context: closes windows, writes back upper copies, saves program rows and releases shares. -/
  | preemptPark (rq : Req)
  /-- STREAM_OPEN_NEW (R318): Opens a FREE stream, allocating its state object and taking a new generation. -/
  | streamOpenNew (rq : Req) (args : StreamArgs)
  /-- STREAM_OPEN_RESUME (R318): Returns a PAUSED stream to OPEN. -/
  | streamOpenResume (rq : Req) (args : StreamArgs)
  /-- STREAM_CLOSE_PAUSE (R318): Writes back and releases a stream's upper copy and makes it PAUSED. -/
  | streamClosePause (rq : Req) (index : Nat)
  /-- STREAM_CLOSE_END (R318): Frees a stream's state object and returns the entry to FREE. -/
  | streamCloseEnd (rq : Req) (index : Nat)
  /-- STREAM_RESET (R318): Takes a new generation and zeroes the stream's home state. -/
  | streamReset (rq : Req) (index : Nat)
  /-- KV_SEQ_FORK (R286): Creates a child sequence, empty or sharing the parent's prefix pages by reference count. -/
  | kvSeqFork (rq : Req) (child : Nat) (parent : Nat) (pfx : Nat) (geom : KvGeom)
  /-- KV_SEQ_FREE (R289): Removes every entry of a sequence and returns its page-table charge. -/
  | kvSeqFree (rq : Req) (seq : Nat)
  /-- WIN_OPEN (R158): Opens a CLOSED window entry of an image's allotment, incrementing its epoch. -/
  | winOpen (who : WinBy) (space : Nat) (win : Nat) (slot : Nat) (base : Nat) (limit : Nat) (writers : Nat) (threshold : Nat)
  /-- WIN_CLOSE (R170): Sets the close point of a window and completes once accepted writes have landed and counted. -/
  | winClose (who : WinBy) (space : Nat) (win : Nat) (slot : Nat)
  /-- WIN_WRITE (R541): Sends host data as a window write with the writer identity HOST. -/
  | winWrite (rq : Req) (space : Nat) (win : Nat) (epoch : Nat) (slot : Nat) (off : Nat) (data : Bytes)
  /-- LANE_CFG (R571): Checks and sets a lane's owner, session, mode, level and idle time at the next packet boundary. -/
  | laneCfg (rq : Req) (lane : Nat) (mode : Nat) (enable : Nat) (level : Nat) (idle : Nat)
  /-- LANE_FLUSH (R567): Hands a lane's filling bank over at the next packet boundary once the draining bank is empty. -/
  | laneFlush (rq : Req) (lane : Nat)
  /-- SENSOR_CFG_BIND (R415): Sets or clears the owner of a disabled ISP context. -/
  | sensorCfgBind (rq : Req) (isp : Nat) (owner : Nat)
  /-- SENSOR_CFG_REG_WRITE (R416): Writes registers of the CAMERA and ISP block, ISP context pages only from their owner. -/
  | sensorCfgRegWrite (rq : Req) (addr : Nat) (values : List Word)
  /-- I3C_XFER (R438): Runs one I3C, I2C or CCC transfer on a controller and returns the bytes read. -/
  | i3cXfer (rq : Req) (xfer : I3cArgs) (bus : I3cBus)
  /-- AUDIO_CFG_BIND (R448): Sets or clears the owner of the audio block. -/
  | audioCfgBind (rq : Req) (owner : Nat)
  /-- AUDIO_CFG_REG_WRITE (R448): Writes registers of the AUDIO and WAYSIDE block from the owner. -/
  | audioCfgRegWrite (rq : Req) (addr : Nat) (values : List Word)
  /-- CASCADE (R469): Arms or clears a cascade entry M1 to M3 with an image slot, verdict window and linger time. -/
  | cascade (rq : Req) (entry : Nat) (mask : Nat) (space : Nat) (win : Nat) (linger : Nat)
  /-- WAKE_PHRASE_LOAD (R461): Checks and loads a phrase record into a phrase slot, taking effect at the next frame end. -/
  | wakePhraseLoad (rq : Req) (phrase : Nat) (handle : Nat) (len : Nat) (off : Nat)
  /-- ATTEST (R543): Forms or returns the attestation report of a context, aggregated across crossings on a Trunk. -/
  | attest (rq : Req) (nonce : Bytes) (off : Nat) (len : Nat)
  /-- ACCOUNT_READ (R395): Returns the context's account record. -/
  | accountRead (rq : Req)
  /-- ODOMETER_READ (R701): Snapshots and returns bytes of the Odometer stream by cursor. -/
  | odometerRead (rq : Req) (cursor : Nat) (len : Nat)
  /-- COUNTERS_READ (R702): Returns a traffic monitor block, optionally clearing it. -/
  | countersRead (rq : Req) (select : Nat)
  /-- FW_STAGE (R691): Writes a chunk of a firmware image into the inactive slot, verifying it when complete. -/
  | fwStage (rq : Req) (target : Nat) (total : Nat) (off : Nat) (data : Bytes)
  /-- FW_ACTIVATE_ARM (R693): Completes the inactive slot and records it to boot at the next cold boot. -/
  | fwActivateArm (rq : Req) (target : Nat) (cores : Nat)
  /-- FW_ACTIVATE_CONFIRM (R693): Ends a trial and blows SVN fuses. -/
  | fwActivateConfirm (rq : Req) (target : Nat)
  /-- FW_ACTIVATE_DISARM (R693): Cancels an armed slot so the active slot boots next. -/
  | fwActivateDisarm (rq : Req) (target : Nat)
  /-- CORE_FENCE (R683): Removes a logical core from service, closing its windows and pre-empting jobs that use it. -/
  | coreFence (rq : Req) (core : Nat)
  /-- CORE_REPAIR (R687): Tests the Relief core and remaps a fenced logical core onto it. -/
  | coreRepair (rq : Req) (core : Nat) (sound : Bool)
  /-- LOAD_WEIGHTS (R502): Loads a Guardrail weight record while Guardrail is disabled. -/
  | loadWeights (rq : Req) (weights : Bytes)
  /-- RELEASE (R494): Releases latched stop outputs whose causes have cleared. -/
  | release (rq : Req) (outputs : Nat)
  /-- DEEP_OVERRIDE (R500): Sets a one-time override letting the next DEEP entry pass the Guardrail vote. -/
  | deepOverride (rq : Req)
  /-- COMMIT (R741): A write of COMMIT requests a commit of a page and sets COMMIT_PENDING. -/
  | commit (page : Nat)
  /-- SAFE_POINT_COMMIT (R741): At the page's safe point the shadows are checked and made live together, or the commit is refused. -/
  | safePointCommit (page : Nat)
  /-- ENABLE (R748): A write of ENABLE 1 checks every shadow of the page and makes them live with ENABLE. -/
  | enable (page : Nat)
  /-- ENABLE_CLEAR (R749): A write of ENABLE 0 disables a page with its block's effects or is refused. -/
  | enableClear (page : Nat)
  /-- DDR_CTRL_ENABLE (R578): Setting DDR_CTRL.ENABLE checks the configuration and starts training of every populated channel. -/
  | ddrCtrlEnable
  /-- GRD_ENABLE (R499): Setting GRD_CTRL.ENABLE checks the configuration and starts Guardrail with all stops latched. -/
  | grdEnable
  /-- GRD_DISABLE (R499): Clearing GRD_CTRL.ENABLE asserts all four stops and stops the heartbeat. -/
  | grdDisable
  /-- ISP_CONTEXT_ENABLE (R423): Setting an ISP context's ENABLE runs the admission check. -/
  | ispContextEnable (isp : Nat)
  /-- PCIE_ENABLE (R753): Setting PCIE ENABLE trains the link and identifies the NVMe drive. -/
  | pcieEnable (link : PcieLink)
  /-- TLAOG_ZEROISE (R649): Writing the key value zeroises every key and enters the error state. -/
  | tlaogZeroise (value : Word)
  /-- TLAOG_CAK_DATA (R660): Writes successive words of a MACsec CAK, which takes effect at its last word. -/
  | tlaogCakData (value : Word)
  /-- RST_WARM (R773): Orders a warm restart that retires every context and reloads management and core-control firmware. -/
  | rstWarm (rq : Req)
  /-- RST_CFG_SAVE (R771): Stores the live values and weight record as the configuration region's snapshot. -/
  | rstCfgSave (rq : Req)
  /-- RST_REC_SEL (R771): Selects and starts the board or set record. -/
  | rstRecSel (rq : Req) (value : Word)
  /-- RST_REC_DATA (R771): Writes a word of the selected record, storing it at the last word. -/
  | rstRecData (rq : Req) (value : Word)
  /-- DATAGRAM_RECEIVE (R514): A received UDP datagram is checked in order and queued as a command or handled as set traffic or acknowledgement. -/
  | datagramReceive (dgram : Datagram)
  /-- COMMAND_DISPATCH (R526): A queued command is dispatched in acceptance order once the outbound store has room. -/
  | commandDispatch
  /-- OUTBOUND_RETRANSMIT (R523): An unacknowledged outbound entry is sent again when its doubling interval expires. -/
  | outboundRetransmit (sess : Nat) (num : Nat)
  /-- SESSION_IDLE_TIMEOUT (R521): A session from which nothing has arrived for 30 s ends. -/
  | sessionIdleTimeout (sess : Nat)
  /-- EVENTS_LOST_REPORT (R532): When room returns in the event share, one ETH_EVENTS_LOST event reports the discards. -/
  | eventsLostReport
  /-- ETH_LINK_UP (R546): A port's link comes up and the event is reported. -/
  | ethLinkUp (port : Nat) (link : LinkUp)
  /-- ETH_LINK_DOWN (R546): A port's link goes down and the event is reported. -/
  | ethLinkDown (port : Nat)
  /-- ENGINE_DESCRIPTOR_PUSH (R93): A control core pushes a descriptor offset into an engine-group queue, stalling when it is full. -/
  | engineDescriptorPush (core : Nat) (slot : Nat) (group : Nat) (off : Nat)
  /-- ENGINE_DESCRIPTOR_START (R130): A descriptor at the head of its queue is checked and, if valid, starts the engine. -/
  | engineDescriptorStart (core : Nat) (group : Nat)
  /-- ENGINE_DESCRIPTOR_COMPLETE (R142): An engine group reports completion of a descriptor with its writes visible to the narrow view. -/
  | engineDescriptorComplete (core : Nat) (group : Nat)
  /-- CORE_JUNCTION_BEAT (R127): A drained beat is accepted from a skid buffer and passed to the de-quantisation front. -/
  | coreJunctionBeat (core : Nat)
  /-- VIEW_FENCE (R142): A stage program's view fence makes prior narrow and wide writes visible across views. -/
  | viewFence (core : Nat) (slot : Nat)
  /-- WINDOW_WRITE_CHECK (R166): A write header reaching its window home is checked for writer, state, epoch and range. -/
  | windowWriteCheck (hdr : WinHdr)
  /-- WINDOW_WRITE_LAND (R160): An accepted write's last byte lands and ARRIVALS increments. -/
  | windowWriteLand (flight : Nat)
  /-- WIN_WAIT (R163): A stage begins to wait on a window's arrival counter. -/
  | winWait (core : Nat) (slot : Nat) (space : Nat) (win : Nat) (threshold : Option Nat)
  /-- WIN_CLOSE_COMPLETE (R170): After the accepted writes drain, the window becomes CLOSED and the close completes. -/
  | winCloseComplete (space : Nat) (entry : Nat)
  /-- CONVOY_DESCRIPTOR_PUSH (R201): A stage or firmware pushes a Convoy descriptor into its queue, stalling when full. -/
  | convoyDescriptorPush (core : Nat) (slot : Nat) (off : Nat)
  /-- CONVOY_DESCRIPTOR_CHECK (R212): A Convoy descriptor at its queue head is checked before any tile issues. -/
  | convoyDescriptorCheck (core : Nat) (queue : Nat)
  /-- CONVOY_TILE_ISSUE (R203): A queue issues the source read of its next tile when a tag is free. -/
  | convoyTileIssue (core : Nat) (queue : Nat)
  /-- CONVOY_TILE_LAND (R208): A tile expands or compresses and lands as a window or object write, or fails. -/
  | convoyTileLand (core : Nat) (queue : Nat)
  /-- CONVOY_DESCRIPTOR_COMPLETE (R211): A descriptor completes with status and tile count to its stage slot or firmware. -/
  | convoyDescriptorComplete (core : Nat) (queue : Nat)
  /-- SPAN_BANK_POWER_UP (R237): A bank powering down under a Convoy vote powers up again, clears its bits and serves the tile. -/
  | spanBankPowerUp (bank : Nat)
  /-- ZERO_FILL_COMPLETE (R233): An object's zero-fill completes, returning its charge, granules and handle. -/
  | zeroFillComplete (ctx : Nat) (handle : Nat)
  /-- KEY_RETIREMENT (R658): After the context's zero-fills, its key set is cleared and the ID returns to FREE. -/
  | keyRetirement (ctx : Nat)
  /-- PREFETCH_ISSUE (R228): Firmware issues a prefetch entry within 2 µs after its trigger boundary. -/
  | prefetchIssue (ctx : Nat) (slot : Nat)
  /-- STAGE_BOUNDARY (R244): A stage program marks a stage boundary, a pre-emption point. -/
  | stageBoundary (core : Nat) (slot : Nat)
  /-- PREEMPTION_POINT (R381): The last stage of an outgoing job reaches its pre-emption point and the core switches context. -/
  | preemptionPoint (core : Nat) (slot : Nat)
  /-- PHASE_END (R264): When every stage of a phase has ended, the leader's successor or END is taken. -/
  | phaseEnd (ctx : Nat) (succ : Option Nat)
  /-- RESHARD_START (R267): Firmware starts the re-shard plan of a transition, performing its open entries and step 0 moves. -/
  | reshardStart (ctx : Nat)
  /-- RESHARD_STEP_COMPLETE (R267): When every move of a step completes, the next step or the close entries and the next phase start. -/
  | reshardStepComplete (ctx : Nat)
  /-- JCT_BEAT_SEND (R252): A stage sends a beat to the chip Junction through its Convoy. -/
  | jctBeatSend (core : Nat) (slot : Nat) (group : Nat) (row : Nat) (off : Nat)
  /-- JCT_BEAT_ACCEPT (R254): The chip Junction accepts head beats in its fixed rotation and takes or joins a store slot. -/
  | jctBeatAccept
  /-- JCT_ROW_WRITE (R257): A complete slot is combined in ORDER and written as one window write. -/
  | jctRowWrite (ctx : Nat) (group : Nat) (row : Nat)
  /-- PIPE_JCT_STUCK (R261): A group with beats waiting writes no row for 10 ms and the job ends FAULT. -/
  | pipeJctStuck (ctx : Nat) (group : Nat)
  /-- KV_WALK_REQUEST (R301): The page-walk routine checks a walk request and pushes one Convoy descriptor per block. -/
  | kvWalkRequest (core : Nat) (slot : Nat) (off : Nat)
  /-- SCAN_CHUNK_REQUEST (R323): The stream routine checks a chunk request and starts its scan or ends it with a result. -/
  | scanChunkRequest (core : Nat) (slot : Nat) (off : Nat)
  /-- SCAN_CHUNK_COMPLETE (R326): A scanned chunk writes outputs and state and advances NEXT_STEP. -/
  | scanChunkComplete (core : Nat) (slot : Nat)
  /-- ANCHOR_WRITEBACK_LAND (R334): An anchor write-back lands at the home and HOME_STEP takes the anchor's step. -/
  | anchorWritebackLand (ctx : Nat) (index : Nat)
  /-- QUANTUM_EXPIRE (R376): A Shared turn's quantum elapses and its jobs are pre-empted when another entry is runnable. -/
  | quantumExpire
  /-- JOB_COMPLETE (R374): A job ends and the next queued RUN of the context starts. -/
  | jobComplete (ctx : Nat)
  /-- BRING_IN (R393): A RUN at the head of a PARKED context's queue places shares, restores program rows and upper copies. -/
  | bringIn (ctx : Nat)
  /-- SCHED_NO_BOUNDARY (R384): A job not stopped within twice its pre-emption bound ends FAULT. -/
  | schedNoBoundary (ctx : Nat)
  /-- CTX_REMOTE_TIMEOUT (R388): A remote-wait timer reaches REMOTE_TIMEOUT and the context enters STALLED. -/
  | ctxRemoteTimeout (ctx : Nat) (core : Nat) (slot : Nat)
  /-- CSI_FRAME_START (R424): A frame-start packet takes a Layby slot or discards a frame on overrun. -/
  | csiFrameStart (rx : Nat) (head : CsiHead) (frame : Nat)
  /-- CSI_LINE (R408): A long packet line is received, corrected or flagged, into the Layby. -/
  | csiLine (rx : Nat) (vc : Nat) (dt : Nat) (data : Bytes) (errs : Nat)
  /-- CSI_FRAME_END (R408): A frame-end packet closes the frame, filling short frames. -/
  | csiFrameEnd (rx : Nat) (head : CsiHead)
  /-- CAM_PRESENCE_CHANGE (R410): After 1 ms of activity or rest on the clock lane, PRESENT changes and CAM_ATTACHED or CAM_DETACHED is reported. -/
  | camPresenceChange (rx : Nat) (lanes : CamLanes)
  /-- CAM_MUTE_ON (R413): CAM_MUTE_N falls: receivers lose supply and every undelivered frame is abandoned. -/
  | camMuteOn
  /-- CAM_MUTE_OFF (R412): CAM_MUTE_N high for 20 ms restores the receivers' supply. -/
  | camMuteOff
  /-- ISP_UNIT_START (R420): The ISP switches in a ready unit under FIFO or at a rota slot. -/
  | ispUnitStart (isp : Nat)
  /-- ISP_UNIT_COMPLETE (R419): The ISP finishes a unit, writing outputs, statistics and the frame record after the last. -/
  | ispUnitComplete (isp : Nat)
  /-- ISP_ROTA_SLOT_END (R420): A rota entry's slot length ends and the next entry begins. -/
  | ispRotaSlotEnd
  /-- I3C_IBI (R439): An in-band interrupt is queued and reported. -/
  | i3cIbi (ctrl : Nat) (addr : Nat) (payload : Bytes)
  /-- I3C_HOT_JOIN (R439): A Hot-Join request is acknowledged and reported. -/
  | i3cHotJoin (ctrl : Nat)
  /-- SPOTTER_FRAME_END (R455): At each 160-sample frame end the spotter computes features, runs phrase networks and updates scores. -/
  | spotterFrameEnd (pdm : List Pdm)
  /-- HOLD_MAX_EXPIRE (R462): The hold vote held for HOLD_MAX_MS is withdrawn. -/
  | holdMaxExpire
  /-- AUDIO_BLOCK_END (R451): An enabled path writes a completed block of BLOCK_MS to its destination, header last. -/
  | audioBlockEnd (path : Nat) (time : Nat)
  /-- PREROLL_DELIVERY (R467): Once the destination window is reachable, the ring is delivered from the read point as PREROLL blocks. -/
  | prerollDelivery
  /-- MIC_MUTE_ON (R475): MIC_MUTE_N falls: PDM clocks stop, the ring and scores are zeroed and the hold vote withdrawn. -/
  | micMuteOn
  /-- MIC_MUTE_OFF (R476): MIC_MUTE_N high for 20 ms restarts the PDM clocks and decimators. -/
  | micMuteOff
  /-- SETTLING_END (R476): The 4 ms of zeroed settling samples after unmute end. -/
  | settlingEnd
  /-- CASCADE_DONE (R471): A cascade job completes, its action is read and the next armed entry's vote and run are queued. -/
  | cascadeDone (entry : Nat)
  /-- LINGER_EXPIRE (R470): A cascade vote's LINGER_MS elapses after its job and the vote is withdrawn. -/
  | lingerExpire (entry : Nat)
  /-- SENSOR_POLL (R483): A Guardrail slot's PERIOD_US elapses and it polls its sensor when the bus is free. -/
  | sensorPoll (slot : Nat)
  /-- SENSOR_FRAME (R488): An accepted sensor frame updates features and runs the counted evaluation and vote. -/
  | sensorFrame (slot : Nat) (data : Bytes)
  /-- GRD_IN_ACTIVE (R492): An active GRD_IN asserts the stops in its mask within 5 GCLK cycles. -/
  | grdInActive (levels : Nat)
  /-- GRD_STALE (R487): A slot without an accepted frame for STALE_US asserts its stale stops. -/
  | grdStale (slot : Nat)
  /-- HEARTBEAT_TOGGLE (R497): GRD_HB changes level every HB_HALF_US. -/
  | heartbeatToggle
  /-- GRD_PARITY_CHECK (R498): Every 1,024 GCLK cycles weight and configuration parity is checked, a failure latching a fault. -/
  | grdParityCheck (ok : Bool)
  /-- GCLK_GAP (R498): A GCLK gap over 1 µs asserts all stops with cause FAULT. -/
  | gclkGap
  /-- DOCK_N_EDGE (R626): DOCK_N changes; a rising edge wakes from DEEP or aborts a DEEP entry. -/
  | dockNEdge (level : Bool)
  /-- LANE_PUT (R554): A stage appends bytes to a lane packet, opening or closing it and making room by mode. -/
  | lanePut (core : Nat) (slot : Nat) (lane : Nat) (off : Nat) (len : Nat) (close : Bool)
  /-- LANE_HANDOVER (R562): The filling bank is handed over when the draining bank is empty and a condition holds, and its bytes are sent as DATA. -/
  | laneHandover (lane : Nat)
  /-- LANE_IDLE_EXPIRE (R563): A large lane's idle timer reaches IDLE_US and triggers hand-over. -/
  | laneIdleExpire (lane : Nat)
  /-- DDR_TRAINING_COMPLETE (R579): Training ends: DDR4 enters service or DDR_TRAIN_FAIL is reported. -/
  | ddrTrainingComplete (failed : Nat) (step : Nat)
  /-- DDR_MAINTENANCE_FRAME (R582): A maintenance frame issues all-bank refresh and due ZQ calibration. -/
  | ddrMaintenanceFrame
  /-- DDR_REQUEST_PRESENT (R592): A request is presented at a channel and waits for a queue entry and slot. -/
  | ddrRequestPresent (req : DdrReq)
  /-- DDR_REQUEST_COMPLETE (R602): A served request returns data or acknowledgement, correcting or failing on ECC. -/
  | ddrRequestComplete (channel : Nat) (id : Nat) (ecc : Ecc)
  /-- REFRESH_WINDOW_START (R597): A new refresh window resets activation counts and ends throttles. -/
  | refreshWindowStart
  /-- PATROL_SCRUB_READ (R680): The scrub reads its next unit and rewrites it when corrected. -/
  | patrolScrubRead (channel : Nat) (ecc : Ecc)
  /-- DOMAIN_DELAY_EXPIRE (R615): POWER_DOMAIN_DELAY passes with no vote and the domain goes down. -/
  | domainDelayExpire (domain : Nat)
  /-- CORE_IDLE_GATE (R616): An up core idle for 4 µs gates ACLK and CCLK. -/
  | coreIdleGate (core : Nat)
  /-- CORE_POWER_UP_COMPLETE (R616): A voted core is up 150 µs after its vote and waiting work starts. -/
  | corePowerUpComplete (core : Nat)
  /-- WAKE_N_FALL (R626): A falling WAKE_N held 10 µs wakes from DEEP or starts a cold boot from OFF. -/
  | wakeNFall
  /-- DEEP_TIMER_EXPIRE (R626): POWER_DEEP_TIMER expires and the chip leaves DEEP. -/
  | deepTimerExpire
  /-- DEEP_EXIT (R627): Supplies, PLLs, memories and DDR4 return and firmware resumes from retention. -/
  | deepExit (ok : Bool)
  /-- TABLE_RESTORE (R628): After exit the saved tables are restored context by context, or all contexts are destroyed on a bad save. -/
  | tableRestore
  /-- INT4_LIMIT (R630): The 100 ms average power crossing 60 W or 55 W moves ACLK between 2.0 and 1.7 GHz. -/
  | int4Limit (above : Bool)
  /-- ENVELOPE_GLIDE (R631): A committed envelope glides the clocks to their new caps within 50 µs. -/
  | envelopeGlide
  /-- THERM_N (R800): The hottest sensor crossing 100 °C or 95 °C drives or releases THERM_N. -/
  | thermN (temp : Nat)
  /-- THERMAL_TRIP (R801): At 120 °C the device drops PWR_MAIN_EN and PWR_ON. -/
  | thermalTrip
  /-- SEC_TAMPER (R637): A tamper sensor trigger zeroises the key store and enters the error state. -/
  | secTamper
  /-- PERIODIC_SELF_TEST (R666): Known-answer tests run every 24 operating hours, a failure entering the error state. -/
  | periodicSelfTest (pass : Bool)
  /-- MGMT_WATCHDOG_EXPIRE (R677): The 1 s watchdog expires and the management processor alone restarts. -/
  | mgmtWatchdogExpire
  /-- AUTO_FENCE (R682): A UE limit or missed core heartbeat fences a core automatically. -/
  | autoFence (core : Nat) (cause : Nat)
  /-- TRIAL_TIMEOUT (R694): No CONFIRM within the trial time reverts to the previous slot. -/
  | trialTimeout
  /-- HOUR_UNIT_TICK (R697): Each 1/64 h unit advances hours, and hourly Odometer samples are taken at each hour boundary. -/
  | hourUnitTick
  /-- ODOMETER_SAMPLE (R697): A periodic Odometer sample is binned. -/
  | odometerSample (id : Nat) (value : Nat)
  /-- ODOMETER_PERSIST (R700): Every 64 units the Odometer is persisted to alternating flash copies. -/
  | odometerPersist
  /-- SET_SESSION_OPEN (R711): A member opens or retries its set session toward a lower-indexed peer. -/
  | setSessionOpen (peer : Nat)
  /-- SET_REFRESH (R712): A set session silent for 1 ms sends HELLO REFRESH. -/
  | setRefresh (peer : Nat)
  /-- SET_PEER_DOWN (R712): A peer silent for 20 ms is lost and its unsettled writes complete TIMEOUT. -/
  | setPeerDown (peer : Nat)
  /-- CROSSING_INSTALL (R715): The Trunk installs a committed crossing entry at both ends. -/
  | crossingInstall (k : Nat) (a : Word) (b : Word)
  /-- REMOTE_WRITE_RECEIVE (R721): A remote write DATA packet is presented in SEQUENCE order to the window checks, or suppressed or dropped. -/
  | remoteWriteReceive (peer : Nat) (seq : Nat) (payload : Bytes)
  /-- SETTLEMENT_PACKET (R723): An advanced settlement not carried within 1 µs is sent as a settlement packet. -/
  | settlementPacket (peer : Nat)
  /-- REMOTE_WRITE_RETRANSMIT (R724): An unsettled write's timer expires and it and later writes are sent again. -/
  | remoteWriteRetransmit (peer : Nat)
  /-- SETTLEMENT_RECEIVE (R725): A settlement or report completes the sender's tiles. -/
  | settlementReceive (peer : Nat) (link : Nat) (report : Bytes)
  /-- ATTEST_REPORT_TIMEOUT (R731): A crossed member not returning its report within 50 ms is left out of the aggregate. -/
  | attestReportTimeout (ctx : Nat) (peer : Nat)
  /-- PORST_N (R767): Release of PORST_N starts the cold boot sequence to the first HELLO. -/
  | porstN (boot : BootInput)
  /-- REFCLK_INTERRUPTION (R759): A REFCLK interruption zeroises and holds the device in internal reset. -/
  | refclkInterruption
  /-- PLL_LOSS (R762): A PLL losing lock in service causes an internal power-on reset. -/
  | pllLoss (pll : Nat)
  /-- PCIE_LINK_DOWN (R754): Loss of the PCIe link fails T4 accesses and is reported. -/
  | pcieLinkDown
  /-- PCIE_LINK_UP (R754): The link and drive return and are reported. -/
  | pcieLinkUp (gen : Nat) (width : Nat)
  /-- PORST_N_ASSERTED (R763): A low pulse of at least 10 µs on PORST_N resets the device, discarding every domain's state under R764 and driving STOP_N low. -/
  | porstNAsserted
  /-- REFCLK_STABLE (R759): Once REFCLK has been stable for 1 ms after an interruption, the device leaves its internal power-on reset and a cold boot starts. -/
  | refclkStable
  /-- DECK_ISLAND_POWER_UP (R617): The Deck wide island and inbound Convoy port of a down core finish powering up and the window write waiting at the core router lands and counts. -/
  | deckIslandPowerUp (core : Nat)
  /-- PWR_MAIN_EN_MINIMUM_LOW_END (R791): The 8 ms minimum low time of PWR_MAIN_EN ends and a wake source that arrived sooner starts the exit from DEEP. -/
  | pwrMainEnMinimumLowEnd
  /-- PWR_ON_MINIMUM_LOW_END (R792): The 20 ms minimum low time of PWR_ON after an OFF entry ends and a latched WAKE_N edge raises PWR_ON. -/
  | pwrOnMinimumLowEnd
deriving DecidableEq, Repr

end Sys2Proof
end

