-- ==== Sys2Proof/Config.lean ====
section
/-!
DEFINITION. What the spec leaves open, as constants with no body: nothing in Lean can evaluate one, so every
claim about the model holds whatever they are. A value that may differ each time it is drawn is applied to
`State.draws`, the model's own counter. The published functions that the spec names and does not restate
(SHAKE256, AES-256, KMAC256, ML-DSA) stand here uninterpreted (assumption log, entry 5).
-/

namespace Sys2Proof.Config

/-- The IEEE 802.1AS time in ns that an event, a block or a record carries (R507, R530). -/
opaque freeTime : Nat → Nat

/-- Byte `i` of a value drawn by a random generator (R519 challenge and the like). -/
opaque freeByte : Nat → Nat → BitVec 8

/-- A measured amount that the spec bounds but does not fix: cycles that elapsed, energy, latency, ns. -/
opaque freeAmount : Nat → Nat → Nat

/-- An amount of a context's own activity, cycles or energy (R398, R399): by kind, context, the count of its own
amounts, and for a Shared context the model's counter. -/
opaque acctAmount : Nat → Nat → Nat → Nat → Nat

/-- What a Convoy operation that only the firmware issues (OP 2 to 7 of R204, whose effect the spec does not state) makes of
its source: byte `i`, by the descriptor, the bytes read, and whether it is the code strip. -/
opaque firmwareOp : List (BitVec 8) → List (BitVec 8) → Bool → Nat → BitVec 8

/-- The current EPOCH of a window on another device (R268), by device, context, job and the DST_SEL word that names it. -/
opaque remoteEpoch : Nat → Nat → Nat → Nat → Nat

/-- A single free choice between two outcomes the spec allows. -/
opaque freeBit : Nat → Bool

/-- The low-order bits of a result that the spec holds to an error bound and not to a value (R123, R124). -/
opaque freeResult : Nat → BitVec 32 → BitVec 32 → BitVec 32

/-- Byte `i` of the SHAKE256 output over a message (FIPS 202, named by R341 and others). -/
opaque shakeByte : List (BitVec 8) → Nat → BitVec 8

/-- Byte `i` of KMAC256 with a 32-byte output over a key and a message (R640 ff.). -/
opaque kmacByte : List (BitVec 8) → List (BitVec 8) → Nat → BitVec 8

/-- AES-256 of one 128-bit block under a key (FIPS 197, named by R650 and R651). -/
opaque aes256 : List (BitVec 8) → BitVec 128 → BitVec 128

/-- ML-DSA-65 verification (FIPS 204) of a signature over a message, under the key that a SHAKE256 key digest
names (R345, R519, R640). -/
opaque mldsaVerify : List (BitVec 8) → List (BitVec 8) → List (BitVec 8) → Bool

/-- Byte `i` of an ML-DSA-65 signature by the device's attestation key over a message (R661 ff.). -/
opaque mldsaSignByte : List (BitVec 8) → Nat → BitVec 8

/-- Byte `i` of a part's own constant: device key digest, part identity and the like. -/
opaque deviceByte : Nat → Nat → BitVec 8

/-- Byte `i` of a key digest that the part was provisioned with: 0 the management key of its policy, 1 the firmware
key and 2 the owner key of its fuses. -/
opaque provisionedByte : Nat → Nat → BitVec 8

/-- The sample that a filter of the ISP reads beyond the edge of the frame, which R425 does not state, by row
and column. -/
opaque edgeSample : Int → Int → Nat

/-- A spotter feature (R455), which the device gives within one code of the exact computation, by the samples and the band. -/
opaque wakeFeature : List Int → Nat → BitVec 8

/-- What R455 leaves open of that computation: whether the Hann window of 400 samples is the periodic one, and the frequency
of corner `j` of the mel filters, in units of 2⁻¹⁶ Hz, for the corners between 60 Hz and 7,600 Hz. -/
opaque hannPeriodic : Bool
opaque melCorner : Nat → Nat

/-- The taps of the decimation paths, in units of 2⁻³² (R444, R445, which state their number and R447 their response alone): tap
`k` of the 31-tap filter of the low-power path, of half-band stage 0 to 2 of the high-quality path, and of its 63-tap filter. -/
opaque lpTap : Nat → Int
opaque hqHalfTap : Nat → Nat → Int
opaque hqTap : Nat → Int

/-- The multiply-accumulates per frame that the device computes for a phrase record whose layers have strides (R457). -/
opaque macPerFrame : List (BitVec 8) → Nat

/-- The VDD_CORE target in mV that the device writes for an envelope (R786). -/
opaque avsMv : Nat → Nat

/-- An upset of the on-chip memory (R678, R679), by the draw: none, or a Deck or the Span, a 64-bit word of it, and whether
its error can be corrected. -/
opaque upset : Nat → Option (Nat × Nat × Bool)

/-- The order of the weights of a phrase network's layer, which R458 does not state: the index of a weight
from its type, kernel and channel counts, its output channel, frame and input channel. -/
opaque wakeWeight : Nat → Nat → Nat → Nat → Nat → Nat → Nat → Nat

/-- What a layer of a phrase network reads for frames before its first input, by channel (R459 does not state it). -/
opaque wakePrior : Nat → BitVec 8

/-- The JESD79-4 minimum, in nCK, of a timing field for a speed bin (R608), and of TRFC for a bin and a density. -/
opaque jedecMin : Nat → Nat → Nat
opaque jedecTrfc : Nat → Nat → Nat

/-- The firmware reserve of T3 in MiB, by the installed capacity in MiB (R194). -/
opaque ddrReserve : Nat → Nat

/-- The rank, bank and row of a line of a channel (R584: internal to the device), in the layout of
DDRn_CE_ADDR0 (R607), and its column. -/
opaque ddrMap : Nat → Nat → BitVec 32
opaque ddrColumn : Nat → Nat → BitVec 10

/-- What the header of a mirror copy says (R728, R729): the handle, the offset, and the Trunk object's KIND, CODING and
stored-size bound. -/
structure MirrorCopy where
  handle : Nat
  off : Nat
  kind : Nat
  coding : Nat
  storedM1 : Nat
deriving DecidableEq, Repr

/-- The header of a mirror copy, whose layout is not stated, from its first 16 bytes. -/
opaque mirrorCopy : List (BitVec 8) → Option MirrorCopy

end Sys2Proof.Config
end

