-- ==== Sys2Proof/Machine/State.lean ====
section
/-!
DEFINITION. The state of the block as plain data: every register, queue, table, counter, mode and pin that
the spec gives the machine, with the queue of commands that wait. The default value of every field is its
value right after reset, so `State.reset` is the structure with no field given. A table (`Tab`) lists only
the entries that differ from what its docstring says an unlisted entry holds.
-/

namespace Sys2Proof.Machine

/-- Why a step stops. There is no such reason: the spec gives every command an effect on every state, so no step of the block
ends in a fault. -/
inductive Fault
deriving DecidableEq, Repr

/-- Why the model gives no meaning. -/
inductive Refusal where
  /-- The arm of `exec` for a command without a meaning. Safe: nothing is claimed of it. -/
  | notModelled (mnemonic : String)
deriving DecidableEq, Repr

/-! ## Codes -/

/-- The status codes of a reply or an event (R517). -/
inductive Status where
  | ok | busy | refused | noContext | noQuota | auth | malformed | timeout | preempted | windowClosed
  | fault | stalled
deriving DecidableEq, Repr

/-- The reason codes of the master table (R756), with `none` for code 0x0000. -/
inductive Reason where
  | none
  | loadContainer | loadTarget | loadFormat | loadDigest | loadSignature | loadUnsigned | loadStructure | loadCores
  | loadBinding | loadObjDigest | loadStageTime | loadDeck | loadSpan | loadWindows | loadJunction | loadTierQuota
  | loadSlots | loadEmpty | loadImageBusy | loadObjLocked | engVersion | engRange | engShape | engPairing
  | engBounds | engGroup | cvVersion | cvOp | cvEndpoint | cvAlign | cvShape | cvCodes
  | cvBounds | pipeSuccessor | pipeJctOrder | pipeJctStuck | pipeJctDest | pipeReshard | pipeWait | kvWalkVersion
  | kvWalkRange | kvWalkSeq | scanVersion | scanRange | scanHome | lanePutFault | ctxNoneFree | ctxCores
  | ctxPartition | ctxParam | ctxUnknown | runQueueFull | ctxBringIn | ctxParkQuota | preemptState | schedNoBoundary
  | schedCancelled | ctxRemoteTimeout | ctxRemoteResumed | schedBoundExceeded | schedTableFull | objHandle | objQuota | objTableFull
  | quotaOvercommit | quotaInUse | objRange | objBusy | objImage | ibcMalformed | ibcOversize | objTier
  | objSize | quotaParam | objParam | winAlign | winBounds | winOverlap | winWriters | winIndex
  | winState | winDenied | winRange | kvSeqInUse | kvSeqUnknown | kvGeometry | kvRefcount | kvBusy
  | streamIndex | streamState | streamGeometry | streamObject | ddrNotReady | ddrUncorrectable | ddrConfig | ddrInService
  | ddrTrainFail | ddrCeRate | ddrUe | ddrRowThrottle | pcieParam | pcieNotReady | pcieLinkUp | pcieLinkDown
  | camRxParam | camStreamParam | camStreamDup | camLayby | ispOwner | ispSource | ispOvercommit | ispGeometry
  | ispDest | ispRota | i3cNack | i3cBus | i3cParam | camAttached | camDetached | camMuteOn
  | camMuteOff | i3cIbi | i3cHotJoin | ispOverrun | audOwner | audParam | audHqClock | audGeometry
  | wakeFormat | wakeCompute | casSlot | micMuteOn | micMuteOff | wakeVerdict | cascadeDone | grdWeightFormat
  | grdLoadEnabled | grdNotReady | grdParam | grdReleaseActive | grdStop | grdReleased | grdFault | grdStale
  | ethVersion | ethLength | ethOpcode | ethPort | ethSession | ethAuth | ethQueueFull | ethCtxLimit
  | ethStaleSeq | ethRegAccess | ethParam | ethSessionsFull | ethRegWrite | ethCfgParam | ethLinkUp | ethLinkDown
  | ethEventsLost | laneParam | laneOwner | laneDisabled | laneLevel | setPeerLost | setNoCrossing | setCrossingParam
  | setNotTrunk | setMirror | setPeerUp | setPeerDown | pwrRefused | pwrState | pwrNoSave | pwrDomain
  | pwrEnvelope | pwrEntering | pwrParam | pwrStateChange | pwrT3Lost | pwrRestoreFail | rstParam | rstBusy
  | cfgRegionBad | bootDone | secIntegrity | secReplay | secSealedTier | secSealedFull | secSelftest | secPolicy
  | secRollback | secIntegrityFail | secError | secTamper | secBootFallback | relDeckUe | relSpanUe | relCoreFenced
  | relCoreOut | relCoreParam | relNotFenced | relNoRelief | relBusy | relReliefFail | relReloadNeeded | fwFormat
  | fwSignature | fwSequence | fwMode | odoCursor | cntSelect | relFence | relRepaired | relEccUe
  | relUpperLost | relMgmtRestart | fwReverted | fwConfirmed | odoLost | relParam
deriving DecidableEq, Repr

/-- The CLASS field of a packet (R512). -/
inductive PktClass where
  | cmd | rsp | evt | data
deriving DecidableEq, Repr

/-! ## Kraros (14) -/

/-- How a sent packet is addressed (R506, R509): the Ethernet port; the interface's own address, IPv4 addresses being in
IPv4-mapped form, and UDP port; the destination's; and the interface's VLAN tag, PCP and VID. -/
structure Wire where
  port : Nat := 0
  src : Nat := 0
  sport : Nat := 0
  dst : Nat := 0
  dport : Nat := 0
  tag : Option (Nat × Nat) := none
deriving DecidableEq, Repr

/-- A packet that the device sends (R512). -/
structure Packet where
  sess : Nat := 0
  cls : PktClass := .rsp
  op : Nat := 0
  seq : Nat := 0
  ctx : Nat := 0
  status : Status := .ok
  interim : Bool := false
  device : Bool := false
  reason : Reason := .none
  link : Nat := 0
  payload : Bytes := []
  /-- R509, R512 (14): how it left, once it is sent. -/
  wire : Option Wire := none
deriving DecidableEq, Repr

/-- A session of an interface (R518 to R523). -/
structure Session where
  /-- R518 (14): the interface the session belongs to, 1 bit. Reset: no session. -/
  iface : Iface := .host
  /-- R518 (14): the source address, the source UDP port and the Ethernet port. Reset: no session. -/
  src : Nat := 0
  sport : Nat := 0
  port : Nat := 0
  /-- R515, R710 (14, 20): the set index of the peer when this is a set session. Reset: none. -/
  peer : Option Nat := none
  /-- R519 (14): the session has proved, 1 bit. Reset: 0. -/
  proved : Bool := false
  /-- R531 (14): the session subscribed to events, 1 bit. Reset: 0. -/
  events : Bool := false
  /-- R534 (14): the granted MAX_PAYLOAD, 16 bits. Reset: 1,024. -/
  maxPayload : Nat := 1024
  /-- R519 (14): the 32-byte challenge of the OPEN reply. Reset: none. -/
  challenge : Bytes := []
  /-- R518, R520 (14): the SEQUENCE of the OPEN that created the session, 32 bits. Reset: no session. -/
  openSeq : Nat := 0
  /-- R520 (14): the last 1,024 accepted numbers, newest first, 32 bits each. Reset: none. -/
  remembered : List Nat := []
  /-- R520 (14): the highest accepted number, 32 bits. Reset: none. -/
  highest : Option Nat := none
  /-- R520 (14): the accepted commands whose final reply has not been formed. Reset: none. -/
  inProgress : List Nat := []
  /-- R523 (14): the next outbound number, 32 bits. Reset: 1. -/
  nextOut : Nat := 1
  /-- R701 (19): the session's Odometer snapshot, bytes. Reset: none. -/
  snapshot : Bytes := []
deriving DecidableEq, Repr

/-- A queued command (R525): its header and payload. -/
structure QEntry where
  req : Req
  op : Nat
  payload : Bytes
  /-- R513 (14): a reserved header field was not zero -/
  bad : Bool := false
deriving DecidableEq, Repr

/-- An entry of the outbound store (R523): the packet and the interval, in ms, of its next resend. -/
structure OutEntry where
  pkt : Packet
  interval : Nat := 2
  /-- the lane whose bytes the packet carries, if it is lane data (R533) -/
  lane : Option Nat := none
deriving DecidableEq, Repr

/-- The status of an Ethernet port (R510, ETH_PORTp_STATUS). -/
structure Port where
  link : Bool := false
  speed : Nat := 0
  macsec : Bool := false
deriving DecidableEq, Repr

/-- The Kraros layer. -/
structure Net where
  /-- R518 (14): the live sessions by ID, 32 bits each. Reset: none. -/
  sessions : Tab Session := []
  /-- R518 (14): the next SESSION, never reused before a cold boot, 32 bits. Reset: 1 (DESIGN CHOICE, entry 3). -/
  nextSession : Nat := 1
  /-- R525 (14): the command queue, 256 entries. Reset: empty. -/
  queue : List QEntry := []
  /-- R526 (14): the dispatched commands that have not been executed. Reset: empty. -/
  dispatched : List Instr := []
  /-- R523, R526 (14): the outbound store, 4,096 entries. Reset: empty. -/
  outbound : List OutEntry := []
  /-- R531 (14): the events held for no subscribed session. Reset: none. -/
  held : List Packet := []
  /-- R530 (14): the next event number, 32 bits. Reset: 0. -/
  evtNum : Nat := 0
  /-- R510 (14): ETH_EVENTS_LOST, 32 bits, saturating. Reset: 0. -/
  eventsLost : Nat := 0
  /-- R532 (14): the events discarded since the last ETH_EVENTS_LOST event. Reset: 0. -/
  lostSince : Nat := 0
  /-- R510 (14): ETH_RX_DROP, 32 bits, saturating. Reset: 0. -/
  rxDrop : Nat := 0
  /-- R510 (14): ETH_PORTp_STATUS of ports 0, 1, 2 and M, 32 bits each. Reset: 0. -/
  ports : Tab Port := []
  /-- R512 (14): the packets the device has sent, newest first (the model's record of its output). Reset: none. -/
  sent : List Packet := []
  /-- R508 (14): where the bridge has seen a station: the port, by VID × 2⁴⁸ + MAC address. Reset: none. -/
  stations : Tab Nat := []
  /-- R507 (14): IEEE 802.1Q VLAN filtering: the ports 0 to 2 that are members of a VID, 3 bits; an unlisted VID has all
  three. Reset: none listed (DESIGN CHOICE, entry 106: no register sets it). -/
  vlans : Tab Nat := []
  /-- R507 (14): IEEE 802.1Qci: the streams, by VID × 2⁴⁸ + source MAC address, whose gate is closed; 64 at most. Reset: none
  (DESIGN CHOICE, entry 106). -/
  gated : List Nat := []
  /-- R507, R508 (14): the other frames that have left, with the port of each, newest first: those bridged, and the answers
  to ARP, NDP and ICMP echo (the model's record of its output). Reset: none. -/
  frames : List (Nat × Datagram) := []
deriving DecidableEq, Repr

/-! ## Registers (21) -/

/-- A page's control and status words (R738). -/
structure Page where
  /-- R738 (21): CTRL.ENABLE, 1 bit. Reset: per page, `pageReset`. -/
  enable : Bool := false
  /-- R738 (21): STATUS.COMMIT_PENDING, 1 bit. Reset: 0. -/
  pending : Bool := false
  /-- R738 (21): STATUS.CFG_REASON, 16 bits. Reset: 0x0000. -/
  cfgReason : Reason := .none
  /-- R738 (21): STATUS.FROZEN_WRITE, 1 bit. Reset: 0. -/
  frozenWrite : Bool := false
deriving DecidableEq, Repr

/-- A command whose reply waits for commits (R744): its opcode, the count it has written, the pages still
pending, and the first refusal. -/
structure RegWait where
  req : Req
  op : Nat := 0
  count : Nat := 0
  left : List Nat := []
  refusal : Option Reason := none
deriving DecidableEq, Repr

/-- The configuration registers (R739). An unlisted register holds its reset value (`regReset`). -/
structure Regs where
  /-- R739 (21): the live copy of every RW and RWS register by address, 32 bits. Reset: the Reset column. -/
  live : Tab Word := []
  /-- R739 (21): the shadow copy of every RWS register by address, 32 bits. Reset: the Reset column. -/
  shadow : Tab Word := []
  /-- R738 (21): the pages by base address. Reset: `pageReset`. -/
  pages : Tab Page := []
  /-- R744 (21): the commands that wait for a commit. Reset: none. -/
  waits : List RegWait := []
deriving DecidableEq, Repr

/-! ## On-chip memory and windows (04) -/

/-- A Deck or the Span: bytes and row valid bits (R132, R146). -/
structure Ram where
  /-- R132 (04): the bytes, 12 MiB for a Deck and 32 MiB for the Span, in canonical form; an unlisted byte
  holds 0. Reset: nothing listed (DESIGN CHOICE, entry 2; rows are invalid and read as zero). -/
  mem : List Host.Cell := []
  /-- R146 (04): the rows whose valid bit is set, rising. Reset: none set (R151). -/
  valid : List Nat := []
  /-- R678, R679 (19): the 64-bit words, by address ÷ 8, that hold an error which a read corrects, and those that hold one
  which it cannot correct. Reset: none. -/
  soft : List Nat := []
  bad : List Nat := []
deriving DecidableEq, Repr

/-- STATE of a window entry (R156). -/
inductive WinState where
  | closed | opened | closing
deriving DecidableEq, Repr

/-- A window entry (R156). -/
structure Win where
  /-- R156 (04): STATE, 2 bits. Reset: 0b00 CLOSED. -/
  state : WinState := .closed
  /-- R156 (04): SLOT, 2 bits, and OWNER_CTX, 9 bits. Reset: 0. -/
  slot : Nat := 0
  ctx : Nat := 0
  /-- R156 (04): EPOCH, 8 bits. Reset: 0. -/
  epoch : Nat := 0
  /-- R156 (04): WIN_BASE and WIN_LIMIT rows, 24 bits each. Reset: 0. -/
  base : Nat := 0
  limit : Nat := 0
  /-- R156 (04): WIN_WRITERS, 32 bits. Reset: 0. -/
  writers : Nat := 0
  /-- R156 (04): ARRIVALS, 32 bits. Reset: 0. -/
  arrivals : Nat := 0
  /-- R156 (04): THRESHOLD, 32 bits. Reset: 0. -/
  threshold : Nat := 0
  /-- R156 (04): DISCARDS, 32 bits, saturating. Reset: 0. -/
  discards : Nat := 0
  /-- R156 (04): WAITING, 1 bit: the stage that waits, as core and stage slot. Reset: none. -/
  waiting : Option (Nat × Nat) := none
  /-- R156 (04): REJECTS, 16 bits, saturating. Reset: 0. -/
  rejects : Nat := 0
  /-- R171 (04): the closes that complete with the one under way: who asked for each, and the slot it named. Reset: none. -/
  closers : List (WinBy × Nat) := []
deriving DecidableEq, Repr

/-- Who is told of a window write's fate (R167, R174). -/
inductive WriteFrom where
  /-- a WIN_WRITE command of the host (R541) -/
  | host (req : Req)
  /-- a tile of a Convoy descriptor, by physical core, queue, the descriptor's number and the tile (R208) -/
  | convoy (core queue id tile : Nat)
  /-- the code strip of a tile, by the same (R207, R208) -/
  | strip (core queue id : Nat)
  /-- a row of a chip Junction group, by context, job, group, row and the logical core that writes it (R257, R259) -/
  | junction (ctx job group row core : Nat)
  /-- a remote write, by set index and write number (R721) -/
  | remote (peer seq : Nat)
  /-- a line of a frame's output, by ISP context, stream, frame number and output; output 3 is its record, and 4 what fills
  the record's slot beside it (R430 to R432) -/
  | isp (isp stream frame out : Nat)
  /-- a write of an audio block, by path and block number (R451) -/
  | audio (path block : Nat)
  /-- a block of the device whose write has no completion to report -/
  | block
deriving DecidableEq, Repr

/-- A window write accepted at its home and not yet landed (R167, R168). -/
structure Flight where
  home : Nat := 0
  entry : Nat := 0
  base : Nat := 0
  off : Nat := 0
  data : Bytes := []
  pitch : Nat := 0
  row : Nat := 0
  writer : Writer := .host
  src : WriteFrom := .block
deriving DecidableEq, Repr

/-! ## Objects, tiers and Convoy (05) -/

/-- The upper copy of an object (R183): its tier, 1 to 3, its logical core in T1, and its first row, or its
first granule in T3. -/
structure Upper where
  tier : Nat := 0
  core : Nat := 0
  loc : Nat := 0
deriving DecidableEq, Repr

/-- A valid entry of an object table (R183). -/
structure Obj where
  /-- R183 (05): OBJ_CTRL.SEALED, 1 bit. -/
  sealed : Bool := false
  /-- R183 (05): OBJ_CTRL.ENCRYPTED, 1 bit. -/
  encrypted : Bool := false
  /-- R183 (05): OBJ_CTRL.EVICTABLE, 1 bit. -/
  evictable : Bool := false
  /-- R183 (05): OBJ_CTRL.KIND and CODING, 2 bits each. -/
  kind : Nat := 0
  coding : Nat := 0
  /-- R183 (05): OBJ_CTRL.HOME_TIER, 3 bits. -/
  homeTier : Nat := 3
  /-- R183 (05): OBJ_CTRL.UPPER_TIER and UPPER_LOC: the upper copy. -/
  upper : Option Upper := none
  /-- R183 (05): OBJ_CTRL.DIRTY, PINNED and NOFILL, 1 bit each. -/
  dirty : Bool := false
  pinned : Bool := false
  nofill : Bool := false
  /-- R183 (05): OBJ_CTRL.TILE_FMT, 3 bits. -/
  fmt : Nat := 7
  /-- R183, R184 (05): OBJ_SIZE.TILES_M1, 24 bits. -/
  tilesM1 : Nat := 0
  /-- R183 (05): HOME_LOC: the first granule in T3 or T4, 36 bits, or the first row in T1 or T2. -/
  home : Nat := 0
  /-- R183 (05): UPPER_LOC.CORE: the logical core of a home in T1, 3 bits. -/
  homeCore : Nat := 0
  /-- R183 (05): OBJ_STORED.GRANULES_M1, 24 bits. -/
  storedM1 : Nat := 0
  /-- R183, R190 (05): USE_SEQ, 32 bits. An object that nothing has used yet holds 0 (DESIGN CHOICE, entry 116: R190 gives
  no first value). -/
  useSeq : Nat := 0
  /-- R655 (18): the SEALED regions the object occupies. -/
  regions : List Nat := []
deriving DecidableEq, Repr

/-- A freed object whose zero-fill has not completed (R233, R234). -/
structure ZeroFill where
  tier : Nat := 3
  first : Nat := 0
  count : Nat := 0
  sealed : Bool := false
  regions : List Nat := []
deriving DecidableEq, Repr

/-- What a line of T3 or T4 carries beside its bytes (R650, R651): the key set it was written under, its
granule's MAJOR and its own MINOR, and that its tag is valid. An unlisted line has no valid tag. -/
structure Line where
  key : Nat := 0
  major : Nat := 0
  minor : Nat := 0
deriving DecidableEq, Repr

/-- A 64-byte node of a counter tree (R656): eight 56-bit counters and the node tag. A tag is held as what it is computed over,
as a line's is (entry 118): the counters, and the node's own counter in its parent. -/
structure CtrNode where
  /-- R656 (18): the counters by slot, 56 bits each. Reset: 0. -/
  counters : Tab Nat := []
  /-- R656 (18): the node tag, 64 bits: the counters and the parent's counter it was computed over. Reset: of zeros. -/
  tagged : Tab Nat := []
  parent : Nat := 0
deriving DecidableEq, Repr

/-- T3 or T4 as its clients see it: the plaintext of each tagged line and the line's tag data. -/
structure Ext where
  /-- R176, R178 (05): the plaintext bytes, in canonical form; an unlisted byte is 0. Reset: nothing listed
  (DESIGN CHOICE, entry 2; no line has a valid tag, so a read fails). -/
  mem : List Host.Cell := []
  /-- R651 (18): the lines with a valid tag, by address ÷ 64. Reset: none. -/
  lines : Tab Line := []
  /-- R656 (18): the nodes of the counter trees of T3's regions, by `nodeKey`. Reset: every counter 0. -/
  nodes : Tab CtrNode := []
  /-- R656, R657 (18): the on-chip root of each region's tree: the counter of its L4 node, 56 bits. Reset: 0. -/
  roots : Tab Nat := []
  /-- R680 (19): the lines that hold an uncorrectable error. Reset: none. -/
  bad : List Nat := []
deriving DecidableEq, Repr

/-- What a Convoy descriptor of the firmware queue is made for. -/
inductive CvFor where
  /-- a stage's own descriptor -/
  | stage
  /-- a prefetch entry (R228) -/
  | prefetch
  /-- a move of a re-shard step (R267) -/
  | reshard
  /-- a page walk's block (R301): the sequence, the page-table entry, the page, and for a write the new FILL and
  KEEP (R291) -/
  | walk (seq pte handle : Nat) (write : Option (Nat × Bool))
  /-- a re-placed upper copy of a bring-in (R393) -/
  | bringIn
deriving DecidableEq, Repr

/-- An entry of a Convoy queue (R201, R204): where its descriptor stands, what has become of it, and for
whom it is. -/
structure CvEntry where
  /-- the descriptor's number on its core (the model's own name for it) -/
  id : Nat := 0
  /-- R204 (05): the 32 descriptor bytes, once read; a stage's are read at the queue head. -/
  body : Option Bytes := none
  /-- R204 (05): the byte offset of a stage's descriptor in the Deck share. -/
  off : Nat := 0
  ctx : Nat := 0
  /-- the image slot whose job issues it -/
  slot : Nat := 0
  purpose : CvFor := .stage
  /-- R212 (05): the check at the head has passed. -/
  checked : Bool := false
  /-- R202, R203 (05): the tiles issued and the tiles landed or discarded; each tile between holds a tag. -/
  issued : Nat := 0
  landed : Nat := 0
  /-- R202 (05): the tiles issued and neither landed nor offered to a home: index, code strip and elements. -/
  tiles : List (Nat × Option Bytes × Bytes) := []
  /-- R211 (05): no further tile is issued, with the status that the completion carries. -/
  stop : Option (Status × Reason) := none
  /-- R211 (05): the tiles discarded among those counted in `landed`. -/
  discarded : Nat := 0
deriving DecidableEq, Repr

/-- A completion that Convoy reports (R211). -/
structure CvDone where
  queue : Nat
  status : Status
  reason : Reason
  tiles : Nat
deriving DecidableEq, Repr

/-! ## Images (09) and pipelines (06) -/

/-- A stage entry (R240). -/
structure StageEnt where
  phase : Nat := 0
  stage : Nat := 0
  core : Nat := 0
  slot : Nat := 0
  groups : Nat := 0
  leader : Bool := false
  off : Nat := 0
  bytes : Nat := 0
deriving DecidableEq, Repr

/-- A phase entry (R263). -/
structure PhaseEnt where
  phase : Nat := 0
  stages : Nat := 0
  succ : Nat := 0
  groups : Nat := 0
deriving DecidableEq, Repr

/-- A Junction-group entry (R251). -/
structure JctEnt where
  contrib : Nat := 0
  fmt : Nat := 0
  gather : Bool := false
  group : Nat := 0
  slots : Nat := 0
  phase : Nat := 0
  order : List Nat := []
  space : Nat := 0
  win : Nat := 0
  rows : Nat := 0
deriving DecidableEq, Repr

/-- A re-shard entry (R266). -/
structure ReshardEnt where
  src : Nat := 0
  dst : Nat := 0
  core : Nat := 0
  kind : Nat := 0
  step : Nat := 0
  win : Nat := 0
  space : Nat := 0
  body : Bytes := []
deriving DecidableEq, Repr

/-- A prefetch entry (R227). -/
structure PrefetchEnt where
  trigPhase : Nat := 0
  trigStage : Nat := 0
  trigCount : Nat := 0
  needPhase : Nat := 0
  needStage : Nat := 0
  needCount : Nat := 0
  body : Bytes := []
deriving DecidableEq, Repr

/-- A loaded image (R347, R354). -/
structure Image where
  /-- R341 (09): the image digest, 64 bytes. -/
  digest : Bytes := []
  /-- R354 (09): the CHECK entries: object index, handle and digest. -/
  checks : List (Nat × Nat × Bytes) := []
  /-- R144, R352 (04, 09): the shares by space (0 to 7, 8 for the Span): first row and length. -/
  shares : Tab (Nat × Nat) := []
  /-- R352 (09): the rows of share that the image needs, by space. -/
  rows : Tab Nat := []
  /-- R155 (04): the window allotment by space: the entry numbers, in index order. -/
  wins : Tab (List Nat) := []
  /-- R262 (06): the chip Junction slots granted. -/
  jctSlots : Nat := 0
  /-- R343 (09): the handle of every manifest entry, by object index. -/
  handles : List Nat := []
  /-- R354 (09): the handles allocated at load. -/
  allocated : List Nat := []
  /-- R357 (09): the handles the image names, and those it checked. -/
  bound : List Nat := []
  locked : List Nat := []
  /-- R353 (09): the T3 granules charged for the kept tables. -/
  tableGranules : Nat := 0
  /-- R354 (09): the program rows by logical core, as a row count from the share's first row. -/
  progRows : Tab Nat := []
  /-- R342 (09): CORES of its RESOURCES, 8 bits. -/
  cores : Nat := 0
  stages : List StageEnt := []
  phases : List PhaseEnt := []
  groups : List JctEnt := []
  reshard : List ReshardEnt := []
  prefetch : List PrefetchEnt := []
  /-- R228 (05): how many prefetch entries of the current phase have been issued, in schedule order. -/
  prefetchNext : Nat := 0
  /-- R338, R351 (09): FEATURES and the stage time in ns at nominal clocks. -/
  features : Nat := 0
  stageNs : Nat := 0
  /-- R385 (10): the excess over the pre-emption bound has been reported. -/
  boundReported : Bool := false
  /-- R689 (19): a repair took the image's program rows. -/
  reload : Bool := false
  /-- R663 (18): the handle of the image object. -/
  obj : Nat := 0
deriving DecidableEq, Repr

/-- What a stage of a running job does (R378, R560). -/
inductive StageSt where
  | running
  /-- it waits on a window, by space and index (R163) -/
  | waiting (space win : Nat)
  /-- its put waits for room in a lane (R560) -/
  | putWait (lane : Nat)
  /-- it has stopped at a pre-emption point (R380) -/
  | stopped
  | ended
deriving DecidableEq, Repr

/-- A stage of the running job (R240 to R244). -/
structure StageRun where
  core : Nat := 0
  slot : Nat := 0
  stage : Nat := 0
  groups : Nat := 0
  leader : Bool := false
  st : StageSt := .running
  /-- R244 (06): the boundary count. -/
  boundary : Nat := 0
  /-- R158, R171 (04): what its latest WIN_OPEN or WIN_CLOSE was answered: status, reason, and the EPOCH or the ARRIVALS. -/
  answer : Option (Status × Reason × Nat) := none
  /-- R556 (15): the result of its latest lane put, 2 bits: 0 OK, 1 TOO_LONG, 2 DISABLED. -/
  put : Option Nat := none
deriving DecidableEq, Repr

/-- Why a job was ordered to stop (R379, R388, R390, R384). -/
inductive StopOrder where
  | turn | yield | cancel | destroy | fence | stall
deriving DecidableEq, Repr

/-- A phase transition under way (R267): its phases, its step, and its moves not yet completed. -/
structure Trans where
  src : Nat := 0
  dst : Nat := 0
  /-- R267 (06): RESHARD_START has performed the open entries and issued the first step. -/
  begun : Bool := false
  step : Nat := 0
  left : Nat := 0
  failed : Bool := false
deriving DecidableEq, Repr

/-- A RUN, queued or running (R374, R539). -/
structure RunReq where
  req : Req
  slot : Nat
  param : Nat
  /-- R469 (12): the cascade entry that issued it, if Wayside did. -/
  milestone : Option Nat := none
deriving DecidableEq, Repr

/-- The job of a context (R374). -/
structure Job where
  run : RunReq
  /-- R539 (14): JOB, 32 bits. -/
  id : Nat := 1
  phase : Nat := 0
  stages : List StageRun := []
  trans : Option Trans := none
  /-- R375, R376 (10): the job holds its cores. -/
  onCores : Bool := false
  /-- R379 (10): the job has yielded during the present turn and resumes at its next one. -/
  yielded : Bool := false
  /-- R379 (10): the order that has not yet taken effect on every stage. -/
  order : Option StopOrder := none
  /-- R389 (10): the milder order that the order of a stall replaced. -/
  held : Option StopOrder := none
  /-- R390 (10): the context was STALLED when RUN_CANCEL arrived. -/
  cancelStalled : Bool := false
  /-- R379, R390 (10): the commands that reply when the job has stopped. -/
  waiters : List (Req × Nat) := []
  /-- R264, R131 (06, 03): the job has ended, with the status and reason of its reply. -/
  ended : Option (Status × Reason) := none
  /-- R388 (10): the stage whose remote wait timed out. -/
  stalledOn : Option (Nat × Nat) := none
  /-- R539 (14): the draw that stands for the start time. -/
  started : Nat := 0
  /-- R261 (06): rows each core has sent, as (group, core, row). -/
  jctSent : List (Nat × Nat × Nat) := []
deriving DecidableEq, Repr

/-! ## Contexts (10) -/

/-- The states of a context (R365). -/
inductive CtxSt where
  | free | resident | parked | stalled | destroying
deriving DecidableEq, Repr

/-- A block that a write walk has reached (R290, R291, R308): its descriptor by physical core, queue and number, its page-table
entry, the page, and the FILL and KEEP that the entry takes when the last tile has landed; `done` once the write has completed,
or has failed. -/
structure WalkWrite where
  core : Nat := 0
  queue : Nat := 0
  id : Nat := 0
  seq : Nat := 0
  pte : Nat := 0
  page : Nat := 0
  fill : Nat := 0
  keep : Bool := false
  done : Option Bool := none
deriving DecidableEq, Repr

/-- The account record's counters of the context's own activity (R395, R396, R398, R400), 64 bits each. ENERGY_UJ is a sum
over coefficients of the part (R399), so what a job adds to it is free. -/
structure Acct where
  mxe : Nat := 0
  ramp : Nat := 0
  vector : Nat := 0
  control : Nat := 0
  energy : Nat := 0
  runs : Nat := 0
  preemptions : Nat := 0
  stalls : Nat := 0
  kvDrops : Nat := 0
  evictions : Nat := 0
  /-- BYTES[s][d] at key 4(s − 1) + (d − 1) -/
  bytes : Tab Nat := []
  hostIn : Nat := 0
  hostOut : Nat := 0
  remoteIn : Nat := 0
  remoteOut : Nat := 0
deriving DecidableEq, Repr

/-- What a park keeps for the bring-in (R391): the recorded upper copies and the program rows' bytes. -/
structure Parked where
  uppers : List (Nat × Nat × Nat) := []
  programs : List (Nat × Nat × Bytes) := []
  granules : Nat := 0
deriving DecidableEq, Repr

/-! ## The paged key-value cache (07) -/

/-- A page-table entry (R282). An empty entry has `page` none, `dropped` false and `fill` 0 (R283). -/
structure Pte where
  /-- R282 (07): VALID and HANDLE. -/
  page : Option Nat := none
  /-- R282 (07): DROPPED, 1 bit. -/
  dropped : Bool := false
  /-- R282 (07): KEEP, 1 bit. -/
  keep : Bool := false
  /-- R282 (07): FILL, 7 bits. -/
  fill : Nat := 0
deriving DecidableEq, Repr

/-- A KV sequence (R280): its parameters and its page table, keyed by list × (MAX_TOKENS ÷ 64) + block. An
unlisted entry is empty. -/
structure KvSeq where
  geom : KvGeom := {}
  ptes : Tab Pte := []
deriving DecidableEq, Repr

/-! ## The stream table (08) -/

/-- STATE of a stream (R314). -/
inductive StreamSt where
  | free | opened | paused
deriving DecidableEq, Repr

/-- An entry of the stream table, held under its owner and index (R312, R314). -/
structure Stream where
  /-- R314 (08): STATE, 2 bits. Reset: FREE. -/
  state : StreamSt := .free
  /-- R314 (08): RESET, ANCHORED, A_CONST and PINNED, 1 bit each. Reset: 0. -/
  reset : Bool := false
  anchored : Bool := false
  aConst : Bool := false
  pinned : Bool := false
  /-- R314 (08): HOME_CORE, 3 bits. Reset: 0. -/
  homeCore : Nat := 0
  /-- R314 (08): GENERATION, 32 bits. Reset: 0. -/
  gen : Nat := 0
  /-- R314 (08): NEXT_STEP and HOME_STEP, 48 bits each. Reset: 0. -/
  nextStep : Nat := 0
  homeStep : Nat := 0
  /-- R314 (08): ST_OBJ.CHANNELS, 15 bits, and HANDLE, 16 bits. Reset: 0. -/
  channels : Nat := 0
  handle : Nat := 0
  /-- R314 (08): STALE, 32 bits, saturating. Reset: 0. -/
  stale : Nat := 0
  /-- R334 (08): the anchor write-back under way: the anchor's step and the records. Reset: none. -/
  anchor : Option (Nat × Bytes) := none
deriving DecidableEq, Repr

/-- A context (R363 to R366). -/
structure Ctx where
  /-- R365 (10): the state. Reset: FREE. -/
  st : CtxSt := .resident
  /-- R364 (10): PARTITION and the partition number, 0 for Shared (R368). -/
  sealed : Bool := false
  partition : Nat := 0
  /-- R364 (10): CORES, 8 bits. -/
  cores : Nat := 0
  /-- R369 (10): the reserved Span banks. -/
  banks : List Nat := []
  /-- R364 (10): DDR_SLOTS. -/
  ddrSlots : Nat := 0
  /-- R591 (16): the slot indices reserved to its partition, on every channel. -/
  slotIdx : List Nat := []
  /-- R364 (10): PREEMPT_BOUND in µs, REMOTE_TIMEOUT in ms and QUANTUM in µs, 32 bits each. -/
  boundUs : Nat := 200
  remoteMs : Nat := 50
  quantumUs : Nat := 2000
  /-- R191, R313 (05, 08): the quotas. -/
  quotas : Quotas := {}
  /-- R182, R183 (05): the object table; an unlisted handle is not valid. -/
  objs : Tab Obj := []
  /-- R233, R234 (05): the zero-fills in progress, by handle. -/
  fills : Tab ZeroFill := []
  /-- R190 (05): the use counter, 32 bits. -/
  useCtr : Nat := 0
  /-- R347 (09): the loaded images by slot, 0 to 3. -/
  images : Tab Image := []
  /-- R359, R360 (09): the IMAGE_UNLOADs that wait for their windows and tags, by image slot. -/
  unloading : Tab Req := []
  /-- R391 (10): a PREEMPT in mode PARK that waits for its windows and tags. -/
  parking : Option Req := none
  /-- R374 (10): the running job. -/
  job : Option Job := none
  /-- R374 (10): the queued RUNs, at most 16. -/
  runQ : List RunReq := []
  /-- R539 (14): the jobs begun. -/
  jobs : Nat := 0
  /-- R366 (10): the CTX_DESTROY under way, and that it is complete but for the key's retirement. -/
  destroyReq : Option Req := none
  retiring : Bool := false
  /-- R395 (10): the account counters. -/
  acct : Acct := {}
  /-- The model's own counter of the free amounts drawn for the account (entry 22). -/
  meter : Nat := 0
  /-- R280 (07): the sequences by ID, 0 to 1,023. -/
  seqs : Tab KvSeq := []
  /-- R284 (07): the reference counts of KV pages by handle, 16 bits each. -/
  refs : Tab Nat := []
  /-- R291, R308 (07): the blocks of write walks that are not yet resolved, in the order the walks reached them. -/
  walkWrites : List WalkWrite := []
  /-- R308 (07): the pages whose count has reached zero and that a reader's descriptors or tags still hold. -/
  doomed : List Nat := []
  /-- R316 (08): the generation counter, 32 bits. -/
  genCtr : Nat := 0
  /-- R312 (08): the context's entries of the stream table, by index. -/
  streams : Tab Stream := []
  /-- R319 (08): the stream commands that wait for a running chunk, oldest first. -/
  streamCmds : List Instr := []
  /-- R391 (10): what the park kept. -/
  parked : Parked := {}
  /-- R638 (18): the number of the context's key set; each draw takes a fresh one. -/
  key : Nat := 0
  /-- R543 (14): the attestation report held, with its nonce. -/
  report : Option (Bytes × Bytes) := none
deriving DecidableEq, Repr

/-! ## The chip Junction (06) -/

/-- A beat on its way to or in the chip Junction (R252): its group, its core, its row and its bytes. -/
structure JctBeat where
  ctx : Nat := 0
  group : Nat := 0
  core : Nat := 0
  row : Nat := 0
  data : Bytes := []
deriving DecidableEq, Repr

/-- A store slot in use (R256, R259). -/
structure JctSlot where
  ctx : Nat := 0
  /-- the context's job whose beats it holds -/
  job : Nat := 0
  group : Nat := 0
  row : Nat := 0
  /-- the partials that have joined, by logical core -/
  parts : Tab Bytes := []
  /-- the row has been combined and its window write has not landed -/
  written : Bool := false
  /-- R261 (06): the slot is released, and what stands here are the Convoy tags of its beats, which last until the row has
  landed (R252) -/
  freed : Bool := false
deriving DecidableEq, Repr

/-- The chip Junction (R253, R262). -/
structure Jct where
  /-- R253 (06): the skid buffers of four beats by logical core. Reset: empty. -/
  skids : Tab (List JctBeat) := []
  /-- R262 (06): the store slots in use, 128 in all. Reset: none. -/
  slots : List JctSlot := []
  /-- R254 (06): the position t mod 4 of the rotation, 2 bits. Reset: 0. -/
  turn : Nat := 0
deriving DecidableEq, Repr

/-! ## Lanes (15) -/

/-- A lane packet (R551). -/
structure LanePkt where
  number : Nat := 0
  data : Bytes := []
deriving DecidableEq, Repr

/-- The fields of a LANE_CFG that wait for the packet boundary (R550). -/
structure LaneCfg where
  mode : Nat := 0
  enable : Bool := false
  level : Nat := 0
  idle : Nat := 0
  sess : Nat := 0
deriving DecidableEq, Repr

/-- A lane (R547 to R570). -/
structure Lane where
  /-- R570 (15): LANEn_CTRL.ENABLE, 1 bit. Reset: 0. -/
  enable : Bool := false
  /-- R570 (15): LANEn_STATUS.CFG_REASON, 16 bits. Reset: 0x0000. -/
  cfgReason : Reason := .none
  /-- R570 (15): LANEn_STATUS.MODE, 2 bits. Reset: 0b00. -/
  mode : Nat := 0
  /-- R570 (15): LANEn_OWNER.CTX, 9 bits. Reset: none. -/
  owner : Option Nat := none
  /-- R570 (15): LANEn_SESSION, 32 bits. Reset: 0, none. -/
  sess : Option Nat := none
  /-- R570 (15): LANEn_LEVEL and LANEn_IDLE, 32 bits each. Reset: 0. -/
  level : Nat := 0
  idle : Nat := 0
  /-- R570 (15): LANEn_LOST, 32 bits, saturating. Reset: 0. -/
  lost : Nat := 0
  /-- R551 (15): the packets begun, 32 bits. Reset: 0. -/
  begun : Nat := 0
  /-- R550, R570 (15): the LANE_CFG that awaits its boundary. Reset: none. -/
  pend : Option LaneCfg := none
  /-- R547 (15): the complete packets of the filling bank, oldest first. Reset: none. -/
  filling : List LanePkt := []
  /-- R555 (15): the open packet, with the core and stage slot that write it. Reset: none. -/
  opened : Option (LanePkt × Nat × Nat) := none
  /-- R559 (15): the put that waits for room: core, slot, bytes and CLOSE. Reset: none. -/
  waiting : List (Nat × Nat × Bytes × Bool) := []
  /-- R564 (15): the bytes of the draining bank not yet acknowledged, and how many of them are sent. Reset: none. -/
  draining : Bytes := []
  sentBytes : Nat := 0
  /-- R565 (15): the position in the delivered stream of the first byte of `draining`. Reset: 0. -/
  offset : Nat := 0
  /-- R567 (15): the LANE_FLUSH commands that wait for the packet boundary, and those that have taken effect and wait
  for their hand-over. Reset: none. -/
  flush : List Req := []
  flushing : List Req := []
deriving DecidableEq, Repr

/-! ## The scheduler (10) -/

/-- The Shared partition's slot table (R375, R376). -/
structure Sched where
  /-- R375 (10): the entries, each a list of contexts. Reset: none. -/
  entries : List (List Nat) := []
  /-- R376 (10): the entry whose turn it is. Reset: none. -/
  turn : Option Nat := none
deriving DecidableEq, Repr

/-! ## Tlaog (18) -/

/-- The security subsystem. -/
structure Sec where
  /-- R667, R668 (18): TLAOG_STATUS.ERROR, 1 bit. Reset: 0. -/
  error : Bool := false
  /-- R668 (18): TLAOG_STATUS.SELFTEST_DONE, 1 bit. Reset: 0. -/
  selfTest : Bool := false
  /-- R668 (18): TLAOG_STATUS.CFG_REASON, 16 bits. Reset: 0x0000. -/
  cfgReason : Reason := .none
  /-- R645 (18): the policy FLAGS word, 32 bits. Reset: 0 (DESIGN CHOICE, entry 4: the active policy record is
  flash content the spec does not give). -/
  policy : Nat := 0
  /-- R645 (18): the management, host and image-signing key digests. Reset: one management key, whose digest is a free
  value, and none (DESIGN CHOICE, entry 4). -/
  mgmtCreds : List Bytes := [(List.range 64).map (Config.provisionedByte 0)]
  hostCreds : List Bytes := []
  imageKeys : List Bytes := []
  /-- R641 (18): the fused firmware and owner key digests not revoked. Reset: one each, whose digest is a free value
  (DESIGN CHOICE, entry 4). -/
  fwKeys : List Bytes := [(List.range 64).map (Config.provisionedByte 1)]
  ownerKeys : List Bytes := [(List.range 64).map (Config.provisionedByte 2)]
  /-- R642, R661 (18): the measurement registers, 64 bytes each: 0 ROM, 1 boot, 2 management, 3 security,
  4 core-control, 5 policy. Reset: none recorded. -/
  measure : Tab Bytes := []
  /-- R668 (18): TLAOG_INTEGRITY and TLAOG_REPLAY, 32 bits each, saturating. Reset: 0. -/
  integrity : Nat := 0
  replay : Nat := 0
  /-- R652 (18): the contexts whose SEC_INTEGRITY_FAIL has been reported within the second. Reset: none. -/
  reported : List Nat := []
  /-- R644, R668 (18): TLAOG_MIN_SVN, 7 bits, fused. Reset: 0 (DESIGN CHOICE, entry 4). -/
  minSvn : Nat := 0
  /-- R638, R639 (18): the context key sets in the key store, by key number. Reset: none. -/
  keys : List Nat := []
  /-- R638 (18): the number of the next key set drawn. Reset: 1 (DESIGN CHOICE, entry 3). -/
  nextKey : Nat := 1
  /-- R638, R649 (18): the firmware key set, the storage key and the DRBG state are held. Reset: 0. -/
  fwKeyHeld : Bool := false
  storageHeld : Bool := false
  drbgHeld : Bool := false
  /-- R660, R668 (18): TLAOG_CAK_SEL and the key words written since. Reset: 0 and none. -/
  cakSel : Nat := 0
  cakBuf : List Word := []
  /-- R638 (18): the MACsec CAKs by 4 × port + slot. Reset: none (DESIGN CHOICE, entry 4). -/
  caks : Tab (List Word) := []
  /-- R662 (18): LIFECYCLE, 8 bits, and DEBUG_OPEN, 1 bit. Reset: PROVISIONED and 0 (DESIGN CHOICE, entry 4). -/
  lifecycle : Nat := 2
  debugOpen : Bool := false
  /-- R673 (18): the periodic self-test is deferred to the first hour after a DEEP exit. Reset: 0. -/
  deferred : Bool := false
deriving DecidableEq, Repr

/-! ## Clocks, reset and start-up (22) -/

/-- The reset and start-up state. -/
structure Rst where
  /-- R767 (22): the interfaces are enabled (step 11 has been reached), 1 bit. Reset: 0. -/
  up : Bool := false
  /-- R643 (18): the device is in recovery, 1 bit. Reset: 0. -/
  recovery : Bool := false
  /-- R763 (22): PORST_N is low, and R759: the device holds itself in internal reset. Reset: 1 and 0. -/
  porstLow : Bool := true
  held : Bool := false
  /-- R775 (22): RST_CAUSE.CAUSE, 3 bits, and FALLBACK, 1 bit. Reset: 0. -/
  cause : Nat := 0
  fallback : Bool := false
  /-- R642, R662 (18): the slot recorded as active and the slot booted, 0 A and 1 B. Reset: 0 (DESIGN CHOICE, entry 4). -/
  activeSlot : Nat := 0
  bootSlot : Nat := 0
  /-- R534 (14), R661 (18): BOOT_COUNT and POWER_CYCLES: the cold boots, 32 bits. Reset: 0. -/
  boots : Nat := 0
  /-- R775 (22): CLK_LOCK.LOCKED, 9 bits. Reset: 0x000. -/
  lock : Nat := 0
  /-- R767 (22): a cold boot waits for DDR4 training at step 8, 1 bit. Reset: 0. -/
  booting : Bool := false
  /-- R768, R771 (22): the configuration region's snapshot by address, an enabled page with 1 at its base. Reset: none
  (DESIGN CHOICE, entry 4: flash content). -/
  snapshot : Tab Word := []
  /-- R768 (22): the saved Guardrail weight record. Reset: none. -/
  savedWeights : Option Bytes := none
  /-- R771 (22): the board and set records in the flash. Reset: zero bytes (DESIGN CHOICE, entry 4). -/
  boardFlash : Bytes := []
  setFlash : Bytes := []
  /-- R771 (22): the board and set records in force since the last cold boot or warm restart. Reset: zero bytes. -/
  board : Bytes := []
  setRec : Bytes := []
  /-- R771, R690 (22, 19): the repair record: logical, old and new physical core, HOURS, and RELIEF_BAD. Reset: none. -/
  repair : Option (Nat × Nat × Nat × Nat × Bool) := none
  /-- R771 (22): the selected record and the bytes written to it. Reset: none. -/
  recSel : Option Nat := none
  recBuf : Bytes := []
  /-- R771 (22): a save of the configuration region is in progress, for this command. Reset: none. -/
  saving : Option Req := none
deriving DecidableEq, Repr

/-! ## Cameras and the ISP (11) -/

/-- What an ISP context will write into its record slot for a frame (R432, R433), fixed when its work on the frame ends. -/
structure RecDue where
  /-- R434 (11): ISPc_REC_DEST, and the byte offset of the slot in the record window. -/
  dest : Nat := 0
  off : Nat := 0
  /-- R432 (11): the embedded data that fit, whether any did not (EMB_TRUNC), and the statistics. -/
  emb : Bytes := []
  trunc : Bool := false
  stats : Bytes := []
  /-- R433 (11): BUF, and the flags of the frame and of its end. -/
  buf : Nat := 0
  flags : List Nat := []
deriving DecidableEq, Repr

/-- What an ISP context has done with a frame (R419, R430 to R432). -/
structure IspFrame where
  isp : Nat := 0
  /-- R419 (11): the next unit of the frame. -/
  unit : Nat := 0
  /-- R419 (11): units that are ready or done are numbered below this. -/
  queued : Nat := 0
  /-- R431 (11): the LOST flags of outputs 0 to 2. -/
  lost : List Nat := []
  /-- R432 (11): every unit is done, or the frame is abandoned: what the record slot takes once the frame's writes have
  landed. -/
  due : Option RecDue := none
deriving DecidableEq, Repr

/-- A frame in a Layby slot (R403, R424), with its normalised lines. -/
structure Frame where
  stream : Nat := 0
  /-- R433 (11): FRAME_NO, T_FS, T_FE and CSI_FRAME. -/
  no : Nat := 0
  tFs : Nat := 0
  tFe : Nat := 0
  csi : Nat := 0
  /-- R433 (11): FLAGS 0 to 8. -/
  flags : List Nat := []
  /-- R407 (11): the lines, each the 12-bit samples of its pixels, or for YUV422 the bytes as received. -/
  lines : List (List Nat) := []
  /-- R433 (11): the lines received. -/
  got : Nat := 0
  /-- R405 (11): the embedded data received. -/
  emb : Bytes := []
  /-- R419 (11): the frame end has arrived. -/
  whole : Bool := false
  /-- R424 (11): an ISP context has begun the frame. -/
  begun : Bool := false
  /-- R404, R411, R413 (11): the frame is abandoned, and only its records are left to write. -/
  dead : Bool := false
  /-- the ISP contexts that the stream feeds, while they have not finished with the frame -/
  users : List IspFrame := []
deriving DecidableEq, Repr

/-- A receiver (R408, R410). -/
structure CamRx where
  /-- R434 (11): RXn_STATUS.PRESENT, DESKEWED and ULPS, 1 bit each. Reset: 0. -/
  present : Bool := false
  deskewed : Bool := false
  ulps : Bool := false
  /-- R434 (11): RXn_ERR: ECC_CORR, ECC_UNCORR, CRC, UNMATCHED, FRAME_ERR, 32 bits each, saturating. Reset: 0. -/
  errs : List Nat := [0, 0, 0, 0, 0]
deriving DecidableEq, Repr

/-- A stream entry (R406, R424). -/
structure CamStr where
  /-- R434 (11): STRm_FRAMES, STRm_DROPPED and STRm_FLAGGED, 32 bits each. Reset: 0. -/
  frames : Nat := 0
  dropped : Nat := 0
  flagged : Nat := 0
  /-- R433 (11): the next FRAME_NO. Reset: 0. -/
  nextNo : Nat := 0
  /-- R424 (11): an ISP_OVERRUN has been reported. Reset: 0. -/
  overrun : Bool := false
deriving DecidableEq, Repr

/-- The camera path. -/
structure Cam where
  /-- R415, R434 (11): ISPc_OWNER and BOUND, by ISP context. Reset: none bound. -/
  owners : Tab Nat := []
  /-- R413, R434 (11): CAM_STATUS.MUTED, 1 bit. Reset: 0. -/
  muted : Bool := false
  /-- The receivers 0 to 3. -/
  rx : Tab CamRx := []
  /-- The streams 0 to 7. -/
  strs : Tab CamStr := []
  /-- R403 (11): the Layby's frames, oldest first. Reset: none. -/
  frames : List Frame := []
  /-- R420 (11): the ready units in the order they became ready, as (ISP context, stream, frame number, unit).
  Reset: none. -/
  ready : List (Nat × Nat × Nat × Nat) := []
  /-- R419, R434 (11): the unit in progress; RUNNING shows its context. Reset: none. -/
  running : Option (Nat × Nat × Nat × Nat) := none
  /-- R420 (11): the rota entry in force, and that it has served its band or stays idle. Reset: 0 and 0. -/
  rota : Nat := 0
  served : Bool := false
  /-- R439 (11): by I3C controller, the in-band interrupts it queues, oldest first, at most 16: address and payload. Reset:
  none. -/
  ibis : Tab (List (Nat × Bytes)) := []
  /-- R433 (11): by ISP context, the frames of its stream discarded by the time of its previous record. Reset: 0. -/
  told : Tab Nat := []
deriving DecidableEq, Repr

/-! ## Audio, Wayside and the cascade (12) -/

/-- A row of samples of a path, one of each channel, with what zeroed it (R452, R474, R476). -/
structure AudRow where
  samples : List Nat := []
  muted : Bool := false
  settling : Bool := false
deriving DecidableEq, Repr

/-- A channel's decimator (R444, R445): the integrators and combs of its CIC filter, in 32-bit wrapping arithmetic, the periods
since its last output, and of each FIR stage its last inputs, newest first, and the inputs since its last output. -/
structure Decim where
  integ : List Word := []
  comb : List Word := []
  phase : Nat := 0
  lines : List (List Int) := []
  turns : List Nat := []
deriving DecidableEq, Repr

/-- A phrase slot (R457 to R463). -/
structure Phrase where
  /-- R457 (12): the record. -/
  record : Bytes := []
  /-- R460 (12): S, 16 bits signed. Reset: 0. -/
  score : Int := 0
  /-- R459 (12): the last inputs of each layer, newest first, and the count of inputs each has taken. -/
  inputs : List (List (List Int)) := []
  seen : List Nat := []
  /-- R463 (12): the consecutive updates at or above TRIGGER, and the REFRACT frames left. Reset: 0. -/
  count : Nat := 0
  refract : Nat := 0
deriving DecidableEq, Repr

/-- A decimation path's block writer (R450 to R453). -/
structure AudPath where
  /-- R451 (12): the number of the next block. Reset: 0. -/
  block : Nat := 0
  /-- R452 (12): the index of the next block's first sample, which the block's header gives modulo 2⁴⁰. Reset: 0. -/
  next : Nat := 0
  /-- R452, R453 (12): the next delivered block carries GAP. Reset: 0. -/
  gap : Bool := false
deriving DecidableEq, Repr

/-- An armed cascade entry (R469). -/
structure CasEntry where
  /-- R469 (12): the entry's context, image slot, verdict window (space and index) and LINGER_MS. -/
  ctx : Nat := 0
  slot : Nat := 0
  space : Nat := 0
  win : Nat := 0
  linger : Nat := 2000
deriving DecidableEq, Repr

/-- The runs that a cascade entry triggered (R470 to R472): the latest, and what is left of those before; they outlive the
entry's arming. -/
structure CasRun where
  /-- R469, R471 (12): the context and image slot of the run, and its verdict window. -/
  ctx : Nat := 0
  slot : Nat := 0
  space : Nat := 0
  win : Nat := 0
  /-- R470 (12): the vote it holds: the class and ID of its client and the cores. -/
  vote : Option (Nat × Nat × Nat) := none
  /-- R472 (12): it is queued or running. -/
  active : Bool := false
  /-- R471 (12): the jobs that have ended and that no CASCADE_DONE has reported, oldest first: context, status and the action
  word read. -/
  results : List (Nat × Status × Nat) := []
  /-- R470 (12): the votes of completed jobs whose LINGER_MS is running, oldest first: class, ID and cores. -/
  lingers : List (Nat × Nat × Nat) := []
deriving DecidableEq, Repr

/-- The audio and Wayside blocks. -/
structure Aud where
  /-- R448, R478 (12): AUD_OWNER, 9 bits. Reset: none. -/
  owner : Option Nat := none
  /-- R475, R478 (12): AUD_STATUS.MUTED, 1 bit. Reset: 0. -/
  muted : Bool := false
  /-- R476 (12): the first 4 ms after unmute have not passed. Reset: 0. -/
  settling : Bool := false
  /-- R450 (12): the low-power path, 0, and the high-quality path, 1. -/
  paths : Tab AudPath := []
  /-- R478 (12): AUD_LOST_BLOCKS, 32 bits, saturating. Reset: 0. -/
  lostBlocks : Nat := 0
  /-- R461 (12): the valid phrase slots. Reset: none. -/
  phrases : Tab Phrase := []
  /-- R461 (12): the records that replace a slot at the next frame end; empty bytes empty it. Reset: none. -/
  loads : Tab Bytes := []
  /-- R462 (12): the hold vote is held, and is barred until every S is below HOLD. Reset: 0 and 0. -/
  hold : Bool := false
  barred : Bool := false
  /-- R466 (12): the pre-roll ring, oldest first, at most 32,000 rows of eight samples. Reset: none. -/
  ring : List AudRow := []
  /-- R450 (12): the last samples of the high-quality path, oldest first, at most 4,800 rows, the longest block. Reset: none. -/
  hqRing : List AudRow := []
  /-- R444, R445 (12): the decimators of the low-power and the high-quality path, by channel. Reset: zero state. -/
  lpDecim : Tab Decim := []
  hqDecim : Tab Decim := []
  /-- R476 (12): the samples of the first 4 ms after the PDM clocks restart that are still to come, of each path. Reset: 0. -/
  lpSettle : Nat := 0
  hqSettle : Nat := 0
  /-- R474 (12): the PDM clocks have been held low since the last frame end, 1 bit. Reset: 0. -/
  stopped : Bool := false
  /-- R478 (12): the low-power sample index since cold boot, of which AUD_INDEX shows 40 bits. Reset: 0. -/
  index : Nat := 0
  /-- R467 (12): the read point of the delivery in progress. Reset: none. -/
  readPoint : Option Nat := none
  /-- R478 (12): WAY_RING_LOST and WAY_COALESCED, 32 bits, saturating. Reset: 0. -/
  ringLost : Nat := 0
  coalesced : Nat := 0
  /-- R469, R478 (12): the cascade entries 1 to 3. Reset: none armed. -/
  cascade : Tab CasEntry := []
  /-- R470 to R472 (12): by entry, the latest run it triggered. Reset: none. -/
  casRuns : Tab CasRun := []
deriving DecidableEq, Repr

/-! ## Power (17) -/

/-- A vote that a client holds for domains (R613, R614): class, ID and the mask of R612. -/
structure Vote where
  cls : Nat
  id : Nat
  domains : Nat
deriving DecidableEq, Repr

/-- An entry of the refusal log (R632). -/
structure PwrLog where
  kind : Nat := 0
  target : Nat := 0
  cls : Nat := 0
  id : Nat := 0
  hours : Nat := 0
deriving DecidableEq, Repr

/-- An entry to DEEP or OFF in progress (R622). -/
structure PwrEntry where
  target : Nat := 3
  /-- the ENTER command, until its reply of step 4 has left -/
  req : Option Req := none
deriving DecidableEq, Repr

/-- The modes of the chip beside the automatic states (R610). -/
inductive PwrMode where
  | awake | deep | off
deriving DecidableEq, Repr

/-- The power state. -/
structure Pwr where
  /-- R629 (17): the ACLK cap in force, in MHz. Reset: 2,000 (the 60 W envelope). -/
  aclk : Nat := 2000
  /-- R629, R633 (17): the envelope in force, in watts. Reset: 60. -/
  watts : Nat := 60
  /-- R629, R786 (17, 23): the target of the VDD_CORE regulator over AVSBus, in mV, and that the device has written it. Reset:
  750, which the regulator holds until the first write, and 0. -/
  avs : Nat := 750
  avsWritten : Bool := false
  /-- R631, R761 (17, 22): the clocks glide to the caps of the envelope. Reset: 0. -/
  gliding : Bool := false
  /-- R630, R633 (17): POWER_STATE.INT4_LIMIT, 1 bit. Reset: 0. -/
  int4 : Bool := false
  /-- R613, R614 (17): the explicit votes, and those that Convoy and the firmware hold. Reset: none. -/
  votes : List Vote := []
  /-- R633 (17): POWER_DOMAINS_UP.MASK, 32 bits. Reset: 0x0000_0000. -/
  up : Nat := 0
  /-- R616 (17): the up cores whose clocks are gated, 8 bits. Reset: 0. -/
  gated : Nat := 0
  /-- R617 (17): the down cores whose Deck island is up, 8 bits. Reset: 0. -/
  islands : Nat := 0
  /-- R811 (17): the start-up votes are held, 1 bit. Reset: 1 (they are held from the release of PORST_N). -/
  startup : Bool := true
  /-- R610 (17): DEEP or OFF has been entered. Reset: neither. -/
  mode : PwrMode := .awake
  /-- R622, R633 (17): the entry in progress; POWER_STATUS.ENTERING shows it. Reset: none. -/
  entry : Option PwrEntry := none
  /-- R613 (17): WAKE_N is low, 1 bit. Reset: 0. -/
  wakeLow : Bool := false
  /-- R628 (17): the contexts whose saved tables are not yet restored, and that the save is good. Reset: none. -/
  restoring : List Nat := []
  /-- R659 (18): the save counter, 64 bits, in management retention memory, and the one that the present save carries. Reset: 0 and
  no save. -/
  saveCount : Nat := 0
  saved : Option Nat := none
  saveOk : Bool := true
  /-- R632, R633 (17): POWER_REFUSED_COUNT and POWER_ABORTED_COUNT, 32 bits, saturating. Reset: 0. -/
  refused : Nat := 0
  aborted : Nat := 0
  /-- R632, R633 (17): the refusal log by entry, 16 in all, and POWER_LOG_HEAD.NEXT, 4 bits. Reset: empty and 0. -/
  log : Tab PwrLog := []
  logHead : Nat := 0
  /-- R633 (17): POWER_DEEP_TIMER's wake is armed, 1 bit. Reset: 0. -/
  deepTimer : Bool := false
  /-- R787, R788 (23): the levels of PWR_ON and PWR_MAIN_EN, 1 bit each. Reset: 1 (both high outside DEEP and OFF). -/
  powerOn : Bool := true
  mainEn : Bool := true
  /-- R792, R791 (23): the 20 ms minimum low time of PWR_ON and the 8 ms of PWR_MAIN_EN are running. Reset: 0. -/
  onMin : Bool := false
  mainMin : Bool := false
  /-- R622, R626, R792 (17, 23): a wake source has been registered. Reset: 0. -/
  wake : Bool := false
  /-- R800 (23): THERM_N is driven low, 1 bit. Reset: 0. -/
  thermLow : Bool := false
deriving DecidableEq, Repr

/-! ## Guardrail (13) -/

/-- A stop's causes at its assertion (R495, R503 GRD_CAUSEk). -/
structure GrdCause where
  direct : Nat := 0
  stale : Nat := 0
  votes : Nat := 0
  fault : Bool := false
deriving DecidableEq, Repr

/-- The Guardrail lane. -/
structure Grd where
  /-- R502, R503 (13): the weight record; GRD_STATUS.WEIGHTS shows one is loaded. Reset: none. -/
  weights : Option Bytes := none
  /-- R493, R503 (13): GRD_LATCH.STOPPED, 4 bits. Reset: 0xF. -/
  stopped : Nat := 0xF
  /-- R498, R503 (13): GRD_LATCH.FAULT, 1 bit. Reset: 0. -/
  fault : Bool := false
  /-- R503 (13): GRD_CAUSEk by stop. Reset: 0. -/
  causes : Tab GrdCause := []
  /-- R485 (13): the 16 readings, 16 bits each, by feature. Reset: 0. -/
  readings : Tab Nat := []
  /-- R485, R489 (13): the slots with an accepted frame since ENABLE (their features hold readings). Reset: none. -/
  heard : List Nat := []
  /-- R491 (13): the stops for which N or R was true in the previous evaluation, and those for which the last
  evaluation asserted, 4 bits each. Reset: 0. -/
  prevVote : Nat := 0
  asserted : Nat := 0
  /-- R487 (13): the stale slots, 4 bits. Reset: 0. -/
  stale : Nat := 0
  /-- R492 (13): the levels of GRD_IN[7:0], 8 bits. Reset: 0xFF (DESIGN CHOICE, entry 11: a pin's level is outside). -/
  levels : Nat := 0xFF
  /-- R497 (13): the level of GRD_HB, 1 bit. Reset: 0 (DESIGN CHOICE, entry 11). -/
  hb : Bool := false
  /-- R503 (13): GRD_FRAMES, GRD_CRC_ERR and GRD_STOPS, 32 bits each, saturating. Reset: 0. -/
  frames : Nat := 0
  crcErr : Nat := 0
  stops : Nat := 0
  /-- R500 (13): the one-time override of the DEEP vote, 1 bit. Reset: 0. -/
  deepOverride : Bool := false
  /-- R481, R500 (13): DOCK_N is high, 1 bit. Reset: 1 (DESIGN CHOICE, entry 11: not docked). -/
  dockHigh : Bool := true
  /-- R483 (13): the slot whose poll is on the bus, and the slots whose turn came meanwhile. Reset: none. -/
  bus : Option Nat := none
  waiting : List Nat := []
deriving DecidableEq, Repr

/-! ## Device sets (20) -/

/-- What an unsettled write of a set session was sent for (R718, R728). -/
inductive RemoteFrom where
  /-- a tile of a Convoy descriptor, by physical core, queue and the descriptor's number -/
  | convoy (core queue id : Nat)
  /-- the code strip of a tile, by the same -/
  | strip (core queue id : Nat)
  /-- a mirror copy of an OBJ_WRITE -/
  | mirror (req : Req)
deriving DecidableEq, Repr

/-- A sent write that is not yet settled (R724). -/
structure RemoteOut where
  num : Nat := 0
  src : RemoteFrom
  ctx : Nat := 0
  payload : Bytes := []
deriving DecidableEq, Repr

/-- STATE of a peer (R733 SET_PEERi). -/
inductive PeerSt where
  | absent | proving | up | lost
deriving DecidableEq, Repr

/-- A peer of the set (R710 to R727). -/
structure Peer where
  /-- R733 (20): SET_PEERi.STATE, PORT, HOPS and RETX. Reset: 0. -/
  state : PeerSt := .absent
  port : Nat := 0
  hops : Nat := 0
  retx : Nat := 0
  /-- R710 (20): the set session. Reset: none. -/
  sess : Option Nat := none
  /-- R719 (20): the next outbound write number, from 1. -/
  nextNum : Nat := 1
  /-- R724 (20): the unsettled writes in order, 256 at most, and the interval of their timer in µs. -/
  unsettled : List RemoteOut := []
  interval : Nat := 200
  /-- R721 (20): the next expected inbound number. -/
  expected : Nat := 1
  /-- R722 (20): the inbound numbers presented and not yet settled, in order, with their fate once known. -/
  inbound : List (Nat × Option (Status × Reason)) := []
  /-- R722, R723 (20): the settlement of the inbound direction, and the settled writes among the last 256 that
  did not end OK. -/
  settled : Nat := 0
  failures : List (Nat × Status × Reason) := []
  /-- R723 (20): the settlement last sent. -/
  told : Nat := 0
  /-- R711, R712 (20): this member opened the session, and the number and mode of its HELLO that awaits a reply; the
  number of its next HELLO. Reset: 0 and none. -/
  opener : Bool := false
  awaiting : Option (Nat × Nat) := none
  cmdSeq : Nat := 1
deriving DecidableEq, Repr

/-- A crossing in force at this device (R713): its ends. -/
structure Crossing where
  devA : Nat := 0
  ctxA : Nat := 0
  devB : Nat := 0
  ctxB : Nat := 0
  mirror : Bool := false
deriving DecidableEq, Repr

/-- An OBJ_WRITE that waits for its mirror copies (R728, R729). -/
structure MirrorWait where
  req : Req
  left : Nat := 0
  failed : Bool := false
  /-- the copies not yet sent, because 256 writes are unsettled (R724): peer, its context and the payload -/
  unsent : List (Nat × Nat × Bytes) := []
deriving DecidableEq, Repr

/-- An aggregate report being gathered (R730, R731). -/
structure Aggregate where
  req : Req
  nonce : Bytes := []
  off : Nat := 0
  len : Nat := 0
  waiting : List Nat := []
  reports : Tab Bytes := []
  /-- a crossed member was left out (R731) -/
  missing : Bool := false
deriving DecidableEq, Repr

/-- The device-set state. -/
structure SetDev where
  /-- R710 (20): the peers by set index. -/
  peers : Tab Peer := []
  /-- R715 (20): the crossings installed here, by entry of the Trunk's table. Reset: none. -/
  installed : Tab Crossing := []
  /-- R728 (20): the OBJ_WRITEs that wait for copies. Reset: none. -/
  mirrors : List MirrorWait := []
  /-- R730 (20): the aggregates being gathered, by context. Reset: none. -/
  aggregates : Tab Aggregate := []
deriving DecidableEq, Repr

/-! ## DDR4 (16) -/

/-- A request at a channel (R587 to R590). -/
structure DdrPend where
  req : DdrReq
  /-- R589 (16): its place in the issue order of the ports -/
  num : Nat := 0
  /-- R590, R592 (16): it holds an entry of the channel queue, with its place in the order of entry -/
  queued : Option Nat := none
  /-- R589 (16): it has been served, with its status and data, and its response waits for its turn -/
  result : Option (Status × Reason × Bytes) := none
deriving DecidableEq, Repr

/-- A response delivered to a requester port (R589). -/
structure DdrResp where
  port : Nat
  id : Nat
  status : Status
  reason : Reason
  data : Bytes
deriving DecidableEq, Repr

/-- A channel (R573). -/
structure DdrChan where
  /-- R607 (16): DDRn_STATUS.TRAINED, 1 bit. Reset: 0. -/
  trained : Bool := false
  /-- R607 (16): DDRn_CE_COUNT and DDRn_UE_COUNT, 32 bits, saturating. Reset: 0. -/
  ce : Nat := 0
  ue : Nat := 0
  /-- R607 (16): the lines of DDRn_CE_ADDR and DDRn_UE_ADDR. Reset: none. -/
  ceLine : Option Nat := none
  ueLine : Option Nat := none
  /-- R601 (16): corrected reads counted toward DDR_CE_LIMIT. Reset: 0. -/
  ceRun : Nat := 0
  /-- R601 (16): a DDR_CE_RATE of the channel has been reported within 60 s. Reset: 0. -/
  ceSaid : Bool := false
  /-- The requests, oldest first (R588, R590). Reset: none. -/
  reqs : List DdrPend := []
  /-- R595, R597 (16): the open row of each rank and bank, and the activations of each rank, bank and row group
  within the refresh window. Reset: none. -/
  openRow : Tab Nat := []
  acts : Tab Nat := []
  /-- R597 (16): the throttled ports, as (port, rank, bank and row group), and those reported in this window. -/
  throttled : List (Nat × Nat) := []
  reported : List Nat := []
  /-- R607 (16): DDRn_THROTTLEp by port, 32 bits, saturating, and DDRn_THROTTLE_LAST, 32 bits. Reset: 0. -/
  delayed : Tab Nat := []
  last : Nat := 0
  /-- R680 (19): the next unit of the patrol scrub. Reset: 0. -/
  scrub : Nat := 0
deriving DecidableEq, Repr

/-- The DDR4 controller. -/
structure Ddr where
  /-- R195 (05): DEVICE_DDR_POOL.MIB, 24 bits. Reset: 0x00_0000. -/
  poolMib : Nat := 0
  /-- R578, R579 (16): DDR4 is in service, 1 bit. Reset: 0. -/
  inService : Bool := false
  /-- R578 (16): training is in progress, 1 bit, and it verifies results kept through DEEP (R606). Reset: 0. -/
  training : Bool := false
  verifying : Bool := false
  /-- R607 (16): DDR_TRAIN.DONE, FAILED and STEP. Reset: 0. -/
  done : Nat := 0
  failed : Nat := 0
  step : Nat := 0
  /-- R581 (16): the frame number f, counted from service. Reset: 0. -/
  frame : Nat := 0
  /-- The channels 0 to 7. -/
  chans : Tab DdrChan := []
  /-- R589, R590 (16): the next place in the issue order and in the orders of entry (the model's own numbers). Reset: 0. -/
  nextNum : Nat := 0
  /-- R600 (16): the stored line last written through a request, by line; any other line's bits are the device's
  own. Reset: none. -/
  raw : Tab Bytes := []
  /-- R589 (16): the responses delivered to the ports, newest first. Reset: none. -/
  resps : List DdrResp := []
deriving DecidableEq, Repr

/-! ## Reliability, firmware update, the Odometer and traffic counters (19) -/

/-- A histogram (R698, R699, R703). -/
structure Hist where
  samples : Nat := 0
  min : Int := 0
  max : Int := 0
  minHours : Nat := 0
  minCycle : Nat := 0
  maxHours : Nat := 0
  maxCycle : Nat := 0
  bins : Tab Nat := []
deriving DecidableEq, Repr

/-- The Odometer's content (R699). -/
structure Odo where
  /-- R696, R699 (19): HOURS and POWER_CYCLES, 32 bits each. Reset: 0 (DESIGN CHOICE, entry 4: loaded from flash). -/
  hours : Nat := 0
  cycles : Nat := 0
  /-- R699 (19): PERSIST_HOURS and UNORDERLY_BOOTS, 32 bits each, and UNAVAIL_MS, 64 bits. Reset: 0. -/
  persistHours : Nat := 0
  unorderly : Nat := 0
  unavailMs : Nat := 0
  /-- R699 (19): FENCES and REPAIRS, 32 bits each. Reset: 0. -/
  fences : Nat := 0
  repairs : Nat := 0
  /-- R697 (19): the records by ID. Reset: no sample. -/
  recs : Tab Hist := []
deriving DecidableEq, Repr

/-- The staging of a firmware image or a policy record (R691). -/
structure Stage where
  target : Nat := 0
  total : Nat := 0
  bytes : Bytes := []
deriving DecidableEq, Repr

/-- The reliability state. -/
structure Rel where
  /-- R704 (19): RELIABILITY_FENCE.LAST_CAUSE, 3 bits. Reset: 0. -/
  lastCause : Nat := 0
  /-- R683 (19): the fences in progress: the logical core, the cause and the command, if one ordered it. Reset: none. -/
  fencing : List (Nat × Nat × Option Req) := []
  /-- R686, R687 (19): the repair in progress: the logical core, whether the Relief core passes its self-tests, and the command, if one
  ordered it. Reset: none. -/
  repairing : Option (Nat × Bool × Option Req) := none
  /-- R682 (19): the uncorrectable Deck errors of the last 24 operating hours: the physical core and HOURS. Reset: none. -/
  ueAt : List (Nat × Nat) := []
  /-- R706 (19): the CTX_DESTROYs that wait for a fence or repair to complete. Reset: none. -/
  heldDestroys : List Req := []
  /-- R686, R704 (19): RELIABILITY_FENCE.RELIEF_BAD, 1 bit. Reset: 0. -/
  reliefBad : Bool := false
  /-- R273 (06): the physical core not mapped, 4 bits, and RELIABILITY_RELIEF.CONSUMED, 1 bit. Reset: 8 and 0. -/
  unmapped : Nat := 8
  consumed : Bool := false
  /-- R678, R704 (19): RELIABILITY_DECK_CEp and DECK_UEp by physical core, 9 the Span, 32 bits, saturating. Reset: 0. -/
  ce : Tab Nat := []
  ue : Tab Nat := []
  /-- R679, R704 (19): RELIABILITY_UE_ADDR, 32 bits. Reset: 0. -/
  ueAddr : Nat := 0
  /-- R704 (19): RELIABILITY_SCRUB_PASSES and SCRUB_FIXED, 32 bits, saturating. Reset: 0. -/
  passes : Nat := 0
  fixed : Nat := 0
  /-- R691 (19): the staging in progress, and RELIABILITY_FW.STAGED, 5 bits by TYPE. Reset: none. -/
  stage : Option Stage := none
  staged : List Nat := []
  /-- R691 (19): the images of the flash slots, by 8 × slot + TYPE. Reset: none (DESIGN CHOICE, entry 4). -/
  images : Tab Bytes := []
  /-- R693, R694 (19): RELIABILITY_FW.ARMED and TRIAL, 1 bit each. Reset: 0. -/
  armed : Bool := false
  trial : Bool := false
  /-- R675 (19): the last entry to OFF was orderly, 1 bit. Reset: 0. -/
  orderly : Bool := false
  /-- R675 (19): the causes of unavailability that now run: 0 boot, 1 watchdog, 2 error, 4 DDR4, 16 + n the fence of core n.
  Reset: none. -/
  unavailable : List Nat := []
  /-- R699 (19): the Odometer. -/
  odo : Odo := {}
  /-- R700 (19): the persisted copies, newest first, two at most. Reset: none (DESIGN CHOICE, entry 4). -/
  copies : List Odo := []
  /-- R697 (19): the counts of the hourly quantities in the present hour, by ID. Reset: none. -/
  hourly : Tab Nat := []
  /-- R702 (19): the traffic monitors by 256 × class + index, with the HOURS of the last clear. Reset: zero. -/
  monitors : Tab (Hist × Nat) := []
deriving DecidableEq, Repr

/-! ## The PCIe root port and T4 (21) -/

/-- The PCIe root port. -/
structure Pcie where
  /-- R753 (21): PCIE_LINK.UP, 1 bit. Reset: 0. -/
  up : Bool := false
  /-- R753 (21): PCIE_LINK.GEN and WIDTH, 2 bits each. Reset: 0b00. -/
  gen : Nat := 0
  width : Nat := 0
  /-- R753 (21): PCIE_LINK.DRIVE_READY, 1 bit. Reset: 0. -/
  ready : Bool := false
  /-- R753 (21): PCIE_T4_GRANULES, 32 bits. Reset: 0x0000_0000. -/
  granules : Nat := 0
deriving DecidableEq, Repr

/-! ## Cores (03, 05, 06) -/

/-- An entry of an engine group's queue (R93): the pushing stage slot, its context and the descriptor offset. -/
structure EngEntry where
  slot : Nat := 0
  ctx : Nat := 0
  /-- the image slot whose job pushed it -/
  img : Nat := 0
  off : Nat := 0
deriving DecidableEq, Repr

/-- A beat that an engine drains (R89, R117): its output row and first column, its accumulators (a 40-bit integer
each, or the pattern of an FP32 value), its outlier accumulators where outlier channels are present, and what
de-quantisation needs of its pass over A: the row sum of each column's group and the number of channels that are not
outliers (R62, R64). A beat of the Ramp engine holds the values of up to two pixels, `width` values each. -/
structure EngBeat where
  m : Nat := 0
  j : Nat := 0
  acc : List Int := []
  outl : List Nat := []
  ra : List Int := []
  kp : Nat := 0
  width : Nat := 32
deriving DecidableEq, Repr

/-- A running engine descriptor (R130). Of T0 (R176) it holds the accumulators, in its beats; the operand, line and Winograd
buffers of R88 hold copies of Deck bytes that no command can see, and are not held (DESIGN CHOICE, entry 117). -/
structure EngRun where
  entry : EngEntry := {}
  /-- R95, R96 (03): the two descriptors. -/
  cag : Bytes := []
  pd : Bytes := []
  /-- R89, R127 (03): the beats not yet accepted, by core Junction input 0 to 3; the first four of an input stand
  in its skid buffer. Input 4 is the Ramp engine's own path (R117). -/
  beats : Tab (List EngBeat) := []
  /-- R92 (03): the accepted partial beats of rows whose other parts are awaited, with their inputs. -/
  parts : List (Nat × EngBeat) := []
deriving DecidableEq, Repr

/-- An engine group (R81): its queue and its running descriptor. -/
structure EngGroup where
  /-- R93 (03): the descriptor queue of 16 offsets. Reset: empty. -/
  queue : List EngEntry := []
  /-- R93 (03): the pushes that stall because the queue is full. Reset: none. -/
  stalled : List EngEntry := []
  /-- R130 (03): the running descriptor. Reset: none. -/
  run : Option EngRun := none
deriving DecidableEq, Repr

/-- A chunk request that the stream routine holds (R322): the stage slot, context and image slot, the request's
Deck offset, the stream, and whether it is being scanned. -/
structure Chunk where
  slot : Nat := 0
  ctx : Nat := 0
  img : Nat := 0
  off : Nat := 0
  index : Nat := 0
  running : Bool := false
deriving DecidableEq, Repr

/-- A physical core. -/
structure Core where
  /-- R81, R93 (03): the engine groups G0, G1 and G2. Reset: idle. -/
  groups : Tab EngGroup := []
  /-- R127 (03): the round-robin pointer of the core Junction, 2 bits. Reset: 0. -/
  jptr : Nat := 0
  /-- R118 (03): the front took its last beats from the core Junction while the Ramp engine offered some too, 1 bit.
  Reset: 0 (DESIGN CHOICE, entry 96). -/
  rampTurn : Bool := false
  /-- R201 (05): the Convoy queues: 0 to 2 of the stage slots, 3 of firmware; 64 entries each. Reset: empty. -/
  convoy : Tab (List CvEntry) := []
  /-- the number of the next descriptor (the model's own). Reset: 0. -/
  nextCv : Nat := 0
  /-- R211 (05): the completions reported to the stage slots and the firmware, newest first. Reset: none. -/
  convoyDone : List CvDone := []
  /-- R142 (04): the narrow writes not yet visible to the wide view. Reset: none. -/
  narrow : List Host.Cell := []
  /-- R142 (04): the rows written through the wide view and not yet visible to the narrow view. Reset: none. -/
  wideRows : List Nat := []
  /-- R305 (07): the page-walk cache: its PTE segments, eight at most, as (context, sequence, segment). Reset: empty. -/
  walkCache : List (Nat × Nat × Nat) := []
  /-- R322 (08): the chunks that run and wait, in the order they came. Reset: none. -/
  chunks : List Chunk := []
  /-- R315 (08): the stream entry cache, as (context, index). Reset: empty. -/
  streamCache : List (Nat × Nat) := []
  /-- R381 (10): the save area, for 16 contexts: their held descriptors by queue. Reset: empty. -/
  saved : Tab (Tab (List CvEntry)) := []
deriving DecidableEq, Repr

/-! ## The block -/

/-- A command whose work on a core's firmware queue waits for that core, and for the Span banks that it reads or writes, to
power up (R237, R812). -/
structure FwWait where
  cores : List Nat := []
  banks : List Nat := []
  cmd : Instr
deriving DecidableEq, Repr

/-- The whole state. -/
structure State where
  /-- The commands that wait, first in first out (the block's own queue). Reset: empty. -/
  pending : List Instr := []
  /-- The model's own counter of free values drawn; no rule of the spec names it and no statement rests on
  its value. Reset: 0 (DESIGN CHOICE, entry 1). -/
  draws : Nat := 0
  /-- The Kraros layer (14). -/
  net : Net := {}
  /-- The configuration registers (21). -/
  regs : Regs := {}
  /-- R363 (10): the contexts that are not FREE, by ID, 0 to 511. Reset: none. -/
  ctxs : Tab Ctx := []
  /-- R155, R156 (04): the window entries, 64 per physical core p at 256p + i, 256 for the Span at 2,304 + i.
  Reset: zero. -/
  wins : Tab Win := []
  /-- R168 (04): the accepted writes in progress, by number. Reset: none. -/
  flights : Tab Flight := []
  /-- R168 (04): the number of the next accepted write (the model's own name for it). Reset: 0. -/
  nextFlight : Nat := 0
  /-- R168, R617 (04, 17): the headers that wait for room at their home or for its Deck island, oldest first.
  Reset: none. -/
  waitHdrs : List (WinHdr × WriteFrom) := []
  /-- R132 (04): the Decks of physical cores 0 to 8. Reset: every row invalid. -/
  decks : Tab Ram := []
  /-- R132 (04): the Span. Reset: every row invalid. -/
  span : Ram := {}
  /-- R176 (05): T3, the DDR4. Reset: no valid tag. -/
  t3 : Ext := {}
  /-- R176 (05): T4, the NVMe drive. Reset: no valid tag. -/
  t4 : Ext := {}
  /-- R655 (18): the SEALED regions in use, 64 in all, with their contexts. Reset: none. -/
  sealedRegions : Tab Nat := []
  /-- The physical cores 0 to 8 (03, 05, 06). -/
  cores : Tab Core := []
  /-- R18, R19, R273, R274 (01, 06): RELIABILITY_CORE_MAP, the physical core of each logical core. Reset: n for logical core n. -/
  coreMap : List Nat := [0, 1, 2, 3, 4, 5, 6, 7]
  /-- R376 (10): the Shared partition's slot table. Reset: empty. -/
  sched : Sched := {}
  /-- The chip Junction (06). -/
  jct : Jct := {}
  /-- The lanes 0 to 31 (15). -/
  lanes : Tab Lane := []
  /-- R683 (19): the fenced logical cores (DEVICE_CORES.IN_SERVICE shows the others). Reset: none. -/
  fenced : List Nat := []
  /-- Tlaog (18). -/
  sec : Sec := {}
  /-- Clocks, reset and start-up (22). -/
  rst : Rst := {}
  /-- Device sets (20). -/
  set : SetDev := {}
  /-- The DDR4 controller (16). -/
  ddr : Ddr := {}
  /-- The PCIe root port (21). -/
  pcie : Pcie := {}
  /-- Power (17). -/
  pwr : Pwr := {}
  /-- R812 (17): the commands whose firmware work waits for power, oldest first. Reset: none. -/
  fwWaits : List FwWait := []
  /-- Cameras and the ISP (11). -/
  cam : Cam := {}
  /-- Audio, Wayside and the cascade (12). -/
  aud : Aud := {}
  /-- Guardrail (13). -/
  grd : Grd := {}
  /-- Reliability, firmware update, the Odometer and the traffic counters (19). -/
  rel : Rel := {}
deriving DecidableEq, Repr

/-- The machine right after reset: every field at its default, the value its docstring names. -/
def State.reset : State := {}

end Sys2Proof.Machine
end

