-- ==== Sys2Proof/Machine/Fields.lean ====
section
/-!
DEFINITION. Tables, bit fields and byte order: the plain operations that the register map and every meaning use.
-/

namespace Sys2Proof.Machine

/-! ## Tables -/

/-- The entry at a key. -/
def tget? {α : Type} (t : Tab α) (k : Nat) : Option α := t.lookup k

/-- The entry at a key, or the value an unlisted entry holds. -/
def tget {α : Type} (t : Tab α) (d : α) (k : Nat) : α := (t.lookup k).getD d

/-- Set the entry at a key, keeping the keys in rising order. -/
def tset {α : Type} (t : Tab α) (k : Nat) (v : α) : Tab α :=
  match t with
  | [] => [(k, v)]
  | (j, w) :: r => if k < j then (k, v) :: (j, w) :: r
                   else if k = j then (k, v) :: r
                   else (j, w) :: tset r k v

/-- Remove the entry at a key. -/
def terase {α : Type} (t : Tab α) (k : Nat) : Tab α := t.filter (fun e => !(e.1 == k))

/-- Change the entry at a key, if there is one. -/
def tmod {α : Type} (t : Tab α) (k : Nat) (f : α → α) : Tab α :=
  match tget? t k with
  | some v => tset t k (f v)
  | none => t

/-- The lowest number below `n` that a table does not list. -/
def tfree {α : Type} (t : Tab α) (n : Nat) : Option Nat :=
  (List.range n).find? (fun k => (tget? t k).isNone)

/-! ## Bits and byte order (R10, R11, R511) -/

/-- Bit `i` of a number. -/
def bit (n i : Nat) : Bool := n.testBit i

/-- Bits [hi:lo] of a number. -/
def bits (n hi lo : Nat) : Nat := (n >>> lo) % 2 ^ (hi + 1 - lo)

/-- A truth value as a bit. -/
def ofBool (b : Bool) : Nat := if b then 1 else 0

/-- A number from little-endian bytes. -/
def leNat : Bytes → Nat
  | [] => 0
  | b :: r => b.toNat + 256 * leNat r

/-- The `w` little-endian bytes of a number. -/
def leBytes : Nat → Nat → Bytes
  | 0, _ => []
  | w + 1, n => BitVec.ofNat 8 n :: leBytes w (n / 256)

/-- The little-endian number in `w` bytes at an offset; bytes beyond the end count as 0. -/
def field (bs : Bytes) (off w : Nat) : Nat := leNat ((bs.drop off).take w)

/-- The bytes at an offset. -/
def slice (bs : Bytes) (off n : Nat) : Bytes := (bs.drop off).take n

/-- Zero bytes. -/
def zeros (n : Nat) : Bytes := List.replicate n 0

/-- The bits set in a mask, below `n`. -/
def maskBits (m n : Nat) : List Nat := (List.range n).filter (fun i => bit m i)

/-- The mask of a list of bits. -/
def maskOf (l : List Nat) : Nat := l.foldl (fun m i => m ||| (1 <<< i)) 0

/-- Round up to a multiple. -/
def roundUp (n m : Nat) : Nat := (n + m - 1) / m * m

/-- Division rounded up. -/
def ceilDiv (n m : Nat) : Nat := (n + m - 1) / m

end Sys2Proof.Machine
end

