-- ==== Sys2Proof/Machine/RegMap.lean ====
section
/-!
DEFINITION. The register space (21): which addresses are registers, their pages, the masks of their writable
and frozen fields and their reset values, and reading the live and shadow copies.
-/

namespace Sys2Proof.Machine

/-! ## Layout of the writable registers -/

/-- A register with RWS fields: its page, the mask of those fields, the mask of the frozen ones (R747), and
the reset value of the whole register. -/
structure RegInfo where
  page : Nat
  rws : Nat
  frozen : Nat := 0
  reset : Nat := 0
deriving DecidableEq, Repr

/-- The mask of bits [hi:lo]. -/
def fm (hi lo : Nat) : Nat := (2 ^ (hi + 1 - lo) - 1) <<< lo

/-- All 32 bits. -/
def fAll : Nat := 2 ^ 32 - 1

/-- The mask of the DST_SEL fields SPACE, SLOT, WINDOW and EPOCH (R434, R478). -/
def fDest : Nat := fm 29 26 + fm 17 0

/-- A register all of whose RWS fields are frozen. -/
def regF (page rws reset : Nat) : Option RegInfo := some { page := page, rws := rws, frozen := rws, reset := reset }

/-- A register none of whose RWS fields is frozen. -/
def regU (page rws reset : Nat) : Option RegInfo := some { page := page, rws := rws, reset := reset }

/-- Offsets are words. -/
def inWords (o lo n : Nat) : Bool := decide (lo ≤ o) && decide (o < lo + 4 * n)

/-- The output registers of an ISP context, by offset from OUTo_CTRL (R434). -/
def outInfo (page o : Nat) : Option RegInfo :=
  match o with
  | 0x00 => some { page := page, rws := fm 31 21 + fm 19 0, frozen := fm 31 26, reset := 2 ^ 26 + 2 ^ 16 }
  | 0x04 => regU page fDest 0
  | 0x08 => regU page fAll 0
  | 0x0C => regU page fAll 0
  | 0x10 => regU page (fm 23 0) 0
  | 0x14 => regU page fAll 0
  | 0x18 => regU page fAll 0
  | 0x1C => regU page fAll 0
  | 0x20 => regU page fAll 0
  | _ => none

/-- The registers of an ISP context's page (R434) and its tuning block (R426), by offset in the page. -/
def ispInfo (page o : Nat) : Option RegInfo :=
  match o with
  | 0x0C => regF page (fm 26 16 + fm 8 8 + fm 2 0) (0x80 <<< 16)
  | 0x10 => regF page (fm 15 0) 0x0BB8
  | 0x14 => regU page fDest 0
  | 0x18 => regU page (fm 27 0) (2 ^ 24)
  | 0x1C => regU page (fm 12 0) 0
  | 0x1A4 => regU page (fm 7 0) 0
  | 0x1A8 => regU page fAll 0
  | 0x1AC => regU page fAll 0
  | 0x1B0 => regU page fAll 0
  | 0x1B4 => regU page fAll 0x3F80_0000
  | 0x1B8 => regU page fAll 0x3F80_0000
  | 0x1BC => regU page fAll 0x3F80_0000
  | 0x200 => regU page (fm 1 0) 0
  | 0x204 => regU page (fm 27 16 + fm 11 0) 0
  | 0x208 => regU page (fm 27 16 + fm 11 0) 0
  | 0x20C => regU page fAll 0
  | 0x210 => regU page fAll 0
  | 0x214 => regU page (fm 7 0) 0
  | 0x230 => regU page (fm 15 0) 0
  | 0x234 => regU page fAll 0
  | 0x238 => regU page (fm 15 0) 0
  | 0x700 => regU page (fm 11 0) 0
  | _ =>
    if inWords o 0x100 48 then outInfo page ((o - 0x100) % 0x40)
    else if inWords o 0x220 4 then regU page fAll 0
    else if inWords o 0x240 234 then regU page fAll 0
    else if inWords o 0x600 64 then regU page (fm 27 16 + fm 11 0) 0
    else none

/-- The registers of the CAMERA and ISP block (R434), by offset in the block. -/
def camInfo (o : Nat) : Option RegInfo :=
  let b := 0x0020_0000
  if o = 0x10 then regU b (fm 31 31 + fm 21 0) 0x10
  else if inWords o 0x80 32 then regU b (fm 4 0) 0
  else if inWords o 0x1000 256 then
    let p := b + o / 0x100 * 0x100
    match o % 0x100 with
    | 0x08 => regF p (fm 19 6) (0x5DC * 2 ^ 8 + 2 ^ 7)
    | 0x0C => regF p (fm 12 0) (0xE4 * 2 ^ 5)
    | _ => none
  else if inWords o 0x2000 128 then
    let p := b + o / 0x40 * 0x40
    match o % 0x40 with
    | 0x08 => some { page := p, rws := fm 25 8, frozen := fm 25 12 + fm 10 8, reset := 0x2C * 2 ^ 14 + 2 ^ 12 }
    | 0x0C => regF p fAll 0
    | _ => none
  else if inWords o 0x3000 128 then
    let p := b + o / 0x100 * 0x100
    if o % 0x100 = 8 then regF p fAll (2 ^ 31 + 0x190 * 2 ^ 16 + 0x30D4) else none
  else if inWords o 0x8000 0x2000 then ispInfo (b + o / 0x800 * 0x800) (o % 0x800)
  else none

/-- The registers of the AUDIO and WAYSIDE block (R478), by offset in the block. -/
def audInfo (o : Nat) : Option RegInfo :=
  let a := 0x0021_0000
  let w := 0x0021_1000
  match o with
  | 0x10 => regF a (fm 24 16 + fm 4 0) (0xFF * 2 ^ 16 + 0x18)
  | 0x40 => regU a fDest 0
  | 0x50 => regU a fDest 0
  | 0x44 => regU a fAll 0
  | 0x54 => regU a fAll 0
  | 0x48 => regU a (fm 31 31 + fm 23 16 + fm 7 0) (8 * 2 ^ 16 + 10)
  | 0x58 => regU a (fm 31 31 + fm 23 16 + fm 7 0) (8 * 2 ^ 16 + 10)
  | 0x1010 => regF w (fm 7 0) 1
  | 0x1014 => regU w (fm 15 0) 0x0BB8
  | 0x1018 => regU w (fm 11 0) 0x5DC
  | _ => if inWords o 0x20 8 then regU a (fm 15 0) 0x1000 else none

/-- The registers of the GUARDRAIL block (R503), by offset in the block. -/
def grdInfo (o : Nat) : Option RegInfo :=
  let b := 0x0022_0000
  if inWords o 0x40 8 then regF b (fm 8 8 + fm 3 0) 0
  else if o = 0x60 then regF b (fm 15 8 + fm 1 0) 0x500
  else if inWords o 0x80 16 then
    match o % 0x10 with
    | 0x0 => regF b (fm 31 30 + fm 19 0) (2 ^ 16 + 0x3E8)
    | 0xC => regF b (fm 31 16 + fm 3 0) (0x1388 * 2 ^ 16 + 0xF)
    | _ => regF b fAll 0
  else if inWords o 0xC0 16 then regF b (fm 15 14 + fm 11 0) 0
  else if o = 0x100 then regU b (fm 15 0) 0x1F4
  else none

/-- The registers of the ETHERNET and LANES block (R510, R733), by offset in the block. -/
def ethInfo (o : Nat) : Option RegInfo :=
  let b := 0x0023_0000
  let p := 0x0023_0400
  if o = 0x10 then regU b (fm 15 0) 0xB86A
  else if o = 0x14 ∨ o = 0x18 ∨ o = 0x40 ∨ inWords o 0x20 8 then regU b fAll 0
  else if o = 0x410 then regF p (fm 31 30 + fm 26 24 + fm 7 0) 0
  else if o = 0x414 ∨ o = 0x418 then regF p fAll 0
  else if inWords o 0x500 128 then
    if o % 8 = 0 then regU p (fm 31 30 + fm 26 24 + fm 8 0) 0 else regU p (fm 26 24 + fm 8 0) 0
  else none

/-- The default service targets in units of 20 ns (R587). -/
def portTarget (p : Nat) : Nat :=
  if p ≤ 8 then 100 else match p with
    | 9 => 200
    | 10 => 500
    | 11 => 250
    | 12 => 1000
    | 13 => 25000
    | 14 => 2500
    | _ => 0

/-- The registers of the DDR block (R607), by offset in the block. -/
def ddrInfo (o : Nat) : Option RegInfo :=
  let b := 0x0003_8000
  if o = 0x8010 then regF b (fm 31 13) (0xFF * 2 ^ 24 + 3 * 2 ^ 20 + 2 ^ 16 + 2 ^ 14)
  else if inWords o 0x8040 16 then regU b (fm 15 0) (portTarget ((o - 0x8040) / 4))
  else if o = 0x8080 then regU b (fm 15 0) 0x320
  else if o = 0x8084 then regU b fAll 0x400
  else if o < 0x8000 then
    match o % 0x1000 with
    | 0x10 => regF b fAll 0x1610_1616
    | 0x14 => regF b fAll 0x344A_2248
    | 0x18 => regF b (fm 31 10) 0xDC18_3000
    | _ => none
  else none

/-- The registers of the remaining blocks: CLOCKS and RESET (R775), POWER (R633), PCIE (R753), ODOMETER and
TRAFFIC (R705), RELIABILITY (R704). -/
def otherInfo (a : Nat) : Option RegInfo :=
  match a with
  | 0x0001_0010 => regU 0x0001_0000 (fm 1 0) 1
  | 0x0002_0010 => regU 0x0002_0000 (fm 7 0) 0x3C
  | 0x0002_001C => regU 0x0002_0000 (fm 15 0) 0x3E8
  | 0x0002_0020 => regU 0x0002_0000 fAll 0
  | 0x0024_0010 => regF 0x0024_0000 (fm 7 7 + fm 3 0) 0xB
  | 0x0027_0050 => regU 0x0027_0000 (fm 31 30 + fm 7 0) (3 * 2 ^ 30 + 2)
  | 0x0027_0060 => regU 0x0027_0000 (fm 31 31 + fm 7 0) (2 ^ 31 + 0x18)
  | 0x0027_0074 => regU 0x0027_0000 (fm 15 0) 0x258
  | _ => if inWords a 0x0026_0040 8 then regU 0x0026_0000 (fm 31 31 + fm 27 24 + fm 7 0) 0 else none

/-- The layout of a register with RWS fields. -/
def regInfo (a : Nat) : Option RegInfo :=
  if a % 4 ≠ 0 then none
  else match a / 0x1_0000 with
    | 0x20 => camInfo (a % 0x1_0000)
    | 0x21 => audInfo (a % 0x1_0000)
    | 0x22 => grdInfo (a % 0x1_0000)
    | 0x23 => ethInfo (a % 0x1_0000)
    | 0x03 => ddrInfo (a % 0x1_0000)
    | _ => otherInfo a

/-- A run of `n` registers reaches the ISP contexts' pages, whose writes act for a context (R416, R542). -/
def namesIsp (addr n : Nat) : Bool := decide (addr < 0x0021_0000) && decide (0x0020_8000 < addr + 4 * n)

/-! ## Live and shadow values (R739) -/

/-- The live copy of a register. -/
def live (s : State) (a : Nat) : Nat :=
  match tget? s.regs.live a with
  | some w => w.toNat
  | none => match regInfo a with
    | some i => i.reset
    | none => 0

/-- The shadow copy of a register. -/
def shadow (s : State) (a : Nat) : Nat :=
  match tget? s.regs.shadow a with
  | some w => w.toNat
  | none => match regInfo a with
    | some i => i.reset
    | none => 0

/-! ## Pages (R738) -/

/-- The pages whose ENABLE is a writable field, by base address. -/
def enablePages : List Nat :=
  [0x0003_8000, 0x0020_0000, 0x0021_0000, 0x0021_1000, 0x0022_0000, 0x0023_0000, 0x0023_0400, 0x0024_0000] ++
  (List.range 4).map (fun n => 0x0020_1000 + n * 0x100) ++ (List.range 8).map (fun m => 0x0020_2000 + m * 0x40) ++
  (List.range 2).map (fun i => 0x0020_3000 + i * 0x100) ++ (List.range 16).map (fun c => 0x0020_8000 + c * 0x800)

/-- The pages whose ENABLE always reads 1 but which take commits. -/
def alwaysPages : List Nat := [0x0001_0000, 0x0002_0000, 0x0026_0000, 0x0027_0000]

/-- A page's words after reset: the Ethernet page alone resets enabled (R510). -/
def pageReset (p : Nat) : Page := { enable := p == 0x0023_0000 }

/-- A page's words. -/
def pageAt (s : State) (p : Nat) : Page := (tget? s.regs.pages p).getD (pageReset p)

/-- Whether a page is enabled. -/
def pageOn (s : State) (p : Nat) : Bool := alwaysPages.contains p || (pageAt s p).enable

/-- Change a page's words. -/
def modPage (s : State) (p : Nat) (f : Page → Page) : State :=
  { s with regs := { s.regs with pages := tset s.regs.pages p (f (pageAt s p)) } }

/-- The page base of an ISP context, a stream and a receiver. -/
def ispPage (c : Nat) : Nat := 0x0020_8000 + c * 0x800
def strPage (m : Nat) : Nat := 0x0020_2000 + m * 0x40
def rxPage (n : Nat) : Nat := 0x0020_1000 + n * 0x100

/-- Write bits of a register's shadow (R739, R747): frozen fields keep their value while the page is enabled,
and the write of one sets FROZEN_WRITE. -/
def writeShadow (s : State) (a v : Nat) (i : RegInfo) : State :=
  let on := pageOn s i.page
  let keep := fAll - (if on then i.rws - i.frozen else i.rws)
  let new := (shadow s a &&& keep) ||| (v &&& (fAll - keep))
  let s1 := { s with regs := { s.regs with shadow := tset s.regs.shadow a (BitVec.ofNat 32 new) } }
  if on ∧ i.frozen ≠ 0 then modPage s1 i.page (fun p => { p with frozenWrite := true }) else s1

/-- Every shadow of a page becomes live (R741, R748). -/
def pageLive (s : State) (p : Nat) : State :=
  let mine := s.regs.shadow.filter (fun e => match regInfo e.1 with
    | some i => i.page == p
    | none => false)
  { s with regs := { s.regs with live := mine.foldl (fun t e => tset t e.1 e.2) s.regs.live } }

/-! ## What other blocks read of the camera registers (R417, R418) -/

/-- The enabled ISP contexts. -/
def ispsOn (s : State) : List Nat := (List.range 16).filter (fun c => pageOn s (ispPage c))

/-- An enabled ISP context of the owner names an object as an output's destination (R418). -/
def ispNames (s : State) (c h : Nat) : Bool :=
  (ispsOn s).any (fun i => (tget? s.cam.owners i == some c) && [0, 1, 2].any (fun o =>
    let ctl := live s (ispPage i + 0x100 + 0x40 * o)
    bit ctl 31 && bits ctl 27 26 == 0 && ctl % 0x1_0000 == h))

end Sys2Proof.Machine
end

