-- ==== Sys2Proof/Machine/Ops.lean ====
section
/-!
DEFINITION. The named operations over byte memories and the state that every meaning uses: canonical memory, rows,
packets, replies and events (14), and free values.
-/

namespace Sys2Proof.Machine

/-- The outcome type of every meaning. -/
abbrev Out := Host.Outcome State Fault Refusal

/-! ## Byte memories in canonical form: rising addresses, no zero byte listed -/

/-- One byte. An unlisted byte is 0. -/
def memGet (m : List Host.Cell) (a : Nat) : Byte := (m.lookup a).getD 0

/-- Every byte from `lo` up to but not including `hi` becomes 0. -/
def memClear (m : List Host.Cell) (lo hi : Nat) : List Host.Cell :=
  m.filter (fun c => decide (c.1 < lo) || decide (hi ≤ c.1))

/-- The cells of a block of bytes at an address, its zero bytes left out. -/
def memBlock : Nat → Bytes → List Host.Cell
  | _, [] => []
  | a, b :: r => if b = 0 then memBlock (a + 1) r else (a, b) :: memBlock (a + 1) r

/-- Write a block of bytes. -/
def memWrite (m : List Host.Cell) (a : Nat) (bs : Bytes) : List Host.Cell :=
  m.filter (fun c => decide (c.1 < a)) ++ memBlock a bs ++
    m.filter (fun c => decide (a + bs.length ≤ c.1))

/-- Read a block of bytes. -/
def memRead (m : List Host.Cell) (a n : Nat) : Bytes :=
  let c := m.filter (fun c => decide (a ≤ c.1) && decide (c.1 < a + n))
  (List.range n).map (fun i => memGet c (a + i))

/-- The canonical form of a memory: strictly rising addresses and no byte equal to what an unlisted address
reads as. -/
def memWf (m : List Host.Cell) : Bool :=
  m.all (fun c => !(c.2 == 0)) && (m.zip m.tail).all (fun p => decide (p.1.1 < p.2.1))

/-! ## Sorted lists of numbers -/

/-- Insert a number into a rising list. -/
def insertNum (k : Nat) : List Nat → List Nat
  | [] => [k]
  | j :: r => if k < j then k :: j :: r else if k = j then j :: r else j :: insertNum k r

/-- Remove a range from a list. -/
def removeRange (l : List Nat) (lo hi : Nat) : List Nat :=
  l.filter (fun k => decide (k < lo) || decide (hi ≤ k))

/-! ## Tile formats (R179) -/

/-- Code bytes per tile row of a tile format (R179). -/
def codesPerRow (fmt : Nat) : Nat := if fmt = 0 then 4 else if fmt = 1 ∨ fmt = 2 ∨ fmt = 3 then 2 else 0

/-! ## Deck and Span rows (R140, R146, R147) -/

/-- A read: a row whose valid bit is clear reads as zeros (R147), without an ECC check (R148). -/
def Ram.read (r : Ram) (a n : Nat) : Bytes :=
  (List.range n).map (fun i => if r.valid.contains ((a + i) / 256) then memGet r.mem (a + i) else 0)

/-- Fresh check bits for the 64-bit words that lie wholly in a range of bytes (R679). -/
def Ram.heal (r : Ram) (lo hi : Nat) : Ram :=
  { r with soft := removeRange r.soft ((lo + 7) / 8) (hi / 8), bad := removeRange r.bad ((lo + 7) / 8) (hi / 8) }

/-- A write to part of one row: an invalid row's other bytes become zero and its bit is set (R147). Each word written whole,
all of them in an invalid row, takes fresh check bits (R679). -/
def Ram.writeRow (r : Ram) (a : Nat) (bs : Bytes) : Ram :=
  let row := a / 256
  if r.valid.contains row then { r.heal a (a + bs.length) with mem := memWrite r.mem a bs }
  else { r.heal (row * 256) (row * 256 + 256) with
    mem := memWrite (memClear r.mem (row * 256) (row * 256 + 256)) a bs, valid := insertNum row r.valid }

/-- Split a write at row boundaries (R140, R208): at most `fuel` rows. -/
def Ram.writeRows : Nat → Ram → Nat → Bytes → Ram
  | 0, r, _, _ => r
  | _ + 1, r, _, [] => r
  | fuel + 1, r, a, bs =>
    let n := 256 - a % 256
    (r.writeRow a (bs.take n)).writeRows fuel (a + n) (bs.drop n)

/-- A write of any length. -/
def Ram.write (r : Ram) (a : Nat) (bs : Bytes) : Ram := r.writeRows (bs.length / 256 + 2) a bs

/-- Clear the valid bits of rows `lo` up to but not including `hi` (R149): the data stays (R153). -/
def Ram.flashClear (r : Ram) (lo hi : Nat) : Ram := { r with valid := removeRange r.valid lo hi }

/-! ## The logical to physical map (R272) -/

/-- The physical core of a logical core. -/
def physOf (s : State) (n : Nat) : Nat := s.coreMap.getD n n

/-- The home number of a window space: the physical core, or 9 for the Span. -/
def homeOf (s : State) (space : Nat) : Nat := if space = 8 then 9 else physOf s space

/-- The memory of a home. -/
def ramOf (s : State) (home : Nat) : Ram := if home = 9 then s.span else tget s.decks {} home

/-- Set the memory of a home. -/
def setRam (s : State) (home : Nat) (r : Ram) : State :=
  if home = 9 then { s with span := r } else { s with decks := tset s.decks home r }

/-- A physical core's record. -/
def coreOf (s : State) (p : Nat) : Core := tget s.cores {} p

/-- Set a physical core's record. -/
def setCore (s : State) (p : Nat) (c : Core) : State := { s with cores := tset s.cores p c }

/-- R135 (04): the firmware-view address of a byte of the Span, home 9, or of the Deck of a physical core. -/
def firmwareAddr (home byte : Nat) : Nat :=
  if home = 9 then 0x40_0000_0000 + byte else 0x41_0000_0000 + home * 0x0100_0000 + byte

/-- R135 (04): the home and byte that a firmware-view address names: the Span, or the Deck of a physical core 0 to 8. An
access to the hole above a Deck, as one to any other address, ends the firmware operation with status FAULT. -/
def firmwareView (addr : Nat) : Except Status (Nat × Nat) :=
  if 0x40_0000_0000 ≤ addr ∧ addr < 0x40_0200_0000 then .ok (9, addr - 0x40_0000_0000)
  else
    let p := (addr - 0x41_0000_0000) / 0x0100_0000
    let o := (addr - 0x41_0000_0000) % 0x0100_0000
    if 0x41_0000_0000 ≤ addr ∧ p < 9 ∧ o < 0x00C0_0000 then .ok (p, o) else .error .fault

/-- A firmware read in its view: the first and the last byte lie in one memory (R135). -/
def firmwareRead (s : State) (addr n : Nat) : Except Status Bytes := do
  let a ← firmwareView addr
  let b ← firmwareView (addr + n - 1)
  if a.1 = b.1 ∨ n = 0 then .ok ((ramOf s a.1).read a.2 n) else .error .fault

/-- A firmware write in its view. -/
def firmwareWrite (s : State) (addr : Nat) (bs : Bytes) : Except Status State := do
  let a ← firmwareView addr
  let b ← firmwareView (addr + bs.length - 1)
  if bs.isEmpty then .ok s else if a.1 = b.1 then .ok (setRam s a.1 ((ramOf s a.1).write a.2 bs)) else .error .fault

/-! ## Free values -/

/-- The next number of the free-value counter. -/
def draw (s : State) : State := { s with draws := s.draws + 1 }

/-- `n` free bytes at the present draw. -/
def freeBytes (s : State) (n : Nat) : Bytes := (List.range n).map (Config.freeByte s.draws)

/-- A SHAKE256 output of `n` bytes (FIPS 202). -/
def shake256 (n : Nat) (m : Bytes) : Bytes := (List.range n).map (Config.shakeByte m)

/-! ## Contexts -/

/-- A context that a command may name: not FREE and not DESTROYING (R366). -/
def liveCtx (s : State) (c : Nat) : Option Ctx :=
  match tget? s.ctxs c with
  | some x => if x.st = .destroying then none else some x
  | none => none

/-- Set a context. -/
def setCtx (s : State) (c : Nat) (x : Ctx) : State := { s with ctxs := tset s.ctxs c x }

/-- Change a context that exists. -/
def modCtx (s : State) (c : Nat) (f : Ctx → Ctx) : State := { s with ctxs := tmod s.ctxs c f }

/-- A free amount of a context's own activity: cycles or energy, by kind. It varies with the context and its own activity,
and in the Shared partition with that of others too, which contend with it (R398 to R400). -/
def ownAmount (s : State) (c : Nat) (x : Ctx) (kind : Nat) : Nat :=
  Config.acctAmount kind c x.meter (if x.sealed then 0 else s.draws)

/-- Change a context's account counters by free amounts of its own activity, whose energy counts with them (R399). -/
def meter (s : State) (c : Nat) (f : (Nat → Nat) → Acct → Acct) : State :=
  draw (modCtx s c (fun x => { x with
    meter := x.meter + 1,
    acct := let a := f (ownAmount s c x) x.acct; { a with energy := a.energy + ownAmount s c x 9 } }))

/-- Change a context's account counters (R395). -/
def modAcct (s : State) (c : Nat) (f : Acct → Acct) : State :=
  modCtx s c (fun x => { x with acct := f x.acct })

/-- Count an activity that moves bytes, which takes energy (R397, R399). -/
def countAct (s : State) (c : Nat) (f : Acct → Acct) : State := meter s c (fun _ a => f a)

/-! ## Histograms (R697, R698, R702, R703) -/

/-- The bin of a value: linear with BASE and WIDTH, or log2 (R698). -/
def binOf (lin : Option (Int × Nat)) (v : Int) : Nat :=
  match lin with
  | some (b, w) => min 31 ((v - b) / (w : Int)).toNat
  | none => if v ≤ 0 then 0 else min 31 (Nat.log2 v.toNat + 1)

/-- Add a sample to a histogram, at an hour and a power cycle (R699). -/
def Hist.add (h : Hist) (lin : Option (Int × Nat)) (hours cycle : Nat) (v : Int) : Hist :=
  let i := binOf lin v
  let low := decide (h.samples = 0) || decide (v < h.min)
  let high := decide (h.samples = 0) || decide (h.max < v)
  { samples := h.samples + 1,
    min := if low then v else h.min, minHours := if low then hours else h.minHours,
    minCycle := if low then cycle else h.minCycle,
    max := if high then v else h.max, maxHours := if high then hours else h.maxHours,
    maxCycle := if high then cycle else h.maxCycle,
    bins := tset h.bins i (Nat.min (tget h.bins 0 i + 1) (2 ^ 32 - 1)) }

/-- The scale of an Odometer quantity (R697): BASE and WIDTH when it is linear. -/
def odoScale (id : Nat) : Option (Int × Nat) :=
  if id = 0 then some (-400, 50) else if id ≤ 8 then some (-800, 50) else if id = 12 then some (0, 32) else none

/-- Take a sample of an Odometer quantity (R697). -/
def odoSample (s : State) (id : Nat) (v : Int) : State :=
  let o := s.rel.odo
  let h := (tget o.recs {} id).add (odoScale id) o.hours o.cycles v
  { s with rel := { s.rel with odo := { o with recs := tset o.recs id h } } }

/-- The scale of a traffic monitor (R702), by class and index. -/
def monScale (cls idx : Nat) : Option (Int × Nat) :=
  if cls = 1 ∧ idx = 2 then some (0, 8) else if cls = 2 then some (0, 32) else none

/-- Take a sample of a traffic monitor (R702). -/
def monSample (s : State) (cls idx : Nat) (v : Int) : State :=
  let o := s.rel.odo
  let m := tget s.rel.monitors ({}, 0) (256 * cls + idx)
  let h := m.1.add (monScale cls idx) o.hours o.cycles v
  { s with rel := { s.rel with monitors := tset s.rel.monitors (256 * cls + idx) (h, m.2) } }

/-- The latency of a final reply (R697, R702): an amount the spec does not fix, in µs. -/
def replyMeter (s : State) (i : Iface) : State :=
  let v : Int := Config.freeAmount s.draws 11
  draw (monSample (odoSample s 11 v) 1 (if i = .host then 0 else 1) v)

/-! ## Packets, replies and events (14) -/

/-- IPv4 addresses stand among the IPv6 ones in IPv4-mapped form. -/
def isV4 (a : Nat) : Bool := a / 2 ^ 32 == 0xFFFF

/-- An interface's own address of the family of another address, if that family is enabled (R509, R510). -/
def ownAddr (s : State) (i : Iface) (like : Nat) : Option Nat :=
  let b := match i with
    | .host => (0x0023_0014, 0x0023_0020)
    | .mgmt => (0x0023_0018, 0x0023_0030)
  let v4 := live s b.1
  let v6 := (List.range 4).foldl (fun n w => n * 2 ^ 32 + live s (b.2 + 4 * w)) 0
  if isV4 like then (if v4 = 0 then none else some (0xFFFF_0000_0000 + v4)) else (if v6 = 0 then none else some v6)

/-- The VLAN tag of an interface's packets, PCP and VID, when it is tagged (R509, R510). -/
def ownTag (s : State) (i : Iface) : Option (Nat × Nat) :=
  let v := live s 0x0023_0040 / (match i with
    | .host => 2 ^ 16
    | .mgmt => 1)
  if bit v 15 then some (bits v 14 12, bits v 11 0) else none

/-- How a packet to an address and port leaves: from the interface's own address and UDP port, with its tag (R509). -/
def wireTo (s : State) (i : Iface) (port dst dport : Nat) : Wire :=
  { port := port, src := (ownAddr s i dst).getD 0, sport := live s 0x0023_0010 % 2 ^ 16, dst := dst, dport := dport,
    tag := ownTag s i }

/-- How a packet to a session leaves. -/
def wireOf (s : State) (sid : Nat) : Option Wire :=
  (tget? s.net.sessions sid).map (fun e => wireTo s e.iface e.port e.src e.sport)

/-- Put a packet on the wire: the model records it, newest first. -/
def sendPkt (s : State) (p : Packet) : State :=
  { s with net := { s.net with sent := { p with wire := p.wire.orElse (fun _ => wireOf s p.sess) } :: s.net.sent } }

/-- Send a final RSP, EVT or DATA packet to a session: it takes the session's next outbound number and stays
in the outbound store until it is acknowledged (R523). A set session keeps no outbound store and its RSP
carries LINK 0 (R515). A session that has ended gets nothing (R521). -/
def deliver (s : State) (sid : Nat) (p : Packet) (lane : Option Nat) : State :=
  match tget? s.net.sessions sid with
  | none => s
  | some e =>
    if e.peer.isSome then sendPkt s { p with sess := sid, link := 0 }
    else
      let q : Packet := { p with sess := sid, link := e.nextOut }
      { s with net := { s.net with
          sessions := tset s.net.sessions sid { e with nextOut := (e.nextOut + 1) % 2 ^ 32 },
          outbound := s.net.outbound ++ [{ pkt := q, lane := lane }],
          sent := { q with wire := wireOf s sid } :: s.net.sent } }

/-- Take a command off the list of commands in progress (R520). -/
def finishCmd (s : State) (sid seq : Nat) : State :=
  { s with net := { s.net with
      sessions := tmod s.net.sessions sid (fun e => { e with inProgress := e.inProgress.erase seq }) } }

/-- The final RSP of a command: it copies OPCODE, SEQUENCE and SESSION, and carries the CONTEXT given
(R516, R522). -/
def replyAs (s : State) (rq : Req) (op ctx : Nat) (st : Status) (rs : Reason) (payload : Bytes) : State :=
  deliver (finishCmd (replyMeter s rq.iface) rq.sess rq.seq) rq.sess
    { cls := .rsp, op := op, seq := rq.seq, ctx := ctx, status := st, reason := rs, payload := payload } none

/-- The reply to a context-scoped command (R516). -/
def replyC (s : State) (rq : Req) (op : Nat) (st : Status) (rs : Reason) (payload : Bytes) : State :=
  replyAs s rq op rq.ctx st rs payload

/-- The reply to any other command: CONTEXT 0 (R516). -/
def replyD (s : State) (rq : Req) (op : Nat) (st : Status) (rs : Reason) (payload : Bytes) : State :=
  replyAs s rq op 0 st rs payload

/-- An interim RSP: INTERIM set, status OK, no payload, LINK 0, not stored (R522). -/
def interim (s : State) (rq : Req) (op ctx : Nat) : State :=
  sendPkt s { sess := rq.sess, cls := .rsp, op := op, seq := rq.seq, ctx := ctx, interim := true,
              wire := some (wireTo s rq.iface rq.port rq.src rq.sport) }

/-- The entries that events occupy in the outbound store, each event once (R532). -/
def eventEntries (s : State) : Nat :=
  (((s.net.outbound.filter (fun e => e.pkt.cls = .evt)).map (fun e => e.pkt.seq)).dedup).length +
    s.net.held.length

/-- The entries that the outbound store holds, an event that goes to several sessions counting once (R526, R532). -/
def storeHeld (s : State) : Nat := (s.net.outbound.filter (fun e => e.pkt.cls ≠ .evt)).length + eventEntries s

/-- The commands that have been dispatched and not answered: their replies have their places in the store (entry 112). -/
def inService (s : State) : Nat :=
  (s.net.sessions.map (fun e => e.2.inProgress.length)).sum -
    (s.net.queue.filter (fun e => decide (e.req.sess ≠ 0))).length +
  (s.net.dispatched.filter (fun i => match i with
    | .helloOpen _ _ _ => true
    | _ => false)).length

/-- The outbound store is full (R526). -/
def storeFull (s : State) : Bool := decide (4096 ≤ storeHeld s + inService s)

/-- The sessions to which an event goes (R531): subscribed sessions, of the host interface alone for an event
that concerns a context. -/
def eventTargets (s : State) (device : Bool) : List Nat :=
  (s.net.sessions.filter (fun e => e.2.events && e.2.peer.isNone &&
    (device || decide (e.2.iface = .host)))).map Prod.fst

/-- Report an event (R530 to R532): `ctx` none for a device event; the items follow TIME. -/
def emit (s : State) (ctx : Option Nat) (st : Status) (rs : Reason) (items : Bytes) : State :=
  if 1024 ≤ eventEntries s ∨ storeFull s then
    { s with net := { s.net with
        eventsLost := min (s.net.eventsLost + 1) (2 ^ 32 - 1), lostSince := s.net.lostSince + 1 } }
  else
    let p : Packet :=
      { cls := .evt, seq := s.net.evtNum, ctx := ctx.getD 0, status := st,
        device := ctx.isNone, reason := rs, payload := leBytes 8 (Config.freeTime s.draws) ++ items }
    let s1 := draw { s with net := { s.net with evtNum := (s.net.evtNum + 1) % 2 ^ 32 } }
    match eventTargets s ctx.isNone with
    | [] => { s1 with net := { s1.net with held := s1.net.held ++ [p] } }
    | ts => ts.foldl (fun a sid => deliver a sid p none) s1

/-- A device event of status OK. -/
def emitDev (s : State) (rs : Reason) (items : Bytes) : State := emit s none .ok rs items

/-- A command that acts for a context: refused with CTX_UNKNOWN when the context is FREE or DESTROYING
(R366, R402). -/
def onCtx (s : State) (rq : Req) (op : Nat) (k : Ctx → State) : State :=
  match liveCtx s rq.ctx with
  | none => replyC s rq op .noContext .ctxUnknown []
  | some x => k x

/-! ## Check bits of the on-chip memory (R678, R679) -/

/-- Which of some 64-bit words the runs of bytes read in valid rows. -/
def Ram.hits (r : Ram) (words : List Nat) (runs : List (Nat × Nat)) : List Nat :=
  words.filter (fun w => r.valid.contains (w / 32) && runs.any (fun q => decide (q.1 / 8 ≤ w) && decide (8 * w < q.1 + q.2)))

/-- The reason of a read that detects an uncorrectable error. -/
def ueReason (home : Nat) : Reason := if home = 9 then .relSpanUe else .relDeckUe

/-- Read bytes of a Deck or the Span: a read that detects an uncorrectable error delivers nothing (R679). -/
def ramRead (s : State) (home a n : Nat) : Except Reason Bytes :=
  let r := ramOf s home
  if (r.hits r.bad [(a, n)]).isEmpty then .ok (r.read a n) else .error (ueReason home)

/-- An uncorrectable error of a word is counted, its row recorded, and the event reported (R679): the space is numbered as
RELIABILITY_UE_ADDR numbers it. -/
def noteWord (s : State) (home w : Nat) : State :=
  let sp := if home = 9 then 15 else home
  emitDev { s with rel := { s.rel with
    ue := tset s.rel.ue home (min (tget s.rel.ue 0 home + 1) (2 ^ 32 - 1)), ueAddr := sp * 2 ^ 28 + w / 32,
    ueAt := (home, s.rel.odo.hours) :: s.rel.ueAt.filter (fun e => decide (s.rel.odo.hours < e.2 + 1536)) } }
    .relEccUe (leBytes 1 sp ++ leBytes 4 (w / 32))

/-- A read of runs of bytes of a Deck or the Span: a word that it corrects counts (R678), and the first one that it cannot
correct is reported and fails the read (R679). Stored words stay as they are. -/
def eccScan (s : State) (home : Nat) (runs : List (Nat × Nat)) : State × Option Reason :=
  let r := ramOf s home
  let n := (r.hits r.soft runs).length
  let s1 := if n = 0 then s else
    { s with rel := { s.rel with ce := tset s.rel.ce home (min (tget s.rel.ce 0 home + n) (2 ^ 32 - 1)) } }
  match r.hits r.bad runs with
  | [] => (s1, none)
  | w :: _ => (noteWord s1 home w, some (ueReason home))

/-- An upset, if one strikes now (R678, R679): a free choice each time. -/
def strike (s : State) : State :=
  let u := Config.upset s.draws
  let hit := fun (h : Nat) (r : Ram) => match u with
    | some (k, w, soft) => if k = h then
        (if soft then { r with soft := insertNum w r.soft } else { r with bad := insertNum w r.bad }) else r
    | none => r
  { draw s with decks := s.decks.map (fun e => (e.1, hit e.1 e.2)), span := hit 9 s.span }

/-! ## The core supply (R786) -/

/-- The maximum of VDD_CORE in an envelope, in mV (R629). -/
def vddMax (watts : Nat) : Nat := if watts = 60 then 850 else if watts = 45 then 800 else if watts = 30 then 720 else 650

/-- The device writes the VDD_CORE target over AVSBus (R786): a voltage of the part's own, within the envelope's maximum. -/
def writeAvs (s : State) (watts : Nat) : State :=
  { s with pwr := { s.pwr with avs := min (vddMax watts) (Config.avsMv watts), avsWritten := true } }

end Sys2Proof.Machine
end

