-- ==== Sys2Proof/Machine/Arith.lean ====
section
/-!
DEFINITION. Numbers (02): the element formats, exact values, and the one rounding that turns an exact value
into an element. A finite value is an exact fraction.
-/

namespace Sys2Proof.Machine

/-! ## Integers -/

/-- The signed number that the low `w` bits of a pattern spell. -/
def toSigned (w n : Nat) : Int :=
  let m := n % 2 ^ w
  if m < 2 ^ (w - 1) then m else (m : Int) - 2 ^ w

/-- The `w`-bit two's-complement pattern of a number. -/
def ofSigned (w : Nat) (i : Int) : Nat := (i % (2 ^ w : Int)).toNat

/-- Saturate to a range. -/
def sat (lo hi i : Int) : Int := max lo (min hi i)

/-- A fraction rounded to the nearest integer, ties to even. -/
def rne (n : Int) (d : Nat) : Int :=
  let q := Int.fdiv n d
  let r := n - q * d
  if 2 * r < d then q
  else if (d : Int) < 2 * r then q + 1
  else if q % 2 = 0 then q else q + 1

/-! ## Exact values -/

/-- An exact value: NaN, an infinity, or a fraction (R33 to R37). -/
inductive Val where
  | nan
  | inf (neg : Bool)
  | num (n : Int) (d : Nat)
deriving DecidableEq, Repr

/-- Zero. -/
def Val.zero : Val := .num 0 1

/-- An integer as a value. -/
def Val.ofInt (i : Int) : Val := .num i 1

/-- A value times a power of two. -/
def Val.scale (v : Val) (e : Int) : Val :=
  match v with
  | .num n d => if 0 ≤ e then .num (n * 2 ^ e.toNat) d else .num n (d * 2 ^ (-e).toNat)
  | v => v

/-- The exact sum; opposite infinities give NaN (R44). -/
def Val.add : Val → Val → Val
  | .nan, _ => .nan
  | _, .nan => .nan
  | .inf a, .inf b => if a = b then .inf a else .nan
  | .inf a, .num _ _ => .inf a
  | .num _ _, .inf b => .inf b
  | .num n d, .num m e => if d = e then .num (n + m) d else .num (n * e + m * d) (d * e)

/-- The exact product; zero times infinity gives NaN (R52). -/
def Val.mul : Val → Val → Val
  | .nan, _ => .nan
  | _, .nan => .nan
  | .inf a, .inf b => .inf (a != b)
  | .inf a, .num n _ => if n = 0 then .nan else .inf (a != decide (n < 0))
  | .num n _, .inf b => if n = 0 then .nan else .inf (b != decide (n < 0))
  | .num n d, .num m e => .num (n * m) (d * e)

/-- The opposite value. -/
def Val.neg : Val → Val
  | .nan => .nan
  | .inf a => .inf !a
  | .num n d => .num (-n) d

/-- `a < b`; false when either is NaN. -/
def Val.lt : Val → Val → Bool
  | .nan, _ => false
  | _, .nan => false
  | .inf a, .inf b => a && !b
  | .inf a, .num _ _ => a
  | .num _ _, .inf b => !b
  | .num n d, .num m e => decide (n * e < m * d)

/-! ## Floating formats (R31 to R37) -/

/-- A floating format: exponent and mantissa widths, bias, and what its top exponent means. -/
structure FloatFmt where
  ebits : Nat
  mbits : Nat
  bias : Nat
  /-- the all-ones exponent holds infinity and NaN; E4M3 keeps only one NaN mantissa -/
  ieee : Bool
  /-- an out-of-range result saturates (R71) -/
  saturates : Bool
  nan : Nat
deriving DecidableEq, Repr

def e4m3 : FloatFmt := { ebits := 4, mbits := 3, bias := 7, ieee := false, saturates := true, nan := 0x7F }
def e5m2 : FloatFmt := { ebits := 5, mbits := 2, bias := 15, ieee := true, saturates := true, nan := 0x7F }
def fp16 : FloatFmt := { ebits := 5, mbits := 10, bias := 15, ieee := true, saturates := false, nan := 0x7E00 }
def bf16 : FloatFmt := { ebits := 8, mbits := 7, bias := 127, ieee := true, saturates := false, nan := 0x7FC0 }
def fp32 : FloatFmt := { ebits := 8, mbits := 23, bias := 127, ieee := true, saturates := false, nan := 0x7FC0_0000 }

/-- The width of a format in bits. -/
def FloatFmt.width (f : FloatFmt) : Nat := 1 + f.ebits + f.mbits

/-- The magnitude code of the largest finite value. -/
def FloatFmt.top (f : FloatFmt) : Nat :=
  if f.ieee then (2 ^ f.ebits - 1) * 2 ^ f.mbits - 1 else 2 ^ (f.ebits + f.mbits) - 2

/-- The value of an encoding (R33, R34); −0 is zero (R37). -/
def FloatFmt.decode (f : FloatFmt) (w : Nat) : Val :=
  let neg := bit w (f.ebits + f.mbits)
  let mag := w % 2 ^ (f.ebits + f.mbits)
  let e := mag / 2 ^ f.mbits
  let m := mag % 2 ^ f.mbits
  if f.top < mag then
    if f.ieee ∧ m = 0 then .inf neg else .nan
  else
    let sig : Int := if e = 0 then m else m + 2 ^ f.mbits
    let exp : Int := (max e 1 : Int) - f.bias - f.mbits
    (Val.num (if neg then -sig else sig) 1).scale exp

/-- The magnitude code of a positive fraction, rounded to nearest even with subnormals (R68). -/
def FloatFmt.roundMag (f : FloatFmt) (n d : Nat) : Nat :=
  let e0 : Int := (Nat.log2 n : Int) - Nat.log2 d
  let below := if 0 ≤ e0 then decide (n < d * 2 ^ e0.toNat) else decide (n * 2 ^ (-e0).toNat < d)
  let emin : Int := 1 - f.bias
  let e := max emin (if below then e0 - 1 else e0)
  let k := e - f.mbits
  let q := if 0 ≤ k then rne n (d * 2 ^ k.toNat) else rne (n * 2 ^ (-k).toNat) d
  (e - emin).toNat * 2 ^ f.mbits + q.toNat

/-- The encoding of a value (R36, R37, R68, R70, R71). -/
def FloatFmt.encode (f : FloatFmt) (v : Val) : Nat :=
  let sign := fun (neg : Bool) => if neg then 2 ^ (f.ebits + f.mbits) else 0
  let big := if f.saturates then f.top else f.top + 1
  match v with
  | .nan => f.nan
  | .inf a => sign a + big
  | .num n d =>
    if n = 0 then 0
    else
      let mag := f.roundMag n.natAbs d
      sign (n < 0) + (if f.top < mag then big else mag)

/-- The value after one rounding to a format. -/
def FloatFmt.round (f : FloatFmt) (v : Val) : Val := f.decode (f.encode v)

/-- Binary32 addition and multiplication (R74) where no result can underflow to a zero whose sign is written. -/
def add32 (a b : Val) : Val := fp32.round (a.add b)
def mul32 (a b : Val) : Val := fp32.round (a.mul b)

/-- Conversion to INT4 or INT8 (R69): `width` bits, reciprocal scale, zero point. -/
def toIntFmt (width : Nat) (recip : Val) (z : Int) (x : Val) : Int :=
  let lo : Int := -(2 ^ (width - 1))
  let hi : Int := 2 ^ (width - 1) - 1
  match x with
  | .nan => sat lo hi z
  | .inf a => if a then lo else hi
  | _ => match x.mul recip with
    | .nan => sat lo hi z
    | .inf a => if a then lo else hi
    | .num n d => sat lo hi (rne n d + z)

/-- Element formats by code (R97, R179): 0 INT4, 1 INT8, 2 E4M3, 3 E5M2, 4 BF16, 5 FP16, 6 FP32. -/
def floatFmt (code : Nat) : Option FloatFmt :=
  match code with
  | 2 => some e4m3
  | 3 => some e5m2
  | 4 => some bf16
  | 5 => some fp16
  | 6 => some fp32
  | _ => none

/-- The value of an element pattern in a format. -/
def elemVal (code w : Nat) : Val :=
  match floatFmt code with
  | some f => f.decode w
  | none => if code = 0 then Val.ofInt (toSigned 4 w) else Val.ofInt (toSigned 8 w)

end Sys2Proof.Machine
end

