-- ==== Sys2Proof/Machine/Isp.lean ====
section
/-!
DEFINITION. The arithmetic of the image signal processor (11): the processing chain, the statistics and the
output formats, as functions of a frame's lines and an ISP context's live registers.
-/

namespace Sys2Proof.Machine

/-- An image: rows of 12-bit samples. -/
abbrev Img := List (List Nat)

/-- Build an image from a function of row and column. -/
def Img.make (h w : Nat) (f : Nat → Nat → Nat) : Img :=
  (List.range h).map (fun r => (List.range w).map (fun c => f r c))

/-- A sample; beyond the edge it is the open value of `Config.edgeSample`. -/
def Img.at (g : Img) (r c : Int) : Nat :=
  if 0 ≤ r ∧ 0 ≤ c then
    match (g[r.toNat]?).bind (fun l => l[c.toNat]?) with
    | some v => v
    | none => Config.edgeSample r c % 4096
  else Config.edgeSample r c % 4096

/-- Rounded to nearest even and saturated to 0 to 4,095 (R425). -/
def clip12 (n : Int) (d : Nat) : Nat := (sat 0 4095 (rne n d)).toNat

/-- What the chain reads of an ISP context and its stream: the frame size and the live registers by page offset. -/
structure IspEnv where
  w : Nat
  h : Nat
  yuv : Bool
  yuvMatrix : Nat
  reg : Nat → Nat

/-- The 16-bit field at a byte offset of the page. -/
def IspEnv.half (e : IspEnv) (o : Nat) : Nat := (e.reg (o / 4 * 4) >>> (8 * (o % 4))) % 2 ^ 16

/-- The Bayer phase of a position, in raster order. -/
def phaseAt (r c : Nat) : Nat := (r % 2) * 2 + c % 2

/-- The colour of a phase: 0 R, 1 G, 2 B (R426 BAYER_ORDER). -/
def phaseColour (order p : Nat) : Nat :=
  (match order with
   | 0 => [0, 1, 1, 2]
   | 1 => [1, 0, 2, 1]
   | 2 => [1, 2, 0, 1]
   | _ => [2, 1, 1, 0]).getD p 1

/-- Step 1 of R425: black level. -/
def ispBlack (e : IspEnv) (g : Img) : Img :=
  Img.make e.h e.w (fun r c => clip12 ((g.at r c : Int) - (e.half (0x204 + 2 * phaseAt r c) % 4096 : Nat)) 1)

/-- Step 2: the lens-shading gain, bilinear over a 13 × 9 grid spread evenly across the frame. -/
def ispLens (e : IspEnv) (g : Img) : Img :=
  Img.make e.h e.w (fun r c =>
    let gain := fun (i j : Nat) => e.half (0x240 + 2 * (117 * phaseAt r c + 13 * j + i))
    let dx := e.w - 1
    let dy := e.h - 1
    let i := min (c * 12 / dx) 11
    let j := min (r * 8 / dy) 7
    let fx := c * 12 - i * dx
    let fy := r * 8 - j * dy
    let v := gain i j * (dx - fx) * (dy - fy) + gain (i + 1) j * fx * (dy - fy) +
      gain i (j + 1) * (dx - fx) * fy + gain (i + 1) (j + 1) * fx * fy
    clip12 (g.at r c * v : Nat) (dx * dy * 2 ^ 14))

/-- Step 3: white balance. -/
def ispWb (e : IspEnv) (g : Img) : Img :=
  Img.make e.h e.w (fun r c => clip12 (g.at r c * e.half (0x20C + 2 * phaseAt r c) : Nat) 4096)

/-- The nine offsets of a 3 × 3 neighbourhood. -/
def nine : List (Int × Int) := [(-1, -1), (-1, 0), (-1, 1), (0, -1), (0, 0), (0, 1), (1, -1), (1, 0), (1, 1)]

/-- The sum of the 3 × 3 neighbourhood at a step. -/
def nineSum (g : Img) (r c : Nat) (step : Int) : Nat :=
  (nine.map (fun o => g.at (r + step * o.1) (c + step * o.2))).sum

/-- Step 4: denoise against the mean of the 3 × 3 same-colour neighbours at offsets of ±2. -/
def ispDenoise (e : IspEnv) (g : Img) : Img :=
  let d := e.reg 0x214 % 16
  Img.make e.h e.w (fun r c =>
    let x : Int := g.at r c
    clip12 (144 * x + ((nineSum g r c 2 : Int) - 9 * x) * d) 144)

/-- Step 5: bilinear demosaic: the mean of the neighbours of a colour in the 3 × 3 neighbourhood. -/
def ispDemosaic (e : IspEnv) (g : Img) (ch : Nat) : Img :=
  let order := e.reg 0x200 % 4
  Img.make e.h e.w (fun r c =>
    if phaseColour order (phaseAt r c) = ch then g.at r c
    else
      let near := nine.filter (fun o => phaseColour order (phaseAt ((r : Int) + 2 + o.1).toNat ((c : Int) + 2 + o.2).toNat) == ch)
      clip12 ((near.map (fun o => g.at (r + o.1) (c + o.2))).sum : Nat) near.length)

/-- The constants of a matrix (R428), in units of 1/10,000: Kr and Kb. -/
def lumaK (m : Nat) : Nat × Nat := if m = 0 then (2990, 1140) else (2126, 722)

/-- 12-bit RGB of a YUV422 pixel (R407). The constants of BT.601 and BT.709 are the standards'. -/
def yuvPixel (m : Nat) (y cb cr : Int) (ch : Nat) : Nat :=
  let (kr, kb) := lumaK m
  let kg := 10000 - kr - kb
  let (y0, yr, cRange) : Int × Nat × Nat := if m = 2 then (0, 255, 255) else (16, 219, 224)
  let u := cb - 128
  let v := cr - 128
  -- R = Y + 2(1 − Kr)V, B = Y + 2(1 − Kb)U, G = (Y − Kr R − Kb B) / Kg, over yr and cRange
  let den := yr * cRange * 10000
  let yy := (y - y0) * cRange * 10000
  let rr := yy + 2 * (10000 - kr : Int) * v * yr
  let bb := yy + 2 * (10000 - kb : Int) * u * yr
  let (n, d) : Int × Nat := match ch with
    | 0 => (rr, den)
    | 2 => (bb, den)
    | _ => (10000 * yy - kr * rr - kb * bb, den * kg)
  clip12 (4095 * n) d

/-- The RGB planes of a YUV422 frame in UYVY order. -/
def yuvPlane (e : IspEnv) (g : Img) (ch : Nat) : Img :=
  Img.make e.h e.w (fun r c =>
    let p := 4 * (c / 2)
    yuvPixel e.yuvMatrix (g.at r (p + 1 + 2 * (c % 2) : Nat)) (g.at r p) (g.at r (p + 2 : Nat)) ch)

/-- The three planes after step 5, or the converted planes of a YUV422 source. -/
def ispPlanes (e : IspEnv) (g : Img) : List Img :=
  if e.yuv then [0, 1, 2].map (yuvPlane e g)
  else
    let m := ispDenoise e (ispWb e (ispLens e (ispBlack e g)))
    [0, 1, 2].map (ispDemosaic e m)

/-- Step 6: the colour matrix and offset. -/
def ispCcm (e : IspEnv) (ps : List Img) : List Img :=
  [0, 1, 2].map (fun ch => Img.make e.h e.w (fun r c =>
    let s := ([0, 1, 2].map (fun k => toSigned 16 (e.half (0x220 + 2 * (3 * ch + k))) * ((ps.getD k []).at r c : Int))).sum
    clip12 (s + 4096 * toSigned 16 (e.half (0x234 + 2 * ch))) 4096))

/-- Step 8: the tone curve. -/
def ispTone (e : IspEnv) (p : Img) : Img :=
  Img.make e.h e.w (fun r c =>
    let x := p.at r c
    let a := e.half (0x600 + 2 * (x / 32)) % 4096
    let b := e.half (0x600 + 2 * (x / 32 + 1)) % 4096
    clip12 (a * (32 - x % 32) + b * (x % 32) : Nat) 32)

/-- Step 9: sharpen. -/
def ispSharpen (e : IspEnv) (p : Img) : Img :=
  let k := bits (e.reg 0x214) 7 4
  Img.make e.h e.w (fun r c =>
    let y : Int := p.at r c
    clip12 (144 * y + (9 * y - nineSum p r c 1) * k) 144)

/-- Luma of an RGB sample (R429). -/
def lumaOf (r g b : Nat) : Nat := clip12 (77 * r + 150 * g + 29 * b : Nat) 256

/-- Step 7 (R433): 64 counts of luma by its top 6 bits, then 16 × 16 zones of three means, over the first
`rows` rows. -/
def ispStats (e : IspEnv) (ps : List Img) (rows : Nat) : Bytes :=
  let p := fun (ch : Nat) (r c : Nat) => (ps.getD ch []).at r c
  let lumas := (List.range rows).flatMap (fun r => (List.range e.w).map (fun c => lumaOf (p 0 r c) (p 1 r c) (p 2 r c)))
  let hist := (List.range 64).flatMap (fun k => leBytes 4 ((lumas.filter (fun l => l / 64 == k)).length))
  let zone := fun (zy zx ch : Nat) =>
    let vs := ((List.range rows).filter (fun r => decide (zy * e.h / 16 ≤ r) && decide (r < (zy + 1) * e.h / 16))).flatMap
      (fun r => ((List.range e.w).filter (fun c => decide (zx * e.w / 16 ≤ c) && decide (c < (zx + 1) * e.w / 16))).map
        (fun c => p ch r c))
    if vs.isEmpty then 0 else (rne vs.sum vs.length).toNat
  hist ++ (List.range 16).flatMap (fun zy => (List.range 16).flatMap (fun zx =>
    [0, 1, 2].flatMap (fun ch => leBytes 2 (zone zy zx ch))))

/-! ## Outputs (R427 to R430) -/

/-- An output's registers, by output number. -/
structure OutEnv where
  o : Nat
  ctl : Nat
  pitch : Nat
  plane : Nat
  cropX : Nat
  cropY : Nat
  cropW : Nat
  cropH : Nat
  ow : Nat
  oh : Nat

/-- Read an output's registers. -/
def outEnv (reg : Nat → Nat) (o : Nat) : OutEnv :=
  let b := 0x100 + 0x40 * o
  { o := o, ctl := reg b, pitch := reg (b + 0x10) % 2 ^ 24, plane := reg (b + 0x14),
    cropX := reg (b + 0x18) % 2 ^ 16, cropY := reg (b + 0x18) / 2 ^ 16,
    cropW := reg (b + 0x1C) % 2 ^ 16, cropH := reg (b + 0x1C) / 2 ^ 16,
    ow := reg (b + 0x20) % 2 ^ 16, oh := reg (b + 0x20) / 2 ^ 16 }

/-- The inputs that footprint `j` of `n` outputs over `m` inputs covers, each with its overlap in units of
1/n (R427). -/
def footprint (m n j : Nat) : List (Nat × Nat) :=
  ((List.range (ceilDiv m n + 1)).map (fun k => j * m / n + k)).filterMap (fun i =>
    let lo := max (i * n) (j * m)
    let hi := min ((i + 1) * n) ((j + 1) * m)
    if lo < hi then some (i, hi - lo) else none)

/-- An output pixel with 16 fractional bits: the coverage-weighted mean (R427). -/
def scaled (q : OutEnv) (p : Img) (j i : Nat) : Nat :=
  let s := ((footprint q.cropH q.oh j).flatMap (fun y => (footprint q.cropW q.ow i).map (fun x =>
    y.2 * x.2 * p.at (q.cropY + y.1 : Nat) (q.cropX + x.1 : Nat)))).sum
  (rne (s * 65536 : Nat) (q.cropH * q.cropW)).toNat

/-- A 12-bit value with 16 fractional bits narrowed to `w` bits (R428). -/
def narrow (w v : Nat) : Nat := (sat 0 (2 ^ w - 1) (rne v (2 ^ (12 - w) * 65536))).toNat

/-- A YCbCr sample of an RGB value with 16 fractional bits (R428): component 0 Y, 1 Cb, 2 Cr, in `w` bits. -/
def codingSample (m w : Nat) (r g b : Nat) (k : Nat) : Nat :=
  let (kr, kb) := lumaK m
  let kg := 10000 - kr - kb
  let y : Int := kr * r + kg * g + kb * b
  let unit := 4095 * 65536
  let full := m == 2
  let up : Nat := 2 ^ (w - 8)
  let (n, d) : Int × Nat := match k with
    | 0 => (y * ((if full then (2 ^ w - 1) else 219 * up : Nat) : Int), unit * 10000)
    | 1 => ((10000 * b - y) * ((if full then (2 ^ w - 1) else 224 * up : Nat) : Int), unit * 2 * (10000 - kb))
    | _ => ((10000 * r - y) * ((if full then (2 ^ w - 1) else 224 * up : Nat) : Int), unit * 2 * (10000 - kr))
  let off : Int := if k = 0 then (if full then 0 else 16 * up) else 128 * up
  (sat 0 (2 ^ w - 1) (rne (n + off * d) d)).toNat

/-- A vision element (R429). -/
def visionElem (e : IspEnv) (q : OutEnv) (ch : Nat) (rgb : List Nat) : Bytes :=
  let v := match bits q.ctl 23 22 with
    | 0 => Val.num (rgb.getD ch 0) (4095 * 65536)
    | 1 => Val.num (rgb.getD (2 - ch) 0) (4095 * 65536)
    | _ => Val.num (77 * rgb.getD 0 0 + 150 * rgb.getD 1 0 + 29 * rgb.getD 2 0 : Nat) (256 * 4095 * 65536)
  let y := (v.add (fp32.decode (e.reg (0x1A8 + 4 * ch))).neg).mul (fp32.decode (e.reg (0x1B4 + 4 * ch)))
  if bits q.ctl 30 28 = 0 then
    leBytes 1 (ofSigned 8 (toIntFmt 8 (.ofInt 1) (toSigned 8 (e.reg 0x1A4)) y))
  else leBytes 2 (fp16.encode y)

/-- The bytes that output row `j` writes, each block with its offset in the buffer (R428, R430). -/
def outRow (e : IspEnv) (q : OutEnv) (ps : List Img) (j : Nat) : List (Nat × Bytes) :=
  let px := fun (r c : Nat) => [0, 1, 2].map (fun ch => scaled q (ps.getD ch []) r c)
  let cols := List.range q.ow
  let fmt := bits q.ctl 30 28
  match q.o with
  | 0 =>
    [(j * q.pitch, cols.flatMap (fun c =>
      let p := px j c
      if fmt = 0 then
        leBytes 4 (0xFF00_0000 + narrow 8 (p.getD 0 0) * 2 ^ 16 + narrow 8 (p.getD 1 0) * 2 ^ 8 + narrow 8 (p.getD 2 0))
      else leBytes 2 (narrow 5 (p.getD 0 0) * 2 ^ 11 + narrow 6 (p.getD 1 0) * 2 ^ 5 + narrow 5 (p.getD 2 0))))]
  | 1 =>
    let m := bits q.ctl 25 24
    let w := if fmt = 0 then 8 else 10
    let put := fun (v : Nat) => if fmt = 0 then leBytes 1 v else leBytes 2 (v * 64)
    let luma := (j * q.pitch, cols.flatMap (fun c =>
      let p := px j c
      put (codingSample m w (p.getD 0 0) (p.getD 1 0) (p.getD 2 0) 0)))
    let quad := fun (c ch : Nat) =>
      ([(j - 1, c), (j - 1, c + 1), (j, c), (j, c + 1)].map (fun a => (px a.1 a.2).getD ch 0)).sum
    let mean := fun (c ch : Nat) => (rne (quad c ch) 4).toNat
    let chroma := (q.plane + j / 2 * q.pitch, (List.range (q.ow / 2)).flatMap (fun i =>
      [1, 2].flatMap (fun k => put (codingSample m w (mean (2 * i) 0) (mean (2 * i) 1) (mean (2 * i) 2) k))))
    if j % 2 = 1 then [luma, chroma] else [luma]
  | _ =>
    let chs := if bits q.ctl 23 22 = 2 then [0] else [0, 1, 2]
    if bits q.ctl 25 24 = 1 then
      [(j * q.pitch, cols.flatMap (fun c => chs.flatMap (fun ch => visionElem e q ch (px j c))))]
    else chs.map (fun ch => (ch * q.plane + j * q.pitch, cols.flatMap (fun c => visionElem e q ch (px j c))))

/-- The planes an output reads: after tone for the display, the coding and the vision output with TAP 1, and
sharpened for the first two (R425). -/
def outPlanes (e : IspEnv) (q : OutEnv) (ccm : List Img) : List Img :=
  if q.o = 2 then (if bit q.ctl 21 then ccm.map (ispTone e) else ccm)
  else (ccm.map (ispTone e)).map (ispSharpen e)

/-- The output rows that are complete once `hi` input rows are done and were not with `lo` (R419). -/
def rowsDone (q : OutEnv) (lo hi : Nat) : List Nat :=
  (List.range q.oh).filter (fun j =>
    let last := q.cropY + ceilDiv ((j + 1) * q.cropH) q.oh
    decide (last ≤ hi) && decide (lo < last))

/-- Split a block into writes of at most 4 KiB (R430). -/
def split4k : Nat → Nat → Bytes → List (Nat × Bytes)
  | 0, _, _ => []
  | fuel + 1, a, b => if b.isEmpty then [] else (a, b.take 4096) :: split4k fuel (a + 4096) (b.drop 4096)

end Sys2Proof.Machine
end

