-- ==== Sys2Proof/Machine/Flags.lean ====
section
/-!
DEFINITION. The codes of statuses and reasons, and the status words that registers and replies show.
-/

namespace Sys2Proof.Machine

/-- The STATUS byte (R517). -/
def Status.code : Status → Nat
  | .ok => 0x00 | .busy => 0x01 | .refused => 0x02 | .noContext => 0x03 | .noQuota => 0x04 | .auth => 0x05
  | .malformed => 0x06 | .timeout => 0x07 | .preempted => 0x08 | .windowClosed => 0x09 | .fault => 0x0A
  | .stalled => 0x0B

/-- The 16-bit code of a reason (R756, and the defining tables R131, R175, R275, R309, R337, R362, R402, R480, R505, R546, R572,
R609, R635, R674, R707, R735, R777). -/
def Reason.code : Reason → Nat
  | .none => 0x0000
  | .loadContainer => 0x0100
  | .loadTarget => 0x0101
  | .loadFormat => 0x0102
  | .loadDigest => 0x0103
  | .loadSignature => 0x0104
  | .loadUnsigned => 0x0105
  | .loadStructure => 0x0106
  | .loadCores => 0x0107
  | .loadBinding => 0x0108
  | .loadObjDigest => 0x0109
  | .loadStageTime => 0x010A
  | .loadDeck => 0x010B
  | .loadSpan => 0x010C
  | .loadWindows => 0x010D
  | .loadJunction => 0x010E
  | .loadTierQuota => 0x010F
  | .loadSlots => 0x0110
  | .loadEmpty => 0x0111
  | .loadImageBusy => 0x0112
  | .loadObjLocked => 0x0113
  | .engVersion => 0x0180
  | .engRange => 0x0181
  | .engShape => 0x0182
  | .engPairing => 0x0183
  | .engBounds => 0x0184
  | .engGroup => 0x0185
  | .cvVersion => 0x0190
  | .cvOp => 0x0191
  | .cvEndpoint => 0x0192
  | .cvAlign => 0x0193
  | .cvShape => 0x0194
  | .cvCodes => 0x0195
  | .cvBounds => 0x0196
  | .pipeSuccessor => 0x01A0
  | .pipeJctOrder => 0x01A1
  | .pipeJctStuck => 0x01A2
  | .pipeJctDest => 0x01A3
  | .pipeReshard => 0x01A4
  | .pipeWait => 0x01A5
  | .kvWalkVersion => 0x01B0
  | .kvWalkRange => 0x01B1
  | .kvWalkSeq => 0x01B2
  | .scanVersion => 0x01C0
  | .scanRange => 0x01C1
  | .scanHome => 0x01C2
  | .lanePutFault => 0x01D0
  | .ctxNoneFree => 0x0200
  | .ctxCores => 0x0201
  | .ctxPartition => 0x0202
  | .ctxParam => 0x0203
  | .ctxUnknown => 0x0204
  | .runQueueFull => 0x0205
  | .ctxBringIn => 0x0206
  | .ctxParkQuota => 0x0207
  | .preemptState => 0x0208
  | .schedNoBoundary => 0x0209
  | .schedCancelled => 0x020A
  | .ctxRemoteTimeout => 0x020B
  | .ctxRemoteResumed => 0x020C
  | .schedBoundExceeded => 0x020D
  | .schedTableFull => 0x020E
  | .objHandle => 0x0220
  | .objQuota => 0x0221
  | .objTableFull => 0x0222
  | .quotaOvercommit => 0x0223
  | .quotaInUse => 0x0224
  | .objRange => 0x0225
  | .objBusy => 0x0226
  | .objImage => 0x0227
  | .ibcMalformed => 0x0228
  | .ibcOversize => 0x0229
  | .objTier => 0x022A
  | .objSize => 0x022B
  | .quotaParam => 0x022C
  | .objParam => 0x022D
  | .winAlign => 0x0240
  | .winBounds => 0x0241
  | .winOverlap => 0x0242
  | .winWriters => 0x0243
  | .winIndex => 0x0244
  | .winState => 0x0245
  | .winDenied => 0x0246
  | .winRange => 0x0247
  | .kvSeqInUse => 0x0260
  | .kvSeqUnknown => 0x0261
  | .kvGeometry => 0x0262
  | .kvRefcount => 0x0263
  | .kvBusy => 0x0264
  | .streamIndex => 0x0270
  | .streamState => 0x0271
  | .streamGeometry => 0x0272
  | .streamObject => 0x0273
  | .ddrNotReady => 0x0300
  | .ddrUncorrectable => 0x0301
  | .ddrConfig => 0x0302
  | .ddrInService => 0x0303
  | .ddrTrainFail => 0x0310
  | .ddrCeRate => 0x0311
  | .ddrUe => 0x0312
  | .ddrRowThrottle => 0x0313
  | .pcieParam => 0x0320
  | .pcieNotReady => 0x0321
  | .pcieLinkUp => 0x0330
  | .pcieLinkDown => 0x0331
  | .camRxParam => 0x0400
  | .camStreamParam => 0x0401
  | .camStreamDup => 0x0402
  | .camLayby => 0x0403
  | .ispOwner => 0x0404
  | .ispSource => 0x0405
  | .ispOvercommit => 0x0406
  | .ispGeometry => 0x0407
  | .ispDest => 0x0408
  | .ispRota => 0x0409
  | .i3cNack => 0x040A
  | .i3cBus => 0x040B
  | .i3cParam => 0x040C
  | .camAttached => 0x0410
  | .camDetached => 0x0411
  | .camMuteOn => 0x0412
  | .camMuteOff => 0x0413
  | .i3cIbi => 0x0414
  | .i3cHotJoin => 0x0415
  | .ispOverrun => 0x0416
  | .audOwner => 0x0500
  | .audParam => 0x0501
  | .audHqClock => 0x0502
  | .audGeometry => 0x0503
  | .wakeFormat => 0x0504
  | .wakeCompute => 0x0505
  | .casSlot => 0x0506
  | .micMuteOn => 0x0510
  | .micMuteOff => 0x0511
  | .wakeVerdict => 0x0512
  | .cascadeDone => 0x0513
  | .grdWeightFormat => 0x0600
  | .grdLoadEnabled => 0x0601
  | .grdNotReady => 0x0602
  | .grdParam => 0x0603
  | .grdReleaseActive => 0x0604
  | .grdStop => 0x0610
  | .grdReleased => 0x0611
  | .grdFault => 0x0612
  | .grdStale => 0x0613
  | .ethVersion => 0x0700
  | .ethLength => 0x0701
  | .ethOpcode => 0x0702
  | .ethPort => 0x0703
  | .ethSession => 0x0704
  | .ethAuth => 0x0705
  | .ethQueueFull => 0x0706
  | .ethCtxLimit => 0x0707
  | .ethStaleSeq => 0x0708
  | .ethRegAccess => 0x0709
  | .ethParam => 0x070A
  | .ethSessionsFull => 0x070B
  | .ethRegWrite => 0x070C
  | .ethCfgParam => 0x070D
  | .ethLinkUp => 0x0710
  | .ethLinkDown => 0x0711
  | .ethEventsLost => 0x0712
  | .laneParam => 0x0720
  | .laneOwner => 0x0721
  | .laneDisabled => 0x0722
  | .laneLevel => 0x0730
  | .setPeerLost => 0x0740
  | .setNoCrossing => 0x0741
  | .setCrossingParam => 0x0742
  | .setNotTrunk => 0x0743
  | .setMirror => 0x0744
  | .setPeerUp => 0x0750
  | .setPeerDown => 0x0751
  | .pwrRefused => 0x0800
  | .pwrState => 0x0801
  | .pwrNoSave => 0x0802
  | .pwrDomain => 0x0803
  | .pwrEnvelope => 0x0804
  | .pwrEntering => 0x0805
  | .pwrParam => 0x0806
  | .pwrStateChange => 0x0810
  | .pwrT3Lost => 0x0811
  | .pwrRestoreFail => 0x0812
  | .rstParam => 0x0820
  | .rstBusy => 0x0821
  | .cfgRegionBad => 0x0822
  | .bootDone => 0x0823
  | .secIntegrity => 0x0900
  | .secReplay => 0x0901
  | .secSealedTier => 0x0902
  | .secSealedFull => 0x0903
  | .secSelftest => 0x0904
  | .secPolicy => 0x0905
  | .secRollback => 0x0906
  | .secIntegrityFail => 0x0910
  | .secError => 0x0911
  | .secTamper => 0x0912
  | .secBootFallback => 0x0913
  | .relDeckUe => 0x0A00
  | .relSpanUe => 0x0A01
  | .relCoreFenced => 0x0A02
  | .relCoreOut => 0x0A03
  | .relCoreParam => 0x0A04
  | .relNotFenced => 0x0A05
  | .relNoRelief => 0x0A06
  | .relBusy => 0x0A07
  | .relReliefFail => 0x0A08
  | .relReloadNeeded => 0x0A09
  | .fwFormat => 0x0A0A
  | .fwSignature => 0x0A0B
  | .fwSequence => 0x0A0C
  | .fwMode => 0x0A0D
  | .odoCursor => 0x0A0E
  | .cntSelect => 0x0A0F
  | .relFence => 0x0A10
  | .relRepaired => 0x0A11
  | .relEccUe => 0x0A12
  | .relUpperLost => 0x0A13
  | .relMgmtRestart => 0x0A14
  | .fwReverted => 0x0A15
  | .fwConfirmed => 0x0A16
  | .odoLost => 0x0A17
  | .relParam => 0x0A18

/-- The CLASS bits (R512). -/
def PktClass.code : PktClass → Nat
  | .cmd => 0 | .rsp => 1 | .evt => 2 | .data => 3

/-- The STATE code of a window entry (R156). -/
def WinState.code : WinState → Nat
  | .closed => 0 | .opened => 1 | .closing => 2

/-- The bytes of a packet that the device sends (R512). -/
def Packet.encoded (p : Packet) : Bytes :=
  leBytes 1 1 ++ leBytes 1 p.cls.code ++ leBytes 2 p.op ++ leBytes 4 p.seq ++ leBytes 2 p.ctx ++
  leBytes 2 p.payload.length ++ leBytes 1 p.status.code ++
  leBytes 1 (ofBool p.interim + 2 * ofBool p.device) ++ leBytes 2 p.reason.code ++ leBytes 4 p.link ++
  leBytes 4 p.sess ++ p.payload

/-- A STATUS word (R738): CFG_REASON, the block's own bits, FROZEN_WRITE and COMMIT_PENDING. -/
def statusWord (reason : Reason) (own : Nat) (frozen pending : Bool) : Word :=
  BitVec.ofNat 32 (reason.code * 65536 + own + 2 * ofBool frozen + ofBool pending)

end Sys2Proof.Machine
end

