-- ==== Sys2Proof/Machine/Ibc.lean ====
section
/-!
DEFINITION. Ivzel block coding (05, R214 to R225): bit strings, zigzag, IBC-W and IBC-A tiles, and the tile
payload with its header.
-/

namespace Sys2Proof.Machine.Ibc

/-! ## Bit strings, read from bit 0 of the lowest byte (R216) -/

/-- The low `n` bits of a number, least significant first. -/
def toBits : Nat → Nat → List Bool
  | 0, _ => []
  | n + 1, v => decide (v % 2 = 1) :: toBits n (v / 2)

/-- The number that bits spell, least significant first. -/
def ofBits : List Bool → Nat
  | [] => 0
  | b :: r => ofBool b + 2 * ofBits r

/-- The bits of a byte string. -/
def bitsOfBytes (bs : Bytes) : List Bool := bs.flatMap (fun b => toBits 8 b.toNat)

/-- Pack bits into bytes, the last one padded with zero bits; `fuel` bounds the bytes. -/
def packBits : Nat → List Bool → Bytes
  | 0, _ => []
  | _ + 1, [] => []
  | fuel + 1, l => BitVec.ofNat 8 (ofBits (l.take 8)) :: packBits fuel (l.drop 8)

/-- The bytes of a bit string. -/
def bytesOfBits (l : List Bool) : Bytes := packBits (l.length / 8 + 1) l

/-! ## Elements -/

/-- The element width of a tile format for IBC-W: 4 bits for INT4, 8 bits otherwise (R217). -/
def widthW (fmt : Nat) : Nat := if fmt = 0 then 4 else 8

/-- The element width of a tile format for IBC-A: 16 bits for BF16 and FP16, 8 bits otherwise (R221). -/
def widthA (fmt : Nat) : Nat := if fmt = 4 ∨ fmt = 5 then 16 else 8

/-- The elements of a byte string, `w` bits each, low bits first (R32, R216). -/
def elements (w : Nat) (bs : Bytes) : List Nat :=
  if w = 8 then bs.map BitVec.toNat
  else if w = 4 then bs.flatMap (fun b => [b.toNat % 16, b.toNat / 16])
  else (List.range (bs.length / 2)).map (fun i => field bs (2 * i) 2)

/-- The bytes of elements of `w` bits each. -/
def ofElements (w : Nat) (es : List Nat) : Bytes :=
  if w = 8 then es.map (BitVec.ofNat 8)
  else if w = 4 then (List.range (es.length / 2)).map
    (fun i => BitVec.ofNat 8 (es.getD (2 * i) 0 + 16 * es.getD (2 * i + 1) 0))
  else es.flatMap (fun e => leBytes 2 e)

/-- Zigzag of a `w`-bit two's-complement pattern (R218). -/
def zigzag (w q : Nat) : Nat := if q < 2 ^ (w - 1) then 2 * q else 2 * (2 ^ w - q) - 1

/-- The pattern that a zigzag value stands for. -/
def unzigzag (w u : Nat) : Nat := if u % 2 = 0 then u / 2 else 2 ^ w - (u + 1) / 2

/-- Consecutive groups of `n`; `fuel` bounds their number. -/
def chunks {α : Type} (n : Nat) : Nat → List α → List (List α)
  | 0, _ => []
  | _ + 1, [] => []
  | fuel + 1, l => l.take n :: chunks n fuel (l.drop n)

/-! ## IBC-W (R217 to R220) -/

/-- The code of one zigzag value with parameter `k` (R219); parameter 15 is raw. -/
def codeW (w k u : Nat) : List Bool :=
  if k = 15 then toBits w u
  else
    let t := u / 2 ^ k
    if t ≤ 14 then List.replicate t true ++ [false] ++ toBits k u
    else List.replicate 15 true ++ toBits w u

/-- The parameters valid for a width (R219). -/
def paramsW (w : Nat) : List Nat := if w = 4 then [0, 1, 2, 3] else [0, 1, 2, 3, 4, 5, 6, 7]

/-- The bits a block takes with a parameter. -/
def costW (w k : Nat) (us : List Nat) : Nat := ((us.map (fun u => (codeW w k u).length))).sum

/-- The compressor's choice: the fewest bits, the lowest parameter on a tie, and raw when none is shorter
(R220). -/
def chooseW (w : Nat) (us : List Nat) : Nat :=
  ((paramsW w).foldl (fun (b : Nat × Nat) k =>
    let c := costW w k us
    if c < b.2 then (k, c) else b) (15, w * us.length)).1

/-- The parameters, two per byte, and the element bits of a tile. -/
def bodyW (w : Nat) (es : List Nat) : Bytes :=
  let blocks := chunks 64 200 (es.map (zigzag w))
  let ks := blocks.map (chooseW w)
  ofElements 4 ks ++ bytesOfBits ((blocks.zip ks).flatMap (fun p => p.1.flatMap (codeW w p.2)))

/-- The count of leading ones, up to `n`, and the rest. -/
def ones : Nat → List Bool → Nat × List Bool
  | 0, l => (0, l)
  | _ + 1, [] => (0, [])
  | n + 1, true :: r => let p := ones n r; (p.1 + 1, p.2)
  | _ + 1, false :: r => (0, false :: r)

/-- Read `n` bits, or fail when they are not there. -/
def takeBits (n : Nat) (l : List Bool) : Option (Nat × List Bool) :=
  if l.length < n then none else some (ofBits (l.take n), l.drop n)

/-- Decode one element (R219); a value beyond the element range is malformed. -/
def decodeW (w k : Nat) (l : List Bool) : Option (Nat × List Bool) :=
  if k = 15 then takeBits w l
  else
    match ones 15 l with
    | (15, r) => takeBits w r
    | (t, false :: r) => (takeBits k r).bind (fun p =>
        let u := t * 2 ^ k + p.1
        if u < 2 ^ w then some (u, p.2) else none)
    | _ => none

/-- Decode `n` elements with the parameters of their 64-element blocks. -/
def decodeAllW (w : Nat) (ks : List Nat) : Nat → Nat → List Bool → Option (List Nat × List Bool)
  | 0, _, l => some ([], l)
  | n + 1, i, l =>
    (decodeW w (ks.getD (i / 64) 15) l).bind (fun p =>
      (decodeAllW w ks n (i + 1) p.2).map (fun q => (unzigzag w p.1 :: q.1, q.2)))

/-! ## IBC-A (R221 to R224) -/

/-- The coded values of a group's non-zero elements, each against the one before (R223). -/
def deltas (w : Nat) : Nat → List Nat → List Nat
  | _, [] => []
  | prev, e :: r => if e = 0 then deltas w prev r
                    else zigzag w ((e + 2 ^ w - prev) % 2 ^ w) :: deltas w e r

/-- The bit length of a number, at least 1 (R224). -/
def bitLen (n : Nat) : Nat := Nat.log2 n + 1

/-- Encode one group of 64 elements (R222, R224). -/
def groupA (w : Nat) (es : List Nat) : Bytes :=
  if es.all (· == 0) then [0x00]
  else
    let ds := deltas w 0 es
    let dw := bitLen (ds.foldl max 0)
    let mapped := [0x40] ++ packBits 8 (es.map (fun e => decide (e ≠ 0))) ++ [BitVec.ofNat 8 dw] ++
      bytesOfBits (ds.flatMap (toBits dw))
    if mapped.length < 1 + 64 * w / 8 then mapped else [0x80] ++ ofElements w es

/-- The groups of a tile. -/
def bodyA (w : Nat) (es : List Nat) : Bytes := (chunks 64 100 es).flatMap (groupA w)

/-- Rebuild a mapped group's elements (R223): a set bit whose value decodes to zero is malformed. -/
def undelta (w : Nat) : Nat → List Bool → List Nat → Option (List Nat)
  | _, [], _ => some []
  | prev, false :: m, ds => (undelta w prev m ds).map (0 :: ·)
  | _, true :: _, [] => none
  | prev, true :: m, d :: ds =>
    let e := (prev + unzigzag w d) % 2 ^ w
    if e = 0 then none else (undelta w e m ds).map (e :: ·)

/-- Decode one group; the elements and the bytes that follow. -/
def ungroupA (w : Nat) : Bytes → Option (List Nat × Bytes)
  | [] => none
  | m :: r =>
    if m = 0x00 then some (List.replicate 64 0, r)
    else if m = 0x80 then
      let n := 64 * w / 8
      if r.length < n then none else some (elements w (r.take n), r.drop n)
    else if m = 0x40 then
      let map := bitsOfBytes (r.take 8)
      let dw := (r.getD 8 0).toNat
      let cnt := (map.filter (· == true)).length
      let n := (cnt * dw + 7) / 8
      let body := r.drop 9
      if r.length < 9 ∨ dw = 0 ∨ w < dw ∨ body.length < n then none
      else
        let bs := bitsOfBytes (body.take n)
        if (bs.drop (cnt * dw)).any (· == true) then none
        else (undelta w 0 map ((chunks dw 64 (bs.take (cnt * dw))).map ofBits)).map (fun es => (es, body.drop n))
    else none

/-- Decode `n` groups. -/
def ungroupsA (w : Nat) : Nat → Bytes → Option (List Nat × Bytes)
  | 0, r => some ([], r)
  | n + 1, r => (ungroupA w r).bind (fun p => (ungroupsA w n p.2).map (fun q => (p.1 ++ q.1, q.2)))

/-! ## The tile payload (R215) -/

/-- A payload: header, content, zero padding to a multiple of 16. -/
def payload (mode : Nat) (content : Bytes) : Bytes :=
  let len := roundUp (4 + content.length) 16
  leBytes 4 (len * 65536 + mode * 4096) ++ content ++ zeros (len - 4 - content.length)

/-- Compress a tile (R220, R224): `coding` 1 is IBC-W and 2 IBC-A; `strip` is empty without code strips. -/
def compress (coding fmt : Nat) (strip tile : Bytes) : Bytes :=
  if tile.all (· == 0) then payload 2 strip
  else
    let body := if coding = 1 then bodyW (widthW fmt) (elements (widthW fmt) tile)
                else bodyA (widthA fmt) (elements (widthA fmt) tile)
    let coded := payload 0 (strip ++ body)
    let raw := payload 1 (strip ++ tile)
    if coded.length < raw.length then coded else raw

/-- The elements of a coded payload's content and how many content bytes they took. -/
def decodeBody (coding fmt : Nat) (content : Bytes) : Option (Bytes × Nat) :=
  if coding = 1 then
    let w := widthW fmt
    let np := if w = 4 then 64 else 32
    let ks := elements 4 (content.take np)
    if content.length < np ∨ ks.any (fun k => !(k == 15) && !((paramsW w).contains k)) then none
    else (decodeAllW w ks (if w = 4 then 8192 else 4096) 0 (bitsOfBytes (content.drop np))).bind (fun p =>
      let used := (content.length - np) * 8 - p.2.length
      if (p.2.take ((8 - used % 8) % 8)).any (· == true) then none
      else some (ofElements w p.1, np + (used + 7) / 8))
  else
    let w := widthA fmt
    (ungroupsA w (4096 * 8 / (64 * w)) content).map (fun p => (ofElements w p.1, content.length - p.2.length))

/-- Expand a payload (R215 to R225): the strip and the 4,096 element bytes, or none when it is malformed. -/
def expand (coding fmt stripLen : Nat) (p : Bytes) : Option (Bytes × Bytes) :=
  let h := field p 0 4
  let len := h / 65536
  let mode := h / 4096 % 16
  let content := slice p 4 (len - 4)
  if p.length < len ∨ len < 4 + stripLen ∨ h % 4096 ≠ 0 then none
  else
    let strip := content.take stripLen
    let rest := content.drop stripLen
    let ok := fun (used : Nat) => decide (len = roundUp (4 + stripLen + used) 16) &&
      (rest.drop used).all (· == 0)
    if mode = 0 then (decodeBody coding fmt rest).bind (fun r => if ok r.2 then some (strip, r.1) else none)
    else if mode = 1 then if rest.length < 4096 ∨ !(ok 4096) then none else some (strip, rest.take 4096)
    else if mode = 2 then if ok 0 then some (strip, zeros 4096) else none
    else none

end Sys2Proof.Machine.Ibc
end

