-- ==== Sys2Proof/Machine/Tiers.lean ====
section
/-!
DEFINITION. The storage tiers (05, 18): encrypted and tagged lines of T3 and T4, the stored bytes of an
object, its expanded tiles, and the stream of a coded object.
-/

namespace Sys2Proof.Machine

/-! ## Lines of T3 and T4 (R650 to R657) -/

/-- The storage of a tier: T3 or T4. -/
def extOf (s : State) (tier : Nat) : Ext := if tier = 4 then s.t4 else s.t3

/-- Set the storage of a tier. -/
def setExt (s : State) (tier : Nat) (e : Ext) : State :=
  if tier = 4 then { s with t4 := e } else { s with t3 := e, ddr := { s.ddr with raw := [] } }

/-- Why a tier answers no access at all (R579, R606, R667, R754), or none when it does: T1 and T2 always do. -/
def tierFault (s : State) (tier : Nat) : Option Reason :=
  if tier ≠ 3 ∧ tier ≠ 4 then none
  else if s.sec.error then some .secSelftest
  else if tier = 4 ∧ !s.pcie.ready then some .pcieNotReady
  else if tier = 3 ∧ !s.ddr.inService then some .ddrNotReady
  else none

/-! ## The counter tree (R656, R657) -/

/-- The key of node `n` of level `l` of the tree of region `r`: levels 0 to 4 hold 2,048, 256, 32, 4 and 1 nodes. -/
def nodeKey (r l n : Nat) : Nat := (r * 5 + l) * 2048 + n

/-- The region of a granule of T3, 64 MiB, and the granule's number in it (R653). -/
def regionOf (g : Nat) : Nat := g / 16384

/-- The counter of level `l` on the path of granule `g`: its node and slot (R656). At level 0 it is the granule's major counter. -/
def pathAt (g l : Nat) : Nat × Nat := (nodeKey (regionOf g) l (g % 16384 / 8 ^ (l + 1)), g % 16384 / 8 ^ l % 8)

/-- The counter of level `l` on the path of a granule. -/
def pathCounter (e : Ext) (g l : Nat) : Nat := tget (tget e.nodes {} (pathAt g l).1).counters 0 (pathAt g l).2

/-- The major counter of a granule (R656). -/
def majorOf (e : Ext) (g : Nat) : Nat := pathCounter e g 0

/-- A node's own counter: the one of its parent that covers it, or for the node of L4 the on-chip root (R656). -/
def parentCounter (e : Ext) (g l : Nat) : Nat := if l < 4 then pathCounter e g (l + 1) else tget e.roots 0 (regionOf g)

/-- The node tag of level `l` on a granule's path verifies under the node's own counter (R652, R656). -/
def nodeOk (e : Ext) (g l : Nat) : Bool :=
  let n := tget e.nodes {} (pathAt g l).1
  decide (n.tagged = n.counters) && n.parent == parentCounter e g l

/-- The whole path of a granule verifies, up to the on-chip root. -/
def treeOk (e : Ext) (g : Nat) : Bool := (List.range 5).all (nodeOk e g)

/-- A granule's major counter increments, and the change propagates to the on-chip root (R657): every counter of the path
increments, and each node on it is tagged afresh under its own counter. -/
def bumpMajor (e : Ext) (g : Nat) : Ext :=
  let e1 := { e with
    nodes := (List.range 5).foldl (fun t l => tset t (pathAt g l).1
      { tget t {} (pathAt g l).1 with
        counters := tset (tget t {} (pathAt g l).1).counters (pathAt g l).2 (pathCounter e g l + 1) }) e.nodes,
    roots := tset e.roots (regionOf g) (tget e.roots 0 (regionOf g) + 1) }
  { e1 with nodes := (List.range 5).foldl (fun t l => tset t (pathAt g l).1
      { tget t {} (pathAt g l).1 with
        tagged := (tget t {} (pathAt g l).1).counters, parent := parentCounter e1 g l }) e1.nodes }

/-! ## Lines (R650 to R652) -/

/-- Why a line cannot be read (R602, R652, R667, R754), or none when it can: a line of a SEALED object must match the counter
tree too, and one of any other object is tagged under MAJOR 0 (R650). A line that nothing has written since the allocation
has no valid tag (R189). -/
def lineFault (s : State) (tier key : Nat) (sealed : Bool) (ln : Nat) : Option Reason :=
  let e := extOf s tier
  match tierFault s tier with
  | some r => some r
  | none =>
    if e.bad.contains ln then some .ddrUncorrectable
    else match tget? e.lines ln with
      | none => some .secIntegrity
      | some l =>
        if l.key ≠ key ∨ !(s.sec.keys.contains key) then some .secIntegrity
        else if l.major ≠ (if sealed then majorOf e (ln / 64) else 0) ∨ (sealed ∧ !treeOk e (ln / 64)) then some .secReplay
        else none

/-- Read bytes at an address of T3 or T4 under a key set: every line they touch must verify (R652). -/
def extRead (s : State) (tier key : Nat) (sealed : Bool) (addr n : Nat) : Except Reason Bytes :=
  let bad := (List.range (ceilDiv (addr % 64 + n) 64)).filterMap (fun i => lineFault s tier key sealed (addr / 64 + i))
  match bad with
  | r :: _ => .error r
  | [] => .ok (memRead (extOf s tier).mem addr n)

/-- Set the tag data of lines `first` up to but not including `first + n`. -/
def setLines (e : Ext) (first n : Nat) (f : Nat → Line) : Ext :=
  { e with lines := e.lines.filter (fun l => decide (l.1 < first)) ++
      (List.range n).map (fun i => (first + i, f (first + i))) ++
      e.lines.filter (fun l => decide (first + n ≤ l.1)) }

/-- The tag data of a line that is written: a SEALED line's MINOR increments, and its granule's MAJOR when
MINOR would pass 255 (R657). -/
def nextLine (e : Ext) (key : Nat) (sealed : Bool) (ln : Nat) : Line :=
  if sealed then
    let old := tget e.lines {} ln
    let major := majorOf e (ln / 64)
    if old.minor < 255 then { key := key, major := major, minor := old.minor + 1 }
    else { key := key, major := major + 1, minor := 0 }
  else { key := key }

/-- Write one line's tag, re-encrypting its granule when MAJOR increments (R657). -/
def tagLine (e : Ext) (key : Nat) (sealed : Bool) (ln : Nat) : Ext :=
  let l := nextLine e key sealed ln
  let e1 := setLines e ln 1 (fun _ => l)
  if l.major ≠ majorOf e (ln / 64) then
    { bumpMajor e1 (ln / 64) with
      lines := e1.lines.map (fun p => if p.1 / 64 = ln / 64 then (p.1, { p.2 with major := l.major, minor := 0 }) else p) }
  else e1

/-- Write bytes at an address of T3 or T4 under a key set, each touched line tagged afresh (R651, R657). A tier that
answers no access stores nothing. -/
def extWrite (s : State) (tier key : Nat) (sealed : Bool) (addr : Nat) (bs : Bytes) : State :=
  if (tierFault s tier).isSome then s
  else
    let e := extOf s tier
    let n := if bs.isEmpty then 0 else ceilDiv (addr % 64 + bs.length) 64
    let e1 := { e with mem := memWrite e.mem addr bs, bad := removeRange e.bad (addr / 64) (addr / 64 + n) }
    let e2 := if sealed then (List.range n).foldl (fun a i => tagLine a key true (addr / 64 + i)) e1
              else setLines e1 (addr / 64) n (fun _ => { key := key })
    setExt s tier e2

/-- The allocation fill (R188): encrypted zeros with valid tags over whole granules. -/
def extFill (s : State) (tier key : Nat) (sealed : Bool) (first count : Nat) : State :=
  if (tierFault s tier).isSome then s
  else
    let e := extOf s tier
    let e1 := { e with
      mem := memClear e.mem (first * 4096) ((first + count) * 4096),
      bad := removeRange e.bad (first * 64) ((first + count) * 64) }
    setExt s tier (setLines e1 (first * 64) (count * 64)
      (fun ln => { key := key, major := if sealed then majorOf e (ln / 64) else 0 }))

/-- The zero-fill of freed granules (R232, R657): raw zero bytes and raw zero tags, and a SEALED granule's
MAJOR increments. -/
def extErase (s : State) (tier first count : Nat) (sealed : Bool) : State :=
  let e0 := extOf s tier
  let e := if sealed then (List.range count).foldl (fun a i => bumpMajor a (first + i)) e0 else e0
  setExt s tier { e with
    mem := memClear e.mem (first * 4096) ((first + count) * 4096),
    lines := e.lines.filter (fun l => decide (l.1 < first * 64) || decide ((first + count) * 64 ≤ l.1)),
    bad := removeRange e.bad (first * 64) ((first + count) * 64) }

/-- A NOFILL allocation leaves no granule of its run with a valid tag (R189): whatever the granules held, none of it has been
written since the allocation. -/
def extUntag (s : State) (tier first count : Nat) : State :=
  let e := extOf s tier
  setExt s tier { e with lines := e.lines.filter (fun l => decide (l.1 < first * 64) || decide ((first + count) * 64 ≤ l.1)) }

/-! ## Home and upper storage of an object -/

/-- The code-strip bytes of a stream (R214, R181): IBC-W streams of a format with block codes carry strips. -/
def stripLen (coding fmt flags : Nat) : Nat := if coding = 1 ∧ flags % 2 = 1 then 64 * codesPerRow fmt else 0

/-- Read `n` bytes at an offset of an object's home. -/
def homeRead (s : State) (x : Ctx) (o : Obj) (off n : Nat) : Except Reason Bytes :=
  if o.homeTier = 3 ∨ o.homeTier = 4 then extRead s o.homeTier x.key o.sealed (o.home * 4096 + off) n
  else ramRead s (if o.homeTier = 2 then 9 else physOf s o.homeCore) (o.home * 256 + off) n

/-- Write bytes at an offset of an object's home. -/
def homeWrite (s : State) (x : Ctx) (o : Obj) (off : Nat) (bs : Bytes) : State :=
  if o.homeTier = 3 ∨ o.homeTier = 4 then extWrite s o.homeTier x.key o.sealed (o.home * 4096 + off) bs
  else
    let h := if o.homeTier = 2 then 9 else physOf s o.homeCore
    setRam s h ((ramOf s h).write (o.home * 256 + off) bs)

/-- The home number of the memory that holds an upper copy in T1 or T2. -/
def upperHome (s : State) (u : Upper) : Nat := if u.tier = 2 then 9 else physOf s u.core

/-- Read a tile of an upper copy, which is held expanded (R185). -/
def upperRead (s : State) (x : Ctx) (u : Upper) (i : Nat) : Except Reason Bytes :=
  if u.tier = 3 then extRead s 3 x.key false (u.loc * 4096 + i * 4096) 4096
  else ramRead s (upperHome s u) (u.loc * 256 + i * 4096) 4096

/-- Write a tile of an upper copy. -/
def upperWrite (s : State) (x : Ctx) (u : Upper) (i : Nat) (bs : Bytes) : State :=
  if u.tier = 3 then extWrite s 3 x.key false (u.loc * 4096 + i * 4096) bs
  else setRam s (upperHome s u) ((ramOf s (upperHome s u)).write (u.loc * 256 + i * 4096) bs)

/-- Where the access of an object stands in a Deck or the Span, if it does (R186): the home number, the first byte and the
length of its storage there. -/
def objRun (s : State) (o : Obj) : Option (Nat × Nat × Nat) :=
  match o.upper with
  | some u => if u.tier = 3 then none else some (upperHome s u, u.loc * 256, (o.tilesM1 + 1) * 4096)
  | none =>
    if 3 ≤ o.homeTier then none
    else some (if o.homeTier = 2 then 9 else physOf s o.homeCore, o.home * 256,
      if o.coding = 0 then (o.tilesM1 + 1) * 4096 else (o.storedM1 + 1) * 4096)

/-- A read of an object's rows that failed is counted and reported (R679), whatever command made it. -/
def noteUe (s : State) (o : Obj) (r : Reason) : State :=
  if r = .relDeckUe ∨ r = .relSpanUe then
    match objRun s o with
    | some q => match (ramOf s q.1).hits (ramOf s q.1).bad [q.2] with
      | w :: _ => noteWord s q.1 w
      | [] => s
    | none => s
  else s

/-! ## Coded streams (R214, R809) -/

/-- The header of a stream (R214). -/
def streamHeader (coding fmt tiles stored : Nat) : Bytes :=
  [0x49, 0x42, 0x43, 0x31] ++ leBytes 1 coding ++ leBytes 1 (if fmt = 7 then 0xF else fmt) ++
  leBytes 2 (if coding = 1 ∧ codesPerRow fmt ≠ 0 then 1 else 0) ++ leBytes 4 tiles ++ zeros 4 ++
  leBytes 8 (tiles * 4096) ++ leBytes 8 stored ++ zeros 32

/-- The first 16-byte boundary after the index. -/
def streamBase (tiles : Nat) : Nat := roundUp (64 + 4 * tiles) 16

/-- A header is valid for an object (R214, R225): its stream holds its index and lies within the object's storage. -/
def headerOk (o : Obj) (h : Bytes) : Bool :=
  decide (64 + 4 * (o.tilesM1 + 1) ≤ field h 0x18 8) && decide (field h 0x18 8 ≤ (o.storedM1 + 1) * 4096) &&
  h.take 4 == [0x49, 0x42, 0x43, 0x31] && field h 4 1 == o.coding &&
  field h 5 1 == (if o.fmt = 7 then 0xF else o.fmt) && decide (field h 6 2 ≤ (if o.coding = 1 then 1 else 0)) &&
  field h 8 4 == o.tilesM1 + 1 && field h 0xC 4 == 0 && field h 0x10 8 == (o.tilesM1 + 1) * 4096 &&
  (slice h 0x20 32).all (· == 0)

/-- Read and expand tile `i` of a coded object: the strip, if the stream carries strips, and the elements. A
stream whose first 64 bytes are zero, and an index entry of 0, expand to zeros (R809). -/
def codedTile (s : State) (x : Ctx) (o : Obj) (i : Nat) : Except Reason (Option Bytes × Bytes) :=
  match homeRead s x o 0 64 with
  | .error r => .error r
  | .ok h =>
    if h.all (· == 0) then .ok (some (zeros (64 * codesPerRow o.fmt)), zeros 4096)
    else if !headerOk o h then .error .ibcMalformed
    else
      let sl := stripLen o.coding o.fmt (field h 6 2)
      let strip := fun (b : Bytes) => if field h 6 2 % 2 = 1 then some b else none
      match homeRead s x o (64 + 4 * i) 4 with
      | .error r => .error r
      | .ok ib =>
        if leNat ib = 0 then .ok (strip (zeros sl), zeros 4096)
        else if field h 0x18 8 < leNat ib * 16 + 4 then .error .ibcMalformed
        else match homeRead s x o (leNat ib * 16) 4 with
          | .error r => .error r
          | .ok ph =>
            if field h 0x18 8 < leNat ib * 16 + leNat ph / 65536 then .error .ibcMalformed
            else match homeRead s x o (leNat ib * 16) (leNat ph / 65536) with
              | .error r => .error r
              | .ok p => match Ibc.expand o.coding o.fmt sl p with
                | none => .error .ibcMalformed
                | some (st, t) => .ok (strip st, t)

/-- Read tile `i` of an object for Convoy (R186, R209): the upper copy when there is one, else the home; a
coded home is expanded. -/
def objTile (s : State) (x : Ctx) (o : Obj) (i : Nat) : Except Reason (Option Bytes × Bytes) :=
  match o.upper with
  | some u => (upperRead s x u i).map (fun b => (none, b))
  | none =>
    if o.coding = 0 then (homeRead s x o (i * 4096) 4096).map (fun b => (none, b))
    else codedTile s x o i

/-- Write tile `i` into a coded home (R809): `fresh` starts a rebuild of the whole stream. The answer is the
reason it fails (R226), or the state. -/
def codedWrite (s : State) (x : Ctx) (o : Obj) (i : Nat) (fresh : Bool) (strip tile : Bytes) : Except Reason State :=
  let tiles := o.tilesM1 + 1
  match (if fresh then .ok [] else homeRead s x o 0 64 : Except Reason Bytes) with
  | .error r => .error r
  | .ok h0 =>
    let new := fresh || h0.all (· == 0)
    let s1 := if new then homeWrite s x o 0 (streamHeader o.coding o.fmt tiles (streamBase tiles) ++ zeros (4 * tiles)) else s
    let stored := if new then streamBase tiles else roundUp (field h0 0x18 8) 16
    let flags := if new then (if o.coding = 1 ∧ codesPerRow o.fmt ≠ 0 then 1 else 0) else field h0 6 2
    let sl := stripLen o.coding o.fmt flags
    let p := Ibc.compress o.coding o.fmt (strip.take sl ++ zeros (sl - strip.length)) tile
    if (o.storedM1 + 1) * 4096 < stored + p.length then .error .ibcOversize
    else
      let s2 := homeWrite s1 x o stored p
      let s3 := homeWrite s2 x o (64 + 4 * i) (leBytes 4 (stored / 16))
      .ok (homeWrite s3 x o 0x18 (leBytes 8 (stored + p.length)))

/-- Write tile `i` of an object for Convoy (R186, R209): into the upper copy, which becomes DIRTY, or the home. The answer
carries the object's new entry, or the reason for which the access fails (R579, R667, R754). -/
def objTileWrite (s : State) (x : Ctx) (o : Obj) (i : Nat) (fresh : Bool) (strip tile : Bytes) :
    Except Reason (State × Obj) :=
  match tierFault s (match o.upper with
    | some u => u.tier
    | none => o.homeTier) with
  | some r => .error r
  | none => match o.upper with
    | some u => .ok (upperWrite s x u i tile, { o with dirty := true })
    | none =>
      if o.coding = 0 then .ok (homeWrite s x o (i * 4096) tile, o)
      else (codedWrite s x o i fresh strip tile).map (fun a => (a, o))

/-- Write a DIRTY upper copy back to its home (R198), tile by tile; `n` tiles remain. A tile that fails ends it, and the tiles
already stored stand (R226). -/
def writeBackTiles (s : State) (x : Ctx) (o : Obj) (u : Upper) : Nat → Nat → State × Option Reason
  | 0, _ => (s, none)
  | n + 1, i =>
    match upperRead s x u i with
    | .error r => (s, some r)
    | .ok b =>
      match objTileWrite s x { o with upper := none } i (i == 0) [] b with
      | .error r => (s, some r)
      | .ok (s1, _) => writeBackTiles s1 x o u n (i + 1)

/-- The bytes stored at an object's home (R537): the tiles of an uncoded object, or the stored-size bound of a
coded one. -/
def storedBytes (o : Obj) : Nat := if o.coding = 0 then (o.tilesM1 + 1) * 4096 else (o.storedM1 + 1) * 4096

/-- The stored length of tile `i` at an object's home (R397): its payload, when the object is coded. -/
def homeTileLen (s : State) (x : Ctx) (o : Obj) (i : Nat) : Nat :=
  if o.coding = 0 then 4096
  else match homeRead s x o (64 + 4 * i) 4 with
    | .error _ => 0
    | .ok ib => match homeRead s x o (leNat ib * 16) 4 with
      | .error _ => 0
      | .ok h => if leNat ib = 0 then 0 else leNat h / 65536

/-- The stored length of all tiles of an object, which a transfer of the whole object moves (R397). -/
def homeLen (s : State) (x : Ctx) (o : Obj) : Nat :=
  ((List.range (o.tilesM1 + 1)).map (homeTileLen s x o)).sum

/-- Count bytes in BYTES[src][dst] (R396, R397). -/
def countBytes (s : State) (c src dst n : Nat) : State :=
  countAct s c (fun a =>
    let k := 4 * (src - 1) + (dst - 1)
    { a with bytes := tset a.bytes k (tget a.bytes 0 k + n) })

/-- Write back an object's upper copy when it is DIRTY (R198, R397); the answer tells why it failed, if it did (R226). -/
def writeBack (s : State) (c : Nat) (x : Ctx) (o : Obj) : State × Option Reason :=
  match o.upper with
  | some u =>
    if o.dirty then
      match writeBackTiles s x o u (o.tilesM1 + 1) 0 with
      | (s1, none) => (countBytes s1 c u.tier o.homeTier (homeLen s1 x o), none)
      | r => r
    else (s, none)
  | none => (s, none)

/-- An integrity failure counts, and reports SEC_INTEGRITY_FAIL once per context in a second (R652). -/
def integrityFail (s : State) (c tier granule : Nat) (r : Reason) : State :=
  if r = .secIntegrity ∨ r = .secReplay then
    let sec := s.sec
    let s1 := { s with sec := { sec with
      integrity := if r = .secIntegrity then min (sec.integrity + 1) (2 ^ 32 - 1) else sec.integrity,
      replay := if r = .secReplay then min (sec.replay + 1) (2 ^ 32 - 1) else sec.replay,
      reported := insertNum c sec.reported } }
    if sec.reported.contains c then s1
    else emit s1 (some c) .ok .secIntegrityFail (leBytes 2 c ++ leBytes 1 tier ++ leBytes 8 granule)
  else s

end Sys2Proof.Machine
end

