-- ==== Sys2Proof/Machine/Windows.lean ====
section
/-!
DEFINITION. Windows (04): the entry a name selects, opening, the check of a write at its home, landing and counting, waiting
and closing; and the slot table of the Shared partition (10), to which a satisfied wait may return a context.
-/

namespace Sys2Proof.Machine

/-! ## Names and entries (R155, R156) -/

/-- The loaded image in a context's slot. -/
def imageOf (s : State) (c slot : Nat) : Option Image :=
  (tget? s.ctxs c).bind (fun x => tget? x.images slot)

/-- The key of a window entry, from its home number and its entry number. -/
def winKey (home entry : Nat) : Nat := home * 256 + entry

/-- The entry number that a space, an image slot and an index name (R155). -/
def entryOf (s : State) (c slot space win : Nat) : Option Nat :=
  (imageOf s c slot).bind (fun im => (tget im.wins [] space)[win]?)

/-- The key of the entry that a name selects. -/
def keyOf (s : State) (c slot space win : Nat) : Option Nat :=
  (entryOf s c slot space win).map (winKey (homeOf s space))

/-- A window entry. -/
def winAt (s : State) (k : Nat) : Win := tget s.wins {} k

/-- Set a window entry. -/
def setWin (s : State) (k : Nat) (w : Win) : State := { s with wins := tset s.wins k w }

/-- The bit of WIN_WRITERS that stands for a writer (R156). -/
def writerBit : Writer → Nat
  | .core n => n
  | .host => 8
  | .isp => 9
  | .audio => 10
  | .remote d => 24 + d

/-- R162: a wait is satisfied when (ARRIVALS − THRESHOLD) mod 2³² is less than 2³¹. -/
def waitSatisfied (w : Win) : Bool := decide ((w.arrivals + 2 ^ 32 - w.threshold % 2 ^ 32) % 2 ^ 32 < 2 ^ 31)

/-! ## Opening (R158) -/

/-- The devices of the set, as a mask over set indices: none when the device stands alone (R708). -/
def setMembers (s : State) : Nat := if pageOn s 0x0023_0400 then live s 0x0023_0410 % 256 else 0

/-- The first failed check of a WIN_OPEN, in the order index, state, alignment, bounds, overlap, writers
(assumption log, entry 9); `base` and `limit` count rows of the share (R541). -/
def winOpenCheck (s : State) (c slot space win base limit writers : Nat) : Option (Status × Reason) :=
  match imageOf s c slot, keyOf s c slot space win with
  | some im, some k =>
    match tget? im.shares space with
    | none => some (.refused, .winBounds)
    | some (first, len) =>
      if winAt s k |>.state |> (· ≠ .closed) then some (.refused, .winState)
      else if limit ≤ base then some (.refused, .winAlign)
      else if len < limit then some (.refused, .winBounds)
      else if s.wins.any (fun e => decide (e.1 / 256 = k / 256) && decide (e.2.state ≠ .closed) &&
          decide (e.2.base < first + limit) && decide (first + base < e.2.limit)) then some (.refused, .winOverlap)
      else if (writers % 256) &&& (255 - (tget s.ctxs {} c).cores) ≠ 0 ∨
          (writers / 2 ^ 24) &&& (255 - setMembers s) ≠ 0 then some (.refused, .winWriters)
      else none
  | _, _ => some (.noQuota, .winIndex)

/-- The bits of WIN_WRITERS that a write can set (R156): the others are reserved and read as zero (R13). -/
def writersMask : Nat := 0xFF0007FF

/-- Open an entry (R158): EPOCH increments modulo 256, the counts become zero; no row is read or cleared (R159). -/
def winOpen (s : State) (c slot space win base limit writers threshold : Nat) : State :=
  match imageOf s c slot, keyOf s c slot space win with
  | some im, some k =>
    let first := (tget im.shares (0, 0) space).1
    let w := winAt s k
    setWin s k { w with
      state := .opened, slot := slot, ctx := c, epoch := (w.epoch + 1) % 256, base := first + base,
      limit := first + limit, writers := writers &&& writersMask, arrivals := 0, threshold := threshold, discards := 0,
      rejects := 0 }
  | _, _ => s

/-- Change one stage of a context's job, found by its logical core and stage slot. -/
def modStage (s : State) (c core slot : Nat) (f : StageRun → StageRun) : State :=
  modCtx s c (fun x => { x with job := x.job.map (fun j => { j with
    stages := j.stages.map (fun r => if r.core = core ∧ r.slot = slot then f r else r) }) })

/-- The context whose job runs a stage on a logical core's stage slot: the one whose job holds its cores. -/
def stageCtx (s : State) (core slot : Nat) : Option Nat :=
  (s.ctxs.find? (fun e => match e.2.job with
    | some j => j.onCores && j.stages.any (fun r =>
        decide (r.core = core) && decide (r.slot = slot) && decide (r.st ≠ .ended))
    | none => false)).map Prod.fst

/-- The context and job whose stage runs, not waiting or stopped, on a logical core's stage slot. -/
def stageRunning (s : State) (core slot : Nat) : Option (Nat × Job) :=
  match stageCtx s core slot with
  | none => none
  | some c => match (tget? s.ctxs c).bind Ctx.job with
    | none => none
    | some j =>
      if j.stages.any (fun r => r.core == core && r.slot == slot && r.st == .running) && j.ended.isNone
      then some (c, j) else none

/-- Answer an opening or a close: the reply of the host's command, or what the stage program reads, in which `value` is the
EPOCH or the ARRIVALS (R158, R540). -/
def winAnswer (s : State) (who : WinBy) (slot op : Nat) (st : Status) (rs : Reason) (value : Nat) (body : Bytes) : State :=
  match who with
  | .host rq => replyC s rq op st rs body
  | .stage core => match stageCtx s core slot with
    | none => s
    | some c => modStage s c core slot (fun r => { r with answer := some (st, rs, value) })

/-- Run an opening or a close for the context and image slot of whoever asks (R158): the host's named slot, or the image whose
job the stage program runs in. -/
def onWindows (s : State) (who : WinBy) (slot op : Nat) (k : Nat → Nat → State) : State :=
  match who with
  | .host rq => onCtx s rq op (fun _ => k rq.ctx slot)
  | .stage core => match stageRunning s core slot with
    | none => s
    | some (c, j) => k c j.run.slot

/-- WIN_OPEN from the host or a stage program (R158, R541). A space on a fenced core is refused (R685). -/
def execWinOpen (who : WinBy) (space win slot base limit writers threshold : Nat) (s : State) : Out :=
  .next (onWindows s who slot 0x0160 (fun c im =>
    if s.fenced.contains space then winAnswer s who slot 0x0160 .refused .relCoreOut 0 []
    else match winOpenCheck s c im space win base limit writers with
      | some (st, rs) => winAnswer s who slot 0x0160 st rs 0 []
      | none =>
        let s1 := winOpen s c im space win base limit writers threshold
        let e := ((keyOf s c im space win).map (fun k => (winAt s1 k).epoch)).getD 0
        winAnswer s1 who slot 0x0160 .ok .none e (leBytes 1 e ++ zeros 3)))

/-! ## The check at the home (R166 to R168) -/

/-- The fate of a header at its home. -/
inductive WriteFate where
  | accepted | denied | closed | range
  /-- the image slot or index names no entry (R175) -/
  | noEntry
  /-- the header waits: for room at its home (R168), for its home's power (R238, R617), or behind an earlier one of its
  writer to its window (R165) -/
  | homeFull
deriving DecidableEq, Repr

/-- The home of a window whose entry stands at a home number and whose first row is `base` (R157, R168): the Deck's, or the
controller of the Span bank that holds the row. -/
def gateOf (home base : Nat) : Nat := if home = 9 then 16 + base / 8192 else home

/-- The accepted writes in progress at a home. -/
def inFlight (s : State) (gate : Nat) : Nat := (s.flights.filter (fun f => decide (gateOf f.2.home f.2.base = gate))).length

/-- The runs of bytes, as offset and length, in which `n` bytes of a write land: one, or the rows of a pitched one (R206). -/
def landRuns (off pitch row n : Nat) : List (Nat × Nat) :=
  if pitch = 0 ∨ row = 0 then [(off, n)] else (List.range (n / row)).map (fun i => (off + i * pitch, row))

/-- The Span banks that runs of bytes touch. -/
def runBanks (runs : List (Nat × Nat)) : List Nat :=
  (runs.flatMap (fun r => if r.2 = 0 then [] else
    (List.range ((r.1 + r.2 - 1) / 0x20_0000 + 1 - r.1 / 0x20_0000)).map (fun i => r.1 / 0x20_0000 + i))).dedup

/-- The Span banks in which a write to a window whose first row is `base` lands. -/
def landBanks (base off pitch row n : Nat) : List Nat := runBanks (landRuns (base * 256 + off) pitch row n)

/-- The bytes from the first landed byte of a write to its last (R208). -/
def hdrSpan (h : WinHdr) : Nat :=
  if h.pitch = 0 ∨ h.row = 0 then h.data.length else (h.data.length / h.row - 1) * h.pitch + h.row

/-- The fate of a header that reaches the check, by the order of R166: the writer, the state and the epoch, an earlier one
of which is discarded (R172), and the range of 1 byte to 4 KiB within the window (R161). A write from another device
meets it after transport (R173), and writes count whether or not the owner runs (R164, R387). -/
def writeFate (s : State) (h : WinHdr) (k : Nat) : WriteFate :=
  let w := winAt s k
  if !(bit w.writers (writerBit h.writer)) then .denied
  else if w.state ≠ .opened ∨ w.epoch ≠ h.epoch then .closed
  else if h.data.length = 0 ∨ 4096 < h.data.length ∨ (w.limit - w.base) * 256 < h.off + hdrSpan h then .range
  else if 4 ≤ inFlight s (gateOf (k / 256) w.base) then .homeFull
  else .accepted

/-- Check a header (R166): count the refusal or the discard, or take the write as the next one in progress.
A header that names no entry of the context is turned away with WIN_INDEX (R175). -/
def checkWrite (s : State) (h : WinHdr) (src : WriteFrom) : State × WriteFate :=
  match keyOf s h.ctx h.slot h.space h.win with
  | none => (s, .noEntry)
  | some k =>
    let w := winAt s k
    match writeFate s h k with
    | .denied => (setWin s k { w with rejects := min (w.rejects + 1) 0xFFFF }, .denied)
    | .closed => (setWin s k { w with discards := min (w.discards + 1) (2 ^ 32 - 1) }, .closed)
    | .range => (setWin s k { w with rejects := min (w.rejects + 1) 0xFFFF }, .range)
    | .accepted =>
      ({ s with
          flights := tset s.flights s.nextFlight
            { home := k / 256, entry := k % 256, base := w.base, off := h.off, data := h.data, pitch := h.pitch,
              row := h.row, writer := h.writer, src := src },
          nextFlight := s.nextFlight + 1 }, .accepted)
    | f => (s, f)

/-- The status and reason that a writer receives for a header that is not accepted (R166, R175). -/
def WriteFate.report : WriteFate → Status × Reason
  | .denied => (.refused, .winDenied)
  | .closed => (.windowClosed, .none)
  | .range => (.refused, .winRange)
  | .noEntry => (.noQuota, .winIndex)
  | _ => (.ok, .none)

/-- A write's home is powered: for a Deck, the core is up, its Deck island is (R617), or it is fenced
and discards the write (R683); for the Span, every bank that the write lands in is up (R237, R238). -/
def homeReady (s : State) (h : WinHdr) : Bool :=
  if h.space = 8 then
    match keyOf s h.ctx h.slot h.space h.win with
    | none => true
    | some k => (landBanks (winAt s k).base h.off h.pitch h.row h.data.length).all (fun b => bit s.pwr.up (16 + b))
  else bit s.pwr.up h.space || bit s.pwr.islands h.space || s.fenced.contains h.space

/-- An earlier header of the same writer to the same window waits (R165, R210, R238). -/
def behindEarlier (s : State) (h : WinHdr) : Bool :=
  s.waitHdrs.any (fun w => w.1.writer == h.writer &&
    (keyOf s w.1.ctx w.1.slot w.1.space w.1.win) == (keyOf s h.ctx h.slot h.space h.win))

/-- Present a header at its home. It waits while four writes are in progress there (R168), while its home is not powered
(R238, R617), and while an earlier one of its writer to its window waits (R165). -/
def offerWrite (s : State) (h : WinHdr) (src : WriteFrom) : State × WriteFate :=
  if !homeReady s h || behindEarlier s h then ({ s with waitHdrs := s.waitHdrs ++ [(h, src)] }, .homeFull)
  else match checkWrite s h src with
  | (s1, .homeFull) => ({ s1 with waitHdrs := s1.waitHdrs ++ [(h, src)] }, .homeFull)
  | r => r

/-- WIN_WRITE (R541): a window write with the writer identity HOST. Its reply leaves when the write has
counted, or at once when it is discarded or refused. -/
def execWinWrite (rq : Req) (space win epoch slot off : Nat) (data : Bytes) (s : State) : Out :=
  .next (onCtx s rq 0x0162 (fun _ =>
    if (entryOf s rq.ctx slot space win).isNone then replyC s rq 0x0162 .noQuota .winIndex []
    else
      let h : WinHdr :=
        { space := space, ctx := rq.ctx, slot := slot, win := win, epoch := epoch, off := off, data := data,
          writer := .host }
      match offerWrite s h (.host rq) with
      | (s1, .accepted) => s1
      | (s1, .homeFull) => s1
      | (s1, f) => replyC s1 rq 0x0162 f.report.1 f.report.2 []))

/-! ## The slot table (R375, R376) -/

/-- The contexts that the slot table holds: RESIDENT, Shared, with an image loaded. -/
def inTable (x : Ctx) : Bool := decide (x.st = .resident) && !x.sealed && !x.images.isEmpty

/-- Add a context to the first entry whose contexts' cores are disjoint from its own. -/
def addEntry (s : State) (c : Nat) (cores : Nat) : List (List Nat) → List (List Nat)
  | [] => [[c]]
  | e :: r => if e.all (fun d => decide ((tget s.ctxs {} d).cores &&& cores = 0)) then (e ++ [c]) :: r
              else e :: addEntry s c cores r

/-- The rebuilt table (R375): contexts in ascending ID. -/
def slotTable (s : State) : List (List Nat) :=
  (s.ctxs.filter (fun e => inTable e.2)).foldl (fun t e => addEntry s e.1 e.2.cores t) []

/-- Rebuild the table (R375). The turn stays with the first entry whose jobs hold their cores, and without one at the
same place in the table (assumption log, entry 86). -/
def rebuildTable (s : State) : State :=
  let t := slotTable s
  let held := t.findIdx? (fun e => e.any (fun c => match (tget s.ctxs {} c).job with
    | some j => j.onCores
    | none => false))
  { s with sched := { entries := t, turn := match held, s.sched.turn with
      | some i, _ => some i
      | none, some i => if i < t.length then some i else none
      | none, none => none } }

/-! ## The end of a wait (R162, R163, R389) -/

/-- The job of a context that resumes (R389): the order of the stall goes, a milder one that it had replaced stands again, and
without one the stages that had stopped while the job still holds its cores run on. -/
def resumeJob (j : Job) : Job :=
  if j.order = some .stall then
    { j with
      stalledOn := none, order := j.held, held := none,
      stages := if j.held.isNone ∧ j.onCores then j.stages.map (fun r => match r.st with
          | .stopped => { r with st := .running }
          | _ => r) else j.stages }
  else { j with stalledOn := none }

/-- The waiting stage of an entry resumes: its wait is satisfied or its window is CLOSED (R163). A STALLED
context whose timed-out wait this is returns to RESIDENT, with the event CTX_REMOTE_RESUMED (R389). -/
def wake (s : State) (k : Nat) : State :=
  let w := winAt s k
  match w.waiting with
  | none => s
  | some (core, slot) =>
    let s1 := setWin s k { w with waiting := none }
    let s2 := modStage s1 w.ctx core slot (fun r => match r.st with
      | .waiting _ _ => { r with st := .running }
      | _ => r)
    match tget? s.ctxs w.ctx with
    | some x =>
      if x.st = .stalled ∧ (x.job.bind (fun j => j.stalledOn)) = some (core, slot) then
        emit (rebuildTable (modCtx s2 w.ctx (fun y => { y with st := .resident, job := y.job.map resumeJob })))
          (some w.ctx) .ok .ctxRemoteResumed []
      else s2
    | none => s2

/-- The watch slots that watch an entry (R705). -/
def watchers (s : State) (k : Nat) : List Nat :=
  (List.range 8).filter (fun w =>
    let r := live s (0x0026_0040 + 4 * w)
    bit r 31 && homeOf s (bits r 27 24) == k / 256 && r % 256 == k % 256)

/-- The wait of a stage on a watched window is satisfied (R702): its length is an amount the spec does not fix. -/
def watchSample (s : State) (k : Nat) : State :=
  if (winAt s k).waiting.isSome then
    draw ((watchers s k).foldl (fun a w => monSample a 3 w (Config.freeAmount s.draws 12)) s)
  else s

/-- Land the rows of a pitched write (R206): `fuel` bounds their number. -/
def landRows (pitch row : Nat) : Nat → Ram → Nat → Bytes → Ram
  | 0, r, _, _ => r
  | _ + 1, r, _, [] => r
  | fuel + 1, r, a, bs => landRows pitch row fuel (r.write a (bs.take row)) (a + pitch) (bs.drop row)

/-- Land a write's bytes at its first address. -/
def landBytes (r : Ram) (a pitch row : Nat) (bs : Bytes) : Ram :=
  if pitch = 0 ∨ row = 0 then r.write a bs else landRows pitch row (bs.length / row + 1) r a bs

/-- A landed write counts in ARRIVALS (R160): every one but the embedded data and statistics of a frame record's slot, of which
the record alone makes the frame's one arrival (R432; DEDUCED, entry 110). -/
def countsArrival (f : Flight) : Bool :=
  match f.src with
  | .isp _ _ _ o => decide (o ≠ 4)
  | _ => true

/-- The last byte of an accepted write lands and ARRIVALS increments (R160); a wait it satisfies resumes
(R162, R163). -/
def landFlight (s : State) (id : Nat) (f : Flight) : State :=
  let k := winKey f.home f.entry
  let w := winAt s k
  let s1 := setRam s f.home (landBytes (ramOf s f.home) (f.base * 256 + f.off) f.pitch f.row f.data)
  let w1 := if countsArrival f then { w with arrivals := (w.arrivals + 1) % 2 ^ 32 } else w
  let s2 := setWin { s1 with flights := terase s1.flights id } k w1
  if waitSatisfied w1 then wake (watchSample s2 k) k else s2

/-! ## Closing (R169 to R171) -/

/-- The close point of an open entry: STATE becomes CLOSING (R169). -/
def closePoint (s : State) (k : Nat) : State :=
  let w := winAt s k
  if w.state = .opened then setWin s k { w with state := .closing } else s

/-- The accepted writes of an entry that have not landed. -/
def entryFlights (s : State) (k : Nat) : Nat :=
  (s.flights.filter (fun f => decide (winKey f.2.home f.2.entry = k))).length

/-- The reply of WIN_CLOSE: ARRIVALS and DISCARDS at completion (R540). -/
def closeBody (w : Win) : Bytes := leBytes 4 w.arrivals ++ leBytes 4 w.discards

/-- A CLOSING entry with nothing in progress becomes CLOSED, its waiting stage is released and its closers
are answered (R170, R171). -/
def closeDone (s : State) (k : Nat) : State :=
  let w := winAt s k
  if w.state = .closing ∧ entryFlights s k = 0 then
    let s1 := wake (setWin s k { w with state := .closed, closers := [] }) k
    w.closers.foldl (fun a q => winAnswer a q.1 q.2 0x0161 .ok .none w.arrivals (closeBody w)) s1
  else s

/-- Close an entry: the close point, and completion at once when nothing is in progress. -/
def closeEntry (s : State) (k : Nat) : State := closeDone (closePoint s k) k

/-- WIN_CLOSE from the host or the owner's stage program (R169 to R171): an OPEN window becomes CLOSING; the answer leaves at
completion, or at once for a CLOSED window. -/
def execWinClose (who : WinBy) (space win slot : Nat) (s : State) : Out :=
  .next (onWindows s who slot 0x0161 (fun c im =>
    match keyOf s c im space win with
    | none => winAnswer s who slot 0x0161 .noQuota .winIndex 0 []
    | some k =>
      let w := winAt s k
      match w.state with
      | .closed => winAnswer s who slot 0x0161 .ok .none w.arrivals (closeBody w)
      | _ => setWin s k { w with state := .closing, closers := w.closers ++ [(who, slot)] }))

end Sys2Proof.Machine
end

