-- ==== Sys2Proof/Machine/Objects.lean ====
section
/-!
DEFINITION. Objects (05): charges and quotas, placement, eviction, and the object commands.
-/

namespace Sys2Proof.Machine

/-! ## Charges (R192, R285, R353, R391) -/

/-- The page-table entries of a sequence: lists × blocks (R280, R282). -/
def ptesPerList (g : KvGeom) : Nat := g.maxTokens / 64

/-- The granules that a sequence's page table is charged (R285). -/
def seqGranules (g : KvGeom) : Nat := ceilDiv (64 + 8 * (g.layers * 2 * g.slices * ptesPerList g)) 4096

/-- The rows an upper copy is charged: its expanded size rounded up to 64 KiB (R192). -/
def upperRows (o : Obj) : Nat := roundUp ((o.tilesM1 + 1) * 16) 256

/-- The granules an upper copy in T3 is charged. -/
def upperGranules (o : Obj) : Nat := roundUp (o.tilesM1 + 1) 16

/-- The upper copies of a context in a tier, with their objects. -/
def uppersIn (x : Ctx) (tier : Nat) : List (Nat × Obj × Upper) :=
  x.objs.filterMap (fun e => match e.2.upper with
    | some u => if u.tier = tier then some (e.1, e.2, u) else none
    | none => none)

/-- The rows of Deck share that a context holds on a logical core, and those its upper copies are charged. -/
def chargeT1 (x : Ctx) (core : Nat) : Nat :=
  ((x.images.map (fun e => (tget e.2.shares (0, 0) core).2)).sum) +
  (((uppersIn x 1).filter (fun e => decide (e.2.2.core = core))).map (fun e => upperRows e.2.1)).sum

/-- The rows of Span share that a context holds, and those its upper copies are charged. -/
def chargeT2 (x : Ctx) : Nat :=
  ((x.images.map (fun e => (tget e.2.shares (0, 0) 8).2)).sum) +
  ((uppersIn x 2).map (fun e => upperRows e.2.1)).sum

/-- The granules that a context is charged in T3: homes, upper copies, zero-fills in progress, page tables,
image tables and the park area. -/
def chargeT3 (x : Ctx) : Nat :=
  ((x.objs.filter (fun e => decide (e.2.homeTier = 3))).map (fun e => e.2.storedM1 + 1)).sum +
  ((uppersIn x 3).map (fun e => upperGranules e.2.1)).sum +
  ((x.fills.filter (fun e => decide (e.2.tier = 3))).map (fun e => e.2.count)).sum +
  ((x.seqs.map (fun e => seqGranules e.2.geom)).sum) +
  ((x.images.map (fun e => e.2.tableGranules)).sum) + x.parked.granules

/-- The granules that a context is charged in T4. -/
def chargeT4 (x : Ctx) : Nat :=
  ((x.objs.filter (fun e => decide (e.2.homeTier = 4))).map (fun e => e.2.storedM1 + 1)).sum +
  ((x.fills.filter (fun e => decide (e.2.tier = 4))).map (fun e => e.2.count)).sum

/-- The quota of a tier, on a logical core for T1 (R191). -/
def quotaOf (x : Ctx) (tier core : Nat) : Nat :=
  match tier with
  | 1 => x.quotas.t1.getD core 0
  | 2 => x.quotas.t2
  | 3 => x.quotas.t3
  | _ => x.quotas.t4

/-- The charge against a tier's quota. -/
def chargeOf (x : Ctx) (tier core : Nat) : Nat :=
  match tier with
  | 1 => chargeT1 x core
  | 2 => chargeT2 x
  | 3 => chargeT3 x
  | _ => chargeT4 x

/-- Whether `n` more rows or granules fit a context's quota. -/
def fits (x : Ctx) (tier core n : Nat) : Bool := decide (chargeOf x tier core + n ≤ quotaOf x tier core)

/-! ## Capacity and placement -/

/-- The granules that a tier offers to contexts (R194, R195, R753). -/
def capacityOf (s : State) (tier : Nat) : Nat := if tier = 4 then s.pcie.granules else s.ddr.poolMib * 256

/-- The granule runs of a tier that a context uses. -/
def runsOf (x : Ctx) (tier : Nat) : List (Nat × Nat) :=
  (x.objs.filter (fun e => decide (e.2.homeTier = tier))).map (fun e => (e.2.home, e.2.storedM1 + 1)) ++
  (x.fills.filter (fun e => decide (e.2.tier = tier))).map (fun e => (e.2.first, e.2.count)) ++
  (if tier = 3 then (uppersIn x 3).map (fun e => (e.2.2.loc, upperGranules e.2.1)) else [])

/-- The granule runs of a tier that are in use. -/
def usedRuns (s : State) (tier : Nat) : List (Nat × Nat) := s.ctxs.flatMap (fun c => runsOf c.2 tier)

/-- The lowest of some starts from which a run of `n` below `cap` is free among runs in use, that `ok` accepts. -/
def firstFitFrom (starts : List Nat) (used : List (Nat × Nat)) (cap n : Nat) (ok : Nat → Bool) : Option Nat :=
  let free := starts.filter (fun a => decide (a + n ≤ cap) && ok a &&
    used.all (fun u => decide (a + n ≤ u.1) || decide (u.1 + u.2 ≤ a)))
  free.foldl (fun (b : Option Nat) a => match b with
    | some m => some (min m a)
    | none => some a) none

/-- The lowest start of a free run of `n` below `cap` among runs in use, that `ok` accepts. -/
def firstFit (used : List (Nat × Nat)) (cap n : Nat) (ok : Nat → Bool) : Option Nat :=
  firstFitFrom (0 :: used.map (fun u => u.1 + u.2)) used cap n ok

/-- The 64 MiB regions that a run of granules touches (R653, R655). -/
def regionsOf (first n : Nat) : List Nat :=
  (List.range ((first + n - 1) / 16384 + 1 - first / 16384)).map (fun i => first / 16384 + i)

/-- A SEALED run may use regions that serve no SEALED object of another context (R655). -/
def regionsFree (s : State) (c first n : Nat) : Bool :=
  (regionsOf first n).all (fun r => match tget? s.sealedRegions r with
    | some d => d == c
    | none => true)

/-- The SEALED regions a run would add. -/
def newRegions (s : State) (first n : Nat) : Nat :=
  ((regionsOf first n).filter (fun r => (tget? s.sealedRegions r).isNone)).length

/-- A context is Sealed. -/
def isSealed (s : State) (c : Nat) : Bool := ((tget? s.ctxs c).map Ctx.sealed).getD false

/-- The regions of T3 that hold storage of another party (R586): the Shared contexts are one party, each Sealed one its
own. -/
def rivalRegions (s : State) (c : Nat) : List Nat :=
  (s.ctxs.filter (fun e => !(e.1 == c) && (isSealed s c || e.2.sealed))).flatMap (fun e =>
    (runsOf e.2 3).flatMap (fun u => regionsOf u.1 u.2))

/-- The first granule of T4 on the drive: the blocks below it are the DEEP save area, 8 GiB (R621, R753; DEDUCED,
entry 131). -/
def t4First : Nat := 2 ^ 21

/-- Where a home of `n` granules goes in T3 or T4: in T3 in regions of the context's own party (R586), in T4 above the save area
(R621). -/
def placeHome (s : State) (c tier n : Nat) (sealed : Bool) : Option Nat :=
  let used := usedRuns s tier
  let ends := used.map (fun u => u.1 + u.2)
  if tier = 3 then
    let rivals := rivalRegions s c
    firstFitFrom (0 :: ends ++ ends.map (fun e => roundUp e 16384)) used (capacityOf s 3) n (fun a =>
      (!sealed || regionsFree s c a n) && (regionsOf a n).all (fun r => !rivals.contains r))
  else firstFitFrom (t4First :: ends) used (t4First + capacityOf s tier) n (fun a => decide (t4First ≤ a))

/-- The rows of a context's shares in a space that hold program rows, homes or upper copies. -/
def usedRows (x : Ctx) (space : Nat) : List (Nat × Nat) :=
  x.images.filterMap (fun e => (tget? e.2.shares space).map (fun sh => (sh.1, tget e.2.progRows 0 space))) ++
  (x.objs.filter (fun e => if space = 8 then decide (e.2.homeTier = 2)
      else decide (e.2.homeTier = 1) && decide (e.2.homeCore = space))).map (fun e => (e.2.home, (e.2.tilesM1 + 1) * 16)) ++
  (if space = 8 then (uppersIn x 2).map (fun e => (e.2.2.loc, upperRows e.2.1))
   else ((uppersIn x 1).filter (fun e => decide (e.2.2.core = space))).map (fun e => (e.2.2.loc, upperRows e.2.1)))

/-- Where an upper copy of `n` rows goes: within one share of the context in the space (assumption log,
entry 10). -/
def placeUpper (x : Ctx) (space n : Nat) : Option Nat :=
  let runs := x.images.filterMap (fun e => (tget? e.2.shares space).bind (fun sh =>
    let used := (usedRows x space).filterMap (fun u =>
      if sh.1 ≤ u.1 ∧ u.1 < sh.1 + sh.2 then some (u.1 - sh.1, u.2) else none)
    (firstFit used sh.2 n (fun _ => true)).map (sh.1 + ·)))
  runs.head?

/-! ## Convoy tags and freeing (R199, R231) -/

/-- Whether a queue entry names a handle: an object source or an object destination (R204). -/
def cvNames (e : CvEntry) (h : Nat) : Bool :=
  match e.body with
  | none => false
  | some b =>
    (field b 4 4 / 2 ^ 30 == 0 && field b 4 2 == h && !(bits (field b 0 4) 27 24 == 1)) ||
    (field b 0xC 4 / 2 ^ 30 == 0 && field b 0xC 2 == h)

/-- The Convoy entries of a context, over every core, queue and save area. -/
def ctxEntries (s : State) (c : Nat) : List CvEntry :=
  (s.cores.flatMap (fun k => k.2.convoy.flatMap (fun q => q.2) ++
    k.2.saved.flatMap (fun v => v.2.flatMap (fun q => q.2)))).filter (fun e => e.ctx == c)

/-- A Convoy tag is held for an object of a context. -/
def tagsHeld (s : State) (c h : Nat) : Bool :=
  (ctxEntries s c).any (fun e => cvNames e h && decide (e.landed < e.issued))

/-- A walk whose descriptor has not completed names the page (R295). -/
def walkHeld (s : State) (c h : Nat) : Bool :=
  (ctxEntries s c).any (fun e => match e.purpose with
    | .walk _ _ g _ => g == h
    | _ => false)

/-- A loaded image names the object (R231, R357). -/
def imageNames (x : Ctx) (h : Nat) : Bool :=
  x.images.any (fun e => e.2.bound.contains h || e.2.allocated.contains h)

/-- The stream whose state object a handle is. -/
def streamOf (x : Ctx) (h : Nat) : Option (Nat × Stream) :=
  x.streams.find? (fun e => decide (e.2.state ≠ .free) && e.2.handle == h)

/-- Invalidate a handle: a home in T3 or T4 gets a zero-fill in progress, a home in T1 or T2 needs none
(R232, R807). -/
def freeObj (x : Ctx) (h : Nat) (o : Obj) : Ctx :=
  let y := { x with objs := terase x.objs h }
  if o.homeTier = 3 ∨ o.homeTier = 4 then
    let z : ZeroFill :=
      { tier := o.homeTier, first := o.home, count := o.storedM1 + 1, sealed := o.sealed, regions := o.regions }
    { y with fills := tset y.fills h z }
  else y

/-- Complete a zero-fill (R233, R234): raw zeros over the granules and tags, the charge returned, the handle
free; a SEALED region that serves no object any more is given back. -/
def finishFill (s : State) (c h : Nat) : State :=
  match tget? s.ctxs c with
  | none => s
  | some x => match tget? x.fills h with
    | none => s
    | some z =>
      let s1 := countBytes (extErase s z.tier z.first z.count z.sealed) c z.tier z.tier (z.count * 4096)
      let still := fun (r : Nat) => x.objs.any (fun e => e.2.regions.contains r) ||
        x.fills.any (fun e => e.1 != h && e.2.regions.contains r)
      let s2 := { s1 with sealedRegions := s1.sealedRegions.filter (fun r => !(z.regions.contains r.1) || still r.1) }
      modCtx s2 c (fun y => { y with fills := terase y.fills h })

/-! ## Eviction within a context (R197 to R200, R295, R296) -/

/-- The age of an object: (counter − USE_SEQ) mod 2³² (R190). -/
def ageOf (x : Ctx) (o : Obj) : Nat := (x.useCtr + 2 ^ 32 - o.useSeq) % 2 ^ 32

/-- The oldest of a list of candidates, the lowest handle on a tie. -/
def oldest (x : Ctx) (l : List (Nat × Obj)) : Option (Nat × Obj) :=
  l.foldl (fun (b : Option (Nat × Obj)) e => match b with
    | none => some e
    | some m => if ageOf x m.2 < ageOf x e.2 then some e else some m) none

/-- A chunk of the stream whose state a handle is runs or waits (R325). -/
def chunkHeld (s : State) (c : Nat) (x : Ctx) (h : Nat) : Bool :=
  match streamOf x h with
  | some (i, _) => s.cores.any (fun k => k.2.chunks.any (fun q => q.ctx == c && q.index == i))
  | none => false

/-- The running stage of an image names the object (R199): a stage of the context's job has not ended, and the job's
image names the object (assumption log, entry 85). -/
def stageNames (x : Ctx) (h : Nat) : Bool :=
  match x.job with
  | some j => j.stages.any (fun r => r.st != .ended) && (match tget? x.images j.run.slot with
      | some im => im.bound.contains h || im.allocated.contains h
      | none => false)
  | none => false

/-- Upper copies that may be evicted from a tier (R197, R199, R325). -/
def upperCandidates (s : State) (c : Nat) (x : Ctx) (tier core : Nat) : List (Nat × Obj) :=
  x.objs.filter (fun e => match e.2.upper with
    | some u => decide (u.tier = tier) && (decide (tier ≠ 1) || decide (u.core = core)) && e.2.evictable &&
        !e.2.pinned && !tagsHeld s c e.1 && !stageNames x e.1 && !chunkHeld s c x e.1
    | none => false)

/-- KV pages that may be dropped (R295, R199): reference count 1, KEEP 0, no walk outstanding, no tag held, and not named by
the running stage. -/
def pageCandidates (s : State) (c : Nat) (x : Ctx) : List (Nat × Obj) :=
  x.objs.filter (fun e => decide (e.2.kind = 2) && decide (e.2.homeTier = 3) && (tget x.refs 0 e.1 == 1) &&
    !walkHeld s c e.1 && !tagsHeld s c e.1 && !stageNames x e.1 &&
    x.seqs.any (fun q => q.2.ptes.any (fun p => p.2.page == some e.1 && !p.2.keep)))

/-- Write back an object's upper copy; a stream's HOME_STEP takes the NEXT_STEP of the state written (R335), and an anchor
write-back before it is overtaken. The answer tells why it failed, if it did. -/
def saveUpper (s : State) (c h : Nat) (x : Ctx) (o : Obj) : State × Option Reason :=
  match writeBack s c x o with
  | (s1, none) => (modCtx s1 c (fun y => { y with
      streams := match streamOf y h with
        | some (i, _) =>
          if o.dirty then tmod y.streams i (fun t => { t with homeStep := t.nextStep, anchor := none }) else y.streams
        | none => y.streams }), none)
  | r => r

/-- Release an upper copy, written back when DIRTY (R187, R198). A copy whose write-back fails stays. -/
def releaseUpper (s : State) (c h : Nat) (o : Obj) : State × Option Reason :=
  match tget? s.ctxs c with
  | none => (s, none)
  | some x => match saveUpper s c h x o with
    | (s1, none) =>
      (modCtx s1 c (fun y => { y with objs := tset y.objs h { o with upper := none, dirty := false } }), none)
    | r => r

/-- Evict an upper copy (R197, R198), which the account counts (R396). -/
def evictUpper (s : State) (c h : Nat) (o : Obj) : State × Option Reason :=
  match releaseUpper s c h o with
  | (s1, none) => (modAcct s1 c (fun a => { a with evictions := a.evictions + 1 }), none)
  | r => r

/-- No page-table entry names a page any more: each that did becomes DROPPED and keeps FILL, and the count goes (R284, R296). -/
def dropPtes (x : Ctx) (h : Nat) : Ctx :=
  { x with
    seqs := x.seqs.map (fun q => (q.1, { q.2 with ptes := q.2.ptes.map (fun p =>
      if p.2.page = some h then (p.1, { p.2 with page := none, dropped := true }) else p) })),
    refs := terase x.refs h }

/-- Drop a KV page (R296): its entry becomes DROPPED and keeps FILL and the page is freed; the drop counts (R297). -/
def unmapPage (s : State) (c h : Nat) (o : Obj) : State :=
  modCtx s c (fun y =>
    let z := dropPtes (freeObj y h o) h
    { z with acct := { z.acct with kvDrops := z.acct.kvDrops + 1 } })

/-- Drop a KV page for room: the operation that needs it goes on once the zero-fill has returned the charge, so the
fill completes here. -/
def dropPage (s : State) (c h : Nat) (o : Obj) : State := finishFill (unmapPage s c h o) c h

/-- Free room in one of a context's quotas until `n` more fit (R197); a copy that cannot be written back stays and another
candidate is taken, so `stuck` lists the handles passed over. `fuel` bounds the candidates. -/
def evict (s : State) (c tier core n : Nat) (stuck : List Nat) : Nat → State
  | 0 => s
  | fuel + 1 =>
    match tget? s.ctxs c with
    | none => s
    | some x =>
      if fits x tier core n then s
      else match oldest x ((upperCandidates s c x tier core).filter (fun e => !stuck.contains e.1)) with
        | some (h, o) => match evictUpper s c h o with
          | (s1, none) => evict s1 c tier core n stuck fuel
          | (s1, some _) => evict s1 c tier core n (h :: stuck) fuel
        | none =>
          if tier = 3 then
            match oldest x (pageCandidates s c x) with
            | some (h, o) => evict (dropPage s c h o) c tier core n stuck fuel
            | none => s
          else s

/-- Make room for `n` more rows or granules: the state after any evictions, which stand (R200), and whether it
fits. -/
def makeRoom (s : State) (c tier core n : Nat) : State × Bool :=
  match tget? s.ctxs c with
  | none => (s, false)
  | some x =>
    let s1 := evict s c tier core n [] (x.objs.length + 1)
    (s1, match tget? s1.ctxs c with
      | some y => fits y tier core n
      | none => false)

/-! ## OBJ_ALLOC (R187, R806) -/

/-- The lowest free number below a bound, by search from `k`. -/
def firstFree (used : Nat → Bool) : Nat → Nat → Option Nat
  | 0, _ => none
  | fuel + 1, k => if used k then firstFree used fuel (k + 1) else some k

/-- The lowest handle that is neither valid nor awaiting its zero-fill (R234). -/
def freeHandle (x : Ctx) : Option Nat :=
  firstFree (fun h => (tget? x.objs h).isSome || (tget? x.fills h).isSome) 65536 0

/-- The tile formats a coding takes (R217, R221). -/
def codingTakes (coding fmt : Nat) : Bool :=
  match coding with
  | 0 => true
  | 1 => decide (fmt ≤ 3)
  | 2 => decide (fmt = 1 ∨ fmt = 2 ∨ fmt = 3 ∨ fmt = 4 ∨ fmt = 5 ∨ fmt = 7)
  | _ => false

/-- The largest stored size, in granules, that a coded object may bound (OBJ_SIZE of R239). -/
def maxStored (coding fmt tiles : Nat) : Nat :=
  ceilDiv (streamBase tiles + tiles * roundUp (4 + (if coding = 1 then 64 * codesPerRow fmt else 0) + 4096) 16) 4096

/-- The object that an OBJ_ALLOC's flags describe (R183, R536); its home is not yet placed. A request with ENCRYPTED 0 for a
home in T3 or T4 keeps the bit as asked, and storage there is keyed and tagged all the same (DESIGN CHOICE, entry 115). -/
def objOfFlags (flags tilesM1 storedM1 : Nat) : Obj :=
  let coding := bits flags 25 24
  { sealed := bit flags 30, encrypted := bit flags 29, evictable := bit flags 28, kind := bits flags 27 26,
    coding := coding, homeTier := bits flags 23 21, pinned := bit flags 16, nofill := bit flags 15,
    fmt := bits flags 14 12, tilesM1 := tilesM1, storedM1 := if coding = 0 then tilesM1 else storedM1 }

/-- The share a home in T1 or T2 lies in (R807): the first row of the share and its length. -/
def homeShare (x : Ctx) (o : Obj) (loc : Nat) : Option (Nat × Nat) :=
  (tget? x.images (bits loc 25 24)).bind (fun im =>
    tget? im.shares (if o.homeTier = 2 then 8 else bits loc 31 29))

/-- A home in T1 or T2 that no one share holds (R807). -/
def outsideShare (x : Ctx) (o : Obj) (loc : Nat) : Bool :=
  match homeShare x o loc with
  | some (_, len) => decide (len < bits loc 23 0 + (o.tilesM1 + 1) * 16)
  | none => true

/-- Checks 1 to 5 of R806: those that need no eviction. -/
def allocCheck (s : State) (x : Ctx) (o : Obj) (loc : Nat) : Option (Status × Reason) :=
  if o.coding = 3 ∨ o.homeTier = 0 ∨ 4 < o.homeTier ∨ !(codingTakes o.coding o.fmt) then some (.refused, .objParam)
  else if 2 ^ 24 ≤ o.tilesM1 ∨ 2 ^ 24 ≤ o.storedM1 ∨
      (o.coding ≠ 0 ∧ maxStored o.coding o.fmt (o.tilesM1 + 1) < o.storedM1 + 1) then some (.refused, .objSize)
  else if (o.homeTier = 4 ∧ !s.pcie.ready) ∨ (o.homeTier ≤ 2 ∧ o.coding ≠ 0) ∨
      (o.homeTier ≤ 2 ∧ outsideShare x o loc) then some (.refused, .objTier)
  else if o.sealed ∧ o.homeTier ≠ 3 then some (.refused, .secSealedTier)
  else if (freeHandle x).isNone then some (.noQuota, .objTableFull)
  else none

/-- A SEALED allocation of `n` granules would need a 65th region (R655). -/
def sealedFull (s : State) (c n : Nat) : Bool :=
  match placeHome s c 3 n true with
  | some a => decide (64 < s.sealedRegions.length + newRegions s a n)
  | none => decide (64 ≤ s.sealedRegions.length)

/-- Create an object, its checks done: the answer is the state and the handle, or the refusal with the state
after the evictions that stand (checks 6 and 7 of R806, R200). -/
def allocObj (s : State) (c : Nat) (o : Obj) (loc : Nat) : State × Except (Status × Reason) Nat :=
  match tget? s.ctxs c with
  | none => (s, .error (.noContext, .ctxUnknown))
  | some x => match freeHandle x with
    | none => (s, .error (.noQuota, .objTableFull))
    | some h =>
      if o.homeTier ≤ 2 then
        match homeShare x o loc with
        | none => (s, .error (.refused, .objTier))
        | some (first, _) =>
          let o1 := { o with home := first + bits loc 23 0, homeCore := bits loc 31 29 }
          (modCtx s c (fun y => { y with objs := tset y.objs h o1 }), .ok h)
      else
        let n := o.storedM1 + 1
        if o.sealed && sealedFull s c n then (s, .error (.noQuota, .secSealedFull))
        else match makeRoom s c o.homeTier 0 n with
          | (s1, false) => (s1, .error (.noQuota, .objQuota))
          | (s1, true) => match placeHome s1 c o.homeTier n o.sealed with
            | none => (s1, .error (.noQuota, .objQuota))
            | some a =>
              let regs := if o.sealed then regionsOf a n else []
              let s2 := { s1 with sealedRegions := regs.foldl (fun t r => tset t r c) s1.sealedRegions }
              let s3 := modCtx s2 c (fun y => { y with objs := tset y.objs h { o with home := a, regions := regs } })
              (if o.nofill then extUntag s3 o.homeTier a n
               else countBytes (extFill s3 o.homeTier x.key o.sealed a n) c o.homeTier o.homeTier (n * 4096), .ok h)

/-! ## OBJ_FREE, OBJ_WRITE, OBJ_READ (R231, R232, R537) -/

/-- Run a command on a valid object of the context, or refuse it with OBJ_HANDLE (R239). -/
def onObj (s : State) (rq : Req) (op h : Nat) (k : Ctx → Obj → State) : State :=
  onCtx s rq op (fun x => match tget? x.objs h with
    | none => replyC s rq op .refused .objHandle []
    | some o => k x o)

/-- The range check of R537: OFFSET a multiple of 64, the length a multiple of 64 or ending at the last stored
byte, within the stored-size bound. -/
def rangeOk (o : Obj) (off n : Nat) : Bool :=
  decide (off % 64 = 0) && decide (off + n ≤ storedBytes o) &&
    (decide (n % 64 = 0) || decide (off + n = storedBytes o))

/-- A state object takes writes only while its stream is PAUSED (R320). -/
def streamBars (x : Ctx) (h : Nat) : Bool :=
  match streamOf x h with
  | some (_, t) => decide (t.state ≠ .paused)
  | none => false

/-- Why an OBJ_WRITE is refused (R318, R357, R537) or fails because its tier answers no access (R579, R667, R754), with its
status. -/
def objWriteFault (s : State) (c handle off n : Nat) (x : Ctx) (o : Obj) : Option (Status × Reason) :=
  if x.images.any (fun e => e.2.locked.contains handle) then some (.refused, .loadObjLocked)
  else if streamBars x handle then some (.refused, .streamObject)
  else if !(rangeOk o off n) then some (.fault, .objRange)
  else if tagsHeld s c handle || (o.upper.isSome && o.dirty) then some (.busy, .objBusy)
  else (tierFault s o.homeTier).map (fun r => (.fault, r))

/-- The write itself (R537): a clean upper copy is discarded and the bytes are stored at the home. -/
def objWriteDo (s : State) (c handle off : Nat) (data : Bytes) (x : Ctx) (o : Obj) : State :=
  let s1 := setCtx s c { x with objs := tset x.objs handle { o with upper := none } }
  countAct (homeWrite s1 x o off data) c (fun a => { a with hostIn := a.hostIn + data.length })

/-! ## OBJ_PLACE (R187, R185) -/

/-- The UPPER_LOC word of an OBJ_PLACE reply: 0xFFFF_FFFF when there is no upper copy (R536). R183 gives a ROW for copies in
T1 and T2 only: for a copy in T3 the model puts its granule modulo 2^24 there (DESIGN CHOICE, entry 114). -/
def upperLoc (o : Obj) : Bytes :=
  match o.upper with
  | some u => leBytes 4 ((if u.tier = 1 then u.core * 2 ^ 29 else 0) + u.loc % 2 ^ 24)
  | none => leBytes 4 0xFFFFFFFF

/-- Fill an upper copy with an object's tiles, expanded (R185). -/
def copyUp (s : State) (x : Ctx) (o : Obj) (u : Upper) : Nat → Nat → Except Reason State
  | 0, _ => .ok s
  | n + 1, i => match objTile s x { o with upper := none } i with
    | .error r => .error r
    | .ok (_, t) => copyUp (upperWrite s x u i t) x o u n (i + 1)

/-- Place an upper copy: room in the quota after eviction, then room in a share or in T3, then the tiles. -/
def placeObj (s : State) (c h tier core : Nat) (o : Obj) : State × Except (Status × Reason) Upper :=
  let n := if tier = 3 then upperGranules o else upperRows o
  match makeRoom s c tier core n with
  | (s1, false) => (s1, .error (.noQuota, .objQuota))
  | (s1, true) => match tget? s1.ctxs c with
    | none => (s1, .error (.noContext, .ctxUnknown))
    | some x =>
      let loc := if tier = 3 then placeHome s1 c 3 n false
                 else placeUpper x (if tier = 2 then 8 else core) n
      match loc with
      | none => (s1, .error (.noQuota, .objQuota))
      | some a =>
        let u : Upper := { tier := tier, core := core, loc := a }
        let s2 := if tier = 3 then extFill s1 3 x.key false a n else s1
        match copyUp s2 x o u (o.tilesM1 + 1) 0 with
        | .error r => (integrityFail (noteUe s1 { o with upper := none } r) c o.homeTier o.home r, .error (.fault, r))
        | .ok s3 =>
          (countBytes (modCtx s3 c (fun y => { y with objs := tset y.objs h { o with upper := some u, dirty := false } }))
            c o.homeTier tier (homeLen s x o), .ok u)

/-- A zero-fill is held: those pending in T3 while an entry to DEEP is in progress (R622), and those of a tier that is
not in service (R579, R754). -/
def fillHeld (s : State) (c h : Nat) : Bool :=
  match (tget? s.ctxs c).bind (fun x => tget? x.fills h) with
  | none => false
  | some z =>
    if z.tier = 3 then
      !s.ddr.inService || (match s.pwr.entry with
        | some e => e.target == 3
        | none => false)
    else !s.pcie.ready

/-! ## CTX_QUOTA_SET (R808) -/

/-- The sum of a quota over all contexts but one. -/
def othersSum (s : State) (c : Nat) (f : Quotas → Nat) : Nat :=
  ((s.ctxs.filter (fun e => !(e.1 == c))).map (fun e => f e.2.quotas)).sum

/-- The least stream quota that covers a context's streams (R313). -/
def streamsHeld (x : Ctx) : Nat :=
  x.streams.foldl (fun m e => if e.2.state ≠ .free then max m (e.1 + 1) else m) 0

/-- The three passes of R808. -/
def quotaCheck (s : State) (c : Nat) (x : Ctx) (q : Quotas) : Option Reason :=
  if q.t1.any (fun r => decide (r % 256 ≠ 0)) ∨ q.t2 % 256 ≠ 0 ∨ 4096 < q.streams then some .quotaParam
  else if (List.range 8).any (fun n => decide (49152 < othersSum s c (fun p => p.t1.getD n 0) + q.t1.getD n 0)) ∨
      131072 < othersSum s c Quotas.t2 + q.t2 ∨ capacityOf s 3 < othersSum s c Quotas.t3 + q.t3 ∨
      capacityOf s 4 < othersSum s c Quotas.t4 + q.t4 ∨ 4096 < othersSum s c Quotas.streams + q.streams ∨
      (x.sealed ∧ x.banks.length * 8192 < q.t2) then some .quotaOvercommit
  else if (List.range 8).any (fun n => decide (q.t1.getD n 0 < chargeT1 x n)) ∨ q.t2 < chargeT2 x ∨
      q.t3 < chargeT3 x ∨ q.t4 < chargeT4 x ∨ q.streams < streamsHeld x then some .quotaInUse
  else none

/-- The quotas in force, in the layout of the request (R536). -/
def quotaBody (q : Quotas) : Bytes :=
  (List.range 8).flatMap (fun n => leBytes 4 (q.t1.getD n 0)) ++ leBytes 4 q.t2 ++ leBytes 2 q.streams ++ zeros 2 ++
    leBytes 8 q.t3 ++ leBytes 8 q.t4

/-- The quotas that a request sets: a Sealed context's T3 quota is granted in whole regions of 16,384 granules (R586). -/
def quotasFor (x : Ctx) (q : Quotas) : Quotas := if x.sealed then { q with t3 := roundUp q.t3 16384 } else q

/-- CTX_QUOTA_SET (R191, R193, R586, R808). -/
def execCtxQuotaSet (rq : Req) (quotas : Quotas) (s : State) : Out :=
  .next (onCtx s rq 0x0102 (fun x =>
    let q := quotasFor x quotas
    match quotaCheck s rq.ctx x q with
    | some r => replyC s rq 0x0102 .refused r []
    | none => replyC (setCtx s rq.ctx { x with quotas := q }) rq 0x0102 .ok .none (quotaBody q)))

end Sys2Proof.Machine
end

