-- ==== Sys2Proof/Machine/Operands.lean ====
section
/-!
DEFINITION. The operand forms that several commands read from bytes: the Convoy descriptor (R204), and the
tables of an Eburter image (R338 to R343, R240, R251, R263, R266, R227).
-/

namespace Sys2Proof.Machine

/-! ## The Convoy descriptor (R204) -/

/-- The fields of a Convoy descriptor. -/
structure CvDesc where
  version : Nat
  op : Nat
  fmt : Nat
  codes : Bool
  fence : Bool
  count : Nat
  srcKind : Nat
  srcHandle : Nat
  srcOff : Nat
  dstKind : Nat
  space : Nat
  device : Nat
  slot : Nat
  win : Nat
  epoch : Nat
  dstHandle : Nat
  dstOff : Nat
  pitch : Nat
  codeDst : Nat
  tpr : Nat
  edgeRows : Nat
  edgeHalf : Bool
deriving DecidableEq, Repr

/-- Read a descriptor from its 32 bytes. -/
def CvDesc.parse (b : Bytes) : CvDesc :=
  let c := field b 0 4
  let ss := field b 4 4
  let d := field b 0xC 4
  let sh := field b 0x1C 4
  { version := bits c 31 28, op := bits c 27 24, fmt := bits c 23 20, codes := bit c 19, fence := bit c 18,
    count := bits c 15 0, srcKind := bits ss 31 30, srcHandle := bits ss 15 0, srcOff := field b 8 4,
    dstKind := bits d 31 30, space := bits d 29 26, device := bits d 25 23, slot := bits d 17 16,
    win := bits d 15 8, epoch := bits d 7 0, dstHandle := bits d 15 0, dstOff := field b 0x10 4,
    pitch := bits (field b 0x14 4) 23 0, codeDst := bits (field b 0x18 4) 23 0, tpr := bits sh 31 24,
    edgeRows := bits sh 23 16, edgeHalf := bit sh 15 }

/-- The 32 bytes of a descriptor (the firmware builds descriptors for walks and placements). -/
def CvDesc.bytes (d : CvDesc) : Bytes :=
  leBytes 4 (d.version * 2 ^ 28 + d.op * 2 ^ 24 + d.fmt * 2 ^ 20 + ofBool d.codes * 2 ^ 19 +
    ofBool d.fence * 2 ^ 18 + d.count) ++
  leBytes 4 (d.srcKind * 2 ^ 30 + d.srcHandle) ++ leBytes 4 d.srcOff ++
  leBytes 4 (d.dstKind * 2 ^ 30 + (if d.dstKind = 0 then d.dstHandle
    else d.space * 2 ^ 26 + d.device * 2 ^ 23 + d.slot * 2 ^ 16 + d.win * 2 ^ 8 + d.epoch)) ++
  leBytes 4 d.dstOff ++ leBytes 4 d.pitch ++ leBytes 4 d.codeDst ++
  leBytes 4 (d.tpr * 2 ^ 24 + d.edgeRows * 2 ^ 16 + ofBool d.edgeHalf * 2 ^ 15)

/-- The bytes of a descriptor with its source handle, destination handle and epoch replaced (R228, R268). -/
def CvDesc.rebind (d : CvDesc) (handle : Nat → Nat) (epoch : Nat) : CvDesc :=
  { d with
    srcHandle := if d.srcKind = 0 then handle d.srcHandle else d.srcHandle,
    dstHandle := if d.dstKind = 0 then handle d.dstHandle else d.dstHandle,
    epoch := if d.dstKind = 0 then d.epoch else epoch }

/-- Element bytes of a row of a tile: a tile has 64 rows of 64 bytes (R179); code bytes per row come with it. -/
def CvDesc.rows (d : CvDesc) (i : Nat) : Nat :=
  if d.pitch ≠ 0 ∧ d.edgeRows ≠ 0 ∧ i / d.tpr = d.count / d.tpr - 1 then d.edgeRows else 64

/-- The bytes of each row of tile `i` that land (R206). -/
def CvDesc.rowBytes (d : CvDesc) (i : Nat) : Nat :=
  if d.pitch ≠ 0 ∧ d.edgeHalf ∧ i % d.tpr = d.tpr - 1 then 32 else 64

/-- The rows of a descriptor's row blocks that land (R206): the last block's tiles land EDGE_ROWS of theirs, at most 64. -/
def CvDesc.landedRows (d : CvDesc) : Nat :=
  64 * (d.count / d.tpr - 1) + (if d.edgeRows = 0 then 64 else min 64 d.edgeRows)

/-- The bytes of tiles and code strips that a descriptor lands (R206 to R208, R351). -/
def CvDesc.landedBytes (d : CvDesc) : Nat :=
  let n := if d.codes then codesPerRow d.fmt else 0
  if d.pitch = 0 ∨ d.tpr = 0 then d.count * (4096 + 64 * n)
  else d.landedRows * (d.tpr * (64 + n) - (if d.edgeHalf then 32 + n / 2 else 0))

/-! ## Image tables -/

/-- Split bytes into records of `w` bytes. -/
def records (w : Nat) (b : Bytes) : List Bytes := (List.range (b.length / w)).map (fun i => slice b (w * i) w)

/-- A section of an image (R339). -/
structure Section where
  ty : Nat
  required : Bool
  off : Nat
  len : Nat
  digest : Bytes
  reservedOk : Bool
deriving DecidableEq, Repr

/-- Section `i` of the section table (R339). -/
def sectionAt (b : Bytes) (i : Nat) : Section :=
  let e := slice b (0x40 + 96 * i) 96
  { ty := field e 0 2, required := bit (field e 2 2) 0, off := field e 8 8, len := field e 0x10 8,
    digest := slice e 0x20 64,
    reservedOk := field e 2 2 < 2 && field e 4 4 == 0 && field e 0x18 8 == 0 }

/-- The sections of an image. -/
def sectionsOf (b : Bytes) : List Section := (List.range (field b 6 2)).map (sectionAt b)

/-- The bytes of the section of a type, empty when there is none. -/
def sectionBytes (b : Bytes) (ss : List Section) (ty : Nat) : Bytes :=
  match ss.find? (fun e => e.ty == ty) with
  | some e => slice b e.off e.len
  | none => []

/-- A stage entry (R240). -/
def stageEnt (e : Bytes) : StageEnt :=
  let c := field e 0 4
  { phase := bits c 31 29, stage := bits c 28 24, core := bits c 23 21, slot := bits c 20 19,
    groups := bits c 18 16, leader := bit c 15, off := field e 4 4, bytes := field e 8 4 }

/-- A phase entry (R263). -/
def phaseEnt (e : Bytes) : PhaseEnt :=
  let c := field e 0 4
  { phase := bits c 31 29, stages := bits c 28 24, succ := bits c 23 16, groups := bits c 15 12 }

/-- A Junction-group entry (R251). -/
def jctEnt (e : Bytes) : JctEnt :=
  let c := field e 0 4
  let d := field e 8 4
  { contrib := bits c 31 24, fmt := bits c 23 20, gather := bit c 19, group := bits c 18 16, slots := bits c 15 8,
    phase := bits c 7 5, order := (List.range 8).map (fun i => bits (field e 4 4) (4 * i + 3) (4 * i)),
    space := bits d 29 26, win := bits d 15 8, rows := field e 0xC 2 }

/-- A re-shard entry (R266). -/
def reshardEnt (e : Bytes) : ReshardEnt :=
  let c := field e 0 4
  { src := bits c 31 29, dst := bits c 28 26, core := bits c 25 23, kind := bits c 22 21, step := bits c 20 18,
    win := bits c 15 8, space := bits c 7 4, body := slice e 0x10 32 }

/-- A prefetch entry (R227). -/
def prefetchEnt (e : Bytes) : PrefetchEnt :=
  let t := field e 0 4
  let n := field e 4 4
  { trigPhase := bits t 31 29, trigStage := bits t 28 24, trigCount := bits t 23 0, needPhase := bits n 31 29,
    needStage := bits n 28 24, needCount := bits n 23 0, body := slice e 0x10 32 }

/-- A manifest entry (R343). -/
structure Manifest where
  source : Nat
  check : Bool
  kind : Nat
  coding : Nat
  homeTier : Nat
  fmt : Nat
  evictable : Bool
  sealed : Bool
  tilesM1 : Nat
  storedM1 : Nat
  digest : Bytes
  reservedOk : Bool
deriving DecidableEq, Repr

/-- Read a manifest entry (R343). -/
def manifestEnt (e : Bytes) : Manifest :=
  let c := field e 0 4
  { source := bits c 31 30, check := bit c 29, kind := bits c 27 26, coding := bits c 25 24,
    homeTier := bits c 23 21, fmt := bits c 20 18, evictable := bit c 17, sealed := bit c 16,
    tilesM1 := bits (field e 4 4) 23 0, storedM1 := bits (field e 8 4) 23 0, digest := slice e 0x10 64,
    reservedOk := !(bit c 28) && bits c 15 0 == 0 && bits (field e 4 4) 31 24 == 0 &&
      bits (field e 8 4) 31 24 == 0 && field e 0xC 4 == 0 }

end Sys2Proof.Machine
end

