-- ==== Sys2Proof/Machine/Images.lean ====
section
/-!
DEFINITION. Eburter images (09): the checks of IMAGE_LOAD in their order, the grant, and what unloading gives
back.
-/

namespace Sys2Proof.Machine

/-! ## Room in the slot table (R376) -/

/-- The entries the table would need if a context joined it (R376). -/
def entriesWith (s : State) (c : Nat) : Nat :=
  let s1 := modCtx s c (fun x => { x with st := .resident, images := if x.images.isEmpty then [(0, {})] else x.images })
  (slotTable s1).length

/-! ## The container (R348, checks 2 to 6) -/

/-- Sections lie after the table and within TOTAL_BYTES, at multiples of 64, and do not overlap (R339). -/
def sectionsPlaced (b : Bytes) (ss : List Section) : Bool :=
  ss.all (fun e => decide (e.off % 64 = 0) && decide (0x40 + 96 * ss.length ≤ e.off) &&
    decide (e.off + e.len ≤ field b 0x10 8)) &&
  (List.range ss.length).all (fun i => (List.range i).all (fun j =>
    match ss[i]?, ss[j]? with
    | some a, some c => decide (a.off + a.len ≤ c.off) || decide (c.off + c.len ≤ a.off)
    | _, _ => true))

/-- Check 2: the container. -/
def containerOk (b : Bytes) : Bool :=
  let n := field b 6 2
  b.take 4 == [0x45, 0x42, 0x49, 0x31] && decide (4 ≤ n ∧ n ≤ 16) &&
  decide (0x40 + 96 * n ≤ b.length) && decide (field b 0x10 8 ≤ b.length) && sectionsPlaced b (sectionsOf b)

/-- Check 3: TARGET. -/
def targetOk (b : Bytes) : Bool := field b 0xA 2 == 0x8230 && decide (field b 9 1 ≤ 0xB0)

/-- How many sections have a type. -/
def countType (ss : List Section) (ty : Nat) : Nat := (ss.filter (fun e => e.ty == ty)).length

/-- The section types that the device knows (R340). -/
def knownType (ty : Nat) : Bool := decide (1 ≤ ty ∧ ty ≤ 8) || ty == 0xFF

/-- Check 4: the format version, FEATURES, required sections and section counts (R340). -/
def formatOk (b : Bytes) (ss : List Section) : Bool :=
  field b 4 2 == 1 && decide (field b 0xC 4 < 2 ^ 10) &&
  ss.all (fun e => knownType e.ty || !e.required) &&
  [1, 2, 3, 4].all (fun t => countType ss t == 1) && [5, 6, 7, 8, 0xFF].all (fun t => decide (countType ss t ≤ 1))

/-- Check 5: every section digest but that of SIGNATURE. -/
def digestsOk (b : Bytes) (ss : List Section) : Bool :=
  ss.all (fun e => e.ty == 0xFF || shake256 64 (slice b e.off e.len) == e.digest)

/-- The image digest (R341). -/
def imageDigest (b : Bytes) : Bytes := shake256 64 (b.take (0x40 + 96 * field b 6 2))

/-- Check 6 (R346): a present signature verifies under a key of the image-signing set; an absent one is
permitted unless the policy requires signatures (R647). -/
def signatureFault (s : State) (b : Bytes) (ss : List Section) : Option Reason :=
  if countType ss 0xFF = 0 then (if bit s.sec.policy 6 then some .loadUnsigned else none)
  else
    let g := sectionBytes b ss 0xFF
    if g.length == 3381 && field g 0 4 == 1 && field g 4 4 == 0 && s.sec.imageKeys.contains (slice g 8 64) &&
        Config.mldsaVerify (slice g 8 64) (imageDigest b) (slice g 0x48 3309) then none
    else some .loadSignature

/-! ## The tables (R342, R343, R349) -/

/-- The tables of an image, parsed. -/
structure Tables where
  res : Bytes
  stages : List StageEnt
  phases : List PhaseEnt
  groups : List JctEnt
  reshard : List ReshardEnt
  prefetch : List PrefetchEnt
  manifest : List Manifest
  programs : Bytes
deriving DecidableEq, Repr

/-- Parse the tables (R340). -/
def tablesOf (b : Bytes) (ss : List Section) : Tables :=
  { res := sectionBytes b ss 1, stages := (records 16 (sectionBytes b ss 2)).map stageEnt,
    phases := (records 8 (sectionBytes b ss 3)).map phaseEnt, programs := sectionBytes b ss 4,
    groups := (records 16 (sectionBytes b ss 5)).map jctEnt,
    reshard := (records 48 (sectionBytes b ss 6)).map reshardEnt,
    prefetch := (records 48 (sectionBytes b ss 7)).map prefetchEnt,
    manifest := (records 80 (sectionBytes b ss 8)).map manifestEnt }

/-- CORES of RESOURCES (R342). -/
def Tables.cores (t : Tables) : Nat := field t.res 0 1
/-- DECK_ROWS, or SPAN_ROWS for space 8. -/
def Tables.rows (t : Tables) (space : Nat) : Nat :=
  if space = 8 then bits (field t.res 4 4) 23 0 else bits (field t.res (0x20 + 8 * space) 4) 23 0
/-- CORE_WINDOWS, or SPAN_WINDOWS for space 8. -/
def Tables.wins (t : Tables) (space : Nat) : Nat :=
  if space = 8 then bits (field t.res 8 4) 8 0 else bits (field t.res (0x24 + 8 * space) 4) 6 0
/-- JCT_SLOTS. -/
def Tables.jct (t : Tables) : Nat := field t.res 0xC 1
/-- The program rows of a logical core (R354): each program begins on a row. -/
def Tables.progRows (t : Tables) (core : Nat) : Nat :=
  ((t.stages.filter (fun e => e.core == core)).map (fun e => ceilDiv e.bytes 256)).sum
/-- The stages of a phase. -/
def Tables.phaseStages (t : Tables) (p : Nat) : List StageEnt := t.stages.filter (fun e => e.phase == p)
/-- The Junction groups of a phase. -/
def Tables.phaseGroups (t : Tables) (p : Nat) : List JctEnt := t.groups.filter (fun e => e.phase == p)

/-- The reserved bits of a Convoy descriptor that an entry holds are 0 (R204, R349). -/
def descReservedOk (b : Bytes) : Bool :=
  bits (field b 0 4) 17 16 == 0 && bits (field b 4 4) 29 16 == 0 && bits (field b 0xC 4) 22 18 == 0 &&
  field b 0x17 1 == 0 && field b 0x1B 1 == 0 && bits (field b 0x1C 4) 14 0 == 0

/-- The reserved bytes and bits of a re-shard entry's BODY are 0 (R156, R266, R349). -/
def bodyReservedOk (e : ReshardEnt) : Bool :=
  match e.kind with
  | 0 => field e.body 3 1 == 0 && field e.body 7 1 == 0 && bits (field e.body 8 4) 23 11 == 0 &&
      (slice e.body 0x10 16).all (· == 0)
  | 1 => descReservedOk e.body
  | 2 => e.body.all (· == 0)
  | _ => true

/-- Every reserved byte and bit of the tables is 0, and every table holds whole entries (R349). -/
def reservedOk (b : Bytes) (ss : List Section) : Bool :=
  field b 8 1 == 0 && (slice b 0x28 24).all (· == 0) && ss.all (fun e => e.reservedOk) &&
  (let r := sectionBytes b ss 1
   r.length == 96 && field r 1 3 == 0 && field r 7 1 == 0 && decide (field r 8 4 < 2 ^ 9) && field r 0xD 3 == 0 &&
   (slice r 0x10 16).all (· == 0) &&
   (List.range 8).all (fun n => field r (0x23 + 8 * n) 1 == 0 && decide (field r (0x24 + 8 * n) 4 < 2 ^ 7))) &&
  [(2, 16), (3, 8), (5, 16), (6, 48), (7, 48), (8, 80)].all (fun p => (sectionBytes b ss p.1).length % p.2 == 0) &&
  (records 16 (sectionBytes b ss 2)).all (fun e => bits (field e 0 4) 14 0 == 0 && field e 0xC 4 == 0) &&
  (records 8 (sectionBytes b ss 3)).all (fun e => bits (field e 0 4) 11 0 == 0 && field e 4 4 == 0) &&
  (records 16 (sectionBytes b ss 5)).all (fun e => bits (field e 0 4) 4 0 == 0 &&
    bits (field e 8 4) 31 30 == 0 && bits (field e 8 4) 25 16 == 0 && field e 8 1 == 0 && field e 0xE 2 == 0) &&
  (records 48 (sectionBytes b ss 6)).all (fun e => bits (field e 0 4) 17 16 == 0 && bits (field e 0 4) 3 0 == 0 &&
    (slice e 4 12).all (· == 0) && bodyReservedOk (reshardEnt e)) &&
  (records 48 (sectionBytes b ss 7)).all (fun e => (slice e 8 8).all (· == 0) && descReservedOk (slice e 0x10 32)) &&
  (records 80 (sectionBytes b ss 8)).all (fun e => (manifestEnt e).reservedOk)

/-- RESOURCES meets R342. -/
def resourcesOk (t : Tables) : Bool :=
  (List.range 8).all (fun n => decide (t.rows n ≤ 49152) && decide (t.wins n ≤ 64) &&
    (bit t.cores n || (t.rows n == 0 && t.wins n == 0)) && decide (t.progRows n ≤ t.rows n)) &&
  decide (t.wins 8 ≤ 256) && decide (t.jct ≤ 128) &&
  (List.range 8).all (fun p => decide (((t.phaseGroups p).map JctEnt.slots).sum ≤ t.jct))

/-- The stage and phase entries (R241, R263, R349). -/
def stagesOk (t : Tables) : Bool :=
  t.stages.all (fun e => decide (e.stage < 24) && bit t.cores e.core && decide (e.off % 16 = 0) &&
    decide (e.off + e.bytes ≤ t.programs.length) && t.phases.any (fun p => p.phase == e.phase)) &&
  t.phases.all (fun p =>
    let g := t.phaseStages p.phase
    (t.phases.filter (fun q => q.phase == p.phase)).length == 1 &&
    decide (1 ≤ p.stages ∧ p.stages ≤ 24) && g.length == p.stages && (g.filter StageEnt.leader).length == 1 &&
    (t.phaseGroups p.phase).length == p.groups && decide (p.groups ≤ 8) &&
    g.all (fun e => (g.filter (fun f => f.stage == e.stage)).length == 1 &&
      (g.filter (fun f => f.core == e.core && f.slot == e.slot)).length == 1 &&
      g.all (fun f => f.stage == e.stage || !(f.core == e.core) || decide (f.groups &&& e.groups = 0))) &&
    (maskBits p.succ 8).all (fun q => t.phases.any (fun r => r.phase == q))) &&
  t.phases.any (fun p => p.phase == 0)

/-- The chip Junction groups (R251, R349). -/
def groupsOk (t : Tables) : Bool :=
  t.groups.all (fun g =>
    let n := (maskBits g.contrib 8).length
    decide (g.contrib &&& (255 - t.cores) = 0) && decide (1 ≤ n) &&
    (maskBits g.contrib 8).all (fun c => ((g.order.take n).filter (· == c)).length == 1) &&
    (g.order.drop n).all (· == 0xF) && (g.fmt == 6 || g.fmt == 8) && decide (1 ≤ g.slots ∧ g.slots ≤ 128) &&
    decide (1 ≤ g.rows) && decide (g.space ≤ 8) && decide (g.win < t.wins g.space) &&
    t.phases.any (fun p => p.phase == g.phase) &&
    ((t.phaseGroups g.phase).filter (fun h => h.group == g.group)).length == 1)

/-- The object indices of a descriptor lie within the manifest (R349). -/
def descIndicesOk (t : Tables) (b : Bytes) : Bool :=
  let d := CvDesc.parse b
  (d.srcKind ≠ 0 || d.op == 1 || decide (d.srcHandle < t.manifest.length)) &&
  (d.dstKind ≠ 0 || decide (d.dstHandle < t.manifest.length))

/-- The windows of a re-shard entry lie within the declared counts (R349). -/
def reshardWinOk (t : Tables) (e : ReshardEnt) : Bool :=
  let d := CvDesc.parse e.body
  match e.kind with
  | 1 => d.dstKind ≠ 1 || (decide (d.space ≤ 8) && decide (d.win < t.wins d.space))
  | 3 => true
  | _ => decide (e.space ≤ 8) && decide (e.win < t.wins e.space)

/-- The re-shard entries (R266, R349). -/
def reshardOk (t : Tables) : Bool :=
  t.reshard.all (fun e =>
    t.phases.any (fun p => p.phase == e.src && bit p.succ e.dst) && bit t.cores e.core && reshardWinOk t e &&
    (e.kind ≠ 1 || (descIndicesOk t e.body && (List.range e.step).all (fun st => t.reshard.any (fun f =>
      f.src == e.src && f.dst == e.dst && f.kind == 1 && f.step == st)))))

/-- The prefetch entries (R227, R349). -/
def prefetchOk (t : Tables) : Bool :=
  t.prefetch.all (fun e =>
    t.stages.any (fun g => g.phase == e.trigPhase && g.stage == e.trigStage) &&
    t.stages.any (fun g => g.phase == e.needPhase && g.stage == e.needStage) && descIndicesOk t e.body)

/-- The manifest (R343, R349): at most 4,096 entries, and KIND 0b01 is bound and checked. -/
def manifestOk (t : Tables) : Bool :=
  decide (t.manifest.length ≤ 4096) &&
  t.manifest.all (fun m => (m.kind ≠ 1 || (m.source == 0 && m.check)) && (m.check || m.digest.all (· == 0)))

/-- The structure check (R349). -/
def structureOk (b : Bytes) (ss : List Section) (t : Tables) : Bool :=
  decide (1 ≤ field b 0x18 4 ∧ field b 0x18 4 ≤ 10000000) && reservedOk b ss && resourcesOk t && stagesOk t &&
  groupsOk t && reshardOk t && prefetchOk t && manifestOk t

/-- A descriptor with no reserved code. -/
def descCodesOk (b : Bytes) : Bool :=
  let d := CvDesc.parse b
  decide (d.op < 8) && (decide (d.fmt ≤ 6) || d.fmt == 0xF) && (decide (d.srcKind < 2) || d.op == 1) && decide (d.dstKind < 3)

/-- The reserved codes of check 7. -/
def codesOk (t : Tables) : Bool :=
  t.stages.all (fun e => decide (e.slot < 3)) &&
  t.manifest.all (fun m => decide (m.source < 2) && decide (m.coding < 3) &&
    (if m.source = 1 then (m.homeTier == 3 || m.homeTier == 4) && codingTakes m.coding m.fmt
     else decide (1 ≤ m.homeTier ∧ m.homeTier ≤ 4))) &&
  t.reshard.all (fun e => decide (e.kind < 3) && (e.kind ≠ 1 || descCodesOk e.body)) &&
  t.prefetch.all (fun e => descCodesOk e.body)

/-! ## Stage time (R351) -/

/-- The largest landed byte count of any issuing core in a step of a transition. -/
def stepBytes (t : Tables) (p q st : Nat) : Nat :=
  ((List.range 8).map (fun c => ((t.reshard.filter (fun e =>
    e.src == p && e.dst == q && e.kind == 1 && e.step == st && e.core == c)).map
      (fun e => (CvDesc.parse e.body).landedBytes)).sum)).foldl max 0

/-- A transition's duration in units of 1/96 ns: 96 GB/s is one byte per unit. -/
def transUnits (t : Tables) (p q : Nat) : Nat :=
  let n := fun k => (t.reshard.filter (fun e => e.src == p && e.dst == q && e.kind == k)).length
  (3000 + 250 * n 0 + 250 * n 2 + 2000) * 96 + ((List.range 8).map (stepBytes t p q)).sum

/-- The stage time of an image in units of 1/96 ns (R351). -/
def stageUnits (b : Bytes) (t : Tables) : Nat :=
  (t.phases.flatMap (fun p => (maskBits p.succ 8).map (transUnits t p.phase))).foldl max (field b 0x18 4 * 96)

/-- The ACLK cap of an envelope (R629), in MHz. -/
def aclkCap (watts : Nat) : Nat := if watts = 60 then 2000 else if watts = 45 then 1600 else if watts = 30 then 900 else 400

/-- The ACLK, in MHz, that a stage time is scaled to (R351): that of the envelope in force, and 1.7 GHz for an image that names
INT4 in the 60 W envelope (R630). -/
def loadClock (s : State) (features : Nat) : Nat :=
  if bit features 0 ∧ s.pwr.watts = 60 then 1700 else aclkCap s.pwr.watts

/-- Check 11: the scaled stage time does not exceed the pre-emption bound. -/
def stageTimeOk (s : State) (x : Ctx) (b : Bytes) (t : Tables) : Bool :=
  decide (stageUnits b t * 2000 ≤ x.boundUs * 96000 * loadClock s (field b 0xC 4))

/-! ## Shares, windows and Junction slots (R144, R155, R262, R352) -/

/-- The shares held in a space, over all contexts. -/
def sharesIn (s : State) (space : Nat) : List (Nat × Nat) :=
  s.ctxs.flatMap (fun c => (c.2.images.filterMap (fun e => tget? e.2.shares space)).filter (fun sh => decide (0 < sh.2)))

/-- The Span banks reserved by Sealed contexts other than `c` (R369). -/
def reservedBanks (s : State) (c : Nat) : List Nat :=
  (s.ctxs.filter (fun e => !(e.1 == c))).flatMap (fun e => e.2.banks)

/-- The Span rows in which a context's share may not lie (R370): for a Sealed context every bank but its own,
for a Shared one every reserved bank. -/
def barredRows (s : State) (c : Nat) (x : Ctx) : List (Nat × Nat) :=
  let barred := if x.sealed then (List.range 16).filter (fun b => !(x.banks.contains b)) else reservedBanks s c
  barred.map (fun b => (b * 8192, 8192))

/-- Where a share of `n` rows goes, or none (R352): the quota less the shares held covers it, an entry is free
(R144), and a free run of whole 256-row units holds it. -/
def placeShare (s : State) (c : Nat) (x : Ctx) (space n : Nat) : Option Nat :=
  let held := (x.images.map (fun e => (tget e.2.shares (0, 0) space).2)).sum
  let quota := if space = 8 then x.quotas.t2 else x.quotas.t1.getD space 0
  if quota < held + n ∨ (if space = 8 then 64 else 16) ≤ (sharesIn s space).length then none
  else firstFit (sharesIn s space ++ (if space = 8 then barredRows s c x else []))
    (if space = 8 then 131072 else 49152) n (fun _ => true)

/-- The entries of a space's window table that some image holds. -/
def usedEntries (s : State) (space : Nat) : List Nat :=
  s.ctxs.flatMap (fun c => c.2.images.flatMap (fun e => tget e.2.wins [] space))

/-- The window entries free in a space, rising. -/
def freeEntries (s : State) (space : Nat) : List Nat :=
  (List.range (if space = 8 then 256 else 64)).filter (fun i => !((usedEntries s space).contains i))

/-- The chip Junction slots granted. -/
def jctGranted (s : State) : Nat := (s.ctxs.flatMap (fun c => c.2.images.map (fun e => e.2.jctSlots))).sum

/-- The spaces of an image's declared needs: its cores and the Span. -/
def spacesOf (t : Tables) : List Nat := maskBits t.cores 8 ++ [8]

/-- The share an image needs in a space, in rows (R352). -/
def shareRows (t : Tables) (space : Nat) : Nat := roundUp (t.rows space) 256

/-- Place every Deck share, or none when one does not fit. -/
def placeDecks (s : State) (c : Nat) (x : Ctx) (t : Tables) : Option (Tab (Nat × Nat)) :=
  ((maskBits t.cores 8).filter (fun n => decide (0 < t.rows n))).foldr (fun n acc =>
    match acc, placeShare s c x n (shareRows t n) with
    | some l, some a => some ((n, (a, shareRows t n)) :: l)
    | _, _ => none) (some [])

/-! ## Bindings and content (R350, R344) -/

/-- The content whose digest a bound object has (R344). -/
def objContent (s : State) (x : Ctx) (o : Obj) : Except Reason Bytes :=
  if o.coding = 0 then homeRead s x o 0 ((o.tilesM1 + 1) * 4096)
  else match homeRead s x o 0 64 with
    | .error r => .error r
    | .ok h => homeRead s x o 0 (min (field h 0x18 8) (storedBytes o))

/-- Check 9 (R350). -/
def bindingsOk (x : Ctx) (image : Nat) (hs : List Nat) (t : Tables) : Bool :=
  let need := t.manifest.filter (fun m => m.source == 0)
  hs.length == need.length && !(hs.contains image) && decide (hs.Nodup) &&
  (hs.zip need).all (fun p => match tget? x.objs p.1 with
    | some o => o.kind == p.2.kind && o.coding == p.2.coding && o.fmt == p.2.fmt && decide (p.2.tilesM1 ≤ o.tilesM1)
    | none => false)

/-- Check 10: every CHECK entry's content digest. -/
def contentOk (s : State) (x : Ctx) (hs : List Nat) (t : Tables) : Bool :=
  (hs.zip (t.manifest.filter (fun m => m.source == 0))).all (fun p => !p.2.check ||
    (match tget? x.objs p.1 with
     | some o => (match objContent s x o with
       | .ok d => shake256 64 d == p.2.digest
       | .error _ => false)
     | none => false))

/-! ## The grant (R353, R354) -/

/-- The granules charged for the kept tables (R353): every section except PROGRAMS and SIGNATURE. -/
def tableGranulesOf (ss : List Section) : Nat :=
  ceilDiv (((ss.filter (fun e => !(e.ty == 4) && !(e.ty == 0xFF))).map Section.len).sum) 4096

/-- The object that a manifest entry allocates (R343, R354). -/
def objOfManifest (m : Manifest) : Obj :=
  { sealed := m.sealed, encrypted := true, evictable := m.evictable, kind := m.kind, coding := m.coding,
    homeTier := m.homeTier, fmt := m.fmt, tilesM1 := m.tilesM1,
    storedM1 := if m.coding = 0 then m.tilesM1 else m.storedM1 }

/-- Allocate the SOURCE 0b01 objects in turn, each as OBJ_ALLOC does (R354): one that OBJ_ALLOC would refuse refuses the load with
that status and reason, and one that does not fit with LOAD_TIER_QUOTA (DESIGN CHOICE, entry 102). -/
def allocAll (s : State) (c : Nat) : List Manifest → Except (Status × Reason) (State × List Nat)
  | [] => .ok (s, [])
  | m :: r =>
    let o := objOfManifest m
    match (tget? s.ctxs c).bind (fun x => allocCheck s x o 0) with
    | some e => .error e
    | none => match allocObj s c o 0 with
      | (_, .error (st, rs)) => .error (if rs = .objQuota then (.noQuota, .loadTierQuota) else (st, rs))
      | (s1, .ok h) => (allocAll s1 c r).map (fun p => (p.1, h :: p.2))

/-- The handles by object index: bound and allocated handles in manifest order. -/
def mergeHandles : List Manifest → List Nat → List Nat → List Nat
  | [], _, _ => []
  | m :: r, bs, as =>
    if m.source = 0 then bs.headD 0 :: mergeHandles r bs.tail as else as.headD 0 :: mergeHandles r bs as.tail

/-- Clear the valid bits of an image's shares (R149). -/
def clearShares (s : State) (shares : Tab (Nat × Nat)) : State :=
  shares.foldl (fun a e =>
    let h := homeOf a e.1
    setRam a h ((ramOf a h).flashClear e.2.1 (e.2.1 + e.2.2))) s

/-- Copy a core's stage programs into the start of its share, each beginning on a row (R354), through the firmware view (R135). -/
def copyPrograms (s : State) (core row : Nat) (programs : Bytes) : List StageEnt → Except Status State
  | [] => .ok s
  | e :: r => (firmwareWrite s (firmwareAddr (homeOf s core) (row * 256)) (slice programs e.off e.bytes)).bind (fun s1 =>
      copyPrograms s1 core (row + ceilDiv e.bytes 256) programs r)

/-- Copy the stage programs of every core of an image into its shares. -/
def copyAllPrograms (t : Tables) (shares : Tab (Nat × Nat)) : List Nat → State → Except Status State
  | [], s => .ok s
  | n :: r, s => match tget? shares n with
    | some (first, _) => (copyPrograms s n first t.programs (t.stages.filter (fun e => e.core == n))).bind
        (copyAllPrograms t shares r)
    | none => copyAllPrograms t shares r s

/-- A core's program rows as they stand in a share: each program fills whole rows. -/
def programRows (t : Tables) (core : Nat) : Bytes :=
  (t.stages.filter (fun e => e.core == core)).flatMap (fun e =>
    slice t.programs e.off e.bytes ++ zeros (ceilDiv e.bytes 256 * 256 - e.bytes))

/-- Name the owner in the entries of an allotment (R156). -/
def ownEntries (s : State) (c slot : Nat) (wins : Tab (List Nat)) : State :=
  wins.foldl (fun a e => e.2.foldl (fun b i =>
    let k := winKey (homeOf b e.1) i
    setWin b k { winAt b k with ctx := c, slot := slot }) a) s

/-- The record that an image leaves when it is granted (R347, R354). -/
def imageRecord (s : State) (image : Nat) (b : Bytes) (ss : List Section) (t : Tables) (shares : Tab (Nat × Nat))
    (bound allocated : List Nat) : Image :=
  let handles := mergeHandles t.manifest bound allocated
  let checked := (List.range t.manifest.length).filterMap (fun i => match t.manifest[i]? with
    | some m => if m.check then some (i, handles.getD i 0, m.digest) else none
    | none => none)
  { digest := imageDigest b, obj := image, checks := checked, shares := shares,
    rows := (spacesOf t).map (fun sp => (sp, shareRows t sp)),
    wins := (spacesOf t).map (fun sp => (sp, (freeEntries s sp).take (t.wins sp))), jctSlots := t.jct,
    handles := handles, allocated := allocated, bound := bound, locked := checked.map (fun e => e.2.1),
    tableGranules := tableGranulesOf ss, progRows := (maskBits t.cores 8).map (fun n => (n, t.progRows n)),
    cores := t.cores, stages := t.stages, phases := t.phases, groups := t.groups, reshard := t.reshard,
    prefetch := t.prefetch, features := field b 0xC 4, stageNs := ceilDiv (stageUnits b t) 96 }

/-- The granules of a park area that holds some program rows (R391). -/
def parkArea (programs : List (Nat × Nat × Bytes)) : Nat := ceilDiv ((programs.map (fun p => p.2.2.length)).sum) 4096

/-- The image joins a context that is RESIDENT or STALLED and takes its shares; one that is PARKED holds none, and its program
rows wait in the park area for the bring-in (R365, R393; DESIGN CHOICE, entry 102). -/
def joinImage (y : Ctx) (slot : Nat) (im : Image) (t : Tables) : Ctx :=
  if y.st = .parked then
    let progs := y.parked.programs ++ (maskBits t.cores 8).map (fun n => (slot, n, programRows t n))
    { y with
      images := tset y.images slot { im with shares := im.shares.map (fun e => (e.1, (0, 0))) },
      parked := { y.parked with programs := progs, granules := parkArea progs } }
  else { y with images := tset y.images slot im }

/-- What an accepted IMAGE_LOAD does (R354), its objects allocated: shares, programs, window entries, record. -/
def grantImage (s : State) (c slot : Nat) (x : Ctx) (t : Tables) (shares : Tab (Nat × Nat)) (im : Image) : Except Status State :=
  let placed := if x.st = .parked then .ok s
    else copyAllPrograms t shares (maskBits t.cores 8) (clearShares s shares)
  placed.map (fun s1 =>
    rebuildTable (modCtx (ownEntries s1 c slot im.wins) c (fun y => joinImage y slot im t)))

/-- The binding list (R538): inline, or the first stored bytes of the object LIST. -/
def bindingList (s : State) (x : Ctx) (list n : Nat) (hs : List Nat) : Option (List Nat) :=
  if list = 0xFFFF then some hs
  else match tget? x.objs list with
    | none => none
    | some o => if storedBytes o < 2 * n then none else
      match homeRead s x o 0 (2 * n) with
      | .error _ => none
      | .ok d => some ((List.range n).map (fun i => field d (2 * i) 2))

/-- Where the refusal of a load stands: the state (with any evictions) and the code. -/
abbrev LoadResult := State × Except (Status × Reason) (Nat × List Nat × Bytes)

/-- Check 16 and the grant, its shares placed. -/
def loadObjects (s : State) (c slot image : Nat) (x : Ctx) (b : Bytes) (ss : List Section) (t : Tables) (hs : List Nat)
    (shares : Tab (Nat × Nat)) : LoadResult :=
  let allocs := t.manifest.filter (fun m => m.source == 1)
  let need := fun tier => ((allocs.filter (fun m => m.homeTier == tier)).map (fun m => (objOfManifest m).storedM1 + 1)).sum
  let park := if x.st = .parked then parkArea ((maskBits t.cores 8).map (fun n => (slot, n, programRows t n))) else 0
  match makeRoom s c 3 0 (need 3 + tableGranulesOf ss + park) with
  | (s1, false) => (s1, .error (.noQuota, .loadTierQuota))
  | (s1, true) => match makeRoom s1 c 4 0 (need 4) with
    | (s2, false) => (s2, .error (.noQuota, .loadTierQuota))
    | (s2, true) => match allocAll s2 c allocs with
      | .error e => (s2, .error e)
      | .ok (s3, as) => match grantImage s3 c slot x t shares (imageRecord s3 image b ss t shares hs as) with
        | .error st => (s2, .error (st, .none))
        | .ok s4 => (s4, .ok (slot, as, imageDigest b))

/-- Checks 12 to 16 and the grant. -/
def loadGrant (s : State) (c slot image : Nat) (x : Ctx) (b : Bytes) (ss : List Section) (t : Tables) (hs : List Nat) :
    LoadResult :=
  if x.images.isEmpty ∧ !x.sealed ∧ x.st = .resident ∧ 64 < entriesWith s c then (s, .error (.noQuota, .schedTableFull))
  else match placeDecks s c x t with
  | none => (s, .error (.noQuota, .loadDeck))
  | some decks =>
    let span := if t.rows 8 = 0 then some [] else (placeShare s c x 8 (shareRows t 8)).map (fun a => [(8, (a, shareRows t 8))])
    match span with
    | none => (s, .error (.noQuota, .loadSpan))
    | some sp =>
      if (spacesOf t).any (fun n => decide ((freeEntries s n).length < t.wins n)) then (s, .error (.noQuota, .loadWindows))
      else if 128 < jctGranted s + t.jct then (s, .error (.noQuota, .loadJunction))
      else loadObjects s c slot image x b ss t hs (decks ++ sp)

/-- The checks of IMAGE_LOAD in the order of R348, on the image's bytes. A fenced core refuses the load (R685) after the
context's cores have been checked (DESIGN CHOICE, entry 102: R685 does not place its check in that order). -/
def loadChecks (s : State) (c slot image : Nat) (x : Ctx) (b : Bytes) (hs : Option (List Nat)) : LoadResult :=
  let ss := sectionsOf b
  let t := tablesOf b ss
  if !(containerOk b) then (s, .error (.malformed, .loadContainer))
  else if !(targetOk b) then (s, .error (.refused, .loadTarget))
  else if !(formatOk b ss) then (s, .error (.refused, .loadFormat))
  else if !(digestsOk b ss) then (s, .error (.refused, .loadDigest))
  else match signatureFault s b ss with
    | some r => (s, .error (.auth, r))
    | none =>
      if !(structureOk b ss t) then (s, .error (.malformed, .loadStructure))
      else if !(codesOk t) then (s, .error (.refused, .loadFormat))
      else if t.cores &&& (255 - x.cores) ≠ 0 then (s, .error (.refused, .loadCores))
      else if (maskBits t.cores 8).any (fun n => s.fenced.contains n) then (s, .error (.refused, .relCoreOut))
      else match hs with
        | none => (s, .error (.refused, .loadBinding))
        | some l =>
          if !(bindingsOk x image l t) then (s, .error (.refused, .loadBinding))
          else if !(contentOk s x l t) then (s, .error (.refused, .loadObjDigest))
          else if !(stageTimeOk s x b t) then (s, .error (.refused, .loadStageTime))
          else loadGrant s c slot image x b ss t l

/-- The image's bytes (R338): TOTAL_BYTES of the object, as far as it holds them; none when one of them has not been
written since a NOFILL allocation or cannot be read, and the container is malformed (check 2). -/
def imageBytes (s : State) (x : Ctx) (o : Obj) : Bytes :=
  match homeRead s x o 0 64 with
  | .error _ => []
  | .ok h => match homeRead s x o 0 (max 64 (min (field h 0x10 8) (storedBytes o))) with
    | .ok b => b
    | .error _ => []

/-- The reply's handles written into the object LIST, right after the bound ones (R538). -/
def storeHandles (s : State) (c list n : Nat) (as : List Nat) : State :=
  if list = 0xFFFF then s
  else match tget? s.ctxs c with
    | none => s
    | some x => match tget? x.objs list with
      | none => s
      | some o => homeWrite s x o (2 * n) (as.flatMap (leBytes 2))

/-- Whether an inline reply would exceed the session's granted MAX_PAYLOAD (R538). -/
def replyTooLong (s : State) (sess list allocs : Nat) : Bool :=
  list == 0xFFFF && decide ((match tget? s.net.sessions sess with
    | some e => e.maxPayload
    | none => 1024) < 72 + 2 * allocs)

/-! ## Unloading (R359 to R361, R807) -/

/-- The window keys of an image. -/
def imageKeys (s : State) (im : Image) : List Nat :=
  im.wins.flatMap (fun e => e.2.map (winKey (homeOf s e.1)))

/-- Close every window of an image, all at once (step 1 of R360). -/
def closeImage (s : State) (im : Image) : State := (imageKeys s im).foldl closeEntry s

/-- An engine group or the stream routine works in the shares of an image (R152). -/
def imageWorked (s : State) (c slot : Nat) : Bool :=
  s.cores.any (fun k => k.2.groups.any (fun g => match g.2.run with
    | some r => r.entry.ctx == c && r.entry.img == slot
    | none => false) || k.2.chunks.any (fun q => q.ctx == c && q.img == slot && q.running))

/-- No accepted write is in progress in the image's windows, no tag is held for its objects and windows (step 2 of R360), and
no engine writes into its shares (R152). -/
def imageQuiet (s : State) (c slot : Nat) (im : Image) : Bool :=
  (imageKeys s im).all (fun k => decide ((winAt s k).state = .closed)) &&
  (ctxEntries s c).all (fun e => !(e.slot == slot) || decide (e.issued ≤ e.landed)) &&
  (im.bound ++ im.allocated).all (fun h => !tagsHeld s c h) && !imageWorked s c slot

/-- Free every object whose home lies in a share that is released (R807). -/
def freeShareObjs (x : Ctx) (im : Image) : Ctx :=
  (x.objs.filter (fun e =>
    let sp := if e.2.homeTier = 2 then 8 else e.2.homeCore
    decide (e.2.homeTier ≤ 2) && (match tget? im.shares sp with
      | some (first, len) => decide (first ≤ e.2.home) && decide (e.2.home < first + len)
      | none => false))).foldl (fun y e => freeObj y e.1 e.2) x

/-- An object's upper copy lies in a share of an image that is released. -/
def inShare (im : Image) (o : Obj) : Bool :=
  match o.upper with
  | some u => (match tget? im.shares (if u.tier = 2 then 8 else u.core) with
    | some (first, len) => decide (u.tier ≤ 2) && decide (first ≤ u.loc) && decide (u.loc < first + len)
    | none => false)
  | none => false

/-- Release the upper copies that lie in a share that is released. -/
def dropShareUppers (x : Ctx) (im : Image) : Ctx :=
  { x with objs := x.objs.map (fun e => if inShare im e.2 then (e.1, { e.2 with upper := none, dirty := false }) else e) }

/-- Write back upper copies in turn, in ascending handle; the first that fails ends it (R226). -/
def saveUppers (c : Nat) : List (Nat × Obj) → State → State × Option Reason
  | [], s => (s, none)
  | (h, o) :: r, s => match tget? s.ctxs c with
    | none => (s, none)
    | some x => match saveUpper s c h x o with
      | (s1, none) => saveUppers c r s1
      | e => e

/-- Steps 3 to 6 of R360: entries, slots and shares return, allocated objects are freed, the digests leave and
the table charge returns; a cascade entry of the slot is cleared (R469). -/
def releaseImage (s : State) (c slot : Nat) (im : Image) : State :=
  let s2 := modCtx s c (fun x =>
    let y := freeShareObjs (dropShareUppers x im) im
    let z := im.allocated.foldl (fun w h => match tget? w.objs h with
      | some o => freeObj w h o
      | none => w) y
    let progs := z.parked.programs.filter (fun p => p.1 != slot)
    { z with
      images := terase z.images slot,
      parked := { z.parked with
        programs := progs, granules := parkArea progs } })
  rebuildTable { s2 with
    aud := { s2.aud with cascade := s2.aud.cascade.filter (fun e => !(e.2.ctx == c && e.2.slot == slot)) } }

end Sys2Proof.Machine
end

