-- ==== Sys2Proof/Machine/Tiles.lean ====
section
/-!
DEFINITION. The tiles of a Convoy descriptor (05): the shares they move between, the descriptor that a queue issues from,
where a tile lands, and the Span banks that it reads from and lands in.
-/

namespace Sys2Proof.Machine

/-! ## Shares and queues -/

/-- The share of an image in a space, as first row and length (R144). -/
def shareOf (s : State) (c slot space : Nat) : Nat × Nat :=
  ((imageOf s c slot).bind (fun im => tget? im.shares space)).getD (0, 0)

/-- The bytes at an offset of a Deck share on a logical core, or none when they run beyond it (R83). -/
def deckRead (s : State) (c slot core off n : Nat) : Option Bytes :=
  let sh := shareOf s c slot core
  if off + n ≤ sh.2 * 256 then some ((ramOf s (physOf s core)).read (sh.1 * 256 + off) n) else none

/-- A descriptor issues no further tile: all are issued, or it has stopped. -/
def cvIssuedAll (e : CvEntry) : Bool :=
  e.checked && (e.stop.isSome || decide ((CvDesc.parse (e.body.getD [])).count ≤ e.issued))

/-- The descriptor at the head of the held part of a queue that has not been checked: every one before it has
issued its last tile. -/
def cvHead (l : List CvEntry) : Option CvEntry := (l.take 64).find? (fun e => !cvIssuedAll e)

/-- The object that a handle names in a context. -/
def objOf (x : Ctx) (h : Nat) : Option Obj := tget? x.objs h

/-- The logical cores of a loaded image (R342). -/
def imageCores (im : Image) : List Nat := maskBits im.cores 8

/-! ## Where a tile lands (R206, R207) -/

/-- The rows of a tile that land, clipped (R206): `w` bytes of the first of each row's `n`. -/
def clipRows (rows n w : Nat) (t : Bytes) : Bytes :=
  (List.range rows).flatMap (fun r => slice t (r * n) (min n w))

/-- The landed rows of tile `i`: at most 64 (R204 EDGE_ROWS). -/
def cvRows (d : CvDesc) (i : Nat) : Nat := min 64 (d.rows i)

/-- Where the elements of tile `i` land, with their clipped bytes (R206): offset, pitch, row length, bytes. -/
def tilePlace (d : CvDesc) (i : Nat) (t : Bytes) : Nat × Nat × Nat × Bytes :=
  if d.pitch = 0 then (d.dstOff + i * 4096, 0, 0, t)
  else (d.dstOff + i / d.tpr * 64 * d.pitch + i % d.tpr * 64, d.pitch, d.rowBytes i,
    clipRows (cvRows d i) 64 (d.rowBytes i) t)

/-- The code bytes of a row that land (R207): the codes of the elements that land. -/
def codeRow (d : CvDesc) (i : Nat) : Nat :=
  let n := codesPerRow d.fmt
  if d.rowBytes i = 32 then n / 2 else n

/-- Where the code strip of tile `i` lands (R207). -/
def codePlace (d : CvDesc) (i : Nat) (st : Bytes) : Nat × Nat × Nat × Bytes :=
  let n := codesPerRow d.fmt
  let tpr := if d.pitch = 0 then 1 else d.tpr
  (d.codeDst + i / tpr * 64 * tpr * n + i % tpr * n, tpr * n, codeRow d i, clipRows (cvRows d i) n (codeRow d i) st)

/-! ## What a tile counts (R397) -/

/-- The stored length of tile `i` of an access of an object (R186, R397). -/
def storedTile (s : State) (x : Ctx) (o : Obj) (i : Nat) : Nat :=
  if o.upper.isSome then 4096 else homeTileLen s x o i

/-- The tier at which a Convoy access of an object takes place (R186). -/
def accessTier (o : Obj) : Nat := match o.upper with
  | some u => u.tier
  | none => o.homeTier

/-- Count a landed tile in BYTES (R397): stored bytes at an endpoint in T3 or T4, landed bytes otherwise; a
FILL has no source tier. A remote write counts in REMOTE_OUT alone (R727). -/
def countTile (s : State) (e : CvEntry) (d : CvDesc) (i landed : Nat) : State :=
  match tget? s.ctxs e.ctx with
  | none => s
  | some x =>
    let dst := if d.dstKind = 0 then objOf x d.dstHandle else none
    let src := if d.op ≠ 1 ∧ d.srcKind = 0 then objOf x d.srcHandle else none
    let td := match dst with
      | some o => accessTier o
      | none => if d.space = 8 then 2 else 1
    let ts := if d.op = 1 then td else match src with
      | some o => accessTier o
      | none => 1
    let n := match src, dst with
      | some o, _ => if 3 ≤ ts then storedTile s x o (d.srcOff + i)
          else match dst with
            | some w => if 3 ≤ td then storedTile s x w (d.dstOff + i) else landed
            | none => landed
      | none, some w => if 3 ≤ td then storedTile s x w (d.dstOff + i) else landed
      | none, none => landed
    countBytes s e.ctx ts td n

/-! ## The Span banks of a tile (R236) -/

/-- The Span banks of an object's expanded tile `i`, where its access takes place in T2 (R186). -/
def objBanks (o : Obj) (i : Nat) : List Nat :=
  match o.upper with
  | some u => if u.tier = 2 then runBanks [(u.loc * 256 + i * 4096, 4096)] else []
  | none => if o.homeTier = 2 then runBanks [(o.home * 256 + i * 4096, 4096)] else []

/-- The Span banks that tile `i` of a descriptor reads from. -/
def tileReads (x : Ctx) (d : CvDesc) (i : Nat) : List Nat :=
  if d.op ≠ 1 ∧ d.srcKind = 0 then ((objOf x d.srcHandle).map (fun o => objBanks o (d.srcOff + i))).getD [] else []

/-- The Span banks that a placed run of rows lands in, in a window whose first row is `base`. -/
def placeBanks (base : Nat) (w : Nat × Nat × Nat × Bytes) : List Nat :=
  landBanks base w.1 w.2.1 w.2.2.1 w.2.2.2.length

/-- The Span banks that tile `i` of a descriptor lands in, with its code strip. -/
def tileLands (s : State) (x : Ctx) (e : CvEntry) (d : CvDesc) (i : Nat) : List Nat :=
  if d.dstKind = 0 then ((objOf x d.dstHandle).map (fun o => objBanks o (d.dstOff + i))).getD []
  else if d.dstKind = 1 ∧ d.space = 8 then
    match keyOf s e.ctx e.slot d.space d.win with
    | none => []
    | some k => placeBanks (winAt s k).base (tilePlace d i (zeros 4096)) ++
        (if d.codes then placeBanks (winAt s k).base (codePlace d i (zeros (64 * codesPerRow d.fmt))) else [])
  else []

/-- Every Span bank of tile `i` of an entry. -/
def tileBanks (s : State) (e : CvEntry) (i : Nat) : List Nat :=
  match e.body, tget? s.ctxs e.ctx with
  | some b, some x => tileReads x (CvDesc.parse b) i ++ tileLands s x e (CvDesc.parse b) i
  | _, _ => []

/-- An object at home in T4 takes part in a descriptor (R754). -/
def entryT4 (x : Ctx) (d : CvDesc) : Bool :=
  (((if d.srcKind = 0 then [d.srcHandle] else []) ++ (if d.dstKind = 0 then [d.dstHandle] else [])).filterMap (objOf x)).any
    (fun o => o.homeTier == 4 && o.upper.isNone)

end Sys2Proof.Machine
end

