-- ==== Sys2Proof/Machine/Votes.lean ====
section
/-!
DEFINITION. Power votes and the chip state (17): the votes each client holds, the domains they keep up, and
the state that follows from them.
-/

namespace Sys2Proof.Machine

/-! ## The votes held (R613) -/

/-- The cores of a context's running and dispatched job, from dispatch until completion (R613): those of its image's
CORE_MASK (R342). A
RUN that is only queued holds none (R374, R685). -/
def jobVote (x : Ctx) : Nat :=
  match x.job with
  | some j => maskOf (imageCores ((tget? x.images j.run.slot).getD {}))
  | none => 0

/-- The banks of the Span in which a context holds a share (R613). -/
def bankVote (x : Ctx) : Nat :=
  maskOf ((x.images.flatMap (fun e => match tget? e.2.shares 8 with
    | some (first, len) => (List.range 16).filter (fun b =>
        decide (0 < len) && decide (first < b * 8192 + 8192) && decide (b * 8192 < first + len))
    | none => [])).map (· + 16))

/-- The implicit votes of a context (R613). -/
def implicitVote (s : State) (c : Nat) (x : Ctx) : Nat :=
  jobVote x ||| bankVote x |||
  (if (ispsOn s).any (fun i => tget? s.cam.owners i == some c) then 2 ^ 8 else 0) |||
  (if s.aud.owner = some c ∧ bit (live s 0x0021_0058) 31 then 2 ^ 9 else 0)

/-- The start-up votes of R811: every CORE domain, ISP, AUDIO and PCIE. -/
def startupVote : Nat := 2 ^ 11 - 1

/-- The banks of the Span in which an accepted write lands. -/
def flightBanks (f : Flight) : List Nat :=
  if f.home = 9 then landBanks f.base f.off f.pitch f.row f.data.length else []

/-- The tile of a descriptor that a write carries, by physical core, queue, descriptor and tile. -/
def WriteFrom.tile? : WriteFrom → Option (Nat × Nat × Nat × Nat)
  | .convoy p q id i => some (p, q, id, i)
  | _ => none

/-- The tiles of a core's descriptor that hold tags: those not yet offered to their destination and those on their way to
land. -/
def tilesInFlight (s : State) (p q : Nat) (e : CvEntry) : List Nat :=
  let mine := fun (w : WriteFrom) => match w.tile? with
    | some (a, b, id, i) => if a = p ∧ b = q ∧ id = e.id then some i else none
    | none => none
  e.tiles.map Prod.fst ++ (s.flights.map (fun f => f.2.src) ++ s.waitHdrs.map Prod.snd).filterMap mine

/-- The Span banks of the tiles of a queue (R236): those in flight, and the next one of the descriptor at its head, whose
votes are registered before its source read is issued. -/
def queueBanks (s : State) (p q : Nat) (held issuing : List CvEntry) : List Nat :=
  (held ++ issuing).flatMap (fun e => (tilesInFlight s p q e).flatMap (tileBanks s e)) ++
    (match cvHead issuing with
     | some e => if e.checked then tileBanks s e e.issued else []
     | none => [])

/-- Convoy's votes (R236): the Span banks that a tile reads from or lands in, and PCIE while a tile of an object in T4 is in
flight (R754). -/
def convoyVotes (s : State) : List Vote :=
  let held := fun (k : Core) (q : Nat) => k.saved.flatMap (fun v => tget v.2 [] q)
  let banks := (s.flights.flatMap (fun f => flightBanks f.2) ++ s.fwWaits.flatMap FwWait.banks ++
    s.cores.flatMap (fun k => (List.range 4).flatMap (fun q => queueBanks s k.1 q (held k.2 q) (tget k.2.convoy [] q)))).dedup
  let t4 := s.cores.any (fun k => (List.range 4).any (fun q => (held k.2 q ++ tget k.2.convoy [] q).any (fun e =>
    decide (e.landed < e.issued) && (match e.body, tget? s.ctxs e.ctx with
      | some b, some x => entryT4 x (CvDesc.parse b)
      | _, _ => false))))
  banks.map (fun b => { cls := 5, id := b, domains := 2 ^ (16 + b) : Vote }) ++
    (if t4 then [{ cls := 5, id := 16, domains := 2 ^ 10 }] else [])

/-- The lowest logical core in service that a context is granted. -/
def servingCore (s : State) (c : Nat) : Option Nat :=
  (maskBits ((tget? s.ctxs c).map Ctx.cores |>.getD 0) 8).find? (fun n => !s.fenced.contains n)

/-- The cores on whose firmware queues an upper copy is written or read: the one whose Deck holds it, or the context's lowest
core in service (DESIGN CHOICE, entry 100). -/
def upperCores (s : State) (c : Nat) (u : Upper) : List Nat := if u.tier = 1 then [u.core] else (servingCore s c).toList

/-- The cores that the copies of a park, an unload or a bring-in about to be made need (R391, R393, R812). -/
def parkCores (s : State) (c : Nat) (x : Ctx) : List Nat :=
  if x.parking.isSome then x.objs.flatMap (fun e => match e.2.upper with
    | some u => if u.tier ≤ 2 ∧ e.2.dirty then upperCores s c u else []
    | none => [])
  else if !x.unloading.isEmpty then x.unloading.flatMap (fun u => match tget? x.images u.1 with
    | some im => x.objs.flatMap (fun e => match e.2.upper with
      | some w => if e.2.dirty ∧ inShare im e.2 then upperCores s c w else []
      | none => [])
    | none => [])
  else if x.st = .parked ∧ !x.runQ.isEmpty then
    x.parked.uppers.flatMap (fun u => upperCores s c { tier := u.2.1, core := u.2.2 })
  else []

/-- The cores that a context's zero-fills in progress need (R812): none for a fill that is held (R622). -/
def fillCores (s : State) (c : Nat) (x : Ctx) : List Nat :=
  if x.fills.all (fun e => fillHeld s c e.1) then [] else (servingCore s c).toList

/-- The logical cores with firmware work (R812): on their firmware queues, in commands that wait for them, in a park, a
bring-in or a zero-fill. -/
def firmwareCores (s : State) : List Nat :=
  let asked := s.fwWaits.flatMap FwWait.cores ++ s.ctxs.flatMap (fun e => parkCores s e.1 e.2 ++ fillCores s e.1 e.2)
  (List.range 8).filter (fun n => asked.contains n || !(tget (coreOf s (physOf s n)).convoy [] 3).isEmpty)

/-- Every vote held, as (class, ID, domains), in ascending class. -/
def allVotes (s : State) : List Vote :=
  let held := s.ctxs.map (fun e => { cls := 0, id := e.1, domains := implicitVote s e.1 e.2 : Vote }) ++ s.pwr.votes ++
    convoyVotes s ++
    (s.aud.casRuns.flatMap (fun e => (e.2.vote.toList ++ e.2.lingers).map (fun v =>
      { cls := v.1, id := v.2.1, domains := v.2.2 : Vote }))) ++
    (if s.pwr.startup then [{ cls := 6, id := 0, domains := startupVote }] else []) ++
    (if (firmwareCores s).isEmpty then [] else [{ cls := 6, id := 0, domains := maskOf (firmwareCores s) }])
  (List.range 8).flatMap (fun k => held.filter (fun v => v.cls == k && v.domains != 0))

/-- The domains that at least one vote names. -/
def votedMask (s : State) : Nat := (allVotes s).foldl (fun m v => m ||| v.domains) 0

/-- The ISP, AUDIO and PCIE domains come up with their first vote (R615). A CORE domain comes up 150 µs after
it (CORE_POWER_UP_COMPLETE) and a Span bank with SPAN_BANK_POWER_UP. -/
def syncUp (s : State) : State :=
  { s with pwr := { s.pwr with up := s.pwr.up ||| (votedMask s &&& (7 <<< 8)) } }

/-! ## Chip state (R610, R616) -/

/-- The state code of R610. -/
def chipState (s : State) : Nat :=
  match s.pwr.mode with
  | .deep => 3
  | .off => 4
  | .awake =>
    if s.pwr.startup then 0
    else if (List.range 8).any (fun n => bit s.pwr.up n && !bit s.pwr.gated n) then 0
    else if s.pwr.up % 2 ^ 11 ≠ 0 then 1
    else 2

/-- CLK_LOCK: the PLLs that run are locked (R760, R762). PLL_A and PLL_C run in RUN and IDLE, PLL_P while the PCIE domain
is up. -/
def locks (s : State) : Nat :=
  s.rst.lock &&& (0xF3 + (if chipState s ≤ 1 then 0xC else 0) + (if bit s.pwr.up 10 then 0x100 else 0))

/-- Report a change of the chip state, if there was one (R610, R635). -/
def stateChanged (old : Nat) (s : State) : State :=
  if chipState s = old then s else emitDev s .pwrStateChange (leBytes 1 (chipState s))

/-! ## The refusal log (R632) -/

/-- Write an entry of the refusal log: kind 1 refused, 2 aborted, 3 descent cancelled. -/
def logRefusal (s : State) (kind target cls id : Nat) : State :=
  let p := s.pwr
  { s with pwr := { p with
      log := tset p.log p.logHead { kind := kind, target := target, cls := cls, id := id, hours := s.rel.odo.hours },
      logHead := (p.logHead + 1) % 16,
      refused := if kind = 1 then min (p.refused + 1) (2 ^ 32 - 1) else p.refused,
      aborted := if kind = 1 then p.aborted else min (p.aborted + 1) (2 ^ 32 - 1) } }

/-- Abort an entry to DEEP or OFF before step 5 (R623): the save is discarded, the aborting client is logged, and an ENTER not yet
answered is refused with it. -/
def abortEntry (s : State) (cls id : Nat) : State :=
  match s.pwr.entry with
  | none => s
  | some e =>
    let s1 := logRefusal { s with pwr := { s.pwr with entry := none, saved := none } } 2 e.target cls id
    match e.req with
    | some rq => replyD s1 rq 0x0190 .refused .pwrRefused (leBytes 1 cls ++ zeros 1 ++ leBytes 2 id)
    | none => s1

/-- A vote for any of domains [10:0] aborts an entry in progress (R623). -/
def voteCast (s : State) (cls id mask : Nat) : State :=
  syncUp (if mask % 2 ^ 11 ≠ 0 then abortEntry s cls id else s)

/-- The automatic descent to SLEEP runs (R615, R616): no vote names domains [10:0] and one of them is still up. -/
def descending (s : State) : Bool :=
  decide (s.pwr.mode = .awake) && decide (votedMask s % 2 ^ 11 = 0) && decide (s.pwr.up % 2 ^ 11 ≠ 0)

/-- A vote newly cast for one of domains [10:0] cancels the descent that ran before it, in `old`; the log records it (R632). -/
def cancelFrom (old s : State) (cls id mask : Nat) : State :=
  if descending old ∧ mask % 2 ^ 11 ≠ 0 then logRefusal s 3 2 cls id else s

/-- A vote about to be cast cancels the descent in progress. -/
def cancelDescent (s : State) (cls id mask : Nat) : State := cancelFrom s s cls id mask

/-- A wake source in DEEP (R626, R791): the exit starts, at the end of the minimum low time of PWR_MAIN_EN if that
still runs. -/
def wakeSource (s : State) : State :=
  match s.pwr.mode with
  | .deep => { s with pwr := { s.pwr with wake := true, mainEn := s.pwr.mainEn || !s.pwr.mainMin } }
  | _ => s

/-- Add a vote to those held. -/
def castVote (s0 : State) (cls id mask : Nat) : State :=
  let s := cancelDescent s0 cls id mask
  let vs := s.pwr.votes
  let vs1 := if vs.any (fun v => v.cls == cls && v.id == id)
    then vs.map (fun v => if v.cls = cls ∧ v.id = id then { v with domains := v.domains ||| mask } else v)
    else vs ++ [{ cls := cls, id := id, domains := mask }]
  voteCast { s with pwr := { s.pwr with votes := vs1 } } cls id mask

/-- Take a vote away from those held. -/
def dropVote (s : State) (cls id mask : Nat) : State :=
  let vs := s.pwr.votes.map (fun v => if v.cls = cls ∧ v.id = id
    then { v with domains := v.domains &&& ((2 ^ 32 - 1) ^^^ mask) } else v)
  { s with pwr := { s.pwr with votes := vs.filter (fun v => v.domains != 0) } }

end Sys2Proof.Machine
end

