-- ==== Sys2Proof/Machine/RegCheck.lean ====
section
/-!
DEFINITION. The checks of a commit and of an enable (21, R746 and each block's own), on a page's shadows.
-/

namespace Sys2Proof.Machine

/-- A check: the reason that holds when the condition fails. -/
abbrev Check := Bool × Reason

/-- The reason of the first failed check. -/
def firstFail (l : List Check) : Option Reason := (l.find? (fun c => !c.1)).map Prod.snd

/-- A number lies in a range. -/
def within (v lo hi : Nat) : Bool := decide (lo ≤ v) && decide (v ≤ hi)

/-! ## CAMERA and ISP (R405, R406, R420, R423, R434 to R436) -/

/-- Image data types of R405. -/
def imageDts : List Nat := [0x2A, 0x2B, 0x2C, 0x2D, 0x1E]

/-- The enabled streams. -/
def strsOn (s : State) : List Nat := (List.range 8).filter (fun m => pageOn s (strPage m))

/-- The Layby bytes of a stream's slots (R403): RAW8 takes 1 byte per sample and every other type 2. -/
def laybyBytes (src size : Nat) : Nat :=
  let dt := bits src 19 14
  (bits src 13 12 + 1) * (size / 2 ^ 16) * (size % 2 ^ 16) * (if dt = 0x2A then 1 else 2)

/-- The checks of a receiver's enable. -/
def rxChecks (s : State) (p : Nat) : List Check :=
  let phy := shadow s (p + 8)
  let map := (List.range 4).map (fun i => bits (shadow s (p + 0xC)) (2 * i + 6) (2 * i + 5))
  [(within (bits phy 19 8) 80 2500 && decide (bits phy 7 6 ≠ 3) && decide (map.dedup.length = 4), .camRxParam)]

/-- The checks of a stream's values. -/
def strChecks (s : State) (p : Nat) : List Check :=
  let src := shadow s (p + 8)
  let w := shadow s (p + 0xC) % 2 ^ 16
  let h := shadow s (p + 0xC) / 2 ^ 16
  [(imageDts.contains (bits src 19 14) && within w 16 4096 && decide (w % 4 = 0) && within h 16 8192 &&
    decide (bits src 13 12 ≠ 0) && decide (bits src 9 8 ≠ 3), .camStreamParam)]

/-- The checks of a stream's enable: one image data type per virtual channel (R405), no triple twice (R406), its receiver
enabled (R436), and room in the Layby (R403). -/
def strEnableChecks (s : State) (p : Nat) : List Check :=
  let src := shadow s (p + 8)
  let others := (strsOn s).map strPage
  strChecks s p ++
  [(others.all (fun q => bits (live s (q + 8)) 25 20 != bits src 25 20 || bits (live s (q + 8)) 19 14 == bits src 19 14),
    .camStreamParam),
   (others.all (fun q => decide (bits (live s (q + 8)) 25 14 ≠ bits src 25 14)), .camStreamDup),
   (pageOn s (rxPage (bits src 25 24)), .ispSource),
   (decide ((others.map (fun q => laybyBytes (live s (q + 8)) (live s (q + 0xC)))).sum +
      laybyBytes src (shadow s (p + 0xC)) ≤ 128 * 2 ^ 20), .camLayby)]

/-- The units of a frame (R419, R423). -/
def unitsOf (source h : Nat) : Nat := if bit source 8 then ceilDiv h (bits source 26 16) else 1

/-- The ICLK cycles per 100 s that an ISP context asks for (R423), times 4. -/
def ispLoad (source rate size : Nat) : Nat :=
  let w := size % 2 ^ 16
  let h := size / 2 ^ 16
  let n := unitsOf source h
  rate * (w * (h + 8 * (n - 1)) + 4096 * n)

/-- The load of an enabled ISP context from its live registers. -/
def ispLoadOf (s : State) (c : Nat) : Nat :=
  let source := live s (ispPage c + 0xC)
  ispLoad source (live s (ispPage c + 0x10) % 2 ^ 16) (live s (strPage (source % 8) + 0xC))

/-- The rota entries that serve an ISP context. -/
def rotaEntries (reg : Nat → Nat) (c : Nat) : Nat :=
  let len := bits (reg 0x0020_0010) 21 16
  ((List.range len).filter (fun k => let e := reg (0x0020_0080 + 4 * k); bit e 4 && e % 16 == c)).length

/-- Admission of an ISP context under ROTA (R420, R423). -/
def rotaFits (reg : Nat → Nat) (c source rate size : Nat) : Bool :=
  let sched := reg 0x0020_0010
  let w := size % 2 ^ 16
  let h := size / 2 ^ 16
  let n := unitsOf source h
  let slot := sched % 2 ^ 16 * 64
  let band := bits source 26 16
  let rows := fun (k : Nat) => min h ((k + 1) * band + 4) - (k * band - 4)
  let len := bits sched 21 16
  bit source 8 && decide (0 < rotaEntries reg c) && (List.range n).all (fun k => decide (w * rows k + 4096 ≤ 4 * slot)) &&
    decide (rate * n * (len * slot) ≤ rotaEntries reg c * 600000000 * 100)

/-- The rows and bytes one buffer of an output takes (R435): its PITCH, PLANE and BUF_STRIDE hold it. -/
def bufferOk (r : Nat → Nat) (o : Nat) : Bool :=
  let b := 0x100 + 0x40 * o
  let ctl := r b
  let ow := r (b + 0x20) % 2 ^ 16
  let oh := r (b + 0x20) / 2 ^ 16
  let pitch := r (b + 0x10) % 2 ^ 24
  let plane := r (b + 0x14)
  let stride := r (b + 0xC)
  let fmt := bits ctl 30 28
  let one := match o with
    | 0 => if fmt = 0 then 4 else 2
    | 1 => if fmt = 0 then 1 else 2
    | _ => if fmt = 0 then 1 else 2
  let chs := if bits ctl 23 22 = 2 then 1 else 3
  let row := match o with
    | 2 => if bits ctl 25 24 = 1 then ow * one * chs else ow * one
    | _ => ow * one
  let used := match o with
    | 0 => oh * pitch
    | 1 => plane + oh / 2 * pitch
    | _ => if bits ctl 25 24 = 1 then oh * pitch else (chs - 1) * plane + oh * pitch
  let planeOk := match o with
    | 0 => true
    | 1 => decide (oh * pitch ≤ plane)
    | _ => bits ctl 25 24 == 1 || chs == 1 || decide (oh * pitch ≤ plane)
  decide (row ≤ pitch) && planeOk && decide (used ≤ stride)

/-- The crop and size of an output (R427, R435). -/
def cropOk (r : Nat → Nat) (o w h : Nat) : Bool :=
  let b := 0x100 + 0x40 * o
  let lo := fun (a : Nat) => r a % 2 ^ 16
  let hi := fun (a : Nat) => r a / 2 ^ 16
  let (cx, cy, cw, ch) := (lo (b + 0x18), hi (b + 0x18), lo (b + 0x1C), hi (b + 0x1C))
  let (ow, oh) := (lo (b + 0x20), hi (b + 0x20))
  decide (0 < ow) && decide (0 < oh) && decide (ow ≤ cw) && decide (cw ≤ 16 * ow) && decide (oh ≤ ch) &&
    decide (ch ≤ 16 * oh) && decide (cx + cw ≤ w) && decide (cy + ch ≤ h)

/-- An output's formats and counts lie in their ranges (R434). -/
def outRangeOk (r : Nat → Nat) (o : Nat) : Bool :=
  let b := 0x100 + 0x40 * o
  let ctl := r b
  decide (bits ctl 30 28 ≤ 1) && decide (bits ctl 27 26 ≤ 1) && decide (bits ctl 25 24 ≤ (if o = 1 then 2 else 1)) &&
    decide (bits ctl 23 22 ≤ 2) && within (bits ctl 19 16) 1 8 && decide (r (b + 8) % 32 = 0) && decide (r (b + 0x10) % 16 = 0)

/-- A window destination lies in the allotment of one of the owner's images (R155). -/
def destOk (s : State) (c dest : Nat) : Bool :=
  (entryOf s c (bits dest 17 16) (bits dest 29 26) (bits dest 15 8)).isSome

/-- An object destination meets R418. -/
def objDestOk (s : State) (c h : Nat) : Bool :=
  match (tget? s.ctxs c).bind (fun x => tget? x.objs h) with
  | some o => o.homeTier == 3 && o.coding == 0 && o.upper.isNone
  | none => false

/-- The checks of an ISP context's commit (R435, R440). -/
def ispChecks (s : State) (i : Nat) : List Check :=
  let p := ispPage i
  let r := fun (o : Nat) => shadow s (p + o)
  let size := live s (strPage (r 0xC % 8) + 0xC)
  let on := [0, 1, 2].filter (fun o => bit (r (0x100 + 0x40 * o)) 31)
  let owner := tget? s.cam.owners i
  [(within (bits (r 0xC) 26 16) 16 1024 && decide (bits (r 0xC) 26 16 % 16 = 0) &&
    within (r 0x10 % 2 ^ 16) 1 24000 && decide (bits (r 0x18) 27 24 ≠ 0) && decide (r 0x18 % 256 = 0) && decide (r 0x1C ≤ 4096) &&
    on.all (outRangeOk r), .ispGeometry),
   (on.all (fun o => cropOk r o (size % 2 ^ 16) (size / 2 ^ 16)), .ispGeometry),
   (on.all (bufferOk r), .ispGeometry),
   (match owner with
    | none => true
    | some c => destOk s c (r 0x14) && on.all (fun o =>
        let ctl := r (0x100 + 0x40 * o)
        if bits ctl 27 26 = 0 then objDestOk s c (ctl % 2 ^ 16) else destOk s c (r (0x104 + 0x40 * o))), .ispDest)]

/-- The checks of an ISP context's enable (R423, R436). -/
def ispEnableChecks (s : State) (i : Nat) : List Check :=
  let r := fun (o : Nat) => shadow s (ispPage i + o)
  let st := r 0xC % 8
  let size := live s (strPage st + 0xC)
  let sched := live s 0x0020_0010
  [((tget? s.cam.owners i).isSome && pageOn s (strPage st), .ispSource)] ++ ispChecks s i ++
  (if bit sched 31 then
    [(rotaFits (live s) i (r 0xC) (r 0x10 % 2 ^ 16) size, .ispRota)]
   else [(decide ((((ispsOn s).filter (· ≠ i)).map (ispLoadOf s)).sum + ispLoad (r 0xC) (r 0x10 % 2 ^ 16) size ≤
      570000000 * 100 * 4), .ispOvercommit)])

/-- The checks of the block page's commit: ROTA_LEN, SLOT, and ROTA's conditions on the enabled contexts (R420). -/
def schedChecks (s : State) : List Check :=
  let sched := shadow s 0x0020_0010
  [(within (sched % 2 ^ 16) 16 16384 && (!bit sched 31 || within (bits sched 21 16) 1 32), .ispGeometry),
   (!bit sched 31 || (ispsOn s).all (fun c =>
      let source := live s (ispPage c + 0xC)
      rotaFits (shadow s) c source (live s (ispPage c + 0x10) % 2 ^ 16) (live s (strPage (source % 8) + 0xC))), .ispRota)]

/-! ## AUDIO and WAYSIDE (R445, R478, R479) -/

/-- The bytes of a block: its header and samples (R450). -/
def blockBytes (path channels ms : Nat) : Nat := 32 + (if path = 0 then 16 * 2 else 48 * 4) * ms * channels

/-- The stride of blocks (R451). -/
def blockStride (path channels ms : Nat) : Nat := roundUp (blockBytes path channels ms) 256

/-- The count of bits set. -/
def popcount (n : Nat) : Nat := (maskBits n 32).length

/-- The whole buffer ring of an enabled output lies within its window (R479). -/
def audRingOk (s : State) (path : Nat) : Bool :=
  let b := 0x0021_0040 + 0x10 * path
  let blk := shadow s (b + 8)
  if !bit blk 31 then true
  else match s.aud.owner with
    | none => false
    | some c =>
      let d := shadow s b
      match keyOf s c (bits d 17 16) (bits d 29 26) (bits d 15 8) with
      | none => false
      | some k =>
        let w := winAt s k
        let ch := popcount (bits (shadow s 0x0021_0010) 23 16)
        decide (shadow s (b + 4) % 256 = 0) && w.state != .closed &&
          decide (shadow s (b + 4) + bits blk 23 16 * blockStride path ch (blk % 256) ≤ (w.limit - w.base) * 256)

/-- The checks of the audio page's commit. -/
def audChecks (s : State) : List Check :=
  let pdm := shadow s 0x0021_0010
  let blkOk := fun (b : Nat) => within (bits b 23 16) 1 64 && within (b % 256) 10 100 && b % 256 % 10 == 0
  [([8, 12, 16, 24].contains (bits pdm 4 0) && blkOk (shadow s 0x0021_0048) && blkOk (shadow s 0x0021_0058), .audParam),
   (audRingOk s 0 && audRingOk s 1, .audGeometry)]

/-- The checks of the audio page's enable. -/
def audEnableChecks (s : State) : List Check :=
  let pdm := shadow s 0x0021_0010
  [(decide (bits pdm 23 16 ≠ 0), .audParam)] ++ (audChecks s).take 1 ++
  [(!bit pdm 24 || bits pdm 4 0 == 8 || bits pdm 4 0 == 16, .audHqClock)] ++ (audChecks s).drop 1

/-- The checks of the Wayside page. -/
def wayChecks (s : State) : List Check :=
  [(decide (shadow s 0x0021_1010 % 256 ≠ 0) && within (shadow s 0x0021_1014 % 2 ^ 16) 100 10000 &&
    decide (shadow s 0x0021_1018 % 2 ^ 12 ≤ 2000), .audParam)]

/-! ## GUARDRAIL (R504) -/

/-- The bytes of a slot's frame on the bus: its command bytes, 8 response bytes, and the CRC byte. -/
def grdFrameBytes (slot : Nat) : Nat := bits slot 19 16 + 8 + (if bit slot 30 then 1 else 0)

/-- The enabled sensor slots, from a reading of the registers. -/
def grdSlots (r : Nat → Nat) : List Nat := (List.range 4).filter (fun n => bit (r (0x0022_0080 + 0x10 * n)) 31)

/-- The fields of the GUARDRAIL page lie in their ranges (R503). -/
def grdRangesOk (s : State) : Bool :=
  let r := shadow s
  within (bits (r 0x0022_0060) 15 8) 5 250 && within (r 0x0022_0100 % 2 ^ 16) 100 50000 &&
    (List.range 4).all (fun n =>
      let slot := r (0x0022_0080 + 0x10 * n)
      let stale := r (0x0022_008C + 0x10 * n) / 2 ^ 16
      within (bits slot 19 16) 1 8 && within (slot % 2 ^ 16) 50 65535 && within stale 100 65535 &&
        decide (slot % 2 ^ 16 < stale))

/-- The checks of Guardrail's enable: a frame takes 16 × CLK_DIV GCLK cycles a byte at 500 MHz. -/
def grdEnableChecks (s : State) : List Check :=
  let r := shadow s
  let slots := grdSlots r
  let div := bits (r 0x0022_0060) 15 8
  let period := fun (n : Nat) => r (0x0022_0080 + 0x10 * n) % 2 ^ 16
  let total := (slots.map (fun n => grdFrameBytes (r (0x0022_0080 + 0x10 * n)) * 16 * div)).sum
  [(s.grd.weights.isSome && (decide (slots ≠ []) || (List.range 8).any (fun i => decide (r (0x0022_0040 + 4 * i) % 16 ≠ 0))), .grdNotReady),
   (grdRangesOk s && slots.all (fun n => decide (total ≤ period n * 500)), .grdParam)]

/-! ## The other blocks -/

/-- The checks of the Ethernet page (R746). -/
def ethChecks (s : State) : List Check :=
  let v := shadow s 0x0023_0040
  let a4 := shadow s 0x0023_0014
  let m4 := shadow s 0x0023_0018
  let six := fun (b : Nat) => (List.range 4).map (fun w => shadow s (b + 4 * w))
  let unicast4 := fun (a : Nat) => decide (a / 2 ^ 28 ≠ 0xE) && decide (a ≠ 2 ^ 32 - 1)
  let unicast6 := fun (b : Nat) => decide (shadow s b / 2 ^ 24 ≠ 0xFF)
  [(decide (shadow s 0x0023_0010 % 2 ^ 16 ≠ 0), .ethCfgParam),
   ((!bit v 31 || within (bits v 27 16) 1 4094) && (!bit v 15 || within (bits v 11 0) 1 4094), .ethCfgParam),
   (unicast4 a4 && unicast4 m4 && unicast6 0x0023_0020 && unicast6 0x0023_0030 &&
    (decide (a4 ≠ m4) || a4 == 0) && (decide (six 0x0023_0020 ≠ six 0x0023_0030) || (six 0x0023_0020).all (· == 0)), .ethCfgParam)]

/-- Crossing entry `k` of the shadows or of the live registers. -/
def crossingAt (r : Nat → Nat) (k : Nat) : Crossing :=
  let a := r (0x0023_0500 + 8 * k)
  let b := r (0x0023_0504 + 8 * k)
  { devA := bits a 26 24, ctxA := bits a 8 0, devB := bits b 26 24, ctxB := bits b 8 0, mirror := bit a 30 }

/-- The valid crossing entries. -/
def validCrossings (r : Nat → Nat) : List Nat := (List.range 64).filter (fun k => bit (r (0x0023_0500 + 8 * k)) 31)

/-- Two crossings pair one (device, context) with the same other device (R714). -/
def crossClash (x y : Crossing) : Bool :=
  let ends := fun (c : Crossing) => [(c.devA, c.ctxA, c.devB), (c.devB, c.ctxB, c.devA)]
  (ends x).any (fun e => (ends y).contains e)

/-- The checks of the set page's commit (R714). -/
def setChecks (s : State) : List Check :=
  let members := shadow s 0x0023_0410 % 256
  let vs := validCrossings (shadow s)
  [(decide (bits (shadow s 0x0023_0410) 31 30 ≠ 3), .setCrossingParam),
   (vs.all (fun k =>
      let c := crossingAt (shadow s) k
      decide (c.devA ≠ c.devB) && bit members c.devA && bit members c.devB && (!c.mirror || c.devA == 0) &&
        vs.all (fun j => j == k || !crossClash c (crossingAt (shadow s) j))), .setCrossingParam)]

/-- The checks of the set page's enable (R734). -/
def setEnableChecks (s : State) : List Check :=
  let cfg := shadow s 0x0023_0410
  let role := bits cfg 31 30
  let idx := bits cfg 26 24
  [((role != 1 || idx == 0) && (role != 2 || idx != 0) && bit cfg idx && bit cfg 0, .setCrossingParam)] ++ setChecks s

/-- The DDR4 slots that Sealed partitions hold. -/
def sealedSlots (s : State) : Nat := (s.ctxs.map (fun e => e.2.ddrSlots)).sum

/-- The checks of the POWER page (R631, R633). -/
def pwrChecks (s : State) : List Check :=
  let w := shadow s 0x0002_0010 % 256
  [([15, 30, 45, 60].contains w, .pwrEnvelope),
   (decide (10 ≤ shadow s 0x0002_001C % 2 ^ 16), .pwrParam),
   (w != 15 || decide (sealedSlots s ≤ 16), .pwrEnvelope)]

/-- The checks of the DDR page's commit. -/
def ddrChecks (s : State) : List Check :=
  [((List.range 15).all (fun p => decide (5 ≤ shadow s (0x0003_8040 + 4 * p) % 2 ^ 16)) &&
    decide (50 ≤ shadow s 0x0003_8080 % 2 ^ 16), .ddrConfig)]

/-- The channels a mask populates. -/
def ddrMask (s : State) : Nat := bits (shadow s 0x0003_8010) 31 24

/-- The timing fields of a channel, by the number that `Config.jedecMin` gives each (R607). -/
def timingFields (s : State) (n : Nat) : List (Nat × Nat) :=
  let t0 := shadow s (0x0003_0010 + 0x1000 * n)
  let t1 := shadow s (0x0003_0014 + 0x1000 * n)
  let t2 := shadow s (0x0003_0018 + 0x1000 * n)
  [(0, bits t0 31 24), (1, bits t0 23 16), (2, bits t0 15 8), (3, bits t0 7 0), (4, bits t1 31 24), (5, bits t1 23 16),
   (6, bits t1 15 8), (7, bits t1 7 4), (8, bits t1 3 0), (9, bits t2 21 16), (10, bits t2 15 10)]

/-- The consistency check of DDR_CTRL.ENABLE (R608). -/
def ddrEnableChecks (s : State) : List Check :=
  let cfg := shadow s 0x0003_8010
  let bin := bits cfg 23 20
  let chans := maskBits (ddrMask s) 8
  let trfc := fun (n : Nat) => bits (shadow s (0x0003_0018 + 0x1000 * n)) 31 22
  [(ddrMask s == 0xFF || ddrMask s == 0x0F, .ddrConfig),
   (decide (bin ≤ 3) && decide (bits cfg 19 18 ≤ 1) && decide (bits cfg 17 16 ≤ 2), .ddrConfig),
   (chans.all (fun n => decide (Config.jedecTrfc bin (bits cfg 17 16) ≤ trfc n) && decide (trfc n ≤ 1024)), .ddrConfig),
   (chans.all (fun n => (timingFields s n).all (fun f => decide (Config.jedecMin bin f.1 ≤ f.2))), .ddrConfig),
   (chans.all (fun n => [0x10, 0x14, 0x18].all (fun o => shadow s (0x0003_0000 + 0x1000 * n + o) == shadow s (0x0003_0000 + o))), .ddrConfig),
   (!bit cfg 14 || bit (field s.rst.board 0 4) 0, .ddrConfig)] ++ ddrChecks s

/-- The checks of the ODOMETER and TRAFFIC, and RELIABILITY pages (R704, R705). -/
def relChecks (s : State) (p : Nat) : List Check :=
  if p = 0x0026_0000 then
    [((List.range 8).all (fun w =>
        let e := shadow s (0x0026_0040 + 4 * w)
        decide (bits e 27 24 ≤ 8) && (bits e 27 24 == 8 || decide (e % 256 ≤ 63))), .relParam)]
  else
    [(decide (1 ≤ shadow s 0x0027_0050 % 256) && within (shadow s 0x0027_0060 % 256) 1 168 &&
      within (shadow s 0x0027_0074 % 2 ^ 16) 60 3600, .relParam)]

/-! ## All pages -/

/-- The block of a page or an address. -/
def blockOf (a : Nat) : Nat := a / 0x1_0000

/-- The checks of a commit of a page (R741). -/
def commitChecks (s : State) (p : Nat) : List Check :=
  match blockOf p with
  | 0x01 => [(decide (shadow s 0x0001_0010 % 4 ≠ 3), .rstParam)]
  | 0x02 => pwrChecks s
  | 0x03 => ddrChecks s
  | 0x20 =>
    if p = 0x0020_0000 then schedChecks s
    else if p < 0x0020_2000 then rxChecks s p
    else if p < 0x0020_3000 then strChecks s p
    else if p < 0x0020_8000 then
      [(within (bits (shadow s (p + 8)) 30 16) 100 1000 && within (shadow s (p + 8) % 2 ^ 16) 100 12500, .i3cParam)]
    else ispChecks s ((p - 0x0020_8000) / 0x800)
  | 0x21 => if p = 0x0021_0000 then audChecks s else wayChecks s
  | 0x22 => [(grdRangesOk s, .grdParam)]
  | 0x23 => if p = 0x0023_0000 then ethChecks s else setChecks s
  | 0x24 => [(decide (bits (shadow s 0x0024_0010) 3 2 ≠ 3), .pcieParam)]
  | 0x26 => relChecks s p
  | 0x27 => relChecks s p
  | _ => []

/-- The checks of an enable of a page (R748): every check of its values and its enable conditions. -/
def enableChecks (s : State) (p : Nat) : List Check :=
  match blockOf p with
  | 0x03 => ddrEnableChecks s
  | 0x20 =>
    if 0x0020_8000 ≤ p then ispEnableChecks s ((p - 0x0020_8000) / 0x800)
    else if 0x0020_2000 ≤ p ∧ p < 0x0020_3000 then strEnableChecks s p
    else commitChecks s p
  | 0x21 => if p = 0x0021_0000 then audEnableChecks s else wayChecks s
  | 0x22 => grdEnableChecks s
  | 0x23 => if p = 0x0023_0400 then setEnableChecks s else ethChecks s
  | _ => commitChecks s p

/-! ## Commits (R741 to R745) -/

/-- Record a refused commit, enable or disable (R738). -/
def setReason (s : State) (p : Nat) (r : Reason) : State := modPage s p (fun g => { g with cfgReason := r })

/-- The reply to a register write: the count written. -/
def regReply (s : State) (rq : Req) (op count : Nat) (r : Option Reason) : State :=
  let body := if r = none ∨ op = 0x0011 ∨ op = 0x0180 ∨ op = 0x0181 then leBytes 2 count ++ zeros 2 else []
  let ctx := if op = 0x0011 then 0 else rq.ctx
  match r with
  | none => replyAs s rq op ctx .ok .none body
  | some x => replyAs s rq op ctx (if x = .rstBusy then .busy else .refused) x body

/-- Tell the commands that wait for a page's commit of its outcome (R743, R744). -/
def tellWaits (s : State) (p : Nat) (r : Option Reason) : State :=
  let ws := s.regs.waits.map (fun (w : RegWait) => if w.left.contains p then
      { w with left := w.left.filter (· ≠ p), refusal := if w.refusal.isSome then w.refusal else r } else w)
  let ready := ws.filter (fun w => w.left.isEmpty)
  let s1 := { s with regs := { s.regs with waits := ws.filter (fun w => !w.left.isEmpty) } }
  ready.foldl (fun a w => regReply a w.req w.op w.count w.refusal) s1

/-- The checks and the transfer of a commit at its safe point (R741): the state, and the refusal if any. What
a block does with its new live values follows in `Registers`. -/
def takeCommit (s : State) (p : Nat) : State × Option Reason :=
  let s1 := modPage s p (fun g => { g with pending := false })
  match firstFail (commitChecks s p) with
  | some r => (setReason s1 p r, some r)
  | none => (pageLive s1 p, none)

end Sys2Proof.Machine
end

