-- ==== Sys2Proof/Machine/Camera.lean ====
section
/-!
DEFINITION. The camera path (11): reception into the Layby, turns on the ISP, a unit's outputs, the frame
record, presence, the privacy switch, ownership and I3C.
-/

namespace Sys2Proof.Machine

/-! ## Streams and frames -/

/-- A receiver's record. -/
def rxAt (s : State) (n : Nat) : CamRx := tget s.cam.rx {} n

/-- A stream's record. -/
def strAt (s : State) (m : Nat) : CamStr := tget s.cam.strs {} m

/-- Set a stream's record. -/
def setStr (s : State) (m : Nat) (x : CamStr) : State := { s with cam := { s.cam with strs := tset s.cam.strs m x } }

/-- Count in one of a receiver's error counters (R408), saturating. -/
def countErr (s : State) (n i : Nat) : State :=
  let x := rxAt s n
  let y := { x with errs := (List.range 5).map (fun k => min (x.errs.getD k 0 + ofBool (k == i)) (2 ^ 32 - 1)) }
  { s with cam := { s.cam with rx := tset s.cam.rx n y } }

/-- The fields of STRm_SRC and STRm_SIZE in force. -/
def strSrc (s : State) (m : Nat) : Nat := live s (strPage m + 8)
def strW (s : State) (m : Nat) : Nat := live s (strPage m + 0xC) % 2 ^ 16
def strH (s : State) (m : Nat) : Nat := live s (strPage m + 0xC) / 2 ^ 16

/-- The enabled stream of a receiver and virtual channel; its receiver is enabled. -/
def strOf (s : State) (rx vc : Nat) : Option Nat :=
  if pageOn s (rxPage rx) then
    (strsOn s).find? (fun m => bits (strSrc s m) 25 24 == rx && bits (strSrc s m) 23 20 == vc)
  else none

/-- The stream that an ISP context reads, and whether it is enabled. -/
def ispStream (s : State) (i : Nat) : Nat := live s (ispPage i + 0xC) % 8

/-- The enabled ISP contexts that a stream feeds. -/
def fedBy (s : State) (m : Nat) : List Nat := (ispsOn s).filter (fun i => ispStream s i == m)

/-- The units of an ISP context's frames, and the last row of one. -/
def ispUnits (s : State) (i : Nat) : Nat := unitsOf (live s (ispPage i + 0xC)) (strH s (ispStream s i))
def unitEnd (s : State) (i u : Nat) : Nat :=
  let source := live s (ispPage i + 0xC)
  let h := strH s (ispStream s i)
  if bit source 8 then min h ((u + 1) * bits source 26 16) else h

/-- Change a frame, found by stream and number. -/
def modFrame (s : State) (m no : Nat) (f : Frame → Frame) : State :=
  { s with cam := { s.cam with frames := s.cam.frames.map (fun g => if g.stream = m ∧ g.no = no then f g else g) } }

/-- A frame. -/
def frameOf (s : State) (m no : Nat) : Option Frame := s.cam.frames.find? (fun g => g.stream == m && g.no == no)

/-- The frame that a stream is receiving. -/
def openFrame (s : State) (m : Nat) : Option Frame := s.cam.frames.find? (fun g => g.stream == m && !g.whole)

/-! ## Writing for the ISP (R417, R430 to R432) -/

/-- Change an ISP context's progress on a frame. -/
def modUser (s : State) (i m no : Nat) (f : IspFrame → IspFrame) : State :=
  modFrame s m no (fun g => { g with users := g.users.map (fun u => if u.isp = i then f u else u) })

/-- An output is LOST for a frame (R431). -/
def loseOutput (s : State) (i m no o : Nat) : State := modUser s i m no (fun u => { u with lost := insertNum o u.lost })

/-- Offer a window write of an ISP context: a fate other than acceptance or waiting loses the output. -/
def ispWrite (s : State) (i m no o c dest off : Nat) (b : Bytes) : State :=
  let h : WinHdr :=
    { space := bits dest 29 26, ctx := c, slot := bits dest 17 16, win := bits dest 15 8, epoch := dest % 256,
      off := off, data := b, writer := .isp }
  match offerWrite s h (.isp i m no o) with
  | (s1, .accepted) => s1
  | (s1, .homeFull) => s1
  | (s1, _) => loseOutput s1 i m no o

/-- Write a block of an output: to the window of the owner in writes of at most 4 KiB, or to the home of its
object (R418, R430). -/
def outWrite (s : State) (i m no : Nat) (q : OutEnv) (off : Nat) (b : Bytes) : State :=
  match tget? s.cam.owners i with
  | none => s
  | some c =>
    let dest := live s (ispPage i + 0x104 + 0x40 * q.o)
    if bits q.ctl 27 26 = 1 then
      (split4k (b.length / 4096 + 1) off b).foldl (fun a w =>
        match (frameOf a m no).bind (fun g => g.users.find? (fun u => u.isp == i)) with
        | some u => if u.lost.contains q.o then a else ispWrite a i m no q.o c dest w.1 w.2
        | none => a) s
    else match (tget? s.ctxs c).bind (fun x => (tget? x.objs (q.ctl % 2 ^ 16)).map (fun o => (x, o))) with
      | some (x, o) => if objDestOk s c (q.ctl % 2 ^ 16) ∧ off + b.length ≤ storedBytes o then homeWrite s x o off b
          else loseOutput s i m no q.o
      | none => loseOutput s i m no q.o

/-- The whole buffer ring of an output lies within its window or object (R431). -/
def ringOk (s : State) (i o : Nat) : Bool :=
  let p := ispPage i
  let ctl := live s (p + 0x100 + 0x40 * o)
  let ends := live s (p + 0x108 + 0x40 * o) + bits ctl 19 16 * live s (p + 0x10C + 0x40 * o)
  let dest := live s (p + 0x104 + 0x40 * o)
  match tget? s.cam.owners i with
  | none => false
  | some c =>
    if bits ctl 27 26 = 1 then
      match keyOf s c (bits dest 17 16) (bits dest 29 26) (bits dest 15 8) with
      | some k => (winAt s k).state == .opened && decide (ends ≤ ((winAt s k).limit - (winAt s k).base) * 256)
      | none => false
    else match (tget? s.ctxs c).bind (fun x => tget? x.objs (ctl % 2 ^ 16)) with
      | some ob => objDestOk s c (ctl % 2 ^ 16) && decide (ends ≤ storedBytes ob)
      | none => false

/-- The enabled outputs of an ISP context whose buffer ring does not fit (R431). -/
def lostRings (s : State) (i : Nat) : List Nat :=
  [0, 1, 2].filter (fun o => bit (live s (ispPage i + 0x100 + 0x40 * o)) 31 && !ringOk s i o)

/-! ## Records (R432, R433) -/

/-- The environment of an ISP context. -/
def ispEnv (s : State) (i : Nat) : IspEnv :=
  let m := ispStream s i
  { w := strW s m, h := strH s m, yuv := bits (strSrc s m) 19 14 == 0x1E, yuvMatrix := bits (strSrc s m) 9 8,
    reg := fun o => live s (ispPage i + o) }

/-- The frame record (R433); `since` is DROPPED_SINCE. -/
def frameRecord (s : State) (g : Frame) (u : IspFrame) (d : RecDue) (since : Nat) : Bytes :=
  let fl := maskOf (d.flags ++ u.lost.map (· + 9) ++ (if d.trunc then [12] else []))
  leBytes 4 (2 ^ 24 + fl) ++ leBytes 4 (d.buf * 2 ^ 24 + u.isp * 2 ^ 16 + g.stream) ++ leBytes 8 g.no ++
  leBytes 8 g.tFs ++ leBytes 8 g.tFe ++ leBytes 8 (Config.freeTime s.draws) ++ leBytes 2 g.csi ++ leBytes 2 g.got ++
  leBytes 4 since ++ zeros 16

/-- The frames of its stream discarded since an ISP context's previous record (R424, R433). -/
def droppedSince (s : State) (i m : Nat) : Nat := (strAt s m).dropped - tget s.cam.told 0 i

/-- The count starts again: a record has been formed, or the ISP context or its stream enabled. -/
def tellDropped (s : State) (i m : Nat) : State :=
  { s with cam := { s.cam with told := tset s.cam.told i (strAt s m).dropped } }

/-- What an ISP context will write into its record slot for a frame (R432, R433), from its registers as the frame's last unit
leaves them: a later commit belongs to the next frame (R422). `end_` are the flags of the frame's end. -/
def recDue (s : State) (g : Frame) (u : IspFrame) (end_ : List Nat) : RecDue :=
  let r := fun (o : Nat) => live s (ispPage u.isp + o)
  let most := min (r 0x1C) 4096
  let rows := if u.unit = 0 then 0 else unitEnd s u.isp (u.unit - 1)
  let e := ispEnv s u.isp
  { dest := r 0x14, off := r 0x18 % 2 ^ 24 + g.no % bits (r 0x18) 27 24 * 6144,
    emb := g.emb.take most, trunc := decide (most < g.emb.length),
    stats := ispStats e (ispCcm e (ispPlanes e g.lines)) rows, buf := g.no % bits (r 0x100) 19 16, flags := g.flags ++ end_ }

/-- Write an ISP context's record slot for a frame through its record window (R145, R417, R432): embedded data at 0x800, the
statistics at 0x40, and last the record, whose write alone counts an arrival (entry 110). -/
def writeRecord (s : State) (g : Frame) (u : IspFrame) (d : RecDue) : State :=
  match tget? s.cam.owners u.isp with
  | none => s
  | some c =>
    let put := fun (a : State) (at_ o : Nat) (b : Bytes) =>
      let h : WinHdr :=
        { space := bits d.dest 29 26, ctx := c, slot := bits d.dest 17 16, win := bits d.dest 15 8, epoch := d.dest % 256,
          off := d.off + at_, data := b, writer := .isp }
      if b.isEmpty then a else (offerWrite a h (.isp u.isp g.stream g.no o)).1
    let body := frameRecord s g u d (droppedSince s u.isp g.stream)
    put (put (put (tellDropped (draw s) u.isp g.stream) 0x800 4 d.emb) 0x40 4 d.stats) 0 3 body

/-- Writes of a frame that have not landed. -/
def frameWrites (s : State) (i m no : Nat) : Bool :=
  let mine := fun (w : WriteFrom) => match w with
    | .isp a b c o => a == i && b == m && c == no && decide (o < 3)
    | _ => false
  s.flights.any (fun f => mine f.2.src) || s.waitHdrs.any (fun h => mine h.2)

/-- Every ISP context whose work on a frame has ended and whose lines have landed writes its record and is done
with it (R432); a frame that no ISP context needs any more gives back its slot (R424). -/
def finishFrames (s : State) : State :=
  let s1 := s.cam.frames.foldl (fun a (g : Frame) => g.users.foldl (fun b u =>
    match u.due with
    | some d =>
      if frameWrites b u.isp g.stream g.no then b
      else modFrame (writeRecord b g u d) g.stream g.no (fun f => { f with users := f.users.filter (fun v => v.isp ≠ u.isp) })
    | none => b) a) s
  { s1 with cam := { s1.cam with frames := s1.cam.frames.filter (fun g => !g.whole || !g.users.isEmpty) } }

/-! ## Units (R419) -/

/-- Units become ready: the rows of a unit and the 4 that follow, or the frame end, are in (R419). A dropped
frame gets no further unit (R409). -/
def readyUnits (s : State) (m no : Nat) : State :=
  match frameOf s m no with
  | none => s
  | some g =>
    if g.flags.contains 5 then s
    else g.users.foldl (fun a u =>
      let ready := (List.range (ispUnits s u.isp)).filter (fun k => decide (u.queued ≤ k) &&
        (g.whole || decide (min (strH s m) (unitEnd s u.isp k + 4) ≤ g.lines.length)))
      let a1 := modUser a u.isp m no (fun v => { v with queued := v.queued + ready.length })
      { a1 with cam := { a1.cam with ready := a1.cam.ready ++ ready.map (fun k => (u.isp, m, no, k)) } }) s

/-- An ISP context with no unit left to serve has finished with a whole frame. -/
def settleUsers (s : State) (m no : Nat) : State :=
  let busy := fun (i : Nat) => (s.cam.ready ++ s.cam.running.toList).any (fun r => r.1 == i && r.2.1 == m && r.2.2.1 == no)
  finishFrames (modFrame s m no (fun g => if g.whole then
    { g with users := g.users.map (fun u =>
      if busy u.isp || u.due.isSome then u else { u with due := some (recDue s g u []) }) } else g))

/-- Flag a frame (R408); under ERR_POLICY DROP no further unit of it is served (R409). -/
def flagFrame (s : State) (m no fl : Nat) : State :=
  let drop := bit (strSrc s m) 11
  let x := strAt s m
  let first := match frameOf s m no with
    | some g => g.flags.isEmpty
    | none => false
  let s1 := modFrame s m no (fun g => { g with flags := insertNum fl (if drop then insertNum 5 g.flags else g.flags) })
  let s2 := if first then setStr s1 m { x with flagged := x.flagged + 1 } else s1
  if drop then { s2 with cam := { s2.cam with ready := s2.cam.ready.filter (fun r => !(r.2.1 == m && r.2.2.1 == no)) } }
  else s2

/-- The samples of a whole line; YUV422 has two a pixel. -/
def lineLen (s : State) (m : Nat) : Nat := strW s m * (if bits (strSrc s m) 19 14 = 0x1E then 2 else 1)

/-- Close the frame a stream receives: missing lines are 0 (R408). -/
def closeFrame (s : State) (m : Nat) (g : Frame) : State :=
  let blank := List.replicate (strH s m - g.lines.length) (List.replicate (lineLen s m) 0)
  let s1 := modFrame s m g.no (fun f => { f with lines := f.lines ++ blank, whole := true, tFe := Config.freeTime s.draws })
  settleUsers (readyUnits (draw s1) m g.no) m g.no

/-! ## Abandoning frames (R404, R411, R413, R415) -/

/-- A frame is discarded: it has no record, and its units go. -/
def dropFrames (s : State) (sel : Frame → Bool) : State :=
  let gone := fun (m no : Nat) => s.cam.frames.any (fun g => sel g && g.stream == m && g.no == no)
  { s with cam := { s.cam with
    ready := s.cam.ready.filter (fun r => !gone r.2.1 r.2.2.1),
    running := s.cam.running.filter (fun r => !gone r.2.1 r.2.2.1),
    frames := s.cam.frames.filter (fun g => !sel g) } }

/-- Abandon the frames that a test selects: their units go and their lines are discarded, and each gets a record with the flag
once its lines in flight have landed (R432). -/
def abandonFrames (s : State) (sel : Frame → Bool) (flag : Nat) : State :=
  let gone := fun (m no : Nat) => s.cam.frames.any (fun g => sel g && g.stream == m && g.no == no)
  finishFrames { s with cam := { s.cam with
    ready := s.cam.ready.filter (fun r => !gone r.2.1 r.2.2.1),
    running := s.cam.running.filter (fun r => !gone r.2.1 r.2.2.1),
    frames := s.cam.frames.map (fun (g : Frame) =>
      if sel g && !g.dead then
        { g with dead := true, whole := true, lines := [], users := g.users.map (fun u =>
          match u.due with
          | some d => { u with due := some { d with flags := insertNum flag d.flags } }
          | none => { u with due := some (recDue s g u [flag]) }) }
      else g) } }

/-- On entry to SLEEP, DEEP or OFF every frame is abandoned with POWER (R404). -/
def camSleep (s : State) : State := abandonFrames s (fun _ => true) 8

/-- Disable and unbind the ISP contexts of a context that is destroyed (R415). -/
def camRelease (s : State) (c : Nat) : State :=
  let mine := s.cam.owners.filter (fun e => e.2 == c)
  let s1 := mine.foldl (fun a e => modPage a (ispPage e.1) (fun g => { g with enable := false })) s
  let s2 := { s1 with cam := { s1.cam with
    owners := s1.cam.owners.filter (fun e => !(e.2 == c)),
    ready := s1.cam.ready.filter (fun r => !(mine.any (fun e => e.1 == r.1))),
    running := s1.cam.running.filter (fun r => !(mine.any (fun e => e.1 == r.1))),
    frames := s1.cam.frames.map (fun (g : Frame) =>
      { g with users := g.users.filter (fun u => !(mine.any (fun e => e.1 == u.isp))) }) } }
  finishFrames s2

/-! ## Reception (R405 to R408, R424) -/

/-- The Layby slots of a stream (R424, R434). -/
def laybySlots (s : State) (m : Nat) : Nat := bits (strSrc s m) 13 12 + 1

/-- A frame is discarded for want of a slot (R424): it counts, and ISP_OVERRUN is reported, at most once per
stream in 100 ms; whether 100 ms have passed since the last report is a free choice. -/
def overrun (s : State) (m : Nat) : State :=
  let x := strAt s m
  let s1 := setStr s m { x with dropped := x.dropped + 1, overrun := true }
  if !x.overrun || Config.freeBit s.draws then emitDev (draw s1) .ispOverrun (leBytes 1 m) else draw s1

/-- No ISP context has begun a whole frame. -/
def unbegun (g : Frame) : Bool := g.whole && !g.begun && !g.dead

/-- Take a slot for a new frame, or discard one (R424). -/
def takeSlot (s : State) (m csi : Nat) : State :=
  let held := s.cam.frames.filter (fun g => g.stream == m)
  let x := strAt s m
  let no := x.nextNo
  let s1 := setStr s m { x with frames := x.frames + 1, nextNo := no + 1 }
  let (s2, room) := if held.length < laybySlots s m then (s1, true)
    else match held.find? unbegun with
      | some g => (dropFrames (overrun s1 m) (fun f => f.stream == m && f.no == g.no), true)
      | none => (overrun s1 m, false)
  if !room then s2
  else
    let users := (fedBy s2 m).map (fun i =>
      { isp := i, lost := lostRings s2 i : IspFrame })
    let g : Frame :=
      { stream := m, no := no, csi := csi, tFs := Config.freeTime s2.draws, users := users }
    let s3 := draw s2
    { s3 with cam := { s3.cam with frames := s3.cam.frames ++ [g] } }

/-- A receiver takes packets: it is enabled, in RUN or IDLE, with its supply (R404, R412). -/
def rxHears (s : State) (rx : Nat) : Bool := !s.cam.muted && bit s.pwr.up 8 && pageOn s (rxPage rx)

/-- A packet arrives in high-speed mode: the lanes have left ULPS (R405). -/
def endUlps (s : State) (rx : Nat) : State := { s with cam := { s.cam with rx := tset s.cam.rx rx { rxAt s rx with ulps := false } } }

/-- A packet's header is in error in 2 or more bits (R408): it is discarded, with the rest of the current line, and the frame
being received is flagged; a flagged fault counts in FRAME_ERR too. -/
def badHeader (s : State) (rx vc : Nat) : State :=
  let s1 := match (strOf s rx vc).bind (fun m => (openFrame s m).map (fun g => (m, g))) with
    | some (m, g) => flagFrame s m g.no 1
    | none => s
  countErr (countErr s1 rx 1) rx 4

/-- A frame-start packet (R405, R408, R424). -/
def execCsiFrameStart (rx : Nat) (head : CsiHead) (frame : Nat) (s : State) : Out :=
  .next (if !rxHears s rx then s
    else
      let t := endUlps (if bit head.errs 0 then countErr s rx 0 else s) rx
      if bit head.errs 1 then badHeader t rx head.vc
      else match strOf t rx head.vc with
        | none => countErr t rx 3
        | some m =>
          let deskew := decide (1500 < bits (live t (rxPage rx + 8)) 19 8)
          let s0 := if deskew then { t with cam := { t.cam with rx := tset t.cam.rx rx { rxAt t rx with deskewed := true } } } else t
          let s1 := match openFrame s0 m with
            | some g => closeFrame (countErr (flagFrame s0 m g.no 4) rx 4) m g
            | none => s0
          takeSlot s1 m frame)

/-- Unpack RAW samples (CSI-2) and normalise them to 12 bits (R407). -/
def unpackRaw (dt : Nat) (b : Bytes) : List Nat :=
  let v := fun (l : Bytes) (i : Nat) => (l.getD i 0).toNat
  match dt with
  | 0x2A => b.map (fun x => x.toNat * 16)
  | 0x2B => (records 5 b).flatMap (fun l => (List.range 4).map (fun i => (v l i * 4 + bits (v l 4) (2 * i + 1) (2 * i)) * 4))
  | 0x2C => (records 3 b).flatMap (fun l => [v l 0 * 16 + v l 2 % 16, v l 1 * 16 + v l 2 / 16])
  | 0x2D => (records 7 b).flatMap (fun l =>
      let low := v l 4 + v l 5 * 256 + v l 6 * 65536
      (List.range 4).map (fun i => clip12 (v l i * 64 + bits low (6 * i + 5) (6 * i) : Nat) 4))
  | _ => b.map BitVec.toNat

/-- The line of a frame: excess samples are discarded with LONG_LINE (R408). -/
def addLine (s : State) (rx m : Nat) (g : Frame) (l : List Nat) : State :=
  let most := lineLen s m
  let s1 := if most < l.length then countErr (flagFrame s m g.no 3) rx 4 else s
  let s2 := modFrame s1 m g.no (fun f =>
    { f with lines := if f.lines.length < strH s m then f.lines ++ [l.take most] else f.lines, got := f.got + 1 })
  readyUnits s2 m g.no

/-- A payload checksum mismatch (R408): the line is kept as received; the fault counts, in FRAME_ERR too, and flags the frame
being received, if there is one. -/
def badChecksum (s : State) (rx m : Nat) : State :=
  countErr (countErr (match openFrame s m with
    | some g => flagFrame s m g.no 0
    | none => s) rx 2) rx 4

/-- A long packet (R405 to R408). `errs` bit 0 is a corrected header bit, bit 1 an uncorrectable header, bit 2
a payload checksum mismatch. -/
def execCsiLine (rx vc dt : Nat) (data : Bytes) (errs : Nat) (s : State) : Out :=
  .next (if !rxHears s rx then s
    else
      let s0 := endUlps (if bit errs 0 then countErr s rx 0 else s) rx
      if bit errs 1 then badHeader s0 rx vc
      else match strOf s0 rx vc with
        | none => countErr s0 rx 3
        | some m =>
          let image := decide (dt = bits (strSrc s m) 19 14)
          if !image ∧ !(dt = 0x12 ∧ bit (strSrc s m) 10) then countErr s0 rx 3
          else
            let s1 := if bit errs 2 then badChecksum s0 rx m else s0
            match openFrame s1 m with
            | none => s1
            | some g =>
              if image then addLine s1 rx m g (unpackRaw dt data)
              else modFrame s1 m g.no (fun f => { f with emb := f.emb ++ data }))

/-- A frame-end packet: a frame with lines missing is SHORT (R408). -/
def execCsiFrameEnd (rx : Nat) (head : CsiHead) (s : State) : Out :=
  .next (if !rxHears s rx then s
    else
      let t := endUlps (if bit head.errs 0 then countErr s rx 0 else s) rx
      if bit head.errs 1 then badHeader t rx head.vc
      else match strOf t rx head.vc with
        | none => countErr t rx 3
        | some m => match openFrame t m with
          | none => t
          | some g => closeFrame (if g.lines.length < strH t m then countErr (flagFrame t m g.no 2) rx 4 else t) m g)

/-! ## Presence and the privacy switch (R410 to R414) -/

/-- The lanes of a receiver change state (R405, R410, R411): whether a sensor is present, and whether they are in ULPS, which
RXn_STATUS shows (the row of R410 carries both, entry 109). While muted PRESENT holds its value (R414), and a receiver that has
no power sees nothing (R404). -/
def execCamPresenceChange (rx : Nat) (lanes : CamLanes) (s : State) : Out :=
  .next (if s.cam.muted ∨ 1 < chipState s then s
    else
      let s0 := { s with cam := { s.cam with rx := tset s.cam.rx rx { rxAt s rx with ulps := lanes.ulps && lanes.present } } }
      if (rxAt s rx).present = lanes.present then s0
      else
        let s1 := { s0 with cam := { s0.cam with rx := tset s0.cam.rx rx { rxAt s0 rx with present := lanes.present, deskewed := false } } }
        if lanes.present then emitDev s1 .camAttached (leBytes 1 rx)
        else abandonFrames (emitDev s1 .camDetached (leBytes 1 rx))
          (fun g => !g.whole && bits (strSrc s g.stream) 25 24 == rx) 7)

/-- The falling edge of CAM_MUTE_N (R412, R413). -/
def execCamMuteOn (s : State) : Out :=
  .next (if s.cam.muted then s
    else if s.pwr.mode = .off then { s with cam := { s.cam with muted := true } }
    else emitDev (abandonFrames { s with cam := { s.cam with muted := true } } (fun _ => true) 6) .camMuteOn [])

/-- CAM_MUTE_N has been high for 20 ms: the supply returns (R412, R413). -/
def execCamMuteOff (s : State) : Out :=
  .next (if !s.cam.muted then s
    else if s.pwr.mode = .off then { s with cam := { s.cam with muted := false } }
    else emitDev { s with cam := { s.cam with muted := false } } .camMuteOff [])

/-- CAM_LED is driven on while CAM_MUTE_N is low (R412). -/
def pinCamLed (s : State) : Bool := s.cam.muted

/-! ## Turns on the ISP (R419 to R422) -/

/-- The unit that may be switched in for an ISP context: under FIFO the head of the ready units, under ROTA
the next ready band of the context whose entry is in force and has not served one. -/
def nextUnit (s : State) (i : Nat) : Option (Nat × Nat × Nat × Nat) :=
  let sched := live s 0x0020_0010
  if bit sched 31 then
    let e := live s (0x0020_0080 + 4 * s.cam.rota)
    if bit e 4 ∧ e % 16 = i ∧ !s.cam.served then s.cam.ready.find? (fun r => r.1 == i) else none
  else match s.cam.ready with
    | r :: _ => if r.1 = i then some r else none
    | [] => none

/-- A switch-in (R419, R420); at the first unit of a frame a pending commit of the context's page is taken (R422), and
the rings are checked again for the values then in force (R431). -/
def execIspUnitStart (isp : Nat) (s : State) : Out :=
  .next (if s.cam.running.isSome then s
    else match nextUnit s isp with
      | none => s
      | some r =>
        let p := ispPage isp
        let s1 := if r.2.2.2 = 0 ∧ (pageAt s p).pending then
            let (a, res) := takeCommit s p
            modUser (tellWaits a p res) isp r.2.1 r.2.2.1 (fun u => { u with lost := lostRings a isp })
          else s
        modFrame { s1 with cam := { s1.cam with
          running := some r, ready := s1.cam.ready.filter (fun x => x ≠ r), served := true } }
          r.2.1 r.2.2.1 (fun g => { g with begun := true }))

/-- The rows that a unit completes are written (R425 to R431), output by output in ascending row. -/
def writeUnit (s : State) (i m no : Nat) (g : Frame) (u : Nat) : State :=
  let e := ispEnv s i
  let ccm := ispCcm e (ispPlanes e g.lines)
  let lo := if u = 0 then 0 else unitEnd s i (u - 1)
  let outs := ([0, 1, 2].map (outEnv e.reg)).filter (fun q => bit q.ctl 31)
  outs.foldl (fun a q =>
    let lost := match (frameOf a m no).bind (fun f => f.users.find? (fun v => v.isp == i)) with
      | some v => v.lost.contains q.o
      | none => true
    if lost then a
    else
      let ps := outPlanes e q ccm
      let base := e.reg (0x108 + 0x40 * q.o) + no % bits q.ctl 19 16 * e.reg (0x10C + 0x40 * q.o)
      (rowsDone q lo (unitEnd s i u)).foldl (fun b j =>
        (outRow e q ps j).foldl (fun c w => outWrite c i m no q (base + w.1) w.2) b) a) s

/-- A unit is done (R419, R425 to R432); no further line of a dropped frame is written (R409). -/
def execIspUnitComplete (isp : Nat) (s : State) : Out :=
  .next (match s.cam.running with
    | none => s
    | some (i, m, no, u) =>
      if i ≠ isp then s
      else
        let s1 := { s with cam := { s.cam with running := none } }
        match frameOf s m no with
        | none => s1
        | some g =>
          let s2 := modUser (if g.flags.contains 5 then s1 else writeUnit s1 i m no g u) i m no (fun v => { v with unit := u + 1 })
          settleUsers s2 m no)

/-- A rota entry ends, whether or not it served a band, and the next begins: it stays idle for its whole length when its
context has no band ready then or the entry is invalid (R420). -/
def execIspRotaSlotEnd (s : State) : Out :=
  .next (let len := bits (live s 0x0020_0010) 21 16
    if bit (live s 0x0020_0010) 31 ∧ 0 < len then
      let k := (s.cam.rota + 1) % len
      let e := live s (0x0020_0080 + 4 * k)
      { s with cam := { s.cam with rota := k, served := !bit e 4 || !s.cam.ready.any (fun r => r.1 == e % 16) } }
    else s)

/-! ## Ownership (R415, R416) -/

/-- SENSOR_CFG with operation BIND (R415): accepted only while the context's ENABLE is 0; 0xFFFF clears the
owner, and any other owner is a live context. -/
def execSensorCfgBind (rq : Req) (isp owner : Nat) (s : State) : Out :=
  .next (if 16 ≤ isp then replyD s rq 0x0180 .malformed .ethParam []
    else if pageOn s (ispPage isp) then replyD s rq 0x0180 .refused .ispOwner []
    else if owner = 0xFFFF then
      replyD { s with cam := { s.cam with owners := terase s.cam.owners isp } } rq 0x0180 .ok .none []
    else if (liveCtx s owner).isNone then replyD s rq 0x0180 .noContext .ctxUnknown []
    else replyD { s with cam := { s.cam with owners := tset s.cam.owners isp owner } } rq 0x0180 .ok .none [])

/-! ## I3C (R437 to R439) -/

/-- SENSOR_CFG with operation I3C_XFER (R438): the outcome on the bus is the target's. -/
def execI3cXfer (rq : Req) (xfer : I3cArgs) (bus : I3cBus) (s : State) : Out :=
  .next (if 2 ≤ xfer.ctrl ∨ 4 ≤ xfer.kind ∨ 256 < xfer.wdata.length ∨ 256 < xfer.readLen then
      replyD s rq 0x0180 .refused .i3cParam []
    else match bus with
      | .nack => replyD s rq 0x0180 .refused .i3cNack []
      | .err => replyD s rq 0x0180 .refused .i3cBus []
      | .done r => replyD s rq 0x0180 .ok .none (r.take xfer.readLen ++ zeros (xfer.readLen - r.length)))

/-- A controller acknowledges an in-band interrupt while its queue of 16 has room, and otherwise NACKs it (R439). -/
def ibiAcked (s : State) (ctrl : Nat) : Bool := decide ((tget s.cam.ibis [] ctrl).length < 16)

/-- An in-band interrupt, with up to 8 payload bytes, joins its controller's queue (R437, R439). -/
def execI3cIbi (ctrl addr : Nat) (payload : Bytes) (s : State) : Out :=
  .next (if ibiAcked s ctrl then
      { s with cam := { s.cam with ibis := tset s.cam.ibis ctrl (tget s.cam.ibis [] ctrl ++ [(addr, payload.take 8)]) } }
    else s)

/-- The oldest queued interrupt of a controller is reported (R439). -/
def reportIbi (s : State) (ctrl : Nat) : State :=
  match tget s.cam.ibis [] ctrl with
  | [] => s
  | (addr, p) :: rest =>
    emitDev { s with cam := { s.cam with ibis := tset s.cam.ibis ctrl rest } } .i3cIbi
      (leBytes 1 ctrl ++ leBytes 1 addr ++ leBytes 1 p.length ++ p)

/-- A Hot-Join request is acknowledged and reported (R439). -/
def execI3cHotJoin (ctrl : Nat) (s : State) : Out := .next (emitDev s .i3cHotJoin (leBytes 1 ctrl))

end Sys2Proof.Machine
end

