-- ==== Sys2Proof/Machine/Firmware.lean ====
section
/-!
DEFINITION. The firmware's work for a context (10, 17): the cores and Span banks that moving upper copies needs, and the commands
that wait for them to power up. The tiles of one object move in the step of the command that needs them (DESIGN CHOICE, entry 100).
-/

namespace Sys2Proof.Machine

/-- The upper copies, with their objects, that a command's work reads or writes on a firmware queue: those written back, and
those placed. -/
def movedUppers (s t : State) (c : Nat) : List (Upper × Obj) :=
  match tget? s.ctxs c, tget? t.ctxs c with
  | some x, some y =>
    let saved := x.objs.filterMap (fun e => match e.2.upper with
      | some u => match tget? y.objs e.1 with
        | some o => if e.2.dirty ∧ !(o.dirty ∧ o.upper = some u) then some (u, e.2) else none
        | none => none
      | none => none)
    let placed := y.objs.filterMap (fun e => match e.2.upper with
      | some u => if ((tget? x.objs e.1).bind Obj.upper) = some u then none else some (u, e.2)
      | none => none)
    saved ++ placed
  | _, _ => []

/-- The cores whose firmware queues the work runs on (R372, R812). -/
def workCores (s t : State) (c : Nat) : List Nat := ((movedUppers s t c).flatMap (fun u => upperCores s c u.1)).dedup

/-- The Span banks that the work reads from or lands in (R236, R237). -/
def workBanks (s t : State) (c : Nat) : List Nat :=
  ((movedUppers s t c).flatMap (fun u =>
    if u.1.tier = 2 then runBanks [(u.1.loc * 256, (u.2.tilesM1 + 1) * 4096)] else [])).dedup

/-- Every core and bank of a context's work is up. -/
def workReady (s t : State) (c : Nat) : Bool :=
  (workCores s t c).all (fun n => bit s.pwr.up n) && (workBanks s t c).all (fun b => bit s.pwr.up (16 + b))

/-- The firmware's vote for cores, cast when work is issued (R812). -/
def firmwareVote (old s : State) (cores : List Nat) : State :=
  if cores.isEmpty then s else voteCast (cancelFrom old s 6 0 (maskOf cores)) 6 0 (maskOf cores)

/-- The cores for which a command's own zero-fills cast the firmware's vote: none where the context had fills in progress. -/
def newFillCores (s t : State) (c : Nat) : List Nat :=
  match tget? s.ctxs c, tget? t.ctxs c with
  | some x, some y => if (fillCores s c x).isEmpty then fillCores t c y else []
  | _, _ => []

/-- Carry out a command whose effect is `t`: its firmware work starts once its cores and banks are up, and until then the command
waits with their votes held (R237, R812). Zero-fills that the command has issued cast theirs. -/
def onFirmware (s t : State) (c : Nat) (cmd : Instr) : State :=
  if workReady s t c then
    firmwareVote s t (newFillCores s t c)
  else
    let w : FwWait := { cores := workCores s t c, banks := workBanks s t c, cmd := cmd }
    firmwareVote s { s with fwWaits := s.fwWaits ++ [w] } w.cores

/-- A waiting command's cores and banks are up; one that waited for a core now fenced is dispatched again, to go elsewhere or to be
refused (R683, R706). -/
def FwWait.ready (s : State) (w : FwWait) : Bool :=
  w.cores.all (fun n => bit s.pwr.up n || s.fenced.contains n) && w.banks.all (fun b => bit s.pwr.up (16 + b))

/-- The commands whose cores and banks have come up are dispatched again. -/
def releaseWork (s : State) : State :=
  { s with
    fwWaits := s.fwWaits.filter (fun w => !w.ready s),
    net := { s.net with dispatched := s.net.dispatched ++ (s.fwWaits.filter (fun w => w.ready s)).map FwWait.cmd } }

end Sys2Proof.Machine
end

