-- ==== Sys2Proof/Machine/ImageCmds.lean ====
section
/-!
DEFINITION. IMAGE_LOAD and IMAGE_UNLOAD (09).
-/

namespace Sys2Proof.Machine

/-- IMAGE_LOAD (R347 to R358). -/
def execImageLoad (rq : Req) (image list bindCount : Nat) (handles : List Nat) (s : State) : Out :=
  .next (onCtx s rq 0x0120 (fun x =>
    match tget? x.objs image with
    | none => match tfree x.images 4 with
      | none => replyC s rq 0x0120 .noQuota .loadSlots []
      | some _ => replyC s rq 0x0120 .malformed .loadContainer []
    | some o =>
      let b := imageBytes s x o
      let t := tablesOf b (sectionsOf b)
      if replyTooLong s rq.sess list ((t.manifest.filter (fun m => m.source == 1)).length) then
        replyC s rq 0x0120 .malformed .ethLength []
      else match tfree x.images 4 with
        | none => replyC s rq 0x0120 .noQuota .loadSlots []
        | some slot =>
          onFirmware s (match loadChecks s rq.ctx slot image x b (bindingList s x list bindCount handles) with
            | (s1, .error (st, rs)) => replyC s1 rq 0x0120 st rs []
            | (s1, .ok (sl, as, dg)) =>
              replyC (storeHandles s1 rq.ctx list bindCount as) rq 0x0120 .ok .none
                (leBytes 1 sl ++ zeros 1 ++ leBytes 2 as.length ++ zeros 4 ++ dg ++
                  (if list = 0xFFFF then as.flatMap (leBytes 2) else [])))
            rq.ctx (.imageLoad rq image list bindCount handles)))

/-- The effect of one IMAGE_UNLOAD whose windows, tags and engines are quiet: the upper copies in its shares are written back
(DESIGN CHOICE, entry 10), the image is released, and the reply leaves. A write-back that fails leaves the image loaded, its
windows closed, and answers with the failure (DESIGN CHOICE, entry 101). -/
def unloadDone (s : State) (c slot : Nat) (im : Image) (rq : Req) : State :=
  let gone := fun (t : State) => modCtx t c (fun y => { y with unloading := terase y.unloading slot })
  match saveUppers c (((tget? s.ctxs c).map Ctx.objs |>.getD []).filter (fun e => inShare im e.2)) s with
  | (s1, some r) => replyC (gone s1) rq 0x0121 .fault r []
  | (s1, none) => replyC (gone (releaseImage s1 c slot im)) rq 0x0121 .ok .none []

/-- Finish the IMAGE_UNLOADs of a context that are quiet and whose firmware work may start (R152, R360, R812). -/
def finishUnload (s : State) (c : Nat) : State :=
  match tget? s.ctxs c with
  | none => s
  | some x => x.unloading.foldl (fun a u => match (tget? a.ctxs c).bind (fun y => tget? y.images u.1) with
    | none => a
    | some im =>
      if imageQuiet a c u.1 im ∧ workReady a (unloadDone a c u.1 im u.2) c then unloadDone a c u.1 im u.2 else a) s

/-- A job of an image is running (R359). -/
def imageBusy (x : Ctx) (slot : Nat) : Bool :=
  match x.job with
  | some j => j.run.slot == slot
  | none => false

/-- IMAGE_UNLOAD (R359, R360): its windows close at once; it completes here when nothing is in progress, and
otherwise with the last landing. One more for a slot that is being unloaded is refused as busy (DESIGN CHOICE, entry 102). -/
def execImageUnload (rq : Req) (slot : Nat) (s : State) : Out :=
  .next (onCtx s rq 0x0121 (fun x => match tget? x.images slot with
    | none => replyC s rq 0x0121 .refused .loadEmpty []
    | some im =>
      if imageBusy x slot || (tget? x.unloading slot).isSome then replyC s rq 0x0121 .busy .loadImageBusy []
      else
        let s1 := closeImage s im
        finishUnload (modCtx s1 rq.ctx (fun y => { y with unloading := tset y.unloading slot rq })) rq.ctx))

end Sys2Proof.Machine
end

