-- ==== Sys2Proof/Machine/ObjectCmds.lean ====
section
/-!
DEFINITION. The object commands (05) whose work the firmware does: OBJ_ALLOC, OBJ_FREE, OBJ_READ, OBJ_PLACE, and the end of a
zero-fill.
-/

namespace Sys2Proof.Machine

/-- OBJ_ALLOC (R806, R188). -/
def execObjAlloc (rq : Req) (flags tilesM1 storedM1 loc : Nat) (s : State) : Out :=
  .next (onCtx s rq 0x0110 (fun x =>
    let o := objOfFlags flags tilesM1 storedM1
    match allocCheck s x o loc with
    | some (st, rs) => replyC s rq 0x0110 st rs []
    | none => onFirmware s (match allocObj s rq.ctx o loc with
      | (s1, .ok h) => replyC s1 rq 0x0110 .ok .none (leBytes 2 h ++ zeros 2)
      | (s1, .error (st, rs)) => replyC s1 rq 0x0110 st rs []) rq.ctx (.objAlloc rq flags tilesM1 storedM1 loc)))

/-- OBJ_FREE (R231, R232): refused while a tag is held or an enabled ISP context names the object (R418), while an image names the object, or for a stream's
state (R320); otherwise the handle is invalid at once, any upper copy is discarded and the zero-fill is queued. The page-table
entries of a KV page freed so name it no more (R284), as when it is dropped (DESIGN CHOICE, entry 104). -/
def execObjFree (rq : Req) (handle : Nat) (s : State) : Out :=
  .next (onObj s rq 0x0111 handle (fun x o =>
    if tagsHeld s rq.ctx handle || ispNames s rq.ctx handle then replyC s rq 0x0111 .busy .objBusy []
    else if imageNames x handle then replyC s rq 0x0111 .refused .objImage []
    else if (streamOf x handle).isSome then replyC s rq 0x0111 .refused .streamObject []
    else onFirmware s (replyC (setCtx s rq.ctx (dropPtes (freeObj x handle o) handle)) rq 0x0111 .ok .none []) rq.ctx
      (.objFree rq handle)))

/-- OBJ_READ (R537): a DIRTY upper copy is written back first; every line must verify. -/
def execObjRead (rq : Req) (handle len off : Nat) (s : State) : Out :=
  .next (onObj s rq 0x0113 handle (fun x o =>
    if ((tget? s.net.sessions rq.sess).map Session.maxPayload).getD 8192 < len then replyC s rq 0x0113 .malformed .ethLength []
    else if !(rangeOk o off len) then replyC s rq 0x0113 .fault .objRange []
    else
      onFirmware s (match saveUpper s rq.ctx handle x o with
        | (s0, some r) => replyC (noteUe s0 o r) rq 0x0113 .fault r []
        | (s0, none) =>
          let s1 := modCtx s0 rq.ctx (fun y => { y with objs := tset y.objs handle { o with dirty := false } })
          match homeRead s1 x o off len with
          | .error r => replyC (integrityFail (noteUe s1 { o with upper := none } r) rq.ctx o.homeTier (o.home + off / 4096) r) rq 0x0113 .fault r []
          | .ok d => replyC (countAct s1 rq.ctx (fun a => { a with hostOut := a.hostOut + len })) rq 0x0113 .ok .none d)
        rq.ctx (.objRead rq handle len off)))

/-- Place an upper copy and answer the OBJ_PLACE. -/
def placeReply (s : State) (rq : Req) (handle tier core : Nat) (o : Obj) : State :=
  match placeObj s rq.ctx handle tier core o with
  | (s1, .ok u) => replyC s1 rq 0x0114 .ok .none (upperLoc { o with upper := some u })
  | (s1, .error (st, rs)) => replyC s1 rq 0x0114 st rs []

/-- OBJ_PLACE with OP PLACE (R187): an upper copy lies above the home (R185), in T1 on a granted core; refused
while an enabled ISP context names the object (R418). -/
def execObjPlacePlace (rq : Req) (handle tier core : Nat) (s : State) : Out :=
  .next (onObj s rq 0x0114 handle (fun x o =>
    if tier = 0 ∨ 3 < tier ∨ o.homeTier ≤ tier ∨ o.homeTier ≤ 2 ∨ (tier = 1 ∧ !(bit x.cores core)) then
      replyC s rq 0x0114 .refused .objTier []
    else if ispNames s rq.ctx handle then replyC s rq 0x0114 .busy .objBusy []
    else match o.upper with
      | some u =>
        if u.tier = tier ∧ (tier ≠ 1 ∨ u.core = core) then replyC s rq 0x0114 .ok .none (upperLoc o)
        else if tagsHeld s rq.ctx handle then replyC s rq 0x0114 .busy .objBusy []
        else onFirmware s (match releaseUpper s rq.ctx handle o with
          | (s0, some r) => replyC s0 rq 0x0114 .fault r []
          | (s0, none) => placeReply s0 rq handle tier core { o with upper := none, dirty := false })
          rq.ctx (.objPlacePlace rq handle tier core)
      | none => onFirmware s (placeReply s rq handle tier core o) rq.ctx (.objPlacePlace rq handle tier core)))

/-- OBJ_PLACE with OP REMOVE (R187): a DIRTY copy is written back and the copy is released. A copy that a running chunk works
on is held by it (R325), and the command is refused as for a tag that is held (DESIGN CHOICE, entry 105). -/
def execObjPlaceRemove (rq : Req) (handle : Nat) (s : State) : Out :=
  .next (onObj s rq 0x0114 handle (fun x o =>
    if tagsHeld s rq.ctx handle || chunkHeld s rq.ctx x handle then replyC s rq 0x0114 .busy .objBusy []
    else onFirmware s (match releaseUpper s rq.ctx handle o with
      | (s1, some r) => replyC s1 rq 0x0114 .fault r []
      | (s1, none) => replyC s1 rq 0x0114 .ok .none (upperLoc { o with upper := none, dirty := false }))
      rq.ctx (.objPlaceRemove rq handle)))

/-- Set or clear PINNED (R187). -/
def setPinned (s : State) (rq : Req) (handle : Nat) (p : Bool) : State :=
  onObj s rq 0x0114 handle (fun x o =>
    replyC (setCtx s rq.ctx { x with objs := tset x.objs handle { o with pinned := p } }) rq 0x0114 .ok .none (upperLoc o))

/-- OBJ_PLACE with OP PIN (R187). -/
def execObjPlacePin (rq : Req) (handle : Nat) (s : State) : Out := .next (setPinned s rq handle true)

/-- OBJ_PLACE with OP UNPIN (R187). -/
def execObjPlaceUnpin (rq : Req) (handle : Nat) (s : State) : Out := .next (setPinned s rq handle false)

/-- An object's zero-fill completes (R233, R234), on a core that is up (R812). -/
def execZeroFillComplete (ctx handle : Nat) (s : State) : Out :=
  .next (if fillHeld s ctx handle || !((tget? s.ctxs ctx).map (fillCores s ctx) |>.getD []).all (fun n => bit s.pwr.up n)
    then s else finishFill s ctx handle)

end Sys2Proof.Machine
end

