-- ==== Sys2Proof/Machine/Jobs.lean ====
section
/-!
DEFINITION. Jobs (10): starting, turns, pre-emption and the switch, completion, RUN, RUN_CANCEL, PREEMPT and
the events of scheduling.
-/

namespace Sys2Proof.Machine

/-! ## Stages and points (R377, R378) -/

/-- An engine group of a core holds a descriptor of a stage slot, queued, stalled or running, or the stream
routine holds a chunk of it (R332). -/
def engineBusy (s : State) (core slot : Nat) : Bool :=
  (coreOf s (physOf s core)).chunks.any (fun q => q.slot == slot) ||
  (coreOf s (physOf s core)).groups.any (fun g =>
    (g.2.queue ++ g.2.stalled).any (fun e => e.slot == slot) ||
    (match g.2.run with
     | some r => r.entry.slot == slot
     | none => false))

/-- A stage stands at a pre-emption point (R378, R560): stopped, ended, or waiting with its engines idle. -/
def atPoint (s : State) (r : StageRun) : Bool :=
  match r.st with
  | .stopped => true
  | .ended => true
  | .waiting _ _ => !engineBusy s r.core r.slot
  | .putWait _ => !engineBusy s r.core r.slot
  | .running => false

/-- A job is blocked when every one of its stages waits (R377). -/
def blocked (j : Job) : Bool :=
  !j.stages.isEmpty && j.stages.all (fun r => match r.st with
    | .waiting _ _ => true
    | .putWait _ => true
    | _ => false)

/-- A context has a runnable job. -/
def runnable (x : Ctx) : Bool :=
  decide (x.st = .resident) && (match x.job with
    | some j => j.ended.isNone && !blocked j
    | none => false)

/-- Change a context's job. -/
def modJob (s : State) (c : Nat) (f : Job → Job) : State :=
  modCtx s c (fun x => { x with job := x.job.map f })

/-! ## Switching in and out (R381, R382) -/

/-- The logical cores on which a job has stages. -/
def jobCores (j : Job) : List Nat := (j.stages.map StageRun.core).dedup

/-- Save a context's held descriptors on a core and clear the page-walk and stream entry caches (R380, R381). The tiles
in flight of a held descriptor go on landing under its number. -/
def saveCore (s : State) (c core : Nat) : State :=
  let p := physOf s core
  let k := coreOf s p
  let out := k.convoy.map (fun q => if q.1 < 3 then (q.1, q.2.filter (fun e => !(e.ctx == c))) else q)
  let kept := (k.convoy.filter (fun q => decide (q.1 < 3))).map (fun q => (q.1, q.2.filter (fun e => e.ctx == c)))
  setCore s p { k with convoy := out, saved := tset k.saved c kept, walkCache := [], streamCache := [] }

/-- Restore a context's held descriptors on a core (R381). -/
def restoreCore (s : State) (c core : Nat) : State :=
  let p := physOf s core
  let k := coreOf s p
  match tget? k.saved c with
  | none => setCore s p { k with walkCache := [], streamCache := [] }
  | some kept => setCore s p { k with
      convoy := kept.foldl (fun t q => tset t q.1 (q.2 ++ tget t [] q.1)) k.convoy,
      saved := terase k.saved c, walkCache := [], streamCache := [] }

/-- A job takes its cores: its stopped stages resume at their points. -/
def switchIn (s : State) (c : Nat) : State :=
  match (tget? s.ctxs c).bind Ctx.job with
  | none => s
  | some j =>
    let s1 := (jobCores j).foldl (fun a n => restoreCore a c n) s
    modJob s1 c (fun k => { k with onCores := true, yielded := false, stages := k.stages.map (fun r => match r.st with
        | .stopped => { r with st := .running }
        | _ => r) })

/-- A job leaves its cores: a switch out, counted (R381, R396). -/
def switchOut (s : State) (c : Nat) : State :=
  match (tget? s.ctxs c).bind Ctx.job with
  | none => s
  | some j =>
    let s1 := (jobCores j).foldl (fun a n => saveCore a c n) s
    modAcct (modJob s1 c (fun k => { k with onCores := false, order := none, held := none })) c
      (fun a => { a with preemptions := a.preemptions + 1 })

/-! ## Turns (R375 to R377) -/

/-- Every stage of the job is at a pre-emption point and no transition is under way (R270, R378). -/
def allAtPoint (s : State) (j : Job) : Bool := j.trans.isNone && j.stages.all (atPoint s)

/-- A context's job holds its cores. -/
def holdsCores (x : Ctx) : Bool :=
  match x.job with
  | some j => j.onCores
  | none => false

/-- A runnable job may take cores in the present turn: it has not yielded during it (R376, R379). -/
def mayRun (x : Ctx) : Bool :=
  runnable x && (match x.job with
    | some j => x.sealed || !j.yielded
    | none => false)

/-- An entry of the slot table holds a runnable job. -/
def entryRunnable (s : State) (e : List Nat) : Bool := e.any (fun c => runnable (tget s.ctxs {} c))

/-- The entry after `i` in table order that holds a runnable job, `i` itself last. -/
def nextEntry (s : State) (i : Nat) : Option Nat :=
  let n := s.sched.entries.length
  ((List.range n).map (fun k => (i + 1 + k) % n)).find? (fun k => entryRunnable s (s.sched.entries.getD k []))

/-- The CORE domains of a job's cores, all those of its image, are up (R342, R616). -/
def coresUp (s : State) (x : Ctx) (j : Job) : Bool := (imageCores ((tget? x.images j.run.slot).getD {})).all (fun n => bit s.pwr.up n)

/-- An engine group of a core still drains a descriptor of another context, whose job has ended (R82, R131, R384). -/
def drainsOther (s : State) (c core : Nat) : Bool :=
  (coreOf s (physOf s core)).groups.any (fun g => match g.2.run with
    | some r => r.entry.ctx != c
    | none => false)

/-- No other context's job holds a core that the context is granted, and no engine group of it works for another: an
outgoing job keeps its cores until its last stage has stopped (R381), and its engine groups until they have drained
(R82). -/
def coresFree (s : State) (c : Nat) (x : Ctx) : Bool :=
  s.ctxs.all (fun e => e.1 == c || decide (e.2.cores &&& x.cores = 0) || !holdsCores e.2) &&
  (List.range 8).all (fun n => !bit x.cores n || !drainsOther s c n)

/-- Give cores to the runnable jobs of an entry, and to a Sealed context's job (R375, R376). -/
def grantTurn (s : State) (e : List Nat) : State :=
  e.foldl (fun a c =>
    let x := tget a.ctxs {} c
    match x.job with
    | some j => if mayRun x ∧ !j.onCores ∧ coresUp a x j ∧ coresFree a c x then switchIn a c else a
    | none => a) s

/-- Another entry than the one whose turn it is has a runnable job. -/
def otherRunnable (s : State) : Bool :=
  match s.sched.turn with
  | none => false
  | some i => (List.range s.sched.entries.length).any (fun k =>
      !(k == i) && entryRunnable s (s.sched.entries.getD k []))

/-- An entry takes its turn, or a new quantum of it begins (R376): a job that yielded may run again. -/
def beginTurn (s : State) (i : Nat) : State :=
  let s1 := { s with sched := { s.sched with turn := some i } }
  (s.sched.entries.getD i []).foldl (fun a c => modJob a c (fun j => { j with yielded := false })) s1

/-- The blocked jobs of a turn leave their cores at once when another entry has a runnable job (R377). -/
def restBlocked (s : State) : State :=
  match s.sched.turn with
  | none => s
  | some i => (s.sched.entries.getD i []).foldl (fun a c =>
      match (tget a.ctxs {} c).job with
      | some j => if otherRunnable a ∧ j.onCores ∧ j.order.isNone ∧ j.ended.isNone ∧ blocked j ∧ allAtPoint a j
          then switchOut a c else a
      | none => a) s

/-- The entry whose turn it is goes on: one of its jobs holds its cores or may take them. -/
def turnKept (s : State) : Bool :=
  match s.sched.turn with
  | some i => (s.sched.entries.getD i []).any (fun c => holdsCores (tget s.ctxs {} c) || mayRun (tget s.ctxs {} c))
  | none => false

/-- Run Sealed jobs; take blocked jobs off (R377); pass the turn on when no entry has one, or when the entry that has it
neither holds cores nor can run; and run every runnable job of the entry whose turn it is (R375, R376). -/
def schedule (s : State) : State :=
  let s0 := restBlocked ((s.ctxs.filter (fun e => e.2.sealed)).foldl (fun a e => grantTurn a [e.1]) s)
  let s1 := if turnKept s0 then s0
    else match nextEntry s0 (s0.sched.turn.getD (s0.sched.entries.length - 1)) with
      | some i => beginTurn s0 i
      | none => s0
  match s1.sched.turn with
  | some i => grantTurn s1 (s1.sched.entries.getD i [])
  | none => s1

/-! ## Starting a job (R374) -/

/-- The stages of a phase of an image, all at their start (R243). -/
def phaseRuns (im : Image) (p : Nat) : List StageRun :=
  (im.stages.filter (fun e => e.phase == p)).map (fun e =>
    { core := e.core, slot := e.slot, stage := e.stage, groups := e.groups, leader := e.leader })

/-- The RUN at the head of a context's queue, when it may be dispatched: the context is RESIDENT and idle, and no core
of the image is fenced (R374, R685). -/
def nextRun (s : State) (x : Ctx) : Option (RunReq × List RunReq) :=
  if x.st ≠ .resident ∨ x.job.isSome ∨ x.parking.isSome then none
  else match x.runQ with
    | [] => none
    | r :: rest =>
      if (imageCores ((tget? x.images r.slot).getD {})).any (fun n => s.fenced.contains n) then none else some (r, rest)

/-- The votes of a job about to be dispatched cancel a descent in progress (R613, R615, R632). -/
def wakeFor (s : State) (c : Nat) (x : Ctx) : State :=
  match nextRun s x with
  | some (r, _) => cancelDescent s 0 c (maskOf (imageCores ((tget? x.images r.slot).getD {})))
  | none => s

/-- The action word of a cascade job (R471): the first 4 bytes of its verdict window when the job ended
OK and the window is not CLOSED, and 0, which is DONE, otherwise. -/
def actionWord (s : State) (e : CasRun) (st : Status) : Nat :=
  match st, keyOf s e.ctx e.slot e.space e.win with
  | .ok, some k =>
    let w := winAt s k
    if w.state = .closed then 0 else leNat ((ramOf s (k / 256)).read (w.base * 256) 4)
  | _, _ => 0

/-- The job of a cascade entry has ended (R470 to R472): its LINGER_MS runs, and CASCADE_DONE will report it. -/
def cascadeEnd (s : State) (m : Option Nat) (st : Status) : State :=
  match m with
  | none => s
  | some k => { s with aud := { s.aud with casRuns := tmod s.aud.casRuns k (fun e =>
      { e with
        active := false, vote := none, lingers := e.lingers ++ e.vote.toList,
        results := e.results ++ [(e.ctx, st, actionWord s e st)] }) } }

/-- A RUN is not made (R359, R376, R393): it leaves the queue with a status and a reason, a cascade's too (R471). -/
def refuseRun (s : State) (c : Nat) (r : RunReq) (rest : List RunReq) (st : Status) (why : Reason) : State :=
  replyC (cascadeEnd (modCtx s c (fun y => { y with runQ := rest })) r.milestone st) r.req 0x0130 st why []

/-- A context's image slot holds an image that is not being unloaded. -/
def slotRuns (x : Ctx) (slot : Nat) : Bool := (tget? x.images slot).isSome && (tget? x.unloading slot).isNone

/-- Refuse the RUNs at the head of a queue whose slot has been emptied since they came (R359); `fuel` bounds their number. -/
def dropEmpty (c : Nat) : Nat → State → State
  | 0, s => s
  | fuel + 1, s => match tget? s.ctxs c with
    | none => s
    | some x => match x.runQ with
      | r :: rest =>
        if x.st = .resident ∧ x.job.isNone ∧ x.parking.isNone ∧ !slotRuns x r.slot then
          dropEmpty c fuel (refuseRun s c r rest .refused .loadEmpty)
        else s
      | [] => s

/-- Start the RUN at the head of a RESIDENT context's queue when no job runs; a RUN of an image that uses a
fenced core stays queued (R685). -/
def startHead (s : State) (c : Nat) : State :=
  match tget? s.ctxs c with
  | none => s
  | some x => match nextRun s x with
    | none => s
    | some (r, rest) =>
      let j : Job :=
        { run := r, id := (x.jobs + 1) % 2 ^ 32,
          stages := phaseRuns ((tget? x.images r.slot).getD {}) 0, started := s.draws }
      schedule (draw (modCtx s c (fun y => { y with
        job := some j, runQ := rest, jobs := y.jobs + 1,
        images := tmod y.images r.slot (fun im => { im with prefetchNext := 0 }) })))

/-- Start the next queued RUN that names a loaded image. -/
def startNext (s : State) (c : Nat) : State := startHead (dropEmpty c 17 s) c

/-! ## The end of a job (R374, R539) -/

/-- The reply of RUN (R536, R539). -/
def runBody (s : State) (j : Job) : Bytes :=
  leBytes 4 j.id ++ leBytes 1 j.phase ++ zeros 3 ++ leBytes 8 (Config.freeAmount s.draws j.started)

/-- Discard the open lane packets of a context's stages, each counted lost, and its puts that wait (R558). -/
def dropLanePackets (s : State) (c : Nat) : State :=
  { s with lanes := s.lanes.map (fun e =>
      if e.2.owner = some c then
        (e.1, { e.2 with
          opened := none, waiting := [],
          lost := if e.2.opened.isSome then min (e.2.lost + 1) (2 ^ 32 - 1) else e.2.lost })
      else e) }

/-- A context's store slots in the chip Junction are released, and its beats there discarded (R261). The Convoy tags of the rows
that are on their way to land stay held until they have landed (R252). -/
def releaseSlots (s : State) (c : Nat) : State :=
  { s with jct := { s.jct with
      slots := (s.jct.slots.filter (fun j => !(j.ctx == c) || j.written)).map (fun j =>
        if j.ctx = c then { j with freed := true } else j),
      skids := s.jct.skids.map (fun e => (e.1, e.2.filter (fun b => !(b.ctx == c)))) } }

/-- Take a context's work off the cores: unissued descriptors go, tiles in flight land with no successor (R380, R384). -/
def clearQueues (s : State) (c : Nat) : State :=
  { s with
    cores := s.cores.map (fun k => (k.1, { k.2 with
      convoy := ((tget k.2.saved [] c).foldl (fun t q => tset t q.1 (tget t [] q.1 ++ q.2)) k.2.convoy).map (fun q =>
        (q.1, (q.2.filter (fun e => !(e.ctx == c) || decide (e.landed < e.issued))).map (fun e =>
          if e.ctx = c then { e with stop := some (e.stop.getD (.preempted, .schedCancelled)) } else e))),
      groups := k.2.groups.map (fun g => (g.1, { g.2 with
        queue := g.2.queue.filter (fun e => !(e.ctx == c)),
        stalled := g.2.stalled.filter (fun e => !(e.ctx == c)) })),
      chunks := k.2.chunks.filter (fun q => !(q.ctx == c) || q.running),
      saved := terase k.2.saved c })),
    wins := s.wins.map (fun e => if e.2.ctx = c then (e.1, { e.2 with waiting := none }) else e) }

/-- Take a context's work off the cores, and its beats and store slots out of the chip Junction. -/
def clearWork (s : State) (c : Nat) : State := releaseSlots (clearQueues s c) c

/-- The amounts that a job which holds its cores has run up so far count before the record is read (R395, R398, R399). -/
def meterRunning (s : State) (c : Nat) : State :=
  match (tget? s.ctxs c).bind Ctx.job with
  | some j => if j.onCores then meter s c (fun amt a => { a with control := a.control + amt 2, vector := a.vector + amt 3 })
      else s
  | none => s

/-- A job completes: its RUN is answered, RUNS counts, its work leaves the cores, and the context has no job. -/
def completeJob (s : State) (c : Nat) (st : Status) (rs : Reason) : State :=
  match tget? s.ctxs c with
  | none => s
  | some x => match x.job with
    | none => s
    | some j =>
      let s1 := dropLanePackets (if st = .ok then clearQueues s c else clearWork s c) c
      let s2 := meter (modCtx s1 c (fun y => { y with job := none })) c (fun amt a => { a with
          runs := a.runs + 1, control := a.control + amt 2, vector := a.vector + amt 3 })
      let s3 := replyC (draw s2) j.run.req 0x0130 st rs (runBody s j)
      j.waiters.foldl (fun a w => replyC a w.1 w.2 .ok .none []) (cascadeEnd s3 j.run.milestone st)

/-- End a job with status FAULT (R131): it stops where it stands, and JOB_COMPLETE answers its RUN. The first failure gives the
reason. -/
def failJob (s : State) (c : Nat) (r : Reason) : State :=
  modJob (clearWork s c) c (fun j => { j with ended := match j.ended with
    | some (.fault, q) => some (.fault, q)
    | _ => some (.fault, r) })

/-- A stage's own access of bytes of its Deck share: an error that cannot be corrected ends its job (R678, R679). -/
def withWords (s : State) (c slot core off n : Nat) (k : State → State) : State :=
  let sh := shareOf s c slot core
  match eccScan s (physOf s core) (if off + n ≤ sh.2 * 256 then [(sh.1 * 256 + off, n)] else []) with
  | (t, some r) => failJob t c r
  | (t, none) => k t

/-- Answer a queued RUN that is cancelled (R390). -/
def cancelRun (s : State) (r : RunReq) : State :=
  replyC (cascadeEnd s r.milestone .preempted) r.req 0x0130 .preempted .schedCancelled []

/-! ## Orders to stop (R379, R380) -/

/-- The job leaves its cores, which counts as a switch out (R381, R396), and completes: with its own status if it had ended
when the order came (R401), and else with the one that the order gives. -/
def stopJob (s : State) (c : Nat) (j : Job) (st : Status) (rs : Reason) : State :=
  let r := j.ended.getD (st, rs)
  completeJob (if j.onCores ∧ j.ended.isNone then modAcct s c (fun a => { a with preemptions := a.preemptions + 1 }) else s)
    c r.1 r.2

/-- A STALLED context whose job goes is RESIDENT again. -/
def unstall (s : State) (c : Nat) : State :=
  rebuildTable (modCtx s c (fun y => { y with st := if y.st = .stalled then .resident else y.st }))

/-- The effect of an order once the last stage has stopped, but for CTX_DESTROY, which `Contexts` completes. -/
def stopEffect (s : State) (c : Nat) (j : Job) (o : StopOrder) : State :=
  match o with
  | .cancel =>
    let r : Status × Reason := if j.cancelStalled then (.stalled, .ctxRemoteTimeout) else (.preempted, .schedCancelled)
    startNext (schedule (stopJob (unstall s c) c j r.1 r.2)) c
  | .destroy => stopJob s c j .preempted .schedCancelled
  | .fence => startNext (schedule (stopJob (unstall s c) c j .preempted .relCoreFenced)) c
  | _ =>
    let s1 := if j.onCores then switchOut s c else modJob s c (fun k => { k with order := none, held := none })
    let s2 := modJob s1 c (fun k => { k with waiters := [], yielded := o == .yield })
    schedule (j.waiters.foldl (fun a w => replyC a w.1 w.2 .ok .none []) s2)

/-- Carry out a job's order if its last stage has stopped. -/
def tryStop (s : State) (c : Nat) : State :=
  match (tget? s.ctxs c).bind Ctx.job with
  | none => s
  | some j => match j.order with
    | none => s
    | some o => if !j.onCores || allAtPoint s j then stopEffect s c j o else s

/-- How much an order to stop takes with it: a stronger order replaces a milder one. -/
def StopOrder.rank : StopOrder → Nat
  | .turn => 0
  | .yield => 1
  | .stall => 2
  | .fence => 3
  | .cancel => 4
  | .destroy => 5

/-- The stronger of two orders. -/
def StopOrder.max (a b : StopOrder) : StopOrder := if a.rank < b.rank then b else a

/-- Order a job to stop (R379): a stronger order replaces a milder one that stands. The order of a stall keeps the milder
one, which comes back when the context resumes (R389). -/
def orderStop (s : State) (c : Nat) (o : StopOrder) : State :=
  tryStop (modJob s c (fun j => match j.order with
    | none => { j with order := some o }
    | some q =>
      let lesser := if q = .stall ∧ o.rank < q.rank then some o else if o = .stall ∧ q.rank < o.rank then some q else none
      { j with order := some (q.max o), held := match j.held, lesser with
        | some a, some b => some (a.max b)
        | a, none => a
        | none, b => b })) c

/-! ## RUN, RUN_CANCEL, PREEMPT_YIELD (R374, R379, R390) -/

/-- RUN (R374, R539): refused for a slot that holds no image or whose image is being unloaded (R359; DESIGN CHOICE, entry 102,
for the latter); queued with an interim reply; it starts when no job runs. An image that a repair has
robbed of its program rows refuses it (R689). -/
def execRun (rq : Req) (slot param : Nat) (s : State) : Out :=
  .next (onCtx s rq 0x0130 (fun x => match tget? x.images slot with
    | none => replyC s rq 0x0130 .refused .loadEmpty []
    | some im =>
      if !slotRuns x slot then replyC s rq 0x0130 .refused .loadEmpty []
      else if im.reload then replyC s rq 0x0130 .refused .relReloadNeeded []
      else if 16 ≤ x.runQ.length then replyC s rq 0x0130 .busy .runQueueFull []
      else
        let r : RunReq := { req := rq, slot := slot, param := param }
        let s1 := interim (wakeFor s rq.ctx { x with runQ := x.runQ ++ [r] }) rq 0x0130 rq.ctx
        startNext (modCtx s1 rq.ctx (fun y => { y with runQ := y.runQ ++ [r] })) rq.ctx))

/-- RUN_CANCEL (R390): queued RUNs are cancelled at once, the running job when its last stage has stopped, with the status
that the context's state gives when the command arrives. -/
def execRunCancel (rq : Req) (s : State) : Out :=
  .next (onCtx s rq 0x0131 (fun x =>
    let s1 := x.runQ.foldl cancelRun (modCtx s rq.ctx (fun y => { y with runQ := [] }))
    match x.job with
    | none => replyC s1 rq 0x0131 .ok .none []
    | some _ => orderStop (modJob s1 rq.ctx (fun j => { j with
        waiters := j.waiters ++ [(rq, 0x0131)], cancelStalled := x.st == .stalled })) rq.ctx .cancel))

/-- PREEMPT in mode YIELD (R379): without effect on a Sealed context or one with no running job; otherwise
the reply leaves when the job has stopped (DESIGN CHOICE, entry 99: R379 does not say when it leaves). -/
def execPreemptYield (rq : Req) (s : State) : Out :=
  .next (onCtx s rq 0x0132 (fun x => match x.job with
    | none => replyC s rq 0x0132 .ok .none []
    | some j =>
      if x.sealed ∨ !j.onCores then replyC s rq 0x0132 .ok .none []
      else orderStop (modJob s rq.ctx (fun k => { k with waiters := k.waiters ++ [(rq, 0x0132)] })) rq.ctx .yield))

/-! ## Events of scheduling -/

/-- The Shared contexts outside an entry whose jobs hold their cores, run, and have no order to stop yet. -/
def outgoing (s : State) (e : List Nat) : List Nat :=
  (s.ctxs.filter (fun c => !c.2.sealed && !e.contains c.1 && (match c.2.job with
    | some j => j.onCores && j.order.isNone && j.ended.isNone
    | none => false))).map Prod.fst

/-- A Shared turn's quantum elapses (R376): when another entry is runnable it takes its turn and the running jobs are
ordered to stop; otherwise a new quantum of the same entry begins. -/
def execQuantumExpire (s : State) : Out :=
  .next (match s.sched.turn with
    | none => s
    | some i =>
      if otherRunnable s then
        match nextEntry s i with
        | none => s
        | some n =>
          let s1 := beginTurn s n
          schedule ((outgoing s1 (s1.sched.entries.getD n [])).foldl (fun a c => orderStop a c .turn) s1)
      else schedule (beginTurn s i))

/-- A stage marks a stage boundary (R244, R378): its count rises, and an order to stop takes it there once its
engine groups are idle. -/
def execStageBoundary (core slot : Nat) (s : State) : Out :=
  .next (match stageCtx s core slot with
    | none => s
    | some c =>
      let s1 := modStage s c core slot (fun r => { r with boundary := r.boundary + 1 })
      match (tget? s.ctxs c).bind Ctx.job with
      | some j => if j.order.isSome ∧ !engineBusy s core slot then
          modStage s1 c core slot (fun r => if r.st = .running then { r with st := .stopped } else r)
        else s1
      | none => s1)

/-- A stage of an outgoing job reaches its pre-emption point; when it is the last one, the cores switch
(R380, R381). -/
def preemptionPoint (s : State) (core slot : Nat) : State :=
  match stageCtx s core slot with
  | none => s
  | some c => match (tget? s.ctxs c).bind Ctx.job with
    | none => s
    | some j =>
      if j.order.isNone ∨ engineBusy s core slot then s
      else tryStop (modStage s c core slot (fun r => if r.st = .running then { r with st := .stopped } else r)) c

/-- A job has not stopped within twice its PREEMPT_BOUND (R384): it ends with SCHED_NO_BOUNDARY. -/
def execSchedNoBoundary (ctx : Nat) (s : State) : Out :=
  .next (match (tget? s.ctxs ctx).bind Ctx.job with
    | none => s
    | some j => if j.order.isSome ∧ j.onCores then
        switchOut (failJob s ctx .schedNoBoundary) ctx
      else s)

/-- A remote-wait timer reaches REMOTE_TIMEOUT (R386, R388): the context enters STALLED and its job is ordered
to stop. A wait that has been satisfied is not there any more (R401). -/
def execCtxRemoteTimeout (ctx core slot : Nat) (s : State) : Out :=
  .next (match tget? s.ctxs ctx with
    | none => s
    | some x => match x.job with
      | none => s
      | some j => match j.stages.find? (fun r => r.core == core && r.slot == slot) with
        | none => s
        | some r => match r.st with
          | .waiting space win =>
            let k := (keyOf s ctx j.run.slot space win).getD 0
            if x.st = .resident ∧ (winAt s k).writers / 2 ^ 24 ≠ 0 then
              let s1 := modCtx s ctx (fun y => { y with
                st := .stalled, acct := { y.acct with stalls := y.acct.stalls + 1 } })
              let s2 := modJob s1 ctx (fun q => { q with stalledOn := some (core, slot) })
              let s3 := emit (rebuildTable s2) (some ctx) .stalled .ctxRemoteTimeout
                (leBytes 2 ctx ++ leBytes 1 space ++ leBytes 1 win)
              orderStop s3 ctx .stall
            else s
          | _ => s)

end Sys2Proof.Machine
end

