-- ==== Sys2Proof/Machine/Landing.lean ====
section
/-!
DEFINITION. What follows from a window write's fate (04, 05, 06, 11, 12, 14, 20): telling its writer, and
presenting the headers that wait.
-/

namespace Sys2Proof.Machine

/-! ## Convoy entries -/

/-- Change a Convoy descriptor, found by physical core, queue and number. -/
def modCv (s : State) (p q id : Nat) (f : CvEntry → CvEntry) : State :=
  let k := coreOf s p
  setCore s p { k with
    convoy := tmod k.convoy q (fun l => l.map (fun e => if e.id = id then f e else e)),
    saved := k.saved.map (fun v => (v.1, tmod v.2 q (fun l => l.map (fun e => if e.id = id then f e else e)))) }

/-- The descriptors of a queue, with those that wait for their context's next turn (R380). -/
def queueAll (k : Core) (queue : Nat) : List CvEntry :=
  tget k.convoy [] queue ++ k.saved.flatMap (fun v => tget v.2 [] queue)

/-- A Convoy descriptor, by physical core, queue and number. -/
def findCv (s : State) (p q id : Nat) : Option CvEntry := (queueAll (coreOf s p) q).find? (fun e => e.id == id)

/-! ## The blocks of write walks (R291, R293, R308) -/

/-- What has become of a block's write: it completed, it can complete no more, or neither yet. -/
def walkFate (s : State) (w : WalkWrite) : Option Bool :=
  match findCv s w.core w.queue w.id with
  | none => some false
  | some e =>
    if e.landed - e.discarded = 16 then some true
    else if e.stop.isSome ∧ e.landed = e.issued then some false
    else none

/-- The last tile of a written block has landed: its entry takes the new FILL and KEEP (R291). -/
def walkWritten (x : Ctx) (w : WalkWrite) : Ctx :=
  { x with seqs := tmod x.seqs w.seq (fun t => { t with ptes := tmod t.ptes w.pte (fun p =>
      if p.page = some w.page then { p with fill := w.fill, keep := w.keep } else p) }) }

/-- Resolve the writes whose fate is known, for each entry in the order the walks reached it (R308); a block whose write does
not complete keeps what its entry had (R293). -/
def flushWalks : List WalkWrite → List WalkWrite → Ctx → Ctx
  | [], kept, x => { x with walkWrites := kept.reverse }
  | w :: rest, kept, x =>
    if kept.any (fun v => v.seq == w.seq && v.pte == w.pte) then flushWalks rest (w :: kept) x
    else match w.done with
      | none => flushWalks rest (w :: kept) x
      | some good => flushWalks rest kept (if good then walkWritten x w else x)

/-- Free the pages whose count is zero and that no reader holds any more (R284, R308). -/
def reapPages (s : State) (c : Nat) : State :=
  modCtx s c (fun x => (x.doomed.filter (fun h => !(tagsHeld s c h) && !(walkHeld s c h))).foldl (fun y h =>
    let z := { y with doomed := y.doomed.erase h }
    match tget? z.objs h with
    | some o => freeObj z h o
    | none => z) x)

/-- Note what has become of a context's walked blocks and pages. -/
def resolveWalks (s : State) (c : Nat) : State :=
  reapPages (modCtx s c (fun x => flushWalks (x.walkWrites.map (fun w =>
    { w with done := match w.done with
      | some d => some d
      | none => walkFate s w })) [] x)) c

/-- Change a Convoy descriptor, and note what follows for its context's walks. -/
def modCvWalk (s : State) (p q id : Nat) (f : CvEntry → CvEntry) : State :=
  match findCv s p q id with
  | none => s
  | some e => resolveWalks (modCv s p q id f) e.ctx

/-- A tile of a descriptor has landed and counted (R202, R211). -/
def cvLanded (s : State) (p q id : Nat) : State := modCvWalk s p q id (fun e => { e with landed := e.landed + 1 })

/-- A tile of a descriptor has been discarded, refused or has failed: no further tile is issued, tiles issued
and not yet offered are discarded, and the completion will carry the status (R211, R212). -/
def cvStop (s : State) (p q id : Nat) (st : Status) (r : Reason) : State :=
  modCvWalk s p q id (fun e => { e with
    landed := e.landed + 1 + e.tiles.length, tiles := [],
    stop := if e.stop.isSome then e.stop else some (st, r),
    discarded := e.discarded + 1 + e.tiles.length })

/-- A tile or a code strip of a descriptor has landed in a window: it counts in BYTES (R397). -/
def countLanded (s : State) (p q id i n : Nat) (strip : Bool) : State :=
  match findCv s p q id with
  | none => s
  | some e => match e.body with
    | none => s
    | some b => if strip && (CvDesc.parse b).op != 1 then s else countTile s e (CvDesc.parse b) i n

/-! ## Peers -/

/-- A peer's record. -/
def peerAt (s : State) (i : Nat) : Peer := tget s.set.peers {} i

/-- Set a peer's record. -/
def setPeer (s : State) (i : Nat) (p : Peer) : State := { s with set := { s.set with peers := tset s.set.peers i p } }

/-- The fates at the front of the inbound list advance the settlement, in SEQUENCE order; those that did not
end OK are kept among the last 256 (R722, R723). -/
def advance : Nat → Peer → Peer
  | 0, p => p
  | fuel + 1, p =>
    match p.inbound with
    | (n, some (st, r)) :: rest =>
      let fs := (if st = .ok then p.failures else p.failures ++ [(n, st, r)]).filter (fun f => decide (n < f.1 + 256))
      advance fuel { p with inbound := rest, settled := n, failures := fs }
    | _ => p

/-- A presented remote write has its fate (R722). -/
def remoteFate (s : State) (peer seq : Nat) (st : Status) (r : Reason) : State :=
  let p := peerAt s peer
  let q := { p with inbound := p.inbound.map (fun w => if w.1 = seq then (w.1, some (st, r)) else w) }
  setPeer s peer (advance (q.inbound.length + 1) q)

/-- A number from its bytes in network order. -/
def beNat (b : Bytes) : Nat := b.foldl (fun n x => 256 * n + x.toNat) 0

/-- The host interface addresses of member `i` in the set record (R708, R771): IPv4, if it has one, and IPv6. -/
def memberAddrs (s : State) (i : Nat) : List Nat :=
  let v4 := field s.rst.setRec (96 * i + 0x10) 4
  let v6 := beNat (slice s.rst.setRec (96 * i) 16)
  (if v4 = 0 then [] else [0xFFFF_0000_0000 + v4]) ++ (if v6 = 0 then [] else [v6])

/-- How a packet leaves on a set session that this member opened; one that the peer opened is a session of its own. -/
def peerWire (s : State) (i : Nat) : Option Wire :=
  let p := peerAt s i
  if p.opener then
    some (wireTo s .host p.port ((memberAddrs s i).headD 0) (live s 0x0023_0010 % 2 ^ 16))
  else none

/-- The set session with a peer carries a packet that is no HELLO (R719, R723); numbers are 32 bits on the wire. -/
def setSend (s : State) (peer seq ctx link : Nat) (payload : Bytes) : State :=
  sendPkt s { sess := (peerAt s peer).sess.getD 0, cls := .data, seq := seq % 2 ^ 32, ctx := ctx, link := link % 2 ^ 32,
              payload := payload, wire := peerWire s peer }

/-- A report of writes that did not end OK (R722): it carries SEQUENCE 0 and, in LINK, the settlement before them. -/
def sendReport (s : State) (peer : Nat) (fs : List (Nat × Status × Reason)) : State :=
  if fs.isEmpty then s
  else setSend s peer 0 0 (peerAt s peer).told (leBytes 1 1 ++ zeros 4 ++ leBytes 1 1 ++ zeros 10 ++
    fs.flatMap (fun f => leBytes 4 f.1 ++ leBytes 1 f.2.1.code ++ zeros 1 ++ leBytes 2 f.2.2.code))

/-- The settlement goes out in LINK of the next packet, after a report of the writes among it that did not end OK. -/
def tellSettled (s : State) (peer : Nat) : State :=
  let p := peerAt s peer
  let s1 := sendReport s peer (p.failures.filter (fun f => decide (p.told < f.1)))
  setPeer s1 peer { p with told := p.settled }

/-! ## The writer learns the fate (R166, R167, R174) -/

/-- A slot of the chip Junction is free once its row's write has counted (R257, R259): the slot whose row a logical core writes
for a job, which it holds in gather mode alone and in reduce mode with the other contributors. -/
def freeSlot (s : State) (ctx job group row core : Nat) : State :=
  { s with jct := { s.jct with slots := s.jct.slots.eraseP (fun j =>
      j.ctx == ctx && j.job == job && j.group == group && j.row == row && j.written && (tget? j.parts core).isSome) } }

/-- A write has landed and counted. -/
def tellLanded (s : State) (f : Flight) : State :=
  match f.src with
  | .host rq => replyC (countAct s rq.ctx (fun a => { a with hostIn := a.hostIn + f.data.length })) rq 0x0162 .ok .none []
  | .convoy p q id i => cvLanded (countLanded s p q id i f.data.length false) p q id
  | .strip p q id => countLanded s p q id 0 f.data.length true
  | .junction c j g r n => freeSlot s c j g r n
  | .remote peer seq =>
    let c := (winAt s (winKey f.home f.entry)).ctx
    remoteFate (countAct s c (fun a => { a with remoteIn := a.remoteIn + f.data.length })) peer seq .ok .none
  | .isp _ _ _ _ => finishFrames s
  | .audio _ _ => s
  | .block => s

/-- A row of a job is discarded at its destination (R261): the job ends, if it is still the context's. -/
def rowLost (s : State) (c job : Nat) : State :=
  match (tget? s.ctxs c).bind Ctx.job with
  | some j => if j.id = job then failJob s c .pipeJctDest else s
  | none => s

/-- A write has been discarded or refused. -/
def tellFailed (s : State) (src : WriteFrom) (st : Status) (r : Reason) : State :=
  match src with
  | .host rq => replyC s rq 0x0162 st r []
  | .convoy p q id _ => cvStop s p q id st r
  | .strip p q id => modCvWalk s p q id (fun e => { e with
      landed := e.landed + e.tiles.length, tiles := [], discarded := e.discarded + e.tiles.length,
      stop := if e.stop.isSome then e.stop else some (st, r) })
  | .junction c j g row n => rowLost (freeSlot s c j g row n) c j
  | .remote peer seq => remoteFate s peer seq st r
  | .isp i m no o => finishFrames (if o < 3 then loseOutput s i m no o else s)
  | .audio path n =>
    let x := tget s.aud.paths {} path
    { s with
      aud := { s.aud with
        lostBlocks := min (s.aud.lostBlocks + 1) (2 ^ 32 - 1), paths := tset s.aud.paths path { x with gap := true } },
      waitHdrs := s.waitHdrs.filter (fun h => h.2 ≠ .audio path n) }
  | .block => s

/-! ## Waiting headers (R168, R617) -/

/-- The headers that wait on after one of them has failed: a failed write of an audio block takes the block's others with it
(R453). -/
def stillOffered (src : WriteFrom) (l : List (WinHdr × WriteFrom)) : List (WinHdr × WriteFrom) :=
  match src with
  | .audio _ _ => l.filter (fun h => h.2 ≠ src)
  | _ => l

/-- Present the headers that wait, oldest first; those that still find no room wait on. `fuel` bounds their number. -/
def retryHdrs : Nat → List (WinHdr × WriteFrom) → State → State
  | 0, _, s => s
  | _ + 1, [], s => s
  | fuel + 1, (h, src) :: rest, s =>
    match offerWrite s h src with
    | (s1, .accepted) => retryHdrs fuel rest s1
    | (s1, .homeFull) => retryHdrs fuel rest s1
    | (s1, f) => retryHdrs fuel (stillOffered src rest) (tellFailed s1 src f.report.1 f.report.2)

/-- Present the waiting headers again. -/
def retryWaits (s : State) : State := retryHdrs s.waitHdrs.length s.waitHdrs { s with waitHdrs := [] }

/-- Writes of one writer to one window land in the order that writer issued them (R165). -/
def firstOfWriter (s : State) (id : Nat) (f : Flight) : Bool :=
  s.flights.all (fun g => decide (id ≤ g.1) || g.2.home != f.home || g.2.entry != f.entry || g.2.writer != f.writer)

/-- A write lands (R160), its writer learns of it, and a waiting header may take its place. -/
def landAndTell (s : State) (id : Nat) : State :=
  match tget? s.flights id with
  | none => s
  | some f => if firstOfWriter s id f then retryWaits (tellLanded (landFlight s id f) f) else s

end Sys2Proof.Machine
end

