-- ==== Sys2Proof/Machine/Contexts.lean ====
section
/-!
DEFINITION. Contexts (10): creation, destruction, parking, bring-in, key retirement and the account record.
-/

namespace Sys2Proof.Machine

/-! ## CTX_CREATE (R363, R364, R369, R810) -/

/-- A parameter of 0 takes its default (R364, R536). -/
def orDefault (v d : Nat) : Nat := if v = 0 then d else v

/-- Check 1 of R810: the ranges of R364 and the field combinations of R536. -/
def createParamsOk (p : CtxParams) : Bool :=
  decide (p.sealed ≤ 1) &&
  (if p.sealed = 1 then decide (p.spanBanks ≤ 14) && decide (1 ≤ p.ddrSlots ∧ p.ddrSlots ≤ 56)
   else p.spanBanks == 0 && p.ddrSlots == 0) &&
  decide (10 ≤ orDefault p.boundUs 200 ∧ orDefault p.boundUs 200 ≤ 10000) &&
  decide (1 ≤ orDefault p.remoteMs 50 ∧ orDefault p.remoteMs 50 ≤ 10000) &&
  decide (100 ≤ orDefault p.quantumUs 2000 ∧ orDefault p.quantumUs 2000 ≤ 100000)

/-- The cores that Sealed partitions reserve; every other serves the Shared partition (R373). -/
def sealedCores (s : State) : Nat := (s.ctxs.filter (fun e => e.2.sealed)).foldl (fun m e => m ||| e.2.cores) 0

/-- The cores granted to any context. -/
def grantedCores (s : State) : Nat := s.ctxs.foldl (fun m e => m ||| e.2.cores) 0

/-- Check 2 of R810: CORES. -/
def createCoresOk (s : State) (p : CtxParams) : Bool :=
  decide (p.cores % 256 = p.cores) && decide (p.cores ≠ 0) && decide (p.cores &&& sealedCores s = 0) &&
    (p.sealed == 0 || decide (p.cores &&& grantedCores s = 0))

/-- The Span banks that hold no share and are not reserved, lowest first (R369). -/
def freeBanks (s : State) : List Nat :=
  (List.range 16).filter (fun b =>
    (s.ctxs.all (fun e => !(e.2.banks.contains b))) &&
    (sharesIn s 8).all (fun sh => decide (sh.1 + sh.2 ≤ b * 8192) || decide (b * 8192 + 8192 ≤ sh.1)))

/-- The lowest free Sealed partition number, 1 to 7 (R368). -/
def freePartition (s : State) : Option Nat :=
  [1, 2, 3, 4, 5, 6, 7].find? (fun n => s.ctxs.all (fun e => !(e.2.partition == n)))

/-- Check 3 of R810: the Sealed limits of R369 and R631. -/
def createPartitionOk (s : State) (p : CtxParams) : Bool :=
  p.sealed == 0 ||
  ((freePartition s).isSome && decide (p.spanBanks ≤ (freeBanks s).length) &&
   decide (((s.ctxs.map (fun e => e.2.banks.length)).sum) + p.spanBanks ≤ 14) &&
   decide (sealedSlots s + p.ddrSlots ≤ (if s.pwr.watts = 15 then 16 else 56)))

/-- The checks of CTX_CREATE in the order of R810. -/
def createCheck (s : State) (p : CtxParams) : Option (Status × Reason) :=
  if !createParamsOk p then some (.refused, .ctxParam)
  else if !createCoresOk s p then some (.refused, .ctxCores)
  else if !createPartitionOk s p then some (.refused, .ctxPartition)
  else if (firstFree (fun c => (tget? s.ctxs c).isSome) 512 0).isNone then some (.noQuota, .ctxNoneFree)
  else none

/-- The new context (R364): RESIDENT, every quota zero, with a fresh key set (R638). -/
def newCtx (s : State) (p : CtxParams) : Ctx :=
  let slots := (List.range 64).filter (fun i => !(s.ctxs.any (fun e => e.2.slotIdx.contains i)))
  { sealed := p.sealed == 1, slotIdx := (slots.rotate (Config.freeAmount s.draws 591)).take p.ddrSlots,
    partition := if p.sealed = 1 then (freePartition s).getD 0 else 0, cores := p.cores,
    banks := if p.sealed = 1 then (freeBanks s).take p.spanBanks else [], ddrSlots := p.ddrSlots,
    boundUs := orDefault p.boundUs 200, remoteMs := orDefault p.remoteMs 50, quantumUs := orDefault p.quantumUs 2000,
    key := s.sec.nextKey }

/-- CTX_CREATE (R363, R810): the lowest free ID; the reply carries it in CONTEXT too (R516). -/
def execCtxCreate (rq : Req) (params : CtxParams) (s : State) : Out :=
  match createCheck s params with
  | some (st, rs) => .next (replyD s rq 0x0100 st rs [])
  | none => match firstFree (fun c => (tget? s.ctxs c).isSome) 512 0 with
    | none => .next (replyD s rq 0x0100 .noQuota .ctxNoneFree [])
    | some c =>
      let x := newCtx s params
      let s1 := setCtx s c x
      let s2 := { s1 with sec := { s1.sec with keys := insertNum x.key s1.sec.keys, nextKey := x.key + 1 } }
      .next (replyAs (draw s2) rq 0x0100 c .ok .none (leBytes 2 c ++ leBytes 1 x.partition ++ zeros 1))

/-! ## The account record (R395, R396) -/

/-- The 288 bytes of an account record (R396). -/
def acctRecord (c : Nat) (x : Ctx) : Bytes :=
  let a := x.acct
  leBytes 4 (2 ^ 24 + ofBool x.sealed * 2 ^ 15 + c) ++ zeros 4 ++
  ([a.mxe, a.ramp, a.vector, a.control, a.energy, a.runs, a.preemptions, a.stalls, a.kvDrops, a.evictions].flatMap (leBytes 8)) ++
  zeros 8 ++ ((List.range 16).flatMap (fun k => leBytes 8 (tget a.bytes 0 k))) ++
  ([a.hostIn, a.hostOut, a.remoteIn, a.remoteOut].flatMap (leBytes 8)) ++ zeros 32

/-- ACCOUNT_READ (R395): what a running job has run up so far is in the record. -/
def execAccountRead (rq : Req) (s : State) : Out :=
  .next (onCtx s rq 0x01A1 (fun x =>
    let s1 := meterRunning s rq.ctx
    replyC s1 rq 0x01A1 .ok .none (acctRecord rq.ctx (tget s1.ctxs x rq.ctx))))

/-! ## CTX_DESTROY (R366) -/

/-- Every lane of a context is disabled at once, its bytes discarded and its owner cleared (R550). -/
def freeLanes (s : State) (c : Nat) : State :=
  let mine := (s.lanes.filter (fun e => decide (e.2.owner = some c))).map Prod.fst
  { s with
    lanes := s.lanes.map (fun e => if e.2.owner = some c then (e.1, {}) else e),
    net := { s.net with outbound := s.net.outbound.filter (fun e => match e.lane with
        | some l => !mine.contains l
        | none => true) } }

/-- CTX_DESTROY of the audio owner zeroes the ring and every phrase slot, clears the output destinations and
the owner, and abandons any delivery (R477); its cascade entries are cleared (R469), and the cascade votes that it holds go with it (R613). -/
def audRelease (s : State) (c : Nat) : State :=
  let s1 := { s with aud := { s.aud with
    cascade := s.aud.cascade.filter (fun e => !(e.2.ctx == c)),
    casRuns := s.aud.casRuns.map (fun e => (e.1, { e.2 with
      vote := e.2.vote.filter (fun v => !(v.1 == 0 && v.2.1 == c)),
      lingers := e.2.lingers.filter (fun v => !(v.1 == 0 && v.2.1 == c)) })) } }
  if s.aud.owner = some c then
    let clear := fun (t : Tab Word) => [0x0021_0040, 0x0021_0044, 0x0021_0050, 0x0021_0054].foldl (fun u a => tset u a 0) t
    { s1 with
      aud := { s1.aud with
        owner := none, phrases := [], loads := [], hold := false, barred := false, readPoint := none,
        ring := s1.aud.ring.map (fun r => { r with samples := List.replicate 8 0 }) },
      regs := { s1.regs with live := clear s1.regs.live, shadow := clear s1.regs.shadow } }
  else s1

/-- Every crossing of a destroyed context is cleared (R716, R717). -/
def crossRelease (s : State) (c : Nat) : State :=
  let own := bits (live s 0x0023_0410) 26 24
  let mine := fun (x : Crossing) => (x.devA == own && x.ctxA == c) || (x.devB == own && x.ctxB == c)
  let ks := (s.set.installed.filter (fun e => mine e.2)).map Prod.fst
  let clear := fun (t : Tab Word) => ks.foldl (fun u k => tset (tset u (0x0023_0500 + 8 * k) 0) (0x0023_0504 + 8 * k) 0) t
  { s with
    set := { s.set with installed := s.set.installed.filter (fun e => !mine e.2) },
    regs := { s.regs with live := clear s.regs.live, shadow := clear s.regs.shadow } }

/-- What names a destroyed context lets it go: ISP contexts (R415), audio and the cascade, crossings. -/
def clearOwners (s : State) (c : Nat) : State := crossRelease (audRelease (camRelease s c) c) c

/-- Every loaded image of a context is quiet. -/
def allQuiet (s : State) (c : Nat) (x : Ctx) : Bool := x.images.all (fun e => imageQuiet s c e.1 e.2)

/-- A chunk of a context's streams is being scanned (R319). -/
def chunkOf (s : State) (c : Nat) : Bool := s.cores.any (fun k => k.2.chunks.any (fun q => q.ctx == c && q.running))

/-- Steps 3 to 5 of R366, once the job has gone: the windows of every image close, and once they, the tags and the
stream routine are quiet, images are unloaded, objects freed as OBJ_FREE frees them (R235), streams ended and sequences freed, the key's retirement is
queued, and the reply leaves. -/
def finishDestroy (s : State) (c : Nat) : State :=
  match tget? s.ctxs c with
  | none => s
  | some x =>
    if x.st ≠ .destroying ∨ x.retiring ∨ x.job.isSome then s
    else
      let s0 := x.images.foldl (fun a e => closeImage a e.2) s
      if !allQuiet s0 c x || chunkOf s0 c then s0
      else
      let s1 := x.images.foldl (fun a e => releaseImage a c e.1 e.2) s0
      let s2 := modCtx s1 c (fun y =>
        let z := y.objs.foldl (fun w e => freeObj w e.1 e.2) y
        { z with streams := [], seqs := [], refs := [], unloading := [], retiring := true, destroyReq := none })
      let s3 := x.unloading.foldl (fun a u => replyC a u.2 0x0121 .ok .none []) s2
      match x.destroyReq with
      | some rq => replyC s3 rq 0x0101 .ok .none (acctRecord c (tget s3.ctxs x c))
      | none => s3

/-- Begin to destroy a context (R366): it enters DESTROYING, its votes are withdrawn, its jobs are cancelled, a PARK that
waits is refused (DEDUCED, entry 84); the rest follows as soon as the job has stopped and nothing is in progress. -/
def beginDestroy (s : State) (c : Nat) (req : Option Req) (x : Ctx) : State :=
  let s0 := match x.parking with
    | some rq => replyC s rq 0x0132 .refused .preemptState []
    | none => s
  let s1 := modCtx s0 c (fun y => { y with
    st := .destroying, runQ := [], destroyReq := req, parking := none, parked := {} })
  let s2 := clearOwners (freeLanes { s1 with pwr := { s1.pwr with
    votes := s1.pwr.votes.filter (fun v => !(v.cls == 0 && v.id == c)) } } c) c
  finishDestroy (orderStop (rebuildTable (x.runQ.foldl cancelRun s2)) c .destroy) c

/-- CTX_DESTROY (R366); during a fence or repair it waits for that to complete (R706). -/
def execCtxDestroy (rq : Req) (s : State) : Out :=
  .next (if s.rel.fencing.isEmpty && s.rel.repairing.isNone then onCtx s rq 0x0101 (beginDestroy s rq.ctx (some rq))
    else { s with rel := { s.rel with heldDestroys := s.rel.heldDestroys ++ [rq] } })

/-! ## Parking (R391) -/

/-- The bytes of the program rows of an image's shares, by slot and core, read through the firmware view (R135). -/
def programBytes (s : State) (slot : Nat) (im : Image) : List (Nat × Nat × Bytes) :=
  im.progRows.filterMap (fun e => (tget? im.shares e.1).bind (fun sh =>
    match firmwareRead s (firmwareAddr (homeOf s e.1) (sh.1 * 256)) (e.2 * 256) with
    | .ok b => some (slot, e.1, b)
    | .error _ => none))

/-- The granules that a park area takes (R391). -/
def parkGranules (x : Ctx) : Nat :=
  ceilDiv ((x.images.map (fun e => (e.2.progRows.map (fun p => p.2 * 256)).sum)).sum) 4096

/-- Step 2 of R391: every upper copy in T1 or T2 is written back and released, and recorded; the first write-back that fails
ends it (R226). -/
def parkUppers (c : Nat) : List (Nat × Obj) → State → State × Option Reason
  | [], s => (s, none)
  | (h, o) :: r, s => match releaseUpper s c h o with
    | (s1, none) => parkUppers c r (modCtx s1 c (fun y => { y with
        parked := { y.parked with uppers := y.parked.uppers ++ (o.upper.map (fun u => (h, u.tier, u.core))).toList } }))
    | e => e

/-- The objects of a context with an upper copy in T1 or T2. -/
def upperObjs (x : Ctx) : List (Nat × Obj) := x.objs.filter (fun e => match e.2.upper with
  | some u => decide (u.tier ≤ 2)
  | none => false)

/-- Steps 2 to 4 of R391: upper copies are written back, program rows saved, and the shares released. A write-back that fails
ends the park with that failure; the context stays RESIDENT, its windows closed (DESIGN CHOICE, entry 101). -/
def parkDone (s : State) (c : Nat) (x : Ctx) (rq : Req) : State :=
  match parkUppers c (upperObjs x) s with
  | (s0, some r) =>
    replyC (modCtx s0 c (fun y => { y with parking := none, parked := {} })) rq 0x0132 .fault r []
  | (s0, none) =>
    let progs := x.images.flatMap (fun e => programBytes s e.1 e.2)
    let s1 := countBytes s0 c 1 3 ((progs.map (fun e => e.2.2.length)).sum)
    let s2 := modCtx s1 c (fun y =>
      let z := x.images.foldl (fun w e => freeShareObjs w e.2) y
      { z with
        st := .parked, parking := none,
        images := z.images.map (fun e => (e.1, { e.2 with
          shares := e.2.shares.map (fun sh => (sh.1, (0, 0))) })),
        parked := { z.parked with programs := progs } })
    replyC (rebuildTable s2) rq 0x0132 .ok .none []

/-- A park goes on once the windows of every image are closed and its tags released (R152), and the cores of its write-backs
are up (R812). -/
def finishPark (s : State) (c : Nat) : State :=
  match tget? s.ctxs c with
  | none => s
  | some x => match x.parking with
    | none => s
    | some rq =>
      if x.st = .resident ∧ allQuiet s c x ∧ workReady s (parkDone s c x rq) c then parkDone s c x rq else s

/-- Carry on a destroy, a park or an unload that waits, after a job has stopped or a write or a tile has landed. -/
def settle (s : State) (c : Nat) : State := schedule (finishDestroy (finishPark (finishUnload (tryStop s c) c) c) c)

/-- The last stage of an outgoing job reaches its pre-emption point and the core switches (R381). -/
def execPreemptionPoint (core slot : Nat) (s : State) : Out :=
  .next (match stageCtx s core slot with
    | none => s
    | some c => settle (preemptionPoint s core slot) c)

/-- Key retirement (R658, R367): after every zero-fill of the context its key set leaves the key store and the
ID returns to FREE. -/
def execKeyRetirement (ctx : Nat) (s : State) : Out :=
  .next (match tget? s.ctxs ctx with
    | none => s
    | some x =>
      if x.retiring ∧ x.fills.isEmpty then
        { s with
          ctxs := terase s.ctxs ctx,
          sec := { s.sec with keys := s.sec.keys.filter (fun k => !(k == x.key)) },
          sealedRegions := s.sealedRegions.filter (fun r => !(r.2 == ctx)) }
      else s)

/-! ## PARK (R391, R392) -/

/-- PREEMPT in mode PARK (R391, R392): the park area is charged, every open window is closed, and the rest follows once
they are. -/
def execPreemptPark (rq : Req) (s : State) : Out :=
  .next (let t := onCtx s rq 0x0132 (fun x =>
    if x.st ≠ .resident ∨ x.sealed ∨ x.job.isSome ∨ !x.runQ.isEmpty ∨ x.parking.isSome ∨ !x.unloading.isEmpty then
      replyC s rq 0x0132 .refused .preemptState []
    else onFirmware s (match makeRoom s rq.ctx 3 0 (parkGranules x) with
      | (s1, false) => replyC s1 rq 0x0132 .noQuota .ctxParkQuota []
      | (s1, true) =>
        let s2 := modCtx s1 rq.ctx (fun y => { y with
          parking := some rq, parked := { y.parked with granules := parkGranules x } })
        x.images.foldl (fun a e => closeImage a e.2) s2) rq.ctx (.preemptPark rq))
    if ((tget? s.ctxs rq.ctx).bind Ctx.parking).isSome then t else finishPark t rq.ctx)

/-! ## Bring-in (R393, R394) -/

/-- Place the shares of one image again (step 1 of R393), or none when one does not fit. -/
def placeImage (s : State) (c : Nat) (slot : Nat) (im : Image) (need : Tab Nat) : Option State :=
  need.foldl (fun (acc : Option State) e => match acc with
    | none => none
    | some a => match tget? a.ctxs c with
      | none => none
      | some x => (placeShare a c x e.1 e.2).map (fun row =>
          modCtx a c (fun y =>
            let old := tget y.images im slot
            { y with images := tset y.images slot { old with shares := tset old.shares e.1 (row, e.2) } }))) (some s)

/-- The rows that an image's shares need: what it held before the park. -/
def imageNeed (im : Image) : Tab Nat :=
  im.rows.filter (fun e => decide (0 < e.2))

/-- Place every image's shares. -/
def placeAll (s : State) (c : Nat) : Option State :=
  match tget? s.ctxs c with
  | none => none
  | some x => x.images.foldl (fun (acc : Option State) e => acc.bind (fun a => placeImage a c e.1 e.2 (imageNeed e.2))) (some s)

/-- Restore the program rows of a bring-in through the firmware view (step 2 of R393). -/
def restorePrograms (c : Nat) : List (Nat × Nat × Bytes) → State → Except Status State
  | [], s => .ok s
  | e :: r, s => match (tget? s.ctxs c).bind (fun x => (tget? x.images e.1).bind (fun im => tget? im.shares e.2.1)) with
    | some sh => (firmwareWrite s (firmwareAddr (homeOf s e.2.1) (sh.1 * 256)) e.2.2).bind (fun s1 =>
        restorePrograms c r (countBytes s1 c 3 1 e.2.2.length))
    | none => restorePrograms c r s

/-- Place the recorded upper copies again in ascending handle; one that no longer fits is skipped (step 3 of R393, R394). -/
def restoreUppers (s : State) (c : Nat) (uppers : List (Nat × Nat × Nat)) : State :=
  uppers.foldl (fun a e => match (tget? a.ctxs c).bind (fun x => tget? x.objs e.1) with
    | some o => if o.upper.isNone then (placeObj a c e.1 e.2.1 e.2.2 o).1 else a
    | none => a) s

/-- The effect of a bring-in whose shares are placed (steps 1 to 3 of R393): their rows are cleared, and the program rows and
upper copies return. -/
def bringIn (s : State) (c : Nat) (x : Ctx) : Except Status State :=
  let s1 := ((tget s.ctxs {} c).images).foldl (fun a e => clearShares a e.2.shares) s
  (restorePrograms c x.parked.programs (modCtx s1 c (fun y => { y with parked := {} }))).map (fun s2 =>
    rebuildTable (modCtx (restoreUppers s2 c x.parked.uppers) c (fun y => { y with st := .resident })))

/-- A RUN at the head of a PARKED context's queue starts a bring-in (R393, R394), which goes on once the cores and banks of its
copies are up (R237, R812): the shares are placed, program rows and upper copies return, and the job starts. -/
def execBringIn (ctx : Nat) (s : State) : Out :=
  .next (match tget? s.ctxs ctx with
    | none => s
    | some x => match x.runQ with
      | [] => s
      | r :: rest =>
        if x.st ≠ .parked then s
        else if !slotRuns x r.slot then refuseRun s ctx r rest .refused .loadEmpty
        else if !x.images.isEmpty ∧ 64 < entriesWith s ctx then
          refuseRun s ctx r rest .noQuota .schedTableFull
        else match placeAll s ctx with
          | none => refuseRun s ctx r rest .noQuota .ctxBringIn
          | some s1 => match bringIn s1 ctx x with
            | .error st => refuseRun s ctx r rest st .none
            | .ok s2 =>
              if workReady s s2 ctx then startNext (wakeFor s2 ctx (tget s2.ctxs {} ctx)) ctx else s)

end Sys2Proof.Machine
end

