-- ==== Sys2Proof/Machine/Arrivals.lean ====
section
/-!
DEFINITION. The events of windows (04): the check and the landing of a write, waits, the completion of a
close, view fences, and the power that a waiting write needs.
-/

namespace Sys2Proof.Machine

/-- Carry on whatever a context waits to have quiet: its destruction, an unload, an order to stop. -/
def settleAll (s : State) : State := s.ctxs.foldl (fun a e => settle a e.1) s

/-- A write header from a block of the device reaches its home (R157, R166). -/
def execWindowWriteCheck (hdr : WinHdr) (s : State) : Out := .next (offerWrite s hdr .block).1

/-- The last byte of an accepted write lands and counts (R160, R167). -/
def execWindowWriteLand (flight : Nat) (s : State) : Out := .next (settleAll (landAndTell s flight))

/-- A CLOSING window whose accepted writes have landed becomes CLOSED (R170). `space` 0 to 7 is the Deck of a
logical core and 8 the Span. -/
def execWinCloseComplete (space entry : Nat) (s : State) : Out :=
  .next (settleAll (closeDone s (winKey (homeOf s space) entry)))

/-- A stage of the owner begins to wait on a window (R162, R163), raising THRESHOLD if it says so. A second
waiting stage ends its job with PIPE_WAIT. -/
def execWinWait (core slot space win : Nat) (threshold : Option Nat) (s : State) : Out :=
  .next (match stageCtx s core slot with
    | none => s
    | some c => match (tget? s.ctxs c).bind Ctx.job with
      | none => s
      | some j => match keyOf s c j.run.slot space win with
        | none => s
        | some k =>
          let w := { winAt s k with threshold := (threshold.getD (winAt s k).threshold) % 2 ^ 32 }
          if w.waiting.isSome then failJob s c .pipeWait
          else if waitSatisfied w ∨ w.state = .closed then setWin s k w
          else
            let s1 := modStage (setWin s k { w with waiting := some (core, slot) }) c core slot
              (fun r => { r with st := .waiting space win })
            schedule (tryStop s1 c))

/-- A stage program's view fence: its narrow writes become visible to the wide view, and wide writes to the
narrow view (R141, R142). A byte that an unfenced narrow write and a wide write both reach takes the narrow one here (DESIGN
CHOICE, entry 103: R141 leaves open which). -/
def execViewFence (core slot : Nat) (s : State) : Out :=
  .next (match stageCtx s core slot with
    | none => s
    | some _ =>
      let p := physOf s core
      let k := coreOf s p
      let s1 := setRam s p (k.narrow.foldl (fun r c => r.write c.1 [c.2]) (ramOf s p))
      setCore s1 p { k with narrow := [], wideRows := [] })

/-- The Deck island of a down core is up, and the writes that waited at its router are checked (R617). -/
def execDeckIslandPowerUp (core : Nat) (s : State) : Out :=
  .next (if bit s.pwr.up core ∨ !(s.waitHdrs.any (fun h => h.1.space == core)) then s
    else retryWaits { s with pwr := { s.pwr with islands := s.pwr.islands ||| (1 <<< core) } })

/-- A Span bank powers up: the valid bits of its rows are cleared, and what waited for it goes on (R151, R237). -/
def execSpanBankPowerUp (bank : Nat) (s : State) : Out :=
  .next (if 16 ≤ bank ∨ bit s.pwr.up (16 + bank) then s
    else settleAll (releaseWork (retryWaits { s with
      span := s.span.flashClear (bank * 8192) (bank * 8192 + 8192),
      pwr := { s.pwr with up := s.pwr.up ||| (1 <<< (16 + bank)) } })))

end Sys2Proof.Machine
end

