-- ==== Sys2Proof/Machine/Vector.lean ====
section
/-!
DEFINITION. The vector-and-scan unit (03): its operations on FP32 patterns. A function result is a free value that its
error bound admits (R123, R124, R805). The front uses the functions of ACT 0x3 to 0x6 (R121) and the stream routine the
scan; the other operations serve stage programs, which are opaque content (R15), so no command names them (entry 94).
-/

namespace Sys2Proof.Machine

/-! ## Exact and rounded operations (R74, R123) -/

/-- An FP32 pattern as a value. -/
def f32 (w : Nat) : Val := fp32.decode w

/-- Addition, subtraction, multiplication and fused multiply-add of FP32 patterns, rounded once (R74); a result that
underflows keeps its sign (R37). -/
def addW (x y : Nat) : Nat := fp32.encode ((f32 x).add (f32 y))
def subW (x y : Nat) : Nat := fp32.encode ((f32 x).add (f32 y).neg)
def mulW (x y : Nat) : Nat := fp32.encode ((f32 x).mul (f32 y))
def fmaW (x y z : Nat) : Nat := fp32.encode (((f32 x).mul (f32 y)).add (f32 z))

/-- Whether a pattern is a NaN. -/
def isNanW (x : Nat) : Bool := f32 x == .nan

/-- Minimum and maximum, exact; a NaN operand gives the canonical NaN (DEDUCED from R36, entry 94). -/
def minW (x y : Nat) : Nat := if isNanW x || isNanW y then fp32.nan else if (f32 y).lt (f32 x) then y else x
def maxW (x y : Nat) : Nat := if isNanW x || isNanW y then fp32.nan else if (f32 x).lt (f32 y) then y else x

/-- Compare: less than, and equal; false of a NaN. -/
def ltW (x y : Nat) : Bool := (f32 x).lt (f32 y)
def eqW (x y : Nat) : Bool := !isNanW x && !isNanW y && !ltW x y && !ltW y x

/-- Select, absolute value and negation: exact. -/
def selectW (c : Bool) (x y : Nat) : Nat := if c then x else y
def absW (x : Nat) : Nat := if isNanW x then fp32.nan else x % 2 ^ 31
def negW (x : Nat) : Nat := if isNanW x then fp32.nan else (x + 2 ^ 31) % 2 ^ 32

/-- Conversion of a narrow element to FP32, exact, and of an INT32, rounded to nearest even. -/
def widenW (fmt w : Nat) : Nat := fp32.encode (elemVal fmt w)
def ofInt32W (w : Nat) : Nat := fp32.encode (Val.ofInt (toSigned 32 w))

/-- Conversion of a value to a format code, as an element pattern (R68 to R71, R75). -/
def roundFmt (fmt recip : Nat) (z : Int) (x : Val) : Nat :=
  match floatFmt fmt with
  | some f => f.encode x
  | none =>
    let w := if fmt = 0 then 4 else 8
    ofSigned w (toIntFmt w (fp32.decode recip) z x)

/-- Conversion of an FP32 pattern to a narrow format (R75). -/
def narrowW (fmt recip : Nat) (z : Int) (x : Nat) : Nat := roundFmt fmt recip z (f32 x)

/-! ## Windows and reductions (R123) -/

/-- A depthwise window: one fused multiply-add per tap, taps in raster order. -/
def depthwiseW (taps : List (Nat × Nat)) : Nat := taps.foldl (fun acc t => fmaW t.1 t.2 acc) 0

/-- Max pooling over the inputs of a window, exact. -/
def maxPoolW : List Nat → Nat
  | [] => 0
  | x :: r => r.foldl maxW (if isNanW x then fp32.nan else x)

/-- Average pooling: the sum in raster order, times the FP32 reciprocal of the count. -/
def avgPoolW : List Nat → Nat
  | [] => 0
  | x :: r => mulW (r.foldl addW x) (fp32.encode (.num 1 (r.length + 1)))

/-- One level of the pairwise tree: lanes 2i and 2i + 1 are joined. -/
def pairLanes (f : Nat → Nat → Nat) : List Nat → List Nat
  | x :: y :: r => f x y :: pairLanes f r
  | l => l

/-- The horizontal reduction of 64 lanes by a fixed pairwise tree. -/
def horizontalW (f : Nat → Nat → Nat) (lanes : List Nat) : Nat :=
  ((List.range 6).foldl (fun l _ => pairLanes f l) lanes).headD 0
def sumLanesW (lanes : List Nat) : Nat := horizontalW addW lanes
def maxLanesW (lanes : List Nat) : Nat := horizontalW maxW lanes

/-! ## The exact values of the functions (R805)

A real number stands as an integer over 2^320. Each value below differs from the real one by less than 2^-100, or by less
than one part in 2^100 of it, which is far below every bound of R123 (entry 95). -/

/-- The fraction bits. -/
def qBits : Nat := 320

/-- The integer that stands for 1. -/
def qOne : Int := 2 ^ qBits

/-- A fraction, and the product and quotient of two numbers. -/
def qOf (n : Int) (d : Nat) : Int := Int.fdiv (n * qOne) d
def qMul (a b : Int) : Int := Int.fdiv (a * b) qOne
def qDiv (a b : Int) : Int := if b = 0 then 0 else Int.fdiv (a * qOne) b

/-- A number as a value. -/
def qVal (a : Int) : Val := .num a (2 ^ qBits)

/-- The square root of a non-negative number. -/
def qSqrt (a : Int) : Int := (Nat.sqrt (a.toNat * 2 ^ qBits) : Int)

/-- Σ over k < n of a term that the one before gives. -/
def qSeries (n : Nat) (first : Int) (next : Nat → Int → Int) : Int :=
  ((List.range n).foldl (fun (s : Int × Int) k => (s.1 + s.2, next k s.2)) (0, first)).1

/-- 2 artanh z for |z| ≤ 1/3: the sum of 2 z^(2k+1) / (2k+1). -/
def qArtanh2 (z : Int) : Int :=
  let z2 := qMul z z
  2 * ((List.range 128).foldl (fun (s : Int × Int) k => (s.1 + Int.fdiv s.2 (2 * k + 1), qMul s.2 z2)) (0, z)).1

/-- ln 2. -/
def qLn2 : Int := qArtanh2 (qOf 1 3)

/-- arctan (1/n), and π by Machin's formula. -/
def qArctanInv (n : Nat) : Int :=
  ((List.range 160).foldl (fun (s : Int × Int) k =>
    (s.1 + (if k % 2 = 0 then 1 else -1) * Int.fdiv s.2 (2 * k + 1), Int.fdiv s.2 (n * n))) (0, qOf 1 n)).1
def qPi : Int := 4 * (4 * qArctanInv 5 - qArctanInv 239)

/-- exp of a number, as a value; beyond ±200 it is taken at the bound, where FP32 overflows or rounds to zero. -/
def qExp (x : Int) : Int × Int :=
  let y := sat (-200 * qOne) (200 * qOne) x
  let k := Int.fdiv y qLn2
  let r := y - k * qLn2
  (qSeries 100 qOne (fun n t => Int.fdiv (qMul t r) (n + 1)), k)

/-- A mantissa and a binary exponent as a value. -/
def qScaled (m : Int × Int) : Val := (qVal m.1).scale m.2

/-- exp of a number that is at most 0. -/
def qExpNeg (x : Int) : Int :=
  let m := qExp (min 0 x)
  m.1 / 2 ^ (-m.2).toNat

/-- ln of a positive fraction. -/
def qLog (n : Int) (d : Nat) : Int :=
  let e : Int := (Nat.log2 n.toNat : Int) - Nat.log2 d
  let m := if 0 ≤ e then qOf n (d * 2 ^ e.toNat) else qOf (n * 2 ^ (-e).toNat) d
  e * qLn2 + qArtanh2 (qDiv (m - qOne) (m + qOne))

/-- sin, reduced to one turn. -/
def qSin (x : Int) : Int :=
  let t := 2 * qPi
  let r := x - Int.fdiv (2 * x + t) (2 * t) * t
  qSeries 60 r (fun n u => - Int.fdiv (qMul (qMul u r) r) ((2 * n + 2) * (2 * n + 3)))
def qCos (x : Int) : Int := qSin (x + Int.fdiv qPi 2)

/-- sigmoid (R805). -/
def qSigmoid (x : Int) : Int :=
  let e := qExpNeg (-|x|)
  if 0 ≤ x then qDiv qOne (qOne + e) else qDiv e (qOne + e)

/-- erf, by the series of positive terms; beyond ±12 it is ±1. -/
def qErf (z : Int) : Int :=
  if 12 * qOne < z then qOne
  else if z < -12 * qOne then -qOne
  else
    let y2 := qMul z z
    let s := qSeries 900 z (fun n t => Int.fdiv (2 * qMul t y2) (2 * n + 3))
    qMul (qDiv (2 * qOne) (qSqrt qPi)) (qMul (qExpNeg (-y2)) s)

/-! ## The functions (R123, R124, R805) -/

/-- The functions of one or two operands that R123 holds to an error bound. -/
inductive VecFn where
  | reciprocal | rsqrt | division | sqrt | exp | exp2 | log | log2 | sin | cos | tanh | sigmoid | silu
  | geluTanh | geluErf
deriving DecidableEq, Repr

/-- The index under which `Config.freeResult` gives a function's free result. -/
def VecFn.index : VecFn → Nat
  | .silu => 3 | .geluTanh => 4 | .sigmoid => 5 | .tanh => 6 | .reciprocal => 7 | .rsqrt => 8 | .division => 9 | .sqrt => 10
  | .exp => 11 | .exp2 => 12 | .log => 13 | .log2 => 14 | .sin => 15 | .cos => 16 | .geluErf => 17

/-- The functions of ACT 0x3 to 0x6 (R119). -/
def actFn (act : Nat) : VecFn :=
  match act with
  | 3 => .silu
  | 4 => .geluTanh
  | 5 => .sigmoid
  | _ => .tanh

/-- x times sigmoid y. -/
def xSigmoid (n : Int) (d : Nat) (y : Int) : Val := (Val.num n d).mul (qVal (qSigmoid y))

/-- The argument of the tanh form, twice √(2/π) × (x + 0.044715 × x³): GELU is x × sigmoid of it. -/
def geluArg (n : Int) (d : Nat) : Int :=
  let lim := fun (v : Int) => sat (-200 * qOne) (200 * qOne) v
  let x := lim (qOf n d)
  lim (2 * qMul (qSqrt (qDiv (2 * qOne) qPi)) (x + qMul (qOf 44715 1000000) (qMul x (qMul x x))))

/-- The named expression of a finite non-zero `x` = n / d, and of a finite `y` for a division; none outside the
function's domain or the range of sin and cos (R124, R805). -/
def VecFn.exact (f : VecFn) (n : Int) (d : Nat) (y : Val) : Option Val :=
  match f with
  | .reciprocal => some (if n < 0 then .num (-d) n.natAbs else .num d n.natAbs)
  | .rsqrt => if n < 0 then none else some (qScaled
      (let e := Nat.log2 n.toNat / 2; (qDiv qOne (qSqrt (Int.fdiv (qOf n d) (2 ^ (2 * e)))), -(e : Int))))
  | .division => match y with
    | .num m e => if m = 0 then none else some (if m < 0 then .num (-(n * e)) (d * m.natAbs) else .num (n * e) (d * m.natAbs))
    | _ => none
  | .sqrt => if n < 0 then none else some (qVal (qSqrt (qOf n d)))
  | .exp => some (qScaled (qExp (qOf n d)))
  | .exp2 => some (qScaled (qExp (qMul (qOf n d) qLn2)))
  | .log => if n < 0 then none else some (qVal (qLog n d))
  | .log2 => if n < 0 then none else some (qVal (qDiv (qLog n d) qLn2))
  | .sin => if 65536 * d < n.natAbs then none else some (qVal (qSin (qOf n d)))
  | .cos => if 65536 * d < n.natAbs then none else some (qVal (qCos (qOf n d)))
  | .tanh => some (qVal (2 * qSigmoid (2 * qOf n d) - qOne))
  | .sigmoid => some (qVal (qSigmoid (qOf n d)))
  | .silu => some (xSigmoid n d (qOf n d))
  | .geluTanh => some (xSigmoid n d (geluArg n d))
  | .geluErf => some ((Val.num n (2 * d)).mul (qVal (qOne + qErf (qDiv (qOf n d) (qSqrt (2 * qOne))))))

/-- The limiting value of an infinite or zero operand (R124); none where the operand lies outside the domain, or outside
the range of sin and cos. A −0 is treated as zero (R37). -/
def VecFn.limit (f : VecFn) (x : Val) : Option Val :=
  match f, x with
  | .reciprocal, .inf _ => some .zero
  | .reciprocal, _ => some (.inf false)
  | .rsqrt, .inf neg => if neg then none else some .zero
  | .rsqrt, _ => some (.inf false)
  | .division, _ => none
  | .sqrt, .inf neg => if neg then none else some (.inf false)
  | .sqrt, _ => some .zero
  | .exp, .inf neg => some (if neg then .zero else .inf false)
  | .exp2, .inf neg => some (if neg then .zero else .inf false)
  | .exp, _ => some (Val.ofInt 1)
  | .exp2, _ => some (Val.ofInt 1)
  | .log, .inf neg => if neg then none else some (.inf false)
  | .log2, .inf neg => if neg then none else some (.inf false)
  | .log, _ => some (.inf true)
  | .log2, _ => some (.inf true)
  | .sin, .inf _ => none
  | .cos, .inf _ => none
  | .sin, _ => some .zero
  | .cos, _ => some (Val.ofInt 1)
  | .tanh, .inf neg => some (Val.ofInt (if neg then -1 else 1))
  | .tanh, _ => some .zero
  | .sigmoid, .inf neg => some (Val.ofInt (if neg then 0 else 1))
  | .sigmoid, _ => some (.num 1 2)
  | _, .inf neg => some (if neg then .zero else .inf false)
  | _, _ => some .zero

/-- One unit in the last place of a value in FP32, and the distance of two values, as fractions over a common
denominator: `distLe v w n d` says that |v − w| is at most n / d. -/
def ulp32 (v : Val) : Val :=
  match v with
  | .num n d =>
    if n = 0 then .num 1 (2 ^ 149)
    else
      let e0 : Int := (Nat.log2 n.natAbs : Int) - Nat.log2 d
      let e := if (if 0 ≤ e0 then decide (n.natAbs < d * 2 ^ e0.toNat) else decide (n.natAbs * 2 ^ (-e0).toNat < d))
        then e0 - 1 else e0
      (Val.ofInt 1).scale (max (-149) (e - 23))
  | v => v
def distLe (v w t : Val) : Bool :=
  match v, w, t with
  | .num n d, .num m e, .num k f => decide (((n * e - m * d).natAbs : Int) * f ≤ k * (d * e))
  | _, _, _ => false

/-- The error bound of a function at an exact result (R123). -/
def VecFn.bound (f : VecFn) (v : Val) : Val :=
  let u := ulp32 v
  let larger := fun (a b : Val) => if a.lt b then b else a
  let ulps := fun (k : Nat) => (Val.ofInt k).mul u
  let small := match v with
    | .num n d => decide (n.natAbs * 2 ^ 126 < d)
    | _ => false
  match f with
  | .reciprocal => ulps 1
  | .rsqrt => ulps 1
  | .exp => if small then .num 1 (2 ^ 149) else ulps 2
  | .exp2 => if small then .num 1 (2 ^ 149) else ulps 2
  | .sin => .num 1 (2 ^ 22)
  | .cos => .num 1 (2 ^ 22)
  | .tanh => larger (ulps 3) (.num 1 (2 ^ 24))
  | .sigmoid => larger (ulps 3) (.num 1 (2 ^ 24))
  | .silu => larger (ulps 4) (.num 1 (2 ^ 24))
  | .geluTanh => larger (ulps 4) (.num 1 (2 ^ 24))
  | .geluErf => larger (ulps 4) (.num 1 (2 ^ 24))
  | _ => ulps 2

/-- A free result held to the bound of R123: the part's own approximation (`Config.freeResult`, a fixed function of the
operand bits, R124) where the bound admits it, and otherwise the exact value rounded to nearest. -/
def withinBound (f : VecFn) (v : Val) (x y : Nat) : Nat :=
  let w := (Config.freeResult f.index (BitVec.ofNat 32 x) (BitVec.ofNat 32 y)).toNat
  if distLe (f32 w) v (f.bound v) then w else fp32.encode v

/-- A function of the vector unit on FP32 patterns (R123, R124, R805); `y` is the divisor of a division. -/
def VecFn.eval (f : VecFn) (x y : Nat) : Nat :=
  let put := fun (o : Option Val) => match o with
    | some v => fp32.encode v
    | none => fp32.nan
  if f = .division then
    match f32 x, f32 y with
    | .nan, _ => fp32.nan
    | _, .nan => fp32.nan
    | .inf _, .inf _ => fp32.nan
    | .inf a, .num m _ => fp32.encode (.inf (a != decide (m < 0)))
    | .num _ _, .inf _ => 0
    | .num n d, .num m e =>
      if m = 0 then (if n = 0 then fp32.nan else fp32.encode (.inf (decide (n < 0))))
      else if n = 0 then 0
      else match f.exact n d (.num m e) with
        | some v => withinBound f v x y
        | none => fp32.nan
  else
    match f32 x with
    | .nan => fp32.nan
    | .inf a => put (f.limit (.inf a))
    | .num n d =>
      if n = 0 then put (f.limit .zero)
      else match f.exact n d .zero with
        | some v => withinBound f v x y
        | none => fp32.nan

end Sys2Proof.Machine
end

