-- ==== Sys2Proof/Machine/Decimate.lean ====
section
/-!
DEFINITION. From PDM bits to samples and features (12): the CIC and FIR filters of the two decimation paths, in exact arithmetic
up to the rounding of R446 (DESIGN CHOICE, entry 107), and the spotter's front end.
-/

namespace Sys2Proof.Machine

/-! ## The filters (R444, R445) -/

/-- An FIR stage: its taps in units of 2⁻³², and the factor by which it decimates. -/
structure Fir where
  taps : List Int
  dec : Nat
deriving DecidableEq, Repr

/-- A decimation path: the order and factor of its CIC filter, its FIR stages, and the width of its samples. -/
structure DecimPath where
  order : Nat
  ratio : Nat
  firs : List Fir
  width : Nat
deriving DecidableEq, Repr

/-- A list made `n` long with zeros. -/
def padded (n : Nat) (l : List Word) : List Word := (l ++ List.replicate n 0).take n

/-- One input passes the integrators, each adding what the one before it holds. -/
def integrate : List Word → Word → List Word
  | [], _ => []
  | a :: r, x => (a + x) :: integrate r (a + x)

/-- One value passes the combs, each taking away its previous input. -/
def combs : List Word → Word → List Word × Word
  | [], x => ([], x)
  | p :: r, x =>
    let (q, y) := combs r (x - p)
    (x :: q, y)

/-- A PDM bit passes the CIC filter: a 1 is +1 and a 0 is -1 (R446); every `ratio` bits a value leaves. -/
def cicStep (p : DecimPath) (d : Decim) (b : Bool) : Decim × Option Int :=
  let i := integrate (padded p.order d.integ) (if b then 1 else -1)
  if d.phase + 1 < p.ratio then ({ d with integ := i, phase := d.phase + 1 }, none)
  else
    let (c, y) := combs (padded p.order d.comb) (i.getLastD 0)
    ({ d with integ := i, comb := c, phase := 0 }, some y.toInt)

/-- A value passes the FIR stages: the new delay lines and counts, and the output when every stage gives one. -/
def firChain : List Fir → List (List Int) → List Nat → Int → List (List Int) × List Nat × Option Int
  | [], _, _, x => ([], [], some x)
  | f :: r, ls, ts, x =>
    let line := (x :: ls.headD []).take f.taps.length
    if ts.headD 0 + 1 < f.dec then (line :: ls.tail, (ts.headD 0 + 1) :: ts.tail, none)
    else
      let (l, t, y) := firChain r ls.tail ts.tail (((f.taps.zip line).map (fun q => q.1 * q.2)).sum)
      (line :: l, 0 :: t, y)

/-- A PDM bit passes a whole path. -/
def decimStep (p : DecimPath) (d : Decim) (b : Bool) : Decim × Option Int :=
  match cicStep p d b with
  | (d1, none) => (d1, none)
  | (d1, some v) =>
    let (l, t, y) := firChain p.firs d1.lines d1.turns v
    ({ d1 with lines := l, turns := t }, y)

/-- A run of PDM bits passes a path: what leaves it, oldest first. -/
def decimate (p : DecimPath) : Decim → List Bool → Decim × List Int
  | d, [] => (d, [])
  | d, b :: r =>
    let (d1, y) := decimStep p d b
    let (d2, ys) := decimate p d1 r
    (d2, y.toList ++ ys)

/-- What a path gives for positive full scale, all ones (R446). -/
def DecimPath.full (p : DecimPath) : Nat := p.ratio ^ p.order * 2 ^ (32 * p.firs.length)

/-- The low-power path at a setting of AUD_PDM.DIV (R444). -/
def lpPath (div : Nat) : DecimPath :=
  { order := 4, ratio := 768 / div, firs := [⟨(List.range 31).map Config.lpTap, 2⟩], width := 16 }

/-- The high-quality path (R445). Its half-band stages have at most 255 taps (DESIGN CHOICE, entry 107: their number is not
stated, and the group delay of R447 bounds it). -/
def hqPath (div : Nat) : DecimPath :=
  { order := 5, ratio := 64 / div,
    firs := (List.range 3).map (fun k => ⟨(List.range 255).map (Config.hqHalfTap k), 2⟩) ++
      [⟨(List.range 63).map Config.hqTap, 1⟩],
    width := 24 }

/-- A sample (R446): the path's output times the gain in u4.12, rounded to nearest even and saturated to the path's width. -/
def gained (p : DecimPath) (gain : Nat) (v : Int) : Int :=
  sat (-(2 ^ (p.width - 1))) (2 ^ (p.width - 1) - 1) (rne (v * gain * 2 ^ (p.width - 1)) (p.full * 4096))

/-- A channel's bit of a clock period (R441): channel 2i on the rising edge and channel 2i + 1 on the falling edge. -/
def pdmBit (x : Pdm) (ch : Nat) : Bool := bit (if ch % 2 = 0 then x.rise else x.fall) (ch / 2)

/-! ## The spotter's front end (R455) -/

/-- The Hann window at sample `n` of 400. -/
def hannAt (n : Nat) : Int :=
  (qOne - qCos (Int.fdiv (2 * qPi * n) (if Config.hannPeriodic then 400 else 399))) / 2

/-- cos (2π k / 512) for k below 512. -/
def cosTable : List Int := (List.range 512).map (fun k => qCos (Int.fdiv (2 * qPi * k) 512))

/-- The power spectrum of the 512-point DFT of a frame of 400 weighted samples, bins 0 to 256. -/
def powerSpectrum (xs : List Int) : List Int :=
  let w := xs.mapIdx (fun n x => x * hannAt n)
  let tab := cosTable
  (List.range 257).map (fun k =>
    let re := (w.mapIdx (fun n x => qMul x (tab.getD (k * n % 512) 0))).sum
    let im := (w.mapIdx (fun n x => qMul x (tab.getD ((k * n + 384) % 512) 0))).sum
    qMul re re + qMul im im)

/-- A corner of the mel filters, in units of 2⁻¹⁶ Hz: forty filters have 42 corners. -/
def melAt (j : Nat) : Int :=
  if j = 0 then 60 * 65536 else if j = 41 then 7600 * 65536 else sat (60 * 65536) (7600 * 65536) (Config.melCorner j)

/-- The weight of filter `b` at bin `k`, which lies at 31.25 k Hz: a triangle of height 1 over corners b, b + 1 and b + 2. -/
def melWeight (b k : Nat) : Int :=
  let f : Int := k * 2048000
  let lo := melAt b
  let mid := melAt (b + 1)
  let hi := melAt (b + 2)
  if lo < f ∧ f ≤ mid then Int.fdiv ((f - lo) * qOne) (mid - lo)
  else if mid < f ∧ f < hi then Int.fdiv ((hi - f) * qOne) (hi - mid)
  else 0

/-- The feature of band `b` before its saturation, from the power spectrum. -/
def featureExact (spectrum : List Int) (b : Nat) : Int :=
  let e := (spectrum.mapIdx (fun k x => qMul (melWeight b k) x)).sum
  rne (Int.fdiv (4 * qLog (e + qOne) (2 ^ qBits) * qOne) qLn2) (2 ^ qBits) - 96

/-- The feature that the device gives: any code within one of the exact one. -/
def feature (last : List Int) (spectrum : List Int) (b : Nat) : Int :=
  let x := sat (-128) 127 (featureExact spectrum b)
  sat (-128) 127 (sat (x - 1) (x + 1) (toSigned 8 (Config.wakeFeature last b).toNat))

end Sys2Proof.Machine
end

