-- ==== Sys2Proof/Machine/Convoy.lean ====
section
/-!
DEFINITION. Convoy (05): pushing a descriptor, its check at the head of its queue, the issue, the landing and
the completion of its tiles, remote writes, and the prefetch schedule.
-/

namespace Sys2Proof.Machine

/-! ## Pushing (R201) -/

/-- Append a descriptor to a queue of a logical core's Convoy; entries after the first 64 are pushes that stall. -/
def cvPush (s : State) (core q : Nat) (e : CvEntry) : State :=
  let p := physOf s core
  let k := coreOf s p
  setCore s p { k with
    convoy := tset k.convoy q (tget k.convoy [] q ++ [{ e with id := k.nextCv }]), nextCv := k.nextCv + 1 }

/-- The firmware pushes a descriptor it has built on a core's firmware queue, and votes for that core (R812). -/
def firmwarePush (s : State) (core c slot : Nat) (purpose : CvFor) (body : Bytes) : State :=
  voteCast (cvPush (cancelDescent s 6 0 (2 ^ core)) core 3 { body := some body, ctx := c, slot := slot, purpose := purpose }) 6 0 (2 ^ core)

/-- A stage pushes the descriptor at a Deck offset of its image's share (R201, R204). -/
def execConvoyDescriptorPush (core slot off : Nat) (s : State) : Out :=
  .next (match stageRunning s core slot with
    | none => s
    | some (c, j) => cvPush s core slot { off := off, ctx := c, slot := j.run.slot })

/-! ## The check at the head (R212, R239, R718) -/

/-- A descriptor has completed but for its report. -/
def cvDone (e : CvEntry) : Bool := cvIssuedAll e && decide (e.landed = e.issued) && e.tiles.isEmpty

/-- The 32 bytes of a descriptor: the firmware's own, or those at its offset in the Deck share (R204). -/
def cvBody (s : State) (core : Nat) (e : CvEntry) : Option Bytes :=
  match e.body with
  | some b => some b
  | none => deckRead s e.ctx e.slot core e.off 32

/-- The bytes of a Deck that the read of a descriptor reads. -/
def bodyRuns (s : State) (core : Nat) (e : CvEntry) : List (Nat × Nat) :=
  let sh := shareOf s e.ctx e.slot core
  if e.body.isNone ∧ e.off + 32 ≤ sh.2 * 256 then [(sh.1 * 256 + e.off, 32)] else []

/-- Check CV_VERSION: a version, OP, format, kind or space that R204 reserves. -/
def cvReserved (d : CvDesc) : Bool :=
  d.version != 1 || decide (8 ≤ d.op) || !(decide (d.fmt ≤ 6) || d.fmt == 0xF) ||
  (d.op != 1 && decide (2 ≤ d.srcKind)) || d.dstKind == 3 || (d.dstKind != 0 && decide (9 ≤ d.space))

/-- Check CV_ENDPOINT: an object destination at home in T1 or T2 (R205), or a device the set does not have. -/
def cvEndpointBad (s : State) (x : Ctx) (d : CvDesc) : Bool :=
  (d.dstKind == 0 && (match objOf x d.dstHandle with
    | some o => decide (o.homeTier < 3)
    | none => false)) ||
  (d.dstKind == 2 && !(bit (setMembers s) d.device))

/-- Check CV_ALIGN: an offset, PITCH or CODE_DST off 32 bytes, or PITCH below the landed row length. -/
def cvAlignBad (d : CvDesc) : Bool :=
  (d.op != 1 && d.srcKind == 1 && d.srcOff % 2 ^ 24 % 32 != 0) || (d.dstKind != 0 && d.dstOff % 32 != 0) ||
  d.pitch % 32 != 0 || d.codeDst % 32 != 0 ||
  (d.pitch != 0 && decide (d.pitch < d.tpr * 64 - (if d.edgeHalf then 32 else 0)))

/-- Check CV_SHAPE: the counts do not fit the shape. -/
def cvShapeBad (d : CvDesc) : Bool :=
  d.count == 0 || ((d.tpr == 0) != (d.pitch == 0)) || (d.tpr != 0 && d.count % d.tpr != 0) ||
  (d.edgeHalf && d.fmt == 0xF)

/-- Check CV_CODES at the head: code strips from something that has none. -/
def cvCodesBad (x : Ctx) (d : CvDesc) : Bool :=
  d.codes && (codesPerRow d.fmt == 0 || (d.op != 1 && (d.srcKind != 0 || (match objOf x d.srcHandle with
    | some o => o.coding != 1
    | none => false))))

/-- Check CV_BOUNDS: an own-Deck source outside the Deck share (R83). -/
def cvBoundsBad (s : State) (core : Nat) (e : CvEntry) (d : CvDesc) : Bool :=
  d.op != 1 && d.srcKind == 1 &&
    decide ((shareOf s e.ctx e.slot core).2 * 256 < d.srcOff % 2 ^ 24 + d.count * 4096)

/-- The handles that a descriptor names (R190). -/
def cvHandles (d : CvDesc) : List Nat :=
  (if d.op ≠ 1 ∧ d.srcKind = 0 then [d.srcHandle] else []) ++ (if d.dstKind = 0 then [d.dstHandle] else [])

/-- Check OBJ_RANGE: the tiles run beyond an object. -/
def cvRangeBad (x : Ctx) (d : CvDesc) : Bool :=
  (d.op != 1 && d.srcKind == 0 && (match objOf x d.srcHandle with
    | some o => decide (o.tilesM1 + 1 < d.srcOff + d.count)
    | none => false)) ||
  (d.dstKind == 0 && (match objOf x d.dstHandle with
    | some o => decide (o.tilesM1 + 1 < d.dstOff + d.count)
    | none => false))

/-- The installed crossing of a context toward another member (R713, R718): the context at its other end. -/
def crossingTo (s : State) (c dev : Nat) : Option Nat :=
  let own := bits (live s 0x0023_0410) 26 24
  s.set.installed.findSome? (fun e =>
    if e.2.devA = own ∧ e.2.ctxA = c ∧ e.2.devB = dev then some e.2.ctxB
    else if e.2.devB = own ∧ e.2.ctxB = c ∧ e.2.devA = dev then some e.2.ctxA
    else none)

/-- The first failed check of a descriptor, in the order of the rows of R239, and R718 after them. -/
def cvCheck (s : State) (core q : Nat) (x : Ctx) (e : CvEntry) (d : CvDesc) : Option Reason :=
  if cvReserved d then some .cvVersion
  else if 2 ≤ d.op ∧ q < 3 then some .cvOp
  else if cvEndpointBad s x d then some .cvEndpoint
  else if cvAlignBad d then some .cvAlign
  else if cvShapeBad d then some .cvShape
  else if cvCodesBad x d then some .cvCodes
  else if cvBoundsBad s core e d then some .cvBounds
  else if (cvHandles d).any (fun h => (objOf x h).isNone) then some .objHandle
  else if cvRangeBad x d then some .objRange
  else if d.dstKind = 2 ∧ (crossingTo s e.ctx d.device).isNone then some .setNoCrossing
  else none

/-- R190: a Convoy descriptor that names objects of a context increments its use counter, and every object named
takes the new value. -/
def useObjs (x : Ctx) (hs : List Nat) : Ctx :=
  match hs with
  | [] => x
  | _ =>
    let n := (x.useCtr + 1) % 2 ^ 32
    { x with useCtr := n, objs := hs.foldl (fun t h => tmod t h (fun o => { o with useSeq := n })) x.objs }

/-- The use that a checked descriptor makes of its objects (R190). -/
def cvUse (x : Ctx) (d : CvDesc) : Ctx := useObjs x (cvHandles d)

/-- Take a descriptor out of its queue. -/
def cvRemove (s : State) (p q id : Nat) : State :=
  let k := coreOf s p
  setCore s p { k with convoy := tmod k.convoy q (fun l => l.filter (fun e => e.id != id)) }

/-- A move of a re-shard step has ended (R267, R271). -/
def reshardMoveDone (s : State) (c : Nat) (good : Bool) : State :=
  modJob s c (fun j => { j with
    trans := j.trans.map (fun t => { t with left := t.left - 1, failed := t.failed || !good }) })

/-- A descriptor fails at the head of its queue (R212): no byte moves, and its job ends with status FAULT. A
re-shard move that fails so counts as one that did not complete OK (R271). -/
def cvFail (s : State) (p q : Nat) (e : CvEntry) (r : Reason) : State :=
  let s1 := cvRemove s p q e.id
  match e.purpose with
  | .reshard => reshardMoveDone s1 e.ctx false
  | _ => failJob s1 e.ctx r

/-- The descriptor at the head of a queue is checked before any of its tiles issues (R212). With FENCE it
starts only after every earlier descriptor of the queue has completed (R204). -/
def execConvoyDescriptorCheck (core queue : Nat) (s : State) : Out :=
  let p := physOf s core
  let l := tget (coreOf s p).convoy [] queue
  .next (match cvHead l with
    | none => s
    | some e =>
      if e.checked ∨ !bit s.pwr.up core then s
      else match eccScan s p (bodyRuns s core e) with
      | (t, some r) => cvFail t p queue e r
      | (s, none) => match tget? s.ctxs e.ctx, cvBody s core e with
        | none, _ => cvRemove s p queue e.id
        | some _, none => cvFail s p queue e .cvBounds
        | some x, some b =>
          let d := CvDesc.parse b
          if e.off % 32 ≠ 0 then cvFail s p queue e .cvAlign
          else if d.fence ∧ (l.head?.map CvEntry.id) ≠ some e.id then s
          else match cvCheck s core queue x e d with
            | some r => cvFail s p queue e r
            | none =>
              modCv (modCtx s e.ctx (fun y => cvUse y d)) p queue e.id (fun f => { f with checked := true, body := some b }))

/-! ## Issuing tiles (R202, R203, R209) -/

/-- The Convoy tags that a queue's descriptors hold (R202). -/
def tagsOf (l : List CvEntry) : Nat := (l.map (fun e => e.issued - e.landed)).sum

/-- The beats of a logical core that hold tags (R252). -/
def beatTags (s : State) (core : Nat) : Nat :=
  min 4 (tget s.jct.skids [] core).length +
  (s.jct.slots.filter (fun j => (tget? j.parts core).isSome)).length

/-- The lane puts of a logical core that have not landed, which hold tags (R554). -/
def putTags (s : State) (core : Nat) : Nat := (s.lanes.map (fun e => (e.2.waiting.filter (fun w => w.1 == core)).length)).sum

/-- A tag is free for a queue (R202): the firmware queue has 1,024 of its own, the stage queues share 7,168. -/
def tagFree (s : State) (core queue : Nat) : Bool :=
  let k := coreOf s (physOf s core)
  if queue = 3 then decide (tagsOf (tget k.convoy [] 3) < 1024)
  else decide (((List.range 3).map (fun q => tagsOf (queueAll k q))).sum + beatTags s core + putTags s core < 7168)

/-- A stage that has stopped for an order issues no further tile (R380); a firmware queue always may. -/
def mayIssue (s : State) (core queue : Nat) (x : Ctx) : Bool :=
  queue == 3 || (match x.job with
    | some j => j.onCores && !(j.order.isSome && j.stages.any (fun r => r.core == core && r.slot == queue && atPoint s r))
    | none => false)

/-- The source read of a MOVE: the code strip, if the source has one, and the 4,096 element bytes, or why it fails (R209,
R212). -/
def moveSource (s : State) (core : Nat) (x : Ctx) (e : CvEntry) (d : CvDesc) (i : Nat) :
    Except Reason (Option Bytes × Bytes) :=
  if d.srcKind = 1 then
    (ramRead s (physOf s core) ((shareOf s e.ctx e.slot core).1 * 256 + d.srcOff % 2 ^ 24 + i * 4096) 4096).map
      (fun b => (none, b))
  else match objOf x d.srcHandle with
    | none => .error .objHandle
    | some o => match objTile s x o (d.srcOff + i) with
      | .error r => .error r
      | .ok (none, t) => if d.codes then .error .cvCodes else .ok (none, t)
      | .ok v => .ok v

/-- What a source read gives (R209, R212). OP 2 to 7, which only the firmware issues, deliver bytes that the spec does not
state, a function of the descriptor and of the bytes read alone (R76 to R79). -/
def cvSource (s : State) (core : Nat) (x : Ctx) (e : CvEntry) (d : CvDesc) (i : Nat) :
    Except Reason (Option Bytes × Bytes) :=
  if d.op = 1 then .ok (some (zeros (64 * codesPerRow d.fmt)), zeros 4096)
  else (moveSource s core x e d i).map (fun v =>
    if d.op = 0 then v
    else
      let f := Config.firmwareOp (e.body.getD []) (v.1.getD [] ++ v.2)
      (some ((List.range (64 * codesPerRow d.fmt)).map (f true)), (List.range 4096).map (f false)))

/-- The bytes of a Deck or the Span that the source read of tile `i` reads, with their home (R678, R679). -/
def srcRuns (s : State) (core : Nat) (x : Ctx) (e : CvEntry) (d : CvDesc) (i : Nat) : Nat × List (Nat × Nat) :=
  if d.op = 1 then (9, [])
  else if d.srcKind = 1 then
    (physOf s core, [((shareOf s e.ctx e.slot core).1 * 256 + d.srcOff % 2 ^ 24 + i * 4096, 4096)])
  else match objOf x d.srcHandle with
    | none => (9, [])
    | some o => match objRun s o with
      | none => (9, [])
      | some q =>
        if o.upper.isSome ∨ o.coding = 0 then (q.1, [(q.2.1 + (d.srcOff + i) * 4096, 4096)])
        else match homeRead s x o (64 + 4 * (d.srcOff + i)) 4 with
          | .error _ => (q.1, [(q.2.1, 64), (q.2.1 + 64 + 4 * (d.srcOff + i), 4)])
          | .ok b => (q.1, [(q.2.1, 64), (q.2.1 + 64 + 4 * (d.srcOff + i), 4),
              (q.2.1 + leNat b * 16, homeTileLen s x o (d.srcOff + i))])

/-- A tile fails during its transfer (R212): it lands nothing, and no later tile is issued. -/
def cvTileFail (s : State) (p q id : Nat) (r : Reason) : State :=
  modCvWalk s p q id (fun e => { e with
    issued := e.issued + 1, landed := e.landed + 1, discarded := e.discarded + 1,
    stop := if e.stop.isSome then e.stop else some (.fault, r) })

/-- The home granule that tile `i` of an object stands in, for the event of a failed read (R652). -/
def tileGranule (o : Obj) (i : Nat) : Nat := match o.upper with
  | some u => u.loc + i
  | none => o.home + i

/-- A queue issues the source read of its next tile when a tag is free for it (R203), its core and the Span
banks it reads are up (R237, R812); a fenced core issues none (R683), nor does a stage that has stopped (R380). -/
def execConvoyTileIssue (core queue : Nat) (s : State) : Out :=
  let p := physOf s core
  .next (match cvHead (tget (coreOf s p).convoy [] queue) with
    | none => s
    | some e => match e.body, tget? s.ctxs e.ctx with
      | some b, some x =>
        let d := CvDesc.parse b
        if !e.checked ∨ !tagFree s core queue ∨ !mayIssue s core queue x ∨ !bit s.pwr.up core ∨ s.fenced.contains core ∨
            (tileReads x d e.issued).any (fun k => !bit s.pwr.up (16 + k)) then s
        else
          let q := srcRuns s core x e d e.issued
          let s0 := (eccScan (draw s) q.1 q.2).1
          match cvSource s core x e d e.issued with
          | .error r =>
            let s1 := match objOf x d.srcHandle with
              | some o => integrityFail s0 e.ctx (match o.upper with
                  | some u => u.tier
                  | none => o.homeTier) (tileGranule o (d.srcOff + e.issued)) r
              | none => s0
            cvTileFail s1 p queue e.id r
          | .ok (st, t) =>
            let mask := if entryT4 x d then 2 ^ 10 else 0
            voteCast (modCv (cancelDescent s0 5 16 mask) p queue e.id (fun f => { f with
              issued := f.issued + 1, tiles := f.tiles ++ [(f.issued, st, t)] })) 5 16 mask
      | _, _ => s)

/-! ## Landing tiles (R206 to R211, R397) -/

/-- The header of a window write of a descriptor (R157, R210). -/
def cvHdr (core : Nat) (e : CvEntry) (d : CvDesc) (w : Nat × Nat × Nat × Bytes) : WinHdr :=
  { space := d.space, ctx := e.ctx, slot := e.slot, win := d.win, epoch := d.epoch, off := w.1, data := w.2.2.2,
    writer := .core core, pitch := w.2.1, row := w.2.2.1 }

/-- Take the first waiting tile off a descriptor. -/
def cvTake (s : State) (p q id : Nat) : State := modCv s p q id (fun e => { e with tiles := e.tiles.drop 1 })

/-- A tile lands in an object (R186, R209, R226, R809). -/
def landObject (s : State) (p q : Nat) (x : Ctx) (e : CvEntry) (d : CvDesc) (i : Nat) (strip t : Bytes) : State :=
  match objOf x d.dstHandle with
  | none => cvStop s p q e.id .fault .objHandle
  | some o =>
    let fresh := decide (d.dstOff = 0) && decide (d.count = o.tilesM1 + 1) && i == 0
    match objTileWrite s x o (d.dstOff + i) fresh strip t with
    | .error r => cvStop (integrityFail s e.ctx (accessTier o) (tileGranule o (d.dstOff + i)) r) p q e.id .fault r
    | .ok (s1, o1) =>
      let s2 := modCtx s1 e.ctx (fun y => { y with objs := tset y.objs d.dstHandle o1 })
      countTile (cvLanded s2 p q e.id) e d i 4096

/-- A tile, and its code strip as a write of its own, is offered to a local window (R205 to R208). -/
def landWindow (s : State) (core p q : Nat) (e : CvEntry) (d : CvDesc) (i : Nat) (strip t : Bytes) : State :=
  let w := tilePlace d i t
  let code := if d.codes then offerWrite s (cvHdr core e d (codePlace d i strip)) (.strip p q e.id) else (s, .accepted)
  match code.2 with
  | .accepted | .homeFull =>
    match offerWrite code.1 (cvHdr core e d w) (.convoy p q e.id i) with
    | (s1, .accepted) => s1
    | (s1, .homeFull) => s1
    | (s1, f) => cvStop s1 p q e.id f.report.1 f.report.2
  | f => cvStop code.1 p q e.id f.report.1 f.report.2

/-- The payload of a remote write (R719). -/
def remotePayload (s : State) (d : CvDesc) (c dst : Nat) (w : Nat × Nat × Nat × Bytes) : Bytes :=
  leBytes 1 1 ++ leBytes 1 (bits (live s 0x0023_0410) 26 24) ++ leBytes 1 d.space ++ leBytes 1 d.win ++
  leBytes 1 d.epoch ++ leBytes 1 (d.slot * 2) ++ leBytes 2 c ++ leBytes 2 dst ++ leBytes 2 w.2.2.2.length ++
  leBytes 4 w.1 ++ w.2.2.2

/-- Send one numbered write on a set session (R719, R723): LINK carries the settlement of the other direction. -/
def sendRemote (s : State) (peer : Nat) (src : RemoteFrom) (c dst : Nat) (payload : Bytes) : State :=
  let s1 := tellSettled s peer
  let r := peerAt s1 peer
  let s2 := setPeer s1 peer { r with
    nextNum := r.nextNum + 1,
    unsettled := r.unsettled ++ [{ num := r.nextNum, src := src, ctx := c, payload := payload }] }
  setSend s2 peer r.nextNum dst r.settled payload

/-- A tile is sent to a remote window (R718, R719, R724): it waits while 256 writes of the session are
unsettled. Toward a peer that is not up it completes as R726 says. The packet's header names one offset and one
length, so a pitched tile's rows travel and land one after the other (assumption log, entry 20). -/
def landRemote (s : State) (p q : Nat) (e : CvEntry) (d : CvDesc) (i : Nat) (strip t : Bytes) : State :=
  let r := peerAt s d.device
  match crossingTo s e.ctx d.device with
  | none => cvStop (cvTake s p q e.id) p q e.id .fault .setNoCrossing
  | some dst =>
    if r.state ≠ .up then cvStop (cvTake s p q e.id) p q e.id .timeout .setPeerLost
    else if 256 < r.unsettled.length + (if d.codes then 2 else 1) then s
    else
      let s1 := cvTake s p q e.id
      let s2 := if d.codes
        then sendRemote s1 d.device (.strip p q e.id) e.ctx dst (remotePayload s d e.ctx dst (codePlace d i strip)) else s1
      sendRemote s2 d.device (.convoy p q e.id) e.ctx dst (remotePayload s d e.ctx dst (tilePlace d i t))

/-- The next issued tile of a queue reaches its destination (R208, R210). -/
def execConvoyTileLand (core queue : Nat) (s : State) : Out :=
  let p := physOf s core
  .next (settleAll (match (queueAll (coreOf s p) queue).find? (fun e => !e.tiles.isEmpty) with
    | none => s
    | some e => match e.tiles, e.body, tget? s.ctxs e.ctx with
      | (i, st, t) :: _, some b, some x =>
        let d := CvDesc.parse b
        let strip := st.getD []
        if d.dstKind = 0 then landObject (cvTake s p queue e.id) p queue x e d i strip t
        else if d.dstKind = 2 then landRemote s p queue e d i strip t
        else landWindow (cvTake s p queue e.id) core p queue e d i strip t
      | _, _, _ => s))

/-! ## Completion (R211) -/

/-- A descriptor completes: the status and the number of tiles landed go to its stage slot or the firmware. -/
def execConvoyDescriptorComplete (core queue : Nat) (s : State) : Out :=
  let p := physOf s core
  let k := coreOf s p
  .next (match (queueAll k queue).find? cvDone with
    | none => s
    | some e =>
      let st := e.stop.getD (.ok, .none)
      let s1 := setCore s p { k with
        convoy := tmod k.convoy queue (fun l => l.filter (fun f => f.id != e.id)),
        saved := k.saved.map (fun v => (v.1, tmod v.2 queue (fun l => l.filter (fun f => f.id != e.id)))),
        convoyDone := { queue := queue, status := st.1, reason := st.2, tiles := e.landed - e.discarded } :: k.convoyDone }
      let s2 := match e.purpose with
        | .reshard => reshardMoveDone s1 e.ctx (decide (st.1 = .ok))
        | _ => s1
      settleAll (resolveWalks s2 e.ctx))

/-! ## Prefetch (R227, R228) -/

/-- The prefetch entries of a phase in schedule order. -/
def phasePrefetch (im : Image) (phase : Nat) : List PrefetchEnt := im.prefetch.filter (fun e => e.trigPhase == phase)

/-- The TRIGGER boundary of an entry has been reached by the running job. -/
def prefetchDue (j : Job) (e : PrefetchEnt) : Bool :=
  j.stages.any (fun r => r.stage == e.trigStage && decide (e.trigCount ≤ r.boundary))

/-- The logical core whose firmware queue issues an entry: the one DST_SEL.SPACE names, or for the Span the one
that hosts the NEED stage. -/
def prefetchCore (im : Image) (e : PrefetchEnt) : Nat :=
  let d := CvDesc.parse e.body
  if d.space < 8 then d.space
  else ((im.stages.find? (fun t => t.phase == e.needPhase && t.stage == e.needStage)).map StageEnt.core).getD 0

/-- A descriptor of an image's table with the handles granted at load and the current EPOCH of its destination window (R228,
R268); that of a window on another device is a value of that device, and free here. -/
def boundBody (s : State) (c slot : Nat) (im : Image) (body : Bytes) : Bytes :=
  let d := CvDesc.parse body
  let ep := if d.dstKind = 2 then Config.remoteEpoch d.device c (((tget? s.ctxs c).bind Ctx.job).map Job.id |>.getD 0) (field body 0xC 4) % 256
    else ((keyOf s c slot d.space d.win).map (fun k => (winAt s k).epoch)).getD 0
  (d.rebind (fun i => im.handles.getD i 0xFFFF) ep).bytes

/-- Issue the next prefetch entry of the current phase, if its TRIGGER boundary has been reached. -/
def issuePrefetch (s : State) (c slot : Nat) : State :=
  match imageOf s c slot, (tget? s.ctxs c).bind Ctx.job with
  | some im, some j =>
    if j.run.slot ≠ slot ∨ j.trans.isSome ∨ j.ended.isSome then s
    else match (phasePrefetch im j.phase)[im.prefetchNext]? with
      | none => s
      | some e =>
        if prefetchDue j e then
          firmwarePush (modCtx s c (fun y => { y with
              images := tmod y.images slot (fun m => { m with prefetchNext := m.prefetchNext + 1 }) }))
            (prefetchCore im e) c slot .prefetch (boundBody s c slot im e.body)
        else s
  | _, _ => s

/-- The firmware issues a prefetch entry after its trigger boundary (R228, R812). -/
def execPrefetchIssue (ctx slot : Nat) (s : State) : Out := .next (issuePrefetch s ctx slot)

end Sys2Proof.Machine
end

