-- ==== Sys2Proof/Machine/Kv.lean ====
section
/-!
DEFINITION. The paged key-value cache (07): KV_SEQ_FORK, KV_SEQ_FREE and the page walk.
-/

namespace Sys2Proof.Machine

/-! ## KV_SEQ_FORK and KV_SEQ_FREE (R280 to R289) -/

/-- The parameters of a sequence lie within R280. -/
def geomOk (g : KvGeom) : Bool :=
  decide (1 ≤ g.layers) && decide (g.layers ≤ 128) && decide (1 ≤ g.slices) && decide (g.slices ≤ 16) &&
  decide (1 ≤ g.fmtK) && decide (g.fmtK ≤ 5) && decide (1 ≤ g.fmtV) && decide (g.fmtV ≤ 5) && decide (g.coding ≤ 1) &&
  decide (64 ≤ g.maxTokens) && decide (g.maxTokens ≤ 131072) && g.maxTokens % 64 == 0

/-- The lists of a sequence. -/
def seqLists (g : KvGeom) : Nat := g.layers * 2 * g.slices

/-- The entries of a parent that a fork with prefix `p` copies, as the child holds them (R286): FILL reduced to
the prefix, an entry reduced to 0 left out. -/
def forkPtes (g : KvGeom) (p : Nat) (ptes : Tab Pte) : Tab Pte :=
  ptes.filterMap (fun e =>
    let first := e.1 % ptesPerList g * 64
    let fill := min e.2.fill (p - first)
    if p ≤ first ∨ fill = 0 then none else some (e.1, { e.2 with fill := fill }))

/-- The reference counts after the copied entries have added theirs (R284). -/
def addRefs (refs : Tab Nat) (ptes : Tab Pte) : Tab Nat :=
  ptes.foldl (fun t e => match e.2.page with
    | some h => tset t h (tget t 0 h + 1)
    | none => t) refs

/-- The page-table entries that a fork copies (R286, R540). -/
def forkCount (g : KvGeom) (p : Nat) : Nat := seqLists g * min (ptesPerList g) (ceilDiv p 64)

/-- KV_SEQ_FORK (R286, R287). -/
def execKvSeqFork (rq : Req) (child parent pfx : Nat) (geom : KvGeom) (s : State) : Out :=
  .next (onCtx s rq 0x0150 (fun x =>
    let old := if parent = 0xFFFF then none else tget? x.seqs parent
    let g := if parent = 0xFFFF then geom else (old.map KvSeq.geom).getD {}
    let copied := fun (y : Ctx) => match (if parent = 0xFFFF then none else tget? y.seqs parent) with
      | some q => forkPtes g pfx q.ptes
      | none => []
    if (tget? x.seqs child).isSome then replyC s rq 0x0150 .refused .kvSeqInUse []
    else if parent ≠ 0xFFFF ∧ old.isNone then replyC s rq 0x0150 .refused .kvSeqUnknown []
    else if 1024 ≤ child ∨ !geomOk g ∨ g.maxTokens < pfx then replyC s rq 0x0150 .refused .kvGeometry []
    else if (addRefs x.refs (copied x)).any (fun e => decide (65535 < e.2)) then replyC s rq 0x0150 .refused .kvRefcount []
    else onFirmware s (match makeRoom s rq.ctx 3 0 (seqGranules g) with
      | (s1, false) => replyC s1 rq 0x0150 .noQuota .objQuota []
      | (s1, true) =>
        let s2 := modCtx s1 rq.ctx (fun y =>
          { y with seqs := tset y.seqs child { geom := g, ptes := copied y }, refs := addRefs y.refs (copied y) })
        replyC s2 rq 0x0150 .ok .none (leBytes 4 (if parent = 0xFFFF then 0 else forkCount g pfx) ++ zeros 4))
      rq.ctx (.kvSeqFork rq child parent pfx geom)))

/-- Subtract one from a page's reference count. A page whose count reaches zero is freed (R284) once no reader's descriptors
or tags hold it any more (R308), which `reapPages` looks for. -/
def dropRef (x : Ctx) (h : Nat) : Ctx :=
  if tget x.refs 0 h ≤ 1 then { x with refs := terase x.refs h, doomed := insertNum h x.doomed }
  else { x with refs := tset x.refs h (tget x.refs 0 h - 1) }

/-- A walk that names a sequence has a descriptor that has not completed (R289). -/
def seqWalked (s : State) (c q : Nat) : Bool :=
  (ctxEntries s c).any (fun e => match e.purpose with
    | .walk n _ _ _ => n == q
    | _ => false)

/-- KV_SEQ_FREE (R289): its entries go, its pages lose a reference each, its charge returns. -/
def execKvSeqFree (rq : Req) (seq : Nat) (s : State) : Out :=
  .next (onCtx s rq 0x0151 (fun x => match tget? x.seqs seq with
    | none => replyC s rq 0x0151 .refused .kvSeqUnknown []
    | some q =>
      if seqWalked s rq.ctx seq then replyC s rq 0x0151 .busy .kvBusy []
      else
        let y := q.ptes.foldl (fun z e => match e.2.page with
          | some h => dropRef z h
          | none => z) x
        let s1 := reapPages (setCtx s rq.ctx { y with seqs := terase y.seqs seq }) rq.ctx
        onFirmware s (replyC s1 rq 0x0151 .ok .none []) rq.ctx (.kvSeqFree rq seq)))

/-! ## The walk request (R300) -/

/-- The fields of a walk request. -/
structure WalkReq where
  write : Bool
  v : Bool
  keep : Bool
  slice : Nat
  layer : Nat
  seq : Nat
  first : Nat
  count : Nat
  space : Nat
  win : Nat
  base : Nat
  stride : Nat
  pitch : Nat
  shape : Nat
deriving DecidableEq, Repr

/-- Read a walk request; its pages have the formats and tiles of R277 and R278. -/
def walkReq (b : Bytes) : WalkReq :=
  let c := field b 0 4
  { write := bit c 27, v := bit c 26, keep := bit c 25, slice := bits c 19 16, layer := bits c 6 0,
    seq := bits (field b 4 4) 9 0, first := bits (field b 8 4) 16 0, count := bits (field b 0xC 4) 17 0,
    space := bits (field b 0x10 4) 29 26, win := bits (field b 0x10 4) 15 8, base := field b 0x14 3,
    stride := field b 0x18 3, pitch := field b 0x1C 4, shape := field b 0x20 4 }

/-- KV_WALK_VERSION: a version other than 0x1, or a reserved bit of any word of the request (R300, R309). -/
def walkVersionBad (b : Bytes) : Bool :=
  let c := field b 0 4
  let w := field b 0x10 4
  bits c 31 28 != 1 || bits c 24 20 != 0 || bits c 15 7 != 0 || bits (field b 4 4) 31 10 != 0 ||
  bits (field b 8 4) 31 17 != 0 || bits (field b 0xC 4) 31 18 != 0 ||
  (!bit c 27 && (bits w 31 30 != 0 || bits w 25 16 != 0 || bits w 7 0 != 0)) ||
  field b 0x17 1 != 0 || field b 0x1B 1 != 0 || field b 0x24 4 != 0 || bits (field b 0x28 4) 30 28 != 0 ||
  bits (field b 0x28 4) 23 12 != 0 || bits (field b 0x2C 4) 31 17 != 0 || (slice b 0x30 16).any (· != 0)

/-- The blocks that a walk covers. -/
def walkBlocks (w : WalkReq) : Nat := ceilDiv w.count 64

/-- KV_WALK_RANGE, as far as the request and the share of `bound` bytes tell. -/
def walkRangeBad (bound off : Nat) (w : WalkReq) : Bool :=
  off % 64 != 0 || w.count == 0 || decide (131072 < w.count) || w.first % 64 != 0 || w.stride % 32 != 0 ||
  w.base % 32 != 0 ||
  (w.write && (List.range (walkBlocks w)).any (fun i => decide (bound < w.base + i * w.stride + 65536)))

/-- KV_WALK_RANGE against the sequence: LAYER, SLICE or the token range outside it. -/
def walkSeqBad (g : KvGeom) (w : WalkReq) : Bool :=
  decide (g.layers ≤ w.layer) || decide (g.slices ≤ w.slice) || decide (g.maxTokens < w.first + w.count)

/-- The key of the entry of block `b` of the walk's list: lists lie by layer, K before V, slice (R280). -/
def walkKey (g : KvGeom) (w : WalkReq) (b : Nat) : Nat :=
  ((w.layer * 2 + ofBool w.v) * g.slices + w.slice) * ptesPerList g + b

/-- How a walk ends: RESULT, the first missing position, and the descriptors issued (R300, R306). -/
structure WalkEnd where
  result : Nat := 0
  missing : Nat := 0
  blocks : Nat := 0
deriving DecidableEq, Repr

/-- The positions of the range that lie in the walk's block `i`. -/
def blockNeed (w : WalkReq) (i : Nat) : Nat := min 64 (w.count - 64 * i)

/-- The format of the list's pages. -/
def listFmt (g : KvGeom) (w : WalkReq) : Nat := if w.v then g.fmtV else g.fmtK

/-- CV_CTRL of a walk's descriptors (R301). -/
def walkCtrl (fmt : Nat) : Bytes := leBytes 4 (1 * 2 ^ 28 + fmt * 2 ^ 20 + 16)

/-- The descriptor of a read block (R301). -/
def readBody (w : WalkReq) (fmt page epoch i : Nat) : Bytes :=
  walkCtrl fmt ++ leBytes 4 page ++ zeros 4 ++ leBytes 4 (2 ^ 30 + w.space * 2 ^ 26 + w.win * 2 ^ 8 + epoch) ++
  leBytes 4 (w.base + i * w.stride) ++ leBytes 4 w.pitch ++ zeros 4 ++ leBytes 4 w.shape

/-- The descriptor of a written block (R301). -/
def writeBody (w : WalkReq) (fmt page i : Nat) : Bytes :=
  walkCtrl fmt ++ leBytes 4 (2 ^ 30) ++ leBytes 4 (w.base + i * w.stride) ++ leBytes 4 page ++ zeros 16

/-- Note a PTE segment in the page-walk cache of eight segments of 512 entries (R305). -/
def cachePte (s : State) (core c q key : Nat) : State :=
  let p := physOf s core
  let k := coreOf s p
  let e := (c, q, key / 512)
  if k.walkCache.contains e then s
  else setCore s p { k with walkCache := (e :: k.walkCache).take 8 }

/-- A read walk from block `i`: each block's entry must be VALID with FILL over every position (R302); it stops at a block
that is not all present and never recomputes a page (R298). Walks that meet resolve by their order (R308). -/
def walkRead (c slot core stg : Nat) (w : WalkReq) (g : KvGeom) : Nat → Nat → State → State × WalkEnd
  | 0, i, s => (s, { blocks := i })
  | n + 1, i, s =>
    let b := w.first / 64 + i
    let pte := match (tget? s.ctxs c).bind (fun x => tget? x.seqs w.seq) with
      | some q => tget q.ptes {} (walkKey g w b)
      | none => {}
    let s1 := cachePte s core c w.seq (walkKey g w b)
    match pte.page with
    | none => (s1, { result := if pte.dropped then 1 else 2, missing := 64 * b, blocks := i })
    | some h =>
      if pte.fill < blockNeed w i then (s1, { result := 2, missing := 64 * b + pte.fill, blocks := i })
      else
        let ep := ((keyOf s c slot w.space w.win).map (fun k => (winAt s k).epoch)).getD 0
        let e : CvEntry :=
          { body := some (readBody w (listFmt g w) h ep i), ctx := c, slot := slot,
            purpose := .walk w.seq (walkKey g w b) h none }
        walkRead c slot core stg w g n (i + 1) (cvPush s1 core stg e)

/-- A new KV page (R276, R294): 16 tiles in T3, coded with IBC-A under a bound of 17 granules or not at all. -/
def kvPage (g : KvGeom) (fmt : Nat) : Obj :=
  { kind := 2, encrypted := true, coding := if g.coding = 1 then 2 else 0, homeTier := 3, fmt := fmt, tilesM1 := 15,
    storedM1 := if g.coding = 1 then 16 else 15 }

/-- Set the entry of a block. -/
def setPte (s : State) (c q key : Nat) (p : Pte) : State :=
  modCtx s c (fun x => { x with seqs := tmod x.seqs q (fun t => { t with ptes := tset t.ptes key p }) })

/-- Copy tiles `i` and up of one object into another, as a Convoy MOVE does (R209); `n` remain. A tile that fails ends it, and
the tiles before it stand (R212). -/
def copyTiles (x : Ctx) (a b : Obj) : Nat → Nat → State → State × Option Reason
  | 0, _, s => (s, none)
  | n + 1, i, s => match objTile s x a i with
    | .error r => (s, some r)
    | .ok (_, t) => match objTileWrite s x b i (i == 0) [] t with
      | .error r => (s, some r)
      | .ok (s1, _) => copyTiles x a b n (i + 1) s1

/-- Copy a shared page into a new page by a MOVE on the firmware queue (R290, R303), counted as a transfer within T3
(R397) and as a use of both pages (R190). -/
def copyPage (s : State) (c old new : Nat) : State :=
  match tget? s.ctxs c with
  | none => s
  | some x => match tget? x.objs old, tget? x.objs new with
    | some a, some b =>
      let used := fun (t : State) => modCtx t c (fun y => useObjs y [old, new])
      match copyTiles x a b (a.tilesM1 + 1) 0 s with
      | (s1, none) => used (countBytes s1 c (accessTier a) 3 (homeLen s1 x b))
      | (s1, some r) => used (integrityFail (noteUe s1 a r) c 3 a.home r)
    | _, _ => s

/-- R290, R299: what a write walk does to a block's entry before any tile of the block issues: the page to write, or
none when no page can be allocated. The entry keeps its KEEP until the block's last tile has landed (R291, R293). -/
def walkEntry (s : State) (c q key : Nat) (g : KvGeom) (fmt : Nat) (pte : Pte) : State × Option Nat :=
  let fresh := fun (p : Pte) => match allocObj s c (kvPage g fmt) 0 with
    | (s1, .error _) => (s1, none)
    | (s1, .ok h) =>
      let s2 := modCtx s1 c (fun x => { x with refs := tset x.refs h 1 })
      (setPte s2 c q key { p with page := some h, dropped := false }, some h)
  match pte.page with
  | none => fresh { pte with fill := 0 }
  | some old =>
    if tget (((tget? s.ctxs c).map Ctx.refs).getD []) 0 old ≤ 1 then (s, some old)
    else match fresh pte with
      | (s1, some h) => (copyPage (modCtx s1 c (fun x => dropRef x old)) c old h, some h)
      | r => r

/-- Push the descriptor of a block of a write walk, and note what its entry takes once the block has landed (R291, R308). -/
def pushWrite (s : State) (core stg : Nat) (e : CvEntry) (w : WalkWrite) : State :=
  let p := physOf s core
  let id := (coreOf s p).nextCv
  modCtx (cvPush s core stg e) e.ctx (fun x => { x with
    walkWrites := x.walkWrites ++ [{ w with core := p, queue := stg, id := id }] })

/-- A write walk from block `i` (R290, R291, R303). -/
def walkWrite (c slot core stg : Nat) (w : WalkReq) (g : KvGeom) : Nat → Nat → State → State × WalkEnd
  | 0, i, s => (s, { blocks := i })
  | n + 1, i, s =>
    let key := walkKey g w (w.first / 64 + i)
    let pte := match (tget? s.ctxs c).bind (fun x => tget? x.seqs w.seq) with
      | some q => tget q.ptes {} key
      | none => {}
    let fill := if n = 0 then blockNeed w i else 64
    if fill < pte.fill then (s, { result := 3, blocks := i })
    else match walkEntry (cachePte s core c w.seq key) c w.seq key g (listFmt g w) pte with
      | (s1, none) => (s1, { result := 4, blocks := i })
      | (s1, some h) =>
        let e : CvEntry :=
          { body := some (writeBody w (listFmt g w) h i), ctx := c, slot := slot,
            purpose := .walk w.seq key h (some (fill, w.keep)) }
        walkWrite c slot core stg w g n (i + 1)
          (pushWrite s1 core stg e { seq := w.seq, pte := key, page := h, fill := fill, keep := w.keep })

/-- Write bytes at an offset of a Deck share, as the control core does through its narrow port (R125): a write of fewer than 8
bytes reads its 64-bit word first, and an error of it that cannot be corrected ends the job (R143, R679). -/
def deckWrite (s : State) (c slot core off : Nat) (bs : Bytes) : State :=
  let sh := shareOf s c slot core
  let put := fun (t : State) => if off + bs.length ≤ sh.2 * 256 then
      setRam t (physOf s core) ((ramOf t (physOf s core)).write (sh.1 * 256 + off) bs)
    else t
  if bs.length < 8 then withWords s c slot core off bs.length put else put s

/-- WK_STATUS, and WK_MISSING for the results that carry it (R300). -/
def walkStatus (s : State) (c slot core off : Nat) (e : WalkEnd) : State :=
  let s1 := deckWrite s c slot core (off + 0x28) (leBytes 4 (2 ^ 31 + e.result * 2 ^ 24 + e.blocks % 4096))
  if e.result = 1 ∨ e.result = 2 then deckWrite s1 c slot core (off + 0x2C) (leBytes 4 e.missing) else s1

/-- A stage hands a walk request to the page-walk routine of its control core (R301 to R307). -/
def execKvWalkRequest (core slot off : Nat) (s : State) : Out :=
  .next (match stageRunning s core slot with
    | none => s
    | some (c, j) => withWords s c j.run.slot core off 64 (fun s => match deckRead s c j.run.slot core off 64 with
      | none => failJob s c .kvWalkRange
      | some b =>
        let w := walkReq b
        if walkVersionBad b then failJob s c .kvWalkVersion
        else if walkRangeBad ((shareOf s c j.run.slot core).2 * 256) off w then failJob s c .kvWalkRange
        else match (tget? s.ctxs c).bind (fun x => tget? x.seqs w.seq) with
          | none => failJob s c .kvWalkSeq
          | some q =>
            if walkSeqBad q.geom w then failJob s c .kvWalkRange
            else
              let r := if w.write then walkWrite c j.run.slot core slot w q.geom (walkBlocks w) 0 s
                else walkRead c j.run.slot core slot w q.geom (walkBlocks w) 0 s
              walkStatus r.1 c j.run.slot core off r.2))

end Sys2Proof.Machine
end

