-- ==== Sys2Proof/Machine/Streams.lean ====
section
/-!
DEFINITION. Streams (08): the stream commands, the chunk request, the two forms of the scan, and the anchor.
-/

namespace Sys2Proof.Machine

/-! ## The scan (R310, R328 to R330) -/

/-- fmar (R328) on FP32 patterns: the rounded x × y + z and the rounded error. -/
def fmar (x y z : Nat) : Nat × Nat :=
  let p := ((f32 x).mul (f32 y)).add (f32 z)
  let r := fp32.encode p
  (r, fp32.encode (p.add (f32 r).neg))

/-- addr (R328): the rounded x + y and its exact error. -/
def addr (x y : Nat) : Nat × Nat :=
  let p := (f32 x).add (f32 y)
  let r := fp32.encode p
  (r, fp32.encode (p.add (f32 r).neg))

/-- A carried state of one channel: H and COMP (R317), as FP32 patterns. -/
structure Carry where
  h : Nat := 0
  c : Nat := 0
deriving DecidableEq, Repr

/-- The fold at an anchor (R329, R330). -/
def Carry.fold (k : Carry) : Carry :=
  let r := addr k.h k.c
  { h := r.1, c := r.2 }

/-- What the scan of one channel gives: its outputs, its state, and the state at the anchor it passed. -/
structure ScanOut where
  outs : List Nat := []
  fin : Carry := {}
  anchor : Option Carry := none
deriving DecidableEq, Repr

/-- One step of the serial form (R329) at absolute step `t`. -/
def serialStep (anchored : Bool) (o : ScanOut) (e : Nat × Nat × Nat) : ScanOut :=
  let (t, a, u) := e
  let r := fmar a o.fin.h u
  let k : Carry := { h := r.1, c := if anchored then fmaW a o.fin.c r.2 else o.fin.c }
  let hit := anchored && (t + 1) % 4096 == 0
  let k1 := if hit then k.fold else k
  { outs := o.outs ++ [k1.h], fin := k1, anchor := if hit then some k1 else o.anchor }

/-- The serial form over one channel (R329). -/
def scanSerial (anchored : Bool) (first count : Nat) (a u : Nat → Nat) (k : Carry) : ScanOut :=
  (List.range count).foldl (fun o i => serialStep anchored o (first + i, a i, u i)) { fin := k }

/-- A lane of the parallel form: A, U and C (R330), which begin at 1, 0 and 0. -/
structure ScanLane where
  a : Nat := 0x3F80_0000
  u : Nat := 0
  c : Nat := 0
deriving DecidableEq, Repr

/-- Pass 1 of lane `j` over its `b` steps (R330). -/
def lanePass1 (anchored : Bool) (b : Nat) (a u : Nat → Nat) (j : Nat) : ScanLane :=
  (List.range b).foldl (fun (l : ScanLane) i =>
    let r := fmar (a (j * b + i)) l.u (u (j * b + i))
    { a := mulW l.a (a (j * b + i)), u := r.1, c := if anchored then fmaW (a (j * b + i)) l.c r.2 else l.c }) {}

/-- One level of pass 2 with distance `d`: every lane reads the previous level (R330). -/
def lanePass2 (anchored : Bool) (ls : List ScanLane) (d : Nat) : List ScanLane :=
  ls.mapIdx (fun j l =>
    if j < d then l
    else
      let p := ls.getD (j - d) l
      { a := mulW l.a p.a, u := fmaW l.a p.u l.u, c := if anchored then fmaW l.a p.c l.c else l.c })

/-- The parallel form over one channel (R330). -/
def scanParallel (anchored : Bool) (first count : Nat) (a u : Nat → Nat) (k : Carry) : ScanOut :=
  let b := count / 64
  let ls := [1, 2, 4, 8, 16, 32].foldl (lanePass2 anchored) ((List.range 64).map (lanePass1 anchored b a u))
  let outs := (List.range 64).flatMap (fun j =>
    let x0 := if j = 0 then k.h else let p := ls.getD (j - 1) {}; fmaW p.a k.h p.u
    ((List.range b).foldl (fun (r : Nat × List Nat) i =>
      let x := fmaW (a (j * b + i)) r.1 (u (j * b + i))
      (x, r.2 ++ [x])) (x0, [])).2)
  let l := ls.getD 63 {}
  let r := fmar l.a k.h l.u
  let k1 : Carry := { h := r.1, c := if anchored then addW (fmaW l.a k.c l.c) r.2 else k.c }
  let hit := anchored && (first + count) % 4096 == 0
  let k2 := if hit then k1.fold else k1
  { outs := outs, fin := k2, anchor := if hit then some k2 else none }

/-! ## The chunk request (R321) -/

/-- The fields of a chunk request. -/
structure ScanReq where
  par : Bool
  fmt : Nat
  index : Nat
  gen : Nat
  count : Nat
  first : Nat
  uBase : Nat
  aBase : Nat
  outBase : Nat
  inPitch : Nat
  outPitch : Nat
deriving DecidableEq, Repr

/-- Read a chunk request. -/
def scanReq (b : Bytes) : ScanReq :=
  { par := bit (field b 0 4) 27, fmt := bits (field b 0 4) 26 23, index := bits (field b 4 4) 11 0, gen := field b 8 4,
    count := bits (field b 0xC 4) 12 0, first := field b 0x10 6, uBase := field b 0x18 3, aBase := field b 0x1C 3,
    outBase := field b 0x20 3, inPitch := field b 0x24 3, outPitch := field b 0x28 3 }

/-- SCAN_VERSION (R337): the version, the output format or a reserved bit. -/
def scanVersionBad (b : Bytes) : Bool :=
  let c := field b 0 4
  bits c 31 28 != 1 || bits c 22 0 != 0 || !(decide (4 ≤ bits c 26 23) && decide (bits c 26 23 ≤ 6)) ||
  bits (field b 4 4) 31 12 != 0 || bits (field b 0xC 4) 31 13 != 0 || bits (field b 0x2C 4) 30 28 != 0 ||
  bits (field b 0x2C 4) 23 13 != 0 || field b 0x16 2 != 0 || field b 0x1B 1 != 0 ||
  field b 0x1F 1 != 0 || field b 0x23 1 != 0 || field b 0x27 1 != 0 || field b 0x2B 1 != 0 ||
  (slice b 0x38 8).any (· != 0)

/-- The bytes of an output element. -/
def ScanReq.width (r : ScanReq) : Nat := if r.fmt = 6 then 4 else 2

/-- The last byte, plus one, of a region with `n` elements of `w` bytes in each of its runs. -/
def scanEnd (r : ScanReq) (channels base pitch w : Nat) : Nat :=
  if r.par then base + (channels - 1) * pitch + r.count * w else base + (r.count - 1) * pitch + channels * w

/-- SCAN_RANGE (R337), for a stream of `channels` channels and a share of `bound` bytes; a FREE stream has no
channels. -/
def scanRangeBad (bound off channels : Nat) (aConst : Bool) (r : ScanReq) : Bool :=
  off % 64 != 0 || r.count == 0 || decide (4096 < r.count) ||
  (r.par && (r.first % 64 != 0 || r.count % 64 != 0 || decide (4096 < r.first % 4096 + r.count))) ||
  r.uBase % 4 != 0 || (!aConst && r.aBase % 4 != 0) || r.outBase % r.width != 0 || r.inPitch % 4 != 0 ||
  r.outPitch % r.width != 0 ||
  (channels != 0 && (decide (bound < scanEnd r channels r.uBase r.inPitch 4) ||
    (!aConst && decide (bound < scanEnd r channels r.aBase r.inPitch 4)) ||
    decide (bound < scanEnd r channels r.outBase r.outPitch r.width)))

/-! ## Entries -/

/-- A stream of a context by index; an unlisted entry is FREE. -/
def streamAt (x : Ctx) (i : Nat) : Stream := tget x.streams {} i

/-- Change a stream. -/
def modStream (s : State) (c i : Nat) (f : Stream → Stream) : State :=
  modCtx s c (fun x => { x with streams := tset x.streams i (f (streamAt x i)) })

/-- The tiles of a state object (R317). -/
def stateTiles (channels : Nat) : Nat := ceilDiv (16 * channels) 4096

/-- A new generation (R316): the value 0 is skipped. -/
def nextGen (x : Ctx) : Nat := if (x.genCtr + 1) % 2 ^ 32 = 0 then 1 else (x.genCtr + 1) % 2 ^ 32

/-- A chunk of a stream is being scanned (R319). -/
def chunkRuns (s : State) (c i : Nat) : Bool :=
  s.cores.any (fun k => k.2.chunks.any (fun q => q.ctx == c && q.index == i && q.running))

/-- SC_STATUS, with DONE set and a RESULT of R327 (R321). -/
def scanStatus (s : State) (core : Nat) (q : Chunk) (result steps : Nat) : State :=
  deckWrite s q.ctx q.img core (q.off + 0x2C) (leBytes 4 (2 ^ 31 + result * 2 ^ 24 + steps))

/-- Take a chunk off the routine's list. -/
def dropChunk (s : State) (core : Nat) (q : Chunk) : State :=
  let p := physOf s core
  setCore s p { coreOf s p with chunks := (coreOf s p).chunks.erase q }

/-- The upper copy of a stream's state lies on its HOME_CORE (R317). -/
def statePlaced (x : Ctx) (t : Stream) : Bool :=
  match (tget? x.objs t.handle).bind Obj.upper with
  | some u => decide (u.tier = 1 ∧ u.core = t.homeCore)
  | none => false

/-- Steps 3 to 6 of R323 for a chunk that is first of its stream: it ends with a result, or it runs. -/
def startChunk (s : State) (core : Nat) (q : Chunk) : State :=
  match tget? s.ctxs q.ctx, deckRead s q.ctx q.img core q.off 64 with
  | some x, some b =>
    let r := scanReq b
    let t := streamAt x q.index
    let finish := fun (a : State) (res : Nat) => dropChunk (scanStatus a core q res 0) core q
    let run := fun (a : State) =>
      let p := physOf a core
      let k := coreOf a p
      let e := (q.ctx, q.index)
      setCore a p { k with
        chunks := k.chunks.map (fun (h : Chunk) => if h = q then { h with running := true } else h),
        streamCache := if k.streamCache.contains e then k.streamCache else e :: k.streamCache }
    if t.state = .free then finish s 4
    else if t.state = .paused then finish s 3
    else if r.gen ≠ t.gen then
      finish (modStream s q.ctx q.index (fun u => { u with stale := min (u.stale + 1) (2 ^ 32 - 1) })) 1
    else if r.first ≠ t.nextStep ∨ 2 ^ 48 < r.first + r.count then
      finish (deckWrite s q.ctx q.img core (q.off + 0x30) (leBytes 8 t.nextStep)) 2
    else if statePlaced x t then run s
    else match tget? x.objs t.handle with
      | none => finish s 5
      | some o =>
        match releaseUpper s q.ctx t.handle o with
        | (s1, some rs) => failJob (dropChunk s1 core q) q.ctx rs
        | (s1, none) => match placeObj s1 q.ctx t.handle 1 t.homeCore { o with upper := none, dirty := false } with
          | (s2, .ok _) => run s2
          | (s2, .error (.fault, rs)) => failJob (dropChunk s2 core q) q.ctx rs
          | (s2, .error _) => finish s2 5
  | _, _ => dropChunk s core q

/-- The first waiting chunk of a stream. -/
def waitingChunk (s : State) (core c i : Nat) : Option Chunk :=
  (coreOf s (physOf s core)).chunks.find? (fun q => q.ctx == c && q.index == i && !q.running)

/-- Take the waiting chunks of a stream in turn until one runs; `fuel` bounds how many wait (R322). -/
def nextChunks (core c i : Nat) : Nat → State → State
  | 0, s => s
  | fuel + 1, s =>
    if chunkRuns s c i then s
    else match waitingChunk s core c i with
      | none => s
      | some q => nextChunks core c i fuel (startChunk s core q)

/-- Take the waiting chunks of a stream in turn until one runs. -/
def serveChunks (s : State) (core c i : Nat) : State :=
  nextChunks core c i ((coreOf s (physOf s core)).chunks.length + 1) s

/-- A stage hands a chunk request to the stream routine (R322, R323): steps 1 and 2, and then the chunk waits for
those of its stream before it. -/
def execScanChunkRequest (core slot off : Nat) (s : State) : Out :=
  .next (match stageRunning s core slot with
    | none => s
    | some (c, j) =>
      if (coreOf s (physOf s core)).chunks.any (fun q => q.slot == slot) then s
      else withWords s c j.run.slot core off 64 (fun s => match deckRead s c j.run.slot core off 64, tget? s.ctxs c with
        | some b, some x =>
          let r := scanReq b
          let t := streamAt x r.index
          if scanVersionBad b then failJob s c .scanVersion
          else if scanRangeBad ((shareOf s c j.run.slot core).2 * 256) off t.channels t.aConst r then failJob s c .scanRange
          else if x.quotas.streams ≤ r.index ∨ (t.state ≠ .free ∧ t.homeCore ≠ core) then failJob s c .scanHome
          else
            let p := physOf s core
            let q : Chunk := { slot := slot, ctx := c, img := j.run.slot, off := off, index := r.index }
            serveChunks (setCore s p { coreOf s p with chunks := (coreOf s p).chunks ++ [q] }) core c r.index
        | _, _ => failJob s c .scanRange))

/-! ## The stream commands (R318) -/

/-- The reply of a stream command (R540). -/
def streamReply (s : State) (rq : Req) (op i : Nat) : State :=
  let t := ((tget? s.ctxs rq.ctx).map (fun x => streamAt x i)).getD {}
  replyC s rq op .ok .none (leBytes 4 t.gen ++ zeros 4 ++ leBytes 8 t.nextStep)

/-- The a values of an a-object, FP32, or why they cannot be read (R318). -/
def readTiles (s : State) (x : Ctx) (o : Obj) (n : Nat) : Except Reason Bytes :=
  (List.range n).foldl (fun (r : Except Reason Bytes) i =>
    r.bind (fun bs => (objTile s x o i).map (fun t => bs ++ t.2))) (.ok [])

/-- The records of a state object with the given a values (R317). -/
def freshRecords (channels : Nat) (a : Option Bytes) : Bytes :=
  (List.range channels).flatMap (fun n => zeros 8 ++ (match a with
    | some bs => slice bs (4 * n) 4
    | none => zeros 4) ++ zeros 4)

/-- STREAM_GEOMETRY (R337). -/
def streamGeomBad (x : Ctx) (g : StreamArgs) : Bool :=
  g.channels == 0 || decide (16384 < g.channels) || !(decide (g.homeCore < 8) && bit x.cores g.homeCore) ||
  (bit g.options 1 && (match tget? x.objs g.aObject with
    | some o => decide (o.tilesM1 + 1 ≠ ceilDiv (4 * g.channels) 4096)
    | none => true))

/-- The state object of a stream (R317). -/
def stateObj (g : StreamArgs) : Obj :=
  { encrypted := true, kind := 3, evictable := !bit g.options 2, homeTier := 3, fmt := 7,
    tilesM1 := stateTiles g.channels - 1, storedM1 := stateTiles g.channels - 1 }

/-- Why a stream command is refused for its stream's state or its own geometry (R318, R337), if it is. -/
def streamRefusal (x : Ctx) (i : Instr) : Option Reason :=
  match i with
  | .streamOpenNew _ g =>
    if (streamAt x g.index).state ≠ .free then some .streamState
    else if streamGeomBad x g then some .streamGeometry else none
  | .streamOpenResume _ g => if (streamAt x g.index).state ≠ .paused then some .streamState else none
  | .streamClosePause _ n => if (streamAt x n).state ≠ .opened then some .streamState else none
  | .streamCloseEnd _ n => if (streamAt x n).state = .free then some .streamState else none
  | .streamReset _ n => if (streamAt x n).state = .free then some .streamState else none
  | _ => none

/-- STREAM_OPEN in mode NEW (R318), of a FREE stream. -/
def openNew (s : State) (rq : Req) (g : StreamArgs) (x : Ctx) : State :=
  let aVals : Except Reason (Option Bytes) :=
    if bit g.options 1 then match tget? x.objs g.aObject with
      | some o => (readTiles s x o (o.tilesM1 + 1)).map some
      | none => .ok none
    else .ok none
  match aVals with
  | .error r => replyC (integrityFail s rq.ctx 3 0 r) rq 0x0140 .fault r []
  | .ok a => match allocObj s rq.ctx (stateObj g) 0 with
    | (s1, .error (st, rs)) => replyC s1 rq 0x0140 st rs []
    | (s1, .ok h) =>
      match tget? s1.ctxs rq.ctx with
      | none => s1
      | some y =>
        let s2 := match tget? y.objs h with
          | some o => homeWrite s1 y o 0 (freshRecords g.channels a)
          | none => s1
        let t : Stream :=
          { state := .opened, anchored := !bit g.options 0, aConst := bit g.options 1, pinned := bit g.options 2,
            homeCore := g.homeCore, gen := nextGen y, channels := g.channels, handle := h }
        let s3 := modCtx s2 rq.ctx (fun z =>
          { z with streams := tset z.streams g.index t, genCtr := nextGen z })
        streamReply s3 rq 0x0140 g.index

/-- STREAM_OPEN in mode RESUME (R318), of a PAUSED stream. -/
def openResume (s : State) (rq : Req) (g : StreamArgs) : State :=
  streamReply (modStream s rq.ctx g.index (fun t => { t with state := .opened })) rq 0x0140 g.index

/-- STREAM_CLOSE in mode PAUSE (R318), of an OPEN stream: a state that cannot be written back leaves the stream open, and the command FAULTs
(DESIGN CHOICE, entry 101). -/
def closePause (s : State) (rq : Req) (i : Nat) (x : Ctx) : State :=
  let t := streamAt x i
  match (match tget? x.objs t.handle with
    | some o => releaseUpper s rq.ctx t.handle o
    | none => (s, none)) with
  | (s1, some r) => replyC s1 rq 0x0141 .fault r []
  | (s1, none) => streamReply (modStream s1 rq.ctx i (fun u =>
      { u with state := .paused, homeStep := u.nextStep, anchor := none })) rq 0x0141 i

/-- STREAM_CLOSE in mode END (R318): the state object is freed without write-back and the entry becomes zero. -/
def closeEnd (s : State) (rq : Req) (i : Nat) (x : Ctx) : State :=
  let t := streamAt x i
  let y := match tget? x.objs t.handle with
    | some o => freeObj x t.handle o
    | none => x
  streamReply (setCtx s rq.ctx { y with streams := terase y.streams i }) rq 0x0141 i

/-- Zero H and COMP in every record, keeping A (R318). -/
def zeroCarry (recs : Bytes) (channels : Nat) : Bytes :=
  (List.range channels).flatMap (fun n => zeros 8 ++ slice recs (16 * n + 8) 8)

/-- STREAM_RESET (R318, R336). -/
def streamResetBody (s : State) (rq : Req) (i : Nat) (x : Ctx) : State :=
  let t := streamAt x i
  match tget? x.objs t.handle with
  | none => replyC s rq 0x0142 .refused .streamState []
  | some o => match homeRead s x o 0 (16 * t.channels) with
    | .error r => replyC (integrityFail s rq.ctx 3 o.home r) rq 0x0142 .fault r []
    | .ok recs =>
      let o1 := { o with upper := none, dirty := false }
      let s1 := homeWrite s x o 0 (zeroCarry recs t.channels)
      let s2 := modCtx s1 rq.ctx (fun y => { y with
        objs := tset y.objs t.handle o1, genCtr := nextGen y,
        streams := tset y.streams i { t with
          gen := nextGen y, reset := true, nextStep := 0, homeStep := 0, anchor := none } })
      streamReply s2 rq 0x0142 i

/-- A stream command that its stream's state allows goes on; any other is refused (R318, R337). -/
def gateStream (s : State) (rq : Req) (op : Nat) (i : Instr) (k : Ctx → State) : State :=
  onCtx s rq op (fun x => match streamRefusal x i with
    | some r => replyC s rq op .refused r []
    | none => k x)

/-- Carry out a stream command whose checks against a running chunk are past; the state objects are moved, zero-filled and
rewritten by the firmware (R812). -/
def runStreamCmd (s : State) (i : Instr) : State :=
  match i with
  | .streamOpenNew rq g => gateStream s rq 0x0140 i (fun x => onFirmware s (openNew s rq g x) rq.ctx i)
  | .streamOpenResume rq g => gateStream s rq 0x0140 i (fun _ => openResume s rq g)
  | .streamClosePause rq n => gateStream s rq 0x0141 i (fun x => onFirmware s (closePause s rq n x) rq.ctx i)
  | .streamCloseEnd rq n => gateStream s rq 0x0141 i (fun x => onFirmware s (closeEnd s rq n x) rq.ctx i)
  | .streamReset rq n => gateStream s rq 0x0142 i (fun x => onFirmware s (streamResetBody s rq n x) rq.ctx i)
  | _ => s

/-- The stream that a stream command names. -/
def streamIdx (i : Instr) : Option Nat :=
  match i with
  | .streamOpenNew _ g => some g.index
  | .streamOpenResume _ g => some g.index
  | .streamClosePause _ n => some n
  | .streamCloseEnd _ n => some n
  | .streamReset _ n => some n
  | _ => none

/-- A stream command: refused outside the stream quota, and held while a chunk of the stream runs (R319). -/
def onStream (s : State) (rq : Req) (op n : Nat) (i : Instr) : State :=
  onCtx s rq op (fun x =>
    if x.quotas.streams ≤ n then replyC s rq op .noQuota .streamIndex []
    else if chunkRuns s rq.ctx n then setCtx s rq.ctx { x with streamCmds := x.streamCmds ++ [i] }
    else runStreamCmd s i)

/-- STREAM_OPEN, mode NEW (R318). -/
def execStreamOpenNew (rq : Req) (args : StreamArgs) (s : State) : Out :=
  .next (onStream s rq 0x0140 args.index (.streamOpenNew rq args))

/-- STREAM_OPEN, mode RESUME (R318). -/
def execStreamOpenResume (rq : Req) (args : StreamArgs) (s : State) : Out :=
  .next (onStream s rq 0x0140 args.index (.streamOpenResume rq args))

/-- STREAM_CLOSE, mode PAUSE (R318). -/
def execStreamClosePause (rq : Req) (index : Nat) (s : State) : Out :=
  .next (onStream s rq 0x0141 index (.streamClosePause rq index))

/-- STREAM_CLOSE, mode END (R318). -/
def execStreamCloseEnd (rq : Req) (index : Nat) (s : State) : Out :=
  .next (onStream s rq 0x0141 index (.streamCloseEnd rq index))

/-- STREAM_RESET (R318). -/
def execStreamReset (rq : Req) (index : Nat) (s : State) : Out :=
  .next (onStream s rq 0x0142 index (.streamReset rq index))

/-- The stream commands that waited for a chunk take effect, oldest first (R319). -/
def releaseCmds (s : State) (c i : Nat) : State :=
  match tget? s.ctxs c with
  | none => s
  | some x =>
    let mine := x.streamCmds.filter (fun k => streamIdx k == some i)
    mine.foldl runStreamCmd (setCtx s c { x with streamCmds := x.streamCmds.filter (fun k => !(streamIdx k == some i)) })

/-! ## The end of a chunk (R323 to R326, R334) -/

/-- The FP32 pattern at an offset of a Deck share. -/
def deckF32 (share : Bytes) (off : Nat) : Nat := field share off 4

/-- The byte offset of step `i` of channel `n` (R321). -/
def scanOff (r : ScanReq) (base pitch w i n : Nat) : Nat :=
  if r.par then base + n * pitch + w * i else base + i * pitch + w * n

/-- Scan one channel from its record and the share's bytes (R311, R324, R329, R330): its result is fixed by them (R333). -/
def scanChannel (share recs : Bytes) (t : Stream) (r : ScanReq) (n : Nat) : ScanOut :=
  let u := fun i => deckF32 share (scanOff r r.uBase r.inPitch 4 i n)
  let a := fun i => if t.aConst then deckF32 recs (16 * n + 8) else deckF32 share (scanOff r r.aBase r.inPitch 4 i n)
  let k : Carry := if t.reset then {}
    else { h := deckF32 recs (16 * n), c := deckF32 recs (16 * n + 4) }
  if r.par then scanParallel t.anchored r.first r.count a u k else scanSerial t.anchored r.first r.count a u k

/-- An output element (R75, R330): an FP32 output is the pattern itself, any other a conversion of it. -/
def outBytes (fmt w : Nat) : Bytes := if fmt = 6 then leBytes 4 w else leBytes 2 (narrowW fmt 0 0 w)

/-- The records that hold a list of carried states, with the A fields of the old ones (R317, R326). -/
def carryRecords (recs : Bytes) (ks : List Carry) : Bytes :=
  (ks.mapIdx (fun n k => leBytes 4 k.h ++ leBytes 4 k.c ++ slice recs (16 * n + 8) 8)).flatten

/-- Write the anchor's records to the home; HOME_STEP takes the anchor's step (R334). -/
def landAnchor (s : State) (c i : Nat) : State :=
  match tget? s.ctxs c with
  | none => s
  | some x =>
    let t := streamAt x i
    match t.anchor, tget? x.objs t.handle with
    | some (step, recs), some o =>
      modStream (countBytes (homeWrite s x o 0 recs) c 1 3 (storedBytes o)) c i
        (fun u => { u with homeStep := step, anchor := none })
    | _, _ => s

/-- Step 8 of R323: outputs, state and the entry. -/
def scanWrite (s : State) (core : Nat) (q : Chunk) (t : Stream) (u : Upper) (o : Obj) (r : ScanReq) : State :=
  let sh := shareOf s q.ctx q.img core
  let share := (ramOf s (physOf s core)).read (sh.1 * 256) (sh.2 * 256)
  let recs := (ramOf s (upperHome s u)).read (u.loc * 256) (16 * t.channels)
  let outs := (List.range t.channels).map (scanChannel share recs t r)
  let s1 := (List.range t.channels).foldl (fun a n => (List.range r.count).foldl (fun b i =>
      deckWrite b q.ctx q.img core (scanOff r r.outBase r.outPitch r.width i n)
        (outBytes r.fmt (((outs.getD n {}).outs).getD i 0))) a) s
  let s2 := setRam s1 (upperHome s1 u)
    ((ramOf s1 (upperHome s1 u)).write (u.loc * 256) (carryRecords recs (outs.map ScanOut.fin)))
  let passed := t.anchored && decide (r.first / 4096 < (r.first + r.count) / 4096)
  let s3 := if passed then landAnchor s2 q.ctx q.index else s2
  let at_ := (r.first + r.count) / 4096 * 4096
  modCtx s3 q.ctx (fun y => { y with
    objs := tset y.objs t.handle { o with dirty := true },
    streams := tmod y.streams q.index (fun v => { v with
      nextStep := r.first + r.count, reset := false,
      anchor := if passed then some (at_, carryRecords recs (outs.map (fun k => k.anchor.getD k.fin))) else v.anchor }) })

/-- The Deck bytes that a chunk reads, in a share whose first byte is `base`: its inputs, and the state's records (R324). -/
def scanRuns (base : Nat) (t : Stream) (u : Upper) (r : ScanReq) : List (Nat × Nat) :=
  (u.loc * 256, 16 * t.channels) :: (List.range t.channels).flatMap (fun n => (List.range r.count).flatMap (fun i =>
    (base + scanOff r r.uBase r.inPitch 4 i n, 4) ::
      (if t.aConst then [] else [(base + scanOff r r.aBase r.inPitch 4 i n, 4)])))

/-- A scanned chunk completes (R323 steps 8 and 9): its outputs and state are written, the stage resumes, the
stream commands that waited take effect, and the next chunk of the stream is taken. -/
def execScanChunkComplete (core slot : Nat) (s : State) : Out :=
  .next (match (coreOf s (physOf s core)).chunks.find? (fun q => q.slot == slot && q.running) with
    | none => s
    | some q =>
      let after := fun (a : State) =>
        settle (serveChunks (releaseCmds (dropChunk a core q) q.ctx q.index) core q.ctx q.index) q.ctx
      match tget? s.ctxs q.ctx, deckRead s q.ctx q.img core q.off 64 with
      | some x, some b =>
        let t := streamAt x q.index
        let r := scanReq b
        match tget? x.objs t.handle with
        | some o => match o.upper with
          | some u => match eccScan s (physOf s core) (scanRuns ((shareOf s q.ctx q.img core).1 * 256) t u r) with
            | (v, some f) => after (failJob v q.ctx f)
            | (v, none) => after (scanStatus (scanWrite v core q t u o r) core q 0 r.count)
          | none => after s
        | none => after s
      | _, _ => after s)

/-- An anchor write-back lands (R334). -/
def execAnchorWritebackLand (ctx index : Nat) (s : State) : Out := .next (landAnchor s ctx index)

end Sys2Proof.Machine
end

