-- ==== Sys2Proof/Machine/Audio.lean ====
section
/-!
DEFINITION. Audio, Wayside and the cascade (12): the owner, blocks, the spotter and its phrase networks, the
verdict, the pre-roll ring, mute, and the Milestone cascade.
-/

namespace Sys2Proof.Machine

/-! ## The outputs (R452, R478) -/

/-- The registers of a path's destination (R478): LP_DEST or HQ_DEST. -/
def pathRegs (path : Nat) : Nat := 0x0021_0040 + 0x10 * path

/-- An output is enabled: its EN bit, the page, an owner, and for the high-quality path HQ_EN. -/
def pathOn (s : State) (path : Nat) : Bool :=
  pageOn s 0x0021_0000 && s.aud.owner.isSome && bit (live s (pathRegs path + 8)) 31 &&
    (path == 0 || bit (live s 0x0021_0010) 24)

/-- A path that has just come on starts its block index at the present sample (R452); a path that has delivered before
carries GAP. -/
def alignPaths (old s : State) : State :=
  ([0, 1] : List Nat).foldl (fun a p =>
    if pathOn s p && !pathOn old p then
      let x := tget a.aud.paths {} p
      { a with aud := { a.aud with paths := tset a.aud.paths p { x with
          next := s.aud.index * (if p = 0 then 1 else 3), gap := x.block != 0 } } }
    else a) s

/-! ## The owner (R448) -/

/-- AUDIO_CFG with operation BIND (R448): accepted with no owner set, from the owner, or on port M; 0xFFFF clears
the owner. With the high-quality output on, the AUDIO vote is the new owner's (R613). -/
def execAudioCfgBind (rq : Req) (owner : Nat) (s : State) : Out :=
  .next (onCtx s rq 0x0181 (fun _ =>
    if rq.iface ≠ .mgmt ∧ s.aud.owner.isSome ∧ s.aud.owner ≠ some rq.ctx then replyC s rq 0x0181 .refused .audOwner []
    else if owner = 0xFFFF then replyC { s with aud := { s.aud with owner := none } } rq 0x0181 .ok .none []
    else if (liveCtx s owner).isNone then replyC s rq 0x0181 .noContext .ctxUnknown []
    else
      let s1 := alignPaths s { s with aud := { s.aud with owner := some owner } }
      replyC (if bit (live s 0x0021_0058) 31 then voteCast (cancelFrom s s1 0 owner (2 ^ 9)) 0 owner (2 ^ 9) else s1)
        rq 0x0181 .ok .none []))

/-! ## Samples (R441 to R446, R450) -/

/-- The microphones are listened to: the audio page is enabled and mute does not hold the PDM clocks low (R474). -/
def micsLive (s : State) : Bool := pageOn s 0x0021_0000 && !s.aud.muted

/-- A channel is enabled in AUD_PDM.CH_EN (R441, R442). -/
def chanOn (s : State) (ch : Nat) : Bool := bit (live s 0x0021_0010) (16 + ch)

/-- The enabled channels, ascending. -/
def chansOn (s : State) : List Nat := (List.range 8).filter (chanOn s)

/-- AUD_PDM.DIV (R442). -/
def pdmDiv (s : State) : Nat := live s 0x0021_0010 % 32

/-- The rate of PDM_CLK[k] in kHz (R442, R474): WCLK divided by DIV, and 0, held low, in OFF, while the page is disabled, during
mute, and when its four channels are all disabled. -/
def pinPdmClk (s : State) (k : Nat) : Nat :=
  if micsLive s && decide (s.pwr.mode ≠ .off) && (List.range 4).any (fun i => chanOn s (4 * k + i)) then 24576 / pdmDiv s else 0

/-- The bytes of a row in a block: the enabled channels, 16-bit or sign-extended 24-bit samples (R450). -/
def rowBytes (s : State) (path : Nat) (row : AudRow) : Bytes :=
  (chansOn s).flatMap (fun ch =>
    if path = 0 then leBytes 2 (row.samples.getD ch 0)
    else leBytes 4 (ofSigned 32 (toSigned 24 (row.samples.getD ch 0))))

/-- A row of zeros. -/
def zeroRow (muted settling : Bool) : AudRow := { samples := List.replicate 8 0, muted := muted, settling := settling }

/-- The `n` rows of a path in one frame (R444 to R446, R466), from what its channels' filters give: rows for which the clocks did
not run come first, as zeros, then the first `settle` rows after a restart (R476), zeros too, and then the samples, disabled
channels as zero. -/
def frameRows (s : State) (p : DecimPath) (n settle : Nat) (outs : Tab (List Int)) : List AudRow :=
  let made := min n ((outs.head?.map (fun e => e.2.length)).getD 0)
  (List.range n).map (fun i =>
    if i < n - made then zeroRow s.aud.stopped false
    else if i - (n - made) < settle ∨ s.aud.settling then zeroRow false true
    else { samples := (List.range 8).map (fun ch => match tget? outs ch with
      | some l => ofSigned p.width (gained p (live s (0x0021_0020 + 4 * ch) % 2 ^ 16) (l.getD (i + l.length - n) 0))
      | none => 0) })

/-- The enabled channels' filters of a path take the bits of a frame: the filters after it, and what each gave. -/
def runDecims (s : State) (p : DecimPath) (t : Tab Decim) (pdm : List Pdm) : Tab Decim × Tab (List Int) :=
  let rs := (chansOn s).map (fun ch => (ch, decimate p (tget t {} ch) (pdm.map (fun x => pdmBit x ch))))
  (rs.map (fun r => (r.1, r.2.1)), rs.map (fun r => (r.1, r.2.2)))

/-- The rows of the low-power path in a frame of 10 ms. -/
def lpFrame (s : State) (pdm : List Pdm) : State × List AudRow :=
  if !micsLive s then ({ s with aud := { s.aud with lpDecim := [] } }, List.replicate 160 (zeroRow s.aud.muted false))
  else
    let p := lpPath (pdmDiv s)
    let (t, outs) := runDecims s p s.aud.lpDecim pdm
    let made := (outs.head?.map (fun e => e.2.length)).getD 0
    ({ s with aud := { s.aud with lpDecim := t, lpSettle := s.aud.lpSettle - made } }, frameRows s p 160 s.aud.lpSettle outs)

/-- The rows of the high-quality path in a frame, when it is enabled (R445). -/
def hqFrame (s : State) (pdm : List Pdm) : State × List AudRow :=
  if !bit (live s 0x0021_0010) 24 then (s, [])
  else if !micsLive s then
    ({ s with aud := { s.aud with hqDecim := [] } }, List.replicate 480 (zeroRow s.aud.muted false))
  else
    let p := hqPath (pdmDiv s)
    let (t, outs) := runDecims s p s.aud.hqDecim pdm
    let made := (outs.head?.map (fun e => e.2.length)).getD 0
    ({ s with aud := { s.aud with hqDecim := t, hqSettle := s.aud.hqSettle - made } }, frameRows s p 480 s.aud.hqSettle outs)

/-! ## Blocks (R450 to R453) -/

/-- The samples per channel of a block. -/
def blockSamples (s : State) (path : Nat) : Nat :=
  live s (pathRegs path + 8) % 256 * (if path = 0 then 16 else 48)

/-- The header of a block (R452): SETTLING and MUTED say that some of its samples were zeroed so. -/
def audHeader (s : State) (path first : Nat) (rows : List AudRow) (gap preroll : Bool) (time : Nat) : Bytes :=
  leBytes 4 (2 ^ 24 + bits (live s 0x0021_0010) 23 16 * 2 ^ 16 + path * 2 ^ 5 + ofBool gap * 2 ^ 4 +
    ofBool (rows.any AudRow.settling) * 2 ^ 3 + ofBool (rows.any AudRow.muted) * 2 ^ 2 + ofBool preroll * 2) ++
  leBytes 4 rows.length ++ leBytes 8 (first % 2 ^ 40) ++ leBytes 8 time ++ zeros 8

/-- Issue the writes of a block in turn, with the writer identity AUDIO and the owner's context (R449); one that is discarded or refused ends the block (R453). -/
def audWrites (path n : Nat) (hdr : Nat → Bytes → WinHdr) : List (Nat × Bytes) → State → State
  | [], s => s
  | (off, b) :: rest, s =>
    match offerWrite s (hdr off b) (.audio path n) with
    | (s1, .accepted) => audWrites path n hdr rest s1
    | (s1, .homeFull) => audWrites path n hdr rest s1
    | (s1, f) => tellFailed s1 (.audio path n) f.report.1 f.report.2

/-- Split sample bytes into writes of at most 4 KiB, with their offsets (R451). -/
def audChunks (base : Nat) (b : Bytes) : List (Nat × Bytes) :=
  (List.range (ceilDiv b.length 4096)).map (fun i => (base + 4096 * i, slice b (4096 * i) 4096))

/-- Write a block (R450, R451): its samples in ascending order and then its header, at BASE + (k mod BUFS) × STRIDE. -/
def writeBlock (s : State) (path first : Nat) (rows : List AudRow) (preroll : Bool) (time : Nat) : State :=
  match s.aud.owner with
  | none => s
  | some c =>
    let p := tget s.aud.paths {} path
    let d := live s (pathRegs path)
    let blk := live s (pathRegs path + 8)
    let stride := blockStride path (chansOn s).length (blk % 256)
    let base := live s (pathRegs path + 4) + p.block % bits blk 23 16 * stride
    let hdr := fun (off : Nat) (b : Bytes) =>
      ({ space := bits d 29 26, ctx := c, slot := bits d 17 16, win := bits d 15 8, epoch := d % 256, off := off,
         data := b, writer := .audio } : WinHdr)
    let body := rows.flatMap (rowBytes s path)
    let head := audHeader s path first rows p.gap preroll time
    let q : AudPath := { block := p.block + 1, next := first + rows.length, gap := false }
    let s1 := { s with aud := { s.aud with paths := tset s.aud.paths path q } }
    audWrites path p.block hdr (audChunks (base + 32) body ++ [(base, head)]) s1

/-- The chip can write blocks: RUN or IDLE (R450, R453). -/
def audAwake (s : State) : Bool := decide (chipState s ≤ 1)

/-- The samples that a path holds, and the index after the last of them, at its own rate (R452, R466). -/
def pathRing (s : State) (path : Nat) : List AudRow × Nat :=
  if path = 0 then (s.aud.ring, s.aud.index) else (s.aud.hqRing, 3 * s.aud.index)

/-- A path's block of BLOCK_MS is complete (R451, R453), once its samples are there; `time` is that of its first sample (R452). In SLEEP and DEEP nothing is written and the
next block carries GAP; while the pre-roll is delivered, the low-power samples wait in the ring (R467). -/
def execAudioBlockEnd (path time : Nat) (s : State) : Out :=
  .next (if 2 ≤ path ∨ !pathOn s path ∨ s.pwr.mode = .off then s
    else
      let n := blockSamples s path
      let p := tget s.aud.paths {} path
      let (ring, last) := pathRing s path
      if last < p.next + n then s
      else if !audAwake s then
        { s with aud := { s.aud with paths := tset s.aud.paths path { p with next := p.next + n, gap := true } } }
      else if path = 0 ∧ s.aud.readPoint.isSome then s
      else writeBlock s path p.next ((ring.drop (p.next + ring.length - last)).take n) false time)

/-! ## The pre-roll (R466 to R468) -/

/-- The index of the oldest sample that the ring holds. -/
def ringOldest (s : State) : Nat := s.aud.index - s.aud.ring.length

/-- A frame's rows join the ring of 2.0 s (R466) and those of the high-quality path its own. -/
def ringPush (s : State) (lp hq : List AudRow) : State :=
  let r := s.aud.ring ++ lp
  let h := if hq.isEmpty then [] else s.aud.hqRing ++ hq
  { s with aud := { s.aud with
      ring := r.drop (r.length - 32000), hqRing := h.drop (h.length - 4800), index := s.aud.index + lp.length } }

/-- The low-power destination window is reachable (R467). -/
def prerollReady (s : State) : Bool :=
  pathOn s 0 && audAwake s && (match s.aud.owner with
    | some c =>
      let d := live s 0x0021_0040
      (match keyOf s c (bits d 17 16) (bits d 29 26) (bits d 15 8) with
       | some k => decide ((winAt s k).state = .opened)
       | none => false)
    | none => false)

/-- One block of the pre-roll is delivered (R467, R468). What the ring has overwritten is lost and counted, and
delivery goes on from the oldest sample held, with GAP; with less than a block left, live blocks follow. -/
def execPrerollDelivery (s : State) : Out :=
  .next (match s.aud.readPoint with
    | none => s
    | some r =>
      if !prerollReady s then s
      else
        let n := blockSamples s 0
        let p := tget s.aud.paths {} 0
        let lost := ringOldest s - r
        let r1 := max r (ringOldest s)
        let s1 := if lost = 0 then s else { s with aud := { s.aud with
          ringLost := min (s.aud.ringLost + lost) (2 ^ 32 - 1), paths := tset s.aud.paths 0 { p with gap := true } } }
        if n = 0 ∨ s.aud.index < r1 + n then
          let p1 := tget s1.aud.paths {} 0
          { s1 with aud := { s1.aud with readPoint := none, paths := tset s1.aud.paths 0 { p1 with next := r1 } } }
        else
          let rows := (s.aud.ring.drop (r1 - ringOldest s)).take n
          writeBlock (draw { s1 with aud := { s1.aud with readPoint := some (r1 + n) } }) 0 r1 rows true (Config.freeTime s.draws))

/-! ## Phrase records (R457, R458, R461) -/

/-- A layer of a phrase network (R458). -/
structure Layer where
  ty : Nat
  kernel : Nat
  stride : Nat
  relu : Bool
  shift : Nat
  inC : Nat
  outC : Nat
  mult : Nat
  wOff : Nat
  bOff : Nat
deriving DecidableEq, Repr

/-- Read layer entry `i` of a record. -/
def layerAt (r : Bytes) (i : Nat) : Layer :=
  let e := slice r (0x20 + 16 * i) 16
  { ty := field e 0 1, kernel := field e 1 1, stride := field e 2 1, relu := bit (field e 3 1) 7,
    shift := field e 3 1 % 32, inC := field e 4 2, outC := field e 6 2, mult := field e 8 2, wOff := field e 0xC 2,
    bOff := field e 0xE 2 }

/-- The layers of a record. -/
def layersOf (r : Bytes) : List Layer := (List.range (field r 5 1)).map (layerAt r)

/-- The weights of a layer. -/
def Layer.weights (l : Layer) : Nat := l.kernel * l.outC * (if l.ty = 2 then 1 else l.inC)

/-- The multiply-accumulates of a frame at which every layer runs. -/
def macsOf (r : Bytes) : Nat := ((layersOf r).map Layer.weights).sum

/-- The multiply-accumulates per frame, as the device computes them (R457): with strides, an average of its own making (entry
108), of at most every layer's. -/
def deviceMacs (r : Bytes) : Nat :=
  if (layersOf r).all (fun l => l.stride == 1) then macsOf r else min (macsOf r) (Config.macPerFrame r)

/-- The budget field of a record (R457). -/
def macField (r : Bytes) : Nat := field r 0x10 4

/-- A record's signed levels TRIGGER and HOLD. -/
def triggerOf (r : Bytes) : Int := toSigned 8 (field r 6 1)
def holdOf (r : Bytes) : Int := toSigned 8 (field r 7 1)

/-- A layer meets R458, with the channels the layer before it gives and its weights in the area. -/
def layerOk (prev area : Nat) (l : Layer) : Bool :=
  decide (l.ty ≤ 2) && decide (1 ≤ l.kernel ∧ l.kernel ≤ 16) && (l.ty != 0 || l.kernel == 1) &&
  decide (1 ≤ l.stride ∧ l.stride ≤ 8) && l.inC == prev && decide (1 ≤ l.inC ∧ l.inC ≤ 512) &&
  decide (1 ≤ l.outC ∧ l.outC ≤ 512) && (l.ty != 2 || l.inC == l.outC) && decide (4 * l.wOff + l.weights ≤ area) &&
  decide (4 * l.bOff + 4 * l.outC ≤ area)

/-- A phrase record meets R457 and R458. -/
def wakeFormatOk (r : Bytes) : Bool :=
  let n := field r 5 1
  let area := field r 0xC 4
  let ls := layersOf r
  r.take 4 == [0x49, 0x56, 0x57, 0x50] && field r 4 1 == 1 && decide (1 ≤ n ∧ n ≤ 8) &&
  decide (holdOf r ≤ triggerOf r) && decide (1 ≤ field r 8 1 ∧ field r 8 1 ≤ 16) && field r 9 1 == 0 &&
  decide (field r 0xA 2 ≤ 1000) && decide (area ≤ 65536) && (slice r 0x14 12).all (· == 0) &&
  r.length == 0x20 + 16 * n + area &&
  (List.range n).all (fun i => layerOk (if i = 0 then 40 else (layerAt r (i - 1)).outC) area (layerAt r i) &&
    field (slice r (0x20 + 16 * i) 16) 0xA 2 == 0 && bits (field (slice r (0x20 + 16 * i) 16) 3 1) 6 5 == 0) &&
  (match ls.getLast? with
   | some l => l.outC == 1
   | none => false) &&
  macField r == deviceMacs r

/-- The record a phrase slot will hold after the loads that wait: empty bytes for an empty slot. -/
def phraseRecord (s : State) (p : Nat) : Bytes :=
  match tget? s.aud.loads p with
  | some b => b
  | none => ((tget? s.aud.phrases p).map Phrase.record).getD []

/-- The multiply-accumulates of the other valid slots (R461). -/
def otherMacs (s : State) (p : Nat) : Nat :=
  (((List.range 4).filter (· ≠ p)).map (fun q => if (phraseRecord s q).isEmpty then 0 else macField (phraseRecord s q))).sum

/-- WAKE_PHRASE_LOAD (R448, R461): from the owner; the record takes effect at the next frame end, and a zero length
empties the slot. -/
def execWakePhraseLoad (rq : Req) (phrase handle len off : Nat) (s : State) : Out :=
  .next (onCtx s rq 0x0182 (fun x =>
    let load := fun (a : State) (r : Bytes) =>
      replyC { a with aud := { a.aud with loads := tset a.aud.loads phrase r } } rq 0x0182 .ok .none (shake256 64 r)
    if s.aud.owner ≠ some rq.ctx then replyC s rq 0x0182 .refused .audOwner []
    else if 4 ≤ phrase then replyC s rq 0x0182 .malformed .ethParam []
    else if len = 0 then load s []
    else match tget? x.objs handle with
      | none => replyC s rq 0x0182 .refused .objHandle []
      | some o =>
        if storedBytes o < off + len then replyC s rq 0x0182 .fault .objRange []
        else
          onFirmware s (match saveUpper s rq.ctx handle x o with
            | (s0, some r) => replyC s0 rq 0x0182 .fault r []
            | (s0, none) =>
              let s1 := modCtx s0 rq.ctx (fun y => { y with objs := tset y.objs handle { o with dirty := false } })
              match homeRead s1 x o off len with
              | .error r => replyC (integrityFail (noteUe s1 { o with upper := none } r) rq.ctx o.homeTier (o.home + off / 4096) r) rq 0x0182 .fault r []
              | .ok r =>
                if !wakeFormatOk r then replyC s1 rq 0x0182 .refused .wakeFormat []
                else if 786432 < macField r + otherMacs s phrase then replyC s1 rq 0x0182 .refused .wakeCompute []
                else load s1 r) rq.ctx (.wakePhraseLoad rq phrase handle len off)))

/-! ## The spotter (R454 to R460) -/

/-- The sample of the spotter signal in a row (R454). -/
def spotSample (s : State) (row : AudRow) : Int :=
  let m := maskBits (live s 0x0021_1010 % 256) 8
  rne ((m.map (fun ch => toSigned 16 (row.samples.getD ch 0))).sum) m.length

/-- The feature frame over the last 400 samples of the ring (R455). -/
def featureFrame (s : State) : List Int :=
  let last := (s.aud.ring.drop (s.aud.ring.length - 400)).map (spotSample s)
  let spectrum := powerSpectrum last
  (List.range 40).map (feature last spectrum)

/-- One output channel of a layer over its last KERNEL input frames, newest first (R459). -/
def layerOut (r : Bytes) (l : Layer) (ins : List (List Int)) (o : Nat) : Int :=
  let area := r.drop (0x20 + 16 * field r 5 1)
  let x := fun (k c : Nat) => match ins[k]? with
    | some f => f.getD c 0
    | none => toSigned 8 (Config.wakePrior c).toNat
  let w := fun (k c : Nat) => toSigned 8 (field area (4 * l.wOff + Config.wakeWeight l.ty l.kernel l.inC l.outC o k c) 1)
  let acc := ((List.range l.kernel).map (fun k =>
    if l.ty = 2 then w k o * x k o else ((List.range l.inC).map (fun c => w k c * x k c)).sum)).sum
  let a := acc + toSigned 32 (field area (4 * l.bOff + 4 * o) 4)
  let b := if l.relu then max a 0 else a
  sat (-128) 127 (rne (b * (l.mult : Int)) (2 ^ l.shift))

/-- Run the layers of a network from one on a new input frame: the new histories and counts, and the score when
the last layer runs (R459). -/
def runLayers (r : Bytes) : List Layer → List Int → List (List (List Int)) → List Nat →
    List (List (List Int)) × List Nat × Option Int
  | [], f, h, n => (h, n, f.head?)
  | l :: rest, f, h, n =>
    let ins := (f :: h.headD []).take 16
    let seen := n.headD 0 + 1
    if seen % l.stride ≠ 0 then (ins :: h.tail, seen :: n.tail, none)
    else
      let out := (List.range l.outC).map (layerOut r l ins)
      let (h1, n1, x) := runLayers r rest out h.tail n.tail
      (ins :: h1, seen :: n1, x)

/-- What a frame does to a phrase (R459, R460, R463): its new state, and whether a verdict is issued. -/
def phraseFrame (p : Phrase) (f : List Int) : Phrase × Bool :=
  let r := p.record
  let (h, n, x) := runLayers r (layersOf r) f p.inputs p.seen
  match x with
  | none => ({ p with inputs := h, seen := n, refract := p.refract - 1 }, false)
  | some v =>
    let sc := toSigned 16 (ofSigned 16 (p.score + (v - p.score).fdiv 4))
    let cnt := if triggerOf r ≤ sc then p.count + 1 else 0
    let hit := decide (field r 8 1 ≤ cnt) && p.refract == 0
    ({ p with inputs := h, seen := n, score := sc, count := cnt,
              refract := if hit then field r 0xA 2 else p.refract - 1 }, hit)

/-- A phrase holds S at or above its HOLD level. -/
def phraseHolds (p : Phrase) : Bool := decide (holdOf p.record ≤ p.score)

/-! ## The cascade (R469 to R473) -/

/-- The cores of an armed entry's image: the logical cores of its CORE_MASK (R470, R342). -/
def entryCores (s : State) (e : CasEntry) : Nat :=
  match imageOf s e.ctx e.slot with
  | some im => maskOf (imageCores im)
  | none => 0

/-- The event CASCADE_DONE (R471). -/
def cascadeEvent (s : State) (m c : Nat) (st : Status) (word target : Nat) : State :=
  emit s (some c) .ok .cascadeDone (leBytes 1 m ++ leBytes 1 st.code ++ leBytes 4 word ++ leBytes 1 target)

/-- Trigger entry `m` for a client (R470, R472): its cores' vote and its run; a trigger for an entry whose run is
queued or running only counts, and a run that is refused is reported with its status (BUSY by R374, REFUSED by R689)
and its vote withdrawn. -/
def triggerEntry (s : State) (m cls id : Nat) : State :=
  match tget? s.aud.cascade m with
  | none => s
  | some e =>
    if ((tget? s.aud.casRuns m).map CasRun.active).getD false then
      { s with aud := { s.aud with coalesced := min (s.aud.coalesced + 1) (2 ^ 32 - 1) } }
    else match liveCtx s e.ctx with
      | none => s
      | some x =>
        let mask := entryCores s e
        let s0 := voteCast (cancelDescent s cls id mask) cls id mask
        let reload := ((tget? x.images e.slot).map Image.reload).getD true
        if reload then cascadeEvent s0 m e.ctx .refused 0 0
        else if 16 ≤ x.runQ.length then cascadeEvent s0 m e.ctx .busy 0 0
        else
          let old := tget s.aud.casRuns {} m
          let e1 : CasRun :=
            { old with ctx := e.ctx, slot := e.slot, space := e.space, win := e.win, vote := some (cls, id, mask), active := true }
          let r : RunReq :=
            { req := { iface := .host, sess := 0, src := 0, sport := 0, port := 0, seq := 0, ctx := e.ctx },
              slot := e.slot, param := 0, milestone := some m }
          let s1 := { s0 with aud := { s0.aud with casRuns := tset s0.aud.casRuns m e1 } }
          startNext (modCtx s1 e.ctx (fun y => { y with runQ := y.runQ ++ [r] })) e.ctx

/-- The target of an action word of entry `m` (R470, R471): 0 when the cascade ends. -/
def actionTarget (s : State) (m word : Nat) : Nat :=
  let armed := fun (k : Nat) => (tget? s.aud.cascade k).isSome
  let third := if armed 3 then 3 else 0
  match m, word % 4 with
  | 1, 1 => if armed 2 then 2 else third
  | 1, 2 => third
  | 2, 1 => third
  | 2, 2 => third
  | _, _ => 0

/-- AUDIO_CFG with operation CASCADE (R469): arm or clear an entry. -/
def execCascade (rq : Req) (entry mask space win linger : Nat) (s : State) : Out :=
  .next (onCtx s rq 0x0181 (fun _ =>
    let slot := ([0, 1, 2, 3] : List Nat).find? (fun k => mask == 2 ^ k)
    if entry = 0 ∨ 3 < entry then replyC s rq 0x0181 .refused .casSlot []
    else if mask = 0 then
      replyC { s with aud := { s.aud with cascade := terase s.aud.cascade entry } } rq 0x0181 .ok .none []
    else match slot with
      | none => replyC s rq 0x0181 .refused .casSlot []
      | some k =>
        if (imageOf s rq.ctx k).isNone ∨ (entryOf s rq.ctx k space win).isNone then replyC s rq 0x0181 .refused .casSlot []
        else if 60000 < linger then replyC s rq 0x0181 .refused .audParam []
        else
          let e := { ctx := rq.ctx, slot := k, space := space, win := win, linger := linger }
          replyC { s with aud := { s.aud with cascade := tset s.aud.cascade entry e } } rq 0x0181 .ok .none []))

/-- A cascade job has ended (R471): its action's target is triggered, and the completion is reported; the oldest goes first. -/
def execCascadeDone (entry : Nat) (s : State) : Out :=
  .next (match tget? s.aud.casRuns entry with
    | none => s
    | some e => match e.results with
      | [] => s
      | (c, st, word) :: rest =>
        let target := actionTarget s entry word
        let s1 := { s with aud := { s.aud with casRuns := tset s.aud.casRuns entry { e with results := rest } } }
        let s2 := cascadeEvent s1 entry c st word target
        if target = 0 then s2 else triggerEntry s2 target 0 c)

/-- A cascade vote's LINGER_MS has elapsed since its job completed (R470): the oldest such vote goes. -/
def execLingerExpire (entry : Nat) (s : State) : Out :=
  .next { s with aud := { s.aud with casRuns := tmod s.aud.casRuns entry (fun e => { e with lingers := e.lingers.tail }) } }

/-! ## Hold and verdict (R462, R463, R467, R473) -/

/-- A verdict of a phrase (R463): the read point is latched unless a delivery is in progress, the event reports
it, an entry to DEEP or OFF aborts (R623), DEEP ends (R626), and M1 is triggered (R470). -/
def verdict (s : State) (p : Nat) : State :=
  let fresh := s.aud.index - live s 0x0021_1018 % 2 ^ 12 * 16
  let busy := s.aud.readPoint.isSome
  let rp := s.aud.readPoint.getD fresh
  let s1 := { s with aud := { s.aud with
    readPoint := if busy then s.aud.readPoint else if pathOn s 0 then some fresh else none,
    coalesced := if busy then min (s.aud.coalesced + 1) (2 ^ 32 - 1) else s.aud.coalesced } }
  let s2 := emit s1 s.aud.owner .ok .wakeVerdict (leBytes 1 p ++ leBytes 8 s.aud.index ++ leBytes 8 rp)
  triggerEntry (wakeSource (abortEntry s2 3 p)) 1 3 p

/-- The lowest phrase slot that holds S at or above HOLD. -/
def holder (s : State) : Option Nat := (s.aud.phrases.find? (fun e => phraseHolds e.2)).map Prod.fst

/-- Cast or withdraw the hold vote after an evaluation (R462): a vote that is cast aborts an entry to OFF (R623). -/
def holdUpdate (s : State) : State :=
  match holder s with
  | none => { s with aud := { s.aud with hold := false, barred := false } }
  | some p =>
    if s.aud.hold || s.aud.barred then s
    else
      let s1 := { s with aud := { s.aud with hold := true } }
      match s.pwr.entry with
      | some e => if e.target = 4 then abortEntry s1 3 p else s1
      | none => s1

/-- Put the records that wait into their slots (R461). -/
def takeLoads (s : State) : State :=
  { s with aud := { s.aud with
    loads := [],
    phrases := s.aud.loads.foldl (fun t e =>
      if e.2.isEmpty then terase t e.1 else tset t e.1 { record := e.2 }) s.aud.phrases } }

/-- A frame of 160 samples ends (R454 to R463), `pdm` being the periods of the PDM clocks since the frame before it or, if they
have restarted since, since then: both paths' filters take them, the ring takes the samples, waiting records are loaded, and with
the Wayside page enabled the phrase networks run. -/
def execSpotterFrameEnd (pdm : List Pdm) (s : State) : Out :=
  .next (if s.pwr.mode = .off then s
    else
      let (a, lp) := lpFrame s pdm
      let (b, hq) := hqFrame a pdm
      let s1 := takeLoads (ringPush { b with aud := { b.aud with stopped := s.aud.muted } } lp hq)
      if !pageOn s 0x0021_1000 then s1
      else
        let f := featureFrame s1
        let rs := s1.aud.phrases.map (fun e => (e.1, phraseFrame e.2 f))
        let s2 := { s1 with aud := { s1.aud with phrases := rs.map (fun e => (e.1, e.2.1)) } }
        (rs.filter (fun e => e.2.2)).foldl (fun a e => verdict a e.1) (holdUpdate s2))

/-- The hold vote has been held for HOLD_MAX_MS (R462). -/
def execHoldMaxExpire (s : State) : Out :=
  .next (if s.aud.hold then { s with aud := { s.aud with hold := false, barred := true } } else s)

/-! ## Mute (R474 to R476) -/

/-- MUTE_LED is driven on while MIC_MUTE_N is low (R474). -/
def pinMuteLed (s : State) : Bool := s.aud.muted

/-- No sample captured before a mute is delivered or kept after it (R475, R476): the rings become zeros, the delivery in progress
is abandoned, and so are the blocks whose writes wait; the next block of a path that lost samples so carries GAP (R452). The
blocks go on at their normal times, so the low-power path takes up its grid of blocks again. -/
def muteAudio (s : State) : State :=
  let mine := fun (h : WinHdr × WriteFrom) => match h.2 with
    | .audio _ _ => true
    | _ => false
  let lost := fun (p : Nat) => s.waitHdrs.any (fun h => match h.2 with
    | .audio q _ => q == p
    | _ => false)
  let p0 := tget s.aud.paths {} 0
  let p1 := tget s.aud.paths {} 1
  let n := blockSamples s 0
  let next := if s.aud.readPoint.isSome then p0.next + (s.aud.index - p0.next) / n * n else p0.next
  let zero := fun (l : List AudRow) => l.map (fun _ => zeroRow true false)
  { s with
    waitHdrs := s.waitHdrs.filter (fun h => !mine h),
    aud := { s.aud with
      muted := true, stopped := true, settling := false, lpSettle := 0, hqSettle := 0, readPoint := none, hold := false,
      ring := zero s.aud.ring, hqRing := zero s.aud.hqRing,
      paths := tset (tset s.aud.paths 0 { p0 with next := next, gap := p0.gap || lost 0 || decide (next ≠ p0.next) })
        1 { p1 with gap := p1.gap || lost 1 },
      phrases := s.aud.phrases.map (fun e => (e.1, { e.2 with score := 0, count := 0, inputs := [], seen := [] })) } }

/-- MIC_MUTE_N falls (R475); in OFF only the pin is seen. -/
def execMicMuteOn (s : State) : Out :=
  .next (if s.aud.muted then s
    else if s.pwr.mode = .off then { s with aud := { s.aud with muted := true } }
    else
      let s1 := muteAudio s
      emitDev { s1 with aud := { s1.aud with barred := s.aud.barred && (holder s1).isSome } } .micMuteOn [])

/-- MIC_MUTE_N has been high for 20 ms (R476): the clocks restart, the decimators from zero state, and the samples of the first
4 ms are zeros. -/
def execMicMuteOff (s : State) : Out :=
  .next (if !s.aud.muted then s
    else if s.pwr.mode = .off then { s with aud := { s.aud with muted := false } }
    else emitDev { s with aud := { s.aud with
        muted := false, settling := true, lpSettle := 64, hqSettle := 192, lpDecim := [], hqDecim := [] } } .micMuteOff [])

/-- The first 4 ms after unmute have passed (R476). -/
def execSettlingEnd (s : State) : Out := .next { s with aud := { s.aud with settling := false } }

end Sys2Proof.Machine
end

