-- ==== Sys2Proof/Machine/Net.lean ====
section
/-!
DEFINITION. The Kraros layer (14): sessions, acknowledgement, retransmission, lost events and port events.
-/

namespace Sys2Proof.Machine

/-! ## Policy (R519, R647) -/

/-- The credential set of an interface (R519); port M takes an owner key in recovery (R643). -/
def credentials (s : State) : Iface → List Bytes
  | .host => s.sec.hostCreds
  | .mgmt => if s.rst.recovery then s.sec.ownerKeys else s.sec.mgmtCreds

/-- Whether a session of the interface must have proved to act: always on port M, and on the host interface
under HOST_PROOF_REQUIRED (R519, R647). -/
def authRequired (s : State) : Iface → Bool
  | .host => bit s.sec.policy 5
  | .mgmt => true

/-- The session limit of an interface (R518). -/
def sessionLimit : Iface → Nat
  | .host => 16
  | .mgmt => 4

/-- The live host or management sessions of an interface; set sessions are not counted among them. -/
def sessionCount (s : State) (i : Iface) : Nat :=
  (s.net.sessions.filter (fun e => decide (e.2.iface = i) && e.2.peer.isNone)).length

/-! ## Sessions (R518 to R521) -/

/-- A lane whose session ends keeps its unacknowledged bytes and stays enabled without a session (R566):
its bytes will be sent again from the first unacknowledged one. -/
def laneDetach (sid : Nat) (l : Lane) : Lane :=
  if l.sess = some sid then { l with sess := none, sentBytes := 0 } else l

/-- End a session: its outbound entries and remembered numbers are discarded and its lanes are detached
(R521, R566). Commands in progress run on; `replyAs` discards their replies. -/
def endSession (s : State) (sid : Nat) : State :=
  { s with
    net := { s.net with
      sessions := terase s.net.sessions sid,
      outbound := s.net.outbound.filter (fun e => !(e.pkt.sess == sid)) },
    lanes := s.lanes.map (fun e => (e.1, laneDetach sid e.2)) }

/-- Deliver the events held for no session to a new subscriber (R531). -/
def deliverHeld (s : State) (sid : Nat) (host : Bool) : State :=
  let now := s.net.held.filter (fun p => p.device || host)
  let later := s.net.held.filter (fun p => !(p.device || host))
  now.foldl (fun a p => deliver a sid p none) { s with net := { s.net with held := later } }

/-! ## Acknowledgement and retransmission (R523) -/

/-- The lane bytes that an outbound entry carries: its payload after the 16-byte lane header (R565). -/
def laneBytes (e : OutEntry) : Nat := e.pkt.payload.length - 16

/-- A lane that is not enabled and whose delivered bytes are all acknowledged has no owner (R550). -/
def laneFree (l : Lane) : Lane :=
  if !l.enable && l.draining.isEmpty then { l with owner := none, sess := none } else l

/-- Bytes of a lane's draining bank are acknowledged (R564). -/
def laneAck (s : State) (lane n : Nat) : State :=
  { s with lanes := tmod s.lanes lane (fun l =>
      laneFree { l with draining := l.draining.drop n, sentBytes := l.sentBytes - n, offset := l.offset + n }) }

/-- An outbound number is acknowledged by a cumulative LINK, numbers being taken modulo 2³². -/
def ackedBy (link num : Nat) : Bool := decide ((link + 2 ^ 32 - num) % 2 ^ 32 < 2 ^ 31)

/-- The LINK of a host packet frees every outbound entry up to and including its value (R523), and lane data
among them empties its draining bank (R564). -/
def acknowledge (s : State) (sid link : Nat) : State :=
  let hit := fun (e : OutEntry) => (e.pkt.sess == sid) && ackedBy link e.pkt.link
  let freed := s.net.outbound.filter hit
  let s1 := { s with net := { s.net with outbound := s.net.outbound.filter (fun e => !hit e) } }
  freed.foldl (fun a e => match e.lane with
    | some l => laneAck a l (laneBytes e)
    | none => a) s1

/-- Send an outbound entry again, its next interval doubled up to 256 ms (R523). -/
def resend (s : State) (sid num : Nat) : State :=
  match s.net.outbound.find? (fun e => (e.pkt.sess == sid) && (e.pkt.link == num)) with
  | none => s
  | some e =>
    let out := s.net.outbound.map (fun x =>
      if (x.pkt.sess == sid) && (x.pkt.link == num) then { x with interval := min (2 * x.interval) 256 } else x)
    sendPkt { s with net := { s.net with outbound := out } } e.pkt

/-- The interval of an unacknowledged outbound entry expires (R523). -/
def execOutboundRetransmit (sess num : Nat) (s : State) : Out := .next (resend s sess num)

/-! ## Events (R532) and ports (R546) -/

/-- Room has returned in the event share: one ETH_EVENTS_LOST event carries the number discarded since the
previous one (R532). -/
def execEventsLostReport (s : State) : Out :=
  if s.net.lostSince = 0 ∨ 1024 ≤ eventEntries s ∨ storeFull s then .next s
  else
    let n := s.net.lostSince
    .next (emitDev { s with net := { s.net with lostSince := 0 } } .ethEventsLost (leBytes 4 n))

/-- The interfaces of the ports (R506): an integrated IEEE 802.3ch PHY, USXGMII, and SGMII. -/
inductive Phy where
  | baseT1 | usxgmii | sgmii
deriving DecidableEq, Repr

/-- The interface of a port; port 3 is port M. -/
def portPhy (port : Nat) : Phy := if port ≤ 1 then .baseT1 else if port = 2 then .usxgmii else .sgmii

/-- The rates of an interface (R506, R507), as SPEED codes: 1 is 1 Gbit/s, 2 is 2.5, 3 is 5 and 4 is 10. -/
def Phy.rates : Phy → List Nat
  | .baseT1 => [2, 3, 4]
  | .usxgmii => [1, 2, 3, 4]
  | .sgmii => [1]

/-- A port's link comes up at a rate of its interface (R506, R510, R546); port 3 is port M. A MACsec secure association is in use
once the partner's MKA agrees on a CAK that the port holds (R507, R660). -/
def execEthLinkUp (port : Nat) (link : LinkUp) (s : State) : Out :=
  let sa := link.mka && s.sec.caks.any (fun e => e.1 / 4 == port)
  .next (if !(portPhy port).rates.contains link.speed then s
    else emitDev { s with net := { s.net with ports := tset s.net.ports port { link := true, speed := link.speed, macsec := sa } } }
      .ethLinkUp (leBytes 1 port ++ leBytes 1 link.speed))

/-- A port's link goes down (R510, R546). -/
def execEthLinkDown (port : Nat) (s : State) : Out :=
  let p := tget s.net.ports {} port
  .next (emitDev { s with net := { s.net with
      ports := tset s.net.ports port { p with link := false, speed := 0, macsec := false } } }
    .ethLinkDown (leBytes 1 port))

/-- BUSY: high while all 224 host entries of the command queue are held (R527); low until the interfaces are
up (R765). -/
def pinBusy (s : State) : Bool :=
  s.rst.up && decide (224 ≤ (s.net.queue.filter (fun e => decide (e.req.iface = .host))).length)

/-- ATTN_N: driven low while the outbound store holds an unacknowledged entry (R528); released until the interfaces are up (R765). -/
def pinAttnLow (s : State) : Bool := s.rst.up && !s.net.outbound.isEmpty

end Sys2Proof.Machine
end

