-- ==== Sys2Proof/Machine/Lanes.lean ====
section
/-!
DEFINITION. Lanes (15): their banks and packets, puts, hand-over and delivery, LANE_CFG and LANE_FLUSH.
-/

namespace Sys2Proof.Machine

/-! ## Banks and packets (R547, R551) -/

/-- A lane. -/
def laneAt (s : State) (n : Nat) : Lane := tget s.lanes {} n

/-- Set a lane. -/
def setLane (s : State) (n : Nat) (l : Lane) : State := { s with lanes := tset s.lanes n l }

/-- The bytes of a bank (R547). -/
def bankSize (n : Nat) : Nat := if n < 24 then 8192 else 131072

/-- The bytes that a packet of a payload length occupies: slot, payload and padding (R551). -/
def pktSize (payload : Nat) : Nat := 8 + roundUp payload 8

/-- The bytes of a complete packet (R551). -/
def LanePkt.bytes (p : LanePkt) : Bytes :=
  leBytes 4 p.data.length ++ leBytes 4 p.number ++ p.data ++ zeros (roundUp p.data.length 8 - p.data.length)

/-- The bytes of the complete packets of the filling bank. -/
def fillBytes (l : Lane) : Nat := (l.filling.map (fun p => pktSize p.data.length)).sum

/-- The held bytes of a lane (R568). -/
def heldBytes (l : Lane) : Nat :=
  l.draining.length + fillBytes l + (match l.opened with
    | some (p, _) => 8 + p.data.length
    | none => 0)

/-- Held bytes per 1,024 of lane size (R697, R702). -/
def heldShare (n : Nat) (l : Lane) : Nat := heldBytes l * 1024 / (2 * bankSize n)

/-- Packets discarded count as lost, saturating (R561). -/
def loseBy (l : Lane) (n : Nat) : Lane := { l with lost := min (l.lost + n) (2 ^ 32 - 1) }

/-! ## Delivery (R562 to R566) -/

/-- The next DATA packet of a draining bank (R564, R565): as many whole 8-byte units as the session takes. -/
def laneData (s : State) (n sid : Nat) (l : Lane) : Packet :=
  let room := match tget? s.net.sessions sid with
    | some e => (e.maxPayload - 16) / 8 * 8
    | none => 0
  { cls := .data,
    payload := leBytes 1 0 ++ leBytes 1 n ++ leBytes 1 l.mode ++ zeros 1 ++ leBytes 4 l.lost ++
      leBytes 8 (l.offset + l.sentBytes) ++ (l.draining.drop l.sentBytes).take room }

/-- Send the unsent bytes of the draining bank to the lane's session, while the outbound store has room (R526). -/
def laneSend (n : Nat) : Nat → State → State
  | 0, s => s
  | fuel + 1, s =>
    let l := laneAt s n
    match l.sess with
    | none => s
    | some sid =>
      let p := laneData s n sid l
      if l.draining.length ≤ l.sentBytes ∨ p.payload.length ≤ 16 ∨ storeFull s then s
      else laneSend n fuel (deliver (setLane s n { l with sentBytes := l.sentBytes + (p.payload.length - 16) }) sid p (some n))

/-- Send what a lane has handed over. -/
def sendLane (s : State) (n : Nat) : State := laneSend n ((laneAt s n).draining.length / 8 + 1) s

/-- The banks swap (R562): the complete packets are handed over, a flush that has taken effect is answered
(R567), and the bytes are sent. -/
def handOver (s : State) (n : Nat) : State :=
  let l := laneAt s n
  let s1 := odoSample s 12 (heldShare n l)
  let l1 := { l with draining := l.filling.flatMap LanePkt.bytes, filling := [], sentBytes := 0, flushing := [] }
  sendLane (l.flushing.foldl (fun a rq => replyC a rq 0x0171 .ok .none []) (setLane s1 n l1)) n

/-! ## The packet boundary (R549, R550) -/

/-- The entries of a lane leave the outbound stores (R549). -/
def withdrawLane (s : State) (n : Nat) : State :=
  { s with net := { s.net with outbound := s.net.outbound.filter (fun e => !(e.lane == some n)) } }

/-- The fields of a LANE_CFG come into force (R549, R550, R561): the mode, LEVEL, IDLE_US and session change, and ENABLE starts the
lane's counts or discards what has not been handed over. -/
def applyCfg (s : State) (n : Nat) (g : LaneCfg) : State :=
  let l := { laneAt s n with pend := none }
  let l1 :=
    if g.enable then
      if l.enable then l
      else { l with enable := true, lost := 0, begun := 0, offset := if l.draining.isEmpty then 0 else l.offset }
    else loseBy { l with enable := false, filling := [], opened := none } (l.filling.length + (if l.opened.isSome then 1 else 0))
  let l2 := { l1 with mode := g.mode, level := g.level, idle := g.idle }
  if l.sess = some g.sess then setLane s n (laneFree l2)
  else sendLane (setLane (withdrawLane s n) n (laneFree { l2 with sess := some g.sess, sentBytes := 0 })) n

/-- The hand-over of a flush that has taken effect, as soon as the draining bank is empty (R567). -/
def flushOut (s : State) (n : Nat) : State :=
  let l := laneAt s n
  if l.flushing.isEmpty ∨ !l.draining.isEmpty then s else handOver s n

/-- What waits for a packet boundary acts when no packet is open: the flush takes effect, its hand-over precedes
(R569), and then comes the LANE_CFG. -/
def boundary (s : State) (n : Nat) : State :=
  let l := laneAt s n
  if l.opened.isSome then flushOut s n
  else
    let s1 := flushOut (setLane s n { l with flush := [], flushing := l.flushing ++ l.flush }) n
    let l1 := laneAt s1 n
    match l1.pend with
    | some g => if l1.flushing.isEmpty then applyCfg s1 n g else s1
    | none => s1

/-! ## Puts (R554 to R560) -/

/-- The fate of a put: it ends with result OK or TOO_LONG (R556), or it waits. -/
inductive PutFate where
  | landed | tooLong | waits
deriving DecidableEq, Repr

/-- The result that a fate gives the stage program (R556). -/
def PutFate.result (f : PutFate) : Nat := if f = .tooLong then 1 else 0

/-- A put has ended: its stage goes on with the result (R556, R560). -/
def putDone (s : State) (c core slot result : Nat) : State :=
  modStage s c core slot (fun r => { r with st := .running, put := some result })

/-- Discard the oldest complete packets of the filling bank until `need` bytes fit (R559). -/
def discardFor (n need : Nat) : Nat → Lane → Lane
  | 0, l => l
  | fuel + 1, l =>
    if fillBytes l + need ≤ bankSize n ∨ l.filling.isEmpty then l
    else discardFor n need fuel (loseBy { l with filling := l.filling.tail } 1)

/-- Report a lane whose held bytes have risen to LEVEL (R568). -/
def levelEvent (s : State) (n old : Nat) : State :=
  let l := laneAt s n
  if old < l.level ∧ l.level ≤ heldBytes l then
    emit s l.owner .ok .laneLevel (leBytes 1 n ++ leBytes 4 (heldBytes l))
  else s

/-- Put bytes into a lane for a stage slot (R554 to R559): the state, and whether the put has ended. -/
def putBytes (s : State) (n core slot : Nat) (bs : Bytes) (close : Bool) : State × PutFate :=
  let l := laneAt s n
  match l.opened with
  | some (p, c0, s0) =>
    if c0 ≠ core ∨ s0 ≠ slot then (s, .waits) else go s l p (heldBytes l)
  | none => go s { l with begun := (l.begun + 1) % 2 ^ 32 } { number := l.begun } (heldBytes l)
where
  /-- Append to the packet `p` of lane `l`. -/
  go (s : State) (l : Lane) (p : LanePkt) (old : Nat) : State × PutFate :=
    let q : LanePkt := { p with data := p.data ++ bs }
    let need := pktSize q.data.length
    let land := fun (a : State) (m : Lane) =>
      let m1 := if close then { m with filling := m.filling ++ [q], opened := none }
        else { m with opened := some (q, core, slot) }
      let a1 := levelEvent (setLane a n m1) n old
      (if close then boundary a1 n else a1, PutFate.landed)
    if bankSize n < need then (boundary (setLane s n (loseBy { l with opened := none } 1)) n, .tooLong)
    else if fillBytes l + need ≤ bankSize n then land s l
    else if l.draining.isEmpty then
      let s1 := handOver (setLane s n l) n
      land s1 (laneAt s1 n)
    else if l.mode = 0 then (s, .waits)
    else land s (discardFor n need (l.filling.length + 1) l)

/-- A waiting put's stage stands ready to go on: its job holds its cores and the stage waits in this put (R560). -/
def putReady (s : State) (n core slot : Nat) : Bool :=
  match stageCtx s core slot with
  | none => false
  | some c => match (tget? s.ctxs c).bind Ctx.job with
    | none => false
    | some j => j.stages.any (fun r => r.core == core && r.slot == slot && r.st == .putWait n)

/-- Try the puts that wait on a lane, in order; a put on a lane that has been disabled ends with DISABLED (R556). -/
def retryPuts (n : Nat) : List (Nat × Nat × Bytes × Bool) → State → State
  | [], s => s
  | (core, slot, bs, close) :: rest, s =>
    let keep := fun (a : State) =>
      setLane a n { laneAt a n with waiting := (laneAt a n).waiting ++ [(core, slot, bs, close)] }
    let resume := fun (a : State) (r : Nat) => match stageCtx a core slot with
      | some c => putDone a c core slot r
      | none => a
    if !putReady s n core slot then retryPuts n rest (keep s)
    else if !(laneAt s n).enable then retryPuts n rest (resume s 2)
    else match putBytes s n core slot bs close with
      | (s1, .waits) => retryPuts n rest (keep s1)
      | (s1, f) => retryPuts n rest (resume s1 f.result)

/-- Try every put that waits on a lane. -/
def servePuts (s : State) (n : Nat) : State :=
  let l := laneAt s n
  retryPuts n l.waiting (setLane s n { l with waiting := [] })

/-- A stage's lane put (R554 to R560). It is read through RD0, once a Convoy tag is free (R202). -/
def execLanePut (core slot lane off len : Nat) (close : Bool) (s : State) : Out :=
  .next (match stageRunning s core slot with
    | none => s
    | some (c, j) =>
      let l := laneAt s lane
      if 32 ≤ lane ∨ (l.owner.isSome ∧ l.owner ≠ some c) ∨ off % 32 ≠ 0 ∨ len = 0 ∨ 4096 < len then failJob s c .lanePutFault
      else if !tagFree s core slot then s
      else withWords s c j.run.slot core off len (fun s => match deckRead s c j.run.slot core off len with
        | none => failJob s c .lanePutFault
        | some bs =>
          if !l.enable then putDone s c core slot 2
          else match putBytes (monSample s 2 lane (heldShare lane l)) lane core slot bs close with
            | (s1, .waits) =>
              let s2 := setLane s1 lane { laneAt s1 lane with waiting := (laneAt s1 lane).waiting ++ [(core, slot, bs, close)] }
              schedule (tryStop (modStage s2 c core slot (fun r => { r with st := .putWait lane })) c)
            | (s1, f) => servePuts (putDone s1 c core slot f.result) lane))

/-! ## Hand-over (R562, R563) -/

/-- A condition of R562 holds for a lane, its idle timer apart. -/
def handReady (n : Nat) (l : Lane) : Bool :=
  l.draining.isEmpty && (if n < 24 then !l.filling.isEmpty else !l.filling.isEmpty && decide (l.level ≤ fillBytes l))

/-- Go on with a lane: hand over if `go`, send what is unsent, act on the boundary, and try the waiting puts. -/
def carryLane (s : State) (n : Nat) (go : Bool) : State :=
  let s1 := if go then handOver s n else sendLane s n
  servePuts (boundary s1 n) n

/-- The filling bank is handed over when the draining bank is empty and a condition of R562 holds. -/
def execLaneHandover (lane : Nat) (s : State) : Out :=
  .next (if (tget? s.lanes lane).isNone then s else carryLane s lane (handReady lane (laneAt s lane)))

/-- The idle timer of a large lane expires (R563). -/
def execLaneIdleExpire (lane : Nat) (s : State) : Out :=
  let l := laneAt s lane
  .next (if 24 ≤ lane ∧ l.idle ≠ 0 ∧ l.draining.isEmpty ∧ !l.filling.isEmpty then carryLane s lane true else s)

/-! ## LANE_CFG and LANE_FLUSH (R549, R567, R571) -/

/-- LANE_PARAM (R571). -/
def laneParamBad (lane mode enable level idle : Nat) : Bool :=
  decide (31 < lane) || decide (3 < mode) || decide (1 < enable) || level % 8 != 0 ||
  (if lane < 24 then decide (16384 < level) || idle != 0
   else decide (level < 8) || decide (131072 < level) || (idle != 0 && (decide (idle < 10) || decide (100000 < idle))))

/-- A refused lane command, which LANEn_STATUS records (R570). -/
def laneRefuse (s : State) (rq : Req) (op lane : Nat) (r : Reason) : State :=
  let s1 := if lane < 32 then setLane s lane { laneAt s lane with cfgReason := r } else s
  replyC s1 rq op .refused r []

/-- LANE_CFG (R549, R550, R571): the context that enables a lane without an owner owns it; the fields come into
force at the packet boundary. -/
def execLaneCfg (rq : Req) (lane mode enable level idle : Nat) (s : State) : Out :=
  .next (onCtx s rq 0x0170 (fun _ =>
    let l := laneAt s lane
    if laneParamBad lane mode enable level idle then laneRefuse s rq 0x0170 lane .laneParam
    else if l.owner.isSome ∧ l.owner ≠ some rq.ctx then laneRefuse s rq 0x0170 lane .laneOwner
    else if l.owner.isNone ∧ enable = 0 then replyC s rq 0x0170 .ok .none []
    else
      let g : LaneCfg := { mode := mode, enable := enable == 1, level := level, idle := idle, sess := rq.sess }
      let s1 := replyC (setLane s lane { l with owner := some rq.ctx, pend := some g }) rq 0x0170 .ok .none []
      servePuts (boundary s1 lane) lane))

/-- LANE_FLUSH (R567): refused on a lane that is not enabled or is about to be disabled. -/
def execLaneFlush (rq : Req) (lane : Nat) (s : State) : Out :=
  .next (onCtx s rq 0x0171 (fun _ =>
    let l := laneAt s lane
    let stopping : Bool := match l.pend with
      | some g => !g.enable
      | none => false
    if l.owner.isSome ∧ l.owner ≠ some rq.ctx then laneRefuse s rq 0x0171 lane .laneOwner
    else if 32 ≤ lane ∨ !l.enable ∨ stopping then laneRefuse s rq 0x0171 lane .laneDisabled
    else servePuts (boundary (setLane s lane { l with flush := l.flush ++ [rq] }) lane) lane))

end Sys2Proof.Machine
end

