-- ==== Sys2Proof/Machine/Guardrail.lean ====
section
/-!
DEFINITION. Guardrail (13): stops and their causes, sensor frames and the counted evaluation, direct inputs,
release, faults, heartbeat and the weight record.
-/

namespace Sys2Proof.Machine

/-! ## Stops (R493, R495, R496) -/

/-- The GUARDRAIL page. -/
def grdPage : Nat := 0x0022_0000

/-- Guardrail runs: enabled, in RUN, IDLE or SLEEP (R500). -/
def grdOn (s : State) : Bool := pageOn s grdPage && decide (s.pwr.mode = .awake)

/-- The stop outputs as driven: STOP_N[k] is low while stop k is latched, and every one of them while PORST_N is
low or the island has no power (R482, R501). -/
def pinStopLow (s : State) (k : Nat) : Bool :=
  bit s.grd.stopped k || s.rst.porstLow || s.rst.held || decide (s.pwr.mode ≠ .awake)

/-- GRD_CAUSEk (R503). -/
def causeWord (g : GrdCause) : Nat :=
  g.direct * 2 ^ 24 + g.stale * 2 ^ 16 + g.votes * 2 ^ 4 + ofBool g.fault * 2 ^ 3

/-- Assert the stops of a mask with the cause that each has (R493, R495, R496): those not latched are latched,
counted and reported. -/
def assertStops (s : State) (mask : Nat) (cause : Nat → GrdCause) : State :=
  let new := (List.range 4).filter (fun k => bit mask k && !bit s.grd.stopped k)
  if new.isEmpty then s
  else
    let g := s.grd
    let s1 := { s with grd := { g with
      stopped := g.stopped ||| maskOf new,
      causes := new.foldl (fun t k => tset t k (cause k)) g.causes,
      stops := min (g.stops + new.length) (2 ^ 32 - 1) } }
    emitDev s1 .grdStop (leBytes 1 (maskOf new) ++ new.flatMap (fun k => leBytes 4 (causeWord (cause k))) ++
      leBytes 8 (Config.freeTime s.draws))

/-- A fault (R498): all four stops, GRD_LATCH.FAULT, and the heartbeat stops. -/
def grdFault (s : State) : State :=
  let s1 := assertStops s 15 (fun _ => { fault := true })
  if s.grd.fault then s1 else emitDev { s1 with grd := { s1.grd with fault := true } } .grdFault []

/-- Guardrail starts with all four stops latched (R499, R501): P false, no slot heard, nothing on the bus. -/
def grdStart (s : State) : State :=
  { s with grd := { s.grd with
    stopped := 15, fault := false, prevVote := 0, asserted := 0, stale := 0, heard := [], bus := none, waiting := [] } }

/-- Guardrail is disabled (R499): all four stops are asserted. -/
def grdHalt (s : State) : State :=
  let s1 := assertStops s 15 (fun _ => {})
  { s1 with grd := { s1.grd with bus := none, waiting := [], asserted := 0, stale := 0 } }

/-! ## The evaluation (R485, R489 to R491) -/

/-- A live register of a sensor slot (R503). -/
def slotReg (s : State) (n : Nat) : Nat := live s (0x0022_0080 + 0x10 * n)

/-- A sensor slot is enabled. -/
def slotOn (s : State) (n : Nat) : Bool := bit (slotReg s n) 31

/-- The weight record, zeros while none is loaded. -/
def grdRecord (s : State) : Bytes := s.grd.weights.getD []

/-- Feature `i` (R485, R489): 0 for a disabled slot and for one that no frame has reached. -/
def grdFeature (s : State) (i : Nat) : Int :=
  if slotOn s (i / 4) && s.grd.heard.contains (i / 4) then
    let r := grdRecord s
    let x : Int := ((tget s.grd.readings 0 i : Nat) : Int)
    sat (-128) 127 (rne ((x - toSigned 16 (field r (0x08 + 2 * i) 2)) * toSigned 16 (field r (0x28 + 2 * i) 2)) 256)
  else 0

/-- One layer of the network (R490): its number, the offsets of its weights and biases, and its outputs. -/
def grdLayer (r : Bytes) (n wOff bOff outs : Nat) (ins : List Int) : List Int :=
  let q := 0x48 + 4 * n
  (List.range outs).map (fun o =>
    let ws := (List.range ins.length).map (fun i => toSigned 8 (field r (wOff + o * ins.length + i) 1))
    let acc := toSigned 32 (field r (bOff + 4 * o) 4) + ((ws.zip ins).map (fun p => p.1 * p.2)).sum
    let a := if bit (field r (q + 3) 1) 0 then max acc 0 else acc
    sat (-128) 127 (rne (a * (field r q 2 : Nat)) (2 ^ field r (q + 2) 1)))

/-- The four scores of the network 16-32-16-4 (R488, R490). -/
def grdScores (r : Bytes) (fs : List Int) : List Int :=
  grdLayer r 2 0x460 0x560 4 (grdLayer r 1 0x260 0x520 16 (grdLayer r 0 0x60 0x4A0 32 fs))

/-- The stops for which the network votes (R491). -/
def netVote (s : State) : Nat :=
  let r := grdRecord s
  let sc := grdScores r ((List.range 16).map (grdFeature s))
  maskOf ((List.range 4).filter (fun k => decide (toSigned 8 (field r (0x54 + k) 1) ≤ sc.getD k 0)))

/-- Rule `i` is true (R491). -/
def ruleHit (s : State) (i : Nat) : Bool :=
  let w := live s (0x0022_00C0 + 4 * i)
  let lim := toSigned 8 w
  bit w 15 && (if bit w 14 then decide (lim < grdFeature s i) else decide (grdFeature s i < lim))

/-- The stops for which a rule votes (R491). -/
def ruleVote (s : State) : Nat :=
  (List.range 16).foldl (fun m i => if ruleHit s i then m ||| bits (live s (0x0022_00C0 + 4 * i)) 11 8 else m) 0

/-- One evaluation (R491): the votes N, R and P, and the stops with at least two of them. -/
def evaluate (s : State) : State :=
  let n := netVote s
  let r := ruleVote s
  let p := s.grd.prevVote
  let hit := (n &&& r) ||| (n &&& p) ||| (r &&& p)
  let s1 := assertStops s hit (fun k =>
    { votes := ofBool (bit n k) + 2 * ofBool (bit r k) + 4 * ofBool (bit p k) })
  { s1 with grd := { s1.grd with prevVote := n ||| r, asserted := hit } }

/-! ## Sensor frames (R483 to R487) -/

/-- One bit step of CRC-8 with polynomial 0x07. -/
def crcStep (c : Nat) : Nat := if bit c 7 then (2 * c % 256) ^^^ 0x07 else 2 * c % 256

/-- CRC-8, polynomial 0x07, initial value 0x00 (R484). -/
def crc8 (b : Bytes) : Nat :=
  b.foldl (fun c x => crcStep (crcStep (crcStep (crcStep (crcStep (crcStep (crcStep (crcStep (c ^^^ x.toNat))))))))) 0

/-- A slot's PERIOD_US elapses (R483): it polls when the bus is free, and otherwise waits for it. -/
def execSensorPoll (slot : Nat) (s : State) : Out :=
  .next (if !grdOn s ∨ !slotOn s slot ∨ 4 ≤ slot then s
    else match s.grd.bus with
      | none => { s with grd := { s.grd with bus := some slot } }
      | some b => if b = slot then s else { s with grd := { s.grd with waiting := insertNum slot s.grd.waiting } })

/-- GRD_SPI_CS_N[k] (R481, R483): low while slot `k` is polled. -/
def pinCsLow (s : State) (k : Nat) : Bool := s.grd.bus == some k

/-- GRD_SPI_SCLK (R481, R503): its rate in kHz during a poll, GCLK divided by 2 × CLK_DIV, and 0 at rest, at the level of the
clock polarity, MODE bit 1 (PRESUMED: the usual numbering of SPI modes, entry 111). -/
def pinSclk (s : State) : Nat := if s.grd.bus.isSome then 500000 / (2 * bits (live s 0x0022_0060) 15 8) else 0
def pinSclkRest (s : State) : Bool := bit (live s 0x0022_0060) 1

/-- What GRD_SPI_MOSI carries in a poll (R481, R483, R503): the slot's first CMD_BYTES command bytes, byte 0 first. -/
def pinMosi (s : State) : Bytes :=
  match s.grd.bus with
  | none => []
  | some n =>
    (leBytes 4 (live s (0x0022_0084 + 0x10 * n)) ++ leBytes 4 (live s (0x0022_0088 + 0x10 * n))).take (bits (slotReg s n) 19 16)

/-- The bus frees, and the lowest waiting slot polls (R483). -/
def freeBus (s : State) : State :=
  { s with grd := { s.grd with bus := s.grd.waiting.head?, waiting := s.grd.waiting.tail } }

/-- A poll's frame ends (R484 to R491): a frame that fails its CRC is discarded; an accepted one updates its four
features and starts one evaluation. -/
def execSensorFrame (slot : Nat) (data : Bytes) (s : State) : Out :=
  .next (if !grdOn s ∨ !slotOn s slot ∨ s.grd.bus ≠ some slot then s
    else
      let g := s.grd
      if bit (slotReg s slot) 30 ∧ crc8 (data.take 8) ≠ field data 8 1 then
        freeBus { s with grd := { g with crcErr := min (g.crcErr + 1) (2 ^ 32 - 1) } }
      else
        let s1 := { s with grd := { g with
          frames := min (g.frames + 1) (2 ^ 32 - 1),
          readings := (List.range 4).foldl (fun t i => tset t (4 * slot + i) (field data (2 * i) 2)) g.readings,
          heard := insertNum slot g.heard, stale := g.stale &&& (15 - 2 ^ slot) } }
        freeBus (evaluate s1))

/-- A slot has had no accepted frame for STALE_US (R487). -/
def execGrdStale (slot : Nat) (s : State) : Out :=
  .next (if !grdOn s ∨ 4 ≤ slot ∨ !slotOn s slot then s
    else
      let s1 := assertStops { s with grd := { s.grd with stale := s.grd.stale ||| 2 ^ slot } }
        (live s (0x0022_008C + 0x10 * slot) % 16) (fun _ => { stale := 2 ^ slot })
      emitDev s1 .grdStale (leBytes 1 slot))

/-! ## The direct path (R492) -/

/-- The direct inputs active at given levels that assert a stop. -/
def directOf (s : State) (levels k : Nat) : Nat :=
  maskOf ((List.range 8).filter (fun i =>
    let w := live s (0x0022_0040 + 4 * i)
    bit w k && (bit levels i == bit w 8)))

/-- The stops that the direct inputs assert. -/
def directMask (s : State) (levels : Nat) : Nat :=
  maskOf ((List.range 4).filter (fun k => decide (directOf s levels k ≠ 0)))

/-- The levels of GRD_IN[7:0] change (R492): an active input asserts the stops in its mask without a vote. -/
def execGrdInActive (levels : Nat) (s : State) : Out :=
  let s1 := { s with grd := { s.grd with levels := levels % 256 } }
  .next (if grdOn s then assertStops s1 (directMask s (levels % 256)) (fun k => { direct := directOf s (levels % 256) k })
    else s1)

/-! ## GUARDRAIL_CFG (R494, R500, R502, R545) -/

/-- The stops for which a stale slot asserts. -/
def staleMask (s : State) : Nat :=
  (maskBits s.grd.stale 4).foldl (fun m n => m ||| live s (0x0022_008C + 0x10 * n) % 16) 0

/-- A cause of stop `k` persists (R494): Guardrail does not run, a fault, a direct input, a vote or a stale slot. -/
def causePersists (s : State) (k : Nat) : Bool :=
  !grdOn s || s.grd.fault || bit (directMask s s.grd.levels) k || bit s.grd.asserted k || bit (staleMask s) k

/-- GUARDRAIL_CFG with operation RELEASE (R494, R545). -/
def execRelease (rq : Req) (outputs : Nat) (s : State) : Out :=
  let named := (List.range 4).filter (fun k => bit outputs k)
  let free := named.filter (fun k => !causePersists s k)
  let held := named.filter (fun k => causePersists s k)
  let rose := free.filter (fun k => bit s.grd.stopped k)
  let s1 := { s with grd := { s.grd with stopped := s.grd.stopped &&& (15 - maskOf free) } }
  let s2 := if rose.isEmpty then s1 else emitDev s1 .grdReleased []
  let body := leBytes 1 (maskOf free) ++ leBytes 1 (maskOf held) ++ zeros 2
  .next (if held.isEmpty then replyD s2 rq 0x01E0 .ok .none body
    else replyD s2 rq 0x01E0 .refused .grdReleaseActive body)

/-- GUARDRAIL_CFG with operation DEEP_OVERRIDE (R500). -/
def execDeepOverride (rq : Req) (s : State) : Out :=
  .next (replyD { s with grd := { s.grd with deepOverride := true } } rq 0x01E0 .ok .none [])

/-- A weight record meets R502. -/
def weightsOk (r : Bytes) : Bool :=
  r.length == 1392 && r.take 4 == [0x47, 0x52, 0x44, 0x31] && field r 4 1 == 1 && field r 5 3 == 0 &&
  (slice r 0x58 8).all (· == 0) &&
  (List.range 3).all (fun n => decide (field r (0x4A + 4 * n) 1 ≤ 31) && decide (field r (0x4B + 4 * n) 1 ≤ 1))

/-- GUARDRAIL_CFG with operation LOAD_WEIGHTS (R502), accepted while Guardrail is disabled. -/
def execLoadWeights (rq : Req) (weights : Bytes) (s : State) : Out :=
  .next (if pageOn s grdPage then replyD s rq 0x01E0 .refused .grdLoadEnabled []
    else if !weightsOk weights then replyD s rq 0x01E0 .refused .grdWeightFormat []
    else replyD { s with grd := { s.grd with weights := some weights } } rq 0x01E0 .ok .none (shake256 64 weights))

/-! ## Heartbeat and faults (R497, R498) -/

/-- GRD_HB changes level while Guardrail runs without a fault (R497). -/
def execHeartbeatToggle (s : State) : Out :=
  .next (if grdOn s && !s.grd.fault then { s with grd := { s.grd with hb := !s.grd.hb } } else s)

/-- The parity check of weights and live configuration (R498). -/
def execGrdParityCheck (ok : Bool) (s : State) : Out :=
  .next (if !ok && decide (s.pwr.mode = .awake) then grdFault s else s)

/-- A GCLK gap of more than 1 µs (R498). -/
def execGclkGap (s : State) : Out := .next (if s.pwr.mode = .awake then grdFault s else s)

/-- The Guardrail client's vote refuses DEEP (R500). -/
def grdRefusesDeep (s : State) : Bool := pageOn s grdPage && s.grd.dockHigh && !s.grd.deepOverride

/-- DOCK_N changes (R623, R626): a rising edge aborts an entry to DEEP that has no override, and ends DEEP. -/
def execDockNEdge (level : Bool) (s : State) : Out :=
  let s1 := { s with grd := { s.grd with dockHigh := level } }
  .next (if !level || s.grd.dockHigh then s1
    else
      let s2 := match s.pwr.entry with
        | some e => if e.target = 3 ∧ !s.grd.deepOverride then abortEntry s1 7 1 else s1
        | none => s1
      wakeSource s2)

end Sys2Proof.Machine
end

