-- ==== Sys2Proof/Machine/Ddr.lean ====
section
/-!
DEFINITION. The DDR4 controller (16) and the patrol scrub (19): training, frames, requests at the channels, row
activations and throttling, and memory errors.
-/

namespace Sys2Proof.Machine

/-! ## Configuration and capacity (R573 to R575, R584, R194) -/

/-- DDR_CONFIG in force. -/
def ddrCfg (s : State) : Nat := live s 0x0003_8010

/-- The populated channels. -/
def populated (s : State) : List Nat := maskBits (bits (ddrCfg s) 31 24) 8

/-- The channel of a line (R584). -/
def channelOf (s : State) (line : Nat) : Nat :=
  line / 4 % (if bits (ddrCfg s) 31 24 = 0x0F then 4 else 8)

/-- The capacity of one channel in MiB (R575): ranks × devices × density. -/
def chanMib (s : State) : Nat :=
  (bits (ddrCfg s) 15 15 + 1) * (if bits (ddrCfg s) 19 18 = 0 then 8 else 4) * 2 ^ (bits (ddrCfg s) 17 16 + 2) * 128

/-- The context capacity of T3 in MiB (R194, R195). -/
def poolOf (s : State) : Nat :=
  let cap := (populated s).length * chanMib s
  cap * 7 / 8 - Config.ddrReserve cap

/-! ## The carve-out and the tag area of T4 (R653, R654, R656) -/

/-- The first address of the carve-out: 7/8 of the installed capacity (R653). -/
def carveBase (s : State) : Nat := (populated s).length * chanMib s * 2 ^ 20 * 7 / 8

/-- The 9 MiB block of region `r` (R653). -/
def blockBase (s : State) (r : Nat) : Nat := carveBase s + r * (9 * 2 ^ 20)

/-- Where the tag word of the line at address `a` lies (R653). -/
def tagWordAt (s : State) (a : Nat) : Nat := blockBase s (a / 2 ^ 26) + a % 2 ^ 26 / 64 * 8

/-- The first line of a level of the counter tree in its counter block (R656). -/
def levelLine (l : Nat) : Nat := [0, 2048, 2304, 2336, 2340].getD l 0

/-- Where node `n` of level `l` of region `r` lies: in the counter block, above the tag words (R653, R656). -/
def nodeAt (s : State) (r l n : Nat) : Nat := blockBase s r + 2 ^ 23 + (levelLine l + n) * 64

/-- Where the 64 tag words of the granule at block address `g` of the drive lie: in the tag area above T4 (R654). -/
def t4TagAt (s : State) (g : Nat) : Nat := (t4First + s.pcie.granules) * 4096 + (g - t4First) * 512

/-- The line with whose row group the activations of a line count: one of the carve-out counts with the region that its block
belongs to (R653, R597; DEDUCED, entry 127). -/
def countLine (s : State) (line : Nat) : Nat :=
  let off := line * 64 - carveBase s
  if carveBase s ≤ line * 64 ∧ 0 < carveBase s then off / (9 * 2 ^ 20) * 2 ^ 20 + off / 64 % 2 ^ 20 else line

/-- A channel, and setting it. -/
def chanAt (s : State) (n : Nat) : DdrChan := tget s.ddr.chans {} n
def setChan (s : State) (n : Nat) (c : DdrChan) : State := { s with ddr := { s.ddr with chans := tset s.ddr.chans n c } }

/-! ## Unavailability (R675) -/

/-- A cause of unavailability begins: 0 boot, 1 watchdog, 2 error or recovery, 4 DDR4, 16 + n the fence of logical core n. -/
def unavailFrom (s : State) (cause : Nat) : State :=
  { s with rel := { s.rel with unavailable := insertNum cause s.rel.unavailable } }

/-- A cause of unavailability ends; when it was the last one running, the length of the whole interval, a free amount,
counts in UNAVAIL_MS. -/
def unavailTo (s : State) (cause : Nat) : State :=
  let rest := s.rel.unavailable.filter (· ≠ cause)
  let s1 := { s with rel := { s.rel with unavailable := rest } }
  if s.rel.unavailable.contains cause ∧ rest.isEmpty then
    let o := s1.rel.odo
    draw { s1 with rel := { s1.rel with odo := { o with
      unavailMs := (o.unavailMs + Config.freeAmount s.draws 675) % 2 ^ 64 } } }
  else s1

/-! ## Training (R578, R579, R606) -/

/-- DDR4 enters service: frames count from 0, the pool is reported, and every scrub pass starts from unit 0 (R581,
R195, R681). -/
def ddrEnter (s : State) : State :=
  let d := s.ddr
  unavailTo { s with ddr := { d with
    inService := true, training := false, verifying := false, frame := 0, poolMib := poolOf s,
    chans := d.chans.map (fun e => (e.1, { e.2 with scrub := 0, openRow := [] })) } } 4

/-- Start the training that DDR_CTRL.ENABLE orders, or the verification of kept results (R578, R606). -/
def ddrTrain (s : State) (verify : Bool) : State :=
  { s with ddr := { s.ddr with
    training := true, verifying := verify, done := 0, failed := 0, step := 0,
    chans := s.ddr.chans.map (fun e => (e.1, { e.2 with trained := false })) } }

/-- The populated channels whose training or verification passed. -/
def trainDone (s : State) (failed : Nat) : State :=
  let ok := (populated s).filter (fun n => !bit failed n)
  let s1 := ok.foldl (fun a n => setChan a n { chanAt a n with trained := true }) s
  { s1 with ddr := { s1.ddr with done := maskOf ok, failed := failed } }

/-- Training ends for the channels that it ran on, those not yet trained (R579). A verification that fails goes on to a
full training of the failing channels (R606). -/
def ddrTrained (s : State) (failed step : Nat) : State :=
  if !s.ddr.training then s
  else
    let f := maskOf ((populated s).filter (fun n => bit failed n && !(chanAt s n).trained))
    let s1 := trainDone s f
    if f = 0 then ddrEnter s1
    else
      let code := if s.ddr.verifying then 8 else step
      let s2 := unavailFrom { s1 with ddr := { s1.ddr with
        step := code, verifying := false, training := s.ddr.verifying, poolMib := 0, inService := false } } 4
      emitDev s2 .ddrTrainFail (leBytes 1 f ++ leBytes 1 code)

/-! ## Frames (R581 to R583) -/

/-- The next maintenance frame after frame `f` (R582). -/
def nextMaintenance (s : State) : Nat :=
  let m := if bit (ddrCfg s) 13 then 6 else 12
  let c := s.ddr.frame / m * m + (m - 1)
  if s.ddr.frame < c then c else c + m

/-- A maintenance frame: an all-bank REFRESH to every rank, which leaves no row open, then any ZQ calibration (R582). -/
def execDdrMaintenanceFrame (s : State) : Out :=
  .next (if !s.ddr.inService then s
    else { s with ddr := { s.ddr with
      frame := nextMaintenance s, chans := s.ddr.chans.map (fun e => (e.1, { e.2 with openRow := [] })) } })

/-- A refresh window starts: every activation count is reset and every throttle ends (R583, R597, R598). -/
def execRefreshWindowStart (s : State) : Out :=
  .next (if !s.ddr.inService then s
    else { s with ddr := { s.ddr with
      chans := s.ddr.chans.map (fun e => (e.1, { e.2 with acts := [], throttled := [], reported := [] })) } })

/-! ## Row activations (R585, R595, R597 to R599) -/

/-- The rank, bank and row group of a line, as THROTTLE_LAST packs rank, bank group and bank (R585, R607): 64 rows to
a group with x8 devices and 128 with x16. -/
def rankBank (s : State) (line : Nat) : Nat := bits (Config.ddrMap (channelOf s line) line).toNat 29 25
def ddrRow (s : State) (line : Nat) : Nat := bits (Config.ddrMap (channelOf s line) line).toNat 24 7
def rowGroup (s : State) (line : Nat) : Nat := ddrRow s line / (if bits (ddrCfg s) 19 18 = 0 then 64 else 128)

/-- A throttled port's activation: whether it must wait for the gap depends on when its previous one was, which the
model does not hold, so the free bit decides; each delayed activation counts (R598, R599). -/
def delayActivation (s : State) (n port line : Nat) : State :=
  if Config.freeBit s.draws then
    let c := chanAt s n
    let last := port * 2 ^ 28 + rankBank s line * 2 ^ 23 + rowGroup s line % 2 ^ 11 * 2 ^ 12
    let s1 := setChan (draw s) n { c with
      delayed := tset c.delayed port (min (tget c.delayed 0 port + 1) (2 ^ 32 - 1)), last := last }
    { s1 with rel := { s1.rel with hourly := tset s1.rel.hourly 13 (tget s1.rel.hourly 0 13 + 1) } }
  else draw s

/-- Count an activation; a count above 4,096 throttles the port, and the first throttle of a port in a channel within
a window is reported (R597, R599). -/
def countActivation (s : State) (n port line : Nat) : State :=
  let c := chanAt s n
  let key := rankBank s line * 2 ^ 18 + rowGroup s line
  let k := tget c.acts 0 key + 1
  let c1 := { c with acts := tset c.acts key k }
  if 4096 < k ∧ !c.throttled.contains (port, key) then
    let s1 := setChan s n { c1 with throttled := (port, key) :: c.throttled, reported := insertNum port c.reported }
    if c.reported.contains port then s1
    else emitDev s1 .ddrRowThrottle (leBytes 1 n ++ leBytes 1 port ++ leBytes 1 (rankBank s line / 16) ++
      leBytes 1 (rankBank s line % 16) ++ leBytes 2 (rowGroup s line))
  else setChan s n c1

/-- A request of a port reaches its row: an activation when the bank has another row open, or none (R595, R597). -/
def openRowFor (s : State) (n port line : Nat) : State :=
  let c := chanAt s n
  let bank := rankBank s line
  if tget? c.openRow bank = some (ddrRow s line) then s
  else
    let at_ := countLine s line
    let key := rankBank s at_ * 2 ^ 18 + rowGroup s at_
    let s1 := if c.throttled.contains (port, key) then delayActivation s n port at_ else s
    let s2 := countActivation s1 n port at_
    setChan s2 n { chanAt s2 n with openRow := tset (chanAt s2 n).openRow bank (ddrRow s line) }

/-! ## Memory errors (R600 to R602) -/

/-- A corrected read (R601): counted and recorded; a rise above DDR_CE_LIMIT within a second is reported at most once
in 60 s. Where the seconds lie is not modelled: free bits say whether a new second has begun and whether the
60 s have passed. -/
def correctedRead (s : State) (n line : Nat) : State :=
  let c := chanAt s n
  let run := if Config.freeBit s.draws then 1 else c.ceRun + 1
  let said := c.ceSaid && !Config.freeBit (s.draws + 1)
  let rate := decide (live s 0x0003_8084 < run) && !said
  let ce := min (c.ce + 1) (2 ^ 32 - 1)
  let s1 := setChan (draw (draw s)) n { c with ce := ce, ceLine := some line, ceRun := run, ceSaid := said || rate }
  let s2 := { s1 with rel := { s1.rel with hourly := tset s1.rel.hourly 9 (tget s1.rel.hourly 0 9 + 1) } }
  if rate then emitDev s2 .ddrCeRate (leBytes 1 n ++ leBytes 4 ce) else s2

/-- The items of DDR_UE: channel, rank, bank group, bank, row and column. -/
def ueItems (n line : Nat) : Bytes :=
  let w := (Config.ddrMap n line).toNat
  leBytes 1 n ++ leBytes 1 (bits w 29 29) ++ leBytes 1 (bits w 28 27) ++ leBytes 1 (bits w 26 25) ++
    leBytes 4 (bits w 24 7) ++ leBytes 2 (Config.ddrColumn n line).toNat

/-- A read that detects an uncorrectable error (R602): counted, recorded and reported; the line stays bad until it is
written whole. -/
def uncorrectableRead (s : State) (n line : Nat) : State :=
  let c := chanAt s n
  let s1 := setChan s n { c with ue := min (c.ue + 1) (2 ^ 32 - 1), ueLine := some line }
  emitDev { s1 with t3 := { s1.t3 with bad := insertNum line s1.t3.bad } } .ddrUe (ueItems n line)

/-- What the ECC says of a read: nothing without ECC_EN, and a line known to be bad is uncorrectable (R600, R602). -/
def eccOf (s : State) (lines : List Nat) (e : Ecc) : Ecc :=
  if !bit (ddrCfg s) 14 then .clean else if lines.any (fun l => s.t3.bad.contains l) then .uncorrectable else e

/-! ## Requests (R587 to R596) -/

/-- The party of a request (R586): the partition of its context, 0 the Shared partition; a Sealed one is served in its own
slots alone (R371). -/
def partyOf (s : State) (c : Nat) : Nat :=
  match tget? s.ctxs c with
  | some x => if x.sealed then x.partition else 0
  | none => 0

/-- The entries of a channel queue that a party holds (R590). -/
def partyEntries (s : State) (p : Nat) : Nat :=
  if p = 0 then 64 - sealedSlots s
  else ((s.ctxs.filter (fun e => e.2.sealed && e.2.partition == p)).map (fun e => e.2.ddrSlots)).sum

/-- The lines of a request. -/
def reqSpan (r : DdrReq) : List Nat := (List.range r.lines).map (r.line + ·)

/-- The request is one that R587 describes, at its own channel (R584). -/
def reqOk (s : State) (r : DdrReq) : Bool :=
  decide (r.port < 15) && decide (r.channel = channelOf s r.line) && within r.lines 1 4 && decide (r.line % 4 + r.lines ≤ 4) &&
    (!r.write || decide (r.data.length = 64 * r.lines))

/-- The requests of a channel that may take a queue entry now: among the first 8 of their port, the first of their
port and party without an entry, with an entry of their party free (R588, R590, R595). -/
def admissible (s : State) (c : DdrChan) (e : DdrPend) : Bool :=
  let older := c.reqs.filter (fun x => decide (x.num < e.num) && x.req.port == e.req.port)
  let party := partyOf s e.req.ctx
  e.queued.isNone && e.result.isNone && decide (older.length < 8) &&
    older.all (fun x => x.queued.isSome || partyOf s x.req.ctx != party) &&
    decide ((c.reqs.filter (fun x => x.queued.isSome && x.result.isNone && partyOf s x.req.ctx == party)).length <
      partyEntries s party)

/-- Give free queue entries to waiting requests, one at a time. Which waiting port head takes a Shared entry follows
from the ages (R594, R595), which the model does not hold: a free amount chooses. -/
def takeIn (n : Nat) : Nat → State → State
  | 0, s => s
  | fuel + 1, s =>
    let c := chanAt s n
    let cands := c.reqs.filter (admissible s c)
    let own := cands.filter (fun e => partyOf s e.req.ctx != 0)
    let pick := match own with
      | e :: _ => some e
      | [] => cands[Config.freeAmount s.draws 595 % cands.length]?
    match pick with
    | none => s
    | some e =>
      let reqs := c.reqs.map (fun x => if x.num = e.num then { x with queued := some s.ddr.nextNum } else x)
      let s1 := setChan s n { c with reqs := reqs }
      takeIn n fuel (draw { s1 with ddr := { s1.ddr with nextNum := s1.ddr.nextNum + 1 } })

/-- A request is presented at a channel (R587, R588); without DDR4 in service it fails with DDR_NOT_READY (R579). -/
def execDdrRequestPresent (req : DdrReq) (s : State) : Out :=
  .next (if !reqOk s req then s
    else if !s.ddr.inService then
      { s with ddr := { s.ddr with resps :=
          { port := req.port, id := req.id, status := .fault, reason := .ddrNotReady, data := [] } :: s.ddr.resps } }
    else
      let c := chanAt s req.channel
      let s1 := setChan s req.channel { c with reqs := c.reqs ++ [{ req := req, num := s.ddr.nextNum }] }
      takeIn req.channel (c.reqs.length + 1) { s1 with ddr := { s1.ddr with nextNum := s1.ddr.nextNum + 1 } })

/-- A queued request may be served next: no earlier request of its port to a line of its own is unserved (R589), and
a Sealed partition's requests hold their slots in the order of entry (R592). -/
def servable (s : State) (c : DdrChan) (e : DdrPend) : Bool :=
  e.queued.isSome && e.result.isNone &&
    c.reqs.all (fun x => x.result.isSome || !(decide (x.num < e.num) && x.req.port == e.req.port) ||
      !((reqSpan x.req).any (fun l => (reqSpan e.req).contains l))) &&
    (partyOf s e.req.ctx == 0 || c.reqs.all (fun x => x.result.isSome || partyOf s x.req.ctx != partyOf s e.req.ctx ||
      (match x.queued, e.queued with
       | some a, some b => decide (b ≤ a)
       | _, _ => true)))

/-- Every response of a port whose turn has come is delivered: issue order across all channels (R589). -/
def deliverResps (port : Nat) : Nat → State → State
  | 0, s => s
  | fuel + 1, s =>
    let mine := (s.ddr.chans.flatMap (fun e => e.2.reqs.map (fun r => (e.1, r)))).filter (fun r => r.2.req.port == port)
    match mine.find? (fun r => mine.all (fun q => decide (r.2.num ≤ q.2.num))) with
    | none => s
    | some (n, r) => match r.result with
      | none => s
      | some (st, rs, data) =>
        let c := chanAt s n
        let s1 := setChan s n { c with reqs := c.reqs.filter (fun x => !(x.num == r.num)) }
        deliverResps port fuel { s1 with ddr := { s1.ddr with resps :=
          { port := port, id := r.req.id, status := st, reason := rs, data := data } :: s1.ddr.resps } }

/-- The stored bytes of a line: those a request wrote last, or the device's own. -/
def rawLine (s : State) (line : Nat) : Bytes :=
  (tget? s.ddr.raw line).getD ((List.range 64).map (fun i => Config.freeByte s.draws (64 * line + i)))

/-- A write stores whole lines with fresh check bits (R600, R602). -/
def storeLines (s : State) (r : DdrReq) : State :=
  { s with
    ddr := { s.ddr with raw := (List.range r.lines).foldl (fun t i => tset t (r.line + i) (slice r.data (64 * i) 64)) s.ddr.raw },
    t3 := { s.t3 with bad := removeRange s.t3.bad r.line (r.line + r.lines) } }

/-- Serve a request: its row, its data, and what the ECC says of a read (R595, R600 to R602); which of its lines has the error
is free where no known bad line says so (DESIGN CHOICE, entry 126). -/
def serveReq (s : State) (n : Nat) (r : DdrReq) (ecc : Ecc) : State × (Status × Reason × Bytes) :=
  let s1 := openRowFor s n r.port r.line
  if r.write then (storeLines s1 r, (.ok, .none, []))
  else match eccOf s1 (reqSpan r) ecc with
    | .uncorrectable =>
      let bad := ((reqSpan r).find? (fun l => s1.t3.bad.contains l)).getD (r.line + Config.freeAmount s1.draws 602 % r.lines)
      (uncorrectableRead (draw s1) n bad, (.fault, .ddrUncorrectable, []))
    | .corrected => (correctedRead (draw s1) n (r.line + Config.freeAmount s1.draws 601 % r.lines), (.ok, .none, (reqSpan r).flatMap (rawLine s1)))
    | .clean => (draw s1, (.ok, .none, (reqSpan r).flatMap (rawLine s1)))

/-- A queued request is served, and the responses of its port that are due are delivered (R589, R592, R595). Its
latency is a free amount (R702). -/
def execDdrRequestComplete (channel id : Nat) (ecc : Ecc) (s : State) : Out :=
  let c := chanAt s channel
  .next (match c.reqs.find? (fun e => e.req.id == id && servable s c e) with
    | none => s
    | some e =>
      let r := serveReq s channel e.req ecc
      let c1 := chanAt r.1 channel
      let s1 := setChan r.1 channel { c1 with
        reqs := c1.reqs.map (fun x => if x.num = e.num then { x with result := some r.2 } else x) }
      let s2 := draw (monSample s1 0 e.req.port (Config.freeAmount s1.draws 702))
      let s3 := deliverResps e.req.port ((s2.ddr.chans.map (fun k => k.2.reqs.length)).sum) s2
      takeIn channel (chanAt s3 channel).reqs.length s3)

/-- Entry to DEEP or OFF, and every other loss of DDR4: queued requests are completed or faulted, which a fault with
DDR_NOT_READY is, and every byte of T3 is lost, tags included (R605). -/
def ddrRelease (s : State) : State :=
  let reqs := s.ddr.chans.flatMap (fun e => e.2.reqs)
  let resps := reqs.map (fun r =>
    ({ port := r.req.port, id := r.req.id, status := .fault, reason := .ddrNotReady, data := [] } : DdrResp))
  { s with
    ddr := { s.ddr with
      inService := false, training := false, verifying := false, poolMib := 0, raw := [], resps := resps ++ s.ddr.resps,
      chans := s.ddr.chans.map (fun e =>
        (e.1, { e.2 with reqs := [], openRow := [], acts := [], throttled := [], reported := [] })) },
    t3 := { s.t3 with mem := [], lines := [], bad := [] } }

/-! ## The patrol scrub (R680, R681) -/

/-- The units of 256 bytes in a channel. -/
def scrubUnits (s : State) : Nat := chanMib s * 4096

/-- The first line of a channel's scrub unit (R584). -/
def unitLine (s : State) (n u : Nat) : Nat := (u * (if bits (ddrCfg s) 31 24 = 0x0F then 4 else 8) + n) * 4

/-- The rewrite of a corrected unit, unless a write of another port came between, which only one that waits could
(R680, R681). -/
def scrubRewrite (s : State) (n line : Nat) : State :=
  let rival := (chanAt s n).reqs.any (fun e => e.req.write && e.result.isNone && e.req.line / 4 == line / 4)
  if rival ∧ Config.freeBit s.draws then draw s
  else { draw s with rel := { s.rel with fixed := min (s.rel.fixed + 1) (2 ^ 32 - 1) } }

/-- The scrub reads its next unit, as a request of port 13 (R680). -/
def execPatrolScrubRead (channel : Nat) (ecc : Ecc) (s : State) : Out :=
  .next (if !s.ddr.inService ∨ !bit (live s 0x0027_0060) 31 ∨ !(populated s).contains channel then s
    else
      let u := (chanAt s channel).scrub
      let line := unitLine s channel u
      let s1 := openRowFor s channel 13 line
      let s2 := match eccOf s1 [line, line + 1, line + 2, line + 3] ecc with
        | .clean => s1
        | .corrected => scrubRewrite (correctedRead s1 channel line) channel line
        | .uncorrectable =>
          let known := ([0, 1, 2, 3].find? (fun i => s1.t3.bad.contains (line + i))).getD (Config.freeAmount s1.draws 680 % 4)
          uncorrectableRead (draw s1) channel (line + known)
      let last := decide (scrubUnits s ≤ u + 1)
      let s3 := setChan s2 channel { chanAt s2 channel with scrub := if last then 0 else u + 1 }
      let s4 := draw (monSample s3 0 13 (Config.freeAmount s3.draws 702))
      if last then { s4 with rel := { s4.rel with passes := min (s4.rel.passes + 1) (2 ^ 32 - 1) } } else s4)

end Sys2Proof.Machine
end

