-- ==== Sys2Proof/Machine/Pipeline.lean ====
section
/-!
DEFINITION. Spatial pipelines (06): the end of a phase, re-shard transitions, the chip Junction, and the
completion of a job (10).
-/

namespace Sys2Proof.Machine

/-! ## The chip Junction (R251 to R262) -/

/-- The chip Junction group of a phase. -/
def groupOf (im : Image) (phase g : Nat) : Option JctEnt := im.groups.find? (fun e => e.phase == phase && e.group == g)

/-- A stage sends a beat: the Deck row at an offset of its image's share, a multiple of 256 (R252). Convoy reads the row once a
tag is free for it. A beat outside its group, beyond COUNT or repeated ends the job (R261). The first four beats of an input
stand in its skid buffer; those after them wait at the core's Convoy (R255). -/
def execJctBeatSend (core slot group row off : Nat) (s : State) : Out :=
  .next (match stageRunning s core slot with
    | none => s
    | some (c, j) =>
      let good := match (imageOf s c j.run.slot).bind (fun im => groupOf im j.phase group) with
        | some g => bit g.contrib core && decide (row < g.rows) && !(j.jctSent.contains (group, core, row))
        | none => false
      if !good then failJob s c .pipeJctOrder
      else if off % 256 ≠ 0 ∨ !tagFree s core slot then s
      else withWords s c j.run.slot core off 256 (fun s => match deckRead s c j.run.slot core off 256 with
        | none => failJob s c .cvBounds
        | some b =>
          let s1 := modJob s c (fun k => { k with jctSent := (group, core, row) :: k.jctSent })
          { s1 with jct := { s1.jct with
              skids := tset s1.jct.skids core (tget s1.jct.skids [] core ++
                [{ ctx := c, group := group, core := core, row := row, data := b }]) } }))

/-- The image slot and group entry of a context's running job. -/
def jctGroup (s : State) (c g : Nat) : Option (Nat × JctEnt) :=
  (tget? s.ctxs c).bind (fun x => x.job.bind (fun j =>
    ((tget? x.images j.run.slot).bind (fun im => groupOf im j.phase g)).map (fun e => (j.run.slot, e))))

/-- Write a row of a group to its destination window (R257, R259). -/
def jctWrite (s : State) (c job slot : Nat) (e : JctEnt) (row core : Nat) (data : Bytes) : State :=
  let ep := ((keyOf s c slot e.space e.win).map (fun k => (winAt s k).epoch)).getD 0
  let h : WinHdr :=
    { space := e.space, ctx := c, slot := slot, win := e.win, epoch := ep, off := row * 256, data := data,
      writer := .core core }
  match offerWrite s h (.junction c job e.group row core) with
  | (s1, .accepted) => s1
  | (s1, .homeFull) => s1
  | (s1, f) => tellFailed s1 (.junction c job e.group row core) f.report.1 f.report.2

/-- The slot that a beat joins, by its place in the store, when its row already holds one. -/
def jctJoin (s : State) (b : JctBeat) : Bool :=
  s.jct.slots.any (fun j => j.ctx == b.ctx && j.group == b.group && j.row == b.row && !j.written)

/-- The number of a context's job. -/
def jobId (s : State) (c : Nat) : Nat := ((tget? s.ctxs c).bind Ctx.job |>.map Job.id).getD 0

/-- Accept the head beat of an input, if it has one and its group has a store slot for it (R254, R256, R259). -/
def jctAccept (s : State) (core : Nat) : State :=
  match tget s.jct.skids [] core with
  | [] => s
  | b :: rest => match jctGroup s b.ctx b.group with
    | none => { s with jct := { s.jct with skids := tset s.jct.skids core rest } }
    | some (slot, g) =>
      let s1 := { s with jct := { s.jct with skids := tset s.jct.skids core rest } }
      let used := (s.jct.slots.filter (fun j => j.ctx == b.ctx && j.group == b.group && !j.freed)).length
      let job := jobId s b.ctx
      if g.gather then
        if used < g.slots then
          let j : JctSlot :=
            { ctx := b.ctx, job := job, group := b.group, row := b.row, parts := [(core, b.data)], written := true }
          let s2 := { s1 with jct := { s1.jct with slots := s1.jct.slots ++ [j] } }
          jctWrite s2 b.ctx job slot g b.row core b.data
        else s
      else if jctJoin s b then
        { s1 with jct := { s1.jct with slots := s1.jct.slots.map (fun j =>
            if j.ctx = b.ctx ∧ j.group = b.group ∧ j.row = b.row ∧ !j.written then { j with parts := tset j.parts core b.data } else j) } }
      else if used < g.slots then
        let j : JctSlot := { ctx := b.ctx, job := job, group := b.group, row := b.row, parts := [(core, b.data)] }
        { s1 with jct := { s1.jct with slots := s1.jct.slots ++ [j] } }
      else s

/-- One VCLK cycle of the fixed rotation (R254): the head beats of inputs 2t and 2t + 1. -/
def execJctBeatAccept (s : State) : Out :=
  let t := s.jct.turn
  let s1 := { s with jct := { s.jct with turn := (t + 1) % 4 } }
  .next (jctAccept (jctAccept s1 (2 * t)) (2 * t + 1))

/-- The sum of ACC40 containers (R42): exact. -/
def addAcc40 (a b : Bytes) : Bytes := leBytes 8 (leNat a + leNat b)

/-- The sum of FP32 values, rounded once (R45). -/
def addFp32 (a b : Bytes) : Bytes := leBytes 4 (fp32.encode (add32 (fp32.decode (leNat a)) (fp32.decode (leNat b))))

/-- Combine two rows value by value. -/
def addRows (fmt : Nat) (a b : Bytes) : Bytes :=
  if fmt = 8 then (List.range 32).flatMap (fun i => addAcc40 (slice a (8 * i) 8) (slice b (8 * i) 8))
  else (List.range 64).flatMap (fun i => addFp32 (slice a (4 * i) 4) (slice b (4 * i) 4))

/-- Combine partials in the order of ORDER, from the first one (R256). -/
def combineRows (fmt : Nat) : List Bytes → Bytes
  | [] => []
  | a :: r => r.foldl (addRows fmt) a

/-- A complete slot of a reduce group is combined and written as one window write (R256, R257). -/
def jctRowWrite (s : State) (ctx group row : Nat) : State :=
  match jctGroup s ctx group with
  | none => s
  | some (slot, g) =>
    match s.jct.slots.find? (fun j => j.ctx == ctx && j.group == group && j.row == row && !j.written) with
    | none => s
    | some j =>
      if g.gather ∨ (maskBits g.contrib 8).any (fun n => (tget? j.parts n).isNone) then s
      else
        let order := g.order.filter (fun n => decide (n < 8) && bit g.contrib n)
        let data := combineRows g.fmt (order.map (tget j.parts []))
        let s1 := { s with jct := { s.jct with slots := s.jct.slots.map (fun k =>
          if k = j then { k with written := true } else k) } }
        jctWrite s1 ctx j.job slot g row (order.headD 0) data

/-- A combined row leaves the chip Junction (R256, R257). -/
def execJctRowWrite (ctx group row : Nat) (s : State) : Out := .next (jctRowWrite s ctx group row)

/-- Write every complete row of a context's groups, in the order of their slots: a row that is complete when its phase
ends is still written (R257). -/
def jctFlush (s : State) (ctx : Nat) : State :=
  (s.jct.slots.filter (fun j => j.ctx == ctx && !j.written)).foldl (fun a j => jctRowWrite a ctx j.group j.row) s

/-- A group has beats waiting and has written no row for 10 ms (R261). -/
def execPipeJctStuck (ctx group : Nat) (s : State) : Out :=
  .next (match jctGroup s ctx group with
    | none => s
    | some _ =>
      if s.jct.skids.any (fun k => k.2.any (fun b => b.ctx == ctx && b.group == group)) ∨
          s.jct.slots.any (fun j => j.ctx == ctx && j.group == group && !j.written)
      then failJob s ctx .pipeJctStuck else s)

/-! ## Phases (R263 to R265) -/

/-- A group of the running phase holds incomplete rows (R261): a beat waits in a skid buffer, or a slot lacks a
partial. -/
def jctIncomplete (s : State) (c : Nat) : Bool :=
  s.jct.skids.any (fun k => k.2.any (fun b => b.ctx == c)) ||
  s.jct.slots.any (fun j => j.ctx == c && !j.written &&
    (match (tget? s.ctxs c).bind (fun x => x.job.bind (fun k => (tget? x.images k.run.slot).bind (fun im =>
        groupOf im k.phase j.group))) with
     | some g => (maskBits g.contrib 8).any (fun n => (tget? j.parts n).isNone)
     | none => false))

/-- Issue the prefetch entries of a phase whose triggers have been reached, so that none is skipped (R228). -/
def issueAllPrefetch (c slot : Nat) : Nat → State → State
  | 0, s => s
  | n + 1, s => issueAllPrefetch c slot n (issuePrefetch s c slot)

/-- No stage of the job waits, is stopped or still has engine work: each can end. -/
def stagesCanEnd (s : State) (j : Job) : Bool :=
  j.stages.all (fun r => (r.st == .running || r.st == .ended) && !engineBusy s r.core r.slot)

/-- Every stage of the phase has ended (R243); the leader reports a successor phase, or END (R264). -/
def execPhaseEnd (ctx : Nat) (succ : Option Nat) (s : State) : Out :=
  .next (match tget? s.ctxs ctx with
    | none => s
    | some x => match x.job with
      | none => s
      | some j => match tget? x.images j.run.slot with
        | none => s
        | some im =>
          if !j.onCores ∨ j.trans.isSome ∨ j.ended.isSome ∨ !stagesCanEnd s j then s
          else
            let s0 := jctFlush (issueAllPrefetch ctx j.run.slot im.prefetch.length s) ctx
            let s1 := modJob s0 ctx (fun k => { k with stages := k.stages.map (fun r => { r with st := .ended }) })
            if ((tget? s0.ctxs ctx).bind Ctx.job).any (fun k => k.ended.isSome) then s1
            else if jctIncomplete s0 ctx then failJob s1 ctx .pipeJctOrder
            else match succ with
              | none => modJob s1 ctx (fun k => { k with ended := some (.ok, .none) })
              | some q =>
                if ((im.phases.find? (fun e => e.phase == j.phase)).map (fun e => bit e.succ q)).getD false
                then modJob s1 ctx (fun k => { k with trans := some { src := j.phase, dst := q } })
                else failJob s1 ctx .pipeSuccessor)

/-- A job that has ended completes: its RUN is answered, and the next queued RUN of the context starts (R374). -/
def execJobComplete (ctx : Nat) (s : State) : Out :=
  .next (match (tget? s.ctxs ctx).bind Ctx.job with
    | none => s
    | some j => match j.ended with
      | none => s
      | some (st, r) => settle (startNext (schedule (completeJob s ctx st r)) ctx) ctx)

/-! ## Re-shard plans (R266 to R271) -/

/-- The entries of a transition's plan, in plan order. -/
def planOf (im : Image) (t : Trans) : List ReshardEnt := im.reshard.filter (fun e => e.src == t.src && e.dst == t.dst)

/-- Perform one open entry; the answer tells whether it was granted (R158, R271). -/
def planOpen (s : State) (c slot : Nat) (e : ReshardEnt) : State × Bool :=
  let base := bits (field e.body 0 4) 23 0
  let limit := bits (field e.body 4 4) 23 0
  let writers := field e.body 8 4
  if s.fenced.contains e.space then (s, false)
  else match winOpenCheck s c slot e.space e.win base limit writers with
    | some _ => (s, false)
    | none => (winOpen s c slot e.space e.win base limit writers (field e.body 12 4), true)

/-- Perform the open entries in plan order. -/
def planOpens (c slot : Nat) : List ReshardEnt → State → State × Bool
  | [], s => (s, true)
  | e :: r, s => match planOpen s c slot e with
    | (s1, true) => planOpens c slot r s1
    | (s1, false) => (s1, false)

/-- Issue the moves of a step on the firmware queues of their cores, and note how many there are. -/
def planStep (s : State) (c slot : Nat) (im : Image) (t : Trans) (step : Nat) : State :=
  let moves := (planOf im t).filter (fun e => e.kind == 1 && e.step == step)
  let s1 := modJob s c (fun j => { j with
    trans := j.trans.map (fun u => { u with begun := true, step := step, left := moves.length }) })
  moves.foldl (fun a e => firmwarePush a e.core c slot .reshard (boundBody a c slot im e.body)) s1

/-- After the last stage of a phase the firmware starts the plan: the open entries, then the moves of step 0
(R267). -/
def execReshardStart (ctx : Nat) (s : State) : Out :=
  .next (match tget? s.ctxs ctx with
    | none => s
    | some x => match x.job with
      | none => s
      | some j => match j.trans, tget? x.images j.run.slot with
        | some t, some im =>
          if t.begun then s
          else match planOpens ctx j.run.slot ((planOf im t).filter (fun e => e.kind == 0)) s with
            | (s1, false) => failJob (modJob s1 ctx (fun k => { k with trans := none })) ctx .pipeReshard
            | (s1, true) => planStep s1 ctx j.run.slot im t 0
        | _, _ => s)

/-- The stages of a phase start together (R243), with every boundary count at 0 (R244). An order to stop acts first,
between the close entries and the start (R270). -/
def startPhase (s : State) (c slot q : Nat) (im : Image) : State :=
  let s1 := modJob s c (fun j => { j with
    phase := q, trans := none, jctSent := [],
    stages := (phaseRuns im q).map (fun r => { r with st := if j.order.isSome then .stopped else .running }) })
  tryStop (modCtx s1 c (fun y => { y with images := tmod y.images slot (fun m => { m with prefetchNext := 0 }) })) c

/-- The keys of the windows that a plan closes. -/
def planCloses (s : State) (c slot : Nat) (im : Image) (t : Trans) : List Nat :=
  ((planOf im t).filter (fun e => e.kind == 2)).filterMap (fun e => keyOf s c slot e.space e.win)

/-- Every move of a step has completed: the next step's moves are issued; after the last one the close entries
are performed, and when their windows are closed the next phase starts (R267). A move that did not complete OK
ends the job (R271). -/
def execReshardStepComplete (ctx : Nat) (s : State) : Out :=
  .next (match tget? s.ctxs ctx with
    | none => s
    | some x => match x.job with
      | none => s
      | some j => match j.trans, tget? x.images j.run.slot with
        | some t, some im =>
          if !t.begun ∨ t.left ≠ 0 then s
          else if t.failed then failJob (modJob s ctx (fun k => { k with trans := none })) ctx .pipeReshard
          else if (planOf im t).any (fun e => e.kind == 1 && decide (t.step < e.step)) then
            planStep s ctx j.run.slot im t (t.step + 1)
          else
            let ks := planCloses s ctx j.run.slot im t
            let s1 := ks.foldl closeEntry s
            if ks.all (fun k => (winAt s1 k).state == .closed) then startPhase s1 ctx j.run.slot t.dst im else s1
        | _, _ => s)

end Sys2Proof.Machine
end

