-- ==== Sys2Proof/Machine/Product.lean ====
section
/-!
DEFINITION. The engines' arithmetic (02, 03): descriptor fields, operand addressing, accumulation on the two
paths, Winograd transforms, and de-quantisation. Memory is a reader of bytes at an offset of the Deck share.
-/

namespace Sys2Proof.Machine

/-- The bytes at an offset of the Deck share, as the engines read them. -/
abbrev Reader := Nat → Nat → Bytes

/-! ## Descriptors (R95, R96) -/

/-- The fields of a convolution address generator descriptor and of its product descriptor. -/
structure EngDesc where
  version : Nat
  mode : Nat
  mask : Nat
  inBase : Nat
  rowPitch : Nat
  pixPitch : Nat
  inH : Nat
  inW : Nat
  inC : Nat
  groups : Nat
  kh : Nat
  kw : Nat
  sh : Nat
  sw : Nat
  dh : Nat
  dw : Nat
  pt : Nat
  pb : Nat
  pl : Nat
  pr : Nat
  padVal : Nat
  mStart : Nat
  mCount : Nat
  k0 : Nat
  kN : Nat
  pdPtr : Nat
  fmtA : Nat
  fmtB : Nat
  fmtOut : Nat
  act : Nat
  bcodeA : Bool
  bcodeB : Bool
  zpA : Bool
  zpB : Bool
  outlier : Bool
  bias : Bool
  tensorScale : Bool
  splitK : Nat
  bBase : Nat
  nStart : Nat
  nCount : Nat
  sideBase : Nat
  outlierBase : Nat
  outBase : Nat
  recip : Nat
  zOut : Int
  outPitch : Nat
deriving DecidableEq, Repr

/-- Read the two descriptors from their 64 and 32 bytes (R95, R96). -/
def engDesc (c p : Bytes) : EngDesc :=
  let w := field c 0 4
  let q := field p 0 4
  { version := bits w 31 28, mode := bits w 27 24, mask := bits w 19 16,
    inBase := field c 4 3, rowPitch := field c 8 3, pixPitch := field c 0xC 3,
    inH := field c 0x12 2, inW := field c 0x10 2, inC := field c 0x16 2, groups := field c 0x14 2,
    kh := field c 0x1B 1, kw := field c 0x1A 1, sh := field c 0x19 1, sw := field c 0x18 1,
    dh := field c 0x1F 1, dw := field c 0x1E 1,
    pt := field c 0x23 1, pb := field c 0x22 1, pl := field c 0x21 1, pr := field c 0x20 1,
    padVal := field c 0x24 4, mStart := field c 0x28 4, mCount := field c 0x2C 4,
    k0 := field c 0x32 2, kN := field c 0x30 2, pdPtr := field c 0x34 3,
    fmtA := bits q 31 28, fmtB := bits q 27 24, fmtOut := bits q 23 20, act := bits q 19 16,
    bcodeA := bit q 15, bcodeB := bit q 14, zpA := bit q 13, zpB := bit q 12, outlier := bit q 11, bias := bit q 10,
    tensorScale := bit q 9, splitK := bits q 8 7,
    bBase := field p 4 3, nStart := field p 0xA 2, nCount := field p 8 2, sideBase := field p 0xC 3,
    outlierBase := field p 0x10 3, outBase := field p 0x14 3, recip := field p 0x18 4,
    zOut := toSigned 8 (field p 0x1F 1), outPitch := field p 0x1C 3 }

/-- An MXE mode is one of 0 to 3, a Ramp mode 4 or 5. -/
def ramp (d : EngDesc) : Bool := decide (4 ≤ d.mode)

/-- A Winograd mode. -/
def winograd (d : EngDesc) : Bool := d.mode == 2 || d.mode == 3

/-- The outputs per side of a Winograd tile, and its transform positions per side (R110). -/
def tileSide (d : EngDesc) : Nat := if d.mode = 2 then 2 else 4
def patchSide (d : EngDesc) : Nat := if d.mode = 2 then 4 else 6

/-- The transform positions: 1 outside the Winograd modes. -/
def positions (d : EngDesc) : Nat := if winograd d then patchSide d * patchSide d else 1

/-- An output extent (R100), 0 when the formula gives none. -/
def outExtent (n p q dil k stride : Nat) : Nat :=
  if n + p + q < dil * (k - 1) + 1 ∨ stride = 0 then 0 else (n + p + q - dil * (k - 1) - 1) / stride + 1

def outH (d : EngDesc) : Nat := outExtent d.inH d.pt d.pb d.dh d.kh d.sh
def outW (d : EngDesc) : Nat := outExtent d.inW d.pl d.pr d.dw d.kw d.sw

/-- The rows of the walk: output pixels, or spatial tiles in Winograd modes (R100, R110). -/
def rowsTotal (d : EngDesc) : Nat :=
  if winograd d then ceilDiv (outH d) (tileSide d) * ceilDiv (outW d) (tileSide d) else outH d * outW d

/-- Channels per group, and the reduction length K (R101, R106, R109). -/
def groupC (d : EngDesc) : Nat := d.inC / d.groups
def kTotal (d : EngDesc) : Nat := if d.mode = 1 ∨ winograd d then d.inC else groupC d * d.kh * d.kw

/-- The end of the reduction range (R95 K_RANGE); its start is `32 × k0`. -/
def kEnd (d : EngDesc) : Nat := if d.kN = 0 then kTotal d else min (kTotal d) ((d.k0 + d.kN) * 32)

/-- The blocks of the reduction range. -/
def kBlocks (d : EngDesc) : Nat := ceilDiv (kEnd d - d.k0 * 32) 32

/-- The number of parts that SPLIT_K makes (R92). -/
def splitParts (d : EngDesc) : Nat := if d.splitK = 1 then 2 else if d.splitK = 2 then 4 else 1

/-- The reduction range of part `i`, as its first and one past its last index. -/
def partRange (d : EngDesc) (i : Nat) : Nat × Nat :=
  if splitParts d = 1 then (d.k0 * 32, kEnd d)
  else
    let n := kBlocks d / splitParts d * 32
    (d.k0 * 32 + i * n, d.k0 * 32 + (i + 1) * n)

/-! ## Elements in memory (R31, R32) -/

/-- Bits of an element of a format code (R94). -/
def elemBits (fmt : Nat) : Nat :=
  match fmt with
  | 0 => 4
  | 4 => 16
  | 5 => 16
  | 6 => 32
  | 7 => 32
  | 8 => 64
  | _ => 8

/-- The bytes of `n` elements. -/
def elemBytes (fmt n : Nat) : Nat := ceilDiv (n * elemBits fmt) 8

/-- Element `i` of a run at a byte offset. -/
def elemAt (rd : Reader) (fmt base i : Nat) : Nat :=
  if fmt = 0 then let b := leNat (rd (base + i / 2) 1); if i % 2 = 0 then b % 16 else b / 16
  else leNat (rd (base + i * (elemBits fmt / 8)) (elemBits fmt / 8))

/-- A format of the integer path. -/
def intFmt (fmt : Nat) : Bool := decide (fmt ≤ 1)

/-- The integer that an INT4 or INT8 code stands for. -/
def intOf (fmt w : Nat) : Int := if fmt = 0 then toSigned 4 w else toSigned 8 w

/-! ## Operand A (R101, R102, R106, R110) -/

/-- The element of the input tensor at row `y`, column `x`, channel `c`, or PAD_VALUE outside it. -/
def inputAt (rd : Reader) (d : EngDesc) (y x : Int) (c : Nat) : Nat :=
  if 0 ≤ y ∧ y < d.inH ∧ 0 ≤ x ∧ x < d.inW then
    elemAt rd d.fmtA (d.inBase + y.toNat * d.rowPitch + x.toNat * d.pixPitch) c
  else d.padVal % 2 ^ elemBits d.fmtA

/-- The row, column and channel of the input tensor that element `k` of the A row of output row `m` in group `g` is. -/
def aPlace (d : EngDesc) (m g k : Nat) : Int × Int × Nat :=
  let cg := groupC d
  ((m / outW d * d.sh + k / (cg * d.kw) * d.dh : Nat) - (d.pt : Int),
   (m % outW d * d.sw + k / cg % d.kw * d.dw : Nat) - (d.pl : Int), g * cg + k % cg)

/-- Element `k` of the A row of output row `m` in group `g`. -/
def aElem (rd : Reader) (d : EngDesc) (m g k : Nat) : Nat :=
  inputAt rd d (aPlace d m g k).1 (aPlace d m g k).2.1 (aPlace d m g k).2.2

/-! ## Operand B and the side table (R96, R97, R109) -/

/-- Element `k` of row `j` of B, `j` counted from N_START, at position `p`. -/
def bElem (rd : Reader) (d : EngDesc) (p j k : Nat) : Nat :=
  let row := elemBytes d.fmtB (kTotal d)
  elemAt rd d.fmtB (d.bBase + p * d.nCount * row + j * row) k

/-- The byte lengths of the side-table arrays in order, 0 for one that is absent. -/
def sideSizes (d : EngDesc) : List Nat :=
  [4 * (if d.tensorScale then 1 else d.mCount), if d.zpA then 4 * d.mCount else 0, 4 * d.nCount,
   if d.zpB then 4 * d.nCount else 0, if d.zpA then 8 * d.nCount else 0, if d.bias then 4 * d.nCount else 0,
   if d.bcodeB then positions d * d.nCount * (kTotal d / 32) else 0,
   if d.bcodeA then positions d * d.mCount * (kTotal d / 32) else 0]

/-- Where array `n` of the side table begins: each on a row boundary. -/
def sideOff (d : EngDesc) (n : Nat) : Nat :=
  d.sideBase + (((sideSizes d).take n).map (fun b => roundUp b 256)).sum

/-- Entry `i` of side-table array `n`, of `w` bytes. -/
def sideEntry (rd : Reader) (d : EngDesc) (n w i : Nat) : Nat := leNat (rd (sideOff d n + w * i) w)

/-- The block code of B at position `p`, row `j`, block `b`, an unsigned multiplier (R46, R47): 1 when B carries none. In a
Winograd mode R107 has codes per position and block and R97 counts K / 32 a row: they lie position-major, as U does
(R109), then by row, then by block (DESIGN CHOICE, entry 97). -/
def codeB (rd : Reader) (d : EngDesc) (p j b : Nat) : Nat :=
  if d.bcodeB then sideEntry rd d 6 1 ((p * d.nCount + j) * (kTotal d / 32) + b) else 1

/-- The exponent code of an operand's block on the floating path, a biased power of two (R48): 127 when it carries none
(R49). -/
def expB (rd : Reader) (d : EngDesc) (p j b : Nat) : Nat :=
  if d.bcodeB then sideEntry rd d 6 1 ((p * d.nCount + j) * (kTotal d / 32) + b) else 127
def expA (rd : Reader) (d : EngDesc) (p m b : Nat) : Nat :=
  if d.bcodeA then sideEntry rd d 7 1 ((p * d.mCount + m) * (kTotal d / 32) + b) else 127

/-! ## Outlier channels (R53 to R58, R98) -/

/-- The outlier channels in ascending order. -/
def outliers (rd : Reader) (d : EngDesc) : List Nat :=
  if d.outlier then (List.range (leNat (rd d.outlierBase 2))).map (fun i => leNat (rd (d.outlierBase + 4 + 2 * i) 2)) else []

/-- The outlier scale of output row `m`, counted from M_START, at position `o` of the list of `n`. -/
def outlierScale (rd : Reader) (d : EngDesc) (n m o : Nat) : Val :=
  fp32.decode (leNat (rd (d.outlierBase + roundUp (4 + 2 * n) 256 + m * 4 * n + 4 * o) 4))

/-- The outlier accumulator over a range (R57, R91): each product rounded once and added with one more rounding. -/
def outlierAcc (rd : Reader) (d : EngDesc) (os : List Nat) (m g j lo hi : Nat) : Val :=
  (os.zipIdx).foldl (fun acc e =>
    if lo ≤ e.1 ∧ e.1 < hi then
      let v := (((outlierScale rd d os.length (m - d.mStart) e.2).mul
        (Val.ofInt (intOf d.fmtA (aElem rd d m g e.1)))).mul (Val.ofInt (codeB rd d 0 j (e.1 / 32)))).mul
          (Val.ofInt (intOf d.fmtB (bElem rd d 0 j e.1)))
      add32 acc (fp32.round v)
    else acc) Val.zero

/-! ## Accumulation (R40, R43, R62) -/

/-- The indices of a range. -/
def indices (lo hi : Nat) : List Nat := (List.range (hi - lo)).map (lo + ·)

/-- The first term of R62 over a range, outliers excluded, for an A row given by its codes. -/
def intAcc (rd : Reader) (d : EngDesc) (a : Nat → Int) (os : List Nat) (p j lo hi : Nat) : Int :=
  (indices lo hi).foldl (fun acc k =>
    if os.contains k then acc
    else acc + codeB rd d p j (k / 32) * a k * intOf d.fmtB (bElem rd d p j k)) 0

/-- The row sum of A over a range, outliers excluded (R64). -/
def rowSum (a : Nat → Int) (os : List Nat) (lo hi : Nat) : Int :=
  (indices lo hi).foldl (fun acc k => if os.contains k then acc else acc + a k) 0

/-- The FP32 accumulator over a range (R43): group by group in ascending order; code 0xFF makes a block's products NaN
(R48). -/
def floatAcc (rd : Reader) (d : EngDesc) (a : Nat → Val) (p m j lo hi : Nat) : Val :=
  (indices (lo / 32) (ceilDiv hi 32)).foldl (fun acc g =>
    let sum := (indices (max lo (32 * g)) (min hi (32 * g + 32))).foldl (fun v k =>
      v.add ((a k).mul (elemVal d.fmtB (bElem rd d p j k)))) Val.zero
    let xa := expA rd d p m g
    let xb := expB rd d p j g
    add32 acc (if xa = 255 ∨ xb = 255 then .nan else sum.scale ((xa : Int) + xb - 254))) Val.zero

/-! ## Winograd (R108 to R112) -/

/-- Bᵀ of the two transforms. -/
def winBMat (d : EngDesc) : List (List Int) :=
  if d.mode = 2 then [[1, 0, -1, 0], [0, 1, 1, 0], [0, -1, 1, 0], [0, 1, 0, -1]]
  else [[4, 0, -5, 0, 1, 0], [0, -4, -4, 1, 1, 0], [0, 4, -4, -1, 1, 0], [0, -2, -1, 2, 1, 0], [0, 2, -1, -2, 1, 0],
    [0, 4, 0, -5, 0, 1]]

/-- Aᵀ of the two transforms. -/
def winAMat (d : EngDesc) : List (List Int) :=
  if d.mode = 2 then [[1, 1, 1, 0], [0, 1, -1, -1]]
  else [[1, 1, 1, 1, 1, 0], [0, 1, -1, 2, -2, 0], [0, 1, 1, 4, 4, 0], [0, 1, -1, 8, -8, 1]]

/-- An exact integer dot product. -/
def dotI (c : List Int) (v : List Int) : Int := ((c.zip v).map (fun e => e.1 * e.2)).sum

/-- A dot product in FP32 in the order of the row: one rounding per operation, zero coefficients skipped. -/
def dot32 (c : List Int) (v : List Val) : Val :=
  match (c.zip v).filter (fun e => e.1 != 0) with
  | [] => .zero
  | e :: r => r.foldl (fun acc f => add32 acc (mul32 (Val.ofInt f.1) f.2)) (mul32 (Val.ofInt e.1) e.2)

/-- Column `j` of a matrix. -/
def matColumn {α : Type} (z : α) (m : List (List α)) (j : Nat) : List α := m.map (fun r => r.getD j z)

/-- `t × m × tᵀ` for a two-sided transform whose dot product is `dot`. -/
def twoSided {α : Type} (z : α) (dot : List Int → List α → α) (t : List (List Int)) (m : List (List α)) : List (List α) :=
  let n := (m.headD []).length
  let left := t.map (fun row => (List.range n).map (fun j => dot row (matColumn z m j)))
  left.map (fun r => t.map (fun row => dot row r))

/-- The input patch of spatial tile `m` in channel `c`, as element patterns. -/
def winPatch (rd : Reader) (d : EngDesc) (m c : Nat) : List (List Nat) :=
  let tw := ceilDiv (outW d) (tileSide d)
  let y := m / tw * tileSide d
  let x := m % tw * tileSide d
  (List.range (patchSide d)).map (fun r => (List.range (patchSide d)).map (fun s =>
    inputAt rd d ((y + r : Nat) - (d.pt : Int)) ((x + s : Nat) - (d.pl : Int)) c))

/-- The transformed inputs of F(2×2,3×3) for one channel: exact (R111). -/
def winIntV (rd : Reader) (d : EngDesc) (m c : Nat) : List (List Int) :=
  twoSided 0 dotI (winBMat d) ((winPatch rd d m c).map (fun r => r.map (intOf d.fmtA)))

/-- The transformed inputs of F(4×4,3×3) for one channel: FP32, rounded once to the operand format without
saturation (R112). What a V becomes whose rounding exceeds the largest finite value R112 does not say: DESIGN CHOICE
(entry 97), the code above the largest finite one, which is NaN for E4M3 and infinity for the other formats. -/
def winFloatV (rd : Reader) (d : EngDesc) (m c : Nat) : List (List Val) :=
  let v := twoSided Val.zero dot32 (winBMat d) ((winPatch rd d m c).map (fun r => r.map (elemVal d.fmtA)))
  match floatFmt d.fmtA with
  | some f => v.map (fun r => r.map (fun x => FloatFmt.round { f with saturates := false } x))
  | none => v

/-- The outputs of a spatial tile and output channel, row-major, as accumulators. -/
def winTile (rd : Reader) (d : EngDesc) (m j lo hi : Nat) : List Int :=
  let n := patchSide d
  if d.mode = 2 then
    let vs := (List.range (kTotal d)).map (fun c => winIntV rd d m c)
    let ms := (List.range n).map (fun a => (List.range n).map (fun b =>
      intAcc rd d (fun k => ((vs.getD k []).getD a []).getD b 0) [] (n * a + b) j lo hi))
    (twoSided 0 dotI (winAMat d) ms).flatten
  else
    let vs := (List.range (kTotal d)).map (fun c => winFloatV rd d m c)
    let ms := (List.range n).map (fun a => (List.range n).map (fun b =>
      floatAcc rd d (fun k => ((vs.getD k []).getD a []).getD b Val.zero) (n * a + b) (m - d.mStart) j lo hi))
    ((twoSided Val.zero dot32 (winAMat d) ms).flatten).map (fun v => (fp32.encode v : Int))

/-! ## Beats (R89, R104, R117) -/

/-- The group of output channel `j`, counted from N_START (R103). -/
def groupIdx (d : EngDesc) (j : Nat) : Nat := j * d.groups / d.nCount

/-- One beat of a direct or matrix product: row `m`, columns from `j0`, over part `i` of the reduction. -/
def directBeat (rd : Reader) (d : EngDesc) (os : List Nat) (m j0 w i : Nat) : EngBeat :=
  let r := partRange d i
  let js := (List.range (min w (d.nCount - j0))).map (j0 + ·)
  if intFmt d.fmtA then
    let a := fun g k => intOf d.fmtA (aElem rd d m g k)
    { m := m, j := j0,
      acc := js.map (fun j => intAcc rd d (a (groupIdx d j)) os 0 j r.1 r.2),
      outl := if os.isEmpty then [] else js.map (fun j => fp32.encode (outlierAcc rd d os m (groupIdx d j) j r.1 r.2)),
      ra := js.map (fun j => rowSum (a (groupIdx d j)) os r.1 r.2),
      kp := ((indices r.1 r.2).filter (fun k => !(os.contains k))).length }
  else
    { m := m, j := j0,
      acc := js.map (fun j => (fp32.encode (floatAcc rd d (fun k => elemVal d.fmtA (aElem rd d m (groupIdx d j) k)) 0
        (m - d.mStart) j r.1 r.2) : Int)) }

/-- The beats of a spatial tile in a block of 32 columns: one per output pixel within the output (R110). -/
def winBeats (rd : Reader) (d : EngDesc) (m j0 i : Nat) : List EngBeat :=
  let r := partRange d i
  let t := tileSide d
  let tw := ceilDiv (outW d) t
  let js := (List.range (min 32 (d.nCount - j0))).map (j0 + ·)
  let cols := js.map (fun j => winTile rd d m j r.1 r.2)
  (List.range (t * t)).filterMap (fun q =>
    let y := m / tw * t + q / t
    let x := m % tw * t + q % t
    if y < outH d ∧ x < outW d then
      some { m := y * outW d + x, j := j0, acc := cols.map (fun c => c.getD q 0) }
    else none)

/-- The beats of MXE number `i` among the `n` of the mask, in the order of R104. -/
def mxeBeats (rd : Reader) (d : EngDesc) (os : List Nat) (n i : Nat) : List EngBeat :=
  let blocks := (List.range (ceilDiv d.nCount 32)).filter (fun b => decide (1 < splitParts d) || b % n == i)
  let part := if 1 < splitParts d then i else 0
  (List.range (ceilDiv d.mCount 64)).flatMap (fun t => blocks.flatMap (fun b =>
    (List.range (min 64 (d.mCount - 64 * t))).flatMap (fun r =>
      let m := d.mStart + 64 * t + r
      if winograd d then winBeats rd d m (32 * b) part else [directBeat rd d os m (32 * b) 32 part])))

/-- Split a list into pieces of `n`. -/
def chunksOf {α : Type} (n : Nat) (l : List α) : List (List α) :=
  (List.range (ceilDiv l.length n)).map (fun i => (l.drop (n * i)).take n)

/-- The rows of the walk in groups of up to 16 consecutive pixels of one output row, from M_START (R115; where the groups
begin is DEDUCED, entry 96). -/
def rampGroups (d : EngDesc) : List (List Nat) :=
  let ms := (List.range d.mCount).map (d.mStart + ·)
  ((ms.map (· / outW d)).dedup).flatMap (fun y => chunksOf 16 (ms.filter (fun m => m / outW d == y)))

/-- Join the beats of two pixels into one beat of up to 32 values. -/
def joinBeats : List EngBeat → EngBeat
  | [] => {}
  | b :: r => r.foldl (fun x y => { x with acc := x.acc ++ y.acc, ra := x.ra ++ y.ra }) { b with width := b.acc.length }

/-- The pixels' beats that a beat of the Ramp engine joins. -/
def splitBeat (b : EngBeat) : List EngBeat :=
  (List.range (ceilDiv b.acc.length b.width)).map (fun i =>
    { b with m := b.m + i, acc := (b.acc.drop (b.width * i)).take b.width, ra := (b.ra.drop (b.width * i)).take b.width })

/-- The beats of the Ramp engine: a group of 16 pixels by 16 channels leaves as eight beats of two pixels each (R115,
R117). -/
def rampBeats (rd : Reader) (d : EngDesc) : List EngBeat :=
  (rampGroups d).flatMap (fun g => (chunksOf 2 g).map (fun ms => joinBeats (ms.map (fun m => directBeat rd d [] m 0 16 0))))

/-- The beats of a descriptor by input. The array (R84), its buffers (R88) and broadcast (R87) change timing alone. -/
def engBeats (rd : Reader) (d : EngDesc) : Tab (List EngBeat) :=
  if ramp d then [(4, rampBeats rd d)]
  else
    let es := maskBits d.mask 4
    (es.zipIdx).map (fun e => (e.1, mxeBeats rd d (outliers rd d) es.length e.2))

/-! ## What a descriptor reads (R678, R679) -/

/-- The bytes of an input element, if it stands in the tensor. -/
def inputRun (d : EngDesc) (y x : Int) (c : Nat) : Option (Nat × Nat) :=
  if 0 ≤ y ∧ y < d.inH ∧ 0 ≤ x ∧ x < d.inW then
    some (d.inBase + y.toNat * d.rowPitch + x.toNat * d.pixPitch + c * elemBits d.fmtA / 8, elemBytes d.fmtA 1)
  else none

/-- The bytes of operand A that the product of row `m`, or of spatial tile `m`, reads. -/
def aRuns (d : EngDesc) (m : Nat) : List (Nat × Nat) :=
  let ks := indices (d.k0 * 32) (kEnd d)
  if winograd d then
    let tw := ceilDiv (outW d) (tileSide d)
    (List.range (patchSide d * patchSide d)).flatMap (fun q => ks.filterMap (fun c =>
      inputRun d ((m / tw * tileSide d + q / patchSide d : Nat) - (d.pt : Int))
        ((m % tw * tileSide d + q % patchSide d : Nat) - (d.pl : Int)) c))
  else
    (((List.range d.nCount).map (groupIdx d)).dedup).flatMap (fun g => ks.filterMap (fun k =>
      inputRun d (aPlace d m g k).1 (aPlace d m g k).2.1 (aPlace d m g k).2.2))

/-- The bytes of the share that the operands, tables and outlier area of a descriptor occupy. -/
def engRuns (rd : Reader) (d : EngDesc) : List (Nat × Nat) :=
  let row := elemBytes d.fmtB (kTotal d)
  let ks := (d.k0 * 32 * elemBits d.fmtB / 8, elemBytes d.fmtB (kEnd d - d.k0 * 32))
  let n := leNat (rd d.outlierBase 2)
  (List.range d.mCount).flatMap (fun i => aRuns d (d.mStart + i)) ++
  (List.range (positions d * d.nCount)).map (fun i => (d.bBase + i * row + ks.1, ks.2)) ++
  ((sideSizes d).zipIdx.filter (fun e => e.1 ≠ 0)).map (fun e => (sideOff d e.2, e.1)) ++
  (if d.outlier then [(d.outlierBase, 4 + 2 * n), (d.outlierBase + roundUp (4 + 2 * n) 256, d.mCount * 4 * n)] else [])

/-- Combine the partial beats of a row, in ascending MXE index (R92). -/
def combineBeats (d : EngDesc) : List EngBeat → Option EngBeat
  | [] => none
  | b :: rest => some (rest.foldl (fun x y =>
      { x with
        acc := (x.acc.zip y.acc).map (fun e => if intFmt d.fmtA then e.1 + e.2
          else (fp32.encode (add32 (fp32.decode e.1.toNat) (fp32.decode e.2.toNat)) : Int)),
        outl := (x.outl.zip y.outl).map (fun e => fp32.encode (add32 (fp32.decode e.1) (fp32.decode e.2))),
        ra := (x.ra.zip y.ra).map (fun e => e.1 + e.2), kp := x.kp + y.kp }) b)

/-! ## De-quantisation and conversion (R66 to R72, R119 to R122) -/

/-- An FP32 side-table entry as a value. -/
def sideVal (rd : Reader) (d : EngDesc) (n i : Nat) : Val := fp32.decode (sideEntry rd d n 4 i)

/-- The fused activation (R119, R120) on the exact argument; those of ACT 0x3 to 0x6 see it rounded to FP32 and are
functions of the vector unit (R121). -/
def activate (act : Nat) (x : Val) : Val :=
  match act with
  | 0 => x
  | 1 => if x.lt .zero then .zero else x
  | 2 => if x.lt .zero then .zero else if (Val.ofInt 6).lt x then Val.ofInt 6 else x
  | _ => f32 ((actFn act).eval (fp32.encode x) 0)

/-- The exact argument of round_fmt for column `j` of a beat (R62, R66, R67): the correction terms are added once, after
the last step (R65), with CB as the image gives it (R60, R63). No event marks an exceptional value (R73). -/
def dequant (rd : Reader) (d : EngDesc) (b : EngBeat) (i : Nat) : Val :=
  let j := b.j + i
  let mi := b.m - d.mStart
  let sa := sideVal rd d 0 (if d.tensorScale then 0 else mi)
  let sb := sideVal rd d 2 j
  let bias := if d.bias then sideVal rd d 5 j else Val.zero
  let acc := b.acc.getD i 0
  if intFmt d.fmtA then
    let za : Int := if d.zpA then toSigned 32 (sideEntry rd d 1 4 mi) else 0
    let zb : Int := if d.zpB then toSigned 32 (sideEntry rd d 3 4 j) else 0
    let cb : Int := if d.zpA then toSigned 64 (sideEntry rd d 4 8 j) else 0
    let whole := acc - zb * b.ra.getD i 0 - za * cb + b.kp * za * zb
    let y := (sa.mul sb).mul (Val.ofInt whole)
    let o := match b.outl[i]? with
      | some w => y.add (sb.mul (fp32.decode w))
      | none => y
    o.add bias
  else ((sa.mul sb).mul (fp32.decode acc.toNat)).add bias

/-- The pattern written for column `i` of a beat. -/
def outElem (rd : Reader) (d : EngDesc) (b : EngBeat) (i : Nat) : Nat :=
  if d.fmtOut = 7 then ofSigned 32 (sat (-(2 ^ 31)) (2 ^ 31 - 1) (b.acc.getD i 0))
  else if d.fmtOut = 8 then ofSigned 64 (b.acc.getD i 0)
  else roundFmt d.fmtOut d.recip d.zOut (activate d.act (dequant rd d b i))

/-- The output row that OUT_BASE stands for: M_START, or the first pixel of the first spatial tile. -/
def firstRow (d : EngDesc) : Nat :=
  if winograd d then
    let tw := ceilDiv (outW d) (tileSide d)
    d.mStart / tw * tileSide d * outW d + d.mStart % tw * tileSide d
  else d.mStart

/-- Pack two INT4 codes a byte; an odd last code leaves the other half of its byte as it was. -/
def packNibbles (old : Nat) : List Nat → Bytes
  | [] => []
  | [x] => [BitVec.ofNat 8 (old / 16 * 16 + x)]
  | x :: y :: r => BitVec.ofNat 8 (y * 16 + x) :: packNibbles old r

/-- Where the elements of a beat are written in the share, and their bytes (R96, R118). -/
def beatWrite (rd : Reader) (d : EngDesc) (b : EngBeat) : Nat × Bytes :=
  let row := d.outBase + (b.m - firstRow d) * d.outPitch
  let es := (List.range b.acc.length).map (outElem rd d b)
  if d.fmtOut = 0 then
    let a := row + b.j / 2
    (a, packNibbles (leNat (rd (a + es.length / 2) 1)) es)
  else
    let n := elemBits d.fmtOut / 8
    (row + b.j * n, es.flatMap (leBytes n))

end Sys2Proof.Machine
end

