-- ==== Sys2Proof/Machine/Engine.lean ====
section
/-!
DEFINITION. Engine groups (03): pushing a descriptor, its checks and start, the core Junction and the
de-quantisation front, and completion.
-/

namespace Sys2Proof.Machine

/-! ## Queues (R93, R142) -/

/-- The engine groups that a stage of the job on a core's stage slot owns (R81, R240): bits of G0 to G2. -/
def stageGroups (j : Job) (core slot : Nat) : Nat :=
  ((j.stages.find? (fun r => r.core == core && r.slot == slot)).map StageRun.groups).getD 0

/-- The group G0, G1 or G2 of a core. -/
def groupAt (k : Core) (g : Nat) : EngGroup := tget k.groups {} g

/-- Set a group of a core. -/
def setGroup (s : State) (p g : Nat) (e : EngGroup) : State :=
  let k := coreOf s p
  setCore s p { k with groups := tset k.groups g e }

/-- A stage pushes a descriptor offset into a queue of a group that it owns (R93); a push onto sixteen offsets
stalls. The narrow writes before it become visible to the wide view (R142). -/
def execEngineDescriptorPush (core slot group off : Nat) (s : State) : Out :=
  .next (match stageRunning s core slot with
    | none => s
    | some (c, j) =>
      if !bit (stageGroups j core slot) group then s
      else
        let p := physOf s core
        let k := coreOf s p
        let s1 := setRam s p (k.narrow.foldl (fun r w => r.write w.1 [w.2]) (ramOf s p))
        let s2 := setCore s1 p { coreOf s1 p with narrow := [] }
        let g := groupAt (coreOf s2 p) group
        let e : EngEntry := { slot := slot, ctx := c, img := j.run.slot, off := off }
        setGroup s2 p group (if g.queue.length < 16 then { g with queue := g.queue ++ [e] }
          else { g with stalled := g.stalled ++ [e] }))

/-- The head of a queue leaves it and a stalled push takes the freed place. -/
def popQueue (g : EngGroup) : EngGroup :=
  match g.stalled with
  | [] => { g with queue := g.queue.drop 1 }
  | e :: r => { g with queue := g.queue.drop 1 ++ [e], stalled := r }

/-! ## The checks of R131, in the order of its rows -/

/-- ENG_VERSION: a version or mode that is reserved, and a format or activation that is. -/
def cagVersionBad (d : EngDesc) : Bool := d.version != 1 || decide (6 ≤ d.mode)
def pdVersionBad (d : EngDesc) : Bool :=
  decide (9 ≤ d.fmtA) || decide (9 ≤ d.fmtB) || decide (9 ≤ d.fmtOut) || decide (7 ≤ d.act)
def engVersionBad (d : EngDesc) : Bool := cagVersionBad d || pdVersionBad d

/-- A field within a range. -/
def inRange (lo hi v : Nat) : Bool := decide (lo ≤ v) && decide (v ≤ hi)

/-- The ranges of R99 on the address generator's own fields, and on N_COUNT. -/
def cagFieldsOk (d : EngDesc) : Bool :=
  inRange 1 8192 d.inH && inRange 1 8192 d.inW &&
  (if d.mode = 4 then
    inRange 1 8 d.inC && d.groups == 1 && inRange 1 7 d.kh && inRange 1 7 d.kw && inRange 1 4 d.sh && inRange 1 4 d.sw &&
      d.dh == 1 && d.dw == 1 && [d.pt, d.pb, d.pl, d.pr].all (fun v => decide (v ≤ 6))
  else if d.mode = 5 then
    inRange 1 4096 d.inC && d.groups == 1 && (d.kh == 1 || d.kh == 3) && d.kw == d.kh && d.sh == 1 && d.sw == 1 &&
      d.dh == 1 && d.dw == 1 && [d.pt, d.pb, d.pl, d.pr].all (fun v => decide (v ≤ 1))
  else
    inRange 1 65535 d.inC && inRange 1 d.inC d.groups && inRange 1 32 d.kh && inRange 1 32 d.kw && inRange 1 64 d.sh &&
      inRange 1 64 d.sw && inRange 1 64 d.dh && inRange 1 64 d.dw)
def pdFieldsOk (d : EngDesc) : Bool := if ramp d then inRange 1 16 d.nCount else inRange 1 65535 d.nCount
def engFieldsOk (d : EngDesc) : Bool := cagFieldsOk d && pdFieldsOk d

/-- The alignments of R95, R96 and R105: those of the address generator's own fields, and those that need the product
descriptor. -/
def cagAlignOk (off : Nat) (d : EngDesc) : Bool :=
  off % 64 == 0 && d.pdPtr % 32 == 0 &&
  (ramp d || (d.inBase % 32 == 0 && d.rowPitch % 32 == 0 && d.pixPitch % 32 == 0))
def pdAlignOk (d : EngDesc) : Bool :=
  d.bBase % 32 == 0 && d.sideBase % 256 == 0 && (!d.outlier || d.outlierBase % 256 == 0) &&
  (if ramp d then elemBits d.fmtA == 4 || [d.inBase, d.rowPitch, d.pixPitch].all (fun v => v % (elemBits d.fmtA / 8) == 0)
   else decide (elemBytes d.fmtA d.inC ≤ d.pixPitch))
def engAlignOk (off : Nat) (d : EngDesc) : Bool := cagAlignOk off d && pdAlignOk d

/-- The bytes of the outlier area: its list, and its scales from the next row boundary (R98). -/
def outlierBytes (d : EngDesc) (n : Nat) : Nat := roundUp (4 + 2 * n) 256 + d.mCount * 4 * n

/-- The outlier list is longer than K / 64, not strictly ascending, or names a channel at or beyond K. -/
def outliersBad (os : List Nat) (k : Nat) : Bool :=
  decide (k / 64 < os.length) || (os.zip os.tail).any (fun e => decide (e.2 ≤ e.1)) || os.any (fun c => decide (k ≤ c))

/-- ENG_SHAPE (R39, R92, R100, R103, R106), of the address generator's own fields. A K_RANGE that begins at or beyond K or
runs past its end fails here too: no row of R131 names it (DESIGN CHOICE, entry 98). -/
def cagShapeBad (d : EngDesc) : Bool :=
  outH d == 0 || outW d == 0 || decide (65536 < kTotal d) ||
  (decide (1 < d.groups) && d.inC % d.groups != 0) ||
  decide (rowsTotal d < d.mStart + d.mCount) ||
  decide (kTotal d < d.k0 * 32 + 1) || (d.kN != 0 && decide (ceilDiv (kTotal d) 32 < d.k0 + d.kN)) ||
  (d.mode == 1 && !([d.kh, d.kw, d.sh, d.sw, d.dh, d.dw, d.groups].all (· == 1) && [d.pt, d.pb, d.pl, d.pr].all (· == 0)))

/-- ENG_SHAPE (R51, R53, R54, R92, R103) where the product descriptor comes in. No field gives the rows of B, so an N range
is beyond the tensor when it passes row 65,535 (DESIGN CHOICE, entry 98). The outlier list is judged as far as it lies in
the share. -/
def pdShapeBad (rd : Reader) (bound : Nat) (d : EngDesc) : Bool :=
  ((d.bcodeA || d.bcodeB) && kTotal d % 32 != 0) || (decide (1 < d.groups) && d.nCount % d.groups != 0) ||
  decide (65536 < d.nStart + d.nCount) ||
  (decide (1 < splitParts d) && (kBlocks d % splitParts d != 0 || kEnd d % 32 != 0)) ||
  (d.outlier && decide (d.outlierBase + 4 ≤ bound) &&
    (let n := leNat (rd d.outlierBase 2)
     decide (kTotal d / 64 < n) || (decide (d.outlierBase + 4 + 2 * n ≤ bound) && outliersBad (outliers rd d) (kTotal d))))
def engShapeBad (rd : Reader) (bound : Nat) (d : EngDesc) : Bool := cagShapeBad d || pdShapeBad rd bound d

/-- A pairing of R38. -/
def pairOk (a b : Nat) : Bool :=
  (decide (a ≤ 1) && decide (b ≤ 1)) || ((a == 2 || a == 3) && (b == 2 || b == 3)) || (a == 4 && b == 4) || (a == 5 && b == 5)

/-- A Winograd condition of R107 is not met: on the address generator's own fields, and with the product descriptor. -/
def cagWinogradBad (d : EngDesc) : Bool :=
  !(d.kh == 3 && d.kw == 3 && d.sh == 1 && d.sw == 1 && d.dh == 1 && d.dw == 1 && d.groups == 1) ||
  (if d.mode = 2 then decide (2048 < d.inC) else decide (7281 < d.inC))
def winogradBad (d : EngDesc) : Bool :=
  cagWinogradBad d || d.zpA || d.zpB || d.outlier || !d.tensorScale ||
  (if d.mode = 2 then d.fmtA != 1 || decide (1 < d.fmtB) || d.bcodeA else decide (d.fmtA < 2))

/-- ENG_PAIRING (R38, R47, R50, R61, R107, R116, R122). A Ramp descriptor with outlier channels, which R116 bars, fails here
on the integer path too: no row of R131 names it (DESIGN CHOICE, entry 98). -/
def engPairingBad (d : EngDesc) : Bool :=
  !pairOk d.fmtA d.fmtB ||
  (ramp d && (!((d.fmtA == 1 && decide (d.fmtB ≤ 1)) || d.fmtA == 4 || d.fmtA == 5) || d.outlier || d.bcodeA)) ||
  (intFmt d.fmtA && d.bcodeA) || (d.zpB && d.bcodeB) || (winograd d && winogradBad d) ||
  ((d.fmtOut == 7 || d.fmtOut == 8) && d.act != 0) ||
  (!intFmt d.fmtA && (d.zpA || d.zpB || d.outlier || d.fmtOut == 7 || d.fmtOut == 8 ||
    ((d.fmtA == 4 || d.fmtA == 5) && (d.bcodeA || d.bcodeB))))

/-- The last output row that the walk writes: in a Winograd mode the last output pixel of its spatial tiles (R110). -/
def lastRow (d : EngDesc) : Nat :=
  if winograd d then
    let t := tileSide d
    let tw := ceilDiv (outW d) t
    let m := d.mStart + d.mCount - 1
    min (outH d - 1) (m / tw * t + t - 1) * outW d + min (outW d - 1) (m % tw * t + t - 1)
  else d.mStart + d.mCount - 1

/-- ENG_BOUNDS: a range of the descriptor beyond the `bound` bytes of the Deck share (R83, R145). -/
def engBoundsBad (bound outl : Nat) (d : EngDesc) : Bool :=
  decide (bound < d.inBase + (d.inH - 1) * d.rowPitch + (d.inW - 1) * d.pixPitch + elemBytes d.fmtA d.inC) ||
  decide (bound < d.bBase + positions d * d.nCount * elemBytes d.fmtB (kTotal d)) ||
  decide (bound < d.sideBase + (((sideSizes d).dropLast).map (fun b => roundUp b 256)).sum + (sideSizes d).getLastD 0) ||
  (d.outlier && decide (bound < d.outlierBase + outlierBytes d outl)) ||
  (decide (0 < d.mCount) && decide (bound < d.outBase +
    (lastRow d - firstRow d) * d.outPitch +
    elemBytes d.fmtOut d.nCount))

/-- ENG_GROUP: an engine outside the stage's groups, or SPLIT_K that does not match the mask. An ENGINE_MASK of 0 in an MXE
mode, one that is not 0 in a Ramp mode, a Ramp descriptor of a stage without G2, and the reserved SPLIT_K 3 fail here: no
row of R131 names them (DESIGN CHOICE, entry 98). -/
def engGroupBad (groups : Nat) (d : EngDesc) : Bool :=
  (if ramp d then d.mask != 0 || !bit groups 2
   else d.mask == 0 || (d.mask % 4 != 0 && !bit groups 0) || (d.mask / 4 != 0 && !bit groups 1)) ||
  d.splitK == 3 || (d.splitK != 0 && (maskBits d.mask 4).length != splitParts d)

/-- The first failed check of a descriptor (R130, R131), with the descriptors when all pass. A product descriptor that
lies beyond the share cannot be read: the rows of R131 before ENG_BOUNDS are then judged on the address generator's own
fields. -/
def engCheck (s : State) (core : Nat) (e : EngEntry) (j : Job) : Except Reason (Bytes × Bytes) :=
  let c := e.ctx
  let bound := (shareOf s c j.run.slot core).2 * 256
  let rd : Reader := fun o n => (ramOf s (physOf s core)).read ((shareOf s c j.run.slot core).1 * 256 + o) n
  match deckRead s c j.run.slot core e.off 64 with
  | none => .error (if e.off % 64 = 0 then .engBounds else .engRange)
  | some cag =>
    match deckRead s c j.run.slot core (field cag 0x34 3) 32 with
    | none =>
      let d := engDesc cag []
      .error (if cagVersionBad d then .engVersion
        else if !cagFieldsOk d || !cagAlignOk e.off d then .engRange
        else if cagShapeBad d then .engShape
        else if winograd d && cagWinogradBad d then .engPairing
        else .engBounds)
    | some pd =>
      let d := engDesc cag pd
      if engVersionBad d then .error .engVersion
      else if !engFieldsOk d || !engAlignOk e.off d then .error .engRange
      else if engShapeBad rd bound d then .error .engShape
      else if engPairingBad d then .error .engPairing
      else if engBoundsBad bound (leNat (rd d.outlierBase 2)) d then .error .engBounds
      else if engGroupBad (stageGroups j core e.slot) d then .error .engGroup
      else .ok (cag, pd)

/-! ## Start (R93, R130, R131) -/

/-- The engines that a running descriptor of a core holds: MXEs 0 to 3, and 4 for the Ramp engine. -/
def busyEngines (k : Core) : List Nat :=
  k.groups.flatMap (fun g => match g.2.run with
    | some r => let d := engDesc r.cag r.pd; if ramp d then [4] else maskBits d.mask 4
    | none => [])

/-- The bytes of the two descriptors of an entry, as far as they lie in the share. -/
def descRuns (s : State) (core : Nat) (e : EngEntry) (j : Job) : List (Nat × Nat) :=
  let sh := shareOf s e.ctx j.run.slot core
  let cag := match deckRead s e.ctx j.run.slot core e.off 64 with
    | some b => [(e.off, 64), (field b 0x34 3, 32)]
    | none => []
  (cag.filter (fun q => decide (q.1 + q.2 ≤ sh.2 * 256))).map (fun q => (sh.1 * 256 + q.1, q.2))

/-- The descriptor at the head of a group's queue is checked and, if valid, starts its engines when they are
free (R93, R130). A failed check discards the stage's later descriptors and ends its job (R131), as does a word of what the
descriptor reads that cannot be corrected (R679): the model judges all its reads as it starts (entry 113). -/
def execEngineDescriptorStart (core group : Nat) (s : State) : Out :=
  let p := physOf s core
  let k := coreOf s p
  let g := groupAt k group
  .next (match g.queue, g.run with
    | e :: _, none => match (tget? s.ctxs e.ctx).bind Ctx.job with
      | none => setGroup s p group (popQueue g)
      | some j =>
        if !j.onCores then s
        else match eccScan s p (descRuns s core e j) with
        | (t, some r) => failJob (setGroup t p group (popQueue g)) e.ctx r
        | (_, none) => match engCheck s core e j with
          | .error r => failJob (setGroup s p group (popQueue g)) e.ctx r
          | .ok (cag, pd) =>
            let d := engDesc cag pd
            let es := if ramp d then [4] else maskBits d.mask 4
            if es.any (fun n => (busyEngines k).contains n) then s
            else
              let base := (shareOf s e.ctx j.run.slot core).1 * 256
              let rd : Reader := fun o n => (ramOf s p).read (base + o) n
              match eccScan s p (descRuns s core e j ++ (engRuns rd d).map (fun q => (base + q.1, q.2))) with
              | (t, some r) => failJob (setGroup t p group (popQueue g)) e.ctx r
              | (t, none) => setGroup t p group { popQueue g with
                  run := some { entry := e, cag := cag, pd := pd, beats := engBeats rd d } }
    | _, _ => s)

/-! ## The core Junction and the de-quantisation front (R92, R118, R127 to R129) -/

/-- The share base and the reader of a running descriptor's context on a core. -/
def runReader (s : State) (core : Nat) (r : EngRun) : Nat × Reader :=
  let base := (shareOf s r.entry.ctx r.entry.img core).1 * 256
  (base, fun o n => (ramOf s (physOf s core)).read (base + o) n)

/-- The front de-quantises the values of one output row and writes their elements through the wide port (R118). -/
def frontRow (r : EngRun) (core : Nat) (s : State) (b : EngBeat) : State :=
  let d := engDesc r.cag r.pd
  let br := runReader s core r
  let w := beatWrite br.2 d b
  let p := physOf s core
  let s1 := setRam s p ((ramOf s p).write (br.1 + w.1) w.2)
  let k := coreOf s1 p
  setCore s1 p { k with wideRows := insertNum ((br.1 + w.1) / 256) k.wideRows }

/-- The front takes a whole beat: one output row of an MXE, or up to two pixels of the Ramp engine (R117, R118). -/
def frontWrite (s : State) (core : Nat) (r : EngRun) (b : EngBeat) : State := (splitBeat b).foldl (frontRow r core) s

/-- The group whose running descriptor has a beat at an input of the core Junction. -/
def inputGroup (k : Core) (i : Nat) : Option (Nat × EngRun × EngBeat) :=
  k.groups.findSome? (fun g => match g.2.run with
    | some r => match tget r.beats [] i with
      | b :: _ => some (g.1, r, b)
      | [] => none
    | none => none)

/-- A beat is accepted from an input: a whole beat goes to the front; a partial beat waits for the others of
its row, and the last one is combined with them in ascending MXE index (R92, R129). -/
def acceptBeat (s : State) (core i : Nat) : State :=
  let p := physOf s core
  match inputGroup (coreOf s p) i with
  | none => s
  | some (g, r, b) =>
    let d := engDesc r.cag r.pd
    let r1 := { r with beats := tset r.beats i ((tget r.beats [] i).drop 1) }
    let same := fun (q : Nat × EngBeat) => q.2.m == b.m && q.2.j == b.j
    let row := r1.parts.filter same ++ [(i, b)]
    if splitParts d = 1 then frontWrite (setGroup s p g { groupAt (coreOf s p) g with run := some r1 }) core r1 b
    else if row.length < splitParts d then
      setGroup s p g { groupAt (coreOf s p) g with run := some { r1 with parts := r1.parts ++ [(i, b)] } }
    else
      let r2 := { r1 with parts := r1.parts.filter (fun q => !same q) }
      let ordered := (List.range 4).flatMap (fun n => (row.filter (fun q => q.1 == n)).map Prod.snd)
      let s1 := setGroup s p g { groupAt (coreOf s p) g with run := some r2 }
      match combineBeats d ordered with
      | some w => frontWrite s1 core r2 w
      | none => s1

/-- The group whose running descriptor is the Ramp engine's and has a beat to offer (R117). -/
def rampGroup (k : Core) : Option Nat :=
  (k.groups.find? (fun g => match g.2.run with
    | some r => !(tget r.beats [] 4).isEmpty
    | none => false)).map Prod.fst

/-- The front takes up to `n` beats of the Ramp engine in order (R117, R118). -/
def takeRamp (core : Nat) : Nat → State → State
  | 0, s => s
  | n + 1, s =>
    let p := physOf s core
    match rampGroup (coreOf s p) with
    | none => s
    | some g => match (groupAt (coreOf s p) g).run with
      | none => s
      | some r => match tget r.beats [] 4 with
        | [] => s
        | b :: rest =>
          let r1 := { r with beats := tset r.beats 4 rest }
          takeRamp core n (frontWrite (setGroup s p g { groupAt (coreOf s p) g with run := some r1 }) core r1 b)

/-- One ACLK cycle of the front: up to two beats, of the core Junction (R127), whose inputs are scanned in ascending order
from the round-robin pointer, which moves to the input after the last one accepted, or of the Ramp engine. When both offer
beats the front takes them alternately (R118). -/
def execCoreJunctionBeat (core : Nat) (s : State) : Out :=
  let p := physOf s core
  let k := coreOf s p
  let order := (List.range 4).map (fun i => (k.jptr + i) % 4)
  let taken := (order.filter (fun i => (inputGroup k i).isSome)).take 2
  let both := (rampGroup k).isSome && !taken.isEmpty
  if (rampGroup k).isSome && (taken.isEmpty || k.rampTurn) then
    let s1 := takeRamp core 2 s
    .next (setCore s1 p { coreOf s1 p with rampTurn := false })
  else
    let s1 := taken.foldl (fun a i => acceptBeat a core i) s
    .next (match taken.getLast? with
      | none => s
      | some i => let k1 := coreOf s1 p; setCore s1 p { k1 with jptr := (i + 1) % 4, rampTurn := both })

/-! ## Completion (R142, R396) -/

/-- An engine group reports completion of its descriptor: every beat has been written; what the front has not yet taken of
the Ramp engine's beats, it takes (R117). The wide writes become visible to the narrow view (R142), and a core that an ended
job's descriptor still held is free (R82). -/
def execEngineDescriptorComplete (core group : Nat) (s : State) : Out :=
  let p := physOf s core
  let g := groupAt (coreOf s p) group
  .next (match g.run with
    | none => s
    | some r =>
      if r.beats.any (fun e => decide (e.1 < 4) && !e.2.isEmpty) ∨ !r.parts.isEmpty then s
      else
        let own := tget r.beats [] 4
        let s1 := own.foldl (fun a b => frontWrite a core r b) s
        let s2 := setGroup s1 p group { groupAt (coreOf s1 p) group with run := none }
        let k := coreOf s2 p
        let s3 := setCore s2 p { k with wideRows := [] }
        let d := engDesc r.cag r.pd
        let s4 := meter s3 r.entry.ctx (fun amt a => { a with
          mxe := if ramp d then a.mxe else a.mxe + amt 0,
          ramp := if ramp d then a.ramp + amt 0 else a.ramp,
          vector := if 3 ≤ d.act then a.vector + amt 1 else a.vector })
        schedule (settleAll s4))

end Sys2Proof.Machine
end

