-- ==== Sys2Proof/Machine/Security.lean ====
section
/-!
DEFINITION. Tlaog (18): zeroisation and the error state, self-tests, MACsec keys, the approved mode and the attestation
report of a context.
-/

namespace Sys2Proof.Machine

/-! ## Zeroisation and the error state (R637, R649, R667) -/

/-- The module enters its error state (R667): the event SEC_ERROR; the device is unavailable from then on (R675). A trial
of new firmware reverts (R694): the idle step starts that boot. -/
def enterError (s : State) : State :=
  if s.sec.error then s
  else unavailFrom (emitDev { s with sec := { s.sec with error := true } } .secError []) 2

/-- Every key held is cleared (R649). -/
def clearKeys (s : State) : State :=
  { s with sec := { s.sec with
    keys := [], fwKeyHeld := false, drbgHeld := false, caks := [], cakBuf := [], storageHeld := false } }

/-- Zeroisation (R649): every key held is cleared, and the error state follows. -/
def zeroise (s : State) : State := enterError (clearKeys s)

/-- Tlaog is powered and out of reset: after the release of PORST_N, in every state except OFF (R639). -/
def tlaogRuns (s : State) : Bool := !s.rst.porstLow && !s.rst.held && decide (s.pwr.mode ≠ .off)

/-- A tamper trigger (R637): the event SEC_TAMPER comes before the error state (R674), and an entry to DEEP or OFF in
progress aborts (R673). Under a low PORST_N the keys are cleared all the same (R802); the cold boot that follows ends the error
state (DEDUCED, entry 130). -/
def tamper (s : State) : State :=
  if tlaogRuns s then zeroise (emitDev (abortEntry s 6 0) .secTamper [])
  else if s.pwr.mode = .off then s
  else clearKeys s

/-- A tamper sensor triggers. -/
def execSecTamper (s : State) : Out := .next (tamper s)

/-- A write of TLAOG_ZEROISE (R649, R668): only the key value acts. -/
def zeroiseWrite (s : State) (value : Nat) : State := if value = 0x5A45_524F then zeroise s else s

/-- TLAOG_ZEROISE, as a register write of port M makes it. -/
def execTlaogZeroise (value : Word) (s : State) : Out := .next (zeroiseWrite s value.toNat)

/-- The known-answer tests of every 24 operating hours (R666): a failure enters the error state. During an entry, and in
DEEP, they wait for the first hour after the exit (R673). -/
def execPeriodicSelfTest (pass : Bool) (s : State) : Out :=
  .next (if !tlaogRuns s then s
    else if s.pwr.entry.isSome ∨ s.pwr.mode ≠ .awake then { s with sec := { s.sec with deferred := true } }
    else
      let s1 := { s with sec := { s.sec with deferred := false } }
      if pass then s1 else enterError s1)

/-! ## MACsec keys (R638, R660) -/

/-- A write of TLAOG_CAK_SEL starts the key of a port and slot (R660, R668). -/
def cakSelect (s : State) (value : Nat) : State :=
  { s with sec := { s.sec with cakSel := value % 32, cakBuf := [] } }

/-- A word of the selected key (R660): 4 or 8 words by LEN; the key takes effect with its last word. -/
def cakWord (s : State) (value : Word) : State :=
  let need := if bit s.sec.cakSel 4 then 8 else 4
  let buf := s.sec.cakBuf ++ [value]
  if buf.length < need then { s with sec := { s.sec with cakBuf := buf } }
  else { s with sec := { s.sec with caks := tset s.sec.caks (s.sec.cakSel % 16) buf, cakBuf := [] } }

/-- TLAOG_CAK_DATA, as a register write of port M makes it. -/
def execTlaogCakData (value : Word) (s : State) : Out := .next (cakWord s value)

/-! ## Approved mode and the configuration word (R662, R665) -/

/-- The approved mode (R665). -/
def approved (s : State) : Bool :=
  bit s.sec.policy 7 && bit s.sec.policy 6 && bit s.sec.policy 5 && !s.sec.imageKeys.isEmpty &&
    decide (s.sec.lifecycle = 2) && !s.sec.debugOpen && s.sec.selfTest && !s.sec.error

/-- The configuration word (R662). -/
def configWord (s : State) : Nat :=
  s.sec.lifecycle * 2 ^ 24 + 0xB0 * 2 ^ 16 + ofBool (approved s) * 2 ^ 7 + bits s.sec.policy 6 4 * 2 ^ 4 +
    ofBool s.sec.debugOpen * 2 ^ 3 + s.rst.bootSlot * 2 ^ 2

/-! ## The attestation report (R661 to R663) -/

/-- The digest of the device identity public key (R639), a constant of the part. -/
def deviceKeyDigest : Bytes := (List.range 64).map (Config.deviceByte 0)

/-- The digest of the ROM (R661), a constant of the part. -/
def romDigest : Bytes := (List.range 64).map (Config.deviceByte 1)

/-- A measurement register (R642): 1 boot, 2 management, 3 security, 4 core-control, 5 policy. -/
def measured (s : State) (i : Nat) : Bytes := tget s.sec.measure (zeros 64) i

/-- The entries of a report (R663): by image slot, each image before its checked objects in ascending index. -/
def attestEntries (x : Ctx) : List Bytes :=
  x.images.flatMap (fun e =>
    (leBytes 1 0 ++ leBytes 1 e.1 ++ leBytes 2 e.2.obj ++ leBytes 2 0xFFFF ++ zeros 2 ++ e.2.digest) ::
      e.2.checks.map (fun k => leBytes 1 1 ++ leBytes 1 e.1 ++ leBytes 2 k.2.1 ++ leBytes 2 k.1 ++ zeros 2 ++ k.2.2))

/-- The signed part of a report (R661). -/
def attestBody (s : State) (c : Nat) (x : Ctx) (nonce : Bytes) : Bytes :=
  let es := attestEntries x
  leBytes 4 1 ++ leBytes 4 (0x200 + 72 * es.length + 3309) ++ deviceKeyDigest ++ romDigest ++
  measured s 1 ++ measured s 2 ++ measured s 3 ++ measured s 4 ++ leBytes 4 (configWord s) ++ leBytes 2 c ++
  leBytes 2 es.length ++ nonce ++ leBytes 4 s.rel.odo.hours ++ leBytes 4 s.rel.odo.cycles ++ measured s 5 ++ zeros 8 ++
  es.flatten

/-- An ML-DSA-65 signature under the device identity key. -/
def deviceSign (m : Bytes) : Bytes := (List.range 3309).map (Config.mldsaSignByte m)

/-- An attestation report (R661). -/
def attestReport (s : State) (c : Nat) (x : Ctx) (nonce : Bytes) : Bytes :=
  let b := attestBody s c x nonce
  b ++ deviceSign b

end Sys2Proof.Machine
end

