-- ==== Sys2Proof/Machine/SetDev.lean ====
section
/-!
DEFINITION. Sessions of HELLO (14) and device sets (20): set sessions, crossings, remote writes in both directions,
mirrored object writes and aggregated attestation.
-/

namespace Sys2Proof.Machine

/-! ## Members (R708 to R710) -/

/-- The own role and index of SET_CONFIG. -/
def setRole (s : State) : Nat := if pageOn s 0x0023_0400 then bits (live s 0x0023_0410) 31 30 else 0
def ownIndex (s : State) : Nat := bits (live s 0x0023_0410) 26 24

/-- An address is a host interface address of member `i` in the set record (R708, R771). -/
def memberAddr (s : State) (i a : Nat) : Bool := (memberAddrs s i).contains a

/-- The other member that set traffic from an address and port comes from: set traffic uses ports 1 and 2 alone (R709). -/
def peerOf (s : State) (port a : Nat) : Option Nat :=
  if port = 1 ∨ port = 2 then
    (List.range 8).find? (fun i => bit (setMembers s) i && i != ownIndex s && memberAddr s i a)
  else none

/-! ## Mirrored writes (R728, R729) -/

/-- One copy of a mirrored OBJ_WRITE is stored or has failed; the reply leaves with the last. -/
def mirrorDone (s : State) (rq : Req) (ok : Bool) : State :=
  match s.set.mirrors.find? (fun m => decide (m.req = rq)) with
  | none => s
  | some m =>
    let m1 := { m with left := m.left - 1, failed := m.failed || !ok }
    if m1.left = 0 then
      let s1 := { s with set := { s.set with mirrors := s.set.mirrors.filter (fun x => decide (x.req ≠ rq)) } }
      if m1.failed then replyC s1 rq 0x0112 .fault .setMirror [] else replyC s1 rq 0x0112 .ok .none []
    else { s with set := { s.set with mirrors := s.set.mirrors.map (fun x => if x.req = rq then m1 else x) } }

/-- Send the copies for which the session has room; the others wait (R724). -/
def sendCopies (rq : Req) : List (Nat × Nat × Bytes) → State → List (Nat × Nat × Bytes) → State × List (Nat × Nat × Bytes)
  | [], s, keep => (s, keep.reverse)
  | c :: r, s, keep =>
    if (peerAt s c.1).unsettled.length < 256 then sendCopies rq r (sendRemote s c.1 (.mirror rq) rq.ctx c.2.1 c.2.2) keep
    else sendCopies rq r s (c :: keep)

/-- Send what waits of every mirrored write. -/
def sendMirrors (s : State) : State :=
  s.set.mirrors.foldl (fun (a : State) (m : MirrorWait) =>
    let r := sendCopies m.req m.unsent a []
    { r.1 with set := { r.1.set with mirrors := r.1.set.mirrors.map (fun x =>
        if x.req = m.req then { x with unsent := r.2 } else x) } }) s

/-- The Branch contexts that mirror a Trunk context, by peer (R728). -/
def mirrorTargets (s : State) (c : Nat) : List (Nat × Nat) :=
  if setRole s = 1 then
    (s.set.installed.filter (fun e => e.2.mirror && e.2.devA == 0 && e.2.ctxA == c)).map (fun e => (e.2.devB, e.2.ctxB))
  else []

/-- The packet of a mirror copy: R728 and R729 do not state its layout, so what they do not imply is free. It travels as
a packet of KIND 0x01, the one kind that R515 lets a set session carry, with a SPACE that names no space of R719. -/
def mirrorPayload (s : State) (c dst : Nat) (data : Bytes) : Bytes :=
  leBytes 1 1 ++ leBytes 1 (ownIndex s) ++ leBytes 1 (9 + Config.freeAmount s.draws 728 % 247) ++ freeBytes s 3 ++
  leBytes 2 c ++ leBytes 2 dst ++ leBytes 2 data.length ++ freeBytes (draw s) 4 ++ data

/-- The Trunk's own write stands; copies go to the crossed Branches and the reply waits for them. A copy toward a peer
that is not up fails at once. -/
def mirrorWrite (s : State) (rq : Req) (data : Bytes) : State :=
  let ts := mirrorTargets s rq.ctx
  let up := ts.filter (fun t => decide ((peerAt s t.1).state = .up))
  if ts.isEmpty then replyC s rq 0x0112 .ok .none []
  else if up.isEmpty then replyC s rq 0x0112 .fault .setMirror []
  else
    let m : MirrorWait :=
      { req := rq, left := up.length, failed := decide (up.length < ts.length),
        unsent := up.map (fun t => (t.1, t.2, mirrorPayload s rq.ctx t.2 data)) }
    sendMirrors (draw (draw { s with set := { s.set with mirrors := s.set.mirrors ++ [m] } }))

/-- OBJ_WRITE (R537): refused while a tag is held or a DIRTY upper copy exists; a clean upper copy is discarded and the
stored bytes are written with their tags. A checked object of a loaded image is locked (R357), and a state object takes
writes only while its stream is PAUSED (R320). A Trunk copies it to the mirroring Branches (R728). -/
def execObjWrite (rq : Req) (handle off : Nat) (data : Bytes) (s : State) : Out :=
  .next (onObj s rq 0x0112 handle (fun x o =>
    match objWriteFault s rq.ctx handle off data.length x o with
    | some (st, r) => replyC s rq 0x0112 st r []
    | none => mirrorWrite (objWriteDo s rq.ctx handle off data x o) rq data))

/-! ## Aggregated attestation (R543, R730, R731) -/

/-- The other members that hold a crossing with a context of this member, in ascending set index. -/
def crossedMembers (s : State) (c : Nat) : List Nat := (List.range 8).filter (fun i => (crossingTo s c i).isSome)

/-- The bytes of a report from OFFSET on: TOTAL, LENGTH and DATA. -/
def reportSlice (r : Bytes) (off len : Nat) : Bytes :=
  let d := slice r off len
  leBytes 4 r.length ++ leBytes 4 d.length ++ d

/-- Hold a report for its context and answer from it. -/
def holdReport (s : State) (rq : Req) (nonce report : Bytes) (off len : Nat) (st : Status) (r : Reason) : State :=
  replyC (modCtx s rq.ctx (fun x => { x with report := some (nonce, report) })) rq 0x01A0 st r (reportSlice report off len)

/-- The aggregate report: its header and the reports in ascending set index. -/
def aggregateBytes (a : Aggregate) : Bytes :=
  [0x49, 0x56, 0x53, 0x54] ++ leBytes 2 a.reports.length ++ zeros 10 ++ (a.reports.map Prod.snd).flatten

/-- An aggregate is complete when no member is awaited. -/
def finishAggregate (s : State) (a : Aggregate) : State :=
  match liveCtx s a.req.ctx with
  | none => replyC s a.req 0x01A0 .noContext .ctxUnknown []
  | some _ => holdReport s a.req a.nonce (aggregateBytes a) a.off a.len (if a.missing then .timeout else .ok)
      (if a.missing then .setPeerLost else .none)

/-- Change the first aggregate that `p` selects, and finish it if nothing is awaited any more. -/
def updateAggregate (p : Nat × Aggregate → Bool) (f : Aggregate → Aggregate) (s : State) : State :=
  match s.set.aggregates.find? p with
  | none => s
  | some (c, a) =>
    let b := f a
    let rest := s.set.aggregates.eraseP p
    if b.waiting.isEmpty then finishAggregate { s with set := { s.set with aggregates := rest } } b
    else { s with set := { s.set with aggregates := (c, b) :: rest } }

/-- A member is left out of an aggregate. -/
def leaveOut (i : Nat) (a : Aggregate) : Aggregate := { a with waiting := a.waiting.filter (· ≠ i), missing := true }

/-- Form a report for ATTEST: on a Trunk whose context holds crossings an aggregate, of which the Trunk context's own
report is the first (R730). -/
def formReport (s : State) (rq : Req) (nonce : Bytes) (off len : Nat) (x : Ctx) : State :=
  let own := attestReport s rq.ctx x nonce
  let ms := if setRole s = 1 then crossedMembers s rq.ctx else []
  if ms.isEmpty then holdReport s rq nonce own off len .ok .none
  else
    let up := ms.filter (fun i => decide ((peerAt s i).state = .up))
    let a : Aggregate :=
      { req := rq, nonce := nonce, off := off, len := len, waiting := up, reports := [(0, own)],
        missing := decide (up.length < ms.length) }
    if up.isEmpty then finishAggregate s a
    else { s with set := { s.set with aggregates := s.set.aggregates ++ [(rq.ctx, a)] } }

/-- ATTEST (R543, R664): the held report with its own NONCE, or a new one. -/
def execAttest (rq : Req) (nonce : Bytes) (off len : Nat) (s : State) : Out :=
  .next (match tget? s.net.sessions rq.sess with
    | none => s
    | some e =>
      if e.maxPayload < len + 8 then replyC s rq 0x01A0 .malformed .ethLength []
      else if s.sec.error then replyC s rq 0x01A0 .fault .secSelftest []
      else onCtx s rq 0x01A0 (fun x =>
        match x.report with
        | some (n, r) =>
          if n = nonce then replyC s rq 0x01A0 .ok .none (reportSlice r off len) else formReport s rq nonce off len x
        | none => formReport s rq nonce off len x))

/-- A crossed member has not returned its report within 50 ms (R731). -/
def execAttestReportTimeout (ctx peer : Nat) (s : State) : Out :=
  .next (updateAggregate (fun e => e.1 == ctx && e.2.waiting.contains peer) (leaveOut peer) s)

/-- A report that a member returns. How it travels is not stated, and its content is that member's: it is free. -/
def gatherReport (s : State) : State :=
  match s.set.aggregates.findSome? (fun e => e.2.waiting.head?.map (fun i => (e.1, i))) with
  | none => s
  | some (c, i) =>
    let r := freeBytes s (0x200 + 72 * (Config.freeAmount s.draws 730 % 65536) + 3309)
    updateAggregate (fun e => e.1 == c && e.2.waiting.head? == some i)
      (fun a => { a with waiting := a.waiting.filter (· ≠ i), reports := tset a.reports i r }) (draw s)

/-! ## Settlement at the sender (R722 to R725, R727) -/

/-- A sent write has its outcome (R725, R726); one that is settled, whatever its report says, counts its bytes in REMOTE_OUT
(R722, R727). -/
def settleOut (s : State) (w : RemoteOut) (st : Status) (r : Reason) : State :=
  let ok := decide (st = .ok)
  let s1 := if st ≠ .timeout then countAct s w.ctx (fun a => { a with remoteOut := a.remoteOut + (w.payload.length - 16) }) else s
  match w.src with
  | .convoy p q id => if ok then cvLanded s1 p q id else cvStop s1 p q id st r
  | .strip p q id => if ok then s1 else tellFailed s1 (.strip p q id) st r
  | .mirror rq => mirrorDone s rq ok

/-- The status and reason that a report entry gives (R722): those that R166 gives a write. -/
def reportStatus (code : Nat) : Status :=
  ([Status.busy, .refused, .noContext, .noQuota, .auth, .malformed, .timeout, .preempted, .windowClosed, .fault, .stalled].find?
    (fun x => x.code == code)).getD .ok
def reportReason (code : Nat) : Reason :=
  ([Reason.winDenied, .winIndex, .winRange, .setMirror, .objHandle, .objRange, .objBusy].find? (fun x => x.code == code)).getD .none

/-- The entries of a report. -/
def reportEntries (b : Bytes) : List (Nat × Status × Reason) :=
  (List.range (b.length / 8)).map (fun k =>
    (field b (8 * k) 4, reportStatus (field b (8 * k + 4) 1), reportReason (field b (8 * k + 6) 2)))

/-- Apply one report entry to the write of that number, unless it has completed already (R723). -/
def applyEntry (i : Nat) (s : State) (e : Nat × Status × Reason) : State :=
  let p := peerAt s i
  match p.unsettled.find? (fun w => w.num % 2 ^ 32 == e.1) with
  | none => s
  | some w => settleOut (setPeer s i { p with unsettled := p.unsettled.filter (fun x => x.num != w.num), interval := 200 })
      w e.2.1 e.2.2

/-- LINK settles every number up to its value (R722), and the retransmission interval returns to 200 µs (R724). -/
def applyLink (s : State) (i link : Nat) : State :=
  let p := peerAt s i
  let hit := fun (w : RemoteOut) => ackedBy link (w.num % 2 ^ 32)
  let done := p.unsettled.filter hit
  if done.isEmpty then s
  else done.foldl (fun a w => settleOut a w .ok .none)
    (setPeer s i { p with unsettled := p.unsettled.filter (fun w => !hit w), interval := 200 })

/-- A settlement, after the report that precedes it. -/
def settleReceive (s : State) (i link : Nat) (report : Bytes) : State :=
  if (peerAt s i).state = .up then
    settleAll (sendMirrors (applyLink ((reportEntries report).foldl (applyEntry i) s) i link))
  else s

/-- A settlement or a report reaches the sender (R725). -/
def execSettlementReceive (peer link : Nat) (report : Bytes) (s : State) : Out := .next (settleReceive s peer link report)

/-- The timer of an unsettled write expires (R724): it and every later one are sent again. -/
def execRemoteWriteRetransmit (peer : Nat) (s : State) : Out :=
  let p := peerAt s peer
  .next (if p.state = .up ∧ p.unsettled ≠ [] then
      let s1 := tellSettled s peer
      let q := peerAt s1 peer
      let s2 := setPeer s1 peer { q with
        retx := min (q.retx + q.unsettled.length) 0xFFFF, interval := min (2 * q.interval) 3200 }
      q.unsettled.foldl (fun a w => setSend a peer w.num (field w.payload 8 2) q.settled w.payload) s2
    else s)

/-! ## Remote writes at the receiver (R720 to R723) -/

/-- A settlement packet (R723). -/
def settlementPacket (s : State) (i : Nat) : State :=
  let s1 := tellSettled s i
  setSend s1 i 0 0 (peerAt s1 i).settled (leBytes 1 1 ++ zeros 15)

/-- The settlement has advanced and no packet has carried it within 1 µs (R723). -/
def execSettlementPacket (peer : Nat) (s : State) : Out :=
  let p := peerAt s peer
  .next (if p.state = .up ∧ p.told ≠ p.settled then settlementPacket s peer else s)

/-- The window write that a remote write packet carries (R719), with the writer identity of R720. -/
def remoteHdr (b : Bytes) : WinHdr :=
  { space := field b 2 1, ctx := field b 8 2, slot := bits (field b 5 1) 2 1, win := field b 3 1, epoch := field b 4 1,
    off := field b 0xC 4, data := slice b 16 (field b 0xA 2), writer := .remote (field b 1 1) }

/-- An installed crossing pairs the writing context with the receiving one (R720). -/
def crossingAdmits (s : State) (b : Bytes) : Bool := crossingTo s (field b 8 2) (field b 1 1) == some (field b 6 2)

/-- A write without its crossing is refused, and the window counts it (R166, R720). -/
def denyRemote (s : State) (h : WinHdr) : State :=
  match keyOf s h.ctx h.slot h.space h.win with
  | none => s
  | some k => let w := winAt s k
              setWin s k { w with rejects := min (w.rejects + 1) 0xFFFF }

/-- A crossing with MIRROR is installed from the Trunk context to the Branch context that a mirror copy names (R728). -/
def mirrorAdmits (s : State) (b : Bytes) : Bool :=
  decide (setRole s = 2) && s.set.installed.any (fun e => e.2.mirror && e.2.devA == 0 && e.2.ctxA == field b 6 2 &&
    e.2.devB == ownIndex s && e.2.ctxB == field b 8 2)

/-- A mirror copy reaches the Branch (R728, R729): refused when the object is not valid or its KIND, CODING or
stored-size bound differs from that of the Trunk object; otherwise written as OBJ_WRITE would write it (R537). -/
def storeCopy (s : State) (i n : Nat) (b : Bytes) (m : Config.MirrorCopy) : State :=
  let c := field b 8 2
  let data := slice b 16 (field b 0xA 2)
  if !mirrorAdmits s b then remoteFate s i n .refused .setMirror
  else match liveCtx s c with
    | none => remoteFate s i n .noContext .ctxUnknown
    | some x => match tget? x.objs m.handle with
      | none => remoteFate s i n .refused .objHandle
      | some o =>
        if o.kind ≠ m.kind ∨ o.coding ≠ m.coding ∨ o.storedM1 ≠ m.storedM1 then remoteFate s i n .refused .setMirror
        else match objWriteFault s c m.handle m.off data.length x o with
          | some (st, r) => remoteFate s i n st r
          | none =>
            let s1 := setCtx s c { x with objs := tset x.objs m.handle { o with upper := none } }
            remoteFate (countAct (homeWrite s1 x o m.off data) c (fun a => { a with remoteIn := a.remoteIn + data.length }))
              i n .ok .none

/-- The mirror copy that a packet of a set session carries, if it names no space of R719. -/
def copyOf (b : Bytes) : Option Config.MirrorCopy := if 8 < field b 2 1 then Config.mirrorCopy (b.take 16) else none

/-- Present the next expected write to the checks of R166 (R721); a mirror copy is stored (R728). -/
def presentRemote (s : State) (i : Nat) (b : Bytes) : State :=
  let p := peerAt s i
  let n := p.expected
  let s1 := setPeer s i { p with expected := n + 1, inbound := p.inbound ++ [(n, none)] }
  let h := remoteHdr b
  if !crossingAdmits s b || field b 1 1 != i then remoteFate (denyRemote s1 h) i n .refused .winDenied
  else match copyOf b with
    | some m => storeCopy s1 i n b m
    | none =>
      match offerWrite s1 h (.remote i n) with
      | (s2, .accepted) => s2
      | (s2, .homeFull) => s2
      | (s2, f) => remoteFate s2 i n f.report.1 f.report.2

/-- A remote write packet (R721, R723): presented in SEQUENCE order; a lower number is a duplicate, which a repeated
report and a settlement packet answer; a higher one is dropped. -/
def receiveRemote (s : State) (i seq : Nat) (b : Bytes) : State :=
  let p := peerAt s i
  if p.state ≠ .up then s
  else
    let d := (seq + 2 ^ 32 - p.expected % 2 ^ 32) % 2 ^ 32
    if d = 0 then presentRemote s i b
    else if 2 ^ 31 ≤ d then settlementPacket (sendReport s i (p.failures.filter (fun f => decide (f.1 ≤ p.told)))) i
    else s

/-- A remote write DATA packet arrives on a set session. -/
def execRemoteWriteReceive (peer seq : Nat) (payload : Bytes) (s : State) : Out := .next (receiveRemote s peer seq payload)

/-! ## Gaining and losing a peer (R710 to R712, R726, R732) -/

/-- The session with a peer is proved (R712): write numbers start from 1 in both directions (R732). The hops are measured. -/
def peerUp (s : State) (i : Nat) : State :=
  let p := peerAt s i
  emitDev (draw (setPeer s i
    { state := .up, port := p.port, hops := Config.freeAmount s.draws 733 % 16, retx := p.retx, sess := p.sess,
      opener := p.opener, cmdSeq := p.cmdSeq })) .setPeerUp (leBytes 1 i)

/-- Accepted writes of a lost peer land without a settlement. -/
def forgetRemote (i : Nat) (w : WriteFrom) : WriteFrom := match w with
  | .remote p n => if p = i then .block else .remote p n
  | x => x

/-- The mirror copies toward a peer that were not sent fail with it. -/
def dropCopies (s : State) (i : Nat) : State :=
  let lost := s.set.mirrors.flatMap (fun m => (m.unsent.filter (fun c => c.1 == i)).map (fun _ => m.req))
  let s1 := { s with set := { s.set with mirrors := s.set.mirrors.map (fun m =>
    { m with unsent := m.unsent.filter (fun c => c.1 != i) }) } }
  lost.foldl (fun a rq => mirrorDone a rq false) s1

/-- Aggregates no longer wait for a member; each update takes it out of one. -/
def dropMember (i : Nat) : Nat → State → State
  | 0, s => s
  | n + 1, s => dropMember i n (updateAggregate (fun e => e.2.waiting.contains i) (leaveOut i) s)

/-- A peer's session is gone (R521, R726, R731): its unsettled writes complete with TIMEOUT. -/
def peerGone (s : State) (i : Nat) (st : PeerSt) : State :=
  let p := peerAt s i
  let s1 := match p.sess with
    | some sid => if p.opener then s else endSession s sid
    | none => s
  let s2 := setPeer s1 i { state := st, port := p.port, hops := p.hops, retx := p.retx, cmdSeq := p.cmdSeq }
  let s3 := p.unsettled.foldl (fun a w => settleOut a w .timeout .setPeerLost) { s2 with
    flights := s2.flights.map (fun f => (f.1, { f.2 with src := forgetRemote i f.2.src })),
    waitHdrs := s2.waitHdrs.map (fun h => (h.1, forgetRemote i h.2)) }
  settleAll (dropMember i s3.set.aggregates.length (dropCopies s3 i))

/-- A peer is lost, with the event SET_PEER_DOWN (R712). -/
def peerLost (s : State) (i : Nat) : State := emitDev (peerGone s i .lost) .setPeerDown (leBytes 1 i)

/-- Nothing has arrived from a peer for 20 ms (R712). -/
def execSetPeerDown (peer : Nat) (s : State) : Out :=
  .next (if (peerAt s peer).state = .up ∨ (peerAt s peer).state = .proving then peerLost s peer else s)

/-- Every set session ends, as a restart and a disabled set page make it. -/
def endSetSessions (s : State) : State := (s.set.peers.map Prod.fst).foldl (fun a i => peerGone a i .absent) s

/-- End every session (R521), as step 4 of an entry and every restart do; lanes are kept as R566 keeps them. -/
def endAllSessions (s : State) : State :=
  let s1 := endSetSessions s
  (s1.net.sessions.map Prod.fst).foldl endSession s1

/-! ## Opening a set session (R710, R711) -/

/-- Send a HELLO of this member on the set session with a peer: mode 0 OPEN, 1 PROVE, 2 REFRESH. -/
def sendHello (s : State) (i mode : Nat) (tail : Bytes) : State :=
  let s1 := if mode = 0 then s else tellSettled s i
  let p := peerAt s1 i
  let s2 := setPeer s1 i { p with cmdSeq := p.cmdSeq + 1, awaiting := some (p.cmdSeq, mode) }
  sendPkt s2 { sess := p.sess.getD 0, cls := .cmd, op := 0x0001, seq := p.cmdSeq % 2 ^ 32,
               link := if mode = 0 then 0 else p.settled % 2 ^ 32,
               payload := leBytes 1 mode ++ leBytes 1 1 ++ leBytes 2 8192 ++ zeros 4 ++ tail, wire := peerWire s1 i }

/-- A member opens its set session toward a member of lower index, or tries again (R710, R711). -/
def execSetSessionOpen (peer : Nat) (s : State) : Out :=
  let p := peerAt s peer
  .next (if s.rst.up ∧ s.pwr.mode = .awake ∧ bit (setMembers s) peer ∧ peer < ownIndex s ∧ p.state ≠ .up then
      let port := if Config.freeBit s.draws then 1 else 2
      sendHello (draw (setPeer s peer { p with state := .proving, port := port, sess := none, opener := true })) peer 0 []
    else s)

/-- The reply to a HELLO of this member (R515, R519): OPEN's is answered with PROVE, signed with the device identity key,
and PROVE's makes the peer up. -/
def helloReply (s : State) (i seq sid : Nat) (ok : Bool) (payload : Bytes) : State :=
  let p := peerAt s i
  match p.awaiting with
  | none => s
  | some (n, mode) =>
    if n % 2 ^ 32 ≠ seq then s
    else
      let s1 := setPeer s i { p with awaiting := none }
      if mode = 2 then s1
      else if !ok then peerGone s1 i .absent
      else if mode = 0 then
        let s2 := setPeer s1 i { peerAt s1 i with sess := some sid }
        sendHello s2 i 1 (deviceKeyDigest ++ deviceSign (slice payload 8 32))
      else peerUp s1 i

/-- A set session that has sent nothing for 1 ms sends HELLO REFRESH (R712). -/
def execSetRefresh (peer : Nat) (s : State) : Out :=
  .next (if (peerAt s peer).state = .up then sendHello s peer 2 [] else s)

/-! ## HELLO of a host, of management or of a member of higher index (R518 to R521, R710) -/

/-- A member of higher index opens its set session: one session per pair, so an older one ends first. -/
def openSet (s : State) (rq : Req) (i : Nat) : State :=
  let p := peerAt s i
  let s1 := if p.state = .up then peerLost s i else if p.state = .proving then peerGone s i .absent else s
  let sid := s1.net.nextSession
  setPeer { s1 with net := { s1.net with
    sessions := tset s1.net.sessions sid
      { iface := .host, src := rq.src, sport := rq.sport, port := rq.port, peer := some i, openSeq := rq.seq,
        remembered := [rq.seq], highest := some rq.seq },
    nextSession := sid + 1 } } i { peerAt s1 i with state := .proving, port := rq.port, sess := some sid, opener := false }

/-- HELLO with mode OPEN (R518, R534): a session for the interface, source address and source port, with a fresh
challenge; its reply carries the new SESSION (assumption log, entry 6). From a member of higher index it opens the set
session, which does not count toward the limits (R710). -/
def execHelloOpen (rq : Req) (maxPayload : Nat) (events : Bool) (s : State) : Out :=
  let peer := if rq.iface = .host then (peerOf s rq.port rq.src).filter (fun i => ownIndex s < i) else none
  if peer.isNone ∧ sessionLimit rq.iface ≤ sessionCount s rq.iface then
    .next (sendPkt (finishCmd s rq.sess rq.seq)
      { sess := rq.sess, cls := .rsp, op := 0x0001, seq := rq.seq, status := .busy, reason := .ethSessionsFull,
        wire := some (wireTo s rq.iface rq.port rq.src rq.sport) })
  else
    let s0 := match peer with
      | some i => openSet (finishCmd s rq.sess rq.seq) rq i
      | none =>
        let u := finishCmd s rq.sess rq.seq
        { u with net := { u.net with
          sessions := tset u.net.sessions u.net.nextSession
            { iface := rq.iface, src := rq.src, sport := rq.sport, port := rq.port, events := events,
              openSeq := rq.seq, remembered := [rq.seq], highest := some rq.seq },
          nextSession := u.net.nextSession + 1 } }
    let sid := s0.net.nextSession - 1
    let granted := if peer.isSome then 8192 else maxPayload
    let ch := freeBytes s0 32
    let s1 := draw { s0 with net := { s0.net with sessions := tmod s0.net.sessions sid (fun e =>
      { e with maxPayload := granted, challenge := ch }) } }
    let body := leBytes 1 rq.port ++ leBytes 1 (ofBool (peer.isSome || authRequired s rq.iface)) ++ leBytes 2 granted ++
      leBytes 4 s.rst.boots ++ ch
    let s2 := deliver (replyMeter s1 rq.iface) sid { cls := .rsp, op := 0x0001, seq := rq.seq, payload := body } none
    .next (if events && peer.isNone then deliverHeld s2 sid (decide (rq.iface = .host)) else s2)

/-- The digests a session may prove with: the set record's key of the peer on a set session (R710), and otherwise the
credential set of the interface (R519). -/
def provableKeys (s : State) (e : Session) : List Bytes :=
  match e.peer with
  | some k => [slice s.rst.setRec (96 * k + 0x20) 64]
  | none => credentials s e.iface

/-- End a session; the peer of a set session is gone with it. -/
def endAnySession (s : State) (sid : Nat) : State :=
  match (tget? s.net.sessions sid).bind Session.peer with
  | some i => if (peerAt s i).state = .up then peerLost s i else peerGone s i .absent
  | none => endSession s sid

/-- HELLO with mode PROVE (R519): on success the session is proved, and a proved set session makes its peer up (R712); a
failure ends the session with status AUTH and reason ETH_AUTH. -/
def execHelloProve (rq : Req) (keyDigest signature : Bytes) (s : State) : Out :=
  match tget? s.net.sessions rq.sess with
  | none => .next s
  | some e =>
    if (provableKeys s e).contains keyDigest && Config.mldsaVerify keyDigest e.challenge signature then
      let s1 := { s with net := { s.net with sessions := tset s.net.sessions rq.sess { e with proved := true } } }
      let s2 := replyD s1 rq 0x0001 .ok .none []
      .next (match e.peer with
        | some i => peerUp s2 i
        | none => s2)
    else .next (endAnySession (replyD s rq 0x0001 .auth .ethAuth []) rq.sess)

/-- HELLO with mode REFRESH (R521): its arrival keeps the session alive, and it is answered. -/
def execHelloRefresh (rq : Req) (s : State) : Out := .next (replyD s rq 0x0001 .ok .none [])

/-- HELLO with mode END (R521): answered, and the session ends. -/
def execHelloEnd (rq : Req) (s : State) : Out := .next (endAnySession (replyD s rq 0x0001 .ok .none []) rq.sess)

/-- Nothing has arrived from a session's source for 30 s: the session ends (R521). -/
def execSessionIdleTimeout (sess : Nat) (s : State) : Out := .next (endAnySession s sess)

/-! ## Crossings (R713 to R717) -/

/-- Clear a crossing entry of the table and what is installed of it. -/
def clearCrossing (s : State) (k : Nat) : State :=
  let clear := fun (t : Tab Word) => tset (tset t (0x0023_0500 + 8 * k) 0) (0x0023_0504 + 8 * k) 0
  { s with
    set := { s.set with installed := terase s.set.installed k },
    regs := { s.regs with live := clear s.regs.live, shadow := clear s.regs.shadow } }

/-- An end of an entry can take the crossing: an own context that is not FREE or DESTROYING; what a context of another
member is, that member says, a free bit here. -/
def endLive (s : State) (dev ctx : Nat) (free : Bool) : Bool :=
  if dev = ownIndex s then (liveCtx s ctx).isSome else free

/-- The Trunk installs a committed entry at both of its ends (R715): it waits while a peer is lost (R732), and an end whose
context is FREE or DESTROYING clears the entry everywhere. For an entry that is installed, a word without VALID is an end's
report that it has cleared the crossing, which clears it everywhere too (R716). -/
def installTrunk (s : State) (k a : Nat) : State :=
  if !bit (live s (0x0023_0500 + 8 * k)) 31 then { s with set := { s.set with installed := terase s.set.installed k } }
  else
    let c := crossingAt (live s) k
    let reach := fun (d : Nat) => d == ownIndex s || decide ((peerAt s d).state = .up)
    if !(reach c.devA && reach c.devB) then s
    else if tget? s.set.installed k = some c then (if bit a 31 then s else clearCrossing s k)
    else if endLive s c.devA c.ctxA (Config.freeBit s.draws) && endLive s c.devB c.ctxB (Config.freeBit (s.draws + 1)) then
      draw (draw { s with set := { s.set with installed := tset s.set.installed k c } })
    else draw (draw (setReason (clearCrossing s k) 0x0023_0400 .setCrossingParam))

/-- A Branch takes an entry from the Trunk (R715): one that names it, with a context that lives; a cleared entry goes. -/
def installBranch (s : State) (k : Nat) (a b : Nat) : State :=
  let c : Crossing := { devA := bits a 26 24, ctxA := bits a 8 0, devB := bits b 26 24, ctxB := bits b 8 0, mirror := bit a 30 }
  let mine := c.devA == ownIndex s || c.devB == ownIndex s
  if (peerAt s 0).state ≠ .up then s
  else if bit a 31 && mine && endLive s c.devA c.ctxA true && endLive s c.devB c.ctxB true then
    { s with set := { s.set with installed := tset s.set.installed k c } }
  else { s with set := { s.set with installed := terase s.set.installed k } }

/-- A crossing entry is installed (R715); `a` and `b` are the entry's words as the Trunk sends them to a Branch, or as an end
reports them to the Trunk. -/
def execCrossingInstall (k : Nat) (a b : Word) (s : State) : Out :=
  .next (if 64 ≤ k then s
    else if setRole s = 1 then installTrunk s k a.toNat
    else if setRole s = 2 then installBranch s k a.toNat b.toNat
    else s)

end Sys2Proof.Machine
end

