-- ==== Sys2Proof/Machine/Power.lean ====
section
/-!
DEFINITION. Power (17) and the supplies' pins (23): votes, the entry to DEEP and OFF with its refusers and aborts,
the exit from DEEP and the restoration of the saved tables, the envelopes, and the thermal outputs.
-/

namespace Sys2Proof.Machine

/-! ## POWER_VOTE CAST and WITHDRAW (R613, R614) -/

/-- The domains a mask names: bits [15:11] name none (R612). -/
def namedDomains (m : Nat) : Nat := m % 2 ^ 11 + m / 2 ^ 16 % 2 ^ 16 * 2 ^ 16

/-- The class and ID of a POWER_VOTE client (R613). -/
def voteClient (rq : Req) (client : Nat) : Nat × Nat :=
  if client = 0 then (0, rq.ctx) else (client, rq.sess % 2 ^ 16)

/-- A context may name the CORE domains of its granted cores and ISP, AUDIO and PCIE alone (R614). -/
def ctxMayName (x : Ctx) (m : Nat) : Bool := decide (m &&& ((2 ^ 32 - 1) ^^^ (x.cores ||| (7 <<< 8))) = 0)

/-- Carry out a CAST or WITHDRAW of any client, its domains checked for a context (R614). -/
def voteCommand (s : State) (rq : Req) (client domains : Nat) (cast : Bool) : State :=
  let (cls, id) := voteClient rq client
  let act := fun (a : State) => if cast then castVote a cls id (namedDomains domains) else dropVote a cls id (namedDomains domains)
  if client = 0 then
    onCtx s rq 0x0190 (fun x =>
      if ctxMayName x domains then replyC (act s) rq 0x0190 .ok .none [] else replyC s rq 0x0190 .refused .pwrDomain [])
  else replyD (act s) rq 0x0190 .ok .none []

/-- POWER_VOTE with OP CAST (R614). -/
def execPowerVoteCast (rq : Req) (client domains : Nat) (s : State) : Out := .next (voteCommand s rq client domains true)

/-- POWER_VOTE with OP WITHDRAW (R614). -/
def execPowerVoteWithdraw (rq : Req) (client domains : Nat) (s : State) : Out := .next (voteCommand s rq client domains false)

/-- The reply of POWER_STATE_GET (R534, R611): state, envelope, domains up. -/
def stateBody (s : State) : Bytes := leBytes 1 (chipState s) ++ leBytes 1 s.pwr.watts ++ zeros 2 ++ leBytes 4 s.pwr.up

/-- POWER_STATE_GET (R611). -/
def execPowerStateGet (rq : Req) (s : State) : Out := .next (replyD s rq 0x0191 .ok .none (stateBody s))

/-! ## Refusers (R619) -/

/-- A waiting command is an IMAGE_LOAD. -/
def FwWait.loads (w : FwWait) : Bool :=
  match w.cmd with
  | .imageLoad .. => true
  | _ => false

/-- The firmware's vote against DEEP and OFF (R613): a load that waits for its cores, a staging, fence or repair in
progress, or a restore after DEEP, or the destruction that follows a bad save (R628). The other commands of R613 complete within their step. -/
def firmwareRefuser (s : State) : Option (Nat × Nat) :=
  if s.fwWaits.any FwWait.loads then some (6, 0x0120)
  else if s.rel.stage.isSome then some (6, 0x01C0)
  else if !s.rel.fencing.isEmpty then some (6, 0x01D0)
  else if s.rel.repairing.isSome then some (6, 0x01D1)
  else if !s.pwr.restoring.isEmpty || (!s.pwr.saveOk && s.ctxs.any (fun e => e.2.st == .destroying)) then some (6, 0)
  else none

/-- The clients with a vote for any of domains [10:0], and the contexts with a job running or queued. -/
def lowVoters (s : State) : List (Nat × Nat) :=
  ((allVotes s).filter (fun v => v.domains % 2 ^ 11 != 0)).map (fun v => (v.cls, v.id)) ++
  (s.ctxs.filter (fun e => e.2.job.isSome || !e.2.runQ.isEmpty)).map (fun e => (0, e.1))

/-- The first of a list of clients, by ascending class and then ID. -/
def firstClient (l : List (Nat × Nat)) : Option (Nat × Nat) :=
  l.find? (fun p => l.all (fun q => decide (p.1 * 2 ^ 16 + p.2 ≤ q.1 * 2 ^ 16 + q.2)))

/-- The first refuser of an ENTER in the order of the table (R619), the hold vote of the Wayside among them (R465). -/
def refuser (s : State) (target : Nat) : Option (Nat × Nat) :=
  if s.pwr.wakeLow then some (7, 0)
  else match firmwareRefuser s with
    | some r => some r
    | none =>
      if target = 3 ∧ grdRefusesDeep s then some (4, 0)
      else if target = 4 ∧ s.aud.hold then some (3, (holder s).getD 0)
      else firstClient (lowVoters s)

/-! ## ENTER (R618 to R622) -/

/-- The save area in bytes (R621): the lowest 8 GiB of the attached drive, or the flash region of the board record. -/
def saveArea (s : State) : Nat := if s.pcie.ready then 2 ^ 33 else field s.rst.board 8 4

/-- Step 2 of an entry to DEEP (R622): every KV page is dropped, whatever its KEEP bit, and every upper copy of an
object whose home is in T3 is DIRTY. -/
def enterStep2 (s : State) : State :=
  let pages := s.ctxs.flatMap (fun e => (e.2.objs.filter (fun o => o.2.kind == 2)).map (fun o => (e.1, o.1, o.2)))
  let s1 := pages.foldl (fun a p => unmapPage a p.1 p.2.1 p.2.2) s
  { s1 with ctxs := s1.ctxs.map (fun e => (e.1, { e.2 with
      objs := e.2.objs.map (fun o => if o.2.homeTier = 3 ∧ o.2.upper.isSome then (o.1, { o.2 with dirty := true }) else o) })) }

/-- Step 3 of an entry to DEEP (R622, R659): the tables are saved under the next value of the save counter (entry 133). -/
def saveTables (s : State) : State :=
  let n := (s.pwr.saveCount + 1) % 2 ^ 64
  { s with pwr := { s.pwr with saveCount := n, saved := some n } }

/-- Persist the Odometer to the older of its two copies (R700). -/
def persistOdo (s : State) : State :=
  let o := { s.rel.odo with persistHours := s.rel.odo.hours }
  { s with rel := { s.rel with odo := o, copies := (o :: s.rel.copies).take 2 } }

/-- Refuse an ENTER, which the log records (R619, R632). -/
def refuseEnter (s : State) (rq : Req) (target : Nat) (who : Nat × Nat) : State :=
  replyD (logRefusal s 1 target who.1 who.2) rq 0x0190 .refused .pwrRefused
    (leBytes 1 who.1 ++ zeros 1 ++ leBytes 2 who.2)

/-- POWER_VOTE with OP ENTER (R618 to R622): steps 1 to 3 of an accepted entry, with an interim reply; the size of the
save is a free amount. -/
def execPowerVoteEnter (rq : Req) (client target : Nat) (s : State) : Out :=
  .next (if client = 0 then replyC s rq 0x0190 .refused .pwrState []
    else if target ≠ 3 ∧ target ≠ 4 then replyD s rq 0x0190 .refused .pwrState []
    else if s.pwr.entry.isSome then replyD s rq 0x0190 .busy .pwrEntering []
    else match refuser s target with
      | some who => refuseEnter s rq target who
      | none =>
        if target = 3 ∧ saveArea s < Config.freeAmount s.draws 621 then replyD (draw s) rq 0x0190 .noQuota .pwrNoSave []
        else
          let s1 := if target = 3 then saveTables (enterStep2 (draw s)) else persistOdo s
          interim { s1 with pwr := { s1.pwr with entry := some { target := target, req := some rq }, saveOk := true } }
            rq 0x0190 0)

/-- Every command other than the ENTER itself has had its final reply (R622 step 1). -/
def entryQuiet (s : State) (rq : Req) : Bool :=
  s.net.sessions.all (fun e => e.2.inProgress.all (fun n => e.1 == rq.sess && n == rq.seq)) && s.net.dispatched.isEmpty

/-- Step 4 of an entry: the reply OK, and every session ends (R622). -/
def enterStep4 (s : State) (e : PwrEntry) (rq : Req) : State :=
  let s1 := endAllSessions (replyD s rq 0x0190 .ok .none [])
  { s1 with pwr := { s1.pwr with entry := some { e with req := none } } }

/-- The zero-fills pending in T3 are complete once its bytes are lost (R622). -/
def finishT3Fills (s : State) : State :=
  (s.ctxs.flatMap (fun e => (e.2.fills.filter (fun z => z.2.tier == 3)).map (fun z => (e.1, z.1)))).foldl
    (fun a p => finishFill a p.1 p.2) s

/-- The Relief core's Deck and the Span banks without votes power off and lose their rows (R622 step 5). -/
def dropUnvoted (s : State) : State :=
  let v := votedMask s
  let span := (List.range 16).foldl (fun r b => if bit v (16 + b) then r else Ram.flashClear r (b * 8192) (b * 8192 + 8192)) s.span
  { s with span := span, decks := terase s.decks s.rel.unmapped,
           pwr := { s.pwr with up := v / 2 ^ 16 % 2 ^ 16 * 2 ^ 16, gated := 0, islands := 0 } }

/-- Step 5 of an entry to DEEP (R501, R605, R622, R787, R791): contexts keep their shares and windows (R624), and the
Wayside domain goes on (R464). -/
def enterDeep (s : State) : State :=
  let s1 := finishT3Fills (ddrRelease (grdHalt (camSleep s)))
  let s2 := dropUnvoted s1
  let p := s2.pwr
  let s3 := { s2 with
    pwr := { p with
      mode := .deep, entry := none, mainEn := false, mainMin := true, wake := false,
      deepTimer := decide (live s 0x0002_0020 ≠ 0) },
    grd := { s2.grd with deepOverride := false, stopped := 15 },
    net := { s2.net with ports := [] },
    pcie := { s2.pcie with up := false, ready := false },
    rst := { s2.rst with lock := 1 } }
  stateChanged (chipState s) s3

/-- What an internal power-on reset leaves (R764): flash and fuse content, what the pins show, the drive's content and
the major counters, which never decrease (R657); every other field takes its reset value. The cause is recorded. -/
def coldReset (s : State) (cause : Nat) : State :=
  { pending := s.pending, draws := s.draws,
    net := { sent := s.net.sent },
    t3 := { nodes := s.t3.nodes, roots := s.t3.roots }, t4 := s.t4,
    sec := {
      policy := s.sec.policy, mgmtCreds := s.sec.mgmtCreds, hostCreds := s.sec.hostCreds, imageKeys := s.sec.imageKeys,
      fwKeys := s.sec.fwKeys, ownerKeys := s.sec.ownerKeys, minSvn := s.sec.minSvn, nextKey := s.sec.nextKey,
      caks := s.sec.caks, lifecycle := s.sec.lifecycle, debugOpen := s.sec.debugOpen },
    rst := {
      porstLow := true, cause := cause, activeSlot := s.rst.activeSlot, bootSlot := s.rst.bootSlot, boots := s.rst.boots,
      snapshot := s.rst.snapshot, savedWeights := s.rst.savedWeights, boardFlash := s.rst.boardFlash,
      setFlash := s.rst.setFlash, repair := s.rst.repair },
    cam := { muted := s.cam.muted }, aud := { muted := s.aud.muted },
    grd := { levels := s.grd.levels, dockHigh := s.grd.dockHigh },
    rel := {
      staged := s.rel.staged, images := s.rel.images, armed := s.rel.armed, trial := s.rel.trial,
      orderly := s.rel.orderly, copies := s.rel.copies, unavailable := s.rel.unavailable } }

/-- Step 5 of an entry to OFF (R622, R766, R792): the entry was orderly, and only WAKE_N acts. -/
def enterOff (s : State) : State :=
  let s1 := coldReset s 0
  { s1 with
    pwr := { s1.pwr with mode := .off, powerOn := false, mainEn := false, onMin := true, startup := false },
    rel := { s1.rel with orderly := true } }

/-- Carry an entry on, when nothing else is to be done: step 4 once the dispatched commands are complete, then step 5. -/
def carryEntry (s : State) : State :=
  match s.pwr.entry with
  | none => s
  | some e => match e.req with
    | some rq => if entryQuiet s rq then enterStep4 s e rq else s
    | none => if e.target = 3 then enterDeep s else enterOff s

/-! ## Waking (R626 to R628, R766, R791, R792) -/

/-- A falling edge of WAKE_N held for 10 µs. -/
def execWakeNFall (s : State) : Out :=
  let s1 := { s with pwr := { s.pwr with wakeLow := true } }
  .next (match s.pwr.mode with
    | .awake => abortEntry s1 7 0
    | .deep => wakeSource s1
    | .off =>
      if s.pwr.onMin then { s1 with pwr := { s1.pwr with wake := true } }
      else { s1 with pwr := { s1.pwr with powerOn := true, mainEn := true }, rst := { s1.rst with cause := 1 } })

/-- POWER_DEEP_TIMER expires (R626). -/
def execDeepTimerExpire (s : State) : Out :=
  .next (if s.pwr.mode = .deep ∧ s.pwr.deepTimer then
      wakeSource { s with pwr := { s.pwr with deepTimer := false } }
    else s)

/-- The 8 ms minimum low time of PWR_MAIN_EN ends (R791). -/
def execPwrMainEnMinimumLowEnd (s : State) : Out :=
  .next (if s.pwr.mainMin then
      { s with pwr := { s.pwr with mainMin := false, mainEn := s.pwr.mainEn || (s.pwr.wake && decide (s.pwr.mode = .deep)) } }
    else s)

/-- The 20 ms minimum low time of PWR_ON ends (R792). -/
def execPwrOnMinimumLowEnd (s : State) : Out :=
  .next (if s.pwr.onMin then
      if s.pwr.wake then
        { s with
          pwr := { s.pwr with onMin := false, wake := false, powerOn := true, mainEn := true },
          rst := { s.rst with cause := 1 } }
      else { s with pwr := { s.pwr with onMin := false } }
    else s)

/-- The contexts in the order of their restoration (R628): those that own an armed cascade entry, then the others. -/
def restoreOrder (s : State) : List Nat :=
  let ids := s.ctxs.map Prod.fst
  let armed := fun (c : Nat) => s.aud.cascade.any (fun e => e.2.ctx == c)
  ids.filter armed ++ ids.filter (fun c => !armed c)

/-- Exit from DEEP (R627): supplies, PLLs, memories; kept DDR4 training is verified (R606), Guardrail restarts (R501),
and the firmware begins to restore the tables (R628). `ok` says that the tag of the save matches; its
counter must match too (R659). -/
def execDeepExit (ok : Bool) (s : State) : Out :=
  .next (if s.pwr.mode = .deep ∧ s.pwr.wake ∧ s.pwr.mainEn then
      let s1 := { s with
        pwr := { s.pwr with
          mode := .awake, wake := false, deepTimer := false, mainMin := false, restoring := restoreOrder s,
          saveOk := ok && s.pwr.saved == some s.pwr.saveCount && !s.sec.error },
        rst := { s.rst with lock := 0xFF } }
      let s2 := if pageOn s 0x0003_8000 then ddrTrain s1 true else s1
      let s3 := if pageOn s grdPage then { grdStart s2 with grd := { (grdStart s2).grd with fault := s.grd.fault } } else s2
      let s4 := if s.rel.odo.persistHours / 64 < s.rel.odo.hours / 64 then persistOdo s3 else s3
      stateChanged 3 s4
    else s)

/-- DDRn_RESET_N is low: from the release of the DRAM at an entry to DEEP or OFF until the exit (R605, R791). -/
def pinDdrResetLow (s : State) : Bool := decide (s.pwr.mode ≠ .awake)

/-- A context's objects whose home in T3 is lost (R625): those with no upper copy. -/
def lostObjects (x : Ctx) : Nat := (x.objs.filter (fun o => decide (o.2.homeTier = 3) && o.2.upper.isNone)).length

/-- A stream whose state object has no upper copy takes a new generation (R625), as STREAM_RESET gives one. -/
def renewStreams (x : Ctx) : Ctx :=
  x.streams.foldl (fun (y : Ctx) (e : Nat × Stream) =>
    let lost : Bool := match tget? y.objs e.2.handle with
      | some o => o.upper.isNone && o.homeTier == 3
      | none => false
    if e.2.state ≠ .free ∧ lost = true then
      let g := nextGen y
      { y with genCtr := g, streams := tset y.streams e.1 { e.2 with
          gen := g, reset := true, nextStep := 0, homeStep := 0, anchor := none } }
    else y) x

/-- One context's tables are restored (R625, R628). -/
def restoreCtx (s : State) (c : Nat) : State :=
  match tget? s.ctxs c with
  | none => s
  | some x =>
    let s1 := setCtx s c (renewStreams x)
    if 0 < lostObjects x then emit s1 (some c) .ok .pwrT3Lost (leBytes 4 (lostObjects x)) else s1

/-- The saved tables are restored context by context, or a bad save destroys every context (R628). They lie in T3, so
DDR4 is in service first. -/
def execTableRestore (s : State) : Out :=
  .next (match s.pwr.restoring with
    | [] => s
    | c :: rest =>
      if s.pwr.mode ≠ .awake ∨ !s.ddr.inService then s
      else if s.pwr.saveOk then restoreCtx { s with pwr := { s.pwr with restoring := rest } } c
      else
        let s1 := { s with pwr := { s.pwr with restoring := [] } }
        emitDev (s.ctxs.foldl (fun a e => if e.2.st = .destroying then a else beginDestroy a e.1 none e.2) s1) .pwrRestoreFail [])

/-! ## Domains going down and coming up (R612, R615 to R617) -/

/-- A core has work: a stage that runs, Convoy queues, chunks or engine descriptors (R616). -/
def coreBusy (s : State) (n : Nat) : Bool :=
  let k := coreOf s (physOf s n)
  s.ctxs.any (fun e => match e.2.job with
    | some j => j.onCores && j.stages.any (fun r => r.core == n && decide (r.st = .running))
    | none => false) ||
  k.convoy.any (fun q => !q.2.isEmpty) ||
  k.saved.any (fun v => v.2.any (fun q => q.2.any (fun e => decide (e.landed < e.issued)))) || !k.chunks.isEmpty ||
  k.groups.any (fun g => g.2.run.isSome || !g.2.queue.isEmpty)

/-- An up core idle for 4 µs gates its clocks (R616). -/
def execCoreIdleGate (core : Nat) (s : State) : Out :=
  .next (if core < 8 ∧ s.pwr.mode = .awake ∧ bit s.pwr.up core ∧ !bit s.pwr.gated core ∧ !coreBusy s core then
      stateChanged (chipState s) { s with pwr := { s.pwr with gated := s.pwr.gated ||| (1 <<< core) } }
    else s)

/-- Gated cores with new work run again within 2 µs (R616). -/
def ungateBusy (s : State) : State :=
  let back := (List.range 8).filter (fun n => bit s.pwr.gated n && coreBusy s n)
  if back.isEmpty then s
  else stateChanged (chipState s) { s with pwr := { s.pwr with gated := s.pwr.gated &&& (255 ^^^ maskOf back) } }

/-- A voted core is up (R616): work that waited for it starts, and writes that waited for its island land (R617). The
vote of a fenced core takes effect after its repair (R685). -/
def execCorePowerUpComplete (core : Nat) (s : State) : Out :=
  .next (if core < 8 ∧ s.pwr.mode = .awake ∧ !bit s.pwr.up core ∧ bit (votedMask s) core ∧ !s.fenced.contains core then
      let s1 := { s with pwr := { s.pwr with
        up := s.pwr.up ||| (1 <<< core), gated := s.pwr.gated &&& (255 ^^^ (1 <<< core)),
        islands := s.pwr.islands &&& (255 ^^^ (1 <<< core)) } }
      settleAll (releaseWork (retryWaits (schedule (stateChanged (chipState s) s1))))
    else s)

/-- A domain goes down (R612): the ISP's frames are abandoned with it. -/
def domainDown (s : State) (d : Nat) : State :=
  let s1 := { s with pwr := { s.pwr with
    up := s.pwr.up &&& ((2 ^ 32 - 1) ^^^ (1 <<< d)), gated := s.pwr.gated &&& (255 ^^^ (1 <<< d)) } }
  stateChanged (chipState s) (if d = 8 then camSleep s1 else s1)

/-- POWER_DOMAIN_DELAY has passed without a vote (R615), or for the Deck island of a down core without a write (R617). -/
def execDomainDelayExpire (domain : Nat) (s : State) : Out :=
  .next (if s.pwr.mode ≠ .awake ∨ 32 ≤ domain then s
    else if bit s.pwr.up domain then
      if bit (votedMask s) domain then s else domainDown s domain
    else if domain < 8 ∧ bit s.pwr.islands domain ∧ !s.waitHdrs.any (fun h => h.1.space == domain) then
      { s with pwr := { s.pwr with islands := s.pwr.islands &&& (255 ^^^ (1 <<< domain)) } }
    else s)

/-! ## Envelopes (R629 to R631, R385) -/

/-- An image's stage time exceeds its context's bound at the ACLK cap in force (R351, R385). -/
def exceedsBound (s : State) (x : Ctx) (im : Image) : Bool :=
  decide (x.boundUs * 1000 * min s.pwr.aclk (loadClock s im.features) < im.stageNs * 2000)

/-- Report each loaded image whose scaled stage time has come to exceed its bound (R385). -/
def boundEvents (s : State) : State :=
  let all := s.ctxs.flatMap (fun e => e.2.images.map (fun i => (e.1, i.1, exceedsBound s e.2 i.2, i.2.boundReported)))
  all.foldl (fun a (c, slot, bad, told) =>
    let a1 := modCtx a c (fun y => { y with images := tmod y.images slot (fun im => { im with boundReported := bad }) })
    if bad && !told then emit a1 (some c) .ok .schedBoundExceeded (leBytes 2 c ++ leBytes 1 slot) else a1) s

/-- Set ACLK; lowering it raises the events of R385, and raising it forgets those that no longer hold. -/
def setAclk (s : State) (mhz : Nat) : State := boundEvents { s with pwr := { s.pwr with aclk := mhz } }

/-- INT4 work is held at 1.7 GHz by policy: SEALED_NO_BURST while a Sealed partition exists (R647). -/
def noBurst (s : State) : Bool := bit s.sec.policy 4 && s.ctxs.any (fun e => e.2.sealed)

/-- The clocks reach the caps of the committed envelope (R631): the lower of R629 and R630 applies (R634). -/
def execEnvelopeGlide (s : State) : Out :=
  .next (if !s.pwr.gliding then s
    else
      let int4 := s.pwr.int4 && decide (s.pwr.watts = 60)
      setAclk (writeAvs { s with pwr := { s.pwr with gliding := false, int4 := int4 } } s.pwr.watts)
        (if int4 then 1700 else aclkCap s.pwr.watts))

/-- The 100 ms average power crosses 60 W upwards or 55 W downwards (R630), in the 60 W envelope. Without the burst
(R647), INT4 work stays at 1.7 GHz. The time at the limit is a free amount (R697). -/
def execInt4Limit (above : Bool) (s : State) : Out :=
  .next (if s.pwr.watts ≠ 60 ∨ s.pwr.gliding ∨ s.pwr.int4 = above then s
    else if above then setAclk { s with pwr := { s.pwr with int4 := true } } 1700
    else if noBurst s then s
    else
      let ms := tget s.rel.hourly 0 14 + Config.freeAmount s.draws 14
      setAclk (draw { s with
        pwr := { s.pwr with int4 := false }, rel := { s.rel with hourly := tset s.rel.hourly 14 ms } }) 2000)

/-! ## Thermal outputs (R800, R801) -/

/-- The hottest sensor's reading, in °C, crosses 100 °C upwards or 95 °C downwards (R800). -/
def execThermN (temp : Nat) (s : State) : Out :=
  .next (if 100 ≤ temp then { s with pwr := { s.pwr with thermLow := true } }
    else if temp < 95 then { s with pwr := { s.pwr with thermLow := false } }
    else s)

/-- The trip at 120 °C (R801, R802): both outputs fall with no orderly entry, and everything they power is lost. -/
def execThermalTrip (s : State) : Out :=
  .next (if s.pwr.mode = .off then s
    else
      let s1 := coldReset s 0
      { s1 with
        pwr := { s1.pwr with mode := .off, powerOn := false, mainEn := false, startup := false },
        rel := { s1.rel with orderly := false } })

end Sys2Proof.Machine
end

