-- ==== Sys2Proof/Machine/Bridge.lean ====
section
/-!
DEFINITION. The Ethernet switch (14): bridging among ports 0 to 2 under IEEE 802.1Q, VLAN and stream filtering, and the answers
to ARP, NDP and ICMP echo on the device's own addresses (R507, R508).
-/

namespace Sys2Proof.Machine

/-- The VID that a frame belongs to; an untagged one belongs to none, VID 0. -/
def frameVid (d : Datagram) : Nat := (d.tag.map Prod.snd).getD 0

/-- A station of a VLAN, as a key. -/
def stationKey (vid mac : Nat) : Nat := vid * 2 ^ 48 + mac

/-- A port 0 to 2 is a member of a VID (R507). -/
def vlanMember (s : State) (port vid : Nat) : Bool := bit (tget s.net.vlans 7 vid) port

/-- The bytes of a frame of `n` payload bytes (R507): header, tag and check sequence, and what a UDP datagram or an ICMP echo adds;
at least 64. -/
def frameBytes (d : Datagram) : Nat :=
  max 64 (18 + (if d.tag.isSome then 4 else 0) +
    (if d.kind = .udp ∨ d.kind = .echoRequest then (if isV4 d.dst then 20 else 40) + 8 else 0) + d.bytes.length)

/-- A port takes a frame (R507): it is no longer than 9,216 bytes, and on ports 0 to 2 the port is a member of its VLAN and no
stream gate is closed to it. -/
def frameTaken (s : State) (d : Datagram) : Bool :=
  decide (frameBytes d ≤ 9216) &&
    (d.port == 3 || (vlanMember s d.port (frameVid d) && !s.net.gated.contains (stationKey (frameVid d) d.smac)))

/-- The switch runs. -/
def switchOn (s : State) : Bool := s.rst.up && decide (s.pwr.mode = .awake)

/-- The ports to which the bridge sends a frame (R508): that of its station, when it has been seen, and otherwise every one but
the port it came in on, while their links are up and they are members of its VLAN. Port M is never among them. -/
def bridgePorts (s : State) (d : Datagram) : List Nat :=
  let open_ := [0, 1, 2].filter (fun p => p != d.port && (tget s.net.ports {} p).link && vlanMember s p (frameVid d))
  match d.dmac with
  | .own => []
  | .group => open_
  | .station a => match tget? s.net.stations (stationKey (frameVid d) a) with
    | some p => open_.filter (· == p)
    | none => open_

/-- A frame leaves by a port. -/
def sendFrame (s : State) (port : Nat) (d : Datagram) : State :=
  { s with net := { s.net with frames := (port, d) :: s.net.frames } }

/-- The bridge takes a frame of ports 0 to 2 (R508): it learns where its source is, and passes it on. No frame of port M is
bridged. -/
def bridge (s : State) (d : Datagram) : State :=
  if !switchOn s || d.port == 3 || !frameTaken s d then s
  else
    let s1 := { s with net := { s.net with stations := tset s.net.stations (stationKey (frameVid d) d.smac) d.port } }
    (bridgePorts s d).foldl (fun a p => sendFrame a p d) s1

/-- A frame is for the device itself: its own MAC address, or a group's. -/
def forDevice (s : State) (d : Datagram) : Bool :=
  switchOn s && frameTaken s d && (match d.dmac with
    | .own => true
    | .group => true
    | .station _ => false)

/-- What answers a frame that asks for one of the device's own addresses (R507). -/
def answerKind : NetKind → Option NetKind
  | .arpRequest => some .arpReply
  | .neighbourSolicit => some .neighbourAdvert
  | .echoRequest => some .echoReply
  | _ => none

/-- The device answers an ARP request, a neighbour solicitation or an ICMP echo request for an address of the interface, under the
interface's tag (R507, R509); an echo returns the bytes. -/
def answerFrame (s : State) (d : Datagram) : State :=
  match answerKind d.kind with
  | some k =>
    if ownAddr s d.iface d.dst = some d.dst ∧ d.tag.map Prod.snd = (ownTag s d.iface).map Prod.snd then
      sendFrame s d.port { d with kind := k, src := d.dst, dst := d.src, dmac := .station d.smac, smac := 0, tag := ownTag s d.iface }
    else s
  | none => s

end Sys2Proof.Machine
end

