-- ==== Sys2Proof/Machine/Reliability.lean ====
section
/-!
DEFINITION. Reliability (19): fencing a core and its repair onto the Relief core, firmware staging and activation, the
Odometer and the traffic counters.
-/

namespace Sys2Proof.Machine

/-! ## Fencing a core (R682 to R685) -/

/-- Close every open window of a home (R683 step 2). -/
def closeHome (s : State) (p : Nat) : State :=
  ((s.wins.filter (fun e => decide (e.1 / 256 = p) && decide (e.2.state = .opened))).map Prod.fst).foldl closeEntry s

/-- The stage queues of a fenced core's Convoy (R683 steps 1 and 3): tiles whose source read has completed land and
count, those of held descriptors too, and the rest of each descriptor is abandoned. Its engines, routines and caches
stop. -/
def haltCore (s : State) (n : Nat) : State :=
  let p := physOf s n
  let k := coreOf s p
  let stage := [0, 1, 2].map (fun q => (q,
    ((queueAll k q).filter (fun e => decide (e.landed < e.issued))).map (fun e =>
      { e with stop := some (.preempted, .relCoreFenced) })))
  let s1 := setCore s p { convoy := stage ++ k.convoy.filter (fun q => decide (q.1 = 3)), nextCv := k.nextCv }
  { s1 with jct := { s1.jct with skids := terase s1.jct.skids n } }

/-- The stages of a job on a fenced core stop at once, and the job is ordered to stop; an order to cancel or to destroy
stays (R683 step 4). -/
def fenceJob (s : State) (n c : Nat) : State :=
  let s1 := modJob s c (fun j => { j with
    stages := j.stages.map (fun r => if r.core = n ∧ r.st ≠ .ended then { r with st := .stopped } else r),
    order := match j.order with
      | some .cancel => some .cancel
      | some .destroy => some .destroy
      | _ => some .fence })
  tryStop s1 c

/-- An image has a stage on a logical core (DEDUCED, entry 128). -/
def stageOn (im : Image) (n : Nat) : Bool := im.stages.any (fun e => e.core == n)

/-- The contexts whose job's image has a stage on a logical core. -/
def jobsOn (s : State) (n : Nat) : List Nat :=
  (s.ctxs.filter (fun e => match e.2.job with
    | some j => j.ended.isNone && stageOn ((tget? e.2.images j.run.slot).getD {}) n
    | none => false)).map Prod.fst

/-- Move a firmware descriptor to another core's firmware queue, with the tiles it has in hand (R683 step 5). -/
def moveFirmware (s : State) (p m : Nat) (e : CvEntry) : State :=
  let q := physOf s m
  let id := (coreOf s q).nextCv
  let move := fun (w : WriteFrom) => match w with
    | .convoy a b k i => if a = p ∧ b = 3 ∧ k = e.id then WriteFrom.convoy q 3 id i else w
    | .strip a b k => if a = p ∧ b = 3 ∧ k = e.id then WriteFrom.strip q 3 id else w
    | _ => w
  let s1 := cvPush s m 3 e
  voteCast { s1 with
    cores := tmod s1.cores p (fun k => { k with convoy := tmod k.convoy 3 (fun l => l.filter (fun x => !(x.id == e.id))) }),
    flights := s1.flights.map (fun f => (f.1, { f.2 with src := move f.2.src })),
    waitHdrs := s1.waitHdrs.map (fun h => (h.1, move h.2)) } 6 0 (2 ^ m)

/-- The firmware work of a fenced core is reissued; work that no other granted core can take waits for the repair
(R683 step 5). -/
def reissue (s : State) (n : Nat) : State :=
  let p := physOf s n
  (tget (coreOf s p).convoy [] 3).foldl (fun a e => match servingCore a e.ctx with
    | some m => moveFirmware a p m e
    | none => a) s

/-- What the loss of a core's Deck takes from a context (R684): upper copies without write-back, and streams revert to
their home copy (R335). -/
def loseCore (n : Nat) (x : Ctx) : Ctx :=
  let lost := fun (o : Obj) => match o.upper with
    | some u => u.tier == 1 && u.core == n
    | none => false
  { x with
    objs := x.objs.map (fun e => if lost e.2 then (e.1, { e.2 with upper := none, dirty := false }) else e),
    streams := x.streams.map (fun e => if e.2.state ≠ .free ∧ e.2.homeCore = n then
      (e.1, { e.2 with nextStep := e.2.homeStep, anchor := none }) else e) }

/-- The DIRTY upper copies that a context loses with a core. -/
def dirtyLost (n : Nat) (x : Ctx) : Nat :=
  (x.objs.filter (fun e => e.2.dirty && (match e.2.upper with
    | some u => u.tier == 1 && u.core == n
    | none => false))).length

/-- Report REL_UPPER_LOST for each context that loses a DIRTY copy, and take the copies away (R684). -/
def loseUppers (s : State) (n : Nat) : State :=
  s.ctxs.foldl (fun a e =>
    let a1 := modCtx a e.1 (loseCore n)
    if 0 < dirtyLost n e.2 then emit a1 (some e.1) .ok .relUpperLost (leBytes 4 (dirtyLost n e.2)) else a1) s

/-- A RESIDENT context holds a Deck share on a logical core (R675). -/
def shareOn (s : State) (n : Nat) : Bool :=
  s.ctxs.any (fun e => decide (e.2.st = .resident) && e.2.images.any (fun i => (tget? i.2.shares n).isSome))

/-- The stream commands that waited for the chunks of a physical core, which the fence has ended, take effect (R319). -/
def freeStreams (s : State) (chunks : List Chunk) : State :=
  (chunks.filter Chunk.running).foldl (fun a q => releaseCmds a q.ctx q.index) s

/-- Begin a fence (R683): the fence point and what follows from it at once. -/
def fenceCore (s : State) (n cause : Nat) (req : Option Req) : State :=
  let p := physOf s n
  let s1 := if shareOn s n then unavailFrom s (16 + n) else s
  let s2 := abortEntry s1 6 0x01D0
  let o := s2.rel.odo
  let s3 := { s2 with
    fenced := insertNum n s2.fenced,
    rel := { s2.rel with lastCause := cause, fencing := s2.rel.fencing ++ [(n, cause, req)],
                         odo := { o with fences := min (o.fences + 1) (2 ^ 32 - 1) } } }
  let s4 := reissue (haltCore (closeHome s3 p) n) n
  let s5 := freeStreams (loseUppers { s4 with decks := terase s4.decks p } n) (coreOf s3 p).chunks
  releaseWork (settleAll ((jobsOn s5 n).foldl (fun a c => fenceJob a n c) s5))

/-- Every step of a fence is done: windows CLOSED, tiles landed, jobs gone (R683). -/
def fenceQuiet (s : State) (n : Nat) : Bool :=
  let p := physOf s n
  s.wins.all (fun e => decide (e.1 / 256 ≠ p) || decide (e.2.state = .closed)) &&
    (coreOf s p).convoy.all (fun q => q.1 == 3 || q.2.isEmpty) && (jobsOn s n).isEmpty

/-- A logical core is being repaired. -/
def repairingCore (s : State) (n : Nat) : Bool := (s.rel.repairing.map Prod.fst) == some n

/-- CORE_FENCE (R682, R683): a core that is already fenced answers OK, and one that is being repaired REL_BUSY (R706). -/
def execCoreFence (rq : Req) (core : Nat) (s : State) : Out :=
  .next (if 8 ≤ core then replyD s rq 0x01D0 .refused .relCoreParam []
    else if repairingCore s core then replyD s rq 0x01D0 .busy .relBusy []
    else if s.fenced.contains core then replyD s rq 0x01D0 .ok .none []
    else interim (fenceCore s core 0 (some rq)) rq 0x01D0 0)

/-- The uncorrectable Deck errors of a logical core's physical core within the last 24 operating hours, 1,536 units (R682;
DEDUCED, entry 129). -/
def recentUes (s : State) (n : Nat) : Nat :=
  (s.rel.ueAt.filter (fun e => e.1 == physOf s n && decide (s.rel.odo.hours < e.2 + 1536))).length

/-- The device has a cause to fence a core on its own (R682): 1 the errors have reached UE_LIMIT, 2 a missed heartbeat. -/
def fenceCause (s : State) (n cause : Nat) : Bool :=
  (cause == 1 && decide (bits (live s 0x0027_0050) 7 0 ≤ recentUes s n)) || cause == 2

/-- The device fences a core on its own (R682). -/
def execAutoFence (core cause : Nat) (s : State) : Out :=
  .next (if 8 ≤ core ∨ s.fenced.contains core ∨ !bit (live s 0x0027_0050) 31 ∨ !fenceCause s core cause ∨ s.pwr.mode ≠ .awake
    then s else fenceCore s core cause none)

/-! ## Repair (R686 to R690) -/

/-- The queued RUNs of images that lost their program rows are refused when the repair replies (R689). -/
def refuseReloads (s : State) : State :=
  s.ctxs.foldl (fun a e =>
    let gone := e.2.runQ.filter (fun r => ((tget? e.2.images r.slot).map Image.reload).getD false)
    let a1 := modCtx a e.1 (fun x => { x with
      runQ := x.runQ.filter (fun r => !((tget? x.images r.slot).map Image.reload).getD false) })
    gone.foldl (fun b r => replyC (cascadeEnd b r.milestone .refused) r.req 0x0130 .refused .relReloadNeeded []) a1) s

/-- Logical core `n` maps to the Relief core (R687 to R690): its Deck holds nothing, its window table has the old
entries, its firmware queue the work that waited, and the images with a stage there need a reload. -/
def mapRelief (s : State) (n : Nat) : State :=
  let old := physOf s n
  let new := s.rel.unmapped
  let moved := (s.wins.filter (fun e => decide (e.1 / 256 = old))).map (fun e => (new * 256 + e.1 % 256, e.2))
  let k := coreOf s old
  { s with
    coreMap := s.coreMap.set n new, fenced := s.fenced.filter (· ≠ n),
    decks := terase (terase s.decks old) new,
    wins := moved.foldl (fun t e => tset t e.1 e.2) (s.wins.filter (fun e => !decide (e.1 / 256 = old))),
    cores := tset (terase s.cores old) new { convoy := k.convoy.filter (fun q => decide (q.1 = 3)), nextCv := k.nextCv },
    ctxs := s.ctxs.map (fun e => (e.1, { e.2 with images := e.2.images.map (fun i =>
      if stageOn i.2 n then (i.1, { i.2 with reload := true }) else i) })),
    pwr := { s.pwr with up := s.pwr.up ||| (1 <<< n), gated := s.pwr.gated &&& (255 ^^^ (1 <<< n)) },
    rel := { s.rel with unmapped := old, consumed := true } }

/-- A repair that succeeds: recorded, counted, reported, and every context goes on (R687, R689, R690). -/
def repairCore (s : State) (n : Nat) (req : Option Req) : State :=
  let old := physOf s n
  let s1 := mapRelief s n
  let o := s1.rel.odo
  let s2 := { s1 with
    rel := { s1.rel with odo := { o with repairs := min (o.repairs + 1) (2 ^ 32 - 1) } },
    rst := { s1.rst with repair := some (n, old, s.rel.unmapped, o.hours, false) } }
  let s3 := match req with
    | some rq => replyD s2 rq 0x01D1 .ok .none []
    | none => s2
  let s4 := emitDev s3 .relRepaired (leBytes 1 n ++ leBytes 1 old ++ leBytes 1 s.rel.unmapped)
  let s5 := refuseReloads (unavailTo s4 (16 + n))
  settleAll ((s5.ctxs.map Prod.fst).foldl (fun a c => startNext (wakeFor a c (tget a.ctxs {} c)) c) s5)

/-- A repair whose Relief core fails a self-test (R688, R690). -/
def repairFails (s : State) (n : Nat) (req : Option Req) : State :=
  let s1 := { s with
    rel := { s.rel with reliefBad := true },
    rst := { s.rst with repair := some (n, physOf s n, s.rel.unmapped, s.rel.odo.hours, true) } }
  match req with
  | some rq => replyD s1 rq 0x01D1 .fault .relReliefFail []
  | none => s1

/-- CORE_REPAIR (R686, R687): an accepted repair is answered with an interim reply and then carried out; `sound` says that the Relief
core passes its self-tests. A fence whose steps are not done has not fenced the core yet. -/
def execCoreRepair (rq : Req) (core : Nat) (sound : Bool) (s : State) : Out :=
  .next (if 8 ≤ core then replyD s rq 0x01D1 .refused .relCoreParam []
    else if !s.fenced.contains core ∨ s.rel.fencing.any (fun f => f.1 == core) then
      replyD s rq 0x01D1 .refused .relNotFenced []
    else if s.rel.consumed ∨ s.rel.reliefBad then replyD s rq 0x01D1 .refused .relNoRelief []
    else if s.rel.repairing.isSome then replyD s rq 0x01D1 .busy .relBusy []
    else interim { s with rel := { s.rel with repairing := some (core, sound, some rq) } } rq 0x01D1 0)

/-- The CTX_DESTROYs that waited go on when no fence and no repair is in progress (R706). -/
def releaseDestroys (s : State) : State :=
  if s.rel.fencing.isEmpty && s.rel.repairing.isNone then
    s.rel.heldDestroys.foldl (fun a rq => onCtx a rq 0x0101 (beginDestroy a rq.ctx (some rq)))
      { s with rel := { s.rel with heldDestroys := [] } }
  else s

/-- The repair in progress completes (R687, R688). -/
def carryRepair (s : State) : State :=
  match s.rel.repairing with
  | none => s
  | some (n, sound, req) =>
    let s1 := { s with rel := { s.rel with repairing := none } }
    releaseDestroys (if sound then repairCore s1 n req else repairFails s1 n req)

/-- The reply and event of a fence whose steps are done, and the automatic repair, its self-tests a free bit (R683, R686). -/
def carryFence (s : State) : State :=
  match s.rel.fencing.find? (fun f => fenceQuiet s f.1) with
  | none => s
  | some (n, cause, req) =>
    let s1 := { s with rel := { s.rel with fencing := s.rel.fencing.filter (fun f => !(f.1 == n)) } }
    let s2 := match req with
      | some rq => replyD s1 rq 0x01D0 .ok .none []
      | none => s1
    let s3 := emitDev s2 .relFence (leBytes 1 n ++ leBytes 1 cause)
    releaseDestroys (if bit (live s3 0x0027_0050) 30 && !s3.rel.consumed && !s3.rel.reliefBad && s3.rel.repairing.isNone then
        draw { s3 with rel := { s3.rel with repairing := some (n, Config.freeBit s3.draws, none) } }
      else s3)

/-! ## Firmware images (R640, R641, R644, R646, R691) -/

/-- The payload bytes that a firmware image names, and its SVN. -/
def fwPayload (b : Bytes) : Nat := field b 0x10 8
def fwSvn (b : Bytes) : Nat := field b 8 4

/-- An image's format (R640): MAGIC, TYPE, FORMAT, reserved bytes, SVN, payload and total length. -/
def fwFormatOk (b : Bytes) (ty : Nat) : Bool :=
  slice b 0 4 == [0x49, 0x56, 0x46, 0x57] && field b 4 1 == ty && field b 5 1 == 1 && field b 6 2 == 0 &&
    decide (fwSvn b ≤ 64) && field b 0xC 4 == 0 && decide (fwPayload b ≤ 2 ^ 24) && field b 0x18 8 == 0 &&
    (slice b 0x60 32).all (· == 0) && decide (b.length = 0x80 + fwPayload b + 3309)

/-- The image digest (R640). -/
def fwDigest (b : Bytes) : Bytes := shake256 64 (b.take (0x80 + fwPayload b))

/-- The image verifies under a fused key of its kind (R641). -/
def fwSigOk (s : State) (b : Bytes) (ty : Nat) : Bool :=
  let key := slice b 0x20 64
  (if ty = 5 then s.sec.ownerKeys else s.sec.fwKeys).contains key &&
    Config.mldsaVerify key (fwDigest b) (b.drop (0x80 + fwPayload b))

/-- The digests of a policy record (R645): those at positions `lo` up to `lo + n`. -/
def policyKeys (p : Bytes) (lo n : Nat) : List Bytes := (List.range n).map (fun i => slice p (0x10 + 64 * (lo + i)) 64)

/-- A policy record meets R645, R646 and, with APPROVED 1, the policy conditions of R665. -/
def policyOk (p : Bytes) : Bool :=
  let flags := field p 0 4
  let m := field p 4 1
  let h := field p 5 1
  let i := field p 6 1
  within m 1 8 && decide (h ≤ 16) && decide (i ≤ 8) && decide (p.length = 0x10 + 64 * (m + h + i)) &&
    decide (flags / 256 = 0) && decide (flags % 16 = 0) && (slice p 7 9).all (· == 0) &&
    (let a := (policyKeys p 0 m).dedup
     let b := (policyKeys p m h).dedup
     let c := (policyKeys p (m + h) i).dedup
     decide ((a ++ b ++ c).Nodup)) &&
    (!bit flags 7 || (bit flags 6 && bit flags 5 && decide (1 ≤ i)))

/-- Why a staged image is refused (R642, R644, R646), in the order of the ROM's checks. -/
def fwFault (s : State) (b : Bytes) (ty : Nat) : Option (Status × Reason) :=
  if !fwFormatOk b ty then some (.malformed, .fwFormat)
  else if fwSvn b < s.sec.minSvn then some (.refused, .secRollback)
  else if !fwSigOk s b ty then some (.auth, .fwSignature)
  else if ty = 5 ∧ !policyOk (slice b 0x80 (fwPayload b)) then some (.refused, .secPolicy)
  else none

/-- The slot that is not active (R691). -/
def spareSlot (s : State) : Nat := 1 - s.rst.bootSlot

/-- A staging is complete: the image is verified and written, or discarded (R691). -/
def finishStage (s : State) (rq : Req) (ty : Nat) (b : Bytes) : State :=
  let s1 := { s with rel := { s.rel with stage := none } }
  match fwFault s b ty with
  | some (st, r) => replyD s1 rq 0x01C0 st r []
  | none =>
    let s2 := { s1 with rel := { s1.rel with
      images := tset s1.rel.images (8 * spareSlot s + ty) b, staged := insertNum ty s1.rel.staged } }
    replyD s2 rq 0x01C0 .ok .none (fwDigest b)

/-- The bytes staged so far that a chunk continues, or none when it breaks the rules of R691. -/
def stagedSoFar (s : State) (target total off : Nat) (data : Bytes) : Option Bytes :=
  if !within target 1 5 || decide (total < off + data.length) then none
  else if off = 0 then some []
  else match s.rel.stage with
    | some g => if g.target = target ∧ g.total = total ∧ g.bytes.length = off then some g.bytes else none
    | none => none

/-- FW_STAGE (R691, R692, R694): a chunk of an image for the inactive slot; a staging into an armed slot disarms it first
(R706). -/
def execFwStage (rq : Req) (target total off : Nat) (data : Bytes) (s : State) : Out :=
  .next (if s.rel.trial then replyD s rq 0x01C0 .refused .fwMode []
    else match stagedSoFar s target total off data with
      | none => replyD s rq 0x01C0 .malformed .fwSequence []
      | some before =>
        let b := before ++ data
        let s1 := { s with rel := { s.rel with armed := false, stage := some { target := target, total := total, bytes := b } } }
        if b.length = total then finishStage s1 rq target b else replyD s1 rq 0x01C0 .ok .none [])

/-! ## FW_ACTIVATE (R693, R694) -/

/-- FW_ACTIVATE, mode ARM: the types not staged are copied, and the inactive slot boots next. -/
def execFwActivateArm (rq : Req) (target cores : Nat) (s : State) : Out :=
  .next (if target ≠ 0 ∨ cores ≠ 0 ∨ s.rel.staged.isEmpty ∨ s.rel.trial then replyD s rq 0x01C1 .refused .fwMode []
    else
      let copy := fun (t : Tab Bytes) (ty : Nat) =>
        if s.rel.staged.contains ty then t
        else match tget? s.rel.images (8 * s.rst.bootSlot + ty) with
          | some b => tset t (8 * spareSlot s + ty) b
          | none => terase t (8 * spareSlot s + ty)
      replyD { s with rel := { s.rel with images := [1, 2, 3, 4, 5].foldl copy s.rel.images, armed := true } }
        rq 0x01C1 .ok .none [])

/-- The highest SVN among the images of a slot (R644). -/
def slotSvn (s : State) (slot : Nat) : Nat :=
  ([1, 2, 3, 4, 5].filterMap (fun ty => (tget? s.rel.images (8 * slot + ty)).map fwSvn)).foldl max 0

/-- FW_ACTIVATE, mode CONFIRM (R644, R693): the trial ends, the booted slot is the active one, and the SVN fuses
follow. -/
def execFwActivateConfirm (rq : Req) (target : Nat) (s : State) : Out :=
  .next (if target ≠ 0 ∨ !s.rel.trial then replyD s rq 0x01C1 .refused .fwMode []
    else
      let svn := max s.sec.minSvn (slotSvn s s.rst.bootSlot)
      let s1 := { s with
        rel := { s.rel with trial := false, staged := [] },
        rst := { s.rst with activeSlot := s.rst.bootSlot }, sec := { s.sec with minSvn := svn } }
      emitDev (replyD s1 rq 0x01C1 .ok .none []) .fwConfirmed (leBytes 1 svn))

/-- FW_ACTIVATE, mode DISARM (R693). -/
def execFwActivateDisarm (rq : Req) (target : Nat) (s : State) : Out :=
  .next (if target ≠ 0 ∨ !s.rel.armed then replyD s rq 0x01C1 .refused .fwMode []
    else replyD { s with rel := { s.rel with armed := false } } rq 0x01C1 .ok .none [])

/-! ## The Odometer (R696 to R701) -/

/-- UNIT of a quantity (R697, R699). -/
def odoUnit (id : Nat) : Nat :=
  if id = 0 then 0 else if id ≤ 8 then 1 else match id with
    | 11 => 3
    | 12 => 4
    | 14 => 5
    | _ => 2

/-- UNIT, SCALE, BASE, WIDTH and SAMPLES of a record, from byte 0x01 or 0x04 on. -/
def histScale (lin : Option (Int × Nat)) (h : Hist) : Bytes :=
  leBytes 4 (ofSigned 32 (lin.map Prod.fst |>.getD 0)) ++ leBytes 4 (lin.map Prod.snd |>.getD 0) ++ zeros 4 ++ leBytes 8 h.samples

/-- MIN and MAX, then the bins. -/
def histEnds (h : Hist) : Bytes := leBytes 4 (ofSigned 32 h.min) ++ leBytes 4 (ofSigned 32 h.max)
def histBins (h : Hist) : Bytes := (List.range 32).flatMap (fun i => leBytes 4 (tget h.bins 0 i))

/-- A record of the Odometer, 192 bytes (R699). -/
def odoRecord (o : Odo) (id : Nat) : Bytes :=
  let h := tget o.recs {} id
  leBytes 1 id ++ leBytes 1 (odoUnit id) ++ leBytes 1 (ofBool (odoScale id).isNone) ++ zeros 1 ++ histScale (odoScale id) h ++
  histEnds h ++ leBytes 4 h.minHours ++ leBytes 4 h.minCycle ++ leBytes 4 h.maxHours ++ leBytes 4 h.maxCycle ++ zeros 16 ++
  histBins h

/-- The byte stream of the Odometer, 2,944 bytes (R699). -/
def odoStream (o : Odo) : Bytes :=
  [0x49, 0x56, 0x4F, 0x44] ++ leBytes 1 1 ++ leBytes 1 15 ++ zeros 2 ++ leBytes 4 o.hours ++ leBytes 4 o.cycles ++
  leBytes 4 o.persistHours ++ leBytes 4 o.unorderly ++ leBytes 8 o.unavailMs ++ leBytes 4 o.fences ++ leBytes 4 o.repairs ++
  zeros 24 ++ (List.range 15).flatMap (odoRecord o)

/-- A reading of a snapshot (R701): NEXT_CURSOR, LENGTH and the bytes, clipped at the end. -/
def odoBody (snap : Bytes) (cursor len : Nat) : Bytes :=
  let d := slice snap cursor len
  let next := if cursor + d.length < 2944 then cursor + d.length else 0
  leBytes 4 next ++ leBytes 4 d.length ++ d

/-- ODOMETER_READ (R701): CURSOR 0 takes the session's snapshot. -/
def execOdometerRead (rq : Req) (cursor len : Nat) (s : State) : Out :=
  .next (match tget? s.net.sessions rq.sess with
    | none => s
    | some e =>
      if e.maxPayload < len + 8 then replyD s rq 0x01B0 .malformed .ethLength []
      else if 2944 ≤ cursor ∨ (cursor ≠ 0 ∧ e.snapshot.isEmpty) then replyD s rq 0x01B0 .malformed .odoCursor []
      else
        let snap := if cursor = 0 then odoStream s.rel.odo else e.snapshot
        let s1 := { s with net := { s.net with sessions := tset s.net.sessions rq.sess { e with snapshot := snap } } }
        replyD s1 rq 0x01B0 .ok .none (odoBody snap cursor len))

/-- A periodic sample is binned (R697); the value is a 32-bit signed number. Outside RUN, IDLE and SLEEP none is taken. -/
def execOdometerSample (id value : Nat) (s : State) : Out :=
  .next (if 8 < id ∨ s.pwr.mode ≠ .awake ∨ !s.rst.up then s else odoSample s id (toSigned 32 (value % 2 ^ 32)))

/-- The hourly quantities at an hour boundary, from the hour just ended (R697). -/
def hourlySamples (s : State) : State :=
  let ids := [9, 10, 13, 14].filter (fun id => (id ≠ 9 && id ≠ 13) || s.ddr.inService)
  let s1 := ids.foldl (fun a id => odoSample a id (tget s.rel.hourly 0 id : Nat)) s
  { s1 with rel := { s1.rel with hourly := [] } }

/-- A 1/64 h unit ends (R696, R697): HOURS advances in every state except OFF. Once a unit, contexts may report an
integrity failure again (R652). -/
def execHourUnitTick (s : State) : Out :=
  .next (if s.pwr.mode = .off then s
    else
      let o := s.rel.odo
      let h := min (o.hours + 1) (2 ^ 32 - 1)
      let s1 := { s with
        rel := { s.rel with odo := { o with hours := h } }, sec := { s.sec with reported := [] } }
      if h % 64 ≠ 0 then s1
      else if s.pwr.mode = .awake then hourlySamples s1
      else { s1 with rel := { s1.rel with hourly := [] } })

/-- The Odometer is persisted every 64 units (R700); a point that falls in DEEP is taken at exit. -/
def execOdometerPersist (s : State) : Out :=
  .next (if s.pwr.mode = .awake ∧ s.rel.odo.persistHours / 64 < s.rel.odo.hours / 64 then persistOdo s else s)

/-! ## Traffic counters (R702, R703) -/

/-- The indices of a monitor class. -/
def monCount (cls : Nat) : Nat := match cls with
  | 0 => 16
  | 1 => 3
  | 2 => 32
  | 3 => 8
  | _ => 0

/-- The block of a monitor, 192 bytes (R703). -/
def monBlock (s : State) (select cls idx : Nat) : Bytes :=
  let m := tget s.rel.monitors ({}, 0) (256 * cls + idx)
  leBytes 4 select ++ histScale (monScale cls idx) m.1 ++ histEnds m.1 ++ leBytes 4 m.2 ++ zeros 28 ++ histBins m.1

/-- COUNTERS_READ (R702): CLEAR resets the monitor at the instant the block is formed. -/
def execCountersRead (rq : Req) (select : Nat) (s : State) : Out :=
  let cls := bits select 31 28
  let idx := select % 256
  .next (if bits select 26 8 ≠ 0 ∨ monCount cls ≤ idx then replyD s rq 0x01B1 .malformed .cntSelect []
    else
      let s1 := if bit select 27 then { s with rel := { s.rel with
          monitors := tset s.rel.monitors (256 * cls + idx) ({}, s.rel.odo.hours) } } else s
      replyD s1 rq 0x01B1 .ok .none (monBlock s select cls idx))

end Sys2Proof.Machine
end

