-- ==== Sys2Proof/Machine/Registers.lean ====
section
/-!
DEFINITION. Commits, enables and disables of the register pages (21) with what each block does then, and the PCIe root port.
-/

namespace Sys2Proof.Machine

/-! ## Safe points (R736, R742, R422) -/

/-- An ISP unit or a received frame is in progress (R434). -/
def frameComing (s : State) : Bool := s.cam.running.isSome || s.cam.frames.any (fun g => !g.whole)

/-- A stage waits on a watched window (R705). -/
def watchedWait (s : State) : Bool := s.wins.any (fun e => e.2.waiting.isSome && !(watchers s e.1).isEmpty)

/-- The page is at its safe point: disabled, or with no work in progress. Evaluations of Guardrail take one step. An ISP
context's page waits for the first unit of its next frame (R422); the other pages wait for SAFE_POINT_COMMIT. -/
def atSafePoint (s : State) (p : Nat) : Bool :=
  !pageOn s p || (match blockOf p with
    | 0x03 => !s.ddr.inService
    | 0x20 => decide (p < 0x0020_8000) && !frameComing s
    | 0x22 => true
    | 0x24 => true
    | 0x26 => !watchedWait s
    | _ => false)

/-- A page that takes commits or enables. -/
def isPage (p : Nat) : Bool := enablePages.contains p || alwaysPages.contains p

/-! ## What a block does with new live values -/

/-- A committed change of an address, UDP port or VLAN of an interface (R510). -/
def ethChanged (old s : State) (i : Iface) : Bool :=
  let diff := fun (a : Nat) => live old a != live s a
  let vlan := fun (t : State) => live t 0x0023_0040
  match i with
  | .host => diff 0x0023_0010 || diff 0x0023_0014 || (List.range 4).any (fun w => diff (0x0023_0020 + 4 * w)) ||
      bit (vlan old) 31 != bit (vlan s) 31 || bits (vlan old) 27 16 != bits (vlan s) 27 16
  | .mgmt => diff 0x0023_0010 || diff 0x0023_0018 || (List.range 4).any (fun w => diff (0x0023_0030 + 4 * w)) ||
      bit (vlan old) 15 != bit (vlan s) 15 || bits (vlan old) 11 0 != bits (vlan s) 11 0

/-- End every session of an interface (R510); set sessions are among those of the host interface. -/
def endInterface (s : State) (i : Iface) : State :=
  let s1 := if i = .host then endSetSessions s else s
  ((s1.net.sessions.filter (fun e => decide (e.2.iface = i))).map Prod.fst).foldl endSession s1

/-- A committed change of a watch slot clears its monitor (R705). -/
def clearWatch (old s : State) : State :=
  let ws := (List.range 8).filter (fun w => live old (0x0026_0040 + 4 * w) != live s (0x0026_0040 + 4 * w))
  { s with rel := { s.rel with
    monitors := ws.foldl (fun t w => tset t (256 * 3 + w) ({}, s.rel.odo.hours)) s.rel.monitors } }

/-- The effects of the new live values of a page, from the state before: an envelope to which the clocks glide (R631),
sessions that end (R510), cleared monitors, and the vote of the high-quality audio output (R613). -/
def commitEffects (old s : State) (p : Nat) : State :=
  if p = 0x0002_0000 then
    let w := live s 0x0002_0010 % 256
    if w = s.pwr.watts then s else { s with pwr := { s.pwr with watts := w, gliding := true } }
  else if p = 0x0023_0000 then
    let s1 := if ethChanged old s .host then endInterface s .host else s
    if ethChanged old s .mgmt then endInterface s1 .mgmt else s1
  else if p = 0x0026_0000 then clearWatch old s
  else if p = 0x0021_0000 then
    let s1 := alignPaths old s
    match s.aud.owner with
    | some c => if bit (live s 0x0021_0058) 31 && !bit (live old 0x0021_0058) 31 then
        voteCast (cancelFrom old s1 0 c (2 ^ 9)) 0 c (2 ^ 9) else s1
    | none => s1
  else s

/-- Take a page's pending commit at its safe point (R741, R743), and tell the commands that wait (R744). -/
def commitNow (s : State) (p : Nat) : State :=
  let r := takeCommit s p
  tellWaits (if r.2.isNone then commitEffects s r.1 p else r.1) p r.2

/-- A commit request (R741, R742). -/
def requestCommit (s : State) (p : Nat) : State :=
  let s1 := modPage s p (fun g => { g with pending := true })
  if atSafePoint s1 p then commitNow s1 p else s1

/-- A write of COMMIT to a page's control word. -/
def execCommit (page : Nat) (s : State) : Out := .next (if isPage page then requestCommit s page else s)

/-- A page's safe point comes (R741). The one of an enabled ISP context is the start of its unit (R422). -/
def execSafePointCommit (page : Nat) (s : State) : Out :=
  .next (if (pageAt s page).pending && isPage page && (decide (page < 0x0020_8000) || decide (0x0021_0000 ≤ page) || !pageOn s page)
    then commitNow s page else s)

/-! ## Enabling a page (R748) -/

/-- What starts when a page has been enabled. -/
def enableEffects (old s : State) (p : Nat) : State :=
  let s1 := commitEffects old s p
  if p = 0x0003_8000 then ddrTrain s1 false
  else if p = grdPage then grdStart s1
  else if 0x0020_1000 ≤ p ∧ p < 0x0020_2000 then
    let n := (p - 0x0020_1000) / 0x100
    { s1 with cam := { s1.cam with rx := tset s1.cam.rx n { rxAt s1 n with errs := [0, 0, 0, 0, 0] } } }
  else if 0x0020_2000 ≤ p ∧ p < 0x0020_3000 then
    let m := (p - 0x0020_2000) / 0x40
    setStr s1 m { strAt s1 m with nextNo := 0, overrun := false }
  else if 0x0020_8000 ≤ p ∧ p < 0x0021_0000 then
    let i := (p - 0x0020_8000) / 0x800
    let s2 := tellDropped s1 i (ispStream s1 i)
    match tget? s2.cam.owners i with
    | some c => voteCast (cancelFrom old s2 0 c (2 ^ 8)) 0 c (2 ^ 8)
    | none => s2
  else s1

/-- Enable a page: every shadow is checked and goes live with ENABLE, or nothing changes but CFG_REASON. -/
def enablePage (s : State) (p : Nat) : State × Option Reason :=
  if pageOn s p then (s, none)
  else match firstFail (enableChecks s p) with
  | some r => (setReason s p r, some r)
  | none =>
    let s1 := modPage (pageLive s p) p (fun g => { g with enable := true, pending := false })
    (enableEffects s s1 p, none)

/-- A link's outcome that no operand gives: free. -/
def freeLink (s : State) : PcieLink :=
  { up := Config.freeBit s.draws, gen := Config.freeAmount s.draws 753 % 4, width := Config.freeAmount s.draws 754 % 3,
    ready := Config.freeBit (s.draws + 1), granules := Config.freeAmount s.draws 755 % 2 ^ 32 }

/-- Enable the PCIe root port (R753): the link trains to what both ends allow and the drive is identified; a link that
cannot be trained refuses the enable (R755). -/
def enablePcie (s : State) (l : PcieLink) : State × Option Reason :=
  if pageOn s 0x0024_0000 then (s, none)
  else
    let r := if l.up then enablePage s 0x0024_0000
      else (setReason s 0x0024_0000 .pcieParam, some .pcieParam)
    if r.2.isSome then r
    else
      let cfg := live r.1 0x0024_0010
      ({ r.1 with pcie := {
          up := true, gen := min l.gen (cfg % 4), width := min l.width (bits cfg 3 2), ready := l.ready,
          granules := if l.ready then l.granules % 2 ^ 32 else 0 } }, none)

/-- Enable any page; the PCIe link's outcome is free. -/
def enableAny (s : State) (p : Nat) : State × Option Reason :=
  if p = 0x0024_0000 then enablePcie (draw (draw s)) (freeLink s) else enablePage s p

/-- A write of ENABLE 1 to a page whose ENABLE is a writable field. -/
def execEnable (page : Nat) (s : State) : Out := .next (if enablePages.contains page then (enableAny s page).1 else s)

/-- Setting DDR_CTRL.ENABLE (R578, R608): checked, then every populated channel trains. -/
def execDdrCtrlEnable (s : State) : Out := .next (enablePage s 0x0003_8000).1

/-- Setting GRD_CTRL.ENABLE (R499, R504). -/
def execGrdEnable (s : State) : Out := .next (enablePage s grdPage).1

/-- Setting an ISP context's ENABLE (R423, R436). -/
def execIspContextEnable (isp : Nat) (s : State) : Out := .next (if isp < 16 then (enablePage s (ispPage isp)).1 else s)

/-- Setting PCIE ENABLE (R753). -/
def execPcieEnable (link : PcieLink) (s : State) : Out := .next (enablePcie s link).1

/-! ## Disabling a page (R749) -/

/-- Why a disable is refused: DDR4 in service (R608), a receiver or stream that feeds an enabled ISP context (R436). -/
def disableFault (s : State) (p : Nat) : Option Reason :=
  if p = 0x0003_8000 then (if s.ddr.inService then some .ddrInService else none)
  else if 0x0020_1000 ≤ p ∧ p < 0x0020_2000 then
    (if (ispsOn s).any (fun i => bits (strSrc s (ispStream s i)) 25 24 == (p - 0x0020_1000) / 0x100) then some .ispSource else none)
  else if 0x0020_2000 ≤ p ∧ p < 0x0020_3000 then
    (if (fedBy s ((p - 0x0020_2000) / 0x40)).isEmpty then none else some .ispSource)
  else none

/-- An ISP context is disabled: its units and its part in every frame go. -/
def ispStop (s : State) (i : Nat) : State :=
  finishFrames { s with cam := { s.cam with
    ready := s.cam.ready.filter (fun r => !(r.1 == i)),
    running := s.cam.running.filter (fun r => !(r.1 == i)),
    frames := s.cam.frames.map (fun (g : Frame) => { g with users := g.users.filter (fun u => !(u.isp == i)) }) } }

/-- What stops when a page has been disabled. -/
def disableEffects (s : State) (p : Nat) : State :=
  if p = 0x0003_8000 then { s with ddr := { s.ddr with training := false, verifying := false } }
  else if p = grdPage then grdHalt s
  else if p = 0x0023_0400 then endSetSessions s
  else if p = 0x0024_0000 then { s with pcie := {} }
  else if 0x0020_8000 ≤ p ∧ p < 0x0021_0000 then ispStop s ((p - 0x0020_8000) / 0x800)
  else if 0x0020_2000 ≤ p ∧ p < 0x0020_3000 then
    dropFrames s (fun g => g.stream == (p - 0x0020_2000) / 0x40)
  else if 0x0020_1000 ≤ p ∧ p < 0x0020_2000 then
    dropFrames s (fun g => bits (strSrc s g.stream) 25 24 == (p - 0x0020_1000) / 0x100)
  else s

/-- Disable a page; a commit that was pending is taken at once (R742, R749). -/
def disablePage (s : State) (p : Nat) : State × Option Reason :=
  if !enablePages.contains p || !pageOn s p then (s, none)
  else match disableFault s p with
  | some r => (setReason s p r, some r)
  | none =>
    let s1 := disableEffects (modPage s p (fun g => { g with enable := false })) p
    (if (pageAt s1 p).pending then commitNow s1 p else s1, none)

/-- A write of ENABLE 0 to an enabled page. -/
def execEnableClear (page : Nat) (s : State) : Out := .next (disablePage s page).1

/-- Clearing GRD_CTRL.ENABLE (R499). -/
def execGrdDisable (s : State) : Out := .next (disablePage s grdPage).1

/-! ## The PCIe link (R754) -/

/-- The link is lost: T4 is not available until it returns. -/
def execPcieLinkDown (s : State) : Out :=
  .next (if s.pcie.up then
      emitDev { s with pcie := { s.pcie with up := false, gen := 0, width := 0, ready := false } } .pcieLinkDown []
    else s)

/-- The link and the drive return. -/
def execPcieLinkUp (gen width : Nat) (s : State) : Out :=
  .next (if pageOn s 0x0024_0000 ∧ !s.pcie.up ∧ s.pwr.mode = .awake then
      let cfg := live s 0x0024_0010
      let g := min gen (cfg % 4)
      let w := min width (bits cfg 3 2)
      emitDev { s with pcie := { s.pcie with up := true, gen := g, width := w, ready := true } } .pcieLinkUp
        (leBytes 1 g ++ leBytes 1 w)
    else s)

end Sys2Proof.Machine
end

