-- ==== Sys2Proof/Machine/Reset.lean ====
section
/-!
DEFINITION. Reset sources, the cold boot, the configuration region, trials of new firmware and the warm restart (22, 18, 19).
-/

namespace Sys2Proof.Machine

/-! ## The configuration region (R768 to R771) -/

/-- The blocks that the snapshot covers (R768), by base, with their pages. -/
def snapBlocks : List (Nat × List Nat) :=
  [(0x0002_0000, [0x0002_0000]), (0x0003_0000, [0x0003_8000]), (0x0022_0000, [0x0022_0000]),
   (0x0023_0000, [0x0023_0000, 0x0023_0400]), (0x0024_0000, [0x0024_0000]), (0x0026_0000, [0x0026_0000]),
   (0x0027_0000, [0x0027_0000]), (0x0001_0000, [0x0001_0000])]

/-- The pages of the snapshot. -/
def snapPages : List Nat := snapBlocks.flatMap Prod.snd

/-- The snapshot that a save stores (R771): the live values, and 1 at the base of every enabled page. -/
def snapshotOf (s : State) : Tab Word :=
  let regs := s.regs.live.filter (fun e => match regInfo e.1 with
    | some i => snapPages.contains i.page
    | none => false)
  (snapPages.filter (pageOn s)).foldl (fun t p => tset t p 1) regs

/-- Apply the snapshot to a page (R768): its values become shadows, and the page is committed, enabled or disabled. -/
def applyPage (snap : Tab Word) (s : State) (p : Nat) : State × Option Reason :=
  let s1 := snap.foldl (fun (a : State) (e : Nat × Word) => match regInfo e.1 with
    | some i => if i.page = p then writeShadow a e.1 e.2.toNat i else a
    | none => a) s
  let on := (tget? snap p).isSome
  if on && !pageOn s1 p then enableAny s1 p
  else
    let r := takeCommit s1 p
    if r.2.isSome then r
    else
      let s2 := commitEffects s1 r.1 p
      if on then (s2, none) else disablePage s2 p

/-- Apply the snapshot to a block; a refused commit or enable leaves the whole block at its reset values and is reported
(R769). -/
def applyBlock (snap : Tab Word) (s : State) (b : Nat × List Nat) : State :=
  let r := b.2.foldl (fun (a : State × Option Reason) (p : Nat) => if a.2.isSome then a else applyPage snap a.1 p) (s, none)
  match r.2 with
  | none => r.1
  | some x => emitDev s .cfgRegionBad (leBytes 4 b.1 ++ leBytes 2 x.code)

/-- Apply the configuration region to some blocks: with a good tag the snapshot, if one was saved; with a bad tag every
block keeps its reset values, and each is reported (R769). -/
def applyRegion (blocks : List (Nat × List Nat)) (good : Bool) (s : State) : State :=
  if !good then blocks.foldl (fun a b => emitDev a .cfgRegionBad (leBytes 4 b.1 ++ zeros 2)) s
  else if s.rst.snapshot.isEmpty then s
  else blocks.foldl (applyBlock s.rst.snapshot) s

/-! ## The cold boot (R767) -/

/-- The slot to boot (R642, R643, R693): the armed one, or the active one; the other when it fails; none in recovery. -/
def slotChoice (s : State) (ok : List Bool) : Option Nat :=
  let want := if s.rel.armed then 1 - s.rst.activeSlot else s.rst.activeSlot
  if ok.getD want false then some want else if ok.getD (1 - want) false then some (1 - want) else none

/-- The image digest of a type in a slot: of the image staged there, or a constant of the part for the image it was
delivered with. -/
def slotDigest (s : State) (slot ty : Nat) : Bytes :=
  match tget? s.rel.images (8 * slot + ty) with
  | some b => fwDigest b
  | none => (List.range 64).map (Config.deviceByte (16 + 8 * slot + ty))

/-- The policy record of the slot that boots comes into force (R645, R648). -/
def takePolicy (s : State) (slot : Nat) : State :=
  match tget? s.rel.images (8 * slot + 5) with
  | none => s
  | some b =>
    let p := slice b 0x80 (fwPayload b)
    let m := field p 4 1
    let h := field p 5 1
    { s with sec := { s.sec with
        policy := field p 0 4, mgmtCreds := policyKeys p 0 m, hostCreds := policyKeys p m h,
        imageKeys := policyKeys p (m + h) (field p 6 1) } }

/-- Steps 2 to 5: keys, the images of the slot and their measurements, the policy (R638, R642). -/
def bootImages (s : State) (slot : Nat) (selfTest : Bool) : State :=
  let s1 := takePolicy s slot
  { s1 with
    sec := { s1.sec with
      fwKeyHeld := true, storageHeld := true, drbgHeld := true, selfTest := selfTest,
      measure := [1, 2, 3, 4, 5].map (fun ty => (ty, slotDigest s slot ty)) },
    rst := { s1.rst with bootSlot := slot } }

/-- The Odometer is loaded from the newest copy that verifies (R700), and counts this boot (R675, R696). -/
def bootOdometer (s : State) (copies : List Bool) : State :=
  let found := (s.rel.copies.zip copies).find? (fun c => c.2)
  let o := (found.map Prod.fst).getD {}
  let o1 := { o with
    cycles := min (o.cycles + 1) (2 ^ 32 - 1),
    unorderly := if s.rel.orderly then o.unorderly else min (o.unorderly + 1) (2 ^ 32 - 1) }
  let s1 := { s with
    rel := { s.rel with odo := o1, orderly := false },
    rst := { s.rst with boots := (s.rst.boots + 1) % 2 ^ 32 } }
  let s2 := if s.rel.orderly then s1 else unavailFrom s1 0
  if found.isNone then emitDev s2 .odoLost [] else s2

/-- Step 6: the records in force, the saved weight record and the snapshot (R768). -/
def bootRegion (s : State) (good : Bool) : State :=
  let s1 := { s with
    rst := { s.rst with board := s.rst.boardFlash, setRec := s.rst.setFlash },
    grd := { s.grd with weights := if good then s.rst.savedWeights else none } }
  applyRegion snapBlocks good s1

/-- A core that fails its self-test when the repair record is lost (R769): fenced, and repaired onto the Relief core as
AUTO_REPAIR would. -/
def bootFence (cores : List Bool) (s : State) (n : Nat) : State :=
  if cores.getD n true then s
  else
  let o := s.rel.odo
  let s := { s with rel := { s.rel with odo := { o with fences := min (o.fences + 1) (2 ^ 32 - 1) } } }
  if s.rel.consumed || s.rel.reliefBad then { s with fenced := insertNum n s.fenced }
  else if cores.getD 8 true then repairCore s n none
  else repairFails { s with fenced := insertNum n s.fenced } n none

/-- Step 7: the repair record is replayed (R690), or lost (R769). -/
def bootRepair (s : State) (good : Bool) (cores : List Bool) : State :=
  if !good then
    emitDev ((List.range 8).foldl (bootFence cores) { s with rst := { s.rst with repair := none } })
      .cfgRegionBad (leBytes 4 0x0027_0000 ++ zeros 2)
  else match s.rst.repair with
  | none => s
  | some (n, _, new, _, bad) =>
    if bad then { s with rel := { s.rel with reliefBad := true } }
    else if cores.getD new true then mapRelief s n
    else { s with fenced := insertNum n s.fenced, rel := { s.rel with lastCause := 3, reliefBad := true } }

/-- The last step of a boot: interfaces enabled, BOOT_DONE, the start-up votes withdrawn (R767, R811), and the intervals of
unavailability that end with the first HELLO (R675). -/
def bootDone (s : State) : State :=
  let up := (2 ^ 11 - 1) &&& ((2 ^ 11 - 1) ^^^ maskOf s.fenced)
  let s1 := { s with
    rst := { s.rst with up := true, booting := false, lock := 0x1FF },
    pwr := { s.pwr with up := s.pwr.up ||| up, startup := false } }
  let s2 := emitDev s1 .bootDone (leBytes 1 s1.rst.cause ++ leBytes 1 s1.rst.bootSlot)
  let s3 := if s2.rst.fallback && s2.rst.cause != 4 then emitDev s2 .secBootFallback (leBytes 1 s2.rst.bootSlot) else s2
  let s4 := if s3.rst.cause = 5 then emitDev s3 .fwReverted (leBytes 1 s3.rst.bootSlot) else s3
  let s5 := unavailTo s4 0
  let s6 := if s5.sec.error || s5.rst.recovery then s5 else unavailTo s5 2
  if s6.rst.cause = 4 then s6 else (List.range 8).foldl (fun a n => unavailTo a (16 + n)) s6

/-- Both slots have failed (R643): port M alone is served, and DDR4 is not trained. -/
def bootRecovery (s : State) : State :=
  unavailFrom { s with rst := { s.rst with up := true, recovery := true, lock := 0x1FF } } 2

/-- A cold boot from the release of reset (R767): up to the training of DDR4 at step 8, if the configuration region enables
it, and otherwise to its end. -/
def coldBoot (s : State) (b : BootInput) : State :=
  let s0 := { s with
    rst := { s.rst with porstLow := false, held := false },
    pwr := { s.pwr with mode := .awake, powerOn := true, mainEn := true, startup := true } }
  match slotChoice s b.slotOk with
  | none => bootRecovery s0
  | some slot =>
    let want := if s.rel.armed then 1 - s.rst.activeSlot else s.rst.activeSlot
    let s1 := { s0 with
      rel := { s0.rel with armed := false, trial := s.rel.armed && decide (slot = want) },
      rst := { s0.rst with fallback := decide (slot ≠ want) } }
    let s2 := bootRegion (bootOdometer (bootImages (writeAvs s1 s1.pwr.watts) slot b.selfTest) b.copies) b.snapshot
    let s3 := bootRepair s2 b.repair b.cores
    let s4 := if b.selfTest then s3 else enterError s3
    if s4.ddr.training then { s4 with rst := { s4.rst with booting := true } } else bootDone s4

/-- What a boot that no operand describes meets: free bits. -/
def freeBoot (s : State) : BootInput :=
  let f := fun (i : Nat) => Config.freeBit (s.draws + i)
  { slotOk := [f 0, f 1], selfTest := f 2, snapshot := f 3, repair := f 4, cores := (List.range 9).map (fun i => f (5 + i)),
    copies := [f 14, f 15] }

/-- A cold boot whose circumstances are free. -/
def bootFree (s : State) : State := coldBoot { s with draws := s.draws + 16 } (freeBoot s)

/-- Release of PORST_N (R763, R767); in OFF the supplies return first, with PWR_ON (R766). -/
def execPorstN (boot : BootInput) (s : State) : Out :=
  .next (if s.rst.porstLow ∧ s.pwr.powerOn then coldBoot s boot else s)

/-- A low pulse of PORST_N of at least 10 µs (R763, R764): whatever was in progress is abandoned (R776). -/
def execPorstNAsserted (s : State) : Out := .next (if s.pwr.mode = .off then s else coldReset s 0)

/-- Training ends (R579); a cold boot that waited for it at step 8 goes on, whatever its result (R767, R772). -/
def execDdrTrainingComplete (failed step : Nat) (s : State) : Out :=
  let s1 := ddrTrained s failed step
  .next (if s1.rst.booting ∧ !s1.ddr.training then bootDone s1 else s1)

/-! ## Interruptions of REFCLK and losses of lock (R759, R762) -/

/-- The device holds itself in internal power-on reset. -/
def holdReset (s : State) (cause : Nat) : State :=
  let s1 := coldReset s cause
  { s1 with rst := { s1.rst with porstLow := false, held := true } }

/-- REFCLK is interrupted (R637, R758, R759): a glitch, and then internal reset. -/
def execRefclkInterruption (s : State) : Out :=
  .next (if s.pwr.mode = .off ∨ s.rst.porstLow then s else holdReset (tamper s) 2)

/-- REFCLK has been stable for 1 ms after an interruption, or after the internal reset of R762. -/
def execRefclkStable (s : State) : Out := .next (if s.rst.held then bootFree s else s)

/-- A PLL loses lock in service (R762): PLL_W a glitch, PLL_G a GCLK gap, any other an internal power-on reset. -/
def execPllLoss (pll : Nat) (s : State) : Out :=
  .next (if !bit (locks s) pll ∨ 9 ≤ pll ∨ s.rst.porstLow then s
    else if pll = 0 then tamper s
    else if pll = 1 then grdFault s
    else holdReset s 3)

/-! ## Trials and the management watchdog (R677, R694) -/

/-- A trial reverts by a cold boot into the previous slot, with cause 5 (R694). -/
def revert (s : State) : State :=
  let s1 := coldReset s 5
  bootFree { s1 with rel := { s1.rel with trial := false, armed := false, orderly := false } }

/-- No CONFIRM has come within RELIABILITY_TRIAL.SECONDS. -/
def execTrialTimeout (s : State) : Out := .next (if s.rel.trial ∧ s.rst.up then revert s else s)

/-- A trial in the error state reverts (R694). -/
def carryRevert (s : State) : State := if s.rel.trial && s.sec.error && s.rst.up then revert s else s

/-- The management watchdog expires (R677): in a trial the firmware reverts; otherwise the management processor alone
restarts and every session ends. During a boot, step 6 is repeated (R776) with the same outcome (DEDUCED, entry 132). -/
def execMgmtWatchdogExpire (s : State) : Out :=
  .next (if (!s.rst.up && !s.rst.booting) ∨ s.pwr.mode ≠ .awake then s
    else if s.rel.trial then revert s
    else unavailTo (emitDev (endAllSessions (unavailFrom s 1)) .relMgmtRestart []) 1)

/-! ## Warm restart (R773, R774) -/

/-- A warm restart is refused while an entry, a fence or repair, or a staging is in progress (R773). -/
def warmBusy (s : State) : Bool := s.pwr.entry.isSome || !s.rel.fencing.isEmpty || s.rel.repairing.isSome || s.rel.stage.isSome

/-- The registers that a warm restart keeps: DDR, GUARDRAIL, and AUDIO and WAYSIDE (R764, R773). -/
def warmKept (a : Nat) : Bool := blockOf a == 0x03 || blockOf a == 0x22 || blockOf a == 0x21

/-- The reset of step 1 (R764, R773): contexts and all that is theirs go, with their keys; cores, Viaduct, ISP, PCIe,
Ethernet and management are reset; every row valid bit is cleared. The POWER block is at its reset values until the region is
applied, so the clocks glide to the envelope of 60 W. -/
def warmReset (s : State) : State :=
  let s1 := (s.ctxs.map Prod.fst).foldl audRelease (endAllSessions s)
  { s1 with
    net := { s1.net with queue := [], dispatched := [], outbound := [], ports := [] },
    regs := {
      live := s1.regs.live.filter (fun e => warmKept e.1), shadow := s1.regs.shadow.filter (fun e => warmKept e.1),
      pages := s1.regs.pages.filter (fun e => warmKept e.1) },
    ctxs := [], wins := [], flights := [], waitHdrs := [],
    decks := [], span := { s1.span with valid := [] },
    sealedRegions := [], cores := [], sched := {}, jct := {}, lanes := [],
    sec := { s1.sec with keys := [] }, set := {}, pcie := {},
    pwr := { s1.pwr with
      votes := [], startup := true, gated := 0, restoring := [], watts := 60,
      gliding := s1.pwr.gliding || decide (s1.pwr.watts ≠ 60) },
    cam := { muted := s1.cam.muted }, aud := { s1.aud with cascade := [], casRuns := [] }, fwWaits := [],
    rel := { s1.rel with heldDestroys := [] } }

/-- A warm restart, once its order has been answered. The tag of the snapshot is checked again: a free bit. -/
def warmRestart (s : State) : State :=
  let s1 := warmReset s
  let s2 := { s1 with rst := {
    s1.rst with cause := 4, board := s1.rst.boardFlash, setRec := s1.rst.setFlash, saving := none, recSel := none,
                recBuf := [] } }
  let blocks := snapBlocks.filter (fun b => b.1 != 0x0003_0000 && b.1 != 0x0022_0000)
  bootDone (applyRegion blocks (Config.freeBit s2.draws) (draw (clearWatch s s2)))

/-- RST_WARM with its key value (R773): refused with RST_BUSY, or answered OK and carried out. -/
def execRstWarm (rq : Req) (s : State) : Out :=
  .next (if warmBusy s then regReply s rq 0x0011 0 (some .rstBusy)
    else warmRestart (regReply s rq 0x0011 1 none))

/-! ## Saving the region and writing its records (R771) -/

/-- The register whose write orders a save, as the waiting commands name it. -/
def saveReg : Nat := 0x0001_0024

/-- Store the snapshot; the commands that ordered it are answered when the region is written. -/
def startSave (s : State) (rq : Req) : State :=
  { s with rst := { s.rst with snapshot := snapshotOf s, savedWeights := s.grd.weights, saving := some rq } }

/-- RST_CFG_SAVE with its key value (R771): an interim reply, and the final one when the region is written. -/
def execRstCfgSave (rq : Req) (s : State) : Out :=
  .next (if s.rst.saving.isSome then regReply s rq 0x0011 0 (some .rstBusy)
    else
      let s1 := interim (startSave s rq) rq 0x0011 0
      { s1 with regs := { s1.regs with
        waits := s1.regs.waits ++ [{ req := rq, op := 0x0011, count := 1, left := [saveReg] }] } })

/-- The region is written. -/
def carrySave (s : State) : State :=
  if s.rst.saving.isNone then s
  else tellWaits { s with rst := { s.rst with saving := none } } saveReg none

/-- A write of RST_REC_SEL: 0 selects and starts the board record, 1 the set record; other values are refused. -/
def recSelect (s : State) (value : Nat) : State × Option Reason :=
  if value % 256 ≤ 1 then ({ s with rst := { s.rst with recSel := some (value % 256), recBuf := [] } }, none)
  else (s, some .rstParam)

/-- A write of RST_REC_DATA: the next word of the selected record; its last word stores it, and data beyond it are
refused. -/
def recWord (s : State) (value : Nat) : State × Option Reason :=
  match s.rst.recSel with
  | none => (s, some .rstParam)
  | some k =>
    let buf := s.rst.recBuf ++ leBytes 4 value
    let r := s.rst
    if k = 0 then
      (if 16 < buf.length then (s, some .rstParam)
       else if buf.length = 16 then ({ s with rst := { r with recBuf := buf, boardFlash := buf } }, none)
       else ({ s with rst := { r with recBuf := buf } }, none))
    else if 768 < buf.length then (s, some .rstParam)
    else if buf.length = 768 then ({ s with rst := { r with recBuf := buf, setFlash := buf } }, none)
    else ({ s with rst := { r with recBuf := buf } }, none)

/-- RST_REC_SEL, as a REG_WRITE of that register alone. -/
def execRstRecSel (rq : Req) (value : Word) (s : State) : Out :=
  let r := recSelect s value.toNat
  .next (regReply r.1 rq 0x0011 (if r.2.isNone then 1 else 0) r.2)

/-- RST_REC_DATA, as a REG_WRITE of that register alone. -/
def execRstRecData (rq : Req) (value : Word) (s : State) : Out :=
  let r := recWord s value.toNat
  .next (regReply r.1 rq 0x0011 (if r.2.isNone then 1 else 0) r.2)

end Sys2Proof.Machine
end

