-- ==== Sys2Proof/Machine/Receive.lean ====
section
/-!
DEFINITION. The door of the Kraros layer (14): the checks of a received datagram (R514), duplicates (R520), the
command queue (R525), and the dispatch of a queued command (R526), which reads the parameters of R534 to R544 into a
command of the block.
-/

namespace Sys2Proof.Machine

/-! ## The header (R512) -/

/-- The header fields of a received packet that its checks and its handling use. -/
structure Header where
  version : Nat
  cls : Nat
  op : Nat
  seq : Nat
  ctx : Nat
  len : Nat
  link : Nat
  sess : Nat
  /-- R513 (14): a reserved header field of a CMD is not zero. -/
  bad : Bool
deriving DecidableEq, Repr

/-- Read the header of a packet. -/
def readHeader (b : Bytes) : Header :=
  { version := field b 0 1, cls := field b 1 1 % 4, op := field b 2 2, seq := field b 4 4, ctx := field b 8 2 % 512,
    len := field b 10 2, link := field b 16 4, sess := field b 20 4,
    bad := decide (4 ≤ field b 1 1) || decide (512 ≤ field b 8 2) || decide (4 ≤ field b 13 1) }

/-! ## Opcodes (R534 to R544) -/

/-- The opcodes of the tables. -/
def knownOps : List Nat :=
  [0x0001, 0x0002, 0x0010, 0x0011, 0x0190, 0x0191, 0x0100, 0x0101, 0x0102, 0x0110, 0x0111, 0x0112, 0x0113, 0x0114,
   0x0120, 0x0121, 0x0130, 0x0131, 0x0132, 0x0140, 0x0141, 0x0142, 0x0150, 0x0151, 0x0160, 0x0161, 0x0162, 0x0170,
   0x0171, 0x0180, 0x0181, 0x0182, 0x01A0, 0x01A1, 0x01B0, 0x01B1, 0x01C0, 0x01C1, 0x01D0, 0x01D1, 0x01E0]

/-- The payload lengths that match an opcode: fixed, or given by the fields that come first. An operation outside its
range has no length of its own; its range is checked at dispatch. -/
def lengthOk (op : Nat) (p : Bytes) : Bool :=
  let n := p.length
  match op with
  | 0x0001 => if field p 0 1 = 1 then n == 3381 else n == 8
  | 0x0010 | 0x0114 | 0x01B0 | 0x01B1 | 0x0190 => n == 8
  | 0x0011 => n == 8 + 4 * field p 4 2
  | 0x0100 | 0x0110 | 0x0113 | 0x0130 | 0x0140 | 0x0182 => n == 16
  | 0x0102 => n == 56
  | 0x0111 | 0x0121 | 0x0132 | 0x0141 | 0x0142 | 0x0151 | 0x0161 | 0x0171 | 0x01C1 | 0x01D0 | 0x01D1 => n == 4
  | 0x0112 | 0x01C0 => decide (16 ≤ n)
  | 0x0120 => if field p 2 2 = 0xFFFF then n == 8 + 2 * field p 4 2 else n == 8
  | 0x0150 | 0x0160 => n == 20
  | 0x0162 => decide (9 ≤ n) && decide (n ≤ 8 + 4096)
  | 0x0170 => n == 12
  | 0x0180 | 0x0181 => match field p 0 1 with
    | 0 => n == 8
    | 1 => decide (12 ≤ n) && n == 12 + 4 * field p 8 2
    | 2 => if op = 0x0181 then n == 12 else decide (12 ≤ n) && n == 12 + field p 8 2
    | _ => decide (4 ≤ n)
  | 0x01A0 => n == 40
  | 0x01E0 => if field p 0 1 = 0 then n == 1400 else n == 8
  | _ => n == 0

/-- The reserved fields of an opcode's parameters, as offsets and sizes. -/
def reservedFields (op : Nat) (p : Bytes) : List (Nat × Nat) :=
  match op with
  | 0x0001 => [(5, 3)]
  | 0x0010 | 0x0011 | 0x0120 => [(6, 2)]
  | 0x0190 | 0x0141 | 0x0160 | 0x0161 | 0x0170 | 0x01C1 => [(3, 1)]
  | 0x0102 => [(38, 2)]
  | 0x0111 | 0x0113 | 0x0142 | 0x0151 => [(2, 2)]
  | 0x0112 => [(2, 6)]
  | 0x0114 => [(5, 3)]
  | 0x0121 | 0x0132 | 0x0171 | 0x01C0 => [(1, 3)]
  | 0x0130 => [(1, 7)]
  | 0x0140 => [(7, 1), (10, 6)]
  | 0x0150 => [(17, 3)]
  | 0x0180 => (2, 2) :: (match field p 0 1 with
    | 0 => [(6, 2)]
    | 1 => [(10, 2)]
    | _ => [(7, 1)])
  | 0x0181 => (1, 3) :: (if field p 0 1 = 0 then [(6, 2)] else [(10, 2)])
  | 0x0182 => [(1, 1)]
  | 0x01B1 => [(4, 4)]
  | 0x01E0 => [(2, 6)]
  | _ => []

/-- MODE, OP and PROTO lie in their ranges (R546), and so does the MAX_PAYLOAD of an OPEN (R534). -/
def modeOk (op : Nat) (p : Bytes) : Bool :=
  match op with
  | 0x0001 => decide (field p 0 1 ≤ 3) && field p 1 1 == 1 &&
      (field p 0 1 != 0 || (decide (1024 ≤ field p 2 2) && decide (field p 2 2 ≤ 8192)))
  | 0x0190 => decide (field p 0 1 ≤ 2) && decide (field p 1 1 ≤ 2)
  | 0x0114 => decide (field p 2 1 ≤ 3)
  | 0x0132 => decide (field p 0 1 ≤ 1)
  | 0x0140 | 0x0141 => decide (field p 2 1 ≤ 1)
  | 0x0180 | 0x0181 | 0x01E0 => decide (field p 0 1 ≤ 2)
  | _ => true

/-- A context-scoped command (R516): the opcodes marked C, POWER_VOTE when CLIENT is 0, and SENSOR_CFG where it writes registers
of an ISP context (R542). -/
def isScoped (op : Nat) (p : Bytes) : Bool :=
  (decide (0x0101 ≤ op) && decide (op ≤ 0x0171)) || op == 0x0181 || op == 0x0182 || op == 0x01A0 || op == 0x01A1 ||
    (op == 0x0190 && field p 1 1 == 0) ||
    (op == 0x0180 && field p 0 1 == 1 && namesIsp (field p 4 4) (field p 8 2))

/-- The opcode, or the operation named, is accepted on the interface (R514 check 7), a set session taking HELLO alone. -/
def acceptedOn (i : Iface) (set : Bool) (op : Nat) (p : Bytes) : Bool :=
  if set then op == 0x0001
  else if op == 0x0001 || op == 0x0002 || op == 0x0010 || op == 0x0191 || op == 0x01A0 then true
  else match i with
    | .host => (op == 0x0190 && field p 1 1 != 2) || (decide (0x0100 ≤ op) && decide (op < 0x0190)) || op == 0x01A1
    | .mgmt => op == 0x0190 || op == 0x0011 || (op == 0x0181 && field p 0 1 == 0) || decide (0x01B0 ≤ op)

/-- A session that has not proved accepts HELLO and DEVICE_INFO alone where proof is required (R519). -/
def authOk (s : State) (e : Session) (op : Nat) : Bool :=
  e.proved || op == 0x0001 || op == 0x0002 || (e.peer.isNone && !authRequired s e.iface)

/-! ## The door (R514) -/

/-- A datagram is dropped without a reply. -/
def dropDatagram (s : State) : State :=
  { s with net := { s.net with rxDrop := min (s.net.rxDrop + 1) (2 ^ 32 - 1) } }

/-- The final RSP of a failed check: neither stored nor numbered, and the SEQUENCE is not remembered (R514). -/
def doorReply (s : State) (rq : Req) (op ctx : Nat) (st : Status) (r : Reason) : State :=
  sendPkt s { sess := rq.sess, cls := .rsp, op := op, seq := rq.seq, ctx := ctx, status := st, reason := r,
              wire := some (wireTo s rq.iface rq.port rq.src rq.sport) }

/-- The entries of the command queue that an interface, or a context, holds (R525). -/
def queueHeld (s : State) (i : Iface) : Nat := (s.net.queue.filter (fun e => decide (e.req.iface = i))).length
def contextHeld (s : State) (c : Nat) : Nat :=
  (s.net.queue.filter (fun e => isScoped e.op e.payload && e.req.ctx == c)).length

/-- The entries of the command queue for an interface (R525). -/
def queueRoom : Iface → Nat
  | .host => 224
  | .mgmt => 32

/-- A command that has passed every check takes a queue entry (R514, R525) and its number is remembered (R520). A command
that will take longer than 200 µs, or whose context's tables are not yet restored (R628), gets an interim reply (R522). -/
def acceptCmd (s : State) (d : Datagram) (h : Header) (rq : Req) (p : Bytes) : State :=
  let e : QEntry := { req := rq, op := h.op, payload := p, bad := h.bad }
  let s1 := { s with net := { s.net with
    queue := s.net.queue ++ [e],
    sessions := tmod s.net.sessions rq.sess (fun x =>
      { x with remembered := (h.seq :: x.remembered).take 1024, highest := some h.seq, inProgress := h.seq :: x.inProgress }) } }
  let s2 := monSample s1 1 2 (s1.net.queue.length : Int)
  if d.late || (isScoped h.op p && s.pwr.restoring.contains rq.ctx) then
    interim s2 rq h.op (if isScoped h.op p then rq.ctx else 0)
  else s2

/-- Checks 6 to 9 of R514, for a command of session `e`, none when it opens one. -/
def doorChecks (s : State) (e : Option Session) (h : Header) (rq : Req) (p : Bytes) : Option (Status × Reason) :=
  if !knownOps.contains h.op then some (.malformed, .ethOpcode)
  else if !lengthOk h.op p then some (.malformed, .ethLength)
  else if !acceptedOn rq.iface (e.any (fun x => x.peer.isSome)) h.op p then some (.refused, .ethPort)
  else if e.any (fun x => !authOk s x h.op) then some (.auth, .ethAuth)
  else if queueRoom rq.iface ≤ queueHeld s rq.iface then some (.busy, .ethQueueFull)
  else if isScoped h.op p && decide (32 ≤ contextHeld s rq.ctx) then some (.busy, .ethCtxLimit)
  else none

/-- Checks 6 to 9, and acceptance. -/
def admitCmd (s : State) (d : Datagram) (h : Header) (rq : Req) (e : Option Session) (p : Bytes) : State :=
  match doorChecks s e h rq p with
  | some (st, r) => doorReply s rq h.op (if isScoped h.op p then rq.ctx else 0) st r
  | none => acceptCmd s d h rq p

/-- The final reply of a command number of a session in the outbound store. -/
def heldReply (s : State) (sid seq : Nat) : Option OutEntry :=
  s.net.outbound.find? (fun o => o.pkt.sess == sid && decide (o.pkt.cls = .rsp) && o.pkt.seq == seq)

/-- A duplicate (R520): its held reply is sent again, an interim reply answers one in progress, and one whose reply has
been acknowledged is dropped. -/
def duplicate (s : State) (sid : Nat) (x : Session) (h : Header) (rq : Req) (p : Bytes) : State :=
  if x.inProgress.contains h.seq then interim s rq h.op (if isScoped h.op p then rq.ctx else 0)
  else match heldReply s sid h.seq with
    | some o => sendPkt s o.pkt
    | none => s

/-- HELLO OPEN with SESSION 0: a duplicate of the OPEN that created a live session, or of one that waits, or a new one. -/
def openHello (s : State) (d : Datagram) (h : Header) (rq : Req) (p : Bytes) : State :=
  let same := fun (e : Nat × Session) =>
    decide (e.2.iface = d.iface) && e.2.src == d.src && e.2.sport == d.sport && e.2.openSeq == h.seq
  if s.net.queue.any (fun e => e.op == 1 && decide (e.req = rq)) then interim s rq 1 0
  else match s.net.sessions.find? same with
    | some (sid, x) => duplicate s sid x h rq p
    | none => admitCmd s d h rq none p

/-- A CMD from check 2 on (R514). -/
def receiveCmd (s : State) (d : Datagram) (h : Header) : State :=
  let p := d.bytes.drop 24
  let rq : Req :=
    { iface := d.iface, sess := h.sess, src := d.src, sport := d.sport, port := d.port, seq := h.seq, ctx := h.ctx }
  let ctx := if isScoped h.op p then h.ctx else 0
  if h.version ≠ 1 then doorReply s rq h.op ctx .malformed .ethVersion
  else if h.len ≠ p.length ∨ 8192 < h.len then doorReply s rq h.op ctx .malformed .ethLength
  else if h.sess = 0 then
    if h.op = 1 ∧ 1 ≤ p.length ∧ field p 0 1 = 0 then openHello s d h rq p else doorReply s rq h.op ctx .auth .ethSession
  else match tget? s.net.sessions h.sess with
    | none => doorReply s rq h.op ctx .auth .ethSession
    | some x =>
      if x.iface ≠ d.iface ∨ x.src ≠ d.src ∨ x.sport ≠ d.sport then doorReply s rq h.op ctx .auth .ethSession
      else
        let s1 := match x.peer with
          | some i => settleReceive s i h.link []
          | none => acknowledge s h.sess h.link
        let behind := (x.highest.getD h.seq + 2 ^ 32 - h.seq) % 2 ^ 32
        if x.remembered.contains h.seq then duplicate s1 h.sess x h rq p
        else if 1 ≤ behind ∧ behind ≤ 2 ^ 31 then doorReply s1 rq h.op ctx .malformed .ethStaleSeq
        else admitCmd s1 d h rq (some x) p

/-- Set traffic (R515): the RSP to a HELLO of this member, or DATA of KIND 0x01 on a set session. SESSION names the set
session, but for the RSP to its own OPEN, which brings it. A failed check drops the packet. -/
def receiveSet (s : State) (d : Datagram) (h : Header) (i : Nat) : State :=
  let p := d.bytes.drop 24
  let q := peerAt s i
  let opening := h.cls == 1 && q.awaiting.any (fun a => a.2 == 0)
  if h.version ≠ 1 ∨ h.len ≠ p.length ∨ 8192 < h.len ∨ (q.sess ≠ some h.sess ∧ !opening) then dropDatagram s
  else if h.cls = 1 then helloReply s i h.seq h.sess (field d.bytes 12 1 == 0) p
  else if h.seq = 0 then settleReceive s i h.link (if bit (field p 5 1) 0 then p.drop 16 else [])
  else receiveRemote (settleReceive s i h.link []) i h.seq p

/-- A CMD from the peer of a set session that this member opened: HELLO REFRESH and END are answered, every other is
refused (R514 check 7). -/
def receivePeerCmd (s : State) (d : Datagram) (h : Header) (i : Nat) : State :=
  let p := d.bytes.drop 24
  let reply := fun (a : State) (st : Status) (r : Reason) =>
    sendPkt a { sess := h.sess, cls := .rsp, op := h.op, seq := h.seq, status := st, reason := r, wire := peerWire a i }
  if h.version ≠ 1 then reply s .malformed .ethVersion
  else if h.len ≠ p.length ∨ 8192 < h.len then reply s .malformed .ethLength
  else
    let s1 := settleReceive s i h.link []
    if h.op ≠ 1 then reply s1 .refused .ethPort
    else match field p 0 1 with
      | 2 => reply s1 .ok .none
      | 3 => peerLost (reply s1 .ok .none) i
      | _ => reply s1 .refused .ethPort

/-- A datagram is a Kraros packet of its interface (R509): it names the interface's own address, which is not disabled, and UDP
port, and carries the interface's VLAN tag when that is enabled and no tag otherwise. -/
def addressed (s : State) (d : Datagram) : Bool :=
  decide (d.kind = .udp) && decide (ownAddr s d.iface d.dst = some d.dst) && d.dport == live s 0x0023_0010 % 2 ^ 16 &&
    decide (d.tag.map Prod.snd = (ownTag s d.iface).map Prod.snd)

/-- The device hears datagrams: it is up and awake, the Ethernet page is enabled, and in recovery port M alone is
served (R643). -/
def hears (s : State) (d : Datagram) : Bool :=
  s.rst.up && decide (s.pwr.mode = .awake) && pageOn s 0x0023_0000 && (!s.rst.recovery || decide (d.iface = .mgmt)) &&
    addressed s d

/-- A UDP datagram arrives (R514). -/
def receive (s : State) (d : Datagram) : State :=
  let h := readHeader d.bytes
  let peer := if d.iface = .host then peerOf s d.port d.src else none
  let setKind := (h.cls == 1 && h.op == 1) || (h.cls == 3 && field d.bytes 24 1 == 1)
  if !hears s d then s
  else if !d.checksumOk ∨ d.bytes.length < 24 then dropDatagram s
  else if h.cls = 0 then
    match peer with
    | some i => if (peerAt s i).opener ∧ (peerAt s i).sess = some h.sess then receivePeerCmd s d h i else receiveCmd s d h
    | none => receiveCmd s d h
  else match peer with
    | some i => if setKind then receiveSet s d h i else dropDatagram s
    | none => dropDatagram s

/-- A received frame (R507 to R509, R514): the bridge takes it, and the device handles what is sent to it. -/
def execDatagramReceive (dgram : Datagram) (s : State) : Out :=
  .next (let t := bridge s dgram
    if !forDevice s dgram then t else if dgram.kind = .udp then receive t dgram else answerFrame t dgram)

/-! ## Parameters (R534 to R544) -/

/-- The 32-bit words of VALUES. -/
def valueWords (p : Bytes) (off n : Nat) : List Word := (List.range n).map (fun i => BitVec.ofNat 32 (field p (off + 4 * i) 4))

/-- The session, register, power, attestation and management commands (R534, R542 to R544). The outcome of a self-test
of the Relief core is a free bit. -/
def readSystem (s : State) (rq : Req) (op : Nat) (p : Bytes) : Option Instr :=
  let f := fun (o w : Nat) => field p o w
  match op with
  | 0x0001 => match f 0 1 with
    | 0 => some (.helloOpen rq (f 2 2) (f 4 1 == 1))
    | 1 => some (.helloProve rq (slice p 8 64) (slice p 72 3309))
    | 2 => some (.helloRefresh rq)
    | _ => some (.helloEnd rq)
  | 0x0002 => some (.deviceInfo rq)
  | 0x0010 => some (.regRead rq (f 0 4) (f 4 2))
  | 0x0011 => some (.regWrite rq (f 0 4) (valueWords p 8 (f 4 2)))
  | 0x0190 => match f 0 1 with
    | 0 => some (.powerVoteCast rq (f 1 1) (f 4 4))
    | 1 => some (.powerVoteWithdraw rq (f 1 1) (f 4 4))
    | _ => some (.powerVoteEnter rq (f 1 1) (f 2 1))
  | 0x0191 => some (.powerStateGet rq)
  | 0x01A0 => some (.attest rq (slice p 0 32) (f 32 4) (f 36 4))
  | 0x01A1 => some (.accountRead rq)
  | 0x01B0 => some (.odometerRead rq (f 0 4) (f 4 4))
  | 0x01B1 => some (.countersRead rq (f 0 4))
  | 0x01C0 => some (.fwStage rq (f 0 1) (f 4 4) (f 8 8) (p.drop 16))
  | 0x01C1 => match f 1 1 with
    | 0 => some (.fwActivateArm rq (f 0 1) (f 2 1))
    | 1 => some (.fwActivateConfirm rq (f 0 1 + 256 * f 2 1))
    | _ => some (.fwActivateDisarm rq (f 0 1 + 256 * f 2 1))
  | 0x01D0 => some (.coreFence rq (f 0 1))
  | 0x01D1 => some (.coreRepair rq (f 0 1) (Config.freeBit s.draws))
  | 0x01E0 => match f 0 1 with
    | 0 => some (.loadWeights rq (p.drop 8))
    | 1 => some (.release rq (f 1 1))
    | _ => some (.deepOverride rq)
  | _ => none

/-- The context, object and image commands (R536, R538, R539). -/
def readContext (rq : Req) (op : Nat) (p : Bytes) : Option Instr :=
  let f := fun (o w : Nat) => field p o w
  match op with
  | 0x0100 => some (.ctxCreate rq
      { sealed := f 0 1, cores := f 1 1, spanBanks := f 2 1, ddrSlots := f 3 1, boundUs := f 4 4, remoteMs := f 8 4,
        quantumUs := f 12 4 })
  | 0x0101 => some (.ctxDestroy rq)
  | 0x0102 => some (.ctxQuotaSet rq
      { t1 := (List.range 8).map (fun n => f (4 * n) 4), t2 := f 32 4, streams := f 36 2, t3 := f 40 8, t4 := f 48 8 })
  | 0x0110 => some (.objAlloc rq (f 0 4) (f 4 4) (f 8 4) (f 12 4))
  | 0x0111 => some (.objFree rq (f 0 2))
  | 0x0112 => some (.objWrite rq (f 0 2) (f 8 8) (p.drop 16))
  | 0x0113 => some (.objRead rq (f 0 2) (f 4 4) (f 8 8))
  | 0x0114 => match f 2 1 with
    | 0 => some (.objPlacePlace rq (f 0 2) (f 3 1) (f 4 1))
    | 1 => some (.objPlaceRemove rq (f 0 2))
    | 2 => some (.objPlacePin rq (f 0 2))
    | _ => some (.objPlaceUnpin rq (f 0 2))
  | 0x0120 => some (.imageLoad rq (f 0 2) (f 2 2) (f 4 2)
      (if f 2 2 = 0xFFFF then (List.range (f 4 2)).map (fun i => f (8 + 2 * i) 2) else []))
  | 0x0121 => some (.imageUnload rq (f 0 1))
  | 0x0130 => some (.run rq (f 0 1) (f 8 8))
  | 0x0131 => some (.runCancel rq)
  | 0x0132 => if f 0 1 = 0 then some (.preemptYield rq) else some (.preemptPark rq)
  | _ => none

/-- The stream, sequence, window and lane commands (R540, R541). -/
def readStream (rq : Req) (op : Nat) (p : Bytes) : Option Instr :=
  let f := fun (o w : Nat) => field p o w
  let args : StreamArgs :=
    { index := f 0 2, options := f 3 1, channels := f 4 2, homeCore := f 6 1, aObject := f 8 2 }
  match op with
  | 0x0140 => if f 2 1 = 0 then some (.streamOpenNew rq args) else some (.streamOpenResume rq args)
  | 0x0141 => if f 2 1 = 0 then some (.streamClosePause rq (f 0 2)) else some (.streamCloseEnd rq (f 0 2))
  | 0x0142 => some (.streamReset rq (f 0 2))
  | 0x0150 => some (.kvSeqFork rq (f 0 2) (f 2 2) (f 4 4)
      { maxTokens := f 8 4, layers := f 12 1, slices := f 13 1, fmtK := f 14 1, fmtV := f 15 1, coding := f 16 1 })
  | 0x0151 => some (.kvSeqFree rq (f 0 2))
  | 0x0160 => some (.winOpen (.host rq) (f 0 1) (f 1 1) (f 2 1) (f 4 4) (f 8 4) (f 12 4) (f 16 4))
  | 0x0161 => some (.winClose (.host rq) (f 0 1) (f 1 1) (f 2 1))
  | 0x0162 => some (.winWrite rq (f 0 1) (f 1 1) (f 2 1) (f 3 1) (f 4 4) (p.drop 8))
  | 0x0170 => some (.laneCfg rq (f 0 1) (f 1 1) (f 2 1) (f 4 4) (f 8 4))
  | 0x0171 => some (.laneFlush rq (f 0 1))
  | _ => none

/-- What the I3C bus does with a transfer that a received command orders: the target's answer is not the device's own,
so it is free. -/
def freeAnswer (s : State) (n : Nat) : I3cBus :=
  if Config.freeBit s.draws then .nack else if Config.freeBit (s.draws + 1) then .err else .done (freeBytes s n)

/-- The sensor and audio commands (R542). -/
def readSensor (s : State) (rq : Req) (op : Nat) (p : Bytes) : Option Instr :=
  let f := fun (o w : Nat) => field p o w
  match op with
  | 0x0180 => match f 0 1 with
    | 0 => some (.sensorCfgBind rq (f 1 1) (f 4 2))
    | 1 => some (.sensorCfgRegWrite rq (f 4 4) (valueWords p 12 (f 8 2)))
    | _ => some (.i3cXfer rq
        { ctrl := f 1 1, kind := f 4 1, addr := f 5 1, ccc := f 6 1, wdata := p.drop 12, readLen := f 10 2 }
        (freeAnswer s (f 10 2)))
  | 0x0181 => match f 0 1 with
    | 0 => some (.audioCfgBind rq (f 4 2))
    | 1 => some (.audioCfgRegWrite rq (f 4 4) (valueWords p 12 (f 8 2)))
    | _ => some (.cascade rq (f 4 1) (f 5 1) (f 6 1) (f 7 1) (f 8 2))
  | 0x0182 => some (.wakePhraseLoad rq (f 0 1) (f 2 2) (f 4 4) (f 8 8))
  | _ => none

/-- The command that a queued packet spells. -/
def readCommand (s : State) (e : QEntry) : Option Instr :=
  (readSystem s e.req e.op e.payload).orElse (fun _ =>
  (readContext e.req e.op e.payload).orElse (fun _ =>
  (readStream e.req e.op e.payload).orElse (fun _ => readSensor s e.req e.op e.payload)))

/-! ## Dispatch (R526) -/

/-- A command of a context whose tables are not yet restored waits in the queue (R628). -/
def heldBack (s : State) (e : QEntry) : Bool := isScoped e.op e.payload && s.pwr.restoring.contains e.req.ctx

/-- The commands that run before DDR4 is in service (22): those that need no context and no T3, and ENTER OFF. -/
def runsWithoutDdr (op : Nat) (p : Bytes) : Bool :=
  [0x0001, 0x0002, 0x0010, 0x0011, 0x0191, 0x01B0, 0x01B1, 0x01C0, 0x01C1, 0x01E0].contains op ||
    (op == 0x0190 && field p 0 1 == 2 && field p 2 1 == 4)

/-- The refusals at dispatch: reserved fields and ranges (R513, R693, R707), an entry in progress (R622), recovery (R643), the
error state (R667), and DDR4 not in service (R579). -/
def dispatchRefusal (s : State) (e : QEntry) : Option (Status × Reason) :=
  let p := e.payload
  if e.bad || (reservedFields e.op p).any (fun r => field p r.1 r.2 != 0) || !modeOk e.op p then
    some (.malformed, .ethParam)
  else if e.op = 0x01C1 ∧ 2 < field p 1 1 then some (.refused, .fwMode)
  else if (e.op = 0x01D0 ∨ e.op = 0x01D1) ∧ field p 1 3 ≠ 0 then some (.refused, .relCoreParam)
  else if s.pwr.entry.isSome ∧ e.op ≠ 0x0001 ∧ e.op ≠ 0x0191 then some (.busy, .pwrEntering)
  else if s.rst.recovery ∧ !([0x0001, 0x0002, 0x01C0, 0x01C1].contains e.op) then some (.refused, .ethPort)
  else if s.sec.error ∧ !([0x0001, 0x0002, 0x0191].contains e.op) then some (.fault, .secSelftest)
  else if !s.ddr.inService && !runsWithoutDdr e.op p then some (.fault, .ddrNotReady)
  else none

/-- The reply of a refusal at dispatch; a HELLO OPEN, which has no session, is answered without one. -/
def refuseDispatch (s : State) (e : QEntry) (st : Status) (r : Reason) : State :=
  if e.req.sess = 0 then doorReply s e.req e.op 0 st r
  else replyAs s e.req e.op (if isScoped e.op e.payload then e.req.ctx else 0) st r []

/-- Dispatch one entry, which has left the queue: its command joins the dispatched ones. The commands of a session that
has ended are dropped with it (R521). -/
def dispatchEntry (s : State) (e : QEntry) : State :=
  if e.req.sess ≠ 0 ∧ (tget? s.net.sessions e.req.sess).isNone then s
  else match dispatchRefusal s e with
    | some (st, r) => refuseDispatch s e st r
    | none =>
      match readCommand s e with
      | some i =>
        let s1 := draw (draw s)
        { s1 with net := { s1.net with dispatched := s1.net.dispatched ++ [i] } }
      | none => refuseDispatch s e .malformed .ethOpcode

/-- COMMAND_DISPATCH (R526): the first entry of the queue that may be dispatched, unless the outbound store is full. -/
def execCommandDispatch (s : State) : Out :=
  .next (if storeFull s then s
    else match s.net.queue.find? (fun e => !heldBack s e) with
      | none => s
      | some e => dispatchEntry { s with net := { s.net with queue := s.net.queue.eraseP (fun x => !heldBack s x) } } e)

end Sys2Proof.Machine
end

