-- ==== Sys2Proof/Machine/RegAccess.lean ====
section
/-!
DEFINITION. Reading and writing the register space (14, 21): what every register reads, REG_READ and REG_WRITE with the
register writes of SENSOR_CFG and AUDIO_CFG, and DEVICE_INFO.
-/

namespace Sys2Proof.Machine

/-! ## What the read-only registers read -/

/-- A word of a window entry (R156). -/
def winWord (w : Win) (i : Nat) : Nat := match i with
  | 0 => w.state.code * 2 ^ 30 + w.slot * 2 ^ 25 + w.ctx * 2 ^ 16 + w.epoch
  | 1 => w.base
  | 2 => w.limit
  | 3 => w.writers
  | 4 => w.arrivals
  | 5 => w.threshold
  | 6 => w.discards
  | _ => ofBool w.waiting.isSome * 2 ^ 31 + w.rejects

/-- The window mirror of a home (R156), by offset from its first entry. -/
def mirrorWord (s : State) (home o : Nat) : Nat := winWord (winAt s (winKey home (o / 0x20))) (o % 0x20 / 4)

/-- The DEVICE block (R2, R133, R195, R751). -/
def deviceReg (s : State) (o : Nat) : Option Nat := match o with
  | 0x00 => some 1
  | 0x04 => some 0
  | 0x08 => some 0x8230
  | 0x0C => some 0xB0
  | 0x10 => some ((if s.ddr.inService then (populated s).length else 0) * 2 ^ 24 + ofBool s.pcie.ready * 2 ^ 16 + 0x3FF)
  | 0x14 => some (9 * 2 ^ 8 + maskOf ((List.range 8).filter (fun n => !s.fenced.contains n)))
  | 0x20 => some 0x00C0_0000
  | 0x24 => some 0x0200_0000
  | 0x28 => some 0x10_1008
  | 0x2C => some 0x0100_0040
  | 0x30 => some s.ddr.poolMib
  | _ => none

/-- The read-only registers of CLOCKS and RESET (R775). -/
def clkReg (s : State) (o : Nat) : Option Nat := match o with
  | 0x14 => some (locks s)
  | 0x18 => some (ofBool s.rst.fallback * 2 ^ 7 + s.rst.cause)
  | 0x20 => some 0
  | 0x24 => some 0
  | 0x30 => some 0
  | 0x34 => some 0
  | _ => none

/-- The read-only registers of POWER (R633). -/
def pwrReg (s : State) (o : Nat) : Option Nat :=
  let log := fun (k : Nat) => tget s.pwr.log {} k
  match o with
  | 0x14 => some (ofBool s.pwr.int4 * 2 ^ 7 + chipState s)
  | 0x18 => some s.pwr.up
  | 0x30 => some s.pwr.refused
  | 0x34 => some s.pwr.aborted
  | 0x38 => some s.pwr.logHead
  | _ =>
    if inWords o 0x40 32 then
      let e := log ((o - 0x40) / 8)
      if o % 8 = 0 then some (e.kind * 2 ^ 30 + e.target * 2 ^ 27 + e.cls * 2 ^ 24 + e.id) else some e.hours
    else none

/-- The slot map of the DDR4 channels (R591, R607): 4 bits a slot. -/
def slotMapWord (s : State) (k : Nat) : Nat :=
  ((List.range 8).map (fun j =>
    let p := (s.ctxs.find? (fun e => e.2.slotIdx.contains (8 * k + j))).map (fun e => e.2.partition)
    p.getD 0 * 2 ^ (4 * j))).sum

/-- The address registers of an error (R607): RANK, BG, BANK and ROW in bits [29:7], Reserved bits reading 0 (R13). -/
def errAddr (n : Nat) (line : Option Nat) (second : Bool) : Nat := match line with
  | none => 0
  | some l => if second then (Config.ddrColumn n l).toNat else bits (Config.ddrMap n l).toNat 29 7 * 2 ^ 7

/-- The read-only registers of the DDR block (R607). -/
def ddrReg (s : State) (o : Nat) : Option Nat :=
  if o = 0x8014 then some (s.ddr.done * 2 ^ 24 + s.ddr.failed * 2 ^ 16 + s.ddr.step * 2 ^ 12)
  else if o < 0x8000 then
    let n := o / 0x1000
    let c := chanAt s n
    match o % 0x1000 with
    | 0x004 => some (ofBool (s.ddr.inService && (populated s).contains n) * 2 + ofBool c.trained)
    | 0x020 => some c.ce
    | 0x024 => some c.ue
    | 0x028 => some (errAddr n c.ceLine false)
    | 0x02C => some (errAddr n c.ceLine true)
    | 0x030 => some (errAddr n c.ueLine false)
    | 0x034 => some (errAddr n c.ueLine true)
    | 0x140 => some c.last
    | q =>
      if inWords q 0x100 16 then some (tget c.delayed 0 ((q - 0x100) / 4))
      else if inWords q 0x180 8 then some (slotMapWord s ((q - 0x180) / 4))
      else none
  else none

/-- The Span shares held. -/
def spanShares (s : State) : Nat := (s.ctxs.map (fun e => (e.2.images.filter (fun i => (tget? i.2.shares 8).isSome)).length)).sum

/-- The VIADUCT and SPAN block (R751, R752). -/
def spanReg (s : State) (o : Nat) : Option Nat := match o with
  | 0x00 => some 1
  | 0x04 => some 0
  | 0x10 => some (bits s.pwr.up 31 16)
  | 0x14 => some (spanShares s)
  | _ => if inWords o 0x8000 0x800 then some (mirrorWord s 9 (o - 0x8000)) else none

/-- The context whose job's stage runs on a logical core. -/
def runningOn (s : State) (n : Nat) : Option Nat :=
  (s.ctxs.find? (fun e => match e.2.job with
    | some j => j.onCores && j.stages.any (fun r => r.core == n && decide (r.st ≠ .ended))
    | none => false)).map Prod.fst

/-- A logical core's page (R751, R752). -/
def coreReg (s : State) (n o : Nat) : Option Nat := match o with
  | 0x00 => some 1
  | 0x04 => some 0
  | 0x10 =>
    let run := runningOn s n
    some (physOf s n * 2 ^ 28 + ofBool (s.fenced.contains n) * 2 ^ 27 + ofBool (bit s.pwr.up n) * 2 ^ 26 +
      ofBool (bit s.pwr.gated n) * 2 ^ 25 + ofBool run.isSome * 2 ^ 24 + run.getD 0)
  | _ => if inWords o 0x8000 0x200 then some (mirrorWord s (physOf s n) (o - 0x8000)) else none

/-- A physical core's page (R751, R752). -/
def pcoreReg (s : State) (p o : Nat) : Option Nat := match o with
  | 0x00 => some 1
  | 0x04 => some 0
  | 0x10 =>
    let l := (List.range 8).find? (fun n => physOf s n == p)
    some (l.getD 15 * 2 ^ 28 + ofBool (l.any (fun n => bit s.pwr.up n)) * 2 ^ 27)
  | _ => none

/-- The read-only registers of CAMERA and ISP (R434). -/
def camReg (s : State) (o : Nat) : Option Nat :=
  if inWords o 0x1000 256 then
    if inWords (o % 0x100) 0x10 5 then some ((rxAt s (o % 0x1000 / 0x100)).errs.getD (o % 0x100 / 4 - 4) 0) else none
  else if inWords o 0x2000 128 then
    let t := strAt s (o % 0x1000 / 0x40)
    match o % 0x40 with
    | 0x10 => some t.frames
    | 0x14 => some t.dropped
    | 0x18 => some t.flagged
    | _ => none
  else if inWords o 0x8000 0x2000 ∧ o % 0x800 = 8 then some ((tget? s.cam.owners ((o - 0x8000) / 0x800)).getD 0)
  else none

/-- The read-only registers of AUDIO and WAYSIDE (R478). -/
def audReg (s : State) (o : Nat) : Option Nat := match o with
  | 0x60 => some (s.aud.owner.getD 0)
  | 0x70 => some s.aud.lostBlocks
  | 0x1030 => some s.aud.ringLost
  | 0x1034 => some s.aud.coalesced
  | 0x1038 => some (s.aud.index % 2 ^ 32)
  | 0x103C => some (s.aud.index / 2 ^ 32 % 2 ^ 8)
  | _ =>
    if inWords o 0x1020 4 then
      match tget? s.aud.phrases ((o - 0x1020) / 4) with
      | some p => some (2 ^ 31 + ofBool (phraseHolds p) * 2 ^ 30 + ofSigned 16 p.score)
      | none => some 0
    else if inWords o 0x1040 12 then
      let e := tget? s.aud.cascade ((o - 0x1040) / 0x10 + 1)
      match o % 0x10 with
      | 0 => some ((e.map (fun x => 2 ^ 31 + x.slot * 2 ^ 24 + x.ctx)).getD 0)
      | 4 => some ((e.map (fun x => x.space * 2 ^ 26 + x.win * 2 ^ 8)).getD 0)
      | 8 => some ((e.map CasEntry.linger).getD 2000)
      | _ => none
    else none

/-- The read-only registers of GUARDRAIL (R503). -/
def grdReg (s : State) (o : Nat) : Option Nat := match o with
  | 0x10 => some (ofBool s.grd.fault * 2 ^ 4 + s.grd.stopped)
  | 0x110 => some s.grd.frames
  | 0x114 => some s.grd.crcErr
  | 0x118 => some s.grd.stops
  | _ => if inWords o 0x20 4 then some (causeWord (tget s.grd.causes {} ((o - 0x20) / 4))) else none

/-- A word of a peer's register (R733). -/
def peerWord (p : Peer) : Nat :=
  (match p.state with
    | .absent => 0
    | .proving => 1
    | .up => 2
    | .lost => 3) * 2 ^ 30 + p.port * 2 ^ 28 + p.hops * 2 ^ 24 + p.retx

/-- A word of a lane's registers (R570). -/
def laneWord (l : Lane) (i : Nat) : Nat := match i with
  | 0 => ofBool l.enable
  | 1 => l.cfgReason.code * 2 ^ 16 + l.mode * 2 ^ 10 + ofBool (l.enable && l.sess.isNone) * 2 ^ 9 +
      ofBool l.opened.isSome * 2 ^ 8 + ofBool l.pend.isSome
  | 2 => l.owner.getD 0
  | 3 => l.sess.getD 0
  | 4 => l.level
  | 5 => l.idle
  | 6 => heldBytes l
  | _ => l.lost

/-- The read-only registers of ETHERNET and LANES (R510, R570, R733). -/
def ethReg (s : State) (o : Nat) : Option Nat := match o with
  | 0x90 => some s.net.rxDrop
  | 0x94 => some s.net.queue.length
  | 0x98 => some (storeHeld s)
  | 0x9C => some s.net.eventsLost
  | _ =>
    if inWords o 0x80 4 then
      let p := tget s.net.ports {} ((o - 0x80) / 4)
      some (ofBool p.link * 2 ^ 7 + p.speed * 2 ^ 4 + ofBool p.macsec * 2 ^ 3)
    else if inWords o 0x420 8 then some (peerWord (peerAt s ((o - 0x420) / 4)))
    else if inWords o 0x1000 256 then some (laneWord (laneAt s ((o - 0x1000) / 0x20)) (o % 0x20 / 4))
    else none

/-- The read-only registers of PCIE (R753). -/
def pcieReg (s : State) (o : Nat) : Option Nat := match o with
  | 0x14 => some (ofBool s.pcie.up * 2 ^ 31 + s.pcie.gen * 2 ^ 29 + s.pcie.width * 2 ^ 27 + ofBool s.pcie.ready * 2 ^ 26)
  | 0x18 => some s.pcie.granules
  | _ => none

/-- The TLAOG block (R668). -/
def secReg (s : State) (o : Nat) : Option Nat := match o with
  | 0x00 => some 1
  | 0x04 => some (s.sec.cfgReason.code * 2 ^ 16 + ofBool s.sec.error * 2 ^ 3 + ofBool s.sec.selfTest * 2 ^ 2)
  | 0x10 => some (configWord s)
  | 0x14 => some s.sec.minSvn
  | 0x18 => some s.sealedRegions.length
  | 0x20 => some s.sec.integrity
  | 0x24 => some s.sec.replay
  | 0x30 => some 0
  | 0x40 => some 0
  | 0x44 => some 0
  | _ => none

/-- The read-only registers of ODOMETER and TRAFFIC (R705). -/
def odoReg (s : State) (o : Nat) : Option Nat := match o with
  | 0x10 => some s.rel.odo.hours
  | 0x14 => some s.rel.odo.cycles
  | 0x18 => some (s.rel.odo.unavailMs % 2 ^ 32)
  | 0x1C => some (s.rel.odo.unavailMs / 2 ^ 32)
  | _ => none

/-- The read-only registers of RELIABILITY (R273, R704). -/
def relReg (s : State) (o : Nat) : Option Nat := match o with
  | 0x40 => some ((List.range 8).map (fun n => physOf s n * 2 ^ (4 * n))).sum
  | 0x44 => some (ofBool s.rel.consumed * 2 ^ 4 + s.rel.unmapped)
  | 0x48 => some (s.rel.lastCause * 2 ^ 9 + ofBool s.rel.reliefBad * 2 ^ 8 + maskOf s.fenced)
  | 0x64 => some s.rel.passes
  | 0x68 => some s.rel.fixed
  | 0x70 => some (ofBool s.rel.trial * 2 ^ 31 + ofBool s.rel.armed * 2 ^ 30 + s.rst.bootSlot * 2 ^ 29 + maskOf s.rel.staged)
  | 0x180 => some (tget s.rel.ce 0 9)
  | 0x184 => some (tget s.rel.ue 0 9)
  | 0x188 => some s.rel.ueAddr
  | _ =>
    if inWords o 0x100 9 then some (tget s.rel.ce 0 ((o - 0x100) / 4))
    else if inWords o 0x140 9 then some (tget s.rel.ue 0 ((o - 0x140) / 4))
    else none

/-- The read-only registers of every block, by address. -/
def roReg (s : State) (a : Nat) : Option Nat :=
  let o := a % 0x1_0000
  match a / 0x1_0000 with
  | 0x00 => deviceReg s o
  | 0x01 => clkReg s o
  | 0x02 => pwrReg s o
  | 0x03 => ddrReg s o
  | 0x04 => spanReg s o
  | 0x19 => if o < 0x9000 then pcoreReg s (o / 0x1000) (o % 0x1000) else none
  | 0x20 => camReg s o
  | 0x21 => audReg s o
  | 0x22 => grdReg s o
  | 0x23 => ethReg s o
  | 0x24 => pcieReg s o
  | 0x25 => secReg s o
  | 0x26 => odoReg s o
  | 0x27 => relReg s o
  | b => if 0x10 ≤ b ∧ b < 0x18 then coreReg s (b - 0x10) o else none

/-! ## Control and status words, and shadows (R738, R739) -/

/-- The block's own bits of a page's status word. -/
def statusOwn (s : State) (p : Nat) : Nat :=
  if p = 0x0002_0000 then ofBool s.pwr.entry.isSome * 4
  else if p = 0x0020_0000 then ofBool s.cam.muted * 8
  else if p = 0x0021_0000 then ofBool s.aud.muted * 8
  else if p = 0x0022_0000 then ofBool s.grd.weights.isSome * 4
  else if 0x0020_1000 ≤ p ∧ p < 0x0020_2000 then
    let r := rxAt s ((p - 0x0020_1000) / 0x100)
    ofBool r.present * 2 ^ 7 + ofBool (!s.cam.muted) * 2 ^ 6 + ofBool r.deskewed * 2 ^ 5 + ofBool r.ulps * 2 ^ 4
  else if 0x0020_8000 ≤ p ∧ p < 0x0021_0000 then
    let i := (p - 0x0020_8000) / 0x800
    ofBool (s.cam.running.any (fun r => r.1 == i)) * 8 + ofBool (tget? s.cam.owners i).isSome * 4
  else 0

/-- A page's status word. -/
def pageStatus (s : State) (p : Nat) : Nat :=
  let g := pageAt s p
  (statusWord g.cfgReason (statusOwn s p) g.frozenWrite g.pending).toNat

/-- The address of a crossing word, if it is one (R733). -/
def crossingReg (a : Nat) : Bool := inWords a 0x0023_0500 128

/-- What a crossing word reads: on a Branch the installed entries; elsewhere the shadow, with INSTALLED (R733). -/
def crossingWord (s : State) (a : Nat) : Nat :=
  let k := (a - 0x0023_0500) / 8
  let inst := tget? s.set.installed k
  if bits (live s 0x0023_0410) 31 30 = 2 then
    match inst with
    | none => 0
    | some c =>
      if a % 8 = 0 then 2 ^ 31 + ofBool c.mirror * 2 ^ 30 + 2 ^ 29 + c.devA * 2 ^ 24 + c.ctxA
      else c.devB * 2 ^ 24 + c.ctxB
  else if a % 8 = 0 then shadow s a + ofBool (inst.isSome && inst == some (crossingAt (live s) k)) * 2 ^ 29
  else shadow s a

/-- What a register reads; none when the address is in no register (R737). A read returns the shadow (R739), and a
write-only field reads 0. -/
def regView (s : State) (a : Nat) : Option Nat :=
  if a % 4 ≠ 0 then none
  else if isPage a then some (ofBool (pageOn s a))
  else if 4 ≤ a ∧ isPage (a - 4) then some (pageStatus s (a - 4))
  else if crossingReg a then some (crossingWord s a)
  else match regInfo a with
    | some _ => some (shadow s a)
    | none => roReg s a

/-! ## REG_READ (R535) -/

/-- The interface's access rule: port M every block, but of TLAOG its first 256 bytes (R668); the host interface the DEVICE
block and the pages that the command's context owns. -/
def mayRead (s : State) (rq : Req) (a : Nat) : Bool :=
  match rq.iface with
  | .mgmt => blockOf a != 0x25 || decide (a < 0x0025_0100)
  | .host => blockOf a == 0 ||
      (decide (0x0020_8000 ≤ a) && decide (a < 0x0021_0000) && tget? s.cam.owners ((a - 0x0020_8000) / 0x800) == some rq.ctx) ||
      (blockOf a == 0x21 && s.aud.owner == some rq.ctx)

/-- REG_READ: COUNT registers from ADDRESS on, or none. -/
def execRegRead (rq : Req) (addr count : Nat) (s : State) : Out :=
  let as := (List.range count).map (fun i => addr + 4 * i)
  let vs := as.map (fun a => if mayRead s rq a then regView s a else none)
  .next (if count = 0 ∨ 256 < count then replyD s rq 0x0010 .malformed .ethParam []
    else if vs.all Option.isSome then replyD s rq 0x0010 .ok .none (vs.flatMap (fun v => leBytes 4 (v.getD 0)))
    else replyD s rq 0x0010 .refused .ethRegAccess [])

/-! ## DEVICE_INFO (R534) -/

/-- The reply of DEVICE_INFO; FW_VERSION is the running firmware's own. -/
def deviceInfo (s : State) : Bytes :=
  let cfg := live s 0x0023_0410
  leBytes 2 0x8230 ++ leBytes 1 0xB0 ++ leBytes 1 (bits cfg 31 30) ++ leBytes 4 0x3FF ++ leBytes 4 s.ddr.poolMib ++
  leBytes 1 (if s.ddr.inService then (populated s).length else 0) ++ leBytes 1 (ofBool s.pcie.ready) ++
  leBytes 1 (bits cfg 26 24) ++ zeros 1 ++ (List.range 4).map (Config.deviceByte (2 + s.rst.bootSlot)) ++ zeros 4 ++
  deviceKeyDigest

/-- DEVICE_INFO. -/
def execDeviceInfo (rq : Req) (s : State) : Out := .next (replyD s rq 0x0002 .ok .none (deviceInfo s))

/-! ## Register writes (R535, R737, R740, R741) -/

/-- The progress of a command that writes registers: the registers written, the control words to act on, whether a save
and a warm restart were ordered, and the refusal that stopped it. -/
structure RegRun where
  state : State
  count : Nat := 0
  ctrls : List (Nat × Nat) := []
  save : Bool := false
  warm : Bool := false
  stop : Option Reason := none

/-- One register has taken its value. -/
def RegRun.wrote (r : RegRun) (s : State) : RegRun := { r with state := s, count := r.count + 1 }

/-- Write a register with an effect of its own (R660, R668, R771, R773), a read-only register, or nothing. -/
def writeSpecial (rq : Req) (r : RegRun) (a v : Nat) (w : Word) : RegRun :=
  let s := r.state
  if a = 0x0025_0030 then r.wrote (zeroiseWrite s v)
  else if a = 0x0025_0040 then r.wrote (cakSelect s v)
  else if a = 0x0025_0044 then r.wrote (cakWord s w)
  else if a = 0x0001_0020 ∧ v = 0x5752_5354 then
    (if warmBusy s then { r with stop := some .rstBusy } else { r.wrote s with warm := true })
  else if a = saveReg ∧ v = 0x4346_5356 then
    (if s.rst.saving.isSome then { r with stop := some .rstBusy } else { r.wrote (startSave s rq) with save := true })
  else if a = 0x0001_0030 ∨ a = 0x0001_0034 then
    let x := if a = 0x0001_0030 then recSelect s v else recWord s v
    if x.2.isSome then { r with stop := x.2 } else r.wrote x.1
  else if blockOf a = 0x25 ∨ (regView s a).isNone then { r with stop := some .ethRegWrite }
  else r.wrote s

/-- Write one register (R737): a control word acts later (R740), FROZEN_WRITE is cleared by a 1, a crossing word is refused
on a Branch (R713). -/
def writeOne (rq : Req) (allowed : Nat → Option Reason) (r : RegRun) (e : Nat × Word) : RegRun :=
  let a := e.1
  let v := e.2.toNat
  let s := r.state
  if r.stop.isSome || r.warm then r
  else match allowed a with
  | some x => { r with stop := some x }
  | none =>
    if isPage a then { r.wrote s with ctrls := r.ctrls ++ [(a, v % 4)] }
    else if 4 ≤ a ∧ isPage (a - 4) then
      r.wrote (if bit v 1 then modPage s (a - 4) (fun g => { g with frozenWrite := false }) else s)
    else match (if a % 4 = 0 then regInfo a else none) with
    | some i =>
      if crossingReg a ∧ bits (live s 0x0023_0410) 31 30 = 2 then { r with stop := some .setNotTrunk }
      else r.wrote (writeShadow s a v i)
    | none => writeSpecial rq r a v e.2

/-- Act on the ENABLE bit of a control word (R748, R749); an always-enabled page ignores it. -/
def applyEnable (x : State × Option Reason) (c : Nat × Nat) : State × Option Reason :=
  let r := if alwaysPages.contains c.1 then (x.1, none)
    else if bit c.2 0 then enableAny x.1 c.1 else disablePage x.1 c.1
  (r.1, if x.2.isSome then x.2 else r.2)

/-- The pages of which a commit is requested: an ENABLE written with COMMIT checks and transfers once (R750). -/
def commitPages (s : State) (ctrls : List (Nat × Nat)) : List Nat :=
  (ctrls.filter (fun c => bit c.2 1 && (alwaysPages.contains c.1 || !bit c.2 0 || pageOn s c.1))).map Prod.fst

/-- A command that writes registers (R740, R741, R744): the values in ascending address, then the ENABLE bits, then the
commit requests; the reply leaves when every commit has been taken or refused. -/
def regWrite (s : State) (rq : Req) (op addr : Nat) (values : List Word) (allowed : Nat → Option Reason) : State :=
  let es := (List.range values.length).map (fun i => (addr + 4 * i, values.getD i 0))
  let r := es.foldl (writeOne rq allowed) { state := s }
  let pages := commitPages r.state r.ctrls
  let x := r.ctrls.foldl applyEnable (r.state, r.stop)
  let left := pages ++ (if r.save then [saveReg] else [])
  if r.warm then warmRestart (regReply x.1 rq op r.count x.2)
  else if left.isEmpty then regReply x.1 rq op r.count x.2
  else
    let s1 := { x.1 with regs := { x.1.regs with
      waits := x.1.regs.waits ++ [{ req := rq, op := op, count := r.count, left := left, refusal := x.2 }] } }
    let s2 := pages.foldl requestCommit s1
    if s2.regs.waits.any (fun w => decide (w.req = rq)) then interim s2 rq op (if op = 0x0011 then 0 else rq.ctx) else s2

/-- REG_WRITE, accepted on port M (R535, R736, R737). -/
def execRegWrite (rq : Req) (addr : Nat) (values : List Word) (s : State) : Out :=
  .next (if values.isEmpty ∨ 256 < values.length then replyD s rq 0x0011 .malformed .ethParam []
    else regWrite s rq 0x0011 addr values (fun _ => none))

/-- The registers of SENSOR_CFG (R416, R737): the CAMERA and ISP block, an ISP context's page from its owner alone. -/
def sensorMay (s : State) (rq : Req) (a : Nat) : Option Reason :=
  if blockOf a ≠ 0x20 then some .ethRegWrite
  else if 0x0020_8000 ≤ a ∧ tget? s.cam.owners ((a - 0x0020_8000) / 0x800) ≠ some rq.ctx then some .ispOwner
  else none

/-- SENSOR_CFG with operation REG_WRITE (R416); writes outside the ISP context pages ignore the header's context. -/
def execSensorCfgRegWrite (rq : Req) (addr : Nat) (values : List Word) (s : State) : Out :=
  .next (if values.isEmpty ∨ 256 < values.length then replyAs s rq 0x0180 (if namesIsp addr values.length then rq.ctx else 0) .malformed .ethParam []
    else if namesIsp addr values.length then onCtx s rq 0x0180 (fun _ => regWrite s rq 0x0180 addr values (sensorMay s rq))
    else regWrite s { rq with ctx := 0 } 0x0180 addr values (sensorMay s rq))

/-- The registers of AUDIO_CFG (R448, R737): the AUDIO and WAYSIDE block, from the owner alone. -/
def audioMay (s : State) (rq : Req) (a : Nat) : Option Reason :=
  if blockOf a ≠ 0x21 then some .ethRegWrite
  else if s.aud.owner ≠ some rq.ctx then some .audOwner
  else none

/-- AUDIO_CFG with operation REG_WRITE (R448). -/
def execAudioCfgRegWrite (rq : Req) (addr : Nat) (values : List Word) (s : State) : Out :=
  .next (if values.isEmpty ∨ 256 < values.length then replyC s rq 0x0181 .malformed .ethParam []
    else onCtx s rq 0x0181 (fun _ => regWrite s rq 0x0181 addr values (audioMay s rq)))

end Sys2Proof.Machine
end

