-- ==== Sys2Proof/Machine/Dispatch.lean ====
section
/-!
DEFINITION. The dispatch of a command to its meaning: one arm per row of the opcode table.
-/

namespace Sys2Proof.Machine

def exec (i : Instr) (s : State) : Host.Outcome State Fault Refusal :=
  match i with
  | .helloOpen rq maxPayload events => Sys2Proof.Machine.execHelloOpen rq maxPayload events s
  | .helloProve rq keyDigest signature => Sys2Proof.Machine.execHelloProve rq keyDigest signature s
  | .helloRefresh rq => Sys2Proof.Machine.execHelloRefresh rq s
  | .helloEnd rq => Sys2Proof.Machine.execHelloEnd rq s
  | .deviceInfo rq => Sys2Proof.Machine.execDeviceInfo rq s
  | .regRead rq addr count => Sys2Proof.Machine.execRegRead rq addr count s
  | .regWrite rq addr values => Sys2Proof.Machine.execRegWrite rq addr values s
  | .powerVoteCast rq client domains => Sys2Proof.Machine.execPowerVoteCast rq client domains s
  | .powerVoteWithdraw rq client domains => Sys2Proof.Machine.execPowerVoteWithdraw rq client domains s
  | .powerVoteEnter rq client target => Sys2Proof.Machine.execPowerVoteEnter rq client target s
  | .powerStateGet rq => Sys2Proof.Machine.execPowerStateGet rq s
  | .ctxCreate rq params => Sys2Proof.Machine.execCtxCreate rq params s
  | .ctxDestroy rq => Sys2Proof.Machine.execCtxDestroy rq s
  | .ctxQuotaSet rq quotas => Sys2Proof.Machine.execCtxQuotaSet rq quotas s
  | .objAlloc rq flags tilesM1 storedM1 loc => Sys2Proof.Machine.execObjAlloc rq flags tilesM1 storedM1 loc s
  | .objFree rq handle => Sys2Proof.Machine.execObjFree rq handle s
  | .objWrite rq handle off data => Sys2Proof.Machine.execObjWrite rq handle off data s
  | .objRead rq handle len off => Sys2Proof.Machine.execObjRead rq handle len off s
  | .objPlacePlace rq handle tier core => Sys2Proof.Machine.execObjPlacePlace rq handle tier core s
  | .objPlaceRemove rq handle => Sys2Proof.Machine.execObjPlaceRemove rq handle s
  | .objPlacePin rq handle => Sys2Proof.Machine.execObjPlacePin rq handle s
  | .objPlaceUnpin rq handle => Sys2Proof.Machine.execObjPlaceUnpin rq handle s
  | .imageLoad rq image list bindCount handles => Sys2Proof.Machine.execImageLoad rq image list bindCount handles s
  | .imageUnload rq slot => Sys2Proof.Machine.execImageUnload rq slot s
  | .run rq slot param => Sys2Proof.Machine.execRun rq slot param s
  | .runCancel rq => Sys2Proof.Machine.execRunCancel rq s
  | .preemptYield rq => Sys2Proof.Machine.execPreemptYield rq s
  | .preemptPark rq => Sys2Proof.Machine.execPreemptPark rq s
  | .streamOpenNew rq args => Sys2Proof.Machine.execStreamOpenNew rq args s
  | .streamOpenResume rq args => Sys2Proof.Machine.execStreamOpenResume rq args s
  | .streamClosePause rq index => Sys2Proof.Machine.execStreamClosePause rq index s
  | .streamCloseEnd rq index => Sys2Proof.Machine.execStreamCloseEnd rq index s
  | .streamReset rq index => Sys2Proof.Machine.execStreamReset rq index s
  | .kvSeqFork rq child parent pfx geom => Sys2Proof.Machine.execKvSeqFork rq child parent pfx geom s
  | .kvSeqFree rq seq => Sys2Proof.Machine.execKvSeqFree rq seq s
  | .winOpen who space win slot base limit writers threshold => Sys2Proof.Machine.execWinOpen who space win slot base limit writers threshold s
  | .winClose who space win slot => Sys2Proof.Machine.execWinClose who space win slot s
  | .winWrite rq space win epoch slot off data => Sys2Proof.Machine.execWinWrite rq space win epoch slot off data s
  | .laneCfg rq lane mode enable level idle => Sys2Proof.Machine.execLaneCfg rq lane mode enable level idle s
  | .laneFlush rq lane => Sys2Proof.Machine.execLaneFlush rq lane s
  | .sensorCfgBind rq isp owner => Sys2Proof.Machine.execSensorCfgBind rq isp owner s
  | .sensorCfgRegWrite rq addr values => Sys2Proof.Machine.execSensorCfgRegWrite rq addr values s
  | .i3cXfer rq xfer bus => Sys2Proof.Machine.execI3cXfer rq xfer bus s
  | .audioCfgBind rq owner => Sys2Proof.Machine.execAudioCfgBind rq owner s
  | .audioCfgRegWrite rq addr values => Sys2Proof.Machine.execAudioCfgRegWrite rq addr values s
  | .cascade rq entry mask space win linger => Sys2Proof.Machine.execCascade rq entry mask space win linger s
  | .wakePhraseLoad rq phrase handle len off => Sys2Proof.Machine.execWakePhraseLoad rq phrase handle len off s
  | .attest rq nonce off len => Sys2Proof.Machine.execAttest rq nonce off len s
  | .accountRead rq => Sys2Proof.Machine.execAccountRead rq s
  | .odometerRead rq cursor len => Sys2Proof.Machine.execOdometerRead rq cursor len s
  | .countersRead rq select => Sys2Proof.Machine.execCountersRead rq select s
  | .fwStage rq target total off data => Sys2Proof.Machine.execFwStage rq target total off data s
  | .fwActivateArm rq target cores => Sys2Proof.Machine.execFwActivateArm rq target cores s
  | .fwActivateConfirm rq target => Sys2Proof.Machine.execFwActivateConfirm rq target s
  | .fwActivateDisarm rq target => Sys2Proof.Machine.execFwActivateDisarm rq target s
  | .coreFence rq core => Sys2Proof.Machine.execCoreFence rq core s
  | .coreRepair rq core sound => Sys2Proof.Machine.execCoreRepair rq core sound s
  | .loadWeights rq weights => Sys2Proof.Machine.execLoadWeights rq weights s
  | .release rq outputs => Sys2Proof.Machine.execRelease rq outputs s
  | .deepOverride rq => Sys2Proof.Machine.execDeepOverride rq s
  | .commit page => Sys2Proof.Machine.execCommit page s
  | .safePointCommit page => Sys2Proof.Machine.execSafePointCommit page s
  | .enable page => Sys2Proof.Machine.execEnable page s
  | .enableClear page => Sys2Proof.Machine.execEnableClear page s
  | .ddrCtrlEnable => Sys2Proof.Machine.execDdrCtrlEnable s
  | .grdEnable => Sys2Proof.Machine.execGrdEnable s
  | .grdDisable => Sys2Proof.Machine.execGrdDisable s
  | .ispContextEnable isp => Sys2Proof.Machine.execIspContextEnable isp s
  | .pcieEnable link => Sys2Proof.Machine.execPcieEnable link s
  | .tlaogZeroise value => Sys2Proof.Machine.execTlaogZeroise value s
  | .tlaogCakData value => Sys2Proof.Machine.execTlaogCakData value s
  | .rstWarm rq => Sys2Proof.Machine.execRstWarm rq s
  | .rstCfgSave rq => Sys2Proof.Machine.execRstCfgSave rq s
  | .rstRecSel rq value => Sys2Proof.Machine.execRstRecSel rq value s
  | .rstRecData rq value => Sys2Proof.Machine.execRstRecData rq value s
  | .datagramReceive dgram => Sys2Proof.Machine.execDatagramReceive dgram s
  | .commandDispatch => Sys2Proof.Machine.execCommandDispatch s
  | .outboundRetransmit sess num => Sys2Proof.Machine.execOutboundRetransmit sess num s
  | .sessionIdleTimeout sess => Sys2Proof.Machine.execSessionIdleTimeout sess s
  | .eventsLostReport => Sys2Proof.Machine.execEventsLostReport s
  | .ethLinkUp port link => Sys2Proof.Machine.execEthLinkUp port link s
  | .ethLinkDown port => Sys2Proof.Machine.execEthLinkDown port s
  | .engineDescriptorPush core slot group off => Sys2Proof.Machine.execEngineDescriptorPush core slot group off s
  | .engineDescriptorStart core group => Sys2Proof.Machine.execEngineDescriptorStart core group s
  | .engineDescriptorComplete core group => Sys2Proof.Machine.execEngineDescriptorComplete core group s
  | .coreJunctionBeat core => Sys2Proof.Machine.execCoreJunctionBeat core s
  | .viewFence core slot => Sys2Proof.Machine.execViewFence core slot s
  | .windowWriteCheck hdr => Sys2Proof.Machine.execWindowWriteCheck hdr s
  | .windowWriteLand flight => Sys2Proof.Machine.execWindowWriteLand flight s
  | .winWait core slot space win threshold => Sys2Proof.Machine.execWinWait core slot space win threshold s
  | .winCloseComplete space entry => Sys2Proof.Machine.execWinCloseComplete space entry s
  | .convoyDescriptorPush core slot off => Sys2Proof.Machine.execConvoyDescriptorPush core slot off s
  | .convoyDescriptorCheck core queue => Sys2Proof.Machine.execConvoyDescriptorCheck core queue s
  | .convoyTileIssue core queue => Sys2Proof.Machine.execConvoyTileIssue core queue s
  | .convoyTileLand core queue => Sys2Proof.Machine.execConvoyTileLand core queue s
  | .convoyDescriptorComplete core queue => Sys2Proof.Machine.execConvoyDescriptorComplete core queue s
  | .spanBankPowerUp bank => Sys2Proof.Machine.execSpanBankPowerUp bank s
  | .zeroFillComplete ctx handle => Sys2Proof.Machine.execZeroFillComplete ctx handle s
  | .keyRetirement ctx => Sys2Proof.Machine.execKeyRetirement ctx s
  | .prefetchIssue ctx slot => Sys2Proof.Machine.execPrefetchIssue ctx slot s
  | .stageBoundary core slot => Sys2Proof.Machine.execStageBoundary core slot s
  | .preemptionPoint core slot => Sys2Proof.Machine.execPreemptionPoint core slot s
  | .phaseEnd ctx succ => Sys2Proof.Machine.execPhaseEnd ctx succ s
  | .reshardStart ctx => Sys2Proof.Machine.execReshardStart ctx s
  | .reshardStepComplete ctx => Sys2Proof.Machine.execReshardStepComplete ctx s
  | .jctBeatSend core slot group row off => Sys2Proof.Machine.execJctBeatSend core slot group row off s
  | .jctBeatAccept => Sys2Proof.Machine.execJctBeatAccept s
  | .jctRowWrite ctx group row => Sys2Proof.Machine.execJctRowWrite ctx group row s
  | .pipeJctStuck ctx group => Sys2Proof.Machine.execPipeJctStuck ctx group s
  | .kvWalkRequest core slot off => Sys2Proof.Machine.execKvWalkRequest core slot off s
  | .scanChunkRequest core slot off => Sys2Proof.Machine.execScanChunkRequest core slot off s
  | .scanChunkComplete core slot => Sys2Proof.Machine.execScanChunkComplete core slot s
  | .anchorWritebackLand ctx index => Sys2Proof.Machine.execAnchorWritebackLand ctx index s
  | .quantumExpire => Sys2Proof.Machine.execQuantumExpire s
  | .jobComplete ctx => Sys2Proof.Machine.execJobComplete ctx s
  | .bringIn ctx => Sys2Proof.Machine.execBringIn ctx s
  | .schedNoBoundary ctx => Sys2Proof.Machine.execSchedNoBoundary ctx s
  | .ctxRemoteTimeout ctx core slot => Sys2Proof.Machine.execCtxRemoteTimeout ctx core slot s
  | .csiFrameStart rx head frame => Sys2Proof.Machine.execCsiFrameStart rx head frame s
  | .csiLine rx vc dt data errs => Sys2Proof.Machine.execCsiLine rx vc dt data errs s
  | .csiFrameEnd rx head => Sys2Proof.Machine.execCsiFrameEnd rx head s
  | .camPresenceChange rx lanes => Sys2Proof.Machine.execCamPresenceChange rx lanes s
  | .camMuteOn => Sys2Proof.Machine.execCamMuteOn s
  | .camMuteOff => Sys2Proof.Machine.execCamMuteOff s
  | .ispUnitStart isp => Sys2Proof.Machine.execIspUnitStart isp s
  | .ispUnitComplete isp => Sys2Proof.Machine.execIspUnitComplete isp s
  | .ispRotaSlotEnd => Sys2Proof.Machine.execIspRotaSlotEnd s
  | .i3cIbi ctrl addr payload => Sys2Proof.Machine.execI3cIbi ctrl addr payload s
  | .i3cHotJoin ctrl => Sys2Proof.Machine.execI3cHotJoin ctrl s
  | .spotterFrameEnd pdm => Sys2Proof.Machine.execSpotterFrameEnd pdm s
  | .holdMaxExpire => Sys2Proof.Machine.execHoldMaxExpire s
  | .audioBlockEnd path time => Sys2Proof.Machine.execAudioBlockEnd path time s
  | .prerollDelivery => Sys2Proof.Machine.execPrerollDelivery s
  | .micMuteOn => Sys2Proof.Machine.execMicMuteOn s
  | .micMuteOff => Sys2Proof.Machine.execMicMuteOff s
  | .settlingEnd => Sys2Proof.Machine.execSettlingEnd s
  | .cascadeDone entry => Sys2Proof.Machine.execCascadeDone entry s
  | .lingerExpire entry => Sys2Proof.Machine.execLingerExpire entry s
  | .sensorPoll slot => Sys2Proof.Machine.execSensorPoll slot s
  | .sensorFrame slot data => Sys2Proof.Machine.execSensorFrame slot data s
  | .grdInActive levels => Sys2Proof.Machine.execGrdInActive levels s
  | .grdStale slot => Sys2Proof.Machine.execGrdStale slot s
  | .heartbeatToggle => Sys2Proof.Machine.execHeartbeatToggle s
  | .grdParityCheck ok => Sys2Proof.Machine.execGrdParityCheck ok s
  | .gclkGap => Sys2Proof.Machine.execGclkGap s
  | .dockNEdge level => Sys2Proof.Machine.execDockNEdge level s
  | .lanePut core slot lane off len close => Sys2Proof.Machine.execLanePut core slot lane off len close s
  | .laneHandover lane => Sys2Proof.Machine.execLaneHandover lane s
  | .laneIdleExpire lane => Sys2Proof.Machine.execLaneIdleExpire lane s
  | .ddrTrainingComplete failed step => Sys2Proof.Machine.execDdrTrainingComplete failed step s
  | .ddrMaintenanceFrame => Sys2Proof.Machine.execDdrMaintenanceFrame s
  | .ddrRequestPresent req => Sys2Proof.Machine.execDdrRequestPresent req s
  | .ddrRequestComplete channel id ecc => Sys2Proof.Machine.execDdrRequestComplete channel id ecc s
  | .refreshWindowStart => Sys2Proof.Machine.execRefreshWindowStart s
  | .patrolScrubRead channel ecc => Sys2Proof.Machine.execPatrolScrubRead channel ecc s
  | .domainDelayExpire domain => Sys2Proof.Machine.execDomainDelayExpire domain s
  | .coreIdleGate core => Sys2Proof.Machine.execCoreIdleGate core s
  | .corePowerUpComplete core => Sys2Proof.Machine.execCorePowerUpComplete core s
  | .wakeNFall => Sys2Proof.Machine.execWakeNFall s
  | .deepTimerExpire => Sys2Proof.Machine.execDeepTimerExpire s
  | .deepExit ok => Sys2Proof.Machine.execDeepExit ok s
  | .tableRestore => Sys2Proof.Machine.execTableRestore s
  | .int4Limit above => Sys2Proof.Machine.execInt4Limit above s
  | .envelopeGlide => Sys2Proof.Machine.execEnvelopeGlide s
  | .thermN temp => Sys2Proof.Machine.execThermN temp s
  | .thermalTrip => Sys2Proof.Machine.execThermalTrip s
  | .secTamper => Sys2Proof.Machine.execSecTamper s
  | .periodicSelfTest pass => Sys2Proof.Machine.execPeriodicSelfTest pass s
  | .mgmtWatchdogExpire => Sys2Proof.Machine.execMgmtWatchdogExpire s
  | .autoFence core cause => Sys2Proof.Machine.execAutoFence core cause s
  | .trialTimeout => Sys2Proof.Machine.execTrialTimeout s
  | .hourUnitTick => Sys2Proof.Machine.execHourUnitTick s
  | .odometerSample id value => Sys2Proof.Machine.execOdometerSample id value s
  | .odometerPersist => Sys2Proof.Machine.execOdometerPersist s
  | .setSessionOpen peer => Sys2Proof.Machine.execSetSessionOpen peer s
  | .setRefresh peer => Sys2Proof.Machine.execSetRefresh peer s
  | .setPeerDown peer => Sys2Proof.Machine.execSetPeerDown peer s
  | .crossingInstall k a b => Sys2Proof.Machine.execCrossingInstall k a b s
  | .remoteWriteReceive peer seq payload => Sys2Proof.Machine.execRemoteWriteReceive peer seq payload s
  | .settlementPacket peer => Sys2Proof.Machine.execSettlementPacket peer s
  | .remoteWriteRetransmit peer => Sys2Proof.Machine.execRemoteWriteRetransmit peer s
  | .settlementReceive peer link report => Sys2Proof.Machine.execSettlementReceive peer link report s
  | .attestReportTimeout ctx peer => Sys2Proof.Machine.execAttestReportTimeout ctx peer s
  | .porstN boot => Sys2Proof.Machine.execPorstN boot s
  | .refclkInterruption => Sys2Proof.Machine.execRefclkInterruption s
  | .pllLoss pll => Sys2Proof.Machine.execPllLoss pll s
  | .pcieLinkDown => Sys2Proof.Machine.execPcieLinkDown s
  | .pcieLinkUp gen width => Sys2Proof.Machine.execPcieLinkUp gen width s
  | .porstNAsserted => Sys2Proof.Machine.execPorstNAsserted s
  | .refclkStable => Sys2Proof.Machine.execRefclkStable s
  | .deckIslandPowerUp core => Sys2Proof.Machine.execDeckIslandPowerUp core s
  | .pwrMainEnMinimumLowEnd => Sys2Proof.Machine.execPwrMainEnMinimumLowEnd s
  | .pwrOnMinimumLowEnd => Sys2Proof.Machine.execPwrOnMinimumLowEnd s

end Sys2Proof.Machine
end

