-- ==== Sys2Proof/Machine/Idle.lean ====
section
/-!
DEFINITION. What the block goes on with while no command waits (assumption log, entry 12): work that the spec carries
out by itself once its conditions hold and to which the opcode table gives no row of its own.
-/

namespace Sys2Proof.Machine

/-- Every lane goes on: unsent bytes are sent, the packet boundary acts, and waiting puts are tried (R549, R559, R565). -/
def carryLanes (s : State) : State := (s.lanes.map Prod.fst).foldl (fun a n => carryLane a n false) s

/-- The low pulse of WAKE_N is over. -/
def endWake (s : State) : State := { s with pwr := { s.pwr with wakeLow := false } }

/-- The next dispatched command runs: it comes to the front of the queue (R526). -/
def takeDispatched (s : State) : State :=
  match s.net.dispatched with
  | [] => s
  | i :: r => { s with pending := s.pending ++ [i], net := { s.net with dispatched := r } }

/-- Queued in-band interrupts are reported, one of each controller (R439). -/
def reportIbis (s : State) : State := reportIbi (reportIbi s 0) 1

/-- The tick: an upset may strike (R678); entry to DEEP or OFF (R622), the end of a trial (R694), clocks of busy cores (R616), fences and repairs (R683, R687), the save
of the configuration region (R771), in-band interrupts (R439), lanes, gathered reports (R730), and the next dispatched command. -/
def idle (s : State) : State :=
  takeDispatched (gatherReport (carryLanes (reportIbis (carrySave (carryFence (carryRepair (ungateBusy (endWake (carryRevert (carryEntry (strike s)))))))))))

end Sys2Proof.Machine
end

