-- ==== Sys2Proof/WellFormed.lean ====
section
/-!
DEFINITION. Well-formed commands: every operand fits the field or the index range that the spec gives it. The
meanings are total; a refusal by value is theirs, and only what no packet, register or pin can carry is ill-formed.
-/

namespace Sys2Proof

/-- A number fits a field of `w` bits. -/
def fits (w n : Nat) : Bool := decide (n < 2 ^ w)

/-- A number is an index below `k`. -/
def below (k n : Nat) : Bool := decide (n < k)

/-- A byte string of a fixed length. -/
def sized (n : Nat) (b : Bytes) : Bool := b.length == n

/-- The header of a command: port M belongs to the management interface alone (R506, R509), and the fields fit (R512). -/
def reqOk (r : Req) : Bool :=
  (match r.iface with
   | .host => below 3 r.port
   | .mgmt => r.port == 3) &&
  fits 32 r.sess && fits 128 r.src && fits 16 r.sport && fits 32 r.seq && below 512 r.ctx

/-- Who asks for a window: a host request names a slot of its context; a stage program runs on one of the eight cores,
for an image of slots 0 to 2 (R158). -/
def whoOk (who : WinBy) (slot : Nat) : Bool :=
  match who with
  | .host rq => reqOk rq && fits 8 slot
  | .stage core => below 8 core && below 3 slot

/-- The header of a CSI-2 short packet. -/
def headOk (h : CsiHead) : Bool := below 16 h.vc && below 4 h.errs

/-- The header of a window write (R157): its data are 1 to 4,096 bytes, and a pitch holds whole rows (R206). -/
def hdrOk (h : WinHdr) : Bool :=
  below 9 h.space && below 512 h.ctx && below 4 h.slot && fits 8 h.win && fits 8 h.epoch && fits 32 h.off &&
  decide (1 ≤ h.data.length) && below 4097 h.data.length

/-- The parameters of CTX_CREATE (R536). -/
def ctxParamsOk (p : CtxParams) : Bool :=
  fits 8 p.sealed && fits 8 p.cores && fits 8 p.spanBanks && fits 8 p.ddrSlots && fits 32 p.boundUs &&
  fits 32 p.remoteMs && fits 32 p.quantumUs

/-- The quotas of CTX_QUOTA_SET (R536). -/
def quotasOk (q : Quotas) : Bool :=
  q.t1.length == 8 && q.t1.all (fits 32) && fits 32 q.t2 && fits 16 q.streams && fits 64 q.t3 && fits 64 q.t4

/-- The page geometry of KV_SEQ_FORK (R540). -/
def geomOk (g : KvGeom) : Bool :=
  fits 32 g.maxTokens && fits 8 g.layers && fits 8 g.slices && fits 8 g.fmtK && fits 8 g.fmtV && fits 8 g.coding

/-- The parameters of STREAM_OPEN (R540). -/
def streamArgsOk (a : StreamArgs) : Bool :=
  fits 16 a.index && fits 8 a.options && fits 16 a.channels && fits 8 a.homeCore && fits 16 a.aObject

/-- The parameters of I3C_XFER (R542). -/
def i3cOk (a : I3cArgs) : Bool :=
  fits 8 a.ctrl && fits 8 a.kind && fits 8 a.addr && fits 8 a.ccc && below 8181 a.wdata.length && fits 16 a.readLen

/-- What a link partner offers (R753). -/
def linkOk (l : PcieLink) : Bool := below 4 l.gen && below 4 l.width && fits 32 l.granules

/-- The levels of the four PDM data pins on both edges of their clock (R441). -/
def pdmOk (p : Pdm) : Bool := fits 4 p.rise && fits 4 p.fall

/-- A received frame (R506, R509): its port belongs to its interface, and its fields fit. -/
def datagramOk (d : Datagram) : Bool :=
  (match d.iface with
   | .host => below 3 d.port
   | .mgmt => d.port == 3) &&
  fits 128 d.src && fits 16 d.sport && fits 128 d.dst && fits 16 d.dport && fits 48 d.smac && below 65536 d.bytes.length &&
  (match d.tag with
   | none => true
   | some (pcp, vid) => fits 3 pcp && fits 12 vid) &&
  (match d.dmac with
   | .station m => fits 48 m
   | .own => true
   | .group => true)

/-- A request to a DDR4 channel (R587): 1 to 4 lines of 64 bytes. -/
def ddrReqOk (r : DdrReq) : Bool :=
  below 8 r.channel && below 16 r.port && below 512 r.ctx && decide (1 ≤ r.lines) && below 5 r.lines &&
  (!r.write || r.data.length == 64 * r.lines)

/-- What a cold boot meets: two slots, nine cores and two copies (R767). -/
def bootOk (b : BootInput) : Bool := b.slotOk.length == 2 && b.cores.length == 9 && b.copies.length == 2

/-- Register values: 1 to 256 fit a packet with room to spare; COUNT itself is judged by the command (R534). -/
def valuesOk (v : List Word) : Bool := below 2048 v.length

/-- A command whose operands fit. -/
def wellFormed : Instr → Bool
  | .helloOpen rq maxPayload _ => reqOk rq && fits 16 maxPayload
  | .helloProve rq keyDigest signature => reqOk rq && sized 64 keyDigest && sized 3309 signature
  | .helloRefresh rq => reqOk rq
  | .helloEnd rq => reqOk rq
  | .deviceInfo rq => reqOk rq
  | .regRead rq addr count => reqOk rq && fits 32 addr && fits 16 count
  | .regWrite rq addr values => reqOk rq && fits 32 addr && valuesOk values
  | .powerVoteCast rq client domains => reqOk rq && fits 8 client && fits 32 domains
  | .powerVoteWithdraw rq client domains => reqOk rq && fits 8 client && fits 32 domains
  | .powerVoteEnter rq client target => reqOk rq && fits 8 client && fits 8 target
  | .powerStateGet rq => reqOk rq
  | .ctxCreate rq params => reqOk rq && ctxParamsOk params
  | .ctxDestroy rq => reqOk rq
  | .ctxQuotaSet rq quotas => reqOk rq && quotasOk quotas
  | .objAlloc rq flags tilesM1 storedM1 loc => reqOk rq && fits 32 flags && fits 32 tilesM1 && fits 32 storedM1 && fits 32 loc
  | .objFree rq handle => reqOk rq && fits 16 handle
  | .objWrite rq handle off data => reqOk rq && fits 16 handle && fits 64 off && below 8177 data.length
  | .objRead rq handle len off => reqOk rq && fits 16 handle && fits 32 len && fits 64 off
  | .objPlacePlace rq handle tier core => reqOk rq && fits 16 handle && fits 8 tier && fits 8 core
  | .objPlaceRemove rq handle => reqOk rq && fits 16 handle
  | .objPlacePin rq handle => reqOk rq && fits 16 handle
  | .objPlaceUnpin rq handle => reqOk rq && fits 16 handle
  | .imageLoad rq image list bindCount handles => reqOk rq && fits 16 image && fits 16 list && fits 16 bindCount && handles.all (fits 16) && below 4093 handles.length
  | .imageUnload rq slot => reqOk rq && fits 8 slot
  | .run rq slot param => reqOk rq && fits 8 slot && fits 64 param
  | .runCancel rq => reqOk rq
  | .preemptYield rq => reqOk rq
  | .preemptPark rq => reqOk rq
  | .streamOpenNew rq args => reqOk rq && streamArgsOk args
  | .streamOpenResume rq args => reqOk rq && streamArgsOk args
  | .streamClosePause rq index => reqOk rq && fits 16 index
  | .streamCloseEnd rq index => reqOk rq && fits 16 index
  | .streamReset rq index => reqOk rq && fits 16 index
  | .kvSeqFork rq child parent pfx geom => reqOk rq && fits 16 child && fits 16 parent && fits 32 pfx && geomOk geom
  | .kvSeqFree rq seq => reqOk rq && fits 16 seq
  | .winOpen who space win slot base limit writers threshold => whoOk who slot && fits 8 space && fits 8 win && fits 32 base && fits 32 limit && fits 32 writers && fits 32 threshold
  | .winClose who space win slot => whoOk who slot && fits 8 space && fits 8 win
  | .winWrite rq space win epoch slot off data => reqOk rq && fits 8 space && fits 8 win && fits 8 epoch && fits 8 slot && fits 32 off && below 4097 data.length
  | .laneCfg rq lane mode enable level idle => reqOk rq && fits 8 lane && fits 8 mode && fits 8 enable && fits 32 level && fits 32 idle
  | .laneFlush rq lane => reqOk rq && fits 8 lane
  | .sensorCfgBind rq isp owner => reqOk rq && fits 8 isp && fits 16 owner
  | .sensorCfgRegWrite rq addr values => reqOk rq && fits 32 addr && valuesOk values
  | .i3cXfer rq xfer _ => reqOk rq && i3cOk xfer
  | .audioCfgBind rq owner => reqOk rq && fits 16 owner
  | .audioCfgRegWrite rq addr values => reqOk rq && fits 32 addr && valuesOk values
  | .cascade rq entry mask space win linger => reqOk rq && fits 8 entry && fits 8 mask && fits 8 space && fits 8 win && fits 16 linger
  | .wakePhraseLoad rq phrase handle len off => reqOk rq && fits 8 phrase && fits 16 handle && fits 32 len && fits 64 off
  | .attest rq nonce off len => reqOk rq && sized 32 nonce && fits 32 off && fits 32 len
  | .accountRead rq => reqOk rq
  | .odometerRead rq cursor len => reqOk rq && fits 32 cursor && fits 32 len
  | .countersRead rq select => reqOk rq && fits 32 select
  | .fwStage rq target total off data => reqOk rq && fits 8 target && fits 32 total && fits 64 off && below 8177 data.length
  | .fwActivateArm rq target cores => reqOk rq && fits 8 target && fits 8 cores
  | .fwActivateConfirm rq target => reqOk rq && fits 16 target
  | .fwActivateDisarm rq target => reqOk rq && fits 16 target
  | .coreFence rq core => reqOk rq && fits 8 core
  | .coreRepair rq core _ => reqOk rq && fits 8 core
  | .loadWeights rq weights => reqOk rq && sized 1392 weights
  | .release rq outputs => reqOk rq && fits 8 outputs
  | .deepOverride rq => reqOk rq
  | .commit page => fits 32 page
  | .safePointCommit page => fits 32 page
  | .enable page => fits 32 page
  | .enableClear page => fits 32 page
  | .ddrCtrlEnable => true
  | .grdEnable => true
  | .grdDisable => true
  | .ispContextEnable isp => below 16 isp
  | .pcieEnable link => linkOk link
  | .tlaogZeroise _ => true
  | .tlaogCakData _ => true
  | .rstWarm rq => reqOk rq
  | .rstCfgSave rq => reqOk rq
  | .rstRecSel rq _ => reqOk rq
  | .rstRecData rq _ => reqOk rq
  | .datagramReceive dgram => datagramOk dgram
  | .commandDispatch => true
  | .outboundRetransmit sess num => fits 32 sess && fits 32 num
  | .sessionIdleTimeout sess => fits 32 sess
  | .eventsLostReport => true
  | .ethLinkUp port link => below 4 port && below 5 link.speed
  | .ethLinkDown port => below 4 port
  | .engineDescriptorPush core slot group off => below 9 core && below 3 slot && fits 8 group && fits 32 off
  | .engineDescriptorStart core group => below 9 core && fits 8 group
  | .engineDescriptorComplete core group => below 9 core && fits 8 group
  | .coreJunctionBeat core => below 9 core
  | .viewFence core slot => below 9 core && below 3 slot
  | .windowWriteCheck hdr => hdrOk hdr
  | .windowWriteLand _ => true
  | .winWait core slot space win threshold => below 9 core && below 3 slot && below 9 space && fits 8 win && threshold.all (fits 32)
  | .winCloseComplete space entry => below 9 space && below 256 entry
  | .convoyDescriptorPush core slot off => below 9 core && below 3 slot && fits 32 off
  | .convoyDescriptorCheck core queue => below 9 core && below 4 queue
  | .convoyTileIssue core queue => below 9 core && below 4 queue
  | .convoyTileLand core queue => below 9 core && below 4 queue
  | .convoyDescriptorComplete core queue => below 9 core && below 4 queue
  | .spanBankPowerUp bank => below 16 bank
  | .zeroFillComplete ctx handle => below 512 ctx && below 65535 handle
  | .keyRetirement ctx => below 512 ctx
  | .prefetchIssue ctx slot => below 512 ctx && below 4 slot
  | .stageBoundary core slot => below 9 core && below 3 slot
  | .preemptionPoint core slot => below 9 core && below 3 slot
  | .phaseEnd ctx succ => below 512 ctx && succ.all (fits 8)
  | .reshardStart ctx => below 512 ctx
  | .reshardStepComplete ctx => below 512 ctx
  | .jctBeatSend core slot group row off => below 9 core && below 3 slot && fits 8 group && fits 32 row && fits 32 off
  | .jctBeatAccept => true
  | .jctRowWrite ctx group row => below 512 ctx && fits 8 group && fits 32 row
  | .pipeJctStuck ctx group => below 512 ctx && fits 8 group
  | .kvWalkRequest core slot off => below 9 core && below 3 slot && fits 32 off
  | .scanChunkRequest core slot off => below 9 core && below 3 slot && fits 32 off
  | .scanChunkComplete core slot => below 9 core && below 3 slot
  | .anchorWritebackLand ctx index => below 512 ctx && fits 16 index
  | .quantumExpire => true
  | .jobComplete ctx => below 512 ctx
  | .bringIn ctx => below 512 ctx
  | .schedNoBoundary ctx => below 512 ctx
  | .ctxRemoteTimeout ctx core slot => below 512 ctx && below 9 core && below 3 slot
  | .csiFrameStart rx head frame => below 4 rx && headOk head && fits 16 frame
  | .csiLine rx vc dt _ errs => below 4 rx && below 16 vc && below 64 dt && below 4 errs
  | .csiFrameEnd rx head => below 4 rx && headOk head
  | .camPresenceChange rx _ => below 4 rx
  | .camMuteOn => true
  | .camMuteOff => true
  | .ispUnitStart isp => below 16 isp
  | .ispUnitComplete isp => below 16 isp
  | .ispRotaSlotEnd => true
  | .i3cIbi ctrl addr payload => below 2 ctrl && below 128 addr && below 9 payload.length
  | .i3cHotJoin ctrl => below 2 ctrl
  | .spotterFrameEnd pdm => pdm.all pdmOk && below 30721 pdm.length
  | .holdMaxExpire => true
  | .audioBlockEnd path time => below 2 path && fits 64 time
  | .prerollDelivery => true
  | .micMuteOn => true
  | .micMuteOff => true
  | .settlingEnd => true
  | .cascadeDone entry => below 4 entry
  | .lingerExpire entry => below 4 entry
  | .sensorPoll slot => below 8 slot
  | .sensorFrame slot data => below 8 slot && below 65 data.length
  | .grdInActive levels => below 16 levels
  | .grdStale slot => below 8 slot
  | .heartbeatToggle => true
  | .grdParityCheck _ => true
  | .gclkGap => true
  | .dockNEdge _ => true
  | .lanePut core slot lane off len _ => below 9 core && below 3 slot && below 32 lane && fits 32 off && fits 32 len
  | .laneHandover lane => below 32 lane
  | .laneIdleExpire lane => below 32 lane
  | .ddrTrainingComplete failed step => fits 8 failed && fits 8 step
  | .ddrMaintenanceFrame => true
  | .ddrRequestPresent req => ddrReqOk req
  | .ddrRequestComplete channel id _ => below 8 channel && fits 32 id
  | .refreshWindowStart => true
  | .patrolScrubRead channel _ => below 8 channel
  | .domainDelayExpire domain => below 32 domain
  | .coreIdleGate core => below 9 core
  | .corePowerUpComplete core => below 9 core
  | .wakeNFall => true
  | .deepTimerExpire => true
  | .deepExit _ => true
  | .tableRestore => true
  | .int4Limit _ => true
  | .envelopeGlide => true
  | .thermN temp => fits 8 temp
  | .thermalTrip => true
  | .secTamper => true
  | .periodicSelfTest _ => true
  | .mgmtWatchdogExpire => true
  | .autoFence core cause => below 9 core && below 8 cause
  | .trialTimeout => true
  | .hourUnitTick => true
  | .odometerSample id _ => below 15 id
  | .odometerPersist => true
  | .setSessionOpen peer => below 8 peer
  | .setRefresh peer => below 8 peer
  | .setPeerDown peer => below 8 peer
  | .crossingInstall k _ _ => below 64 k
  | .remoteWriteReceive peer seq payload => below 8 peer && fits 32 seq && below 8193 payload.length
  | .settlementPacket peer => below 8 peer
  | .remoteWriteRetransmit peer => below 8 peer
  | .settlementReceive peer link report => below 8 peer && fits 32 link && below 8193 report.length
  | .attestReportTimeout ctx peer => below 512 ctx && below 8 peer
  | .porstN boot => bootOk boot
  | .refclkInterruption => true
  | .pllLoss pll => below 9 pll
  | .pcieLinkDown => true
  | .pcieLinkUp gen width => below 4 gen && below 4 width
  | .porstNAsserted => true
  | .refclkStable => true
  | .deckIslandPowerUp core => below 9 core
  | .pwrMainEnMinimumLowEnd => true
  | .pwrOnMinimumLowEnd => true

end Sys2Proof
end

