-- ==== Sys2Proof/Safety.lean ====
section
/-!
DEFINITION. What the statements say of states and steps: the memories in canonical form, a session that lives, a reply
that has left, an event that has been formed, firmware work that can begin, and what a command leaves alone.
-/

namespace Sys2Proof.Machine

/-- Every byte memory of the block is in canonical form: the Decks, the Span, T3 and T4. -/
def Memory.wf (s : State) : Bool :=
  memWf s.span.mem && s.decks.all (fun d => memWf d.2.mem) && memWf s.t3.mem && memWf s.t4.mem

/-- A command answers a next state. -/
def Completes (i : Instr) (s : State) : Prop := ∃ t, exec i s = .next t

/-- The session of a command lives. -/
def Live (rq : Req) (s : State) : Prop := (tget? s.net.sessions rq.sess).isSome

/-- The last packet sent is the final RSP of a command: it copies OPCODE, SEQUENCE and SESSION and carries the CONTEXT,
status, reason and payload given (R516, R522). -/
def Replied (rq : Req) (op ctx : Nat) (st : Status) (r : Reason) (b : Bytes) (t : State) : Prop :=
  ∃ n w, t.net.sent.head? = some
    { sess := rq.sess, cls := .rsp, op := op, seq := rq.seq, ctx := ctx, status := st, reason := r, link := n, payload := b,
      wire := w }

/-- From `s` to `t` nothing changes but the Kraros layer, the counter of draws and the meters of `rel`. -/
def OnlyNet (s t : State) : Prop := t = { s with net := t.net, draws := t.draws, rel := t.rel }

/-- From `s` to `t` nothing changes but what a reply to a command changes: the packets sent, the outbound store, the
session's own record, and the records of reply latency (R697, R702) with their draw. -/
def OnlyReply (rq : Req) (s t : State) : Prop :=
  t = { s with
    net := { s.net with sessions := t.net.sessions, outbound := t.net.outbound, sent := t.net.sent },
    draws := t.draws,
    rel := { s.rel with odo := { s.rel.odo with recs := t.rel.odo.recs }, monitors := t.rel.monitors } } ∧
  ∀ m, m ≠ rq.sess → tget? t.net.sessions m = tget? s.net.sessions m

/-- The command answers a next state, which is `u` but for the final reply given that then leaves. -/
def Answered (i : Instr) (s : State) (rq : Req) (op ctx : Nat) (st : Status) (r : Reason) (b : Bytes) (u : State) : Prop :=
  ∃ t, exec i s = .next t ∧ Replied rq op ctx st r b t ∧ OnlyReply rq u t

/-- From `s` to `t` an event of the given context, status, reason and items has been formed and numbered (R530): it is the
last packet sent, or it waits for a session to subscribe (R531). -/
def Reported (c : Option Nat) (st : Status) (r : Reason) (items : Bytes) (s t : State) : Prop :=
  t.net.evtNum = (s.net.evtNum + 1) % 2 ^ 32 ∧
  ∃ p : Packet, (t.net.sent.head? = some p ∨ t.net.held.getLast? = some p) ∧ p.cls = .evt ∧ p.seq = s.net.evtNum ∧
    p.ctx = c.getD 0 ∧ p.device = c.isNone ∧ p.status = st ∧ p.reason = r ∧ p.payload.drop 8 = items

/-- From `s` to `t` nothing changes but what an event changes: the packets sent, the outbound store, the sessions' records,
the events that wait and the event number, with its draw. -/
def OnlyEvent (s t : State) : Prop :=
  t = { s with
    net := { s.net with
      sessions := t.net.sessions, outbound := t.net.outbound, sent := t.net.sent, held := t.net.held,
      evtNum := t.net.evtNum },
    draws := t.draws }

/-- The command answers a next state, which is `u` but for the event given that is then reported. -/
def Reports (i : Instr) (s : State) (c : Option Nat) (st : Status) (r : Reason) (items : Bytes) (u : State) : Prop :=
  ∃ t, exec i s = .next t ∧ Reported c st r items u t ∧ OnlyEvent u t

/-- The firmware's part of a command of a context, whose effect is `t`, can begin at once: the cores and Span banks that its
copies need are up (R237, R812), and it casts no new vote for zero-fills. -/
def Ready (s t : State) (c : Nat) : Prop := workReady s t c = true ∧ newFillCores s t c = []

/-- There is room for one more event (R532). -/
def EventRoom (s : State) : Prop := eventEntries s < 1024 ∧ storeFull s = false

/-- The value that a write of one register leaves in its shadow (R739, R747): every writable bit takes the written bit, but
a frozen one of an enabled page keeps its own; every other bit keeps its own. -/
def ShadowRule (s : State) (a v : Nat) (i : RegInfo) (t : State) : Prop :=
  (∀ k < 32, bit (shadow t a) k =
    if bit i.rws k && !(pageOn s i.page && bit i.frozen k) then bit v k else bit (shadow s a) k) ∧
  ∀ b, b ≠ a → shadow t b = shadow s b

end Sys2Proof.Machine
end

