-- ==== Sys2Proof/Certificates/Slice0/Obligations.lean ====
section
/-!
DEFINITION. The statements for the provers. Each docstring names the rules of spec/ that its statement rests on.
-/

open Sys2Proof Sys2Proof.Machine

/-- R518, R534: below the session limit a HELLO OPEN that no set member of higher index sends creates the session of the
next number, for its interface, source address, source port and Ethernet port, unproved and with a challenge of 32
bytes; its reply carries the new number and the challenge. Every other session stays but the one whose command it was,
and nothing changes but the Kraros layer, the draws and the meters. At the limit it is answered BUSY with
ETH_SESSIONS_FULL and creates nothing (log entry 6 says how the reply is addressed). R519: HELLO PROVE of a host or
management session with a key of the interface's credential set and a signature that verifies over the session's
challenge proves the session; any other is answered with status AUTH and reason ETH_AUTH and ends it. R521: HELLO
REFRESH is answered and changes nothing else. HELLO END is answered and ends a host or management session, and so does
the silence of 30 s, which is not answered: the session is gone and with it its outbound entries, its lanes are
detached (R566), and every other session stays. -/
def Obligations.SessionsOpenProveAndEnd : Prop :=
  (∀ (rq : Req) (mp : Nat) (ev : Bool) (s : State),
    (rq.iface = .host → (peerOf s rq.port rq.src).filter (fun i => ownIndex s < i) = none) →
    (sessionCount s rq.iface < sessionLimit rq.iface →
      ∃ t e, exec (.helloOpen rq mp ev) s = .next t ∧ tget? t.net.sessions s.net.nextSession = some e ∧
        e.iface = rq.iface ∧ e.src = rq.src ∧ e.sport = rq.sport ∧ e.port = rq.port ∧ e.peer = none ∧
        e.proved = false ∧ e.events = ev ∧ e.maxPayload = mp ∧ e.challenge.length = 32 ∧ e.remembered = [rq.seq] ∧
        (∃ p ∈ t.net.sent, p.cls = .rsp ∧ p.op = 0x0001 ∧ p.seq = rq.seq ∧ p.sess = s.net.nextSession ∧
          p.status = .ok ∧ p.payload.drop 8 = e.challenge) ∧
        t.net.nextSession = s.net.nextSession + 1 ∧
        (∀ sid, sid ≠ s.net.nextSession → sid ≠ rq.sess → tget? t.net.sessions sid = tget? s.net.sessions sid) ∧
        OnlyNet s t) ∧
    (sessionLimit rq.iface ≤ sessionCount s rq.iface →
      exec (.helloOpen rq mp ev) s = .next (sendPkt (finishCmd s rq.sess rq.seq)
        { sess := rq.sess, cls := .rsp, op := 0x0001, seq := rq.seq, status := .busy, reason := .ethSessionsFull,
          wire := some (wireTo s rq.iface rq.port rq.src rq.sport) }))) ∧
  (∀ (rq : Req) (k g : Bytes) (s : State) (e : Session),
    tget? s.net.sessions rq.sess = some e → e.peer = none →
    (((credentials s e.iface).contains k && Config.mldsaVerify k e.challenge g) = true →
      Answered (.helloProve rq k g) s rq 0x0001 0 .ok .none []
        { s with net := { s.net with sessions := tset s.net.sessions rq.sess { e with proved := true } } }) ∧
    (((credentials s e.iface).contains k && Config.mldsaVerify k e.challenge g) = false →
      ∃ t, exec (.helloProve rq k g) s = .next t ∧ tget? t.net.sessions rq.sess = none ∧
        Replied rq 0x0001 0 .auth .ethAuth [] t ∧
        (∀ sid, sid ≠ rq.sess → tget? t.net.sessions sid = tget? s.net.sessions sid) ∧
        OnlyNet { s with lanes := s.lanes.map (fun e => (e.1, laneDetach rq.sess e.2)) } t)) ∧
  ((∀ (rq : Req) (s : State), Live rq s → Answered (.helloRefresh rq) s rq 0x0001 0 .ok .none [] s) ∧
  (∀ (rq : Req) (s : State) (e : Session), tget? s.net.sessions rq.sess = some e → e.peer = none →
    ∃ t, exec (.helloEnd rq) s = .next t ∧ tget? t.net.sessions rq.sess = none ∧
      t.net.outbound.any (fun o => o.pkt.sess == rq.sess) = false ∧ Replied rq 0x0001 0 .ok .none [] t ∧
      (∀ sid, sid ≠ rq.sess → tget? t.net.sessions sid = tget? s.net.sessions sid) ∧
      OnlyNet { s with lanes := s.lanes.map (fun e => (e.1, laneDetach rq.sess e.2)) } t) ∧
  (∀ (sid : Nat) (s : State) (e : Session), tget? s.net.sessions sid = some e → e.peer = none →
    ∃ t, exec (.sessionIdleTimeout sid) s = .next t ∧ tget? t.net.sessions sid = none ∧
      t.net.outbound = s.net.outbound.filter (fun o => !(o.pkt.sess == sid)) ∧
      (∀ m, m ≠ sid → tget? t.net.sessions m = tget? s.net.sessions m) ∧
      t = { s with
        net := { s.net with sessions := t.net.sessions, outbound := t.net.outbound },
        lanes := s.lanes.map (fun e => (e.1, laneDetach sid e.2)) }))

/-- R534, R535: DEVICE_INFO answers with its 88 bytes, whose first fields are the part 0x8230, revision 0xB0 and the role
of SET_CONFIG; REG_READ of 1 to 256 registers that the interface may read answers with each register's value, four
bytes each in ascending address; where one of them may not be read or is no register it is refused with
ETH_REG_ACCESS, and a COUNT of 0 or above 256 is MALFORMED with ETH_PARAM. None of them changes anything but what the
reply carries. -/
def Obligations.RegisterReadsAnswer : Prop :=
  ∀ (rq : Req) (a n : Nat) (s : State), Live rq s →
    Answered (.deviceInfo rq) s rq 0x0002 0 .ok .none (deviceInfo s) s ∧
    field (deviceInfo s) 0 2 = 0x8230 ∧ field (deviceInfo s) 2 1 = 0xB0 ∧
    field (deviceInfo s) 3 1 = bits (live s 0x0023_0410) 31 30 ∧ (deviceInfo s).length = 88 ∧
    (∀ vs : List Nat, 1 ≤ n → n ≤ 256 → vs.length = n →
      (∀ k < n, mayRead s rq (a + 4 * k) = true ∧ regView s (a + 4 * k) = some (vs.getD k 0)) →
      Answered (.regRead rq a n) s rq 0x0010 0 .ok .none (vs.flatMap (leBytes 4)) s) ∧
    (∀ k < n, n ≤ 256 → (mayRead s rq (a + 4 * k) = false ∨ regView s (a + 4 * k) = none) →
      Answered (.regRead rq a n) s rq 0x0010 0 .refused .ethRegAccess [] s) ∧
    (n = 0 ∨ 256 < n → Answered (.regRead rq a n) s rq 0x0010 0 .malformed .ethParam [] s)

/-- R416, R448, R535, R739, R747: a write of one register that holds RWS fields, by REG_WRITE on any register, by
SENSOR_CFG in the CAMERA and ISP block (an ISP context's page by its owner alone) and by AUDIO_CFG by the owner of the
audio block, is answered OK with COUNT 1 and takes effect in the register's shadow alone; the live value stays, and
FROZEN_WRITE is set exactly where the page is enabled and the register holds frozen fields. R736, R741, R743: a commit
of the CLOCKS and RESET, GUARDRAIL, PCIE or RELIABILITY page, requested at the page's safe point or taken when its
safe point comes, makes every shadow of the page live if the page's checks pass, and otherwise records the reason in
CFG_REASON and changes no live value; requested elsewhere it waits with COMMIT_PENDING set. The premise on the waiting
commands says that none of them waits for this page. -/
def Obligations.RegisterWritesAndCommits : Prop :=
  (∀ (rq : Req) (a : Nat) (v : Word) (i : RegInfo) (s : State), Live rq s →
    a % 4 = 0 → regInfo a = some i → isPage a = false → (4 ≤ a → isPage (a - 4) = false) →
    (crossingReg a = true → bits (live s 0x0023_0410) 31 30 ≠ 2) →
    ∃ u, ShadowRule s a v.toNat i u ∧ u = { s with regs := { s.regs with shadow := u.regs.shadow, pages := u.regs.pages } } ∧
      (∀ p, pageAt u p = if p = i.page ∧ pageOn s p = true ∧ i.frozen ≠ 0 then { pageAt s p with frozenWrite := true }
        else pageAt s p) ∧
      Answered (.regWrite rq a [v]) s rq 0x0011 0 .ok .none [1, 0, 0, 0] u ∧
      (blockOf a = 0x20 → a < 0x0020_8000 →
        Answered (.sensorCfgRegWrite rq a [v]) s rq 0x0180 0 .ok .none [1, 0, 0, 0] u) ∧
      (blockOf a = 0x20 → 0x0020_8000 ≤ a → tget? s.cam.owners ((a - 0x0020_8000) / 0x800) = some rq.ctx → (liveCtx s rq.ctx).isSome →
        Answered (.sensorCfgRegWrite rq a [v]) s rq 0x0180 rq.ctx .ok .none [1, 0, 0, 0] u) ∧
      (blockOf a = 0x21 → s.aud.owner = some rq.ctx → (liveCtx s rq.ctx).isSome →
        Answered (.audioCfgRegWrite rq a [v]) s rq 0x0181 rq.ctx .ok .none [1, 0, 0, 0] u)) ∧
  (∀ (c : Instr) (p : Nat) (s : State), p ∈ [0x0001_0000, 0x0022_0000, 0x0024_0000, 0x0027_0000] →
    (s.regs.shadow.map Prod.fst).Nodup → (∀ w ∈ s.regs.waits, w.left ≠ [] ∧ p ∉ w.left) →
    (c = .commit p ∧ atSafePoint s p = true ∨ c = .safePointCommit p ∧ (pageAt s p).pending = true →
      (firstFail (commitChecks s p) = none →
        ∃ t, exec c s = .next t ∧
          (∀ a i w, regInfo a = some i → i.page = p → tget? s.regs.shadow a = some w → tget? t.regs.live a = some w) ∧
          (∀ a i, regInfo a = some i → i.page ≠ p → tget? t.regs.live a = tget? s.regs.live a) ∧
          pageAt t p = { pageAt s p with pending := false } ∧ (∀ q, q ≠ p → pageAt t q = pageAt s q) ∧
          t = { s with regs := { s.regs with live := t.regs.live, pages := t.regs.pages } }) ∧
      (∀ r, firstFail (commitChecks s p) = some r →
        ∃ t, exec c s = .next t ∧ pageAt t p = { pageAt s p with pending := false, cfgReason := r } ∧
          (∀ q, q ≠ p → pageAt t q = pageAt s q) ∧ t = { s with regs := { s.regs with pages := t.regs.pages } })) ∧
    (c = .commit p → atSafePoint s p = false → exec c s = .next (modPage s p (fun g => { g with pending := true }))))

/-- R423, R436, R499, R578, R608, R748, R753, R755: an enable of a page that is off. Its checks must pass, or CFG_REASON
takes the first reason and nothing else changes. When they pass the shadows go live with ENABLE; then DDR4 trains
every populated channel anew, Guardrail starts with its four stops latched, a stream numbers its frames from 0, an ISP
context's owner casts the vote that keeps the ISP domain up, and the PCIe link runs at what the operand of the event
and the page's maximum allow. An enable of an enabled page changes nothing. R499, R608, R749: a disable of an enabled
page clears ENABLE; DDR4 in service refuses it with DDR_IN_SERVICE, which changes CFG_REASON alone; PCIE loses its
link; Guardrail asserts its four stops and drops what it was evaluating. A disable of a page that is off changes
nothing. -/
def Obligations.PagesEnableAndDisable : Prop :=
  (∀ s : State,
    (∀ (c : Instr) (p : Nat), (c = .enable p ∧ p ∈ enablePages ∧ p ≠ 0x0024_0000) ∨ (c = .ddrCtrlEnable ∧ p = 0x0003_8000) ∨
        (c = .grdEnable ∧ p = 0x0022_0000) ∨ (∃ i < 16, c = .ispContextEnable i ∧ p = ispPage i) →
      (pageOn s p = true → exec c s = .next s) ∧
      (∀ r, pageOn s p = false → firstFail (enableChecks s p) = some r → exec c s = .next (setReason s p r)) ∧
      (pageOn s p = false → firstFail (enableChecks s p) = none →
        ∀ u, u = modPage (pageLive s p) p (fun g => { g with enable := true, pending := false }) →
          (p ∈ [0x0020_0000, 0x0020_3000, 0x0020_3100, 0x0021_1000] → exec c s = .next u) ∧
          (∀ m < 8, p = strPage m → exec c s = .next (setStr u m { strAt u m with nextNo := 0, overrun := false })) ∧
          (p = 0x0003_8000 → exec c s = .next { u with ddr := { u.ddr with
            training := true, verifying := false, done := 0, failed := 0, step := 0,
            chans := u.ddr.chans.map (fun e => (e.1, { e.2 with trained := false })) } }) ∧
          (p = 0x0022_0000 → exec c s = .next { u with grd := { u.grd with
            stopped := 15, fault := false, prevVote := 0, asserted := 0, stale := 0, heard := [], bus := none,
            waiting := [] } }) ∧
          (∀ i < 16, ∀ x, p = ispPage i → tget? s.cam.owners i = some x → descending s = false →
            exec c s = .next (voteCast (tellDropped u i (ispStream u i)) 0 x (2 ^ 8))))) ∧
    (∀ l : PcieLink, pageOn s 0x0024_0000 = false →
      (l.up = false → exec (.pcieEnable l) s = .next (setReason s 0x0024_0000 .pcieParam)) ∧
      (l.up = true → firstFail (enableChecks s 0x0024_0000) = none →
        ∀ u, u = modPage (pageLive s 0x0024_0000) 0x0024_0000 (fun g => { g with enable := true, pending := false }) →
          exec (.pcieEnable l) s = .next { u with pcie := {
            up := true, gen := min l.gen (live u 0x0024_0010 % 4), width := min l.width (bits (live u 0x0024_0010) 3 2),
            ready := l.ready, granules := if l.ready then l.granules % 2 ^ 32 else 0 } }))) ∧
  (∀ s : State,
    (∀ p, pageOn s p = false → exec (.enableClear p) s = .next s) ∧
    (∀ p ∈ [0x0020_0000, 0x0020_3000, 0x0020_3100, 0x0021_0000, 0x0021_1000], pageOn s p = true → (pageAt s p).pending = false →
      exec (.enableClear p) s = .next (modPage s p (fun g => { g with enable := false }))) ∧
    (pageOn s 0x0003_8000 = true → s.ddr.inService = true →
      exec (.enableClear 0x0003_8000) s = .next (setReason s 0x0003_8000 .ddrInService)) ∧
    (pageOn s 0x0024_0000 = true → (pageAt s 0x0024_0000).pending = false →
      exec (.enableClear 0x0024_0000) s =
        .next { modPage s 0x0024_0000 (fun g => { g with enable := false }) with pcie := {} }) ∧
    (pageOn s grdPage = true → (pageAt s grdPage).pending = false →
      ∃ t, exec .grdDisable s = .next t ∧ pageOn t grdPage = false ∧ (∀ k < 4, bit t.grd.stopped k = true) ∧
        t.grd.bus = none ∧ t.grd.waiting = [] ∧ t.grd.weights = s.grd.weights ∧ t.grd.readings = s.grd.readings ∧
        t = { s with net := t.net, draws := t.draws, grd := t.grd, regs := { s.regs with pages := t.regs.pages } }))

/-- R649, R660, R667, R668: a write of the key value to TLAOG_ZEROISE clears every key the module holds and, outside the
error state, enters it with the event SEC_ERROR; any other value does nothing. A word written to TLAOG_CAK_DATA is
collected, and the last word of the selected key, the fourth or, with LEN, the eighth, puts the key in force. R771:
RST_REC_SEL with 0 or 1 selects a record and starts it, any other value is refused with RST_PARAM; a word of
RST_REC_DATA joins the selected record, whose last word stores it (16 bytes of the board record, 768 of the set
record), and with no record selected or beyond its end it is refused. RST_CFG_SAVE stores the live registers and the
weight record and is answered with an interim reply; a second one meanwhile is BUSY with RST_BUSY. -/
def Obligations.KeyRegistersAndRecords : Prop :=
  ((∀ (v : Word) (s : State), v ≠ 0x5A45_524F#32 → exec (.tlaogZeroise v) s = .next s) ∧
  (∀ (s : State), ∃ t, exec (.tlaogZeroise 0x5A45_524F#32) s = .next t ∧
    t.sec = { s.sec with
      keys := [], fwKeyHeld := false, drbgHeld := false, caks := [], cakBuf := [], storageHeld := false, error := true } ∧
    t = { s with net := t.net, draws := t.draws, sec := t.sec, rel := t.rel }) ∧
  (∀ (v : Word) (s : State), s.sec.cakBuf.length + 1 < (if bit s.sec.cakSel 4 then 8 else 4) →
    exec (.tlaogCakData v) s = .next { s with sec := { s.sec with cakBuf := s.sec.cakBuf ++ [v] } }) ∧
  (∀ (v : Word) (s : State), (if bit s.sec.cakSel 4 then 8 else 4) ≤ s.sec.cakBuf.length + 1 →
    exec (.tlaogCakData v) s = .next { s with sec := { s.sec with
      caks := tset s.sec.caks (s.sec.cakSel % 16) (s.sec.cakBuf ++ [v]), cakBuf := [] } })) ∧
  (∀ (rq : Req) (s : State), Live rq s →
    (∀ v : Word, v.toNat % 256 ≤ 1 → Answered (.rstRecSel rq v) s rq 0x0011 0 .ok .none [1, 0, 0, 0]
      { s with rst := { s.rst with recSel := some (v.toNat % 256), recBuf := [] } }) ∧
    (∀ v : Word, 1 < v.toNat % 256 → Answered (.rstRecSel rq v) s rq 0x0011 0 .refused .rstParam [0, 0, 0, 0] s) ∧
    (∀ (v : Word) (k : Nat), s.rst.recSel = some k → s.rst.recBuf.length + 4 < (if k = 0 then 16 else 768) →
      Answered (.rstRecData rq v) s rq 0x0011 0 .ok .none [1, 0, 0, 0]
        { s with rst := { s.rst with recBuf := s.rst.recBuf ++ leBytes 4 v.toNat } }) ∧
    (∀ v : Word, s.rst.recSel = some 0 → s.rst.recBuf.length = 12 →
      Answered (.rstRecData rq v) s rq 0x0011 0 .ok .none [1, 0, 0, 0]
        { s with rst := { s.rst with
          recBuf := s.rst.recBuf ++ leBytes 4 v.toNat, boardFlash := s.rst.recBuf ++ leBytes 4 v.toNat } }) ∧
    (∀ v : Word, s.rst.recSel = some 1 → s.rst.recBuf.length = 764 →
      Answered (.rstRecData rq v) s rq 0x0011 0 .ok .none [1, 0, 0, 0]
        { s with rst := { s.rst with
          recBuf := s.rst.recBuf ++ leBytes 4 v.toNat, setFlash := s.rst.recBuf ++ leBytes 4 v.toNat } }) ∧
    (∀ v : Word, s.rst.recSel = none → Answered (.rstRecData rq v) s rq 0x0011 0 .refused .rstParam [0, 0, 0, 0] s) ∧
    (s.rst.saving = none → ∃ t, exec (.rstCfgSave rq) s = .next t ∧
      t.net.sent.head? = some
          { sess := rq.sess, cls := .rsp, op := 0x0011, seq := rq.seq, interim := true,
            wire := some (wireTo s rq.iface rq.port rq.src rq.sport) } ∧
      t.rst = { s.rst with snapshot := snapshotOf s, savedWeights := s.grd.weights, saving := some rq } ∧
      t.regs.waits = s.regs.waits ++ [{ req := rq, op := 0x0011, count := 1, left := [0x0001_0024] }] ∧
      t = { s with net := { s.net with sent := t.net.sent }, rst := t.rst, regs := { s.regs with waits := t.regs.waits } }) ∧
    (s.rst.saving ≠ none → Answered (.rstCfgSave rq) s rq 0x0011 0 .busy .rstBusy [0, 0, 0, 0] s))

/-- R612 to R615: with no entry and no descent in progress, POWER_VOTE CAST of a client that holds no vote adds its vote,
whose mask names bits [31:16] and [10:0] alone, brings up the ISP, AUDIO and PCIE domains among those voted for, and
is answered; WITHDRAW takes the named domains out of the client's vote and drops a vote that names none. A context
votes under its own number for its granted cores and ISP, AUDIO and PCIE, and is refused with PWR_DOMAIN for others; a
client of a class above 0 votes under its session's number. Nothing else changes. R614, R402: a context's POWER_VOTE
that names a domain beyond its cores, ISP, AUDIO and PCIE is refused with PWR_DOMAIN, and one of a context that is
FREE or DESTROYING with CTX_UNKNOWN; neither changes a vote. -/
def Obligations.PowerVotes : Prop :=
  (∀ (rq : Req) (client m : Nat) (s : State), Live rq s → s.pwr.entry = none → descending s = false →
    ∀ (cls id ctx : Nat), (client = 0 → cls = 0 ∧ id = rq.ctx ∧ ctx = rq.ctx ∧
        ∃ x, liveCtx s rq.ctx = some x ∧ m &&& ((2 ^ 32 - 1) ^^^ (x.cores ||| 0x700)) = 0) →
      (client ≠ 0 → cls = client ∧ id = rq.sess % 2 ^ 16 ∧ ctx = 0) →
      (s.pwr.votes.all (fun v => !(v.cls == cls && v.id == id)) = true →
        ∃ u, Answered (.powerVoteCast rq client m) s rq 0x0190 ctx .ok .none [] u ∧
          u.pwr.votes = s.pwr.votes ++ [{ cls := cls, id := id, domains := m % 2 ^ 11 + m / 2 ^ 16 % 2 ^ 16 * 2 ^ 16 }] ∧
          u.pwr.up = s.pwr.up ||| (votedMask u &&& 0x700) ∧
          u = { s with pwr := { s.pwr with votes := u.pwr.votes, up := u.pwr.up } }) ∧
      (∃ u, Answered (.powerVoteWithdraw rq client m) s rq 0x0190 ctx .ok .none [] u ∧
        (∀ v ∈ u.pwr.votes, v.domains ≠ 0 ∧
          (v.cls = cls → v.id = id → v.domains &&& (m % 2 ^ 11 + m / 2 ^ 16 % 2 ^ 16 * 2 ^ 16) = 0)) ∧
        (∀ v, v.domains ≠ 0 → ¬(v.cls = cls ∧ v.id = id) → (v ∈ u.pwr.votes ↔ v ∈ s.pwr.votes)) ∧
        u = { s with pwr := { s.pwr with votes := u.pwr.votes } })) ∧
  (∀ (rq : Req) (m : Nat) (s : State) (c : Instr), Live rq s → (c = .powerVoteCast rq 0 m ∨ c = .powerVoteWithdraw rq 0 m) →
    (∀ x, liveCtx s rq.ctx = some x → m &&& ((2 ^ 32 - 1) ^^^ (x.cores ||| 0x700)) ≠ 0 →
      Answered c s rq 0x0190 rq.ctx .refused .pwrDomain [] s) ∧
    (liveCtx s rq.ctx = none → Answered c s rq 0x0190 rq.ctx .noContext .ctxUnknown [] s))

/-- R618, R619, R622, R623, R632, R700: POWER_VOTE ENTER. While an entry is in progress it is BUSY with PWR_ENTERING. The
first client that refuses is logged and named in the reply PWR_REFUSED, WAKE_N low before every other. An ENTER of OFF
that none refuses persists the Odometer and is answered with an interim reply; one of DEEP is answered so too, with
every upper copy of an object at home in T3 DIRTY, unless its save does not fit, when it is answered NO_QUOTA with
PWR_NO_SAVE. A vote that names a domain of bits [10:0] then aborts an entry whose reply has left, and the log records
it. R501, R606, R625, R627, R628: the exit from DEEP that a wake source has started reaches RUN, IDLE or SLEEP with
the PLLs locked; an enabled DDR4 controller verifies its kept training, and an enabled Guardrail starts with its four
stops latched. Then, with DDR4 in service, the tables are restored context by context, and a context whose objects in
T3 are lost is told how many; a save that does not verify destroys every context and is reported with
PWR_RESTORE_FAIL. -/
def Obligations.PowerEntryAndExit : Prop :=
  (∀ (rq : Req) (client : Nat) (s : State), Live rq s → client ≠ 0 →
    (∀ target, target = 3 ∨ target = 4 →
      (s.pwr.entry ≠ none → Answered (.powerVoteEnter rq client target) s rq 0x0190 0 .busy .pwrEntering [] s) ∧
      (s.pwr.entry = none → s.pwr.wakeLow = true → refuser s target = some (7, 0)) ∧
      (∀ cl id, s.pwr.entry = none → refuser s target = some (cl, id) →
        Answered (.powerVoteEnter rq client target) s rq 0x0190 0 .refused .pwrRefused
          (leBytes 1 cl ++ [0] ++ leBytes 2 id)
          { s with pwr := { s.pwr with
            log := tset s.pwr.log s.pwr.logHead { kind := 1, target := target, cls := cl, id := id, hours := s.rel.odo.hours },
            logHead := (s.pwr.logHead + 1) % 16, refused := min (s.pwr.refused + 1) (2 ^ 32 - 1) } })) ∧
    (s.pwr.entry = none → refuser s 4 = none →
      exec (.powerVoteEnter rq client 4) s = .next (interim { persistOdo s with
        pwr := { s.pwr with entry := some { target := 4, req := some rq }, saveOk := true } } rq 0x0190 0)) ∧
    (s.pwr.entry = none → refuser s 3 = none →
      Answered (.powerVoteEnter rq client 3) s rq 0x0190 0 .noQuota .pwrNoSave [] s ∨
      ∃ t, exec (.powerVoteEnter rq client 3) s = .next t ∧
        t.net.sent.head? = some
          { sess := rq.sess, cls := .rsp, op := 0x0190, seq := rq.seq, interim := true,
            wire := some (wireTo s rq.iface rq.port rq.src rq.sport) } ∧
        t.pwr.entry = some { target := 3, req := some rq } ∧
        ∀ e ∈ t.ctxs, ∀ o ∈ e.2.objs, o.2.homeTier = 3 → o.2.upper ≠ none → o.2.dirty = true) ∧
    (∀ (m target : Nat), s.pwr.entry = some { target := target, req := none } → descending s = false → m % 2 ^ 11 ≠ 0 →
      ∃ u, Answered (.powerVoteCast rq client m) s rq 0x0190 0 .ok .none [] u ∧ u.pwr.entry = none ∧
        u.pwr.aborted = min (s.pwr.aborted + 1) (2 ^ 32 - 1) ∧
        tget? u.pwr.log s.pwr.logHead = some
          { kind := 2, target := target, cls := client, id := rq.sess % 2 ^ 16, hours := s.rel.odo.hours })) ∧
  ((∀ (ok : Bool) (s : State), s.pwr.mode = .deep → s.pwr.wake = true → s.pwr.mainEn = true →
    ∃ t, exec (.deepExit ok) s = .next t ∧
      t.pwr = { s.pwr with
        mode := .awake, wake := false, deepTimer := false, mainMin := false, restoring := restoreOrder s,
        saveOk := ok && s.pwr.saved == some s.pwr.saveCount && !s.sec.error } ∧
      t.rst = { s.rst with lock := 0xFF } ∧
      (pageOn s 0x0003_8000 = true → t.ddr.training = true ∧ t.ddr.verifying = true) ∧
      (pageOn s 0x0003_8000 = false → t.ddr = s.ddr) ∧
      (pageOn s grdPage = true → t.grd.stopped = 15 ∧ t.grd.fault = s.grd.fault ∧ t.grd.heard = []) ∧
      (pageOn s grdPage = false → t.grd = s.grd) ∧
      t = { s with
        net := t.net, draws := t.draws, pwr := t.pwr, rst := t.rst, ddr := t.ddr, grd := t.grd, rel := t.rel }) ∧
  (∀ (c : Nat) (rest : List Nat) (x : Ctx) (s : State), s.pwr.restoring = c :: rest → s.pwr.mode = .awake → s.ddr.inService = true →
    s.pwr.saveOk = true → tget? s.ctxs c = some x →
    ∀ u, u = setCtx { s with pwr := { s.pwr with restoring := rest } } c (renewStreams x) →
      (lostObjects x = 0 → exec .tableRestore s = .next u) ∧
      (0 < lostObjects x → EventRoom s →
        Reports .tableRestore s (some c) .ok .pwrT3Lost (leBytes 4 (lostObjects x)) u)) ∧
  (∀ (s : State), s.pwr.restoring ≠ [] → s.pwr.mode = .awake → s.ddr.inService = true → s.pwr.saveOk = false →
    exec .tableRestore s = .next (emitDev (s.ctxs.foldl
      (fun a e => if e.2.st = .destroying then a else beginDestroy a e.1 none e.2)
      { s with pwr := { s.pwr with restoring := [] } }) .pwrRestoreFail [])))

/-- R610, R611, R612, R615 to R617: POWER_STATE_GET answers the state, the envelope and the mask of domains up. A domain
that POWER_DOMAIN_DELAY has left without a vote goes down, and no other; one that a vote names stays. An up core that
has no work gates its clocks. The Deck island of a down core that no write waits for goes down with the delay. R151,
R616, R617: what comes up. A voted core that is down and not fenced comes up with its clocks running, and the work and
the writes that waited for it go on from the state in which it is up. The Deck island of a down core comes up for the
writes that wait for it, and a bank of the Span comes up with the valid bit of each of its 8,192 rows clear and no
other row changed. -/
def Obligations.DomainsFollowVotes : Prop :=
  ((∀ (rq : Req) (s : State), Live rq s →
    Answered (.powerStateGet rq) s rq 0x0191 0 .ok .none
      (leBytes 1 (chipState s) ++ leBytes 1 s.pwr.watts ++ [0, 0] ++ leBytes 4 s.pwr.up) s) ∧
  (∀ (d : Nat) (s : State), s.pwr.mode = .awake → d < 32 → bit s.pwr.up d = true →
    (bit (votedMask s) d = true → exec (.domainDelayExpire d) s = .next s) ∧
    (bit (votedMask s) d = false → d ≠ 8 →
      ∃ t, exec (.domainDelayExpire d) s = .next t ∧ bit t.pwr.up d = false ∧
        (∀ k < 32, k ≠ d → bit t.pwr.up k = bit s.pwr.up k) ∧
        t = { s with net := t.net, draws := t.draws, pwr := { s.pwr with up := t.pwr.up, gated := t.pwr.gated } })) ∧
  (∀ (n : Nat) (s : State), n < 8 → s.pwr.mode = .awake → bit s.pwr.up n = true → bit s.pwr.gated n = false → coreBusy s n = false →
    ∃ t, exec (.coreIdleGate n) s = .next t ∧ t.pwr.gated = s.pwr.gated ||| 2 ^ n ∧
      t = { s with net := t.net, draws := t.draws, pwr := { s.pwr with gated := t.pwr.gated } }) ∧
  (∀ (n : Nat) (s : State), n < 8 → s.pwr.mode = .awake → bit s.pwr.up n = false → bit s.pwr.islands n = true →
    s.waitHdrs.any (fun h => h.1.space == n) = false →
    ∃ t, exec (.domainDelayExpire n) s = .next t ∧ bit t.pwr.islands n = false ∧
      (∀ k < 8, k ≠ n → bit t.pwr.islands k = bit s.pwr.islands k) ∧
      t = { s with pwr := { s.pwr with islands := t.pwr.islands } })) ∧
  ((∀ (n : Nat) (s : State), n < 8 → s.pwr.mode = .awake → bit s.pwr.up n = false → bit (votedMask s) n = true →
    n ∉ s.fenced →
    ∃ u, bit u.pwr.up n = true ∧ bit u.pwr.gated n = false ∧ bit u.pwr.islands n = false ∧
      (∀ k < 32, k ≠ n → bit u.pwr.up k = bit s.pwr.up k) ∧
      u = { s with pwr := { s.pwr with up := u.pwr.up, gated := u.pwr.gated, islands := u.pwr.islands } } ∧
      exec (.corePowerUpComplete n) s = .next (settleAll (releaseWork (retryWaits (schedule (stateChanged (chipState s) u)))))) ∧
  (∀ (n : Nat) (s : State), bit s.pwr.up n = false → s.waitHdrs.any (fun h => h.1.space == n) = true →
    exec (.deckIslandPowerUp n) s = .next (retryWaits { s with pwr := { s.pwr with islands := s.pwr.islands ||| 2 ^ n } })) ∧
  (∀ (b : Nat) (s : State), b < 16 → bit s.pwr.up (16 + b) = false →
    ∃ u, exec (.spanBankPowerUp b) s = .next (settleAll (releaseWork (retryWaits u))) ∧
      (∀ row, row ∈ u.span.valid ↔ row ∈ s.span.valid ∧ ¬(b * 8192 ≤ row ∧ row < b * 8192 + 8192)) ∧
      u.span.mem = s.span.mem ∧ u.pwr.up = s.pwr.up ||| 2 ^ (16 + b) ∧
      u = { s with span := u.span, pwr := { s.pwr with up := u.pwr.up } }))

/-- R626, R766, R791, R792: the wake sources. WAKE_N falling starts the exit from DEEP, raises PWR_ON from OFF with cause
1, is latched while the 20 ms minimum of PWR_ON runs, and in the other states is the low level that refuses an entry;
the deep timer starts the exit from DEEP; an exit that starts during the minimum low time of PWR_MAIN_EN waits for its
end, and PWR_ON rises at the end of its own minimum if WAKE_N was latched. R629 to R631, R634, R647, R697, R800 to
R802: ENVELOPE_GLIDE brings ACLK to the cap of the committed envelope, 2.0, 1.6, 0.9 and 0.4 GHz at 60, 45, 30 and 15
W, and to 1.7 GHz while the INT4 limit holds at 60 W, and writes a VDD_CORE target within the envelope's maximum
(R786). The limit falls and rises with the average power, at 60 W alone, and a policy that forbids the burst keeps it.
THERM_N falls at 100 °C, rises below 95 °C and holds between them. The trip at 120 °C drops both supply outputs and
leaves what a power-on reset leaves. -/
def Obligations.WakeSourcesAndEnvelopes : Prop :=
  (∀ s : State,
    (s.pwr.mode = .awake → s.pwr.entry = none → exec .wakeNFall s = .next { s with pwr := { s.pwr with wakeLow := true } }) ∧
    (s.pwr.mode = .deep → exec .wakeNFall s = .next { s with pwr := { s.pwr with
      wakeLow := true, wake := true, mainEn := s.pwr.mainEn || !s.pwr.mainMin } }) ∧
    (s.pwr.mode = .off → s.pwr.onMin = false → exec .wakeNFall s = .next { s with
      pwr := { s.pwr with wakeLow := true, powerOn := true, mainEn := true }, rst := { s.rst with cause := 1 } }) ∧
    (s.pwr.mode = .off → s.pwr.onMin = true →
      exec .wakeNFall s = .next { s with pwr := { s.pwr with wakeLow := true, wake := true } }) ∧
    (s.pwr.mode = .deep → s.pwr.deepTimer = true → exec .deepTimerExpire s = .next { s with pwr := { s.pwr with
      deepTimer := false, wake := true, mainEn := s.pwr.mainEn || !s.pwr.mainMin } }) ∧
    (s.pwr.mode ≠ .deep → exec .deepTimerExpire s = .next s) ∧
    (s.pwr.mainMin = true → s.pwr.mode = .deep → exec .pwrMainEnMinimumLowEnd s = .next { s with pwr := { s.pwr with
      mainMin := false, mainEn := s.pwr.mainEn || s.pwr.wake } }) ∧
    (s.pwr.onMin = true → s.pwr.wake = true → exec .pwrOnMinimumLowEnd s = .next { s with
      pwr := { s.pwr with onMin := false, wake := false, powerOn := true, mainEn := true }, rst := { s.rst with cause := 1 } }) ∧
    (s.pwr.onMin = true → s.pwr.wake = false →
      exec .pwrOnMinimumLowEnd s = .next { s with pwr := { s.pwr with onMin := false } })) ∧
  ((∀ (s : State) (w mhz : Nat), s.pwr.gliding = true → s.pwr.watts = w →
    ∀ mv, ((w = 60 ∧ s.pwr.int4 = false ∧ mhz = 2000 ∧ mv = 850) ∨ (w = 60 ∧ s.pwr.int4 = true ∧ mhz = 1700 ∧ mv = 850) ∨
      (w = 45 ∧ mhz = 1600 ∧ mv = 800) ∨ (w = 30 ∧ mhz = 900 ∧ mv = 720) ∨ (w = 15 ∧ mhz = 400 ∧ mv = 650)) →
    ∃ t, exec .envelopeGlide s = .next t ∧ t.pwr.avs ≤ mv ∧
      t.pwr = { s.pwr with
        gliding := false, int4 := s.pwr.int4 && decide (w = 60), aclk := mhz, avs := t.pwr.avs, avsWritten := true } ∧
      t = { s with net := t.net, draws := t.draws, pwr := t.pwr, ctxs := t.ctxs }) ∧
  (∀ s : State, s.pwr.watts = 60 → s.pwr.gliding = false →
    (s.pwr.int4 = false → ∃ t, exec (.int4Limit true) s = .next t ∧ t.pwr = { s.pwr with int4 := true, aclk := 1700 } ∧
      t = { s with net := t.net, draws := t.draws, pwr := t.pwr, ctxs := t.ctxs }) ∧
    (s.pwr.int4 = true → noBurst s = true → exec (.int4Limit false) s = .next s) ∧
    (s.pwr.int4 = true → noBurst s = false →
      ∃ t, exec (.int4Limit false) s = .next t ∧ t.pwr = { s.pwr with int4 := false, aclk := 2000 } ∧
        t = { s with net := t.net, draws := t.draws, pwr := t.pwr, ctxs := t.ctxs, rel := { s.rel with hourly := t.rel.hourly } })) ∧
  (∀ (temp : Nat) (s : State),
    (100 ≤ temp → exec (.thermN temp) s = .next { s with pwr := { s.pwr with thermLow := true } }) ∧
    (95 ≤ temp → temp < 100 → exec (.thermN temp) s = .next s) ∧
    (temp < 95 → exec (.thermN temp) s = .next { s with pwr := { s.pwr with thermLow := false } })) ∧
  (∀ s : State, s.pwr.mode ≠ .off →
    ∃ t, exec .thermalTrip s = .next t ∧ t.pwr.mode = .off ∧ t.pwr.powerOn = false ∧ t.pwr.mainEn = false ∧
      t.ctxs = [] ∧ t.decks = [] ∧ t.span = {} ∧ t.net.sessions = [] ∧ t.t4 = s.t4 ∧ t.sec.policy = s.sec.policy ∧
      t.rst.boardFlash = s.rst.boardFlash ∧ t.rel.orderly = false))

/-- R363, R364, R516, R810: CTX_CREATE whose parameters pass the checks makes a RESIDENT context of the lowest free
number, with the cores asked for, the defaults of R364 for parameters of 0, every quota zero, nothing owned, and a
fresh key set; the reply carries its number and partition. A CTX_CREATE that fails a check changes nothing, and the
reason is that of the first check that fails: parameters, cores, partition, number. R366, R367, R477, R550, R658,
R706: CTX_DESTROY of a context with no job, no image, no queued RUN and no chunk being scanned is answered with its
account record and leaves it DESTROYING, with no object, stream or sequence, a zero-fill pending for each object that
lay in T3 or T4, no lane, no vote, no ISP context, and no audio; no byte of T3 or T4 changes, nor, with no frame under
way, of T1 or T2. During a fence it waits. Key retirement of a context whose zero-fills are complete frees its number
and its key set. -/
def Obligations.ContextsAreCreatedAndDestroyed : Prop :=
  (∀ (rq : Req) (p : CtxParams) (s : State), Live rq s →
    (createCheck s p = none → ∀ c, (∀ k < c, (tget? s.ctxs k).isSome) → tget? s.ctxs c = none →
      ∃ x, Answered (.ctxCreate rq p) s rq 0x0100 c .ok .none (leBytes 2 c ++ leBytes 1 x.partition ++ [0])
          { s with
            ctxs := tset s.ctxs c x,
            sec := { s.sec with keys := insertNum s.sec.nextKey s.sec.keys, nextKey := s.sec.nextKey + 1 } } ∧
        x.st = .resident ∧ x.sealed = (p.sealed == 1) ∧ x.cores = p.cores ∧ x.key = s.sec.nextKey ∧
        x.boundUs = (if p.boundUs = 0 then 200 else p.boundUs) ∧ x.remoteMs = (if p.remoteMs = 0 then 50 else p.remoteMs) ∧
        x.quantumUs = (if p.quantumUs = 0 then 2000 else p.quantumUs) ∧ x.quotas = {} ∧ x.objs = [] ∧ x.images = [] ∧
        x.job = none ∧ x.runQ = [] ∧ x.seqs = [] ∧ x.streams = [] ∧ x.acct = {}) ∧
    (∀ st r, createCheck s p = some (st, r) → Answered (.ctxCreate rq p) s rq 0x0100 0 st r [] s) ∧
    (createParamsOk p = false → createCheck s p = some (.refused, .ctxParam)) ∧
    (createParamsOk p = true → createCoresOk s p = false → createCheck s p = some (.refused, .ctxCores)) ∧
    (createParamsOk p = true → createCoresOk s p = true → createPartitionOk s p = false →
      createCheck s p = some (.refused, .ctxPartition))) ∧
  ((∀ (rq : Req) (x : Ctx) (s : State), Live rq s → s.rel.fencing = [] → s.rel.repairing = none → liveCtx s rq.ctx = some x →
    x.job = none → x.images = [] → x.runQ = [] → x.retiring = false → chunkOf s rq.ctx = false →
    ∃ t y, exec (.ctxDestroy rq) s = .next t ∧ Replied rq 0x0101 rq.ctx .ok .none (acctRecord rq.ctx x) t ∧
      tget? t.ctxs rq.ctx = some y ∧ y.st = .destroying ∧ y.retiring = true ∧ y.objs = [] ∧ y.streams = [] ∧ y.seqs = [] ∧
      (∀ h o, tget? x.objs h = some o → o.homeTier = 3 ∨ o.homeTier = 4 → (tget? y.fills h).isSome) ∧
      (∀ v ∈ t.pwr.votes, ¬(v.cls = 0 ∧ v.id = rq.ctx)) ∧ (∀ l ∈ t.lanes, l.2.owner ≠ some rq.ctx) ∧
      (∀ o ∈ t.cam.owners, o.2 ≠ rq.ctx) ∧ t.aud.owner ≠ some rq.ctx ∧
      (s.cam.frames = [] → t.decks = s.decks ∧ t.span = s.span) ∧ t.t3 = s.t3 ∧ t.t4 = s.t4) ∧
  (∀ (rq : Req) (s : State), s.rel.fencing ≠ [] ∨ s.rel.repairing ≠ none →
    exec (.ctxDestroy rq) s = .next { s with rel := { s.rel with heldDestroys := s.rel.heldDestroys ++ [rq] } }) ∧
  (∀ (rq : Req) (s : State), Live rq s → s.rel.fencing = [] → s.rel.repairing = none → liveCtx s rq.ctx = none →
    Answered (.ctxDestroy rq) s rq 0x0101 rq.ctx .noContext .ctxUnknown [] s) ∧
  (∀ (c : Nat) (x : Ctx) (s : State), tget? s.ctxs c = some x → x.retiring = true →
    (x.fills = [] → exec (.keyRetirement c) s = .next { s with
      ctxs := terase s.ctxs c,
      sec := { s.sec with keys := s.sec.keys.filter (fun k => !(k == x.key)) },
      sealedRegions := s.sealedRegions.filter (fun r => !(r.2 == c)) }) ∧
    (x.fills ≠ [] → exec (.keyRetirement c) s = .next s)))

/-- R191, R193, R395, R396, R586, R808: CTX_QUOTA_SET sets a context's quotas when they pass the passes of R808 and
answers them, a Sealed context's T3 quota rounded up to a multiple of 16,384 granules; otherwise it changes nothing
and is refused with the reason of the first pass that fails. ACCOUNT_READ answers the account record of 288 bytes, in
which the control, vector and energy counters of a job that holds its cores have advanced, and changes nothing else;
without such a job it changes nothing. R391 to R394, R812: PREEMPT in mode PARK of a context that is not RESIDENT, is
Sealed, has a job or a queued RUN, or already parks or unloads is refused with PREEMPT_STATE. The firmware's part of
any other starts when its cores and banks are up, and until then the command waits. One whose park area does not fit
is answered NO_QUOTA with CTX_PARK_QUOTA, its evictions standing; any other is charged its park area and its windows
close, and it goes on as soon as they are closed, no tag is held and the cores and banks of its write-backs are up:
with no upper copy in T1 or T2 the context is PARKED and the command is answered. A RUN at the head of a PARKED
context's queue brings it in: it is RESIDENT and starts its next job, once the cores and banks of its copies are up;
where a share cannot be placed, the RUN is answered NO_QUOTA with CTX_BRING_IN and the context stays PARKED. -/
def Obligations.QuotasAndParking : Prop :=
  (∀ (rq : Req) (quotas q : Quotas) (x : Ctx) (s : State), Live rq s → liveCtx s rq.ctx = some x →
    q = (if x.sealed then { quotas with t3 := roundUp quotas.t3 16384 } else quotas) →
    (quotaCheck s rq.ctx x q = none →
      Answered (.ctxQuotaSet rq quotas) s rq 0x0102 rq.ctx .ok .none (quotaBody q) (setCtx s rq.ctx { x with quotas := q })) ∧
    (∀ r, quotaCheck s rq.ctx x q = some r → Answered (.ctxQuotaSet rq quotas) s rq 0x0102 rq.ctx .refused r [] s) ∧
    (∃ u y, Answered (.accountRead rq) s rq 0x01A1 rq.ctx .ok .none (acctRecord rq.ctx y) u ∧ tget? u.ctxs rq.ctx = some y ∧
      (x.job.all (fun j => !j.onCores) = true → u = s) ∧
      x.acct.control ≤ y.acct.control ∧ x.acct.vector ≤ y.acct.vector ∧ x.acct.energy ≤ y.acct.energy ∧
      y = { x with meter := y.meter, acct := { x.acct with
        control := y.acct.control, vector := y.acct.vector, energy := y.acct.energy } } ∧
      u = { s with ctxs := u.ctxs, draws := u.draws } ∧ ∀ d, d ≠ rq.ctx → tget? u.ctxs d = tget? s.ctxs d) ∧
    (acctRecord rq.ctx x).length = 288 ∧ field (acctRecord rq.ctx x) 8 8 = x.acct.mxe % 2 ^ 64 ∧
    field (acctRecord rq.ctx x) 48 8 = x.acct.runs % 2 ^ 64) ∧
  ((∀ (rq : Req) (x : Ctx) (s : State), Live rq s → liveCtx s rq.ctx = some x →
    (x.st ≠ .resident ∨ x.sealed = true ∨ x.job ≠ none ∨ x.runQ ≠ [] ∨ x.parking ≠ none ∨ x.unloading ≠ [] →
      Answered (.preemptPark rq) s rq 0x0132 rq.ctx .refused .preemptState [] s) ∧
    (x.st = .resident → x.sealed = false → x.job = none → x.runQ = [] → x.parking = none → x.unloading = [] →
      ∀ u fits, makeRoom s rq.ctx 3 0 (parkGranules x) = (u, fits) →
        (fits = false → Ready s u rq.ctx →
          exec (.preemptPark rq) s = .next (replyC u rq 0x0132 .noQuota .ctxParkQuota [])) ∧
        (fits = true → ∃ v y, tget? v.ctxs rq.ctx = some y ∧ y.parking = some rq ∧ y.parked.granules = parkGranules x ∧
          (Ready s v rq.ctx → exec (.preemptPark rq) s = .next (finishPark v rq.ctx)) ∧
          (workReady s v rq.ctx = false →
            exec (.preemptPark rq) s = .next (onFirmware s v rq.ctx (.preemptPark rq))) ∧
          (allQuiet v rq.ctx y = false → finishPark v rq.ctx = v) ∧
          (allQuiet v rq.ctx y = true → workReady v (parkDone v rq.ctx y rq) rq.ctx = true →
            finishPark v rq.ctx = parkDone v rq.ctx y rq) ∧
          (upperObjs y = [] → ∃ w z, parkDone v rq.ctx y rq = replyC w rq 0x0132 .ok .none [] ∧
            tget? w.ctxs rq.ctx = some z ∧ z.st = .parked ∧ z.parking = none ∧ z.parked.granules = parkGranules x)))) ∧
  (∀ (c : Nat) (x : Ctx) (r : RunReq) (rest : List RunReq) (s : State),
    tget? s.ctxs c = some x → x.st = .parked → x.runQ = r :: rest → slotRuns x r.slot = true → entriesWith s c ≤ 64 →
    (placeAll s c = none → Live r.req s → r.milestone = none →
      Answered (.bringIn c) s r.req 0x0130 r.req.ctx .noQuota .ctxBringIn [] (modCtx s c (fun y => { y with runQ := rest }))) ∧
    (∀ u v, placeAll s c = some u → bringIn u c x = .ok v →
      (workReady s v c = false → exec (.bringIn c) s = .next s) ∧
      (workReady s v c = true → ∃ w y, exec (.bringIn c) s = .next (startNext w c) ∧ tget? w.ctxs c = some y ∧
        y.st = .resident))))

/-- R374, R539, R685, R689: a RUN of a loaded image whose context has neither a job nor a queued RUN starts a job, the
first phase's stages at their start, and is answered with an interim reply; turns are then given by the schedule.
While a job runs it is queued, up to 16 of them, and a 17th is BUSY with RUN_QUEUE_FULL; an empty slot, and one whose
image is being unloaded, is refused with LOAD_EMPTY (the latter by the model's choice, entry 102) and an image that a
repair robbed of its program rows with REL_RELOAD_NEEDED. R379, R390, R401: RUN_CANCEL and PREEMPT in mode YIELD.
YIELD on a Sealed context, or on one with no job on its cores, is answered at once and has no effect. RUN_CANCEL
answers every queued RUN with PREEMPTED and SCHED_CANCELLED, and with no job is answered. On a running job with a
stage that is not yet at a pre-emption point either orders it to stop and is answered when it has; a stronger order
that stands already stays. On one whose stages are all there, RUN_CANCEL completes it with PREEMPTED and
SCHED_CANCELLED, which counts as a switch out (R396), or with its own status if it had ended already (R401). -/
def Obligations.RunsStartCancelAndYield : Prop :=
  (∀ (rq : Req) (slot param : Nat) (x : Ctx) (s : State), Live rq s → liveCtx s rq.ctx = some x →
    (tget? x.images slot = none → Answered (.run rq slot param) s rq 0x0130 rq.ctx .refused .loadEmpty [] s) ∧
    (slotRuns x slot = false → Answered (.run rq slot param) s rq 0x0130 rq.ctx .refused .loadEmpty [] s) ∧
    (∀ im, tget? x.images slot = some im → slotRuns x slot = true →
      (im.reload = true → Answered (.run rq slot param) s rq 0x0130 rq.ctx .refused .relReloadNeeded [] s) ∧
      (im.reload = false → 16 ≤ x.runQ.length → Answered (.run rq slot param) s rq 0x0130 rq.ctx .busy .runQueueFull [] s) ∧
      (im.reload = false → x.runQ.length < 16 → x.job ≠ none →
        exec (.run rq slot param) s = .next (modCtx (interim s rq 0x0130 rq.ctx) rq.ctx
          (fun y => { y with runQ := y.runQ ++ [{ req := rq, slot := slot, param := param }] }))) ∧
      (im.reload = false → x.runQ = [] → descending s = false → x.job = none → x.st = .resident → x.parking = none →
        (∀ n ∈ imageCores im, n ∉ s.fenced) →
        ∃ u y j, exec (.run rq slot param) s = .next (schedule u) ∧ tget? u.ctxs rq.ctx = some y ∧ y.job = some j ∧
          y.runQ = [] ∧ y.jobs = x.jobs + 1 ∧ j.run = { req := rq, slot := slot, param := param } ∧
          j.id = (x.jobs + 1) % 2 ^ 32 ∧ j.phase = 0 ∧ j.stages = phaseRuns im 0 ∧ j.onCores = false ∧ j.ended = none ∧
          u.net.sent.head? = some
            { sess := rq.sess, cls := .rsp, op := 0x0130, seq := rq.seq, ctx := rq.ctx, interim := true,
              wire := some (wireTo s rq.iface rq.port rq.src rq.sport) } ∧
          (∀ c, c ≠ rq.ctx → tget? u.ctxs c = tget? s.ctxs c) ∧
          u = { s with net := { s.net with sent := u.net.sent }, ctxs := u.ctxs, draws := u.draws }))) ∧
  (∀ (rq : Req) (x : Ctx) (s : State), Live rq s → liveCtx s rq.ctx = some x →
    (x.job = none → Answered (.preemptYield rq) s rq 0x0132 rq.ctx .ok .none [] s) ∧
    (∀ j, x.job = some j → x.sealed = true ∨ j.onCores = false →
      Answered (.preemptYield rq) s rq 0x0132 rq.ctx .ok .none [] s) ∧
    (x.job = none → exec (.runCancel rq) s = .next (replyC
      (x.runQ.foldl cancelRun (modCtx s rq.ctx (fun y => { y with runQ := [] }))) rq 0x0131 .ok .none [])) ∧
    (∀ j, x.job = some j → j.onCores = true → allAtPoint s j = false →
      (x.sealed = false → j.order = none ∨ j.order = some .turn → ∃ t, exec (.preemptYield rq) s = .next t ∧
        tget? t.ctxs rq.ctx = some { x with job := some { j with order := some .yield, waiters := j.waiters ++ [(rq, 0x0132)] } } ∧
        (∀ c, c ≠ rq.ctx → tget? t.ctxs c = tget? s.ctxs c) ∧ t = { s with ctxs := t.ctxs }) ∧
      (j.order ≠ some .destroy → ∃ t, exec (.runCancel rq) s = .next t ∧
        tget? t.ctxs rq.ctx = some { x with
          runQ := []
          job := some
            { j with
              order := some .cancel, waiters := j.waiters ++ [(rq, 0x0131)], cancelStalled := x.st == .stalled } } ∧
        (∀ c, c ≠ rq.ctx → tget? t.ctxs c = tget? s.ctxs c) ∧
        t = { s with net := t.net, draws := t.draws, rel := t.rel, aud := t.aud, ctxs := t.ctxs })) ∧
    (∀ j, x.job = some j → j.onCores = true → allAtPoint s j = true → x.st = .resident → j.order ≠ some .destroy →
      ∀ st r, (st, r) = j.ended.getD (.preempted, .schedCancelled) →
      ∃ u y k, exec (.runCancel rq) s = .next (startNext (schedule (completeJob u rq.ctx st r)) rq.ctx) ∧
        tget? u.ctxs rq.ctx = some y ∧ y.runQ = [] ∧ y.job = some k ∧ k.run = j.run ∧
        k.waiters = j.waiters ++ [(rq, 0x0131)] ∧
        y.acct.preemptions = x.acct.preemptions + (if j.ended = none then 1 else 0) ∧
        u = { s with net := u.net, draws := u.draws, rel := u.rel, aud := u.aud, ctxs := u.ctxs, sched := u.sched }))

/-- R376: at the end of a quantum, when no other entry of the slot table has a runnable job, the same entry begins a new
quantum. When another has one, the next such entry takes its turn, and every Shared job outside it that holds its
cores, runs on and has no order yet is ordered to stop; the premise says that none of those stands at a pre-emption
point already. Turns are then given by the schedule. R244, R264, R374, R378, R380, R384: a stage boundary counts and,
while no order to stop stands, does nothing else. A stage of a job under an order whose engines are idle stops at its
pre-emption point, and the switch follows the last one. A job that has not stopped in time ends with SCHED_NO_BOUNDARY
and leaves its cores. A job that has ended completes: its RUN is answered with the end's status and reason, and the
context's next RUN starts. -/
def Obligations.JobsStopAndComplete : Prop :=
  (∀ (s : State) (i : Nat), s.sched.turn = some i →
    (otherRunnable s = false → exec .quantumExpire s = .next (schedule (beginTurn s i))) ∧
    (∀ n, otherRunnable s = true → nextEntry s i = some n → (s.ctxs.map Prod.fst).Nodup →
      ∀ out : Ctx → Job → Prop, (∀ x j, out x j ↔ x.sealed = false ∧ x.job = some j ∧ j.onCores = true ∧ j.order = none ∧
          j.ended = none) →
      (∀ c x j, c ∉ s.sched.entries.getD n [] → tget? s.ctxs c = some x → out x j → allAtPoint s j = false) →
      ∃ u, exec .quantumExpire s = .next (schedule u) ∧ u.sched = { s.sched with turn := some n } ∧
        (∀ c x j, c ∉ s.sched.entries.getD n [] → tget? s.ctxs c = some x → out x j →
          tget? u.ctxs c = some { x with job := some { j with order := some .turn } }) ∧
        (∀ c x, c ∉ s.sched.entries.getD n [] → tget? s.ctxs c = some x → (∀ j, ¬ out x j) → tget? u.ctxs c = some x) ∧
        (∀ c x, c ∈ s.sched.entries.getD n [] → tget? s.ctxs c = some x →
          tget? u.ctxs c = some { x with job := x.job.map (fun j => { j with yielded := false }) }) ∧
        u = { s with sched := u.sched, ctxs := u.ctxs })) ∧
  ((∀ (core slot c : Nat) (x : Ctx) (j : Job) (s : State), stageCtx s core slot = some c → tget? s.ctxs c = some x →
    x.job = some j →
    (j.order = none → exec (.stageBoundary core slot) s = .next (modStage s c core slot (fun r => { r with boundary := r.boundary + 1 }))) ∧
    (j.order ≠ none → engineBusy s core slot = false →
      exec (.preemptionPoint core slot) s = .next (settle (tryStop (modStage s c core slot
        (fun r => if r.st = .running then { r with st := .stopped } else r)) c) c)) ∧
    (j.order ≠ none → engineBusy s core slot = true → exec (.preemptionPoint core slot) s = .next (settle s c)) ∧
    (j.order ≠ none → j.onCores = true → j.ended = none →
      ∃ t y, exec (.schedNoBoundary c) s = .next t ∧ tget? t.ctxs c = some y ∧
        (y.job.map Job.ended) = some (some (.fault, .schedNoBoundary)) ∧ (y.job.map Job.onCores) = some false ∧
        (y.job.map Job.order) = some none ∧ y.acct.preemptions = x.acct.preemptions + 1)) ∧
  (∀ (c : Nat) (x : Ctx) (j : Job) (st : Status) (r : Reason) (s : State), tget? s.ctxs c = some x → x.job = some j →
    j.ended = some (st, r) → j.waiters = [] →
    ∃ u y, exec (.jobComplete c) s = .next (settle (startNext (schedule u) c) c) ∧ tget? u.ctxs c = some y ∧ y.job = none ∧
      y.acct.runs = x.acct.runs + 1 ∧ (∀ d, d ≠ c → tget? u.ctxs d = tget? s.ctxs d) ∧
      (Live j.run.req s → ∃ b, Replied j.run.req 0x0130 j.run.req.ctx st r b u ∧
        field b 0 4 = j.id % 2 ^ 32 ∧ field b 4 1 = j.phase % 256 ∧ b.length = 16)))

/-- R386, R388: when the timer of a remote wait runs out, a RESIDENT context whose window takes writes of another device
enters STALLED, counts it, leaves the slot table, reports CTX_REMOTE_TIMEOUT with the window's name, and its job is
ordered to stop; a wait on a window that no other device writes has no timer. -/
def Obligations.RemoteTimeoutStalls : Prop :=
  ∀ (c core slot sp win k : Nat) (x : Ctx) (j : Job) (r : StageRun) (s : State),
    tget? s.ctxs c = some x → x.job = some j → j.stages.find? (fun q => q.core == core && q.slot == slot) = some r →
    (s.ctxs.map Prod.fst).Nodup → r.st = .waiting sp win → keyOf s c j.run.slot sp win = some k → x.st = .resident →
    ((winAt s k).writers < 2 ^ 24 → exec (.ctxRemoteTimeout c core slot) s = .next s) ∧
    (2 ^ 24 ≤ (winAt s k).writers →
      ∃ u y, exec (.ctxRemoteTimeout c core slot) s =
          .next (orderStop (emit u (some c) .stalled .ctxRemoteTimeout (leBytes 2 c ++ leBytes 1 sp ++ leBytes 1 win)) c .stall) ∧
        tget? u.ctxs c = some y ∧ y.st = .stalled ∧ y.acct.stalls = x.acct.stalls + 1 ∧
        (y.job.map Job.stalledOn) = some (some (core, slot)) ∧ (∀ e ∈ u.sched.entries, c ∉ e) ∧
        u = { s with ctxs := u.ctxs, sched := u.sched })

/-- R228, R243, R264, R265, R812: a prefetch entry whose trigger the job has reached goes to a firmware queue and counts
as issued. A phase whose stages can all end ends, any prefetch entry left being issued and every complete row of the
chip Junction written first; unless that ended the job, then with rows of the chip Junction incomplete the job ends
with PIPE_JCT_ORDER, with no successor the job has ended OK; with one that the image names the transition to it
begins; with any other the job ends with PIPE_SUCCESSOR. R267: a transition's plan. RESHARD_START of a plan that opens
no window issues the moves of step 0; when the moves of a step are complete and later steps remain, the next step's
are issued; after the last step the close entries are performed, and with none of them the next phase starts, its
stages at their start and with every boundary count 0. -/
def Obligations.PhasesAndReshard : Prop :=
  ((∀ (c slot : Nat) (im : Image) (x : Ctx) (j : Job) (e : PrefetchEnt) (s : State),
    tget? s.ctxs c = some x → x.job = some j → tget? x.images slot = some im → j.run.slot = slot → j.trans = none →
    j.ended = none → (phasePrefetch im j.phase)[im.prefetchNext]? = some e →
    (prefetchDue j e = false → exec (.prefetchIssue c slot) s = .next s) ∧
    (prefetchDue j e = true → exec (.prefetchIssue c slot) s = .next (firmwarePush
      (modCtx s c (fun y => { y with images := tmod y.images slot (fun m => { m with prefetchNext := m.prefetchNext + 1 }) }))
      (prefetchCore im e) c slot .prefetch (boundBody s c slot im e.body)))) ∧
  (∀ (c : Nat) (x : Ctx) (j : Job) (im : Image) (s : State), tget? s.ctxs c = some x → x.job = some j →
    tget? x.images j.run.slot = some im → j.onCores = true → j.trans = none → j.ended = none → stagesCanEnd s j = true →
    ∀ v u, v = jctFlush (issueAllPrefetch c j.run.slot im.prefetch.length s) c →
      u = modJob v c (fun k => { k with stages := k.stages.map (fun r => { r with st := .ended }) }) →
      ((tget? v.ctxs c).bind Ctx.job).any (fun k => k.ended.isSome) = false →
      (∀ succ, jctIncomplete v c = true → exec (.phaseEnd c succ) s = .next (failJob u c .pipeJctOrder)) ∧
      (jctIncomplete v c = false →
        exec (.phaseEnd c none) s = .next (modJob u c (fun k => { k with ended := some (.ok, .none) })) ∧
        ∀ q ph, im.phases.find? (fun e => e.phase == j.phase) = some ph →
          (bit ph.succ q = true → exec (.phaseEnd c (some q)) s =
            .next (modJob u c (fun k => { k with trans := some { src := j.phase, dst := q } }))) ∧
          (bit ph.succ q = false → exec (.phaseEnd c (some q)) s = .next (failJob u c .pipeSuccessor))))) ∧
  (∀ (c : Nat) (x : Ctx) (j : Job) (im : Image) (w : Trans) (s : State), tget? s.ctxs c = some x → x.job = some j →
    j.trans = some w → tget? x.images j.run.slot = some im →
    (w.begun = true → exec (.reshardStart c) s = .next s) ∧
    (w.begun = false → (planOf im w).filter (fun e => e.kind == 0) = [] →
      exec (.reshardStart c) s = .next (planStep s c j.run.slot im w 0)) ∧
    (w.begun = true → w.left = 0 → w.failed = false → (planOf im w).any (fun e => e.kind == 1 && decide (w.step < e.step)) = true →
      exec (.reshardStepComplete c) s = .next (planStep s c j.run.slot im w (w.step + 1))) ∧
    (w.begun = true → w.left = 0 → w.failed = true → j.ended = none →
      ∃ t y, exec (.reshardStepComplete c) s = .next t ∧ tget? t.ctxs c = some y ∧
        (y.job.map Job.ended) = some (some (.fault, .pipeReshard)) ∧ (y.job.map Job.trans) = some none) ∧
    (w.begun = true → w.left = 0 → w.failed = false → 
      (∀ e ∈ planOf im w, e.kind ≠ 2 ∧ (e.kind = 1 → e.step ≤ w.step)) → j.order = none →
      ∃ u y k, exec (.reshardStepComplete c) s = .next (tryStop u c) ∧ tget? u.ctxs c = some y ∧ y.job = some k ∧
        k.phase = w.dst ∧ k.stages = phaseRuns im w.dst ∧ k.trans = none ∧ (∀ r ∈ k.stages, r.boundary = 0 ∧ r.st = .running) ∧
        u = { s with ctxs := u.ctxs }))

/-- R187, R188, R196, R806, R807: OBJ_ALLOC that passes the checks and needs no eviction takes the lowest free handle and
places the object: in T3 or T4 at its granules, which then, where the tier answers, read as zeros unless NO_FILL is
set while every other byte of the tier keeps its value, and in T1 or T2 at its row of the named image's share, where
no byte changes. The reply is the handle. (The firmware's work for it can begin at once: what happens otherwise is the
subject of another statement.) One that fails a check changes nothing. R231, R232, R239, R284, R418, R812: OBJ_FREE of
an object that no tag, image, ISP context or stream holds makes its handle invalid and, for a home in T3 or T4, leaves
the zero-fill of its granules pending, for which the firmware casts its vote; no page-table entry names the handle any
more, and its count is gone. One that a tag or an enabled ISP context holds is BUSY with OBJ_BUSY, one that a loaded
image names is refused with OBJ_IMAGE, and a stream's state object with STREAM_OBJECT. ZERO_FILL_COMPLETE writes zeros
over exactly the granules of the fill and frees the handle, when the core that fills is up. -/
def Obligations.ObjectsAreAllocatedAndFreed : Prop :=
  (∀ (rq : Req) (flags tiles stored loc : Nat) (x : Ctx) (o : Obj) (s : State), Live rq s → liveCtx s rq.ctx = some x →
    o = objOfFlags flags tiles stored →
    (∀ st r, allocCheck s x o loc = some (st, r) →
      Answered (.objAlloc rq flags tiles stored loc) s rq 0x0110 rq.ctx st r [] s) ∧
    (∀ h a u t, allocCheck s x o loc = none → freeHandle x = some h → 3 ≤ o.homeTier →
      (o.sealed = true → sealedFull s rq.ctx (o.storedM1 + 1) = false) → fits x o.homeTier 0 (o.storedM1 + 1) = true →
      placeHome s rq.ctx o.homeTier (o.storedM1 + 1) o.sealed = some a →
      u = (allocObj s rq.ctx o loc).1 → t = replyC u rq 0x0110 .ok .none (leBytes 2 h ++ [0, 0]) → Ready s t rq.ctx →
      ∃ y p, exec (.objAlloc rq flags tiles stored loc) s = .next t ∧
        Replied rq 0x0110 rq.ctx .ok .none (leBytes 2 h ++ [0, 0]) t ∧ tget? u.ctxs rq.ctx = some y ∧ tget? y.objs h = some p ∧
        p = { o with home := a, regions := if o.sealed then regionsOf a (o.storedM1 + 1) else [] } ∧
        (∀ k, k ≠ h → tget? y.objs k = tget? x.objs k) ∧
        (tierFault s o.homeTier = none → ∀ b, memGet (extOf u o.homeTier).mem b =
          if o.nofill = false ∧ a * 4096 ≤ b ∧ b < (a + (o.storedM1 + 1)) * 4096 then 0
          else memGet (extOf s o.homeTier).mem b) ∧
        u = { s with
          ctxs := u.ctxs, draws := u.draws, t3 := u.t3, t4 := u.t4, ddr := u.ddr, sealedRegions := u.sealedRegions }) ∧
    (∀ h first len u t, allocCheck s x o loc = none → freeHandle x = some h → o.homeTier ≤ 2 →
      homeShare x o loc = some (first, len) →
      u = (allocObj s rq.ctx o loc).1 → t = replyC u rq 0x0110 .ok .none (leBytes 2 h ++ [0, 0]) → Ready s t rq.ctx →
      ∃ y, exec (.objAlloc rq flags tiles stored loc) s = .next t ∧
        Replied rq 0x0110 rq.ctx .ok .none (leBytes 2 h ++ [0, 0]) t ∧ tget? u.ctxs rq.ctx = some y ∧
        tget? y.objs h = some { o with home := first + bits loc 23 0, homeCore := bits loc 31 29 } ∧
        (∀ k, k ≠ h → tget? y.objs k = tget? x.objs k) ∧ u = { s with ctxs := u.ctxs })) ∧
  ((∀ (rq : Req) (h : Nat) (x : Ctx) (o : Obj) (s : State), Live rq s → liveCtx s rq.ctx = some x → tget? x.objs h = some o →
    (tagsHeld s rq.ctx h = true ∨ ispNames s rq.ctx h = true →
      Answered (.objFree rq h) s rq 0x0111 rq.ctx .busy .objBusy [] s) ∧
    (tagsHeld s rq.ctx h = false → ispNames s rq.ctx h = false →
      (imageNames x h = true → Answered (.objFree rq h) s rq 0x0111 rq.ctx .refused .objImage [] s) ∧
      (imageNames x h = false → streamOf x h ≠ none →
        Answered (.objFree rq h) s rq 0x0111 rq.ctx .refused .streamObject [] s) ∧
      (imageNames x h = false → streamOf x h = none →
        ∀ y t, y = dropPtes (freeObj x h o) h → t = replyC (setCtx s rq.ctx y) rq 0x0111 .ok .none [] →
          workReady s t rq.ctx = true →
          exec (.objFree rq h) s = .next (firmwareVote s t (newFillCores s t rq.ctx)) ∧
          Replied rq 0x0111 rq.ctx .ok .none [] t ∧ OnlyReply rq (setCtx s rq.ctx y) t ∧ tget? y.objs h = none ∧
          (∀ k, k ≠ h → tget? y.objs k = tget? x.objs k ∧ tget? y.fills k = tget? x.fills k) ∧
          (3 ≤ o.homeTier → o.homeTier ≤ 4 → ∃ z, tget? y.fills h = some z ∧ z.tier = o.homeTier ∧ z.first = o.home ∧
            z.count = o.storedM1 + 1 ∧ z.sealed = o.sealed ∧ z.regions = o.regions) ∧
          (o.homeTier ≤ 2 → y.fills = x.fills) ∧
          tget? y.refs h = none ∧ (∀ q ∈ y.seqs, ∀ p ∈ q.2.ptes, p.2.page ≠ some h) ∧
          y = { x with objs := y.objs, fills := y.fills, seqs := y.seqs, refs := y.refs }))) ∧
  (∀ (c h : Nat) (x : Ctx) (z : ZeroFill) (s : State), tget? s.ctxs c = some x → tget? x.fills h = some z →
    (fillHeld s c h = true ∨ (∃ n ∈ fillCores s c x, bit s.pwr.up n = false) →
      exec (.zeroFillComplete c h) s = .next s) ∧
    (fillHeld s c h = false → (∀ n ∈ fillCores s c x, bit s.pwr.up n = true) → ∃ t y, exec (.zeroFillComplete c h) s = .next t ∧ tget? t.ctxs c = some y ∧
      tget? y.fills h = none ∧ y.objs = x.objs ∧ (∀ d, d ≠ c → tget? t.ctxs d = tget? s.ctxs d) ∧
      (∀ b, memGet (extOf t z.tier).mem b =
        if z.first * 4096 ≤ b ∧ b < (z.first + z.count) * 4096 then 0 else memGet (extOf s z.tier).mem b) ∧
      t = { s with
        ctxs := t.ctxs, draws := t.draws, t3 := t.t3, t4 := t.t4, ddr := t.ddr, sealedRegions := t.sealedRegions })))

/-- R537: OBJ_WRITE that nothing bars stores its bytes from the OFFSET of the object's home on, and changes no other byte:
of the tier for a home in T3 or T4, and of what any Deck or the Span reads for one in T1 or T2. The object keeps no
upper copy. (The copies that a Trunk sends to mirroring Branches are the subject of another statement.). R537, R602,
R652, R667: OBJ_READ of more bytes than the session's granted MAX_PAYLOAD is MALFORMED with ETH_LENGTH; of a valid
range it answers the bytes at the object's home, after the write-back of a DIRTY upper copy, counts them and makes the
copy clean; a line that does not verify delivers no data and the status is FAULT. The bytes that a write to T3 or T4
has stored under a key that is held read back as they were written, in a SEALED object where the counter tree
verifies. R650, R652, R656, R657: the counter tree of a SEALED region. When a granule's major counter increments,
every node on its path is tagged afresh up to the on-chip root, whose counter increments, so that every path that
verified still verifies; no other major counter changes. A write of a SEALED line increments its MINOR, and at 255 the
granule's major counter, with MINOR 0 in every line of it. A SEALED line is read only where its MAJOR is the tree's
and the path verifies; else the read fails with SEC_REPLAY. -/
def Obligations.ObjectsAreWrittenAndRead : Prop :=
  (∀ (rq : Req) (h off : Nat) (data : Bytes) (x : Ctx) (o : Obj) (s : State), Live rq s → liveCtx s rq.ctx = some x →
    tget? x.objs h = some o →
    (∀ st r, objWriteFault s rq.ctx h off data.length x o = some (st, r) →
      Answered (.objWrite rq h off data) s rq 0x0112 rq.ctx st r [] s) ∧
    (objWriteFault s rq.ctx h off data.length x o = none → mirrorTargets s rq.ctx = [] →
      ∃ u y, Answered (.objWrite rq h off data) s rq 0x0112 rq.ctx .ok .none [] u ∧
        tget? u.ctxs rq.ctx = some y ∧ tget? y.objs h = some { o with upper := none } ∧
        y.acct.hostIn = x.acct.hostIn + data.length ∧
        (3 ≤ o.homeTier → o.homeTier ≤ 4 →
          (∀ b, memGet (extOf u o.homeTier).mem b =
            if o.home * 4096 + off ≤ b ∧ b < o.home * 4096 + off + data.length then data.getD (b - (o.home * 4096 + off)) 0
            else memGet (extOf s o.homeTier).mem b) ∧
          u = { s with ctxs := u.ctxs, draws := u.draws, t3 := u.t3, t4 := u.t4, ddr := u.ddr }) ∧
        (o.homeTier ≤ 2 → ∀ home, home = (if o.homeTier = 2 then 9 else physOf s o.homeCore) →
          (ramOf u home).read (o.home * 256 + off) data.length = data ∧
          (∀ b, b < o.home * 256 + off ∨ o.home * 256 + off + data.length ≤ b →
            (ramOf u home).read b 1 = (ramOf s home).read b 1) ∧
          (∀ g, g ≠ home → ramOf u g = ramOf s g) ∧ u = { s with ctxs := u.ctxs, draws := u.draws, decks := u.decks, span := u.span }))) ∧
  ((∀ (rq : Req) (h len off : Nat) (x : Ctx) (o : Obj) (s : State), Live rq s → liveCtx s rq.ctx = some x →
    tget? x.objs h = some o →
    ∀ most, most = ((tget? s.net.sessions rq.sess).map Session.maxPayload).getD 8192 →
    (most < len → Answered (.objRead rq h len off) s rq 0x0113 rq.ctx .malformed .ethLength [] s) ∧
    (len ≤ most → rangeOk o off len = false → Answered (.objRead rq h len off) s rq 0x0113 rq.ctx .fault .objRange [] s) ∧
    (len ≤ most → rangeOk o off len = true →
      (∀ v r t, saveUpper s rq.ctx h x o = (v, some r) → t = replyC (noteUe v o r) rq 0x0113 .fault r [] →
        Ready s t rq.ctx → exec (.objRead rq h len off) s = .next t) ∧
      (∀ v u, saveUpper s rq.ctx h x o = (v, none) →
        u = modCtx v rq.ctx (fun y => { y with objs := tset y.objs h { o with dirty := false } }) →
        (o.upper = none → u.t3 = s.t3 ∧ u.t4 = s.t4 ∧ u.decks = s.decks ∧ u.span = s.span) ∧
        (∀ d t, homeRead u x o off len = .ok d →
          t = replyC (countAct u rq.ctx (fun a => { a with hostOut := a.hostOut + len })) rq 0x0113 .ok .none d →
          Ready s t rq.ctx → exec (.objRead rq h len off) s = .next t) ∧
        (∀ r t, homeRead u x o off len = .error r →
          t = replyC (integrityFail (noteUe u { o with upper := none } r) rq.ctx o.homeTier (o.home + off / 4096) r)
            rq 0x0113 .fault r [] →
          Ready s t rq.ctx → exec (.objRead rq h len off) s = .next t)))) ∧
  (∀ (x : Ctx) (o : Obj) (off : Nat) (data : Bytes) (s : State), o.homeTier = 3 ∨ o.homeTier = 4 → off % 64 = 0 →
    s.sec.error = false → x.key ∈ s.sec.keys → (o.sealed = true → ∀ g, treeOk (extOf s o.homeTier) g = true) → (o.homeTier = 3 → s.ddr.inService = true) →
    (o.homeTier = 4 → s.pcie.ready = true) → homeRead (homeWrite s x o off data) x o off data.length = .ok data)) ∧
  ((∀ (e f : Ext) (g : Nat), f = bumpMajor e g →
    majorOf f g = majorOf e g + 1 ∧ (∀ h, h ≠ g → majorOf f h = majorOf e h) ∧
    tget f.roots 0 (regionOf g) = tget e.roots 0 (regionOf g) + 1 ∧
    (∀ r, r ≠ regionOf g → tget f.roots 0 r = tget e.roots 0 r) ∧
    treeOk f g = true ∧ (∀ h, treeOk e h = true → treeOk f h = true) ∧ f.mem = e.mem ∧ f.lines = e.lines) ∧
  (∀ (e f : Ext) (key ln : Nat) (old : Line), tget e.lines {} ln = old → f = tagLine e key true ln →
    (old.minor < 255 →
      tget? f.lines ln = some { key := key, major := majorOf e (ln / 64), minor := old.minor + 1 } ∧
      (∀ m, m ≠ ln → tget? f.lines m = tget? e.lines m) ∧ f.nodes = e.nodes ∧ f.roots = e.roots ∧ f.mem = e.mem) ∧
    (255 ≤ old.minor →
      tget? f.lines ln = some { key := key, major := majorOf e (ln / 64) + 1, minor := 0 } ∧
      majorOf f (ln / 64) = majorOf e (ln / 64) + 1 ∧ treeOk f (ln / 64) = true ∧ f.mem = e.mem ∧
      (∀ m l, m ≠ ln → m / 64 = ln / 64 → tget? e.lines m = some l →
        tget? f.lines m = some { l with major := majorOf e (ln / 64) + 1, minor := 0 }) ∧
      (∀ m, m / 64 ≠ ln / 64 → tget? f.lines m = tget? e.lines m))) ∧
  (∀ (s : State) (key ln : Nat) (l : Line), tierFault s 3 = none → ln ∉ s.t3.bad → tget? s.t3.lines ln = some l → l.key = key →
    key ∈ s.sec.keys →
    (l.major = majorOf s.t3 (ln / 64) → treeOk s.t3 (ln / 64) = true → lineFault s 3 key true ln = none) ∧
    (l.major ≠ majorOf s.t3 (ln / 64) ∨ treeOk s.t3 (ln / 64) = false → lineFault s 3 key true ln = some .secReplay) ∧
    (lineFault s 3 key false ln = none ↔ l.major = 0)))

/-- R185, R187, R418: OBJ_PLACE. PIN and UNPIN set and clear PINNED. PLACE into a tier that is not above the home, or on a
core that is not granted, is refused with OBJ_TIER, and while an enabled ISP context names the object it is BUSY.
Where the copy is placed, the object's upper copy is the one in the tier and core asked for, clean, and the reply
gives its place; where it is not, the reply gives the reason. REMOVE, BUSY while a tag is held or a running chunk
works on the copy (the latter by the model's choice, entry 105), writes a DIRTY copy back and leaves the object
without one. R236, R237, R372, R393, R812: a command whose effect moves upper copies waits while a core whose firmware
queue moves them, or a Span bank they use, is down: the command is held with what it needs, and nothing of its effect
stands. It is dispatched again once all of them are up, and no other held command is. When all are up its effect
stands at once. -/
def Obligations.ObjectPlacement : Prop :=
  (∀ (rq : Req) (h : Nat) (x : Ctx) (o : Obj) (s : State), Live rq s → liveCtx s rq.ctx = some x → tget? x.objs h = some o →
    Answered (.objPlacePin rq h) s rq 0x0114 rq.ctx .ok .none (upperLoc o)
      (setCtx s rq.ctx { x with objs := tset x.objs h { o with pinned := true } }) ∧
    Answered (.objPlaceUnpin rq h) s rq 0x0114 rq.ctx .ok .none (upperLoc o)
      (setCtx s rq.ctx { x with objs := tset x.objs h { o with pinned := false } }) ∧
    (∀ tier core, o.homeTier ≤ tier ∨ tier = 0 ∨ 3 < tier ∨ o.homeTier ≤ 2 ∨ (tier = 1 ∧ bit x.cores core = false) →
      Answered (.objPlacePlace rq h tier core) s rq 0x0114 rq.ctx .refused .objTier [] s) ∧
    (∀ tier core, 1 ≤ tier → tier ≤ 3 → tier < o.homeTier → 3 ≤ o.homeTier → (tier = 1 → bit x.cores core = true) →
      (ispNames s rq.ctx h = true → Answered (.objPlacePlace rq h tier core) s rq 0x0114 rq.ctx .busy .objBusy [] s) ∧
      (ispNames s rq.ctx h = false → o.upper = none →
        (∀ u w t, placeObj s rq.ctx h tier core o = (u, .ok w) →
          t = replyC u rq 0x0114 .ok .none (upperLoc { o with upper := some w }) → Ready s t rq.ctx →
          exec (.objPlacePlace rq h tier core) s = .next t ∧ w.tier = tier ∧ w.core = core ∧
          ∃ y, tget? u.ctxs rq.ctx = some y ∧ tget? y.objs h = some { o with upper := some w, dirty := false }) ∧
        (∀ u st r t, placeObj s rq.ctx h tier core o = (u, .error (st, r)) → t = replyC u rq 0x0114 st r [] →
          Ready s t rq.ctx → exec (.objPlacePlace rq h tier core) s = .next t)) ∧
      (ispNames s rq.ctx h = false → ∀ w, o.upper = some w → w.tier = tier → (tier = 1 → w.core = core) →
        Answered (.objPlacePlace rq h tier core) s rq 0x0114 rq.ctx .ok .none (upperLoc o) s)) ∧
    (tagsHeld s rq.ctx h = true ∨ chunkHeld s rq.ctx x h = true →
      Answered (.objPlaceRemove rq h) s rq 0x0114 rq.ctx .busy .objBusy [] s) ∧
    (tagsHeld s rq.ctx h = false → chunkHeld s rq.ctx x h = false →
      (∀ u t, releaseUpper s rq.ctx h o = (u, none) → t = replyC u rq 0x0114 .ok .none [0xFF, 0xFF, 0xFF, 0xFF] →
        Ready s t rq.ctx →
        ∃ y, exec (.objPlaceRemove rq h) s = .next t ∧ tget? u.ctxs rq.ctx = some y ∧
          tget? y.objs h = some { o with upper := none, dirty := false } ∧
          (o.upper = none ∨ o.dirty = false → u = { s with ctxs := u.ctxs })) ∧
      (∀ u r t, releaseUpper s rq.ctx h o = (u, some r) → t = replyC u rq 0x0114 .fault r [] → Ready s t rq.ctx →
        exec (.objPlaceRemove rq h) s = .next t))) ∧
  ((∀ (s t : State) (c : Nat) (cmd : Instr),
    (workReady s t c = true → newFillCores s t c = [] → onFirmware s t c cmd = t) ∧
    (workReady s t c = false → ∀ u, u = onFirmware s t c cmd →
      u.fwWaits = s.fwWaits ++ [{ cores := workCores s t c, banks := workBanks s t c, cmd := cmd }] ∧
      u.ctxs = s.ctxs ∧ u.decks = s.decks ∧ u.span = s.span ∧ u.t3 = s.t3 ∧ u.t4 = s.t4 ∧ u.wins = s.wins ∧
      u.pending = s.pending)) ∧
  (∀ (s u : State) (w : FwWait), u = releaseWork s →
    (w ∈ u.fwWaits ↔ w ∈ s.fwWaits ∧ w.ready s = false) ∧
    (∀ i, i ∈ u.net.dispatched ↔ i ∈ s.net.dispatched ∨ ∃ w ∈ s.fwWaits, w.ready s = true ∧ w.cmd = i) ∧
    u = { s with fwWaits := u.fwWaits, net := { s.net with dispatched := u.net.dispatched } }))

/-- R347, R348, R354 to R356, R359, R360, R538: IMAGE_LOAD. A load that passes every check is answered with its slot, the
number and the handles of the objects it allocated and the image's digest, and the image is in that slot of the
context; a load that fails one is answered with that check's status and reason. IMAGE_UNLOAD of an empty slot is
refused with LOAD_EMPTY, and of the running image, or one that is being unloaded (the model's choice, entry 102), BUSY
with LOAD_IMAGE_BUSY; once its windows are closed and nothing of it is in progress it empties the slot and is
answered. -/
def Obligations.ImagesLoadAndUnload : Prop :=
  ∀ (rq : Req) (x : Ctx) (s : State), Live rq s → liveCtx s rq.ctx = some x →
    (∀ image n hs o slot, tget? x.objs image = some o → tfree x.images 4 = some slot →
      replyTooLong s rq.sess 0xFFFF
        (((tablesOf (imageBytes s x o) (sectionsOf (imageBytes s x o))).manifest.filter (fun m => m.source == 1)).length) = false →
      (∀ u sl as dg t, loadChecks s rq.ctx slot image x (imageBytes s x o) (some hs) = (u, .ok (sl, as, dg)) →
        t = replyC u rq 0x0120 .ok .none
          (leBytes 1 sl ++ [0] ++ leBytes 2 as.length ++ [0, 0, 0, 0] ++ dg ++ as.flatMap (leBytes 2)) → Ready s t rq.ctx →
        exec (.imageLoad rq image 0xFFFF n hs) s = .next t ∧
        ∃ y im, tget? u.ctxs rq.ctx = some y ∧ sl = slot ∧ tget? y.images slot = some im ∧ im.digest = dg ∧ im.obj = image ∧
          im.allocated = as) ∧
      (∀ u st r t, loadChecks s rq.ctx slot image x (imageBytes s x o) (some hs) = (u, .error (st, r)) →
        t = replyC u rq 0x0120 st r [] → Ready s t rq.ctx → exec (.imageLoad rq image 0xFFFF n hs) s = .next t)) ∧
    (∀ slot, tget? x.images slot = none → Answered (.imageUnload rq slot) s rq 0x0121 rq.ctx .refused .loadEmpty [] s) ∧
    (∀ slot im, tget? x.images slot = some im →
      (∃ j, x.job = some j ∧ j.run.slot = slot) ∨ (∃ q, tget? x.unloading slot = some q) →
      Answered (.imageUnload rq slot) s rq 0x0121 rq.ctx .busy .loadImageBusy [] s) ∧
    (∀ slot im u v, tget? x.images slot = some im → x.job = none → x.unloading = [] →
      u = modCtx (closeImage s im) rq.ctx (fun y => { y with unloading := [(slot, rq)] }) → imageQuiet u rq.ctx slot im = true →
      saveUppers rq.ctx (x.objs.filter (fun e => inShare im e.2)) u = (v, none) →
      workReady u (unloadDone u rq.ctx slot im rq) rq.ctx = true →
      ∃ t y, exec (.imageUnload rq slot) s = .next t ∧ tget? t.ctxs rq.ctx = some y ∧ tget? y.images slot = none ∧
        tget? y.unloading slot = none ∧ Replied rq 0x0121 rq.ctx .ok .none [] t)

/-- R239, R366, R402: a command of a context that is FREE or DESTROYING is answered NO_CONTEXT with CTX_UNKNOWN, and one
that names no valid object REFUSED with OBJ_HANDLE; neither changes anything. -/
def Obligations.ContextAndObjectAreChecked : Prop :=
  ∀ (rq : Req) (s : State), Live rq s →
    (liveCtx s rq.ctx = none → ∀ (a b c d e f g : Nat) (data : Bytes) (hs : List Nat) (q : Quotas),
      ∀ p ∈ [(Instr.ctxQuotaSet rq q, 0x0102), (.objAlloc rq a b c d, 0x0110), (.objFree rq a, 0x0111),
          (.objWrite rq a b data, 0x0112), (.objRead rq a b c, 0x0113), (.objPlacePlace rq a b c, 0x0114),
          (.objPlaceRemove rq a, 0x0114), (.objPlacePin rq a, 0x0114), (.objPlaceUnpin rq a, 0x0114),
          (.imageLoad rq a b c hs, 0x0120), (.imageUnload rq a, 0x0121), (.run rq a b, 0x0130), (.runCancel rq, 0x0131),
          (.preemptYield rq, 0x0132), (.preemptPark rq, 0x0132), (.winOpen (.host rq) a b c d e f g, 0x0160),
          (.winClose (.host rq) a b c, 0x0161), (.winWrite rq a b c d e data, 0x0162), (.accountRead rq, 0x01A1)],
        Answered p.1 s rq p.2 rq.ctx .noContext .ctxUnknown [] s) ∧
    (∀ x h, liveCtx s rq.ctx = some x → tget? x.objs h = none → ∀ (a b : Nat) (data : Bytes),
      ∀ p ∈ [(Instr.objFree rq h, 0x0111), (.objWrite rq h a data, 0x0112), (.objRead rq h a b, 0x0113),
          (.objPlacePlace rq h a b, 0x0114), (.objPlaceRemove rq h, 0x0114), (.objPlacePin rq h, 0x0114),
          (.objPlaceUnpin rq h, 0x0114)],
        Answered p.1 s rq p.2 rq.ctx .refused .objHandle [] s)

/-- R280, R284 to R288, R540: KV_SEQ_FORK of a free sequence number with a geometry within R280 and room for its page
table makes the sequence: empty when it has no parent, and otherwise with the parent's entries up to the prefix, every
page of which gains one reference per copied entry; the reply counts the copied entries. It is refused, in this order,
where the number is in use, the parent unknown, or the geometry out of range. R284, R289, R308: KV_SEQ_FREE of a
sequence that no walk names removes it; a page that one of its entries names loses that reference, and a page without
any reference left is freed, once no tag and no walk of another sequence holds it any more. The firmware casts its
vote for the zero-fills. While a walk names the sequence the command is BUSY with KV_BUSY, and an unknown number is
refused. R300 to R303, R309, R679: a walk request that a stage hands in is checked for its version, its ranges and its
sequence, each failure ending the job with its own reason, as does an uncorrectable error of its words in the Deck
(R679); one that passes reads or writes its blocks in order and leaves its status in the request. A read block whose
entry is VALID with enough FILL issues its descriptor; one that is not ends the walk, with result 1 where its page was
dropped and 2 otherwise, at its position. -/
def Obligations.KvSequencesAndWalks : Prop :=
  (∀ (rq : Req) (child parent pfx : Nat) (geom g : KvGeom) (ps : Tab Pte) (x : Ctx) (s : State), Live rq s →
    liveCtx s rq.ctx = some x →
    ((tget? x.seqs child).isSome → Answered (.kvSeqFork rq child parent pfx geom) s rq 0x0150 rq.ctx .refused .kvSeqInUse [] s) ∧
    (tget? x.seqs child = none → parent ≠ 0xFFFF → tget? x.seqs parent = none →
      Answered (.kvSeqFork rq child parent pfx geom) s rq 0x0150 rq.ctx .refused .kvSeqUnknown [] s) ∧
    (tget? x.seqs child = none →
      (parent = 0xFFFF ∧ g = geom ∧ ps = []) ∨
        (parent ≠ 0xFFFF ∧ ∃ q, tget? x.seqs parent = some q ∧ g = q.geom ∧ ps = forkPtes g pfx q.ptes) →
      (1024 ≤ child ∨ Machine.geomOk g = false ∨ g.maxTokens < pfx →
        Answered (.kvSeqFork rq child parent pfx geom) s rq 0x0150 rq.ctx .refused .kvGeometry [] s) ∧
      (child < 1024 → Machine.geomOk g = true → pfx ≤ g.maxTokens → (∀ e ∈ addRefs x.refs ps, e.2 ≤ 65535) →
        fits x 3 0 (seqGranules g) = true →
        ∀ y b, y = { x with seqs := tset x.seqs child { geom := g, ptes := ps }, refs := addRefs x.refs ps } →
          b = leBytes 4 (if parent = 0xFFFF then 0 else forkCount g pfx) ++ [0, 0, 0, 0] →
          Ready s (replyC { s with ctxs := tset s.ctxs rq.ctx y } rq 0x0150 .ok .none b) rq.ctx →
          Answered (.kvSeqFork rq child parent pfx geom) s rq 0x0150 rq.ctx .ok .none b { s with ctxs := tset s.ctxs rq.ctx y } ∧
          tget? y.seqs child = some { geom := g, ptes := ps } ∧ (∀ n, n ≠ child → tget? y.seqs n = tget? x.seqs n) ∧
          (∀ h, tget y.refs 0 h = tget x.refs 0 h + (ps.filter (fun e => e.2.page == some h)).length)))) ∧
  (∀ (rq : Req) (n : Nat) (x : Ctx) (s : State), Live rq s → liveCtx s rq.ctx = some x →
    (tget? x.seqs n = none → Answered (.kvSeqFree rq n) s rq 0x0151 rq.ctx .refused .kvSeqUnknown [] s) ∧
    (∀ q, tget? x.seqs n = some q →
      (seqWalked s rq.ctx n = true → Answered (.kvSeqFree rq n) s rq 0x0151 rq.ctx .busy .kvBusy [] s) ∧
      (seqWalked s rq.ctx n = false → ∀ y t,
        y = { q.ptes.foldl (fun z e => match e.2.page with
            | some h => dropRef z h
            | none => z) x with seqs := terase x.seqs n } →
        t = replyC (reapPages (setCtx s rq.ctx y) rq.ctx) rq 0x0151 .ok .none [] → workReady s t rq.ctx = true →
        exec (.kvSeqFree rq n) s = .next (firmwareVote s t (newFillCores s t rq.ctx)) ∧ Replied rq 0x0151 rq.ctx .ok .none [] t ∧
        ∃ z, tget? t.ctxs rq.ctx = some z ∧ tget? z.seqs n = none ∧ (∀ m, m ≠ n → tget? z.seqs m = tget? x.seqs m) ∧
          (∀ h, h ∉ x.doomed → (q.ptes.filter (fun e => e.2.page == some h)).length = 0 →
            tget z.refs 0 h = tget x.refs 0 h ∧ tget? z.objs h = tget? x.objs h) ∧
          (∀ h, h ∉ x.doomed → (q.ptes.filter (fun e => e.2.page == some h)).length = 1 →
            (2 ≤ tget x.refs 0 h → tget z.refs 0 h = tget x.refs 0 h - 1 ∧ tget? z.objs h = tget? x.objs h) ∧
            (tget x.refs 0 h ≤ 1 → tget z.refs 0 h = 0 ∧
              (tagsHeld s rq.ctx h = false ∧ walkHeld s rq.ctx h = false → tget? z.objs h = none) ∧
              (tagsHeld s rq.ctx h = true ∨ walkHeld s rq.ctx h = true →
                tget? z.objs h = tget? x.objs h ∧ h ∈ z.doomed)))))) ∧
  ((∀ (core slot off c first len : Nat) (j : Job) (u : State) (r : Reason) (s : State), stageRunning s core slot = some (c, j) →
    shareOf s c j.run.slot core = (first, len) → off + 64 ≤ len * 256 →
    eccScan s (physOf s core) [(first * 256 + off, 64)] = (u, some r) →
    exec (.kvWalkRequest core slot off) s = .next (failJob u c r)) ∧
  (∀ (core slot off c : Nat) (j : Job) (b : Bytes) (s : State), stageRunning s core slot = some (c, j) →
    (ramOf s (physOf s core)).bad = [] → (ramOf s (physOf s core)).soft = [] → deckRead s c j.run.slot core off 64 = some b →
    (walkVersionBad b = true → exec (.kvWalkRequest core slot off) s = .next (failJob s c .kvWalkVersion)) ∧
    (walkVersionBad b = false → walkRangeBad ((shareOf s c j.run.slot core).2 * 256) off (walkReq b) = true →
      exec (.kvWalkRequest core slot off) s = .next (failJob s c .kvWalkRange)) ∧
    (walkVersionBad b = false → walkRangeBad ((shareOf s c j.run.slot core).2 * 256) off (walkReq b) = false →
      ∀ x, tget? s.ctxs c = some x →
      (tget? x.seqs (walkReq b).seq = none → exec (.kvWalkRequest core slot off) s = .next (failJob s c .kvWalkSeq)) ∧
      (∀ q, tget? x.seqs (walkReq b).seq = some q →
        (walkSeqBad q.geom (walkReq b) = true → exec (.kvWalkRequest core slot off) s = .next (failJob s c .kvWalkRange)) ∧
        (walkSeqBad q.geom (walkReq b) = false → ∀ r,
          r = (if (walkReq b).write then walkWrite c j.run.slot core slot (walkReq b) q.geom (walkBlocks (walkReq b)) 0 s
            else walkRead c j.run.slot core slot (walkReq b) q.geom (walkBlocks (walkReq b)) 0 s) →
          exec (.kvWalkRequest core slot off) s = .next (walkStatus r.1 c j.run.slot core off r.2))))) ∧
  (∀ (c slot core stg n i : Nat) (w : WalkReq) (g : KvGeom) (x : Ctx) (q : KvSeq) (p : Pte) (s : State), tget? s.ctxs c = some x →
    tget? x.seqs w.seq = some q → tget q.ptes {} (walkKey g w (w.first / 64 + i)) = p →
    (p.page = none → (walkRead c slot core stg w g (n + 1) i s).2 =
      { result := if p.dropped then 1 else 2, missing := 64 * (w.first / 64 + i), blocks := i }) ∧
    (∀ h, p.page = some h → p.fill < blockNeed w i → (walkRead c slot core stg w g (n + 1) i s).2 =
      { result := 2, missing := 64 * (w.first / 64 + i) + p.fill, blocks := i }) ∧
    (∀ h, p.page = some h → blockNeed w i ≤ p.fill → ∃ u e, walkRead c slot core stg w g (n + 1) i s =
        walkRead c slot core stg w g n (i + 1) (cvPush u core stg e) ∧ e.ctx = c ∧
      e.purpose = .walk w.seq (walkKey g w (w.first / 64 + i)) h none ∧ u = { s with cores := u.cores })))

/-- R313, R319: a stream command beyond the stream quota is answered NO_QUOTA with STREAM_INDEX, and one of a stream whose
chunk runs waits for it. R316 to R318, R336, R540: the stream commands. OPEN in mode NEW of a FREE stream makes it
OPEN at step 0 with a new generation that is not 0 and its own state object; RESUME makes a PAUSED one OPEN; PAUSE
makes an OPEN one PAUSED, its state at home; END frees its state object without a write-back and leaves the entry
FREE; RESET gives it a new generation and step 0. Each answers the generation and NEXT_STEP. In any other state each
is refused with STREAM_STATE. (The firmware's work for them can begin at once.). -/
def Obligations.StreamCommands : Prop :=
  (∀ (rq : Req) (i : Nat) (g : StreamArgs) (x : Ctx) (s : State), Live rq s → liveCtx s rq.ctx = some x → g.index = i →
    ∀ p ∈ [(Instr.streamOpenNew rq g, 0x0140), (.streamOpenResume rq g, 0x0140), (.streamClosePause rq i, 0x0141),
        (.streamCloseEnd rq i, 0x0141), (.streamReset rq i, 0x0142)],
      (x.quotas.streams ≤ i → Answered p.1 s rq p.2 rq.ctx .noQuota .streamIndex [] s) ∧
      (i < x.quotas.streams → chunkRuns s rq.ctx i = true →
        exec p.1 s = .next (setCtx s rq.ctx { x with streamCmds := x.streamCmds ++ [p.1] }))) ∧
  (∀ (rq : Req) (i : Nat) (g : StreamArgs) (x : Ctx) (t : Stream) (s : State), Live rq s → liveCtx s rq.ctx = some x →
    i < x.quotas.streams → chunkRuns s rq.ctx i = false → streamAt x i = t → g.index = i →
    (t.state ≠ .free → Answered (.streamOpenNew rq g) s rq 0x0140 rq.ctx .refused .streamState [] s) ∧
    (t.state ≠ .paused → Answered (.streamOpenResume rq g) s rq 0x0140 rq.ctx .refused .streamState [] s) ∧
    (t.state ≠ .opened → Answered (.streamClosePause rq i) s rq 0x0141 rq.ctx .refused .streamState [] s) ∧
    (t.state = .free → Answered (.streamCloseEnd rq i) s rq 0x0141 rq.ctx .refused .streamState [] s) ∧
    (t.state = .free → Answered (.streamReset rq i) s rq 0x0142 rq.ctx .refused .streamState [] s) ∧
    (∀ u h, t.state = .free → streamGeomBad x g = false → bit g.options 1 = false →
      allocObj s rq.ctx (stateObj g) 0 = (u, .ok h) → Ready s (openNew s rq g x) rq.ctx →
      ∃ v y gen, exec (.streamOpenNew rq g) s =
          .next (replyC v rq 0x0140 .ok .none (leBytes 4 gen ++ [0, 0, 0, 0] ++ [0, 0, 0, 0, 0, 0, 0, 0])) ∧
        tget? v.ctxs rq.ctx = some y ∧ gen ≠ 0 ∧ (streamAt y i).gen = gen ∧ (streamAt y i).state = .opened ∧
        (streamAt y i).nextStep = 0 ∧ (streamAt y i).handle = h ∧ (streamAt y i).channels = g.channels ∧
        (streamAt y i).homeCore = g.homeCore ∧ (streamAt y i).anchored = !bit g.options 0) ∧
    (t.state = .paused → Answered (.streamOpenResume rq g) s rq 0x0140 rq.ctx .ok .none
      (leBytes 4 t.gen ++ [0, 0, 0, 0] ++ leBytes 8 t.nextStep)
      (modCtx s rq.ctx (fun y => { y with streams := tset y.streams i { t with state := .opened } }))) ∧
    (t.state = .opened → (∀ o, tget? x.objs t.handle = some o → (releaseUpper s rq.ctx t.handle o).2 = none) →
      Ready s (closePause s rq i x) rq.ctx →
      ∃ v y, exec (.streamClosePause rq i) s =
          .next (replyC v rq 0x0141 .ok .none (leBytes 4 t.gen ++ [0, 0, 0, 0] ++ leBytes 8 t.nextStep)) ∧
        tget? v.ctxs rq.ctx = some y ∧ streamAt y i = { t with state := .paused, homeStep := t.nextStep, anchor := none } ∧
        (∀ o, tget? x.objs t.handle = some o → tget? y.objs t.handle = some { o with upper := none, dirty := false })) ∧
    (t.state ≠ .free → ∀ w, w = closeEnd s rq i x → workReady s w rq.ctx = true →
      exec (.streamCloseEnd rq i) s = .next (firmwareVote s w (newFillCores s w rq.ctx)) ∧
      Replied rq 0x0141 rq.ctx .ok .none (List.replicate 16 0) w ∧
      ∃ y, tget? w.ctxs rq.ctx = some y ∧ OnlyReply rq (setCtx s rq.ctx y) w ∧
        streamAt y i = {} ∧ tget? y.objs t.handle = none ∧ (∀ n, n ≠ i → streamAt y n = streamAt x n)) ∧
    (t.state ≠ .free → ∀ o recs, tget? x.objs t.handle = some o → homeRead s x o 0 (16 * t.channels) = .ok recs →
      Ready s (streamResetBody s rq i x) rq.ctx →
      ∃ v y, exec (.streamReset rq i) s =
          .next (replyC v rq 0x0142 .ok .none (leBytes 4 (nextGen x) ++ [0, 0, 0, 0] ++ [0, 0, 0, 0, 0, 0, 0, 0])) ∧
        tget? v.ctxs rq.ctx = some y ∧ streamAt y i =
          { t with gen := nextGen x, reset := true, nextStep := 0, homeStep := 0, anchor := none } ∧
        v = { s with ctxs := v.ctxs, t3 := v.t3, t4 := v.t4, ddr := v.ddr, decks := v.decks, span := v.span }))

/-- R321 to R327, R334, R335: a chunk request is checked for its version, its ranges and its stream, each failure ending
the job; one that passes joins the routine's list and is served, and a slot that has a chunk hands in no second one. A
chunk of a FREE stream ends at once with result 4 and one of a PAUSED stream with result 3. A scanned chunk of words
without errors advances NEXT_STEP by its COUNT from its FIRST and makes the state's copy DIRTY. The write-back of an
anchor makes HOME_STEP the anchor's step. -/
def Obligations.ChunksAndAnchors : Prop :=
  (∀ (core slot off c : Nat) (j : Job) (b : Bytes) (x : Ctx) (s : State), stageRunning s core slot = some (c, j) →
    ((coreOf s (physOf s core)).chunks.any (fun q => q.slot == slot) = true →
      exec (.scanChunkRequest core slot off) s = .next s) ∧
    ((coreOf s (physOf s core)).chunks.any (fun q => q.slot == slot) = false →
      (ramOf s (physOf s core)).bad = [] → (ramOf s (physOf s core)).soft = [] → deckRead s c j.run.slot core off 64 = some b → tget? s.ctxs c = some x →
      ∀ r t, r = scanReq b → t = streamAt x r.index →
      (scanVersionBad b = true → exec (.scanChunkRequest core slot off) s = .next (failJob s c .scanVersion)) ∧
      (scanVersionBad b = false →
        (scanRangeBad ((shareOf s c j.run.slot core).2 * 256) off t.channels t.aConst r = true →
          exec (.scanChunkRequest core slot off) s = .next (failJob s c .scanRange)) ∧
        (scanRangeBad ((shareOf s c j.run.slot core).2 * 256) off t.channels t.aConst r = false →
          (x.quotas.streams ≤ r.index ∨ (t.state ≠ .free ∧ t.homeCore ≠ core) →
            exec (.scanChunkRequest core slot off) s = .next (failJob s c .scanHome)) ∧
          (r.index < x.quotas.streams → (t.state = .free ∨ t.homeCore = core) → ∀ k, k = coreOf s (physOf s core) →
            exec (.scanChunkRequest core slot off) s = .next (serveChunks (setCore s (physOf s core)
              { k with chunks := k.chunks ++ [{ slot := slot, ctx := c, img := j.run.slot, off := off, index := r.index }] })
              core c r.index)))))) ∧
  (∀ (core : Nat) (q : Chunk) (x : Ctx) (b : Bytes) (s : State), tget? s.ctxs q.ctx = some x →
    deckRead s q.ctx q.img core q.off 64 = some b →
    ((streamAt x q.index).state = .free → startChunk s core q = dropChunk (scanStatus s core q 4 0) core q) ∧
    ((streamAt x q.index).state = .paused → startChunk s core q = dropChunk (scanStatus s core q 3 0) core q)) ∧
  (∀ (core slot : Nat) (q : Chunk) (x : Ctx) (t : Stream) (b : Bytes) (o : Obj) (w : Upper) (s : State),
    (coreOf s (physOf s core)).chunks.find? (fun k => k.slot == slot && k.running) = some q → tget? s.ctxs q.ctx = some x →
    deckRead s q.ctx q.img core q.off 64 = some b → tget? x.streams q.index = some t → tget? x.objs t.handle = some o →
    o.upper = some w → (ramOf s (physOf s core)).bad = [] → (ramOf s (physOf s core)).soft = [] →
    ∃ u y v p, exec (.scanChunkComplete core slot) s =
        .next (settle (serveChunks (releaseCmds (dropChunk u core q) q.ctx q.index) core q.ctx q.index) q.ctx) ∧
      tget? u.ctxs q.ctx = some y ∧ tget? y.streams q.index = some v ∧
      v.nextStep = (scanReq b).first + (scanReq b).count ∧ v.reset = false ∧ v.gen = t.gen ∧
      tget? y.objs t.handle = some p ∧ p.dirty = true) ∧
  (∀ (c i step : Nat) (recs : Bytes) (x : Ctx) (t : Stream) (o : Obj) (s : State), tget? s.ctxs c = some x → streamAt x i = t →
    (t.anchor = none → exec (.anchorWritebackLand c i) s = .next s) ∧
    (t.anchor = some (step, recs) → tget? x.objs t.handle = some o →
      ∃ v y, exec (.anchorWritebackLand c i) s = .next v ∧ tget? v.ctxs c = some y ∧
        streamAt y i = { t with homeStep := step, anchor := none } ∧ y.objs = x.objs ∧
        v.t3 = (homeWrite s x o 0 recs).t3 ∧ v.t4 = (homeWrite s x o 0 recs).t4 ∧
        v = { s with
          ctxs := v.ctxs, draws := v.draws, t3 := v.t3, t4 := v.t4, ddr := v.ddr, decks := v.decks, span := v.span }))

/-- R158, R159, R175, R541: WIN_OPEN. Of a CLOSED entry whose rows lie in the share, meet no other open entry of the home
and whose writers are granted, it opens the entry: EPOCH increments modulo 256, the counts become 0, and nothing else
changes, no row among it; the reply is the new epoch. Where a condition fails, the entry stays as it is and the reason
is that condition's. A stage program opens a window of its own image under the same conditions, and reads the outcome
and the epoch. R169 to R171, R175, R540: WIN_CLOSE of an OPEN or CLOSING window leaves it CLOSING and waits; of a
CLOSED one it is answered at once and has no effect, and a stage program's close does the same for a window of its
image. A CLOSING window with no accepted write left becomes CLOSED, its waiting stage goes on, and the close is
answered with ARRIVALS and DISCARDS; with one left, it stays. -/
def Obligations.WindowsOpenAndClose : Prop :=
  ((∀ (core stg c space win base limit wr thr : Nat) (j : Job) (s : State), stageRunning s core stg = some (c, j) →
    s.fenced.contains space = false → ∀ i, i = Instr.winOpen (.stage core) space win stg base limit wr thr →
    (∀ st r, winOpenCheck s c j.run.slot space win base limit wr = some (st, r) →
      exec i s = .next (modStage s c core stg (fun q => { q with answer := some (st, r, 0) }))) ∧
    (∀ k im, winOpenCheck s c j.run.slot space win base limit wr = none → imageOf s c j.run.slot = some im →
      keyOf s c j.run.slot space win = some k →
      exec i s = .next (modStage (setWin s k { (winAt s k) with
          state := .opened, slot := j.run.slot, ctx := c, epoch := ((winAt s k).epoch + 1) % 256,
          base := (tget im.shares (0, 0) space).1 + base, limit := (tget im.shares (0, 0) space).1 + limit,
          writers := wr &&& 0xFF0007FF, arrivals := 0, threshold := thr, discards := 0, rejects := 0 })
        c core stg (fun q => { q with answer := some (.ok, .none, ((winAt s k).epoch + 1) % 256) })))) ∧
  ∀ (rq : Req) (space win slot base limit wr thr : Nat) (s : State), Live rq s → (liveCtx s rq.ctx).isSome →
    s.fenced.contains space = false →
    (keyOf s rq.ctx slot space win = none →
      Answered (.winOpen (.host rq) space win slot base limit wr thr) s rq 0x0160 rq.ctx .noQuota .winIndex [] s) ∧
    (∀ k im first len, keyOf s rq.ctx slot space win = some k → imageOf s rq.ctx slot = some im →
      tget? im.shares space = some (first, len) →
      ((winAt s k).state ≠ .closed →
        Answered (.winOpen (.host rq) space win slot base limit wr thr) s rq 0x0160 rq.ctx .refused .winState [] s) ∧
      ((winAt s k).state = .closed → limit ≤ base →
        Answered (.winOpen (.host rq) space win slot base limit wr thr) s rq 0x0160 rq.ctx .refused .winAlign [] s) ∧
      ((winAt s k).state = .closed → base < limit → len < limit →
        Answered (.winOpen (.host rq) space win slot base limit wr thr) s rq 0x0160 rq.ctx .refused .winBounds [] s) ∧
      ((winAt s k).state = .closed → base < limit → limit ≤ len →
        (∀ e ∈ s.wins, e.1 / 256 = k / 256 → e.2.state = .closed ∨ first + limit ≤ e.2.base ∨ e.2.limit ≤ first + base) →
        (∀ n < 8, bit wr n = true → bit (tget s.ctxs {} rq.ctx).cores n = true) →
        (∀ n < 8, bit wr (24 + n) = true → bit (setMembers s) n = true) → wr < 2 ^ 32 →
        Answered (.winOpen (.host rq) space win slot base limit wr thr) s rq 0x0160 rq.ctx .ok .none
          (leBytes 1 (((winAt s k).epoch + 1) % 256) ++ [0, 0, 0])
          (setWin s k { (winAt s k) with
            state := .opened, slot := slot, ctx := rq.ctx, epoch := ((winAt s k).epoch + 1) % 256, base := first + base,
            limit := first + limit, writers := wr &&& 0xFF0007FF, arrivals := 0, threshold := thr, discards := 0, rejects := 0 })) ∧
      ((winAt s k).state = .closed → base < limit → limit ≤ len →
        (∃ e ∈ s.wins, e.1 / 256 = k / 256 ∧ e.2.state ≠ .closed ∧ e.2.base < first + limit ∧ first + base < e.2.limit) →
        Answered (.winOpen (.host rq) space win slot base limit wr thr) s rq 0x0160 rq.ctx .refused .winOverlap [] s) ∧
      ((winAt s k).state = .closed → base < limit → limit ≤ len →
        (∀ e ∈ s.wins, e.1 / 256 = k / 256 → e.2.state = .closed ∨ first + limit ≤ e.2.base ∨ e.2.limit ≤ first + base) →
        (tget s.ctxs {} rq.ctx).cores < 256 → (∃ n < 8, bit wr n = true ∧ bit (tget s.ctxs {} rq.ctx).cores n = false) →
        Answered (.winOpen (.host rq) space win slot base limit wr thr) s rq 0x0160 rq.ctx .refused .winWriters [] s))) ∧
  ((∀ (rq : Req) (space win slot : Nat) (s : State), Live rq s → (liveCtx s rq.ctx).isSome →
    (keyOf s rq.ctx slot space win = none →
      Answered (.winClose (.host rq) space win slot) s rq 0x0161 rq.ctx .noQuota .winIndex [] s) ∧
    (∀ k w, keyOf s rq.ctx slot space win = some k → winAt s k = w →
      (w.state = .closed → Answered (.winClose (.host rq) space win slot) s rq 0x0161 rq.ctx .ok .none
        (leBytes 4 w.arrivals ++ leBytes 4 w.discards) s) ∧
      (w.state ≠ .closed → exec (.winClose (.host rq) space win slot) s =
        .next (setWin s k { w with state := .closing, closers := w.closers ++ [(.host rq, slot)] })))) ∧
  (∀ (core stg c space win : Nat) (j : Job) (s : State), stageRunning s core stg = some (c, j) →
    ∀ k w, keyOf s c j.run.slot space win = some k → winAt s k = w →
    (w.state = .closed → exec (.winClose (.stage core) space win stg) s =
      .next (modStage s c core stg (fun q => { q with answer := some (.ok, .none, w.arrivals) }))) ∧
    (w.state ≠ .closed → exec (.winClose (.stage core) space win stg) s =
      .next (setWin s k { w with state := .closing, closers := w.closers ++ [(.stage core, stg)] }))) ∧
  (∀ (space entry k : Nat) (w : Win) (s : State), k = homeOf s space * 256 + entry → winAt s k = w →
    (w.state ≠ .closing ∨ s.flights.any (fun f => f.2.home * 256 + f.2.entry == k) = true →
      exec (.winCloseComplete space entry) s = .next (settleAll s)) ∧
    (w.state = .closing → s.flights.any (fun f => f.2.home * 256 + f.2.entry == k) = false →
      ∃ u, exec (.winCloseComplete space entry) s = .next (settleAll u) ∧
        winAt u k = { w with state := .closed, closers := [], waiting := none } ∧ (∀ m, m ≠ k → winAt u m = winAt s m) ∧
        (∀ core slot x j, w.waiting = some (core, slot) → tget? s.ctxs w.ctx = some x → x.job = some j →
          ∃ y i, tget? u.ctxs w.ctx = some y ∧ y.job = some i ∧
            ∀ r ∈ i.stages, r.core = core → r.slot = slot → ∀ sp wn, r.st ≠ .waiting sp wn) ∧
        (∀ rq slot, w.closers = [(.host rq, slot)] → Live rq s →
          Replied rq 0x0161 rq.ctx .ok .none (leBytes 4 w.arrivals ++ leBytes 4 w.discards) u) ∧
        (u.decks = s.decks ∧ u.span = s.span ∧ u.t3 = s.t3 ∧ u.t4 = s.t4))))

/-- R157, R161, R165 to R168, R172, R617: the check at the home. In this order a header whose writer is not named is
refused and counted in REJECTS, one for a window that is not OPEN or of another epoch is discarded and counted in
DISCARDS, and one of no byte, of more than 4 KiB or beyond the window is refused and counted in REJECTS; none lands a
byte. One that passes becomes a write in progress unless four are at its home, when it waits; it waits too while its
home is not powered, and behind an earlier one of its writer to its window. The home of a window in the Span is the
controller of the bank that holds its first row. Nothing else changes. R541, R174: WIN_WRITE is a window write with
the writer HOST. Discarded or refused at the check it is answered at once with that fate and lands no byte; accepted
it is in progress, and its reply leaves when it has counted. -/
def Obligations.WindowWritesAreChecked : Prop :=
  (∀ (h : WinHdr) (k : Nat) (w : Win) (s : State), keyOf s h.ctx h.slot h.space h.win = some k → winAt s k = w →
    h.pitch = 0 →
    (homeReady s h = false ∨ behindEarlier s h = true → exec (.windowWriteCheck h) s = .next { s with waitHdrs := s.waitHdrs ++ [(h, .block)] }) ∧
    (homeReady s h = true → behindEarlier s h = false →
      (bit w.writers (writerBit h.writer) = false →
        exec (.windowWriteCheck h) s = .next (setWin s k { w with rejects := min (w.rejects + 1) 0xFFFF })) ∧
      (bit w.writers (writerBit h.writer) = true → w.state ≠ .opened ∨ w.epoch ≠ h.epoch →
        exec (.windowWriteCheck h) s = .next (setWin s k { w with discards := min (w.discards + 1) 0xFFFF_FFFF })) ∧
      (bit w.writers (writerBit h.writer) = true → w.state = .opened → w.epoch = h.epoch →
        (h.data = [] ∨ 4096 < h.data.length ∨ (w.limit - w.base) * 256 < h.off + h.data.length →
          exec (.windowWriteCheck h) s = .next (setWin s k { w with rejects := min (w.rejects + 1) 0xFFFF })) ∧
        (h.data ≠ [] → h.data.length ≤ 4096 → h.off + h.data.length ≤ (w.limit - w.base) * 256 →
          (4 ≤ inFlight s (gateOf (k / 256) w.base) →
            exec (.windowWriteCheck h) s = .next { s with waitHdrs := s.waitHdrs ++ [(h, .block)] }) ∧
          (inFlight s (gateOf (k / 256) w.base) < 4 →
            exec (.windowWriteCheck h) s = .next { s with
              flights := tset s.flights s.nextFlight
                { home := k / 256, entry := k % 256, base := w.base, off := h.off, data := h.data, pitch := 0, row := h.row,
                  writer := h.writer, src := .block },
              nextFlight := s.nextFlight + 1 }))))) ∧
  (∀ (rq : Req) (space win epoch slot off : Nat) (data : Bytes) (k : Nat) (w : Win) (s : State), Live rq s →
    (liveCtx s rq.ctx).isSome → keyOf s rq.ctx slot space win = some k → winAt s k = w →
    (∀ h, h = ({ space := space, ctx := rq.ctx, slot := slot, win := win, epoch := epoch, off := off, data := data, writer := .host } : WinHdr) →
      homeReady s h = true ∧ behindEarlier s h = false) →
    (bit w.writers 8 = false → Answered (.winWrite rq space win epoch slot off data) s rq 0x0162 rq.ctx .refused .winDenied []
      (setWin s k { w with rejects := min (w.rejects + 1) 0xFFFF })) ∧
    (bit w.writers 8 = true → w.state ≠ .opened ∨ w.epoch ≠ epoch →
      Answered (.winWrite rq space win epoch slot off data) s rq 0x0162 rq.ctx .windowClosed .none []
        (setWin s k { w with discards := min (w.discards + 1) 0xFFFF_FFFF })) ∧
    (bit w.writers 8 = true → w.state = .opened → w.epoch = epoch →
      data = [] ∨ 4096 < data.length ∨ (w.limit - w.base) * 256 < off + data.length →
      Answered (.winWrite rq space win epoch slot off data) s rq 0x0162 rq.ctx .refused .winRange []
        (setWin s k { w with rejects := min (w.rejects + 1) 0xFFFF })) ∧
    (bit w.writers 8 = true → w.state = .opened → w.epoch = epoch → data ≠ [] → data.length ≤ 4096 →
      off + data.length ≤ (w.limit - w.base) * 256 → inFlight s (gateOf (k / 256) w.base) < 4 →
      exec (.winWrite rq space win epoch slot off data) s = .next { s with
        flights := tset s.flights s.nextFlight
          { home := k / 256, entry := k % 256, base := w.base, off := off, data := data, pitch := 0, row := 0, writer := .host,
            src := .host rq },
        nextFlight := s.nextFlight + 1 }))

/-- R147, R160, R164, R165, R167: when an accepted write lands, its bytes stand at its address, the base row of its entry
times 256 plus its offset, and every other byte of every Deck and of the Span reads as before; ARRIVALS increments by
one modulo 2³², but for the writes that only fill a frame record's slot (the model's reading, entry 110), and no other
entry changes. A later write of one writer to one window does not land before its earlier ones. What follows is told
in the order: the writer, the headers that wait, the contexts that wait for quiet. R541, R167, R174: the landing of
the host's write counts its bytes in the context's account and sends the reply of WIN_WRITE; with no header waiting,
nothing but the landing, the account and what a reply changes has then changed. -/
def Obligations.WindowWritesLand : Prop :=
  (∀ (id : Nat) (f : Flight) (s : State), tget? s.flights id = some f → f.pitch = 0 → f.entry < 256 →
    ((∃ g ∈ s.flights, g.1 < id ∧ g.2.home = f.home ∧ g.2.entry = f.entry ∧ g.2.writer = f.writer) →
      exec (.windowWriteLand id) s = .next (settleAll s)) ∧
    ((∀ g ∈ s.flights, g.1 < id → g.2.home ≠ f.home ∨ g.2.entry ≠ f.entry ∨ g.2.writer ≠ f.writer) →
      ∃ u, exec (.windowWriteLand id) s = .next (settleAll (retryWaits (tellLanded u f))) ∧
        (ramOf u f.home).read (f.base * 256 + f.off) f.data.length = f.data ∧
        (∀ b, b < f.base * 256 + f.off ∨ f.base * 256 + f.off + f.data.length ≤ b →
          (ramOf u f.home).read b 1 = (ramOf s f.home).read b 1) ∧
        (∀ g, g ≠ f.home → ramOf u g = ramOf s g) ∧
        (countsArrival f = true →
          (winAt u (f.home * 256 + f.entry)).arrivals = ((winAt s (f.home * 256 + f.entry)).arrivals + 1) % 2 ^ 32) ∧
        (countsArrival f = false →
          (winAt u (f.home * 256 + f.entry)).arrivals = (winAt s (f.home * 256 + f.entry)).arrivals) ∧
        (∀ k, k ≠ f.home * 256 + f.entry → winAt u k = winAt s k) ∧ u.flights = terase s.flights id ∧
        (u.t3 = s.t3 ∧ u.t4 = s.t4) ∧
        (winAt s (f.home * 256 + f.entry)).state = (winAt u (f.home * 256 + f.entry)).state)) ∧
  (∀ (rq : Req) (f : Flight) (s : State), Live rq s → f.src = .host rq → 
    Replied rq 0x0162 rq.ctx .ok .none [] (tellLanded s f) ∧
      OnlyReply rq (countAct s rq.ctx (fun x => { x with hostIn := x.hostIn + f.data.length }))
        (tellLanded s f))

/-- R162: "A wait on a window is satisfied when (ARRIVALS − THRESHOLD) mod 2³² is less than 2³¹." A wait on a window that
is not CLOSED and on which nothing waits leaves the stage running where that holds, and waiting where it does not. -/
def Obligations.WaitIsSatisfied : Prop :=
  ∀ (core slot space win c k : Nat) (x : Ctx) (j : Job) (w : Win) (s : State), stageCtx s core slot = some c →
    tget? s.ctxs c = some x → x.job = some j → keyOf s c j.run.slot space win = some k → winAt s k = w → w.waiting = none →
    w.state ≠ .closed → w.arrivals < 2 ^ 32 → w.threshold < 2 ^ 32 →
    (((w.arrivals : Int) - (w.threshold : Int)) % 2 ^ 32 < 2 ^ 31 →
      exec (.winWait core slot space win none) s = .next (setWin s k w)) ∧
    (2 ^ 31 ≤ ((w.arrivals : Int) - (w.threshold : Int)) % 2 ^ 32 →
      ∃ u y i, exec (.winWait core slot space win none) s = .next (schedule (tryStop u c)) ∧
        winAt u k = { w with waiting := some (core, slot) } ∧ tget? u.ctxs c = some y ∧ y.job = some i ∧
        (∀ r ∈ i.stages, r.core = core → r.slot = slot → r.st = .waiting space win) ∧
        u = { s with wins := u.wins, ctxs := u.ctxs })

/-- R162, R163: a stage that waits may set THRESHOLD; its wait on a CLOSED window, or one that holds when it begins, is
satisfied at once, and a stage that waits on a window on which another waits ends its job with PIPE_WAIT. R141, R142:
after a view fence no narrow write and no wide row waits to become visible; each narrow byte that waited reads in the
Deck as it was written, and every other byte of every memory reads as before. -/
def Obligations.WindowWaitsAndViewFences : Prop :=
  (∀ (core slot space win c k thr : Nat) (x : Ctx) (j : Job) (w : Win) (s : State), stageCtx s core slot = some c →
    tget? s.ctxs c = some x → x.job = some j → keyOf s c j.run.slot space win = some k → winAt s k = w → thr < 2 ^ 32 →
    (w.waiting ≠ none → ∀ t, exec (.winWait core slot space win t) s = .next (failJob s c .pipeWait)) ∧
    (w.waiting = none → w.state = .closed →
      exec (.winWait core slot space win (some thr)) s = .next (setWin s k { w with threshold := thr })) ∧
    (w.waiting = none → waitSatisfied { w with threshold := thr } = true →
      exec (.winWait core slot space win (some thr)) s = .next (setWin s k { w with threshold := thr }))) ∧
  (∀ (core slot c p : Nat) (k : Core) (s : State), stageCtx s core slot = some c → physOf s core = p → p < 9 → coreOf s p = k →
    (k.narrow.map Prod.fst).Nodup →
    ∃ t, exec (.viewFence core slot) s = .next t ∧ coreOf t p = { k with narrow := [], wideRows := [] } ∧
      (∀ a b, (a, b) ∈ k.narrow → (ramOf t p).read a 1 = [b]) ∧
      (∀ a, a ∉ k.narrow.map Prod.fst → (ramOf t p).read a 1 = (ramOf s p).read a 1) ∧
      (∀ g, g ≠ p → ramOf t g = ramOf s g ∧ coreOf t g = coreOf s g) ∧
      t = { s with decks := t.decks, cores := t.cores })

/-- R549, R550, R561, R571: LANE_CFG. A field out of its range is refused with LANE_PARAM and a lane of another context
with LANE_OWNER, and LANEn_STATUS keeps the reason. With no packet open and nothing waiting, ENABLE 1 makes the
context the owner and the session the lane's, the fields come into force, and the lost count and the numbers start at
0 when ENABLE was 0; ENABLE 0 discards what the filling bank holds, counts it lost, and with nothing left to deliver
the lane has no owner. While a packet is open the fields wait. R562, R567, R571: LANE_FLUSH. A lane of another context
is refused with LANE_OWNER and one that is not enabled with LANE_DISABLED, as is one that a waiting LANE_CFG is about
to disable. With no packet open and the draining bank empty the filling bank is handed over and the command answered;
otherwise the flush waits, for the packet boundary or for the draining bank. -/
def Obligations.LanesAreConfiguredAndFlushed : Prop :=
  (∀ (rq : Req) (n mode enable level idle : Nat) (l : Lane) (s : State), Live rq s → (liveCtx s rq.ctx).isSome → laneAt s n = l →
    ∀ g, g = ({ mode := mode, enable := enable == 1, level := level, idle := idle, sess := rq.sess } : LaneCfg) →
    (31 < n ∨ 3 < mode ∨ 1 < enable ∨ level % 8 ≠ 0 ∨ (n < 24 ∧ (16384 < level ∨ idle ≠ 0)) ∨
        (24 ≤ n ∧ (level < 8 ∨ 131072 < level ∨ (idle ≠ 0 ∧ (idle < 10 ∨ 100000 < idle)))) →
      Answered (.laneCfg rq n mode enable level idle) s rq 0x0170 rq.ctx .refused .laneParam []
        (if n < 32 then setLane s n { l with cfgReason := .laneParam } else s)) ∧
    (n < 32 → mode < 4 → enable < 2 → level % 8 = 0 →
      (n < 24 → level ≤ 16384 ∧ idle = 0) → (24 ≤ n → 8 ≤ level ∧ level ≤ 131072 ∧ (idle = 0 ∨ (10 ≤ idle ∧ idle ≤ 100000))) →
      (∀ c, l.owner = some c → c ≠ rq.ctx →
        Answered (.laneCfg rq n mode enable level idle) s rq 0x0170 rq.ctx .refused .laneOwner []
          (setLane s n { l with cfgReason := .laneOwner })) ∧
      (l.owner = none ∨ l.owner = some rq.ctx → l.waiting = [] → l.flush = [] → l.flushing = [] →
        (l.opened = none → l.draining = [] → enable = 1 →
          Answered (.laneCfg rq n mode enable level idle) s rq 0x0170 rq.ctx .ok .none [] (setLane s n { l with
            owner := some rq.ctx, pend := none, enable := true, mode := mode, level := level, idle := idle, sess := some rq.sess,
            sentBytes := if l.sess = some rq.sess then l.sentBytes else 0, lost := if l.enable then l.lost else 0,
            begun := if l.enable then l.begun else 0, offset := if l.enable then l.offset else 0 })) ∧
        (l.opened = none → l.draining = [] → enable = 0 → l.owner = some rq.ctx →
          Answered (.laneCfg rq n mode enable level idle) s rq 0x0170 rq.ctx .ok .none [] (setLane s n { l with
            owner := none, sess := none, pend := none, enable := false, mode := mode, level := level, idle := idle, filling := [],
            sentBytes := if l.sess = some rq.sess then l.sentBytes else 0, lost := min (l.lost + l.filling.length) 0xFFFF_FFFF })) ∧
        (l.opened ≠ none → l.owner = some rq.ctx ∨ enable = 1 →
          Answered (.laneCfg rq n mode enable level idle) s rq 0x0170 rq.ctx .ok .none []
            (setLane s n { l with owner := some rq.ctx, pend := some g }))))) ∧
  (∀ (rq : Req) (n : Nat) (l : Lane) (s : State), Live rq s → (liveCtx s rq.ctx).isSome → laneAt s n = l → n < 32 →
    (∀ c, l.owner = some c → c ≠ rq.ctx → Answered (.laneFlush rq n) s rq 0x0171 rq.ctx .refused .laneOwner []
      (setLane s n { l with cfgReason := .laneOwner })) ∧
    (l.owner = none ∨ l.owner = some rq.ctx → l.enable = false ∨ (∃ g, l.pend = some g ∧ g.enable = false) →
      Answered (.laneFlush rq n) s rq 0x0171 rq.ctx .refused .laneDisabled [] (setLane s n { l with cfgReason := .laneDisabled })) ∧
    (l.owner = some rq.ctx → l.enable = true → l.pend = none → l.waiting = [] →
      (l.opened ≠ none → l.flushing = [] →
        exec (.laneFlush rq n) s = .next (setLane s n { l with flush := l.flush ++ [rq] })) ∧
      (l.opened = none → l.draining ≠ [] → exec (.laneFlush rq n) s =
        .next (setLane s n { l with flush := [], flushing := l.flushing ++ (l.flush ++ [rq]) })) ∧
      (l.opened = none → l.draining = [] → l.flush = [] → l.flushing = [] →
        ∃ t k, exec (.laneFlush rq n) s = .next t ∧
          ({ sess := rq.sess, cls := .rsp, op := 0x0171, seq := rq.seq, ctx := rq.ctx, link := k,
             wire := wireOf s rq.sess } : Packet) ∈ t.net.sent ∧
          (laneAt t n).draining = l.filling.flatMap LanePkt.bytes ∧ (laneAt t n).filling = [] ∧ (laneAt t n).flush = [] ∧
          (laneAt t n).flushing = [] ∧ (laneAt t n).offset = l.offset ∧ (laneAt t n).lost = l.lost ∧ (∀ m, m ≠ n → laneAt t m = laneAt s m) ∧
          t = { s with net := t.net, draws := t.draws, rel := t.rel, lanes := t.lanes })))

/-- R554 to R559, R561: a put. One that breaks the rules ends the job with LANE_PUT_FAULT, and one on a lane that is not
enabled lands nothing. One that fits is appended to the packet of its stage slot, a new packet taking the next number,
and CLOSE completes the packet; a packet that would exceed the bank is discarded and counted lost. One that does not
fit the bank: with the draining bank empty the banks swap first; otherwise in mode SERVICE it waits, and in the other
modes the oldest complete packets are discarded and counted lost until it fits. A put of another stage slot waits
while a packet is open. A put that has ended gives its stage slot the result 0 for OK, 1 for TOO_LONG or 2 for
DISABLED. One without a free tag is not issued. (The Deck's words have no errors: what one does is the subject of
another statement.). R562 to R565: hand-over. With the draining bank empty, a small lane hands over its complete
packets and a large one when they reach LEVEL or its idle timer expires; the lane's bytes, number and lost count stay,
and they go out to the lane's session as a DATA packet that names the lane, its mode, its lost count and the OFFSET of
its first byte. Where no condition holds, no bank is handed over. -/
def Obligations.LanePutsAndHandOver : Prop :=
  (∀ (core slot n off len c : Nat) (close : Bool) (j : Job) (l : Lane) (bs : Bytes) (s : State),
    stageRunning s core slot = some (c, j) → laneAt s n = l →
    (ramOf s (physOf s core)).bad = [] → (ramOf s (physOf s core)).soft = [] →
    (32 ≤ n ∨ (l.owner ≠ none ∧ l.owner ≠ some c) ∨ off % 32 ≠ 0 ∨ len = 0 ∨ 4096 < len ∨
        (tagFree s core slot = true ∧ deckRead s c j.run.slot core off len = none) →
      exec (.lanePut core slot n off len close) s = .next (failJob s c .lanePutFault)) ∧
    (n < 32 → l.owner = none ∨ l.owner = some c → off % 32 = 0 → 0 < len → len ≤ 4096 → tagFree s core slot = false →
      exec (.lanePut core slot n off len close) s = .next s) ∧
    (n < 32 → l.owner = none ∨ l.owner = some c → off % 32 = 0 → 0 < len → len ≤ 4096 → tagFree s core slot = true →
      deckRead s c j.run.slot core off len = some bs →
      (l.enable = false → exec (.lanePut core slot n off len close) s = .next (putDone s c core slot 2)) ∧
      (∀ p q c1 s1, l.enable = true → l.opened = some (q, c1, s1) → c1 ≠ core ∨ s1 ≠ slot → p = (core, slot, bs, close) →
        ∃ u, exec (.lanePut core slot n off len close) s = .next (schedule (tryStop u c)) ∧
          laneAt u n = { l with waiting := l.waiting ++ [p] } ∧ u = { s with lanes := u.lanes, ctxs := u.ctxs, rel := u.rel }) ∧
      (∀ p q l0, l.enable = true → l.waiting = [] → l.flush = [] → l.flushing = [] → l.pend = none →
        (l.opened = some (p, core, slot) ∧ l0 = l) ∨
          (l.opened = none ∧ p = { number := l.begun } ∧ l0 = { l with begun := (l.begun + 1) % 2 ^ 32 }) →
        q = { p with data := p.data ++ bs } →
        (bankSize n < pktSize q.data.length → ∃ t, exec (.lanePut core slot n off len close) s = .next t ∧
          laneAt t n = { l0 with opened := none, lost := min (l.lost + 1) 0xFFFF_FFFF } ∧
          t = { putDone s c core slot 1 with lanes := t.lanes, net := t.net, draws := t.draws, rel := t.rel }) ∧
        (pktSize q.data.length ≤ bankSize n → fillBytes l + pktSize q.data.length ≤ bankSize n →
          ∃ t, exec (.lanePut core slot n off len close) s = .next t ∧
            laneAt t n = (if close then { l0 with filling := l.filling ++ [q], opened := none }
              else { l0 with opened := some (q, core, slot) }) ∧ (∀ m, m ≠ n → laneAt t m = laneAt s m) ∧
            t = { putDone s c core slot 0 with lanes := t.lanes, net := t.net, draws := t.draws, rel := t.rel }) ∧
        (pktSize q.data.length ≤ bankSize n → bankSize n < fillBytes l + pktSize q.data.length →
          (l.draining = [] → ∃ t, exec (.lanePut core slot n off len close) s = .next t ∧
            (laneAt t n).draining = l.filling.flatMap LanePkt.bytes ∧
            (laneAt t n).filling = (if close then [q] else []) ∧
            (laneAt t n).opened = (if close then none else some (q, core, slot)) ∧ (laneAt t n).lost = l.lost) ∧
          (l.draining ≠ [] → l.mode = 0 → ∃ u, exec (.lanePut core slot n off len close) s = .next (schedule (tryStop u c)) ∧
            laneAt u n = { l with waiting := [(core, slot, bs, close)] } ∧
            u = { s with lanes := u.lanes, ctxs := u.ctxs, rel := u.rel }) ∧
          (l.draining ≠ [] → l.mode ≠ 0 → ∃ t m l1, exec (.lanePut core slot n off len close) s = .next t ∧
            l1 = { l0 with filling := l.filling.drop m, lost := min (l.lost + m) 0xFFFF_FFFF } ∧
            laneAt t n = (if close then { l1 with filling := l1.filling ++ [q], opened := none }
              else { l1 with opened := some (q, core, slot) }) ∧
            fillBytes l1 + pktSize q.data.length ≤ bankSize n ∧
            ∀ i < m, bankSize n < fillBytes { l with filling := l.filling.drop i } + pktSize q.data.length))))) ∧
  (∀ (n : Nat) (l : Lane) (i : Instr) (s : State), tget? s.lanes n = some l → l.waiting = [] → l.flush = [] → l.flushing = [] → l.pend = none →
    l.draining = [] →
    ((i = .laneHandover n ∧ l.filling ≠ [] ∧ (n < 24 ∨ l.level ≤ fillBytes l)) ∨
        (i = .laneIdleExpire n ∧ 24 ≤ n ∧ l.idle ≠ 0 ∧ l.filling ≠ []) →
      ∃ t, exec i s = .next t ∧ (laneAt t n).draining = l.filling.flatMap LanePkt.bytes ∧ (laneAt t n).filling = [] ∧
        (laneAt t n).opened = l.opened ∧ (laneAt t n).lost = l.lost ∧ (laneAt t n).offset = l.offset ∧
        (l.sess = none → (laneAt t n).sentBytes = 0 ∧ t.net = s.net) ∧
        (∀ sid e, l.sess = some sid → tget? s.net.sessions sid = some e → e.peer = none → storeFull s = false →
          (l.filling.flatMap LanePkt.bytes).length ≤ (e.maxPayload - 16) / 8 * 8 →
          (laneAt t n).sentBytes = (l.filling.flatMap LanePkt.bytes).length ∧
          ∃ b, b = [0] ++ leBytes 1 n ++ leBytes 1 l.mode ++ [0] ++ leBytes 4 l.lost ++ leBytes 8 l.offset ++
              l.filling.flatMap LanePkt.bytes ∧
            t.net.sent = { sess := sid, cls := .data, link := e.nextOut, payload := b, wire := wireOf s sid } :: s.net.sent) ∧
        (∀ m, m ≠ n → laneAt t m = laneAt s m) ∧
        t = { s with lanes := t.lanes, net := t.net, draws := t.draws, rel := t.rel }) ∧
    ((i = .laneHandover n ∧ (l.filling = [] ∨ (24 ≤ n ∧ fillBytes l < l.level))) ∨
        (i = .laneIdleExpire n ∧ (n < 24 ∨ l.idle = 0 ∨ l.filling = [])) →
      ∃ t, exec i s = .next t ∧ laneAt t n = l ∧ t = { s with lanes := t.lanes }))

/-- R415, R437 to R439: SENSOR_CFG with operation BIND sets or clears an ISP context's owner while its ENABLE is 0, and is
refused with ISP_OWNER while it is 1. I3C_XFER with a field out of its range is refused with I3C_PARAM; otherwise its
reply tells what the bus did, with as many bytes as were asked for. An in-band interrupt joins its controller's queue
of 16, a full one turns it away, and the oldest of the queue is reported; so is a Hot-Join request. -/
def Obligations.CameraBindingAndI3c : Prop :=
  (∀ (rq : Req) (i owner : Nat) (s : State), Live rq s → i < 16 →
    (pageOn s (ispPage i) = true → Answered (.sensorCfgBind rq i owner) s rq 0x0180 0 .refused .ispOwner [] s) ∧
    (pageOn s (ispPage i) = false →
      (owner = 0xFFFF → Answered (.sensorCfgBind rq i owner) s rq 0x0180 0 .ok .none []
        { s with cam := { s.cam with owners := terase s.cam.owners i } }) ∧
      (owner ≠ 0xFFFF → liveCtx s owner = none →
        Answered (.sensorCfgBind rq i owner) s rq 0x0180 0 .noContext .ctxUnknown [] s) ∧
      (owner ≠ 0xFFFF → (liveCtx s owner).isSome → Answered (.sensorCfgBind rq i owner) s rq 0x0180 0 .ok .none []
        { s with cam := { s.cam with owners := tset s.cam.owners i owner } }))) ∧
  (∀ (rq : Req) (a : I3cArgs) (bus : I3cBus) (s : State), Live rq s →
    (2 ≤ a.ctrl ∨ 4 ≤ a.kind ∨ 256 < a.wdata.length ∨ 256 < a.readLen →
      Answered (.i3cXfer rq a bus) s rq 0x0180 0 .refused .i3cParam [] s) ∧
    (a.ctrl < 2 → a.kind < 4 → a.wdata.length ≤ 256 → a.readLen ≤ 256 →
      (bus = .nack → Answered (.i3cXfer rq a bus) s rq 0x0180 0 .refused .i3cNack [] s) ∧
      (bus = .err → Answered (.i3cXfer rq a bus) s rq 0x0180 0 .refused .i3cBus [] s) ∧
      (∀ r, bus = .done r → r.length = a.readLen → Answered (.i3cXfer rq a bus) s rq 0x0180 0 .ok .none r s))) ∧
  (∀ (ctrl addr : Nat) (p : Bytes) (s : State), EventRoom s →
    ((tget s.cam.ibis [] ctrl).length < 16 → p.length ≤ 8 → exec (.i3cIbi ctrl addr p) s = .next { s with
      cam := { s.cam with ibis := tset s.cam.ibis ctrl (tget s.cam.ibis [] ctrl ++ [(addr, p)]) } }) ∧
    (16 ≤ (tget s.cam.ibis [] ctrl).length → exec (.i3cIbi ctrl addr p) s = .next s) ∧
    (∀ rest u, tget s.cam.ibis [] ctrl = (addr, p) :: rest →
      u = { s with cam := { s.cam with ibis := tset s.cam.ibis ctrl rest } } →
      Reported none .ok .i3cIbi (leBytes 1 ctrl ++ leBytes 1 addr ++ leBytes 1 p.length ++ p) u (reportIbi s ctrl) ∧
      OnlyEvent u (reportIbi s ctrl)) ∧
    Reports (.i3cHotJoin ctrl) s none .ok .i3cHotJoin (leBytes 1 ctrl) s)

/-- R404, R407 to R409, R412, R424: reception. While the receivers are cut off or their receiver is disabled no packet
does anything. A frame start of a stream with a free slot opens a frame with the next number, for the ISP contexts
that the stream feeds; of no enabled stream it counts UNMATCHED. A line of the frame's data type is normalised and
appended, whole or cut to the stream's width with LONG_LINE; an uncorrectable header of any packet flags the frame
HDR_ECC and has no other effect on it, and a checksum mismatch flags it CRC. The frame end closes it, with missing
lines of 0 and SHORT where lines are missing. Under ERR_POLICY DROP a flagged frame is also DROPPED and none of its
units stays ready. R404, R405, R410, R411, R413, R414: a change of presence is kept and reported, as is whether the
lanes are in ULPS, and a detach abandons the frames that the receiver is receiving; while muted or without power
nothing changes. (That the row of presence carries ULPS is the model's choice, entry 109.) CAM_MUTE_ON abandons every
frame and unit, mutes and is reported; CAM_MUTE_OFF ends the mute and is reported. A second edge does nothing. In OFF
a change of the switch is kept and nothing is reported. -/
def Obligations.FramesAreReceived : Prop :=
  ((∀ (rx vc n dt e : Nat) (b : Bytes) (s : State), s.cam.muted = true ∨ bit s.pwr.up 8 = false →
    exec (.csiFrameStart rx ⟨vc, e⟩ n) s = .next s ∧ exec (.csiLine rx vc dt b e) s = .next s ∧
    exec (.csiFrameEnd rx ⟨vc, e⟩) s = .next s) ∧
  (∀ (rx vc n : Nat) (s : State), s.cam.muted = false → bit s.pwr.up 8 = true → pageOn s (rxPage rx) = true →
    (strOf s rx vc = none → ∃ t, exec (.csiFrameStart rx ⟨vc, 0⟩ n) s = .next t ∧
      (rxAt t rx).errs = (List.range 5).map (fun k => min ((rxAt s rx).errs.getD k 0 + if k = 3 then 1 else 0) 0xFFFF_FFFF) ∧
      t = { s with cam := { s.cam with rx := t.cam.rx } }) ∧
    (∀ m x, strOf s rx vc = some m → openFrame s m = none → strAt s m = x →
      (s.cam.frames.filter (fun g => g.stream == m)).length < laybySlots s m →
      ∃ t g, exec (.csiFrameStart rx ⟨vc, 0⟩ n) s = .next t ∧ t.cam.frames = s.cam.frames ++ [g] ∧ g.stream = m ∧ g.no = x.nextNo ∧
        g.csi = n ∧ g.lines = [] ∧ g.flags = [] ∧ g.whole = false ∧
        g.users.map IspFrame.isp = fedBy s m ∧ (∀ u ∈ g.users, u.lost = lostRings s u.isp) ∧
        strAt t m = { x with frames := x.frames + 1, nextNo := x.nextNo + 1 } ∧
        (∀ k, k ≠ m → strAt t k = strAt s k) ∧
        t = { s with cam := { s.cam with rx := t.cam.rx, strs := t.cam.strs, frames := t.cam.frames }, draws := t.draws })) ∧
  (∀ (rx vc m dt : Nat) (b : Bytes) (g : Frame) (s : State), s.cam.muted = false → bit s.pwr.up 8 = true →
    pageOn s (rxPage rx) = true → strOf s rx vc = some m → openFrame s m = some g → frameOf s m g.no = some g →
    (∀ l, dt = bits (strSrc s m) 19 14 → l = unpackRaw dt b → g.lines.length < strH s m → dt ≠ 0x1E →
      (l.length ≤ strW s m → ∃ t h, exec (.csiLine rx vc dt b 0) s = .next t ∧ frameOf t m g.no = some h ∧
        h.lines = g.lines ++ [l] ∧ h.got = g.got + 1 ∧ h.flags = g.flags ∧ h.whole = g.whole ∧
        t = { s with cam := { s.cam with rx := t.cam.rx, frames := t.cam.frames, ready := t.cam.ready } }) ∧
      (strW s m < l.length → ∃ t h, exec (.csiLine rx vc dt b 0) s = .next t ∧ frameOf t m g.no = some h ∧
        h.lines = g.lines ++ [l.take (strW s m)] ∧ h.got = g.got + 1 ∧ 3 ∈ h.flags ∧
        (bit (strSrc s m) 11 = true → 5 ∈ h.flags)) ∧
      (l.length ≤ strW s m → ∃ t h, exec (.csiLine rx vc dt b 4) s = .next t ∧ frameOf t m g.no = some h ∧
        h.lines = g.lines ++ [l] ∧ 0 ∈ h.flags)) ∧
    (∀ n, ∀ i ∈ [Instr.csiFrameStart rx ⟨vc, 2⟩ n, .csiLine rx vc dt b 2, .csiFrameEnd rx ⟨vc, 2⟩],
      ∃ t h, exec i s = .next t ∧ frameOf t m g.no = some h ∧ h.lines = g.lines ∧ h.whole = g.whole ∧ 1 ∈ h.flags ∧
      (∀ f ∈ g.flags, f ∈ h.flags) ∧
      (bit (strSrc s m) 11 = true → 5 ∈ h.flags ∧ ∀ r ∈ t.cam.ready, r.2.1 ≠ m ∨ r.2.2.1 ≠ g.no)) ∧
    (∃ u h, exec (.csiFrameEnd rx ⟨vc, 0⟩) s = .next (settleUsers (readyUnits u m g.no) m g.no) ∧ frameOf u m g.no = some h ∧
      h.whole = true ∧ h.lines = g.lines ++ List.replicate (strH s m - g.lines.length) (List.replicate (lineLen s m) 0) ∧
      (g.lines.length < strH s m → 2 ∈ h.flags) ∧ (strH s m ≤ g.lines.length → h.flags = g.flags) ∧ h.users = g.users))) ∧
  ((∀ (rx : Nat) (p ulps : Bool) (s : State), EventRoom s → ∀ i, i = Instr.camPresenceChange rx ⟨p, ulps⟩ →
    (s.cam.muted = true ∨ 1 < chipState s → exec i s = .next s) ∧
    (s.cam.muted = false → chipState s ≤ 1 →
      ((rxAt s rx).present = p → exec i s = .next { s with
        cam := { s.cam with rx := tset s.cam.rx rx { rxAt s rx with ulps := ulps && p } } }) ∧
      ((rxAt s rx).present ≠ p → p = true → ∃ u, Reports i s none .ok .camAttached (leBytes 1 rx) u ∧
        rxAt u rx = { rxAt s rx with present := true, deskewed := false, ulps := ulps } ∧ (∀ k, k ≠ rx → rxAt u k = rxAt s k) ∧
        u = { s with cam := { s.cam with rx := u.cam.rx } }) ∧
      ((rxAt s rx).present ≠ p → p = false →
        ∃ t, exec i s = .next t ∧ (rxAt t rx).present = false ∧ (rxAt t rx).ulps = false ∧
          (∀ g ∈ t.cam.frames, g.whole = false → g.dead = false → bits (strSrc s g.stream) 25 24 ≠ rx) ∧
          t.net.evtNum = (s.net.evtNum + 1) % 2 ^ 32))) ∧
  (∀ s : State, EventRoom s → s.pwr.mode ≠ .off →
    (s.cam.muted = true → exec .camMuteOn s = .next s ∧ 
      Reports .camMuteOff s none .ok .camMuteOff [] { s with cam := { s.cam with muted := false } }) ∧
    (s.cam.muted = false → exec .camMuteOff s = .next s ∧
      ∃ u, Reports .camMuteOn s none .ok .camMuteOn [] u ∧ u.cam.muted = true ∧ (∀ g ∈ u.cam.frames, g.dead = true) ∧
        (∀ r ∈ u.cam.ready, s.cam.frames.any (fun g => g.stream == r.2.1 && g.no == r.2.2.1) = false) ∧
        u.cam.owners = s.cam.owners ∧ u.cam.strs = s.cam.strs)) ∧
  (∀ s : State, s.pwr.mode = .off →
    (s.cam.muted = false → exec .camMuteOn s = .next { s with cam := { s.cam with muted := true } }) ∧
    (s.cam.muted = true → exec .camMuteOff s = .next { s with cam := { s.cam with muted := false } })))

/-- R409, R419, R420, R422, R431: turns on the ISP. No unit starts while one is in progress. Under FIFO the oldest ready
unit starts if it is the context's; under ROTA a band of the context whose entry is in force starts, one in each
entry; at the first unit of a frame a commit that waits is taken first and the rings are judged again. A unit that
completes has written its rows, unless its frame is DROPPED, and its context goes on to the next unit. The end of a
slot steps through the rota; an entry that is invalid or whose context has no unit ready serves none. A write that is
refused or discarded loses its output. R433: a frame record is 64 bytes: VERSION 1, the flags of the frame, of its
abandonment, of the lost outputs and of cut embedded data each in its bit, BUF, ISP_CTX and STREAM, FRAME_NO, LINES
and DROPPED_SINCE each at its place. -/
def Obligations.IspTurnsAndRecords : Prop :=
  ((∀ (i : Nat) (r : Nat × Nat × Nat × Nat) (s : State),
    (s.cam.running.isSome → exec (.ispUnitStart i) s = .next s) ∧
    (s.cam.running = none → r.1 = i → (r.2.2.2 ≠ 0 ∨ (pageAt s (ispPage i)).pending = false) →
      (bit (live s 0x0020_0010) 31 = false → s.cam.ready.head? = some r) →
      (bit (live s 0x0020_0010) 31 = true → s.cam.served = false ∧ bit (live s (0x0020_0080 + 4 * s.cam.rota)) 4 = true ∧
        live s (0x0020_0080 + 4 * s.cam.rota) % 16 = i ∧ s.cam.ready.find? (fun q => q.1 == i) = some r) →
      exec (.ispUnitStart i) s = .next (modFrame { s with cam := { s.cam with
        running := some r, ready := s.cam.ready.filter (fun x => x ≠ r), served := true } } r.2.1 r.2.2.1
        (fun g => { g with begun := true }))) ∧
    (s.cam.running = none → r.1 = i → r.2.2.2 = 0 → (pageAt s (ispPage i)).pending = true →
      bit (live s 0x0020_0010) 31 = false → s.cam.ready.head? = some r →
      ∃ a u, a = (takeCommit s (ispPage i)).1 ∧
        u = modUser (tellWaits a (ispPage i) (takeCommit s (ispPage i)).2) i r.2.1 r.2.2.1
          (fun v => { v with lost := lostRings a i }) ∧
        exec (.ispUnitStart i) s = .next (modFrame { u with cam := { u.cam with
          running := some r, ready := u.cam.ready.filter (fun x => x ≠ r), served := true } } r.2.1 r.2.2.1
          (fun g => { g with begun := true }))) ∧
    (s.cam.running = none → bit (live s 0x0020_0010) 31 = true → s.cam.served = true ∨ bit (live s (0x0020_0080 + 4 * s.cam.rota)) 4 = false →
      exec (.ispUnitStart i) s = .next s)) ∧
  (∀ (i m no u : Nat) (g : Frame) (s : State),
    (s.cam.running = none → exec (.ispUnitComplete i) s = .next s) ∧
    (s.cam.running = some (i, m, no, u) → frameOf s m no = some g → ∀ s1, s1 = { s with cam := { s.cam with running := none } } →
      exec (.ispUnitComplete i) s = .next (settleUsers
        (modUser (if g.flags.contains 5 then s1 else writeUnit s1 i m no g u) i m no (fun v => { v with unit := u + 1 })) m no))) ∧
  (∀ s : State,
    (bit (live s 0x0020_0010) 31 = true → 0 < bits (live s 0x0020_0010) 21 16 →
      ∀ k e, k = (s.cam.rota + 1) % bits (live s 0x0020_0010) 21 16 → e = live s (0x0020_0080 + 4 * k) →
      exec .ispRotaSlotEnd s = .next { s with cam := { s.cam with
        rota := k, served := !(bit e 4 && s.cam.ready.any (fun r => r.1 == e % 16)) } }) ∧
    (bit (live s 0x0020_0010) 31 = false → exec .ispRotaSlotEnd s = .next s)) ∧
  (∀ (i m no o c dest off : Nat) (b : Bytes) (h : WinHdr) (s : State), 
    h = { space := bits dest 29 26, ctx := c, slot := bits dest 17 16, win := bits dest 15 8, epoch := dest % 256, off := off,
          data := b, writer := .isp } → homeReady s h = true → behindEarlier s h = false →
    ∀ k, keyOf s c h.slot h.space h.win = some k → ((writeFate s h k = .denied ∨ writeFate s h k = .closed ∨ writeFate s h k = .range) →
      ∀ g u, frameOf s m no = some g → g.users.find? (fun v => v.isp == i) = some u →
        ∃ f v, frameOf (ispWrite s i m no o c dest off b) m no = some f ∧ f.users.find? (fun v => v.isp == i) = some v ∧
          o ∈ v.lost) ∧
      (writeFate s h k = .accepted → (ispWrite s i m no o c dest off b).cam = s.cam ∧
        (ispWrite s i m no o c dest off b).nextFlight = s.nextFlight + 1))) ∧
  (∀ (s : State) (g : Frame) (u : IspFrame) (d : RecDue) (since : Nat) (b : Bytes), b = frameRecord s g u d since →
    (∀ k ∈ d.flags, k < 14) → (∀ k ∈ u.lost, k < 3) → g.stream < 8 → u.isp < 16 → d.buf < 256 →
    g.no < 2 ^ 64 → g.got < 2 ^ 16 → since < 2 ^ 32 → g.csi < 2 ^ 16 →
    b.length = 64 ∧ field b 3 1 = 1 ∧
    (∀ k < 14, bit (field b 0 4) k = (d.flags.contains k || (decide (9 ≤ k) && u.lost.contains (k - 9)) ||
      (k == 12 && d.trunc))) ∧
    field b 7 1 = d.buf ∧ bits (field b 4 4) 19 16 = u.isp ∧ field b 4 4 % 8 = g.stream ∧ field b 8 8 = g.no ∧
    field b 0x28 2 = g.csi ∧ field b 0x2A 2 = g.got ∧ field b 0x2C 4 = since ∧ (b.drop 0x30) = List.replicate 16 0)

/-- R448, R461, R469: the owner's commands. BIND is taken when no owner is set, from the owner or on port M, and is
otherwise refused with AUD_OWNER; a path that it brings on counts its samples from the ring's own index. CASCADE arms
an entry with a loaded image's slot and a window of its allotment, or clears it with a zero mask; it is refused with
CAS_SLOT otherwise. WAKE_PHRASE_LOAD is taken from the owner alone: a record that breaks the format is refused with
WAKE_FORMAT, one beyond the budget with WAKE_COMPUTE, and one that passes waits for the next frame end; a zero length
waits to empty the slot. -/
def Obligations.AudioOwnerCommands : Prop :=
  (∀ (rq : Req) (owner : Nat) (s : State), Live rq s → (liveCtx s rq.ctx).isSome →
    (∀ c, rq.iface ≠ .mgmt → s.aud.owner = some c → c ≠ rq.ctx →
      Answered (.audioCfgBind rq owner) s rq 0x0181 rq.ctx .refused .audOwner [] s) ∧
    (rq.iface = .mgmt ∨ s.aud.owner = none ∨ s.aud.owner = some rq.ctx →
      (owner = 0xFFFF → Answered (.audioCfgBind rq owner) s rq 0x0181 rq.ctx .ok .none [] { s with aud := { s.aud with owner := none } }) ∧
      (owner ≠ 0xFFFF → liveCtx s owner = none → Answered (.audioCfgBind rq owner) s rq 0x0181 rq.ctx .noContext .ctxUnknown [] s) ∧
      (owner ≠ 0xFFFF → (liveCtx s owner).isSome → ∃ u, Answered (.audioCfgBind rq owner) s rq 0x0181 rq.ctx .ok .none [] u ∧
        u.aud.owner = some owner ∧ (s.aud.owner.isSome → u.aud.paths = s.aud.paths) ∧
        (s.aud.owner = none → ∀ p < 2, pathOn u p = true →
          (tget u.aud.paths {} p).next = s.aud.index * (if p = 0 then 1 else 3)) ∧
        (bit (live s 0x0021_0058) 31 = false → u = { s with aud := { s.aud with owner := some owner, paths := u.aud.paths } })))) ∧
  (∀ (rq : Req) (m mask space win linger k : Nat) (s : State), Live rq s → (liveCtx s rq.ctx).isSome →
    (m = 0 ∨ 3 < m → Answered (.cascade rq m mask space win linger) s rq 0x0181 rq.ctx .refused .casSlot [] s) ∧
    (0 < m → m ≤ 3 →
      (mask = 0 → Answered (.cascade rq m mask space win linger) s rq 0x0181 rq.ctx .ok .none []
        { s with aud := { s.aud with cascade := terase s.aud.cascade m } }) ∧
      (mask ∉ [0, 1, 2, 4, 8] → Answered (.cascade rq m mask space win linger) s rq 0x0181 rq.ctx .refused .casSlot [] s) ∧
      (k < 4 → mask = 2 ^ k → imageOf s rq.ctx k = none ∨ entryOf s rq.ctx k space win = none →
        Answered (.cascade rq m mask space win linger) s rq 0x0181 rq.ctx .refused .casSlot [] s) ∧
      (k < 4 → mask = 2 ^ k → (imageOf s rq.ctx k).isSome → (entryOf s rq.ctx k space win).isSome →
        (60000 < linger → Answered (.cascade rq m mask space win linger) s rq 0x0181 rq.ctx .refused .audParam [] s) ∧
        (linger ≤ 60000 → ∃ e, Answered (.cascade rq m mask space win linger) s rq 0x0181 rq.ctx .ok .none []
            { s with aud := { s.aud with cascade := tset s.aud.cascade m e } } ∧
          e.ctx = rq.ctx ∧ e.slot = k ∧ e.space = space ∧ e.win = win ∧ e.linger = linger)))) ∧
  (∀ (rq : Req) (p h len off : Nat) (x : Ctx) (s : State), Live rq s → liveCtx s rq.ctx = some x →
    (s.aud.owner ≠ some rq.ctx → Answered (.wakePhraseLoad rq p h len off) s rq 0x0182 rq.ctx .refused .audOwner [] s) ∧
    (s.aud.owner = some rq.ctx → p < 4 →
      (len = 0 → Answered (.wakePhraseLoad rq p h len off) s rq 0x0182 rq.ctx .ok .none (shake256 64 [])
        { s with aud := { s.aud with loads := tset s.aud.loads p [] } }) ∧
      (0 < len → tget? x.objs h = none →
        Answered (.wakePhraseLoad rq p h len off) s rq 0x0182 rq.ctx .refused .objHandle [] s) ∧
      (∀ o, 0 < len → tget? x.objs h = some o → storedBytes o < off + len →
        Answered (.wakePhraseLoad rq p h len off) s rq 0x0182 rq.ctx .fault .objRange [] s) ∧
      (∀ o v f t, 0 < len → tget? x.objs h = some o → off + len ≤ storedBytes o → saveUpper s rq.ctx h x o = (v, some f) →
        t = replyC v rq 0x0182 .fault f [] → Ready s t rq.ctx → exec (.wakePhraseLoad rq p h len off) s = .next t) ∧
      (∀ o v u r t, 0 < len → tget? x.objs h = some o → off + len ≤ storedBytes o → saveUpper s rq.ctx h x o = (v, none) →
        u = modCtx v rq.ctx (fun y => { y with objs := tset y.objs h { o with dirty := false } }) →
        homeRead u x o off len = .ok r → Ready s t rq.ctx →
        (wakeFormatOk r = false → t = replyC u rq 0x0182 .refused .wakeFormat [] →
          exec (.wakePhraseLoad rq p h len off) s = .next t) ∧
        (wakeFormatOk r = true → 786432 < macField r + otherMacs s p → t = replyC u rq 0x0182 .refused .wakeCompute [] →
          exec (.wakePhraseLoad rq p h len off) s = .next t) ∧
        (wakeFormatOk r = true → macField r + otherMacs s p ≤ 786432 →
          t = replyC { u with aud := { u.aud with loads := tset u.aud.loads p r } } rq 0x0182 .ok .none (shake256 64 r) →
          exec (.wakePhraseLoad rq p h len off) s = .next t))))

/-- R454, R460 to R463, R466, R475: a frame end. The ring takes the frame's 160 rows, as the decimators give them, and
holds the last 32,000; rows that mute, the settling time or a disabled page zeroes are zeros and say so, and so is a
disabled channel; waiting records enter their slots with S at 0; and with the Wayside page enabled each phrase takes
its frame, S moving by a quarter of its distance from the new score, rounded down, and a verdict is issued for each
phrase that has been at or above TRIGGER long enough outside its REFRACT frames. R462, R466, R474 to R476: HOLD_MAX
withdraws a hold vote and bars the next. MIC_MUTE_ON zeroes the ring, every S and the layers' inputs, drops the vote,
any delivery and the blocks that wait, and is reported, and the PDM clocks stay low; MIC_MUTE_OFF ends the mute, the
decimators starting from zero and the first 4 ms reading as zero, and is reported. In OFF the pin is kept and nothing
else happens. R450 to R453, R466 to R468: blocks. A block of an enabled path goes to the window of its destination in
RUN and IDLE, first its samples and last its header, each a write of the writer AUDIO at BASE + (k mod BUFS) × STRIDE;
its header gives the time that the row carries; in SLEEP and DEEP nothing is written and the next block carries GAP. A
delivery writes the ring's rows from the read point on as blocks flagged PREROLL; what the ring has lost is counted,
and with less than a block left live blocks follow. R470 to R472: a cascade job's end is reported as CASCADE_DONE with
its status, action word and target, and triggers the target: NEXT from M1 goes to M2 when it is armed and otherwise to
M3, LAST from M1 and NEXT or LAST from M2 go to M3, when armed; DONE and every completion of M3 end the cascade. A
vote ends LINGER_MS after its job. A trigger for an entry whose run is queued or running only counts. -/
def Obligations.SpotterBlocksAndCascade : Prop :=
  ((∀ (l : List Pdm) (s : State),
    (s.pwr.mode = .off → exec (.spotterFrameEnd l) s = .next s) ∧
    (s.pwr.mode ≠ .off → s.aud.ring.length ≤ 32000 →
      ∃ u, (pageOn s 0x0021_1000 = false → exec (.spotterFrameEnd l) s = .next u) ∧
        (pageOn s 0x0021_1000 = true → ∃ v, v.aud.phrases = u.aud.phrases.map (fun e => (e.1, (phraseFrame e.2 (featureFrame u)).1)) ∧
          exec (.spotterFrameEnd l) s = .next
            (((u.aud.phrases.filter (fun e => (phraseFrame e.2 (featureFrame u)).2)).map Prod.fst).foldl verdict (holdUpdate v)) ∧
          v = { u with aud := { u.aud with phrases := v.aud.phrases } }) ∧
        u.aud.ring.length = min 32000 (s.aud.ring.length + 160) ∧
        u.aud.ring.drop (u.aud.ring.length - 160) = (lpFrame s l).2 ∧
        u.aud.index = s.aud.index + 160 ∧ u.aud.loads = [] ∧
        (∀ r ∈ (lpFrame s l).2, r.samples.length = 8 ∧ (∀ ch < 8, chanOn s ch = false → r.samples.getD ch 0 = 0) ∧
          (r.muted = true ∨ r.settling = true ∨ pageOn s 0x0021_0000 = false → r.samples = List.replicate 8 0) ∧
          (s.aud.muted = true → r.muted = true) ∧
          (s.aud.settling = true → r.samples = List.replicate 8 0)) ∧
        ((s.aud.loads.map Prod.fst).Nodup → (∀ p, tget? s.aud.loads p = none → tget? u.aud.phrases p = tget? s.aud.phrases p) ∧
          (∀ p b, tget? s.aud.loads p = some b →
            (b = [] → tget? u.aud.phrases p = none) ∧ (b ≠ [] → tget? u.aud.phrases p = some { record := b }))) ∧
        u = { s with aud := { s.aud with
          ring := u.aud.ring, hqRing := u.aud.hqRing, index := u.aud.index, loads := [], phrases := u.aud.phrases,
          lpDecim := u.aud.lpDecim, hqDecim := u.aud.hqDecim, lpSettle := u.aud.lpSettle, hqSettle := u.aud.hqSettle,
          stopped := s.aud.muted } })) ∧
  (∀ (p : Phrase) (f : List Int) (v : Int),
    (runLayers p.record (layersOf p.record) f p.inputs p.seen).2.2 = some v → -32768 ≤ p.score → p.score < 32768 → -128 ≤ v → v < 128 →
    (phraseFrame p f).1.score = p.score + (v - p.score) / 4 ∧
    (phraseFrame p f).1.count = (if triggerOf p.record ≤ p.score + (v - p.score) / 4 then p.count + 1 else 0) ∧
    ((phraseFrame p f).2 = true ↔ field p.record 8 1 ≤ (phraseFrame p f).1.count ∧ p.refract = 0) ∧
    ((phraseFrame p f).2 = true → (phraseFrame p f).1.refract = field p.record 0xA 2) ∧
    ((phraseFrame p f).2 = false → (phraseFrame p f).1.refract = p.refract - 1))) ∧
  (∀ s : State, EventRoom s →
    (s.aud.hold = true → exec .holdMaxExpire s = .next { s with aud := { s.aud with hold := false, barred := true } }) ∧
    (s.aud.hold = false → exec .holdMaxExpire s = .next s) ∧
    (s.aud.muted = true → exec .micMuteOn s = .next s ∧ pinMuteLed s = true ∧ ∀ k, pinPdmClk s k = 0) ∧
    (s.pwr.mode = .off →
      (s.aud.muted = false → exec .micMuteOn s = .next { s with aud := { s.aud with muted := true } }) ∧
      (s.aud.muted = true → exec .micMuteOff s = .next { s with aud := { s.aud with muted := false } })) ∧
    (s.aud.muted = false → s.pwr.mode ≠ .off → ∃ u, Reports .micMuteOn s none .ok .micMuteOn [] u ∧
      u.aud.muted = true ∧ u.aud.hold = false ∧ u.aud.readPoint = none ∧ u.aud.ring.length = s.aud.ring.length ∧
      (∀ r ∈ u.aud.ring ++ u.aud.hqRing, r.samples = List.replicate 8 0 ∧ r.muted = true) ∧
      (∀ h ∈ u.waitHdrs, h ∈ s.waitHdrs ∧ ∀ p n, h.2 ≠ .audio p n) ∧ u.aud.phrases.map Prod.fst = s.aud.phrases.map Prod.fst ∧
      (∀ e ∈ u.aud.phrases, e.2.score = 0 ∧ e.2.inputs = []) ∧ u.aud.owner = s.aud.owner ∧ u = { s with aud := u.aud, waitHdrs := u.waitHdrs }) ∧
    (s.aud.muted = true → s.pwr.mode ≠ .off → Reports .micMuteOff s none .ok .micMuteOff [] { s with aud := { s.aud with
      muted := false, settling := true, lpSettle := 64, hqSettle := 192, lpDecim := [], hqDecim := [] } }) ∧
    (s.aud.muted = false → exec .micMuteOff s = .next s) ∧
    exec .settlingEnd s = .next { s with aud := { s.aud with settling := false } }) ∧
  ((∀ (path time : Nat) (p : AudPath) (s : State), tget s.aud.paths {} path = p →
    (2 ≤ path ∨ pathOn s path = false ∨ s.pwr.mode = .off → exec (.audioBlockEnd path time) s = .next s) ∧
    (path < 2 → pathOn s path = true → s.pwr.mode ≠ .off → ∀ ring last n, pathRing s path = (ring, last) →
      blockSamples s path = n →
      (last < p.next + n → exec (.audioBlockEnd path time) s = .next s) ∧
      (p.next + n ≤ last →
        (2 ≤ chipState s → exec (.audioBlockEnd path time) s = .next { s with aud := { s.aud with
          paths := tset s.aud.paths path { p with next := p.next + n, gap := true } } }) ∧
        (chipState s ≤ 1 → path = 0 → s.aud.readPoint.isSome → exec (.audioBlockEnd path time) s = .next s) ∧
        (chipState s ≤ 1 → path = 1 ∨ s.aud.readPoint = none → exec (.audioBlockEnd path time) s = .next (writeBlock s path p.next
          ((ring.drop (p.next + ring.length - last)).take n) false time))))) ∧
  (∀ (path first c d k blk off time : Nat) (rows : List AudRow) (pre : Bool) (p : AudPath) (w : Win) (body : Bytes) (s : State),
    path < 2 → s.aud.owner = some c → tget s.aud.paths {} path = p → live s (pathRegs path) = d → live s (pathRegs path + 8) = blk →
    off = live s (pathRegs path + 4) + p.block % bits blk 23 16 * blockStride path (chansOn s).length (blk % 256) →
    rows.flatMap (rowBytes s path) = body → 0 < body.length → body.length ≤ 4096 →
    keyOf s c (bits d 17 16) (bits d 29 26) (bits d 15 8) = some k → winAt s k = w → w.state = .opened → w.epoch = d % 256 →
    bit w.writers 10 = true → off + 32 + body.length ≤ (w.limit - w.base) * 256 → inFlight s (gateOf (k / 256) w.base) ≤ 2 → s.waitHdrs = [] →
    bits d 29 26 < 8 → bit s.pwr.up (bits d 29 26) = true → tget? s.flights s.nextFlight = none →
    tget? s.flights (s.nextFlight + 1) = none →
    ∃ t f g, writeBlock s path first rows pre time = t ∧
      tget t.aud.paths {} path = { block := p.block + 1, next := first + rows.length, gap := false } ∧
      tget? t.flights s.nextFlight = some f ∧ f.home = k / 256 ∧ f.base = w.base ∧ f.off = off + 32 ∧ f.data = body ∧ f.writer = .audio ∧
      tget? t.flights (s.nextFlight + 1) = some g ∧ g.home = k / 256 ∧ g.base = w.base ∧ g.off = off ∧ g.writer = .audio ∧
      g.data.length = 32 ∧ field g.data 3 1 = 1 ∧ field g.data 4 4 = rows.length % 2 ^ 32 ∧ field g.data 8 8 = first % 2 ^ 40 ∧ field g.data 16 8 = time % 2 ^ 64 ∧
      bit (field g.data 0 4) 4 = p.gap ∧ bit (field g.data 0 4) 3 = rows.any AudRow.settling ∧
      bit (field g.data 0 4) 2 = rows.any AudRow.muted ∧
      bit (field g.data 0 4) 1 = pre ∧ t.nextFlight = s.nextFlight + 2 ∧
      t = { s with aud := { s.aud with paths := t.aud.paths }, flights := t.flights, nextFlight := t.nextFlight }) ∧
  (∀ (r n : Nat) (p : AudPath) (s : State), tget s.aud.paths {} 0 = p → blockSamples s 0 = n →
    (s.aud.readPoint = none ∨ prerollReady s = false → exec .prerollDelivery s = .next s) ∧
    (s.aud.readPoint = some r → prerollReady s = true → ringOldest s ≤ r → 0 < n →
      (r + n ≤ s.aud.index → exec .prerollDelivery s = .next
        (writeBlock (draw { s with aud := { s.aud with readPoint := some (r + n) } }) 0 r
          ((s.aud.ring.drop (r - ringOldest s)).take n) true (Config.freeTime s.draws))) ∧
      (s.aud.index < r + n → exec .prerollDelivery s =
        .next { s with aud := { s.aud with readPoint := none, paths := tset s.aud.paths 0 { p with next := r } } })) ∧
    (s.aud.readPoint = some r → prerollReady s = true → r < ringOldest s →
      ∃ t, exec .prerollDelivery s = .next t ∧
        t.aud.ringLost = min (s.aud.ringLost + (ringOldest s - r)) 0xFFFF_FFFF))) ∧
  ((∀ (m word : Nat) (s : State) (armed : Nat → Bool), (∀ k, armed k = (tget? s.aud.cascade k).isSome) →
    actionTarget s m word =
      if m = 1 ∧ word % 4 = 1 ∧ armed 2 = true then 2
      else if ((m = 1 ∨ m = 2) ∧ (word % 4 = 1 ∨ word % 4 = 2)) ∧ armed 3 = true then 3 else 0) ∧
  (∀ (m : Nat) (e : CasRun) (s : State), EventRoom s → tget? s.aud.casRuns m = some e →
    (e.results = [] → exec (.cascadeDone m) s = .next s) ∧
    (∀ c st word rest u, e.results = (c, st, word) :: rest →
      u = { s with aud := { s.aud with casRuns := tset s.aud.casRuns m { e with results := rest } } } →
      (actionTarget s m word = 0 → Reports (.cascadeDone m) s (some c) .ok .cascadeDone
        (leBytes 1 m ++ leBytes 1 st.code ++ leBytes 4 word ++ [0]) u) ∧
      (∀ q, actionTarget s m word = q → q ≠ 0 → ∃ v, Reported (some c) .ok .cascadeDone
          (leBytes 1 m ++ leBytes 1 st.code ++ leBytes 4 word ++ leBytes 1 q) u v ∧ OnlyEvent u v ∧
        exec (.cascadeDone m) s = .next (triggerEntry v q 0 c))) ∧
    (∃ t, exec (.lingerExpire m) s = .next t ∧
      tget? t.aud.casRuns m = some { e with lingers := e.lingers.tail } ∧
      (∀ k, k ≠ m → tget? t.aud.casRuns k = tget? s.aud.casRuns k) ∧
      t = { s with aud := { s.aud with casRuns := t.aud.casRuns } }) ∧
    (∀ cls id, (tget? s.aud.cascade m).isSome → e.active = true → triggerEntry s m cls id =
      { s with aud := { s.aud with coalesced := min (s.aud.coalesced + 1) 0xFFFF_FFFF } })) ∧
  (∀ (m cls id : Nat) (e : CasEntry) (x : Ctx) (im : Image) (s : State), EventRoom s → tget? s.aud.cascade m = some e →
    (∀ r, tget? s.aud.casRuns m = some r → r.active = false) → liveCtx s e.ctx = some x → tget? x.images e.slot = some im → im.reload = false → x.runQ.length < 16 →
    x.job.isSome → descending s = false →
    ∃ t y, triggerEntry s m cls id = t ∧ tget? t.ctxs e.ctx = some y ∧ y.runQ.length = x.runQ.length + 1 ∧
      (∀ r, y.runQ.getLast? = some r → r.slot = e.slot ∧ r.milestone = some m) ∧
      (∃ v, tget? t.aud.casRuns m = some v ∧ v.active = true ∧ v.ctx = e.ctx ∧ v.slot = e.slot ∧ v.space = e.space ∧ v.win = e.win)))

/-- R493, R494, R496, R500, R502: GUARDRAIL_CFG. LOAD_WEIGHTS is taken while Guardrail is disabled and the record keeps
its format, and answers the record's digest. RELEASE releases each named stop without a cause that persists and no
other, answers which it released and which it did not, and is refused with GRD_RELEASE_ACTIVE when there is one of
these. DEEP_OVERRIDE sets the override. -/
def Obligations.GuardrailCommands : Prop :=
  ∀ (rq : Req) (s : State), Live rq s →
    (∀ w, (pageOn s grdPage = true → Answered (.loadWeights rq w) s rq 0x01E0 0 .refused .grdLoadEnabled [] s) ∧
      (pageOn s grdPage = false → weightsOk w = false → Answered (.loadWeights rq w) s rq 0x01E0 0 .refused .grdWeightFormat [] s) ∧
      (pageOn s grdPage = false → weightsOk w = true →
        Answered (.loadWeights rq w) s rq 0x01E0 0 .ok .none (shake256 64 w) { s with grd := { s.grd with weights := some w } })) ∧
    Answered (.deepOverride rq) s rq 0x01E0 0 .ok .none [] { s with grd := { s.grd with deepOverride := true } } ∧
    (∀ (o a b : Nat), a < 16 → b < 16 → s.grd.stopped < 16 →
      (∀ k < 4, bit a k = (bit o k && !causePersists s k)) → (∀ k < 4, bit b k = (bit o k && causePersists s k)) →
      ∃ t, exec (.release rq o) s = .next t ∧ (∀ k < 4, bit t.grd.stopped k = (bit s.grd.stopped k && !bit a k)) ∧
        (b = 0 → Replied rq 0x01E0 0 .ok .none [BitVec.ofNat 8 a, 0, 0, 0] t) ∧
        (b ≠ 0 → Replied rq 0x01E0 0 .refused .grdReleaseActive [BitVec.ofNat 8 a, BitVec.ofNat 8 b, 0, 0] t) ∧
        t = { s with grd := { s.grd with stopped := t.grd.stopped }, net := t.net, draws := t.draws, rel := t.rel }) ∧
    (∀ k, causePersists s k = true ↔ grdOn s = false ∨ s.grd.fault = true ∨ bit (directMask s s.grd.levels) k = true ∨
      bit s.grd.asserted k = true ∨ bit (staleMask s) k = true)

/-- R483 to R485, R487, R491 to R493: a slot polls when the bus is free and waits for it otherwise. A frame that fails its
CRC counts and changes nothing else; an accepted one updates its slot's four readings and evaluates: each stop for
which at least two of the network, the rules and the previous evaluation vote is latched. An active direct input and a
stale slot latch the stops of their masks; no latched stop is released. R497, R498, R500, R623, R626: the heartbeat
changes level while Guardrail runs without a fault. A parity error or a GCLK gap latches all four stops and the fault;
a good check and one in DEEP or OFF change nothing. A rising edge of DOCK_N ends DEEP, and aborts an entry to DEEP
without an override. -/
def Obligations.GuardrailStops : Prop :=
  ((∀ (n : Nat) (s : State),
    (grdOn s = false ∨ slotOn s n = false ∨ 4 ≤ n → exec (.sensorPoll n) s = .next s) ∧
    (grdOn s = true → slotOn s n = true → n < 4 →
      (s.grd.bus = none → exec (.sensorPoll n) s = .next { s with grd := { s.grd with bus := some n } }) ∧
      (∀ b, s.grd.bus = some b → b ≠ n → ∃ t, exec (.sensorPoll n) s = .next t ∧ n ∈ t.grd.waiting ∧
        (∀ m, m ≠ n → (m ∈ t.grd.waiting ↔ m ∈ s.grd.waiting)) ∧ t = { s with grd := { s.grd with waiting := t.grd.waiting } }))) ∧
  (∀ (n : Nat) (d : Bytes) (s : State),
    (grdOn s = false ∨ slotOn s n = false ∨ s.grd.bus ≠ some n → exec (.sensorFrame n d) s = .next s) ∧
    (grdOn s = true → slotOn s n = true → s.grd.bus = some n →
      (bit (slotReg s n) 30 = true → crc8 (d.take 8) ≠ field d 8 1 →
        ∃ t, exec (.sensorFrame n d) s = .next t ∧ t.grd.crcErr = min (s.grd.crcErr + 1) 0xFFFF_FFFF ∧
          t.grd.bus = s.grd.waiting.head? ∧ t.grd.readings = s.grd.readings ∧ t.grd.stopped = s.grd.stopped ∧
          t = { s with grd := { s.grd with crcErr := t.grd.crcErr, bus := t.grd.bus, waiting := t.grd.waiting } }) ∧
      (bit (slotReg s n) 30 = false ∨ crc8 (d.take 8) = field d 8 1 →
        ∃ u v, exec (.sensorFrame n d) s = .next (freeBus v) ∧ (∀ i < 4, tget u.grd.readings 0 (4 * n + i) = field d (2 * i) 2) ∧
          (∀ j, j < 4 * n ∨ 4 * n + 4 ≤ j → tget u.grd.readings 0 j = tget s.grd.readings 0 j) ∧ n ∈ u.grd.heard ∧
          u = { s with grd := { s.grd with
            frames := min (s.grd.frames + 1) 0xFFFF_FFFF, readings := u.grd.readings, heard := u.grd.heard, stale := u.grd.stale } } ∧
          (∀ k < 4, bit v.grd.stopped k = (bit s.grd.stopped k || ((bit (netVote u) k && bit (ruleVote u) k) ||
            (bit (netVote u) k && bit s.grd.prevVote k) || (bit (ruleVote u) k && bit s.grd.prevVote k)))) ∧
          v.grd.prevVote = netVote u ||| ruleVote u ∧ v = { u with grd := v.grd, net := v.net, draws := v.draws }))) ∧
  (∀ (l : Nat) (s : State),
    (grdOn s = false → exec (.grdInActive l) s = .next { s with grd := { s.grd with levels := l % 256 } }) ∧
    (grdOn s = true → ∃ t, exec (.grdInActive l) s = .next t ∧ t.grd.levels = l % 256 ∧
      (∀ k < 4, bit t.grd.stopped k = (bit s.grd.stopped k || (List.range 8).any (fun i =>
        bit (live s (0x0022_0040 + 4 * i)) k && (bit (l % 256) i == bit (live s (0x0022_0040 + 4 * i)) 8)))) ∧
      t = { s with grd := t.grd, net := t.net, draws := t.draws })) ∧
  (∀ (n : Nat) (s : State),
    (grdOn s = false ∨ 4 ≤ n ∨ slotOn s n = false → exec (.grdStale n) s = .next s) ∧
    (grdOn s = true → n < 4 → slotOn s n = true → ∃ t, exec (.grdStale n) s = .next t ∧
      (∀ k < 4, bit t.grd.stopped k = (bit s.grd.stopped k || bit (live s (0x0022_008C + 0x10 * n)) k)) ∧
      (∀ k, bit t.grd.stale k = (bit s.grd.stale k || k == n)) ∧ t = { s with grd := t.grd, net := t.net, draws := t.draws }))) ∧
  (∀ s : State,
    (grdOn s = true → s.grd.fault = false → exec .heartbeatToggle s = .next { s with grd := { s.grd with hb := !s.grd.hb } }) ∧
    (grdOn s = false ∨ s.grd.fault = true → exec .heartbeatToggle s = .next s) ∧
    (∀ i ∈ [Instr.grdParityCheck false, .gclkGap],
      (s.pwr.mode ≠ .awake → exec i s = .next s) ∧
      (s.pwr.mode = .awake → ∃ t, exec i s = .next t ∧ t.grd.fault = true ∧ (∀ k < 4, bit t.grd.stopped k = true) ∧
        (∀ k < 4, bit s.grd.stopped k = false → (tget t.grd.causes {} k).fault = true) ∧
        t = { s with grd := t.grd, net := t.net, draws := t.draws })) ∧
    exec (.grdParityCheck true) s = .next s ∧
    (∀ l, l = false ∨ s.grd.dockHigh = true → exec (.dockNEdge l) s = .next { s with grd := { s.grd with dockHigh := l } }) ∧
    (s.grd.dockHigh = false → ∃ t, exec (.dockNEdge true) s = .next t ∧ t.grd.dockHigh = true ∧
      (s.pwr.mode = .deep → t.pwr.wake = true) ∧
      (∀ e, s.pwr.entry = some e → e.target = 3 → s.grd.deepOverride = false → t.pwr.entry = none) ∧
      (∀ e, s.pwr.entry = some e → e.target ≠ 3 ∨ s.grd.deepOverride = true → t.pwr.entry = some e) ∧
      (s.pwr.entry = none → s.pwr.mode ≠ .deep → t = { s with grd := { s.grd with dockHigh := true } })))

/-- R509, R512 to R514, R519 to R522, R525: the door, of a datagram that the switch gives to the device. A CMD from the
host is checked in this order: the checksum and the length of its header, without a reply; VERSION; LEN; its session;
duplicates, of which one in progress gets an interim reply, one whose final reply is held gets it again and one
acknowledged gets none; a stale SEQUENCE; OPCODE, LEN, interface, proof and room. Each failure is answered without
being remembered. One that passes takes a queue entry, its SEQUENCE is remembered, and a late one gets an interim
reply. LINK acknowledges. R514, R516, R525, R546: what the checks after the duplicate check refuse, in their order: an
unknown OPCODE, a payload that does not match it, an interface that does not accept it, a session that has not proved,
a full command queue, and a context with 32 entries. R507 to R509: the switch. It bridges the frames of ports 0 to 2
alone, each to ports 0 to 2 other than its own that are up and members of its VLAN, to its station's port when that
has been seen; nothing of port M is bridged and nothing is bridged to it. A frame that a port does not take, by its
length, its VLAN or a closed stream gate, does nothing at all. The device answers an ARP request, a neighbour
solicitation and an echo request for its own address, with its own tag, on the port that they came in on. -/
def Obligations.DoorChecksInOrder : Prop :=
  (∀ (d : Datagram) (h : Header) (p : Bytes) (rq : Req) (s m : State), m = bridge s d → readHeader d.bytes = h → d.bytes.drop 24 = p →
    rq = { iface := d.iface, sess := h.sess, src := d.src, sport := d.sport, port := d.port, seq := h.seq, ctx := h.ctx } →
    forDevice s d = true → d.kind = .udp →
    (hears m d = false → exec (.datagramReceive d) s = .next m) ∧
    (hears m d = true → (d.checksumOk = false ∨ d.bytes.length < 24 → exec (.datagramReceive d) s =
      .next { m with net := { m.net with rxDrop := min (m.net.rxDrop + 1) 0xFFFF_FFFF } })) ∧
    (hears m d = true → d.checksumOk = true → 24 ≤ d.bytes.length → h.cls = 0 → (d.iface = .host → peerOf m d.port d.src = none) →
      ∀ c, c = (if isScoped h.op p then h.ctx else 0) →
      (h.version ≠ 1 → exec (.datagramReceive d) s = .next (doorReply m rq h.op c .malformed .ethVersion)) ∧
      (h.version = 1 → (h.len ≠ p.length ∨ 8192 < h.len →
        exec (.datagramReceive d) s = .next (doorReply m rq h.op c .malformed .ethLength))) ∧
      (h.version = 1 → h.len = p.length → h.len ≤ 8192 →
        (h.sess = 0 → h.op ≠ 1 ∨ p = [] ∨ field p 0 1 ≠ 0 →
          exec (.datagramReceive d) s = .next (doorReply m rq h.op c .auth .ethSession)) ∧
        (h.sess ≠ 0 → tget? m.net.sessions h.sess = none →
          exec (.datagramReceive d) s = .next (doorReply m rq h.op c .auth .ethSession)) ∧
        (∀ x, h.sess ≠ 0 → tget? m.net.sessions h.sess = some x →
          (x.iface ≠ d.iface ∨ x.src ≠ d.src ∨ x.sport ≠ d.sport →
            exec (.datagramReceive d) s = .next (doorReply m rq h.op c .auth .ethSession)) ∧
          (x.iface = d.iface → x.src = d.src → x.sport = d.sport → x.peer = none → ∀ u, u = acknowledge m h.sess h.link →
            (h.seq ∈ x.remembered →
              (h.seq ∈ x.inProgress → exec (.datagramReceive d) s = .next (interim u rq h.op c)) ∧
              (h.seq ∉ x.inProgress → ∀ o, heldReply u h.sess h.seq = some o →
                exec (.datagramReceive d) s = .next (sendPkt u o.pkt)) ∧
              (h.seq ∉ x.inProgress → heldReply u h.sess h.seq = none → exec (.datagramReceive d) s = .next u)) ∧
            (h.seq ∉ x.remembered → ∀ b, b = (x.highest.getD h.seq + 2 ^ 32 - h.seq) % 2 ^ 32 →
              (1 ≤ b → b ≤ 2 ^ 31 → exec (.datagramReceive d) s = .next (doorReply u rq h.op c .malformed .ethStaleSeq)) ∧
              (b = 0 ∨ 2 ^ 31 < b →
                (∀ st r, doorChecks u (some x) h rq p = some (st, r) →
                  exec (.datagramReceive d) s = .next (doorReply u rq h.op c st r)) ∧
                (doorChecks u (some x) h rq p = none → ∃ t, exec (.datagramReceive d) s = .next t ∧
                  t.net.queue = u.net.queue ++ [{ req := rq, op := h.op, payload := p, bad := h.bad }] ∧
                  (∀ y, tget? u.net.sessions h.sess = some y →
                    tget? t.net.sessions h.sess = some { y with
                      remembered := (h.seq :: y.remembered).take 1024, highest := some h.seq, inProgress := h.seq :: y.inProgress }) ∧
                  (d.late = true → t.net.sent.head? =
                    some
                      { sess := rq.sess, cls := .rsp, op := h.op, seq := rq.seq, ctx := c, interim := true,
                        wire := some (wireTo m rq.iface rq.port rq.src rq.sport) }) ∧
                  (d.late = false → (isScoped h.op p = true → rq.ctx ∉ m.pwr.restoring) → t.net.sent = u.net.sent) ∧
                  t = { u with net := t.net, rel := t.rel }))))) ∧
        (h.sess = 0 → h.op = 1 → 1 ≤ p.length → field p 0 1 = 0 → m.net.sessions = [] → m.net.queue = [] →
          doorChecks m none h rq p = none → ∃ t, exec (.datagramReceive d) s = .next t ∧
            t.net.queue = [{ req := rq, op := 1, payload := p, bad := h.bad }])))) ∧
  (∀ (e : Option Session) (h : Header) (rq : Req) (p : Bytes) (s : State),
    (h.op ∉ knownOps → doorChecks s e h rq p = some (.malformed, .ethOpcode)) ∧
    (h.op ∈ knownOps → lengthOk h.op p = false → doorChecks s e h rq p = some (.malformed, .ethLength)) ∧
    (h.op ∈ knownOps → lengthOk h.op p = true → ∀ set, set = e.any (fun x => x.peer.isSome) →
      (acceptedOn rq.iface set h.op p = false → doorChecks s e h rq p = some (.refused, .ethPort)) ∧
      (acceptedOn rq.iface set h.op p = true →
        (∀ x, e = some x → authOk s x h.op = false → doorChecks s e h rq p = some (.auth, .ethAuth)) ∧
        ((∀ x, e = some x → authOk s x h.op = true) → ∀ n, n = (match rq.iface with | .host => 224 | .mgmt => 32) →
          (n ≤ (s.net.queue.filter (fun q => decide (q.req.iface = rq.iface))).length →
            doorChecks s e h rq p = some (.busy, .ethQueueFull)) ∧
          ((s.net.queue.filter (fun q => decide (q.req.iface = rq.iface))).length < n →
            (isScoped h.op p = true → 32 ≤ contextHeld s rq.ctx → doorChecks s e h rq p = some (.busy, .ethCtxLimit)) ∧
            (isScoped h.op p = false ∨ contextHeld s rq.ctx < 32 → doorChecks s e h rq p = none)))))) ∧
  (∀ (d : Datagram) (s : State),
    (switchOn s = false ∨ frameTaken s d = false → exec (.datagramReceive d) s = .next s) ∧
    (d.port = 3 → bridge s d = s) ∧
    (switchOn s = true → frameTaken s d = true → d.port ≠ 3 →
      ∃ l : List Nat, (bridge s d).net.frames = l.map (fun p => (p, d)) ++ s.net.frames ∧
        (∀ p, p ∈ l ↔ p < 3 ∧ p ≠ d.port ∧ (tget s.net.ports {} p).link = true ∧ bit (tget s.net.vlans 7 (frameVid d)) p = true ∧
          d.dmac ≠ .own ∧
          (∀ a q, d.dmac = .station a → tget? s.net.stations (frameVid d * 2 ^ 48 + a) = some q → p = q)) ∧
        tget? (bridge s d).net.stations (frameVid d * 2 ^ 48 + d.smac) = some d.port ∧
        bridge s d = { s with net := { s.net with stations := (bridge s d).net.stations, frames := (bridge s d).net.frames } }) ∧
    (forDevice s d = false → exec (.datagramReceive d) s = .next (bridge s d)) ∧
    (forDevice s d = true → d.kind ≠ .udp → exec (.datagramReceive d) s = .next (answerFrame (bridge s d) d)) ∧
    (∀ k, (d.kind = .arpRequest ∧ k = .arpReply) ∨ (d.kind = .neighbourSolicit ∧ k = .neighbourAdvert) ∨
        (d.kind = .echoRequest ∧ k = .echoReply) →
      ownAddr s d.iface d.dst = some d.dst → d.tag.map Prod.snd = (ownTag s d.iface).map Prod.snd →
      ∀ r : Datagram, r = { d with kind := k, src := d.dst, dst := d.src, dmac := .station d.smac, smac := 0, tag := ownTag s d.iface } →
      answerFrame s d = { s with net := { s.net with frames := (d.port, r) :: s.net.frames } }) ∧
    (ownAddr s d.iface d.dst ≠ some d.dst ∨ d.kind = .udp ∨ d.kind = .other → answerFrame s d = s))

/-- R513, R523, R526, R532, R546, R579, R622, R667, R693: dispatch takes the first command that is not held back, refuses
it where a reserved field is not zero, an entry to DEEP or OFF is in progress, the device is in the error state or
DDR4 is not in service, and otherwise dispatches the command its packet spells. An expired outbound entry is sent
again with its interval doubled up to 256 ms, an acknowledgement frees every entry up to its value, a port's link, at
a rate of its interface and with MACsec where MKA agrees on a CAK that is held, is kept and reported, and discarded
events are reported once there is room. -/
def Obligations.DispatchAndOutbound : Prop :=
  (∀ s : State, storeFull s = true ∨ s.net.queue = [] → exec .commandDispatch s = .next s) ∧
  (∀ (e : QEntry) (q : List QEntry) (u s : State), storeFull s = false → s.net.queue = e :: q → heldBack s e = false →
    Live e.req s → e.req.sess ≠ 0 → u = { s with net := { s.net with queue := q } } →
    ∀ c, c = (if isScoped e.op e.payload then e.req.ctx else 0) →
    (e.bad = true ∨ (reservedFields e.op e.payload).any (fun r => field e.payload r.1 r.2 != 0) = true ∨ modeOk e.op e.payload = false →
      Answered .commandDispatch s e.req e.op c .malformed .ethParam [] u) ∧
    (e.bad = false → (reservedFields e.op e.payload).any (fun r => field e.payload r.1 r.2 != 0) = false →
      modeOk e.op e.payload = true → e.op = 0x01D0 ∨ e.op = 0x01D1 → field e.payload 1 3 ≠ 0 →
      Answered .commandDispatch s e.req e.op c .refused .relCoreParam [] u) ∧
    (e.bad = false → (reservedFields e.op e.payload).any (fun r => field e.payload r.1 r.2 != 0) = false →
      modeOk e.op e.payload = true → e.op ≠ 0x01C1 → (e.op = 0x01D0 ∨ e.op = 0x01D1 → field e.payload 1 3 = 0) →
      (s.pwr.entry ≠ none → e.op ∉ [0x0001, 0x0191] → Answered .commandDispatch s e.req e.op c .busy .pwrEntering [] u) ∧
      (s.pwr.entry = none → s.rst.recovery = false → s.sec.error = true → e.op ∉ [0x0001, 0x0002, 0x0191] →
        Answered .commandDispatch s e.req e.op c .fault .secSelftest [] u) ∧
      (s.pwr.entry = none → s.rst.recovery = false → s.sec.error = false → s.ddr.inService = false → runsWithoutDdr e.op e.payload = false →
        Answered .commandDispatch s e.req e.op c .fault .ddrNotReady [] u) ∧
      (s.pwr.entry = none → s.rst.recovery = false → s.sec.error = false →
        s.ddr.inService = true ∨ runsWithoutDdr e.op e.payload = true → ∀ i, readCommand u e = some i →
        exec .commandDispatch s = .next { s with
          net := { s.net with queue := q, dispatched := s.net.dispatched ++ [i] }, draws := s.draws + 2 }))) ∧
  (∀ (sid n : Nat) (e : OutEntry) (s : State), s.net.outbound.find? (fun o => o.pkt.sess == sid && o.pkt.link == n) = some e →
    ∃ t f, exec (.outboundRetransmit sid n) s = .next t ∧
      t.net.sent = { e.pkt with wire := e.pkt.wire.orElse (fun _ => wireOf s sid) } :: s.net.sent ∧
      t.net.outbound.find? (fun o => o.pkt.sess == sid && o.pkt.link == n) = some f ∧ f.pkt = e.pkt ∧
      f.interval = min (2 * e.interval) 256 ∧ t = { s with net := { s.net with sent := t.net.sent, outbound := t.net.outbound } }) ∧
  (∀ (sid link : Nat) (e : OutEntry) (s : State), e ∈ (acknowledge s sid link).net.outbound ↔
    e ∈ s.net.outbound ∧ (e.pkt.sess ≠ sid ∨ 2 ^ 31 ≤ (link + 2 ^ 32 - e.pkt.link) % 2 ^ 32)) ∧
  (∀ s : State, (s.net.lostSince = 0 ∨ 1024 ≤ eventEntries s ∨ storeFull s = true → exec .eventsLostReport s = .next s) ∧
    (s.net.lostSince ≠ 0 → EventRoom s → Reports .eventsLostReport s none .ok .ethEventsLost (leBytes 4 s.net.lostSince)
      { s with net := { s.net with lostSince := 0 } })) ∧
  (∀ (p v : Nat) (mka : Bool) (s : State), EventRoom s →
    (v ∉ (portPhy p).rates → exec (.ethLinkUp p ⟨v, mka⟩) s = .next s) ∧
    (v ∈ (portPhy p).rates → Reports (.ethLinkUp p ⟨v, mka⟩) s none .ok .ethLinkUp (leBytes 1 p ++ leBytes 1 v)
      { s with net := { s.net with
        ports := tset s.net.ports p { link := true, speed := v, macsec := mka && s.sec.caks.any (fun e => e.1 / 4 == p) } } }) ∧
    Reports (.ethLinkDown p) s none .ok .ethLinkDown (leBytes 1 p)
      { s with net := { s.net with ports := tset s.net.ports p { tget s.net.ports {} p with link := false, speed := 0, macsec := false } } })

/-- R578, R579, R582, R583, R595, R597, R599, R606: training that every populated channel passes puts DDR4 into service,
frames from 0 and the pool reported; otherwise no channel enters service and DDR_TRAIN_FAIL is reported. A maintenance
frame is the next of the refresh mode and leaves no row open; a refresh window starts with every count at 0 and no
port throttled. An activation that brings a count above 4,096 throttles its port, and the first throttle of a port in
a channel within a window is reported. R579, R587 to R590, R600, R602, R680, R681: a request that DDR4 is not in
service for fails with DDR_NOT_READY; any other joins its channel, and takes a queue entry at once where nothing is
before it. A write stores its lines, which no longer count as bad; a read of a line known to be bad delivers no data
and fails with DDR_UNCORRECTABLE; a clean read delivers the stored lines. The scrub goes on to the next unit, and
after the last one counts a pass and starts over. -/
def Obligations.Ddr4Works : Prop :=
  ((∀ (f step : Nat) (s : State), s.rst.booting = false →
    (s.ddr.training = false → exec (.ddrTrainingComplete f step) s = .next s) ∧
    (s.ddr.training = true → (∀ n ∈ populated s, bit f n = false) → ∃ t, exec (.ddrTrainingComplete f step) s = .next t ∧
      t.ddr.inService = true ∧ t.ddr.training = false ∧ t.ddr.frame = 0 ∧ t.ddr.poolMib = poolOf s ∧ t.ddr.failed = 0 ∧
      (∀ n ∈ populated s, (chanAt t n).trained = true ∧ (chanAt t n).scrub = 0 ∧ bit t.ddr.done n = true) ∧
      t.regs = s.regs ∧ t.t3 = s.t3 ∧ t.net = s.net) ∧
    (s.ddr.training = true → (∃ n ∈ populated s, bit f n = true ∧ (chanAt s n).trained = false) → EventRoom s →
      ∃ u m, Reports (.ddrTrainingComplete f step) s none .ok .ddrTrainFail
          (leBytes 1 m ++ leBytes 1 (if s.ddr.verifying then 8 else step)) u ∧
        (∀ k, bit m k = true ↔ k ∈ populated s ∧ bit f k = true ∧ (chanAt s k).trained = false) ∧ u.ddr.inService = false ∧ u.ddr.poolMib = 0 ∧ u.ddr.failed = m ∧
        u.ddr.step = (if s.ddr.verifying then 8 else step) ∧ u.ddr.training = s.ddr.verifying)) ∧
  (∀ s : State, (∀ i ∈ [Instr.ddrMaintenanceFrame, .refreshWindowStart], s.ddr.inService = false → exec i s = .next s) ∧
    (s.ddr.inService = true → ∀ m, m = (if bit (ddrCfg s) 13 then 6 else 12) → ∃ t, exec .ddrMaintenanceFrame s = .next t ∧
      t.ddr.frame % m = m - 1 ∧ s.ddr.frame < t.ddr.frame ∧ t.ddr.frame ≤ s.ddr.frame + m ∧ (∀ e ∈ t.ddr.chans, e.2.openRow = []) ∧
      t.ddr.chans.map Prod.fst = s.ddr.chans.map Prod.fst ∧ t = { s with ddr := { s.ddr with frame := t.ddr.frame, chans := t.ddr.chans } }) ∧
    (s.ddr.inService = true → ∃ t, exec .refreshWindowStart s = .next t ∧
      (∀ e ∈ t.ddr.chans, e.2.acts = [] ∧ e.2.throttled = [] ∧ e.2.reported = []) ∧
      (∀ n, (chanAt t n).reqs = (chanAt s n).reqs ∧ (chanAt t n).openRow = (chanAt s n).openRow ∧ (chanAt t n).delayed = (chanAt s n).delayed) ∧
      t = { s with ddr := { s.ddr with chans := t.ddr.chans } })) ∧
  (∀ (n port line key k : Nat) (c : DdrChan) (s : State), EventRoom s → chanAt s n = c →
    key = rankBank s line * 2 ^ 18 + rowGroup s line → k = tget c.acts 0 key + 1 →
    (k ≤ 4096 ∨ (port, key) ∈ c.throttled → countActivation s n port line = setChan s n { c with acts := tset c.acts key k }) ∧
    (4096 < k → (port, key) ∉ c.throttled →
      ∃ u, (chanAt u n).throttled = (port, key) :: c.throttled ∧ tget (chanAt u n).acts 0 key = k ∧ port ∈ (chanAt u n).reported ∧
        (port ∈ c.reported → countActivation s n port line = u) ∧
        (port ∉ c.reported → Reported none .ok .ddrRowThrottle (leBytes 1 n ++ leBytes 1 port ++ leBytes 1 (rankBank s line / 16) ++
          leBytes 1 (rankBank s line % 16) ++ leBytes 2 (rowGroup s line)) u (countActivation s n port line))))) ∧
  ((∀ (r : DdrReq) (c : DdrChan) (s : State), reqOk s r = true → chanAt s r.channel = c →
    (s.ddr.inService = false → exec (.ddrRequestPresent r) s = .next { s with ddr := { s.ddr with
      resps := { port := r.port, id := r.id, status := .fault, reason := .ddrNotReady, data := [] } :: s.ddr.resps } }) ∧
    (s.ddr.inService = true → ∃ t, exec (.ddrRequestPresent r) s = .next t ∧
      (chanAt t r.channel).reqs.map DdrPend.req = c.reqs.map DdrPend.req ++ [r] ∧ t.ddr.resps = s.ddr.resps ∧
      (∀ n, n ≠ r.channel → chanAt t n = chanAt s n) ∧
      (c.reqs = [] → 0 < partyEntries s (partyOf s r.ctx) → (chanAt t r.channel).reqs.all (fun e => e.queued.isSome) = true) ∧
      t = { s with ddr := { s.ddr with chans := t.ddr.chans, nextNum := t.ddr.nextNum }, draws := t.draws })) ∧
  (∀ (r : DdrReq) (s : State), reqOk s r = false → exec (.ddrRequestPresent r) s = .next s) ∧
  (∀ (ch id : Nat) (ecc : Ecc) (c : DdrChan) (s : State), chanAt s ch = c →
    (c.reqs.all (fun e => e.req.id != id || !servable s c e) = true → exec (.ddrRequestComplete ch id ecc) s = .next s) ∧
    (∀ e r s1, c.reqs.find? (fun e => e.req.id == id && servable s c e) = some e → r = serveReq s ch e.req ecc →
      s1 = setChan r.1 ch { (chanAt r.1 ch) with
        reqs := (chanAt r.1 ch).reqs.map (fun x => if x.num = e.num then { x with result := some r.2 } else x) } →
      ∃ n s2 s3, s2.ddr = s1.ddr ∧ s2.t3 = s1.t3 ∧ s3 = deliverResps e.req.port ((s2.ddr.chans.map (fun k => k.2.reqs.length)).sum) s2 ∧
        exec (.ddrRequestComplete ch id ecc) s = .next (takeIn ch n s3))) ∧
  (∀ (n : Nat) (q : DdrReq) (ecc : Ecc) (s : State), q.line % 4 + q.lines ≤ 4 → 1 ≤ q.lines →
    (q.write = true → q.data.length = 64 * q.lines → ∃ u, serveReq s n q ecc = (u, .ok, .none, []) ∧
      (∀ i < q.lines, tget? u.ddr.raw (q.line + i) = some (slice q.data (64 * i) 64)) ∧
      (∀ l, l < q.line ∨ q.line + q.lines ≤ l → tget? u.ddr.raw l = tget? s.ddr.raw l) ∧
      (∀ l, l ∈ u.t3.bad ↔ l ∈ s.t3.bad ∧ (l < q.line ∨ q.line + q.lines ≤ l)) ∧ u.t3.mem = s.t3.mem) ∧
    (q.write = false → bit (ddrCfg s) 14 = true → (∃ i < q.lines, (q.line + i) ∈ s.t3.bad) →
      ∃ u, serveReq s n q ecc = (u, .fault, .ddrUncorrectable, []) ∧ (∀ l, l ∈ u.t3.bad ↔ l ∈ s.t3.bad) ∧
        (chanAt u n).ue = min ((chanAt s n).ue + 1) 0xFFFF_FFFF) ∧
    (q.write = false → (∀ i < q.lines, (q.line + i) ∉ s.t3.bad) → ecc = .clean → (∀ i < q.lines, (tget? s.ddr.raw (q.line + i)).isSome) →
      ∃ u, serveReq s n q ecc = (u, .ok, .none, (List.range q.lines).flatMap (fun i => (tget? s.ddr.raw (q.line + i)).getD [])) ∧
        u.t3 = s.t3 ∧ u.ddr.raw = s.ddr.raw)) ∧
  (∀ (ch : Nat) (ecc : Ecc) (s : State),
    (s.ddr.inService = false ∨ bit (live s 0x0027_0060) 31 = false ∨ ch ∉ populated s → exec (.patrolScrubRead ch ecc) s = .next s) ∧
    (s.ddr.inService = true → bit (live s 0x0027_0060) 31 = true → ch ∈ populated s → ∃ t, exec (.patrolScrubRead ch ecc) s = .next t ∧
      ((chanAt s ch).scrub + 1 < scrubUnits s → (chanAt t ch).scrub = (chanAt s ch).scrub + 1 ∧ t.rel.passes = s.rel.passes) ∧
      (scrubUnits s ≤ (chanAt s ch).scrub + 1 → (chanAt t ch).scrub = 0 ∧ t.rel.passes = min (s.rel.passes + 1) 0xFFFF_FFFF) ∧
      (∀ l ∈ s.t3.bad, l ∈ t.t3.bad) ∧ t.ddr.raw = s.ddr.raw ∧ t.t3.mem = s.t3.mem)))

/-- R637, R649, R666, R667, R673, R677, R694: a tamper trigger clears every key, aborts an entry in progress and enters
the error state; under reset it clears the keys alone, and in OFF nothing. A periodic self-test that fails enters the
error state, one that passes does not, and one that falls in an entry or in DEEP is deferred. The management watchdog,
with no set session to end, ends every session and leaves memory, Guardrail and the registers; in a trial it reverts;
a trial reverts too when no CONFIRM comes in time. The error state is reported once. R543, R661, R664, R667: ATTEST. A
LEN beyond the session's payload is MALFORMED, and one in the error state fails with SEC_SELFTEST; one with the held
report's own NONCE reads it on; any other forms the report of its context, holds it, and reads it. -/
def Obligations.ZeroisationAndAttestation : Prop :=
  (∀ s : State,
    (tlaogRuns s = false → (∀ p, exec (.periodicSelfTest p) s = .next s) ∧ (s.pwr.mode = .off → exec .secTamper s = .next s) ∧
      (s.pwr.mode ≠ .off → exec .secTamper s = .next { s with sec := { s.sec with
        keys := [], fwKeyHeld := false, drbgHeld := false, caks := [], cakBuf := [], storageHeld := false } })) ∧
    (tlaogRuns s = true →
      (∃ t, exec .secTamper s = .next t ∧ t.sec.keys = [] ∧ t.sec.caks = [] ∧ t.sec.fwKeyHeld = false ∧ t.sec.drbgHeld = false ∧
        t.sec.storageHeld = false ∧ t.sec.error = true ∧ t.pwr.entry = none ∧ t.grd = s.grd ∧ t.ctxs = s.ctxs ∧ t.regs = s.regs) ∧
      (s.pwr.entry ≠ none ∨ s.pwr.mode ≠ .awake → ∀ p, exec (.periodicSelfTest p) s = .next { s with sec := { s.sec with deferred := true } }) ∧
      (s.pwr.entry = none → s.pwr.mode = .awake →
        exec (.periodicSelfTest true) s = .next { s with sec := { s.sec with deferred := false } } ∧
        (s.sec.error = true → exec (.periodicSelfTest false) s = .next { s with sec := { s.sec with deferred := false } }) ∧
        (s.sec.error = false → EventRoom s → ∃ u t, Reported none .ok .secError []
            { s with sec := { s.sec with deferred := false, error := true } } u ∧ exec (.periodicSelfTest false) s = .next t ∧
          t = { u with rel := { u.rel with unavailable := t.rel.unavailable } } ∧ 2 ∈ t.rel.unavailable))) ∧
    ((s.rst.up = false ∧ s.rst.booting = false) ∨ s.pwr.mode ≠ .awake → exec .mgmtWatchdogExpire s = .next s) ∧
    (s.rst.up = true ∨ s.rst.booting = true → s.pwr.mode = .awake → s.rel.trial = true → exec .mgmtWatchdogExpire s = .next (revert s)) ∧
    (s.rst.up = true ∨ s.rst.booting = true → s.pwr.mode = .awake → s.rel.trial = false → s.set.peers = [] → ∃ t, exec .mgmtWatchdogExpire s = .next t ∧
      t.net.sessions = [] ∧ t.t3 = s.t3 ∧ t.decks = s.decks ∧ t.grd = s.grd ∧ t.regs = s.regs) ∧
    (s.rel.trial = true → s.rst.up = true → exec .trialTimeout s = .next (revert s)) ∧
    (s.rel.trial = false ∨ s.rst.up = false → exec .trialTimeout s = .next s)) ∧
  (∀ (rq : Req) (nonce : Bytes) (off len : Nat) (e : Session) (s : State), tget? s.net.sessions rq.sess = some e →
    (e.maxPayload < len + 8 → Answered (.attest rq nonce off len) s rq 0x01A0 rq.ctx .malformed .ethLength [] s) ∧
    (len + 8 ≤ e.maxPayload → s.sec.error = true → Answered (.attest rq nonce off len) s rq 0x01A0 rq.ctx .fault .secSelftest [] s) ∧
    (len + 8 ≤ e.maxPayload → s.sec.error = false →
      (liveCtx s rq.ctx = none → Answered (.attest rq nonce off len) s rq 0x01A0 rq.ctx .noContext .ctxUnknown [] s) ∧
      (∀ x, liveCtx s rq.ctx = some x →
        (∀ r, x.report = some (nonce, r) → Answered (.attest rq nonce off len) s rq 0x01A0 rq.ctx .ok .none
          (leBytes 4 r.length ++ leBytes 4 (slice r off len).length ++ slice r off len) s) ∧
        ((∀ r, x.report ≠ some (nonce, r)) → crossedMembers s rq.ctx = [] ∨ setRole s ≠ 1 → ∀ r, r = attestReport s rq.ctx x nonce →
          Answered (.attest rq nonce off len) s rq 0x01A0 rq.ctx .ok .none
            (leBytes 4 r.length ++ leBytes 4 (slice r off len).length ++ slice r off len)
            (modCtx s rq.ctx (fun y => { y with report := some (nonce, r) }))))))

/-- R675, R691, R693: firmware. A chunk that does not continue its staging is MALFORMED with FW_SEQUENCE and a staging
during a trial is refused with FW_MODE; a chunk that continues it is kept, and a staging in an armed slot disarms it;
the last one is verified and written or refused. ARM needs something staged, CONFIRM a trial and DISARM an armed slot,
and each is otherwise refused with FW_MODE. CONFIRM makes the booted slot active and ends the trial. R696 to R698,
R700 to R702: the Odometer. An hour unit advances HOURS in every state except OFF; a sample adds one to its record and
to the bin that holds its value; the content is persisted once in 64 units. ODOMETER_READ with CURSOR 0 takes a
snapshot of 2,944 bytes and goes on from it; COUNTERS_READ answers a monitor's block of 192 bytes, and CLEAR resets
the monitor. -/
def Obligations.FirmwareAndOdometer : Prop :=
  (∀ (rq : Req) (s : State), Live rq s →
    (∀ (tg tot off : Nat) (d : Bytes),
      (s.rel.trial = true → Answered (.fwStage rq tg tot off d) s rq 0x01C0 0 .refused .fwMode [] s) ∧
      (s.rel.trial = false → tg = 0 ∨ 5 < tg ∨ tot < off + d.length ∨ (off ≠ 0 ∧ s.rel.stage = none) ∨
          (∃ g, off ≠ 0 ∧ s.rel.stage = some g ∧ (g.target ≠ tg ∨ g.total ≠ tot ∨ g.bytes.length ≠ off)) →
        Answered (.fwStage rq tg tot off d) s rq 0x01C0 0 .malformed .fwSequence [] s) ∧
      (s.rel.trial = false → 1 ≤ tg → tg ≤ 5 → off + d.length ≤ tot → ∀ b,
        (off = 0 ∧ b = []) ∨ (off ≠ 0 ∧ ∃ g, s.rel.stage = some g ∧ g.target = tg ∧ g.total = tot ∧ g.bytes.length = off ∧ b = g.bytes) →
        (off + d.length < tot → Answered (.fwStage rq tg tot off d) s rq 0x01C0 0 .ok .none []
          { s with rel := { s.rel with armed := false, stage := some { target := tg, total := tot, bytes := b ++ d } } }) ∧
        (off + d.length = tot →
          (∀ st r, fwFault s (b ++ d) tg = some (st, r) → Answered (.fwStage rq tg tot off d) s rq 0x01C0 0 st r []
            { s with rel := { s.rel with armed := false, stage := none } }) ∧
          (fwFault s (b ++ d) tg = none → ∃ u, Answered (.fwStage rq tg tot off d) s rq 0x01C0 0 .ok .none (fwDigest (b ++ d)) u ∧
            tget? u.rel.images (8 * (1 - s.rst.bootSlot) + tg) = some (b ++ d) ∧ tg ∈ u.rel.staged ∧
            (∀ k, k ≠ 8 * (1 - s.rst.bootSlot) + tg → tget? u.rel.images k = tget? s.rel.images k) ∧
            u = { s with rel := { s.rel with armed := false, stage := none, images := u.rel.images, staged := u.rel.staged } })))) ∧
    (∀ tg cores, (tg ≠ 0 ∨ cores ≠ 0 ∨ s.rel.staged = [] ∨ s.rel.trial = true →
        Answered (.fwActivateArm rq tg cores) s rq 0x01C1 0 .refused .fwMode [] s) ∧
      (tg = 0 → cores = 0 → s.rel.staged ≠ [] → s.rel.trial = false →
        ∃ u, Answered (.fwActivateArm rq tg cores) s rq 0x01C1 0 .ok .none [] u ∧ u.rel.armed = true ∧
          (∀ ty, 1 ≤ ty → ty ≤ 5 → s.rst.bootSlot ≤ 1 → tget? u.rel.images (8 * (1 - s.rst.bootSlot) + ty) =
            if ty ∈ s.rel.staged then tget? s.rel.images (8 * (1 - s.rst.bootSlot) + ty)
            else tget? s.rel.images (8 * s.rst.bootSlot + ty)) ∧
          u = { s with rel := { s.rel with armed := true, images := u.rel.images } })) ∧
    (∀ tg, (tg ≠ 0 ∨ s.rel.trial = false → Answered (.fwActivateConfirm rq tg) s rq 0x01C1 0 .refused .fwMode [] s) ∧
      (tg = 0 → s.rel.trial = true → ∃ t, exec (.fwActivateConfirm rq tg) s = .next t ∧ t.rel.trial = false ∧ t.rel.staged = [] ∧
        t.rst.activeSlot = s.rst.bootSlot ∧ s.sec.minSvn ≤ t.sec.minSvn ∧
        (∀ ty b, 1 ≤ ty → ty ≤ 5 → tget? s.rel.images (8 * s.rst.bootSlot + ty) = some b → fwSvn b ≤ t.sec.minSvn) ∧
        t.rel.images = s.rel.images) ∧
      (tg ≠ 0 ∨ s.rel.armed = false → Answered (.fwActivateDisarm rq tg) s rq 0x01C1 0 .refused .fwMode [] s) ∧
      (tg = 0 → s.rel.armed = true →
        Answered (.fwActivateDisarm rq tg) s rq 0x01C1 0 .ok .none [] { s with rel := { s.rel with armed := false } }))) ∧
  ((∀ s : State, (s.pwr.mode = .off → exec .hourUnitTick s = .next s) ∧
    (s.pwr.mode ≠ .off → ∃ t, exec .hourUnitTick s = .next t ∧ t.rel.odo.hours = min (s.rel.odo.hours + 1) 0xFFFF_FFFF ∧
      t.sec.reported = [] ∧ (t.rel.odo.hours % 64 ≠ 0 → t.rel.odo.recs = s.rel.odo.recs) ∧ t = { s with rel := t.rel, sec := t.sec }) ∧
    (s.pwr.mode = .awake → s.rel.odo.persistHours / 64 < s.rel.odo.hours / 64 → ∃ t, exec .odometerPersist s = .next t ∧
      t.rel.odo = { s.rel.odo with persistHours := s.rel.odo.hours } ∧ t.rel.copies.head? = some t.rel.odo ∧ t.rel.copies.length ≤ 2 ∧
      t = { s with rel := { s.rel with odo := t.rel.odo, copies := t.rel.copies } }) ∧
    (s.pwr.mode ≠ .awake ∨ s.rel.odo.hours / 64 ≤ s.rel.odo.persistHours / 64 → exec .odometerPersist s = .next s)) ∧
  (∀ (id i v : Nat) (s : State), v < 2 ^ 31 →
    (8 < id ∨ s.pwr.mode ≠ .awake ∨ s.rst.up = false → exec (.odometerSample id v) s = .next s) ∧
    (id ≤ 8 → s.pwr.mode = .awake → s.rst.up = true → ∀ h b, h = tget s.rel.odo.recs {} id → b = (if id = 0 then -400 else -800 : Int) →
      i < 32 → (i = 0 ∨ b + 50 * (i : Int) ≤ v) → (i = 31 ∨ (v : Int) < b + 50 * ((i : Int) + 1)) →
      ∃ t k, exec (.odometerSample id v) s = .next t ∧ tget? t.rel.odo.recs id = some k ∧ k.samples = h.samples + 1 ∧
        tget k.bins 0 i = min (tget h.bins 0 i + 1) 0xFFFF_FFFF ∧ (∀ j, j ≠ i → tget k.bins 0 j = tget h.bins 0 j) ∧
        (h.samples ≠ 0 → k.max = max h.max v ∧ k.min = min h.min v) ∧
        (∀ j, j ≠ id → tget? t.rel.odo.recs j = tget? s.rel.odo.recs j))) ∧
  (∀ (k v : Nat), 1 ≤ k → k ≤ 30 → 2 ^ (k - 1) ≤ v → v < 2 ^ k → binOf none v = k) ∧
  (∀ (rq : Req) (cur len : Nat) (e : Session) (s : State), tget? s.net.sessions rq.sess = some e →
    (e.maxPayload < len + 8 → Answered (.odometerRead rq cur len) s rq 0x01B0 0 .malformed .ethLength [] s) ∧
    (len + 8 ≤ e.maxPayload → 2944 ≤ cur ∨ (cur ≠ 0 ∧ e.snapshot = []) →
      Answered (.odometerRead rq cur len) s rq 0x01B0 0 .malformed .odoCursor [] s) ∧
    (len + 8 ≤ e.maxPayload → cur < 2944 → ∀ b, (cur = 0 ∧ b = odoStream s.rel.odo) ∨ (cur ≠ 0 ∧ e.snapshot ≠ [] ∧ b = e.snapshot) →
      Answered (.odometerRead rq cur len) s rq 0x01B0 0 .ok .none
        (leBytes 4 (if cur + (slice b cur len).length < 2944 then cur + (slice b cur len).length else 0) ++
          leBytes 4 (slice b cur len).length ++ slice b cur len)
        { s with net := { s.net with sessions := tset s.net.sessions rq.sess { e with snapshot := b } } })) ∧
  (∀ o : Odo, (odoStream o).length = 2944) ∧
  (∀ (rq : Req) (sel cls i : Nat) (s : State), Live rq s → sel < 2 ^ 32 → cls = bits sel 31 28 → i = sel % 256 →
    (bits sel 26 8 ≠ 0 ∨ monCount cls ≤ i → Answered (.countersRead rq sel) s rq 0x01B1 0 .malformed .cntSelect [] s) ∧
    (bits sel 26 8 = 0 → i < monCount cls → (monBlock s sel cls i).length = 192 ∧
      (bit sel 27 = false → Answered (.countersRead rq sel) s rq 0x01B1 0 .ok .none (monBlock s sel cls i) s) ∧
      (bit sel 27 = true → Answered (.countersRead rq sel) s rq 0x01B1 0 .ok .none (monBlock s sel cls i)
        { s with rel := { s.rel with monitors := tset s.rel.monitors (256 * cls + i) ({}, s.rel.odo.hours) } }))))

/-- R682 to R690: fencing and repair. CORE_FENCE of a core in service fences it: no window of its table stays open, its
Deck's content is lost, and the other cores' memories keep theirs; the stream commands that waited for its chunks go
on; one already fenced is answered at once. The device fences on its own only where AUTO_FENCE is set, for the UE
limit only where the errors of 24 hours reach it. CORE_REPAIR needs a fenced core, an unused Relief core and no other
repair in progress, during which a fence of the core is BUSY; one that succeeds maps the core to the Relief core,
takes the fence away, empties its Deck, and marks every image with a stage there for a reload; one whose Relief core
fails leaves it fenced. R678, R679: a read of a Deck or the Span. Words that ECC corrects add to the memory's CE
count, and no read data depends on them. The first word that it cannot correct adds to the UE count, stands in
RELIABILITY_UE_ADDR as space and row, and is reported with REL_ECC_UE; the read delivers nothing and fails with
REL_DECK_UE, or REL_SPAN_UE for the Span. -/
def Obligations.FencingAndRepair : Prop :=
  (∀ (rq : Req) (n : Nat) (s : State), Live rq s →
    (8 ≤ n → Answered (.coreFence rq n) s rq 0x01D0 0 .refused .relCoreParam [] s ∧
      (∀ b, Answered (.coreRepair rq n b) s rq 0x01D1 0 .refused .relCoreParam [] s) ∧ ∀ c, exec (.autoFence n c) s = .next s) ∧
    (n < 8 → repairingCore s n = true → Answered (.coreFence rq n) s rq 0x01D0 0 .busy .relBusy [] s) ∧
    (n < 8 → repairingCore s n = false → n ∈ s.fenced → Answered (.coreFence rq n) s rq 0x01D0 0 .ok .none [] s) ∧
    (n < 8 → n ∈ s.fenced → ∀ c, exec (.autoFence n c) s = .next s) ∧
    (n < 8 → repairingCore s n = false → n ∉ s.fenced → ∃ u v, v = freeStreams u (coreOf s (physOf s n)).chunks ∧ exec (.coreFence rq n) s =
        .next (interim (releaseWork (settleAll ((jobsOn v n).foldl (fun a c => fenceJob a n c) v))) rq 0x01D0 0) ∧ n ∈ u.fenced ∧
      (∀ m, m ≠ n → (m ∈ u.fenced ↔ m ∈ s.fenced)) ∧ (∀ k, k / 256 = physOf s n → (winAt u k).state ≠ .opened) ∧
      tget? u.decks (physOf s n) = none ∧ (∀ p, p ≠ physOf s n → tget? u.decks p = tget? s.decks p) ∧ u.span = s.span ∧
      u.t3 = s.t3 ∧ u.t4 = s.t4 ∧ (n, 0, some rq) ∈ u.rel.fencing) ∧
    (bit (live s 0x0027_0050) 31 = false ∨ recentUes s n < bits (live s 0x0027_0050) 7 0 → exec (.autoFence n 1) s = .next s) ∧
    (bit (live s 0x0027_0050) 31 = false → ∀ c, exec (.autoFence n c) s = .next s) ∧
    (n < 8 → n ∉ s.fenced → bit (live s 0x0027_0050) 31 = true → s.pwr.mode = .awake → ∀ c ∈ [1, 2], fenceCause s n c = true →
      ∃ u v, v = freeStreams u (coreOf s (physOf s n)).chunks ∧
        exec (.autoFence n c) s = .next (releaseWork (settleAll ((jobsOn v n).foldl (fun a c => fenceJob a n c) v))) ∧ n ∈ u.fenced ∧ u.rel.lastCause = c ∧
        tget? u.decks (physOf s n) = none ∧ (∀ p, p ≠ physOf s n → tget? u.decks p = tget? s.decks p)) ∧
    (∀ b, n < 8 →
      (n ∉ s.fenced ∨ s.rel.fencing.any (fun f => f.1 == n) = true →
        Answered (.coreRepair rq n b) s rq 0x01D1 0 .refused .relNotFenced [] s) ∧
      (n ∈ s.fenced → s.rel.fencing.any (fun f => f.1 == n) = false → s.rel.consumed = true ∨ s.rel.reliefBad = true →
        Answered (.coreRepair rq n b) s rq 0x01D1 0 .refused .relNoRelief [] s) ∧
      (n ∈ s.fenced → s.rel.fencing.any (fun f => f.1 == n) = false → s.rel.consumed = false → s.rel.reliefBad = false →
        (s.rel.repairing ≠ none → Answered (.coreRepair rq n b) s rq 0x01D1 0 .busy .relBusy [] s) ∧
        (s.rel.repairing = none → exec (.coreRepair rq n b) s =
          .next (interim { s with rel := { s.rel with repairing := some (n, b, some rq) } } rq 0x01D1 0)))) ∧
    (∀ b v, n < 8 → s.rel.repairing = some (n, b, some rq) → v = { s with rel := { s.rel with repairing := none } } →
      (b = true → carryRepair s = releaseDestroys (repairCore v n (some rq))) ∧
      (b = false → s.rel.heldDestroys = [] → ∃ t, carryRepair s = t ∧ Replied rq 0x01D1 0 .fault .relReliefFail [] t ∧
        t.rel.reliefBad = true ∧ t.fenced = s.fenced ∧ t.coreMap = s.coreMap ∧ t.decks = s.decks)) ∧
    (n < 8 → n < s.coreMap.length → (∃ u, mapRelief s n = u ∧ physOf u n = s.rel.unmapped ∧ n ∉ u.fenced ∧ u.rel.consumed = true ∧
      u.rel.unmapped = physOf s n ∧ tget? u.decks s.rel.unmapped = none ∧ (∀ m, m ≠ n → physOf u m = physOf s m) ∧
      (∀ p, p ≠ s.rel.unmapped → p ≠ physOf s n → tget? u.decks p = tget? s.decks p) ∧
      (∀ c x i im, tget? s.ctxs c = some x → tget? x.images i = some im → stageOn im n = true →
        ∃ y k, tget? u.ctxs c = some y ∧ tget? y.images i = some k ∧ k.reload = true)))) ∧
  (∀ (home : Nat) (runs : List (Nat × Nat)) (s : State) (r : Ram) (n : Nat), ramOf s home = r → n = (r.hits r.soft runs).length →
    (r.hits r.bad runs = [] → ∃ t, eccScan s home runs = (t, none) ∧
      (n = 0 → t = s) ∧ (n ≠ 0 → t = { s with rel := { s.rel with ce := t.rel.ce } } ∧
        tget t.rel.ce 0 home = min (tget s.rel.ce 0 home + n) (2 ^ 32 - 1) ∧
        (∀ h, h ≠ home → tget t.rel.ce 0 h = tget s.rel.ce 0 h))) ∧
    (∀ w rest, r.hits r.bad runs = w :: rest → ∃ t v, eccScan s home runs = (emitDev v .relEccUe
        (leBytes 1 (if home = 9 then 15 else home) ++ leBytes 4 (w / 32)), some t) ∧
      t = (if home = 9 then Reason.relSpanUe else Reason.relDeckUe) ∧
      tget v.rel.ue 0 home = min (tget s.rel.ue 0 home + 1) (2 ^ 32 - 1) ∧
      v.rel.ueAddr = (if home = 9 then 15 else home) * 2 ^ 28 + w / 32 ∧
      v = { s with rel := { s.rel with ce := v.rel.ce, ue := v.rel.ue, ueAddr := v.rel.ueAddr, ueAt := v.rel.ueAt } }))

/-- R710 to R713, R715, R716, R726, R731: a member opens its set session toward a member of lower index that is not up,
and a session that is up sends HELLO REFRESH with the settlement; a peer that has been silent is lost, and reported. A
crossing is installed where its own end's context lives, and cleared where it does not; an entry that is not VALID is
taken away, and what an end reports as cleared is cleared everywhere. A member that has not returned its report is
left out of the aggregate, which then ends with TIMEOUT and SET_PEER_LOST when no other is awaited. -/
def Obligations.SetSessionsAndCrossings : Prop :=
  (∀ (i : Nat) (p : Peer) (s : State), peerAt s i = p →
    (s.rst.up = true → s.pwr.mode = .awake → bit (setMembers s) i = true → i < ownIndex s → p.state ≠ .up →
      ∃ t, exec (.setSessionOpen i) s = .next t ∧ (peerAt t i).state = .proving ∧ (peerAt t i).opener = true ∧
        (peerAt t i).sess = none ∧ (peerAt t i).awaiting = some (p.cmdSeq, 0) ∧ (peerAt t i).cmdSeq = p.cmdSeq + 1 ∧
        ((peerAt t i).port = 1 ∨ (peerAt t i).port = 2) ∧
        t.net.sent = { sess := 0, cls := .cmd, op := 0x0001, seq := p.cmdSeq % 2 ^ 32, payload := [0, 1, 0, 32, 0, 0, 0, 0],
                       wire := some (wireTo s .host (peerAt t i).port ((memberAddrs s i).headD 0) (live s 0x0023_0010 % 2 ^ 16)) } :: s.net.sent ∧
        (∀ k, k ≠ i → peerAt t k = peerAt s k)) ∧
    (s.rst.up = false ∨ s.pwr.mode ≠ .awake ∨ bit (setMembers s) i = false ∨ ownIndex s ≤ i ∨ p.state = .up →
      exec (.setSessionOpen i) s = .next s) ∧
    (p.state ≠ .up → exec (.setRefresh i) s = .next s) ∧
    (p.state = .up → ∃ t k, exec (.setRefresh i) s = .next t ∧ t.net.sent.head? = some k ∧ k.cls = .cmd ∧ k.op = 1 ∧
      k.sess = p.sess.getD 0 ∧ field k.payload 0 1 = 2 ∧ k.link = p.settled % 2 ^ 32 ∧ (peerAt t i).told = p.settled ∧
      (peerAt t i).state = .up ∧ (peerAt t i).unsettled = p.unsettled) ∧
    (p.state ≠ .up → p.state ≠ .proving → exec (.setPeerDown i) s = .next s) ∧
    (p.state = .up ∨ p.state = .proving → ∀ u, u = peerGone s i .lost → EventRoom u →
      Reports (.setPeerDown i) s none .ok .setPeerDown (leBytes 1 i) u ∧
      (s.ctxs = [] → s.set.mirrors = [] → s.set.aggregates = [] → p.unsettled = [] →
        (peerAt u i).state = .lost ∧ (peerAt u i).sess = none ∧ (∀ k, k ≠ i → peerAt u k = peerAt s k)))) ∧
  (∀ (k : Nat) (a b : Word) (s : State),
    (64 ≤ k ∨ (setRole s ≠ 1 ∧ setRole s ≠ 2) → exec (.crossingInstall k a b) s = .next s) ∧
    (k < 64 → setRole s = 1 → bit (live s (0x0023_0500 + 8 * k)) 31 = false →
      exec (.crossingInstall k a b) s = .next { s with set := { s.set with installed := terase s.set.installed k } }) ∧
    (∀ c, k < 64 → setRole s = 1 → bit (live s (0x0023_0500 + 8 * k)) 31 = true → c = crossingAt (live s) k →
      (¬((c.devA = ownIndex s ∨ (peerAt s c.devA).state = .up) ∧ (c.devB = ownIndex s ∨ (peerAt s c.devB).state = .up)) →
        exec (.crossingInstall k a b) s = .next s) ∧
      (tget? s.set.installed k = some c → c.devA = ownIndex s ∨ (peerAt s c.devA).state = .up →
        c.devB = ownIndex s ∨ (peerAt s c.devB).state = .up →
        (bit a.toNat 31 = true → exec (.crossingInstall k a b) s = .next s) ∧
        (bit a.toNat 31 = false → ∃ t, exec (.crossingInstall k a b) s = .next t ∧ tget? t.set.installed k = none ∧
          live t (0x0023_0500 + 8 * k) = 0 ∧ live t (0x0023_0504 + 8 * k) = 0 ∧
          (∀ m, m ≠ k → tget? t.set.installed m = tget? s.set.installed m) ∧ t = { s with set := t.set, regs := t.regs })) ∧
      (tget? s.set.installed k ≠ some c → c.devA = ownIndex s → c.devB ≠ c.devA →
        ((peerAt s c.devB).state = .up → liveCtx s c.ctxA = none →
          ∃ t, exec (.crossingInstall k a b) s = .next t ∧ tget? t.set.installed k = none ∧
            live t (0x0023_0500 + 8 * k) = 0 ∧ live t (0x0023_0504 + 8 * k) = 0) ∧
        ((peerAt s c.devB).state = .up → (liveCtx s c.ctxA).isSome → ∃ t, exec (.crossingInstall k a b) s = .next t ∧
          (tget? t.set.installed k = some c ∨ tget? t.set.installed k = none) ∧
          (∀ m, m ≠ k → tget? t.set.installed m = tget? s.set.installed m)))) ∧
    (∀ c, k < 64 → setRole s = 2 → (peerAt s 0).state = .up →
      c = ({ devA := bits a.toNat 26 24, ctxA := bits a.toNat 8 0, devB := bits b.toNat 26 24, ctxB := bits b.toNat 8 0,
             mirror := bit a.toNat 30 } : Crossing) → c.devB = ownIndex s → c.devA ≠ c.devB →
      (bit a.toNat 31 = true → (liveCtx s c.ctxB).isSome →
        exec (.crossingInstall k a b) s = .next { s with set := { s.set with installed := tset s.set.installed k c } }) ∧
      (bit a.toNat 31 = false ∨ liveCtx s c.ctxB = none →
        exec (.crossingInstall k a b) s = .next { s with set := { s.set with installed := terase s.set.installed k } })) ∧
    (k < 64 → setRole s = 2 → (peerAt s 0).state ≠ .up → exec (.crossingInstall k a b) s = .next s)) ∧
  (∀ (c i : Nat) (a : Aggregate) (rest : List (Nat × Aggregate)) (s : State), 
    (s.set.aggregates = [] → exec (.attestReportTimeout c i) s = .next s) ∧
    (s.set.aggregates = (c, a) :: rest → i ∈ a.waiting → (∃ m ∈ a.waiting, m ≠ i) → ∃ t b, exec (.attestReportTimeout c i) s = .next t ∧
      t.set.aggregates = (c, b) :: rest ∧ i ∉ b.waiting ∧ b.missing = true ∧ b.reports = a.reports ∧ b.req = a.req) ∧
    (s.set.aggregates = (c, a) :: rest → a.waiting = [i] → Live a.req s → (liveCtx s a.req.ctx).isSome →
      ∃ t r, exec (.attestReportTimeout c i) s = .next t ∧ t.set.aggregates = rest ∧
        r.take 4 = [0x49, 0x56, 0x53, 0x54] ∧ field r 4 2 = a.reports.length % 65536 ∧ r.drop 16 = (a.reports.map Prod.snd).flatten ∧
        Replied a.req 0x01A0 a.req.ctx .timeout .setPeerLost
          (leBytes 4 r.length ++ leBytes 4 (slice r a.off a.len).length ++ slice r a.off a.len) t))

/-- R719 to R725, R727: remote writes. The receiver presents the next expected number and no other: a higher one is
dropped, a lower one answered with the settlement; one without its crossing is refused, counted in REJECTS, and
settles as refused. The settlement goes out in a packet of its own when no other carries it. The sender sends every
unsettled write again, in order, with its interval doubled up to 3.2 ms, and a settlement completes every write up to
its value and returns the interval to 200 µs. Every settled write counts its bytes in REMOTE_OUT. -/
def Obligations.RemoteWrites : Prop :=
  (∀ (i seq : Nat) (b : Bytes) (p : Peer) (h : WinHdr) (s : State), peerAt s i = p → remoteHdr b = h → seq < 2 ^ 32 →
    (p.state ≠ .up → exec (.remoteWriteReceive i seq b) s = .next s) ∧
    (p.state = .up → ∀ d, d = (seq + 2 ^ 32 - p.expected % 2 ^ 32) % 2 ^ 32 →
      (0 < d → d < 2 ^ 31 → exec (.remoteWriteReceive i seq b) s = .next s) ∧
      (2 ^ 31 ≤ d → ∃ t k, exec (.remoteWriteReceive i seq b) s = .next t ∧ t.net.sent.head? = some k ∧ k.cls = .data ∧ k.seq = 0 ∧
        k.link = p.settled % 2 ^ 32 ∧ k.payload = [1, 0, 0, 0, 0, 0, 0, 0, 0, 0, 0, 0, 0, 0, 0, 0] ∧ (peerAt t i).expected = p.expected ∧
        (peerAt t i).inbound = p.inbound ∧ t.wins = s.wins ∧ t.flights = s.flights) ∧
      (d = 0 → ∀ k, keyOf s h.ctx h.slot h.space h.win = some k →
        (crossingAdmits s b = false ∨ field b 1 1 ≠ i → p.inbound = [] → ∃ t, exec (.remoteWriteReceive i seq b) s = .next t ∧
          (peerAt t i).expected = p.expected + 1 ∧ (peerAt t i).settled = p.expected ∧ (peerAt t i).inbound = [] ∧
          (p.expected, Status.refused, Reason.winDenied) ∈ (peerAt t i).failures ∧
          winAt t k = { (winAt s k) with rejects := min ((winAt s k).rejects + 1) 0xFFFF } ∧ t.flights = s.flights) ∧
        (crossingAdmits s b = true → field b 1 1 = i → h.space ≤ 8 → homeReady s h = true → behindEarlier s h = false → writeFate s h k = .accepted →
          ∃ t f, exec (.remoteWriteReceive i seq b) s = .next t ∧ (peerAt t i).expected = p.expected + 1 ∧
            (peerAt t i).inbound = p.inbound ++ [(p.expected, none)] ∧ (peerAt t i).settled = p.settled ∧
            tget? t.flights s.nextFlight = some f ∧ f.writer = .remote i ∧ f.src = .remote i p.expected ∧ f.data = h.data ∧
            f.home = k / 256 ∧ f.off = h.off ∧ t.wins = s.wins)))) ∧
  (∀ (i : Nat) (p : Peer) (s : State), peerAt s i = p →
    (p.state ≠ .up ∨ p.told = p.settled → exec (.settlementPacket i) s = .next s) ∧
    (p.state = .up → p.told ≠ p.settled → ∃ t k, exec (.settlementPacket i) s = .next t ∧ t.net.sent.head? = some k ∧ k.cls = .data ∧
      k.seq = 0 ∧ k.link = p.settled % 2 ^ 32 ∧ (peerAt t i).told = p.settled ∧ (peerAt t i).settled = p.settled) ∧
    (p.state ≠ .up ∨ p.unsettled = [] → exec (.remoteWriteRetransmit i) s = .next s) ∧
    (p.state = .up → p.unsettled ≠ [] → p.failures = [] → ∃ t, exec (.remoteWriteRetransmit i) s = .next t ∧
      (peerAt t i).interval = min (2 * p.interval) 3200 ∧ (peerAt t i).retx = min (p.retx + p.unsettled.length) 0xFFFF ∧
      (peerAt t i).unsettled = p.unsettled ∧
      t.net.sent.map Packet.payload = (p.unsettled.map RemoteOut.payload).reverse ++ s.net.sent.map Packet.payload ∧
      t.net.sent.map Packet.seq = (p.unsettled.map (fun w => w.num % 2 ^ 32)).reverse ++ s.net.sent.map Packet.seq) ∧
    (∀ link r, p.state ≠ .up → exec (.settlementReceive i link r) s = .next s) ∧
    (∀ link, p.state = .up → s.set.mirrors = [] → ∃ u, exec (.settlementReceive i link []) s = .next (settleAll u) ∧
      (∀ w, w ∈ (peerAt u i).unsettled ↔ w ∈ p.unsettled ∧ 2 ^ 31 ≤ (link + 2 ^ 32 - w.num % 2 ^ 32) % 2 ^ 32) ∧
      ((∃ w ∈ p.unsettled, (link + 2 ^ 32 - w.num % 2 ^ 32) % 2 ^ 32 < 2 ^ 31) → (peerAt u i).interval = 200) ∧
      (∀ k, k ≠ i → peerAt u k = peerAt s k))) ∧
  (∀ (w : RemoteOut) (st : Status) (r : Reason) (x : Ctx) (s : State), tget? s.ctxs w.ctx = some x →
    ∃ y, tget? (settleOut s w st r).ctxs w.ctx = some y ∧
      y.acct.remoteOut = x.acct.remoteOut + (if st = .timeout then 0 else w.payload.length - 16))

/-- R693, R700, R763, R764, R767, R643, R773, R774: reset. A low PORST_N resets everything but what flash, fuses and the
drive hold; its release boots the armed or active slot when it passes its checks, and the other when it does not,
counting the boot, or enters recovery when neither does. A warm restart is BUSY while an entry, a fence or repair, or
a staging is in progress; otherwise contexts, windows, keys, lanes and every row valid bit go, and T3, T4 and the
count of power cycles stay. R637, R754, R758, R759, R762: an interruption of REFCLK, and a loss of lock of any PLL but
PLL_W and PLL_G, hold the device in internal reset, from which a stable REFCLK boots it; a loss of lock in PLL_W is a
tamper trigger and in PLL_G a Guardrail fault. The loss of the PCIe link takes DRIVE_READY away, and its return gives
it back, both reported, and T4 keeps its content. -/
def Obligations.ResetClocksAndLinks : Prop :=
  ((∀ s : State, (s.pwr.mode = .off → exec .porstNAsserted s = .next s) ∧
    (s.pwr.mode ≠ .off → ∃ t, exec .porstNAsserted s = .next t ∧ t.rst.porstLow = true ∧ t.rst.cause = 0 ∧ t.ctxs = [] ∧ t.wins = [] ∧
      t.decks = [] ∧ t.span = {} ∧ t.t3.mem = [] ∧ t.t3.lines = [] ∧ t.t3.nodes = s.t3.nodes ∧ t.t3.roots = s.t3.roots ∧ t.t4 = s.t4 ∧ t.sec.keys = [] ∧
      t.sec.minSvn = s.sec.minSvn ∧ t.sec.policy = s.sec.policy ∧ t.grd.stopped = 15 ∧ t.net.sessions = [] ∧ t.lanes = [] ∧
      t.rst.snapshot = s.rst.snapshot ∧ t.rst.repair = s.rst.repair ∧ t.rel.images = s.rel.images ∧ t.rel.copies = s.rel.copies ∧
      t.pending = s.pending ∧ t.regs = State.reset.regs)) ∧
  (∀ (b : BootInput) (s : State),
    (s.rst.porstLow = false ∨ s.pwr.powerOn = false → exec (.porstN b) s = .next s) ∧
    (s.rst.porstLow = true → s.pwr.powerOn = true → b.slotOk = [false, false] → s.rst.activeSlot ≤ 1 → ∃ t, exec (.porstN b) s = .next t ∧
      t.rst.recovery = true ∧ t.rst.up = true ∧ t.rst.porstLow = false ∧ t.pwr.mode = .awake ∧ t.sec.fwKeyHeld = s.sec.fwKeyHeld ∧
      t.ddr = s.ddr ∧ t.grd = s.grd) ∧
    (∀ want slot x y, s.rst.porstLow = true → s.pwr.powerOn = true → b.slotOk = [x, y] → s.rst.activeSlot ≤ 1 →
      want = (if s.rel.armed then 1 - s.rst.activeSlot else s.rst.activeSlot) →
      (b.slotOk.getD want false = true ∧ slot = want) ∨ (b.slotOk.getD want false = false ∧ b.slotOk.getD (1 - want) false = true ∧ slot = 1 - want) →
      b.selfTest = true → s.rst.snapshot = [] → b.repair = true → s.rst.repair = none → s.ddr.training = false → s.rel.copies = [] →
      ∃ t, exec (.porstN b) s = .next t ∧ t.rst.up = true ∧ t.rst.booting = false ∧ t.rst.bootSlot = slot ∧ t.rst.porstLow = false ∧
        t.pwr.mode = .awake ∧ t.rst.boots = (s.rst.boots + 1) % 2 ^ 32 ∧ t.rel.odo.cycles = 1 ∧ t.sec.fwKeyHeld = true ∧
        t.sec.selfTest = true ∧ t.rel.trial = (s.rel.armed && decide (slot = want)) ∧ t.rel.armed = false ∧
        t.grd.weights = (if b.snapshot then s.rst.savedWeights else none) ∧ t.grd.stopped = s.grd.stopped)) ∧
  (∀ (rq : Req) (s : State), Live rq s →
    (s.pwr.entry ≠ none ∨ s.rel.fencing ≠ [] ∨ s.rel.repairing ≠ none ∨ s.rel.stage ≠ none →
      Answered (.rstWarm rq) s rq 0x0011 0 .busy .rstBusy [0, 0, 0, 0] s) ∧
    (s.pwr.entry = none → s.rel.fencing = [] → s.rel.repairing = none → s.rel.stage = none → s.set.peers = [] → s.rst.snapshot = [] →
      ∃ t, exec (.rstWarm rq) s = .next t ∧ t.rst.cause = 4 ∧ t.ctxs = [] ∧ t.wins = [] ∧ t.flights = [] ∧ t.sec.keys = [] ∧
        t.lanes = [] ∧ t.decks = [] ∧ t.span.valid = [] ∧ t.net.sessions = [] ∧ t.net.queue = [] ∧ t.t3 = s.t3 ∧ t.t4 = s.t4 ∧
        t.ddr = s.ddr ∧ t.grd = s.grd ∧ t.rel.odo.cycles = s.rel.odo.cycles ∧ t.rst.bootSlot = s.rst.bootSlot ∧ t.pending = s.pending))) ∧
  (∀ s : State,
    (s.pwr.mode = .off ∨ s.rst.porstLow = true → exec .refclkInterruption s = .next s) ∧
    (s.pwr.mode ≠ .off → s.rst.porstLow = false → ∃ t, exec .refclkInterruption s = .next t ∧ t.rst.held = true ∧ t.rst.cause = 2 ∧
      t.ctxs = [] ∧ t.sec.keys = [] ∧ t.t3.mem = [] ∧ t.t4 = s.t4 ∧ t.grd.stopped = 15) ∧
    (s.rst.held = false → exec .refclkStable s = .next s) ∧
    (s.rst.held = true → ∃ b, exec .refclkStable s = .next (coldBoot { s with draws := s.draws + 16 } b)) ∧
    (∀ p, (bit (locks s) p = false ∨ 9 ≤ p ∨ s.rst.porstLow = true → exec (.pllLoss p) s = .next s) ∧
      (bit (locks s) p = true → s.rst.porstLow = false → p < 9 →
        (p = 0 → exec (.pllLoss p) s = exec .secTamper s) ∧ (p = 1 → exec (.pllLoss p) s = .next (grdFault s)) ∧
        (2 ≤ p → ∃ t, exec (.pllLoss p) s = .next t ∧ t.rst.held = true ∧ t.rst.cause = 3 ∧ t.ctxs = [] ∧ t.sec.keys = [] ∧ t.t4 = s.t4))) ∧
    (s.pcie.up = false → exec .pcieLinkDown s = .next s) ∧
    (s.pcie.up = true → EventRoom s → Reports .pcieLinkDown s none .ok .pcieLinkDown []
      { s with pcie := { s.pcie with up := false, gen := 0, width := 0, ready := false } }) ∧
    (∀ g w, (pageOn s 0x0024_0000 = false ∨ s.pcie.up = true ∨ s.pwr.mode ≠ .awake → exec (.pcieLinkUp g w) s = .next s) ∧
      (pageOn s 0x0024_0000 = true → s.pcie.up = false → s.pwr.mode = .awake → EventRoom s →
        ∀ a b, a = min g (live s 0x0024_0010 % 4) → b = min w (bits (live s 0x0024_0010) 3 2) →
        Reports (.pcieLinkUp g w) s none .ok .pcieLinkUp (leBytes 1 a ++ leBytes 1 b)
          { s with pcie := { s.pcie with up := true, gen := a, width := b, ready := true } })))

/-- R93, R142: a stage pushes a descriptor's offset. A group that the stage does not own takes nothing; otherwise the
offset joins the group's queue, or stalls while sixteen stand there, and the core's earlier narrow writes have become
visible in its Deck. Every other group, core and memory stays. R93, R130, R131: the descriptor at the head of a
group's queue. One that fails its checks leaves the queue and ends the job with the first failed check's reason, one
whose version, mode, format or activation is reserved with ENG_VERSION before any other, and one that a word which ECC
cannot correct holds with REL_DECK_UE (R679); a valid one starts, with the beats that its operands give, when no
running descriptor of the core holds an engine that it names, and a stalled push takes the freed place; otherwise it
waits. -/
def Obligations.EngineDescriptorsStart : Prop :=
  (∀ (core slot group off c p : Nat) (j : Job) (g : EngGroup) (e : EngEntry) (s : State),
    stageRunning s core slot = some (c, j) → physOf s core = p → groupAt (coreOf s p) group = g →
    e = { slot := slot, ctx := c, img := j.run.slot, off := off } →
    (bit (stageGroups j core slot) group = false → exec (.engineDescriptorPush core slot group off) s = .next s) ∧
    (bit (stageGroups j core slot) group = true → ∃ t, exec (.engineDescriptorPush core slot group off) s = .next t ∧
      groupAt (coreOf t p) group = (if g.queue.length < 16 then { g with queue := g.queue ++ [e] }
        else { g with stalled := g.stalled ++ [e] }) ∧
      (∀ h, h ≠ group → groupAt (coreOf t p) h = groupAt (coreOf s p) h) ∧
      coreOf t p = { coreOf s p with groups := (coreOf t p).groups, narrow := [] } ∧
      (∀ q, q ≠ p → coreOf t q = coreOf s q) ∧
      ramOf t p = (coreOf s p).narrow.foldl (fun (r : Ram) w => r.write w.1 [w.2]) (ramOf s p) ∧
      (∀ q, q ≠ p → ramOf t q = ramOf s q) ∧
      t = { s with cores := t.cores, decks := t.decks, span := t.span })) ∧
  (∀ (core group p : Nat) (g : EngGroup) (e : EngEntry) (rest : List EngEntry) (x : Ctx) (j : Job) (s : State),
    physOf s core = p → groupAt (coreOf s p) group = g → g.queue = e :: rest → g.run = none →
    tget? s.ctxs e.ctx = some x → x.job = some j → j.onCores = true →
    (∀ t r, eccScan s p (descRuns s core e j) = (t, some r) →
      exec (.engineDescriptorStart core group) s = .next (failJob (setGroup t p group { g with
        queue := rest ++ g.stalled.take 1, stalled := g.stalled.drop 1 }) e.ctx r)) ∧
    (∀ cag pd, deckRead s e.ctx j.run.slot core e.off 64 = some cag →
      deckRead s e.ctx j.run.slot core (field cag 0x34 3) 32 = some pd → engVersionBad (engDesc cag pd) = true →
      engCheck s core e j = .error .engVersion) ∧
    (∀ r, engCheck s core e j = .error r → (ramOf s p).bad = [] → (ramOf s p).soft = [] →
      exec (.engineDescriptorStart core group) s = .next (failJob (setGroup s p group { g with
        queue := rest ++ g.stalled.take 1, stalled := g.stalled.drop 1 }) e.ctx r)) ∧
    (∀ cag pd d es, engCheck s core e j = .ok (cag, pd) → engDesc cag pd = d → (ramOf s p).bad = [] → (ramOf s p).soft = [] →
      es = (if ramp d then [4] else maskBits d.mask 4) →
      ((∃ n ∈ es, n ∈ busyEngines (coreOf s p)) → exec (.engineDescriptorStart core group) s = .next s) ∧
      ((∀ n ∈ es, n ∉ busyEngines (coreOf s p)) → ∃ t, exec (.engineDescriptorStart core group) s = .next t ∧
        groupAt (coreOf t p) group = { queue := rest ++ g.stalled.take 1, stalled := g.stalled.drop 1, run := some {
          entry := e, cag := cag, pd := pd,
          beats := engBeats (fun o n => (ramOf s p).read ((shareOf s e.ctx j.run.slot core).1 * 256 + o) n) d } } ∧
        (∀ h, h ≠ group → groupAt (coreOf t p) h = groupAt (coreOf s p) h) ∧
        coreOf t p = { coreOf s p with groups := (coreOf t p).groups } ∧ (∀ q, q ≠ p → coreOf t q = coreOf s q) ∧
        t = { s with cores := t.cores })))

/-- R92, R117, R118, R127, R129: one cycle of the core Junction with a beat at one input alone. The pointer moves to the
input after it. A whole beat is de-quantised and its elements stand in the Deck at the place that OUT_BASE, OUT_PITCH
and the beat's row and columns give; a partial beat waits while parts of its row are missing, and with the last one
the parts, in ascending MXE order, are combined and written. Nothing else of any memory changes. With no beat at an
input nothing happens, and without one there the front takes up to two beats of the Ramp engine. R117, R142, R396: an
engine group's descriptor completes. While beats of the core Junction are left it does not; then the group is free,
the wide writes are visible to the narrow view, and the context's MXE or Ramp account takes an amount that the spec
leaves open (assumption log, entry 1); the beats of a Ramp descriptor that the front has not taken yet reach the Deck
in their order. Nothing else changes before jobs settle and the scheduler looks at the freed core (R82). With none
running nothing happens. R123, R124, R805: a function of the vector unit, such as an activation. A NaN operand and one
outside the domain give the canonical NaN, an infinite or zero operand the limiting value, and a finite one a result
within the stated bound of the named expression's value, or that value rounded to nearest. (That value stands within
2⁻¹⁰⁰ of the real number: assumption log, entry 95.) The bounds of the functions are 1 ulp, 2 ulp, 2⁻²² absolute, and
3 or 4 ulp but at least 2⁻²⁴. -/
def Obligations.CoreJunctionAndCompletion : Prop :=
  (∀ (core p : Nat) (s : State), physOf s core = p →
    ((∀ i < 4, inputGroup (coreOf s p) i = none) → rampGroup (coreOf s p) = none → exec (.coreJunctionBeat core) s = .next s) ∧
    (∀ g r bs u, (∀ i < 4, inputGroup (coreOf s p) i = none) → rampGroup (coreOf s p) = some g →
      (groupAt (coreOf s p) g).run = some r → tget r.beats [] 4 = bs → 2 ≤ bs.length →
      u = (bs.take 2).foldl (fun (a : State) b => frontWrite a core r b) s →
      ∃ t, exec (.coreJunctionBeat core) s = .next t ∧ t.decks = u.decks ∧ t.span = u.span ∧
        (groupAt (coreOf t p) g).run = some { r with beats := tset (tset r.beats 4 (bs.drop 1)) 4 (bs.drop 2) } ∧
        (∀ h, h ≠ g → groupAt (coreOf t p) h = groupAt (coreOf s p) h) ∧ (coreOf t p).jptr = (coreOf s p).jptr ∧
        (∀ q, q ≠ p → coreOf t q = coreOf s q) ∧ t = { s with cores := t.cores, decks := t.decks, span := t.span }) ∧
    (∀ i g r b d r1 rd base, rampGroup (coreOf s p) = none → i < 4 → (∀ k < 4, k ≠ i → inputGroup (coreOf s p) k = none) →
      inputGroup (coreOf s p) i = some (g, r, b) → engDesc r.cag r.pd = d → runReader s core r = (base, rd) →
      r1 = ({ r with beats := tset r.beats i ((tget r.beats [] i).drop 1) } : EngRun) →
      (splitParts d = 1 → b.acc ≠ [] → b.acc.length ≤ b.width → b.ra.length ≤ b.width →
        ∃ t w, exec (.coreJunctionBeat core) s = .next t ∧ beatWrite rd d b = w ∧
        ramOf t p = (ramOf s p).write (base + w.1) w.2 ∧ (∀ q, q ≠ p → ramOf t q = ramOf s q) ∧
        (groupAt (coreOf t p) g).run = some r1 ∧ (∀ h, h ≠ g → groupAt (coreOf t p) h = groupAt (coreOf s p) h) ∧
        (coreOf t p).jptr = (i + 1) % 4 ∧ (∀ q, q ≠ p → coreOf t q = coreOf s q) ∧
        t = { s with cores := t.cores, decks := t.decks, span := t.span }) ∧
      (∀ row, row = r.parts.filter (fun q => q.2.m == b.m && q.2.j == b.j) ++ [(i, b)] → splitParts d ≠ 1 →
        (row.length < splitParts d → ∃ t, exec (.coreJunctionBeat core) s = .next t ∧
          (groupAt (coreOf t p) g).run = some { r1 with parts := r.parts ++ [(i, b)] } ∧ (coreOf t p).jptr = (i + 1) % 4 ∧
          t = { s with cores := t.cores }) ∧
        (∀ v, splitParts d ≤ row.length →
          combineBeats d ((List.range 4).flatMap (fun n => (row.filter (fun q => q.1 == n)).map Prod.snd)) = some v →
          v.acc ≠ [] → v.acc.length ≤ v.width → v.ra.length ≤ v.width →
          ∃ t w, exec (.coreJunctionBeat core) s = .next t ∧ beatWrite rd d v = w ∧
            ramOf t p = (ramOf s p).write (base + w.1) w.2 ∧ (∀ q, q ≠ p → ramOf t q = ramOf s q) ∧
            (groupAt (coreOf t p) g).run = some { r1 with
              parts := r.parts.filter (fun q => !(q.2.m == b.m && q.2.j == b.j)) } ∧
            (coreOf t p).jptr = (i + 1) % 4 ∧ t = { s with cores := t.cores, decks := t.decks, span := t.span })))) ∧
  (∀ (core group p : Nat) (g : EngGroup) (s : State), physOf s core = p → groupAt (coreOf s p) group = g →
    (g.run = none → exec (.engineDescriptorComplete core group) s = .next s) ∧
    (∀ r d, g.run = some r → engDesc r.cag r.pd = d →
      ((∃ e ∈ r.beats, e.1 < 4 ∧ e.2 ≠ []) ∨ r.parts ≠ [] → exec (.engineDescriptorComplete core group) s = .next s) ∧
      ((∀ e ∈ r.beats, 4 ≤ e.1 ∨ e.2 = []) → r.parts = [] →
        ∃ u f, exec (.engineDescriptorComplete core group) s = .next (schedule (settleAll u)) ∧
          f = (tget r.beats [] 4).foldl (fun (a : State) b => frontWrite a core r b) s ∧
          (groupAt (coreOf u p) group).run = none ∧ (coreOf u p).wideRows = [] ∧
          (∀ h, h ≠ group → groupAt (coreOf u p) h = groupAt (coreOf s p) h) ∧
          u.decks = f.decks ∧ u.span = f.span ∧ (tget r.beats [] 4 = [] → f = s) ∧
          (∀ m, m ≠ r.entry.ctx → tget? u.ctxs m = tget? s.ctxs m) ∧
          (∀ x, tget? s.ctxs r.entry.ctx = some x → ∃ a n v w, tget? u.ctxs r.entry.ctx = some { x with acct := a, meter := x.meter + 1 } ∧
            a = { x.acct with
              mxe := x.acct.mxe + (if ramp d then 0 else n), ramp := x.acct.ramp + (if ramp d then n else 0),
              vector := x.acct.vector + (if 3 ≤ d.act then v else 0), energy := x.acct.energy + w }) ∧
          u = { s with cores := u.cores, decks := u.decks, span := u.span, ctxs := u.ctxs, draws := u.draws }))) ∧
  ((∀ (f : VecFn) (x y : Nat), f ≠ .division →
    (f32 x = .nan → f.eval x y = fp32.nan) ∧
    (∀ a v, f32 x = .inf a → f.limit (.inf a) = some v → f.eval x y = fp32.encode v) ∧
    (∀ a, f32 x = .inf a → f.limit (.inf a) = none → f.eval x y = fp32.nan) ∧
    (∀ n d, f32 x = .num n d →
      (n = 0 → ∀ v, f.limit .zero = some v → f.eval x y = fp32.encode v) ∧
      (n ≠ 0 → f.exact n d .zero = none → f.eval x y = fp32.nan) ∧
      (∀ v, n ≠ 0 → f.exact n d .zero = some v →
        distLe (f32 (f.eval x y)) v (f.bound v) = true ∨ f.eval x y = fp32.encode v) ∧
      (n < 0 → f = .sqrt ∨ f = .rsqrt ∨ f = .log ∨ f = .log2 → f.eval x y = fp32.nan) ∧
      (65536 * d < n.natAbs → f = .sin ∨ f = .cos → f.eval x y = fp32.nan))) ∧
  (∀ x y : Nat,
    (f32 x = .nan ∨ f32 y = .nan → VecFn.division.eval x y = fp32.nan ∧ minW x y = fp32.nan ∧ maxW x y = fp32.nan) ∧
    (∀ n d, f32 x = .num n d → n ≠ 0 → (∀ a, f32 y = .inf a → VecFn.division.eval x y = 0) ∧
      (∀ e, f32 y = .num 0 e → VecFn.division.eval x y = fp32.encode (.inf (decide (n < 0)))))) ∧
  VecFn.log.eval 0 0 = 0xFF80_0000 ∧ VecFn.exp.eval 0xFF80_0000 0 = 0)

/-- R252, R253, R255, R261, R679: a stage sends a beat. A contributor's row within COUNT that it has not sent yet joins
its input with the Deck row at the offset, once a tag is free; any other row ends the job with PIPE_JCT_ORDER, a row
beyond the Deck share with CV_BOUNDS, and one that ECC cannot correct with REL_DECK_UE. R254, R256, R259, R262: one
VCLK cycle of the chip Junction with a beat at one of the two inputs that have their turn. The turn moves on. A beat
of a reduce group joins the slot of its row or takes a slot of its group, and waits while the group has none; a beat
of a gather group takes a slot and is written as its row. A beat whose group has gone is dropped. R45, R42, R256,
R257, R259: a row of a reduce group is written once every contributor's part stands in its slot, as the parts combined
in the order of ORDER and sent as one write to the row's place in the destination window with the identity of the
first core of that order; until then, and for a gather group, nothing happens. -/
def Obligations.ChipJunction : Prop :=
  (∀ (core slot group row off c : Nat) (j : Job) (im : Image) (s : State),
    stageRunning s core slot = some (c, j) → imageOf s c j.run.slot = some im →
    (∀ g, groupOf im j.phase group = some g → bit g.contrib core = true → row < g.rows → (group, core, row) ∉ j.jctSent →
      (off % 256 ≠ 0 ∨ tagFree s core slot = false → exec (.jctBeatSend core slot group row off) s = .next s) ∧
      (∀ t r sh, off % 256 = 0 → tagFree s core slot = true → sh = shareOf s c j.run.slot core → off + 256 ≤ sh.2 * 256 →
        eccScan s (physOf s core) [(sh.1 * 256 + off, 256)] = (t, some r) →
        exec (.jctBeatSend core slot group row off) s = .next (failJob t c r)) ∧
      (∀ b, off % 256 = 0 → tagFree s core slot = true → (ramOf s (physOf s core)).bad = [] → (ramOf s (physOf s core)).soft = [] →
        deckRead s c j.run.slot core off 256 = some b →
        ∃ t, exec (.jctBeatSend core slot group row off) s = .next t ∧
          tget t.jct.skids [] core = tget s.jct.skids [] core ++ [{ ctx := c, group := group, core := core, row := row, data := b }] ∧
          (∀ k, k ≠ core → tget t.jct.skids [] k = tget s.jct.skids [] k) ∧
          (tget? t.ctxs c).bind Ctx.job = some { j with jctSent := (group, core, row) :: j.jctSent } ∧
          (∀ m, m ≠ c → tget? t.ctxs m = tget? s.ctxs m) ∧
          t = { s with jct := { s.jct with skids := t.jct.skids }, ctxs := t.ctxs }) ∧
      (off % 256 = 0 → tagFree s core slot = true → (shareOf s c j.run.slot core).2 * 256 < off + 256 →
        exec (.jctBeatSend core slot group row off) s = .next (failJob s c .cvBounds))) ∧
    ((∀ g, groupOf im j.phase group = some g → bit g.contrib core = false ∨ g.rows ≤ row ∨ (group, core, row) ∈ j.jctSent) →
      exec (.jctBeatSend core slot group row off) s = .next (failJob s c .pipeJctOrder))) ∧
  (∀ (i k : Nat) (u : State) (s : State),
    (i = 2 * s.jct.turn ∧ k = 2 * s.jct.turn + 1) ∨ (k = 2 * s.jct.turn ∧ i = 2 * s.jct.turn + 1) → tget s.jct.skids [] k = [] →
    u = { s with jct := { s.jct with turn := (s.jct.turn + 1) % 4 } } →
    (tget s.jct.skids [] i = [] → exec .jctBeatAccept s = .next u) ∧
    (∀ b rest v, tget s.jct.skids [] i = b :: rest →
      v = { u with jct := { u.jct with skids := tset s.jct.skids i rest } } →
      (jctGroup s b.ctx b.group = none → exec .jctBeatAccept s = .next v) ∧
      (∀ slot g n, jctGroup s b.ctx b.group = some (slot, g) →
        n = (s.jct.slots.filter (fun j => j.ctx == b.ctx && j.group == b.group && !j.freed)).length →
        (g.gather = false → jctJoin s b = true →
          exec .jctBeatAccept s = .next { v with jct := { v.jct with slots := s.jct.slots.map (fun j =>
            if j.ctx = b.ctx ∧ j.group = b.group ∧ j.row = b.row ∧ !j.written then { j with parts := tset j.parts i b.data } else j) } }) ∧
        (g.gather = false → jctJoin s b = false → n < g.slots →
          exec .jctBeatAccept s = .next { v with jct := { v.jct with slots := s.jct.slots ++
            [{ ctx := b.ctx, job := jobId s b.ctx, group := b.group, row := b.row, parts := [(i, b.data)] }] } }) ∧
        (g.gather = true → n < g.slots →
          exec .jctBeatAccept s = .next (jctWrite { v with jct := { v.jct with slots := s.jct.slots ++
            [{ ctx := b.ctx, job := jobId s b.ctx, group := b.group, row := b.row, parts := [(i, b.data)], written := true }] } }
            b.ctx (jobId s b.ctx) slot g b.row i b.data)) ∧
        (g.slots ≤ n → g.gather = true ∨ jctJoin s b = false → exec .jctBeatAccept s = .next u)))) ∧
  (∀ (c group row slot : Nat) (g : JctEnt) (s : State), jctGroup s c group = some (slot, g) →
    (∀ j, s.jct.slots.find? (fun j => j.ctx == c && j.group == group && j.row == row && !j.written) = some j →
      (g.gather = false → (∀ n < 8, bit g.contrib n = true → (tget? j.parts n).isSome) →
        ∃ u order data, exec (.jctRowWrite c group row) s = .next (jctWrite u c j.job slot g row (order.headD 0) data) ∧
          order = g.order.filter (fun n => decide (n < 8) && bit g.contrib n) ∧
          data = combineRows g.fmt (order.map (fun n => tget j.parts [] n)) ∧
          u = { s with jct := { s.jct with slots := s.jct.slots.map (fun k => if k = j then { k with written := true } else k) } }) ∧
      (g.gather = true ∨ (∃ n < 8, bit g.contrib n = true ∧ tget? j.parts n = none) →
        exec (.jctRowWrite c group row) s = .next s)) ∧
    (s.jct.slots.find? (fun j => j.ctx == c && j.group == group && j.row == row && !j.written) = none →
      exec (.jctRowWrite c group row) s = .next s) ∧
    (∀ a b : Bytes, combineRows 8 [a, b] = (List.range 32).flatMap (fun i =>
        leBytes 8 (leNat (slice a (8 * i) 8) + leNat (slice b (8 * i) 8)))) ∧
    ((∃ k ∈ s.jct.skids, ∃ b ∈ k.2, b.ctx = c ∧ b.group = group) ∨
        (∃ j ∈ s.jct.slots, j.ctx = c ∧ j.group = group ∧ j.written = false) →
      exec (.pipeJctStuck c group) s = .next (failJob s c .pipeJctStuck)) ∧
    ((∀ k ∈ s.jct.skids, ∀ b ∈ k.2, b.ctx ≠ c ∨ b.group ≠ group) →
        (∀ j ∈ s.jct.slots, j.ctx ≠ c ∨ j.group ≠ group ∨ j.written = true) →
      exec (.pipeJctStuck c group) s = .next s))

/-- R201, R204: a stage pushes a descriptor. The entry takes the next number of its core and joins the end of the stage
slot's queue, with its offset, context and image; nothing else changes. With no stage running on the slot nothing
happens. R190, R204, R212, R239, R679: the descriptor at the head of a queue. One whose bytes lie beyond the Deck
share, whose offset is no multiple of 32, or that fails a check leaves the queue, moves nothing and ends its job with
the first failed check's reason: a reserved field CV_VERSION, then CV_OP, CV_ENDPOINT, CV_ALIGN, CV_SHAPE, CV_CODES,
CV_BOUNDS, OBJ_HANDLE, OBJ_RANGE, and SET_NO_CROSSING; one whose bytes ECC cannot correct ends it with that error.
With FENCE it waits for every earlier descriptor of the queue. One that passes is marked, and the context's use
counter, incremented if it names objects, becomes the use number of each. R211: a descriptor whose tiles are all
issued and all landed or discarded completes: it leaves the queue, and its status with the number of tiles landed is
reported for its queue. Nothing else changes before walks and jobs settle. While none has completed nothing happens. -/
def Obligations.ConvoyDescriptorsRunThrough : Prop :=
  (∀ (core slot off p : Nat) (s : State), physOf s core = p →
    (stageRunning s core slot = none → exec (.convoyDescriptorPush core slot off) s = .next s) ∧
    (∀ c j, stageRunning s core slot = some (c, j) → ∃ t, exec (.convoyDescriptorPush core slot off) s = .next t ∧
      tget (coreOf t p).convoy [] slot = tget (coreOf s p).convoy [] slot ++
        [{ id := (coreOf s p).nextCv, off := off, ctx := c, slot := j.run.slot }] ∧
      (∀ q, q ≠ slot → tget (coreOf t p).convoy [] q = tget (coreOf s p).convoy [] q) ∧
      coreOf t p = { coreOf s p with convoy := (coreOf t p).convoy, nextCv := (coreOf s p).nextCv + 1 } ∧
      (∀ q, q ≠ p → coreOf t q = coreOf s q) ∧ t = { s with cores := t.cores })) ∧
  (∀ (core queue p : Nat) (e : CvEntry) (x : Ctx) (s : State), physOf s core = p →
    cvHead (tget (coreOf s p).convoy [] queue) = some e → e.checked = false → bit s.pwr.up core = true →
    tget? s.ctxs e.ctx = some x → e.purpose ≠ .reshard →
    (∀ t r, eccScan s p (bodyRuns s core e) = (t, some r) →
      exec (.convoyDescriptorCheck core queue) s = .next (failJob (cvRemove t p queue e.id) e.ctx r)) ∧
    (cvBody s core e = none → exec (.convoyDescriptorCheck core queue) s = .next (failJob (cvRemove s p queue e.id) e.ctx .cvBounds)) ∧
    (∀ b d, cvBody s core e = some b → CvDesc.parse b = d → e.body.isSome ∨ ((ramOf s p).bad = [] ∧ (ramOf s p).soft = []) →
      (e.off % 32 ≠ 0 →
        exec (.convoyDescriptorCheck core queue) s = .next (failJob (cvRemove s p queue e.id) e.ctx .cvAlign)) ∧
      (e.off % 32 = 0 → d.fence = true → ((tget (coreOf s p).convoy [] queue).head?.map CvEntry.id) ≠ some e.id →
        exec (.convoyDescriptorCheck core queue) s = .next s) ∧
      (e.off % 32 = 0 → d.fence = false ∨ ((tget (coreOf s p).convoy [] queue).head?.map CvEntry.id) = some e.id →
        (∀ r, cvCheck s core queue x e d = some r →
          exec (.convoyDescriptorCheck core queue) s = .next (failJob (cvRemove s p queue e.id) e.ctx r)) ∧
        (cvCheck s core queue x e d = none → ∃ t y, exec (.convoyDescriptorCheck core queue) s = .next t ∧
          tget? t.ctxs e.ctx = some y ∧
          (cvHandles d = [] → y = x) ∧
          (cvHandles d ≠ [] → y = { x with useCtr := (x.useCtr + 1) % 2 ^ 32, objs := y.objs } ∧
            ∀ h, tget? y.objs h = (tget? x.objs h).map (fun o =>
              if h ∈ cvHandles d then { o with useSeq := (x.useCtr + 1) % 2 ^ 32 } else o)) ∧
          tget (coreOf t p).convoy [] queue = (tget (coreOf s p).convoy [] queue).map (fun f =>
            if f.id = e.id then { f with checked := true, body := some b } else f) ∧
          (∀ q, q ≠ queue → tget (coreOf t p).convoy [] q = tget (coreOf s p).convoy [] q) ∧
          (∀ m, m ≠ e.ctx → tget? t.ctxs m = tget? s.ctxs m) ∧ (∀ q, q ≠ p → coreOf t q = coreOf s q) ∧
          t = { s with cores := t.cores, ctxs := t.ctxs })) ∧
      (cvReserved d = true → cvCheck s core queue x e d = some .cvVersion) ∧
      (cvReserved d = false → 2 ≤ d.op → queue < 3 → cvCheck s core queue x e d = some .cvOp))) ∧
  (∀ (core queue p : Nat) (s : State), physOf s core = p →
    ((queueAll (coreOf s p) queue).find? cvDone = none → exec (.convoyDescriptorComplete core queue) s = .next s) ∧
    (∀ e, (queueAll (coreOf s p) queue).find? cvDone = some e →
      e.purpose = .stage ∨ e.purpose = .prefetch ∨ e.purpose = .bringIn →
      ∃ u, exec (.convoyDescriptorComplete core queue) s = .next (settleAll (resolveWalks u e.ctx)) ∧
        tget (coreOf u p).convoy [] queue = (tget (coreOf s p).convoy [] queue).filter (fun f => f.id != e.id) ∧
        (∀ q, q ≠ queue → tget (coreOf u p).convoy [] q = tget (coreOf s p).convoy [] q) ∧
        (∃ r, r = CvDone.mk queue (e.stop.getD (.ok, .none)).1 (e.stop.getD (.ok, .none)).2 (e.landed - e.discarded) ∧
          (coreOf u p).convoyDone = r :: (coreOf s p).convoyDone) ∧
        (∀ q, q ≠ p → coreOf u q = coreOf s q) ∧ u = { s with cores := u.cores }))

/-- R202, R203, R209, R212, R380, R679, R683: a queue issues its next tile. With no tag free, a core or bank it needs
down, the core fenced, or its stage stopped or off the cores, nothing happens; an own-Deck source gives the 4,096
bytes of the tile's place in the share, a FILL gives zeros, and an object its tile with the code strip when it has
one; a source that fails, as one that ECC cannot correct does, lands nothing, and no later tile is issued. -/
def Obligations.ConvoyTilesAreIssued : Prop :=
  ∀ (core queue p : Nat) (e : CvEntry) (b : Bytes) (d : CvDesc) (x : Ctx) (s : State), physOf s core = p →
    cvHead (tget (coreOf s p).convoy [] queue) = some e → e.body = some b → CvDesc.parse b = d → tget? s.ctxs e.ctx = some x →
    (e.checked = false ∨ tagFree s core queue = false ∨ mayIssue s core queue x = false ∨ bit s.pwr.up core = false ∨ core ∈ s.fenced ∨
        (∃ k ∈ tileReads x d e.issued, bit s.pwr.up (16 + k) = false) →
      exec (.convoyTileIssue core queue) s = .next s) ∧
    (e.checked = true → tagFree s core queue = true → mayIssue s core queue x = true → bit s.pwr.up core = true → core ∉ s.fenced →
      (∀ k ∈ tileReads x d e.issued, bit s.pwr.up (16 + k) = true) → ∀ q, q = srcRuns s core x e d e.issued →
      (d.op = 1 → cvSource s core x e d e.issued = .ok (some (zeros (64 * codesPerRow d.fmt)), zeros 4096)) ∧
      (d.op = 0 → d.srcKind = 1 → (ramOf s p).bad = [] → cvSource s core x e d e.issued = .ok (none,
        (ramOf s p).read ((shareOf s e.ctx e.slot core).1 * 256 + d.srcOff % 2 ^ 24 + e.issued * 4096) 4096)) ∧
      (∀ st w, cvSource s core x e d e.issued = .ok (st, w) → (ramOf s q.1).bad = [] → (ramOf s q.1).soft = [] →
        ∃ u m, exec (.convoyTileIssue core queue) s = .next (voteCast u 5 16 m) ∧ m = (if entryT4 x d then 2 ^ 10 else 0) ∧
          tget (coreOf u p).convoy [] queue = (tget (coreOf s p).convoy [] queue).map (fun f => if f.id = e.id then
            { f with issued := f.issued + 1, tiles := f.tiles ++ [(f.issued, st, w)] } else f) ∧
          (∀ q, q ≠ queue → tget (coreOf u p).convoy [] q = tget (coreOf s p).convoy [] q) ∧
          (∀ q, q ≠ p → coreOf u q = coreOf s q) ∧ u = { cancelDescent (draw s) 5 16 m with cores := u.cores }) ∧
      (∀ r, cvSource s core x e d e.issued = .error r → objOf x d.srcHandle = none →
        ∃ t, exec (.convoyTileIssue core queue) s = .next t ∧ t = cvTileFail (eccScan (draw s) q.1 q.2).1 p queue e.id r ∧
          tget (coreOf t p).convoy [] queue = (tget (coreOf s p).convoy [] queue).map (fun f => if f.id = e.id then
            { f with issued := f.issued + 1, landed := f.landed + 1, discarded := f.discarded + 1,
                     stop := if f.stop.isSome then f.stop else some (.fault, r) } else f)) ∧
      (∀ a r, ramRead s p a 4096 = .error r → (p = 9 → r = .relSpanUe) ∧ (p ≠ 9 → r = .relDeckUe)))

/-- R205, R206, R208, R397: the oldest issued tile of a descriptor with a local window is offered to the window's home as
one write of the core, at the place that DST_OFF, PITCH and the tile's number give and with its clipped rows. Its code
strip goes before it as a write of its own. A tile is counted in the context's BYTES when its write has landed, and
not while it waits; a write that the window discards or refuses stops the descriptor with that status. With no tile
issued only jobs settle. R186, R209, R718, R719, R724: the oldest issued tile of a descriptor with an object, or with
a window of another device. A tile for an object is stored by the object's coding and counted as landed; a tile for a
set peer waits while 256 writes are unsettled, fails without a crossing or with the peer not up, and otherwise leaves
as a numbered write, after its code strip's, that is unsettled until its settlement comes. -/
def Obligations.ConvoyTilesLand : Prop :=
  (∀ (core queue p : Nat) (s : State), physOf s core = p →
    ((∀ e ∈ queueAll (coreOf s p) queue, e.tiles = []) → exec (.convoyTileLand core queue) s = .next (settleAll s)) ∧
    (∀ e b d x i st w rest, (queueAll (coreOf s p) queue).find? (fun e => !e.tiles.isEmpty) = some e →
      e.tiles = (i, st, w) :: rest → e.body = some b → CvDesc.parse b = d → tget? s.ctxs e.ctx = some x → d.dstKind = 1 →
      ∃ u l, u = modCv s p queue e.id (fun f => { f with tiles := f.tiles.drop 1 }) ∧ l = tilePlace d i w ∧
        (d.pitch = 0 → l = (d.dstOff + i * 4096, 0, 0, w)) ∧
        (d.pitch ≠ 0 → l.1 = d.dstOff + i / d.tpr * 64 * d.pitch + i % d.tpr * 64 ∧ l.2.1 = d.pitch ∧ l.2.2.1 = d.rowBytes i ∧
          l.2.2.2 = (List.range (min 64 (d.rows i))).flatMap (fun r => slice w (r * 64) (min 64 (d.rowBytes i)))) ∧
        (∀ v0 f0, d.codes = true → offerWrite u (cvHdr core e d (codePlace d i (st.getD []))) (.strip p queue e.id) = (v0, f0) →
          f0 ≠ .accepted → f0 ≠ .homeFull →
          exec (.convoyTileLand core queue) s = .next (settleAll (cvStop v0 p queue e.id f0.report.1 f0.report.2))) ∧
        (∀ h v0 v f, h = ({
              space := d.space, ctx := e.ctx, slot := e.slot, win := d.win, epoch := d.epoch, off := l.1,
              data := l.2.2.2, writer := .core core, pitch := l.2.1, row := l.2.2.1 } : WinHdr) →
            (d.codes = false ∧ v0 = u) ∨ (d.codes = true ∧ ∃ f0, (f0 = WriteFate.accepted ∨ f0 = WriteFate.homeFull) ∧
              offerWrite u (cvHdr core e d (codePlace d i (st.getD []))) (.strip p queue e.id) = (v0, f0)) →
            offerWrite v0 h (.convoy p queue e.id i) = (v, f) →
          (f = .accepted ∨ f = .homeFull → exec (.convoyTileLand core queue) s = .next (settleAll v)) ∧
          (f ≠ .accepted → f ≠ .homeFull →
            exec (.convoyTileLand core queue) s = .next (settleAll (cvStop v p queue e.id f.report.1 f.report.2)))) ∧
        (∀ (f : Flight) (v : State), findCv v p queue e.id = some e → f.src = .convoy p queue e.id i →
          tellLanded v f = cvLanded (countTile v e d i f.data.length) p queue e.id))) ∧
  (∀ (core queue p i : Nat) (e : CvEntry) (b : Bytes) (d : CvDesc) (x : Ctx) (st : Option Bytes) (w : Bytes)
      (rest : List (Nat × Option Bytes × Bytes)) (u s : State), physOf s core = p →
    (queueAll (coreOf s p) queue).find? (fun e => !e.tiles.isEmpty) = some e → e.tiles = (i, st, w) :: rest →
    e.body = some b → CvDesc.parse b = d → tget? s.ctxs e.ctx = some x →
    u = modCv s p queue e.id (fun f => { f with tiles := f.tiles.drop 1 }) →
    (d.dstKind = 0 → ∀ o v y, objOf x d.dstHandle = some o →
      objTileWrite u x o (d.dstOff + i) (decide (d.dstOff = 0) && decide (d.count = o.tilesM1 + 1) && i == 0) (st.getD []) w =
        .ok (v, y) →
      exec (.convoyTileLand core queue) s = .next (settleAll (countTile
        (cvLanded (modCtx v e.ctx (fun z => { z with objs := tset z.objs d.dstHandle y })) p queue e.id) e d i 4096))) ∧
    (d.dstKind = 2 → ∀ k, peerAt s d.device = k →
      (crossingTo s e.ctx d.device = none →
        exec (.convoyTileLand core queue) s = .next (settleAll (cvStop u p queue e.id .fault .setNoCrossing))) ∧
      (∀ dst, crossingTo s e.ctx d.device = some dst →
        (k.state ≠ .up → exec (.convoyTileLand core queue) s = .next (settleAll (cvStop u p queue e.id .timeout .setPeerLost))) ∧
        (k.state = .up → 256 < k.unsettled.length + (if d.codes then 2 else 1) →
          exec (.convoyTileLand core queue) s = .next (settleAll s)) ∧
        (k.state = .up → k.unsettled.length + (if d.codes then 2 else 1) ≤ 256 → ∀ v, v = (if d.codes then
            sendRemote u d.device (.strip p queue e.id) e.ctx dst (remotePayload s d e.ctx dst (codePlace d i (st.getD []))) else u) →
          exec (.convoyTileLand core queue) s = .next (settleAll (sendRemote v d.device (.convoy p queue e.id) e.ctx dst
            (remotePayload s d e.ctx dst (tilePlace d i w))))))))

/-- The block takes the command at the front of its queue and runs it on the state with the queue's rest; on an empty
queue it idles (the model's choice, assumption log, entry 12). -/
def Obligations.StepRunsTheFrontCommand : Prop :=
  (∀ (c : Instr) (rest : List Instr) (s : State), s.pending = c :: rest → step s = exec c { s with pending := rest }) ∧
  (∀ s : State, s.pending = [] → step s = .next (idle s))

/-- Every command answers a next state: the model stops on none (assumption log, entry 8 says what a command does whose
condition does not hold). -/
def Obligations.EveryCommandCompletes : Prop := ∀ (i : Instr) (s : State), Completes i s

/-- Every step keeps every byte memory of the block in canonical form: rising addresses, and no byte listed that equals
what an unlisted address reads as. -/
def Obligations.StepsKeepMemoryCanonical : Prop :=
  ∀ s t : State, Memory.wf s = true → step s = .next t → Memory.wf t = true

/-- R151, R764: right after reset nothing waits, the memories list nothing and are in canonical form, no context and no
session exists, and every lane, window and engine queue is empty. -/
def Obligations.ResetIsEmpty : Prop :=
  Memory.wf State.reset = true ∧ State.reset.pending = [] ∧ State.reset.ctxs = [] ∧ State.reset.net.sessions = [] ∧
  State.reset.wins = [] ∧ State.reset.cores = [] ∧ State.reset.lanes = [] ∧ State.reset.flights = [] ∧
  State.reset.span.mem = [] ∧ State.reset.decks = []

/-- R32: two INT4 elements share one byte; the lower index has bits [3:0] and the higher bits [7:4]. -/
def Obligations.Int4Elements : Prop :=
  ∀ (rd : Reader) (base n : Nat) (b : Byte), rd (base + n) 1 = [b] →
    elemAt rd 0 base (2 * n) < 16 ∧ elemAt rd 0 base (2 * n + 1) < 16 ∧
    ∀ i < 4, bit (elemAt rd 0 base (2 * n)) i = b.getLsbD i ∧ bit (elemAt rd 0 base (2 * n + 1)) i = b.getLsbD (i + 4)

/-- R218: zigzag. For an 8-bit element q, in two's complement, u is 2q for q ≥ 0 and −2q − 1 for q < 0, from 0 to 255, and
INT4 maps in the same way to 0 to 15. -/
def Obligations.Zigzag : Prop :=
  ∀ w p : Nat, w = 8 ∨ w = 4 → p < 2 ^ w →
    (0 ≤ toSigned w p → (Ibc.zigzag w p : Int) = 2 * toSigned w p) ∧
    (toSigned w p < 0 → (Ibc.zigzag w p : Int) = -2 * toSigned w p - 1) ∧
    Ibc.zigzag w p < 2 ^ w

/-- R214 to R225: what the Convoy compressor writes for a tile, the expander gives back, with its code strip, in IBC-W and
in IBC-A and for every tile format; a payload is a multiple of 16 bytes and never longer than the raw one. -/
def Obligations.BlockCodingIsLossless : Prop :=
  ∀ (coding fmt : Nat) (strip tile : Bytes), strip.length ≤ 256 → tile.length = 4096 →
    Ibc.expand coding fmt strip.length (Ibc.compress coding fmt strip tile) = some (strip, tile) ∧
    (Ibc.compress coding fmt strip tile).length % 16 = 0 ∧
    (Ibc.compress coding fmt strip tile).length ≤ (4 + strip.length + 4096 + 15) / 16 * 16

/-- R489: feature i of a reading that a frame of an enabled slot has brought is the reading less its offset, times its
scale, over 256, exactly, rounded to nearest even and saturated to INT8; offset and scale are signed 16-bit fields of
the weight record. -/
def Obligations.FeatureRule : Prop :=
  ∀ (i x : Nat) (r : Bytes) (p n : Int) (s : State), i < 16 → slotOn s (i / 4) = true → i / 4 ∈ s.grd.heard →
    s.grd.weights = some r → tget s.grd.readings 0 i = x →
    p = ((x : Int) - toSigned 16 (leNat (slice r (0x08 + 2 * i) 2))) * toSigned 16 (leNat (slice r (0x28 + 2 * i) 2)) →
    (2 * (256 * n - p).natAbs < 256 ∨ (2 * (256 * n - p).natAbs = 256 ∧ n % 2 = 0)) →
    grdFeature s i = max (-128) (min 127 n)
end

