-- ==== Sys2Proof/Laws/Exec.lean ====
section
/-!
SUPPORT. The dispatch, one equation per command: what `exec` does with a command is its meaning.
-/

namespace Sys2Proof.Machine

@[simp] theorem exec_helloOpen (rq : Req) (maxPayload : Nat) (events : Bool) (s : State) : exec (.helloOpen rq maxPayload events) s = execHelloOpen rq maxPayload events s := rfl
@[simp] theorem exec_helloProve (rq : Req) (keyDigest : Bytes) (signature : Bytes) (s : State) : exec (.helloProve rq keyDigest signature) s = execHelloProve rq keyDigest signature s := rfl
@[simp] theorem exec_helloRefresh (rq : Req) (s : State) : exec (.helloRefresh rq) s = execHelloRefresh rq s := rfl
@[simp] theorem exec_helloEnd (rq : Req) (s : State) : exec (.helloEnd rq) s = execHelloEnd rq s := rfl
@[simp] theorem exec_deviceInfo (rq : Req) (s : State) : exec (.deviceInfo rq) s = execDeviceInfo rq s := rfl
@[simp] theorem exec_regRead (rq : Req) (addr : Nat) (count : Nat) (s : State) : exec (.regRead rq addr count) s = execRegRead rq addr count s := rfl
@[simp] theorem exec_regWrite (rq : Req) (addr : Nat) (values : List Word) (s : State) : exec (.regWrite rq addr values) s = execRegWrite rq addr values s := rfl
@[simp] theorem exec_powerVoteCast (rq : Req) (client : Nat) (domains : Nat) (s : State) : exec (.powerVoteCast rq client domains) s = execPowerVoteCast rq client domains s := rfl
@[simp] theorem exec_powerVoteWithdraw (rq : Req) (client : Nat) (domains : Nat) (s : State) : exec (.powerVoteWithdraw rq client domains) s = execPowerVoteWithdraw rq client domains s := rfl
@[simp] theorem exec_powerVoteEnter (rq : Req) (client : Nat) (target : Nat) (s : State) : exec (.powerVoteEnter rq client target) s = execPowerVoteEnter rq client target s := rfl
@[simp] theorem exec_powerStateGet (rq : Req) (s : State) : exec (.powerStateGet rq) s = execPowerStateGet rq s := rfl
@[simp] theorem exec_ctxCreate (rq : Req) (params : CtxParams) (s : State) : exec (.ctxCreate rq params) s = execCtxCreate rq params s := rfl
@[simp] theorem exec_ctxDestroy (rq : Req) (s : State) : exec (.ctxDestroy rq) s = execCtxDestroy rq s := rfl
@[simp] theorem exec_ctxQuotaSet (rq : Req) (quotas : Quotas) (s : State) : exec (.ctxQuotaSet rq quotas) s = execCtxQuotaSet rq quotas s := rfl
@[simp] theorem exec_objAlloc (rq : Req) (flags : Nat) (tilesM1 : Nat) (storedM1 : Nat) (loc : Nat) (s : State) : exec (.objAlloc rq flags tilesM1 storedM1 loc) s = execObjAlloc rq flags tilesM1 storedM1 loc s := rfl
@[simp] theorem exec_objFree (rq : Req) (handle : Nat) (s : State) : exec (.objFree rq handle) s = execObjFree rq handle s := rfl
@[simp] theorem exec_objWrite (rq : Req) (handle : Nat) (off : Nat) (data : Bytes) (s : State) : exec (.objWrite rq handle off data) s = execObjWrite rq handle off data s := rfl
@[simp] theorem exec_objRead (rq : Req) (handle : Nat) (len : Nat) (off : Nat) (s : State) : exec (.objRead rq handle len off) s = execObjRead rq handle len off s := rfl
@[simp] theorem exec_objPlacePlace (rq : Req) (handle : Nat) (tier : Nat) (core : Nat) (s : State) : exec (.objPlacePlace rq handle tier core) s = execObjPlacePlace rq handle tier core s := rfl
@[simp] theorem exec_objPlaceRemove (rq : Req) (handle : Nat) (s : State) : exec (.objPlaceRemove rq handle) s = execObjPlaceRemove rq handle s := rfl
@[simp] theorem exec_objPlacePin (rq : Req) (handle : Nat) (s : State) : exec (.objPlacePin rq handle) s = execObjPlacePin rq handle s := rfl
@[simp] theorem exec_objPlaceUnpin (rq : Req) (handle : Nat) (s : State) : exec (.objPlaceUnpin rq handle) s = execObjPlaceUnpin rq handle s := rfl
@[simp] theorem exec_imageLoad (rq : Req) (image : Nat) (list : Nat) (bindCount : Nat) (handles : List Nat) (s : State) : exec (.imageLoad rq image list bindCount handles) s = execImageLoad rq image list bindCount handles s := rfl
@[simp] theorem exec_imageUnload (rq : Req) (slot : Nat) (s : State) : exec (.imageUnload rq slot) s = execImageUnload rq slot s := rfl
@[simp] theorem exec_run (rq : Req) (slot : Nat) (param : Nat) (s : State) : exec (.run rq slot param) s = execRun rq slot param s := rfl
@[simp] theorem exec_runCancel (rq : Req) (s : State) : exec (.runCancel rq) s = execRunCancel rq s := rfl
@[simp] theorem exec_preemptYield (rq : Req) (s : State) : exec (.preemptYield rq) s = execPreemptYield rq s := rfl
@[simp] theorem exec_preemptPark (rq : Req) (s : State) : exec (.preemptPark rq) s = execPreemptPark rq s := rfl
@[simp] theorem exec_streamOpenNew (rq : Req) (args : StreamArgs) (s : State) : exec (.streamOpenNew rq args) s = execStreamOpenNew rq args s := rfl
@[simp] theorem exec_streamOpenResume (rq : Req) (args : StreamArgs) (s : State) : exec (.streamOpenResume rq args) s = execStreamOpenResume rq args s := rfl
@[simp] theorem exec_streamClosePause (rq : Req) (index : Nat) (s : State) : exec (.streamClosePause rq index) s = execStreamClosePause rq index s := rfl
@[simp] theorem exec_streamCloseEnd (rq : Req) (index : Nat) (s : State) : exec (.streamCloseEnd rq index) s = execStreamCloseEnd rq index s := rfl
@[simp] theorem exec_streamReset (rq : Req) (index : Nat) (s : State) : exec (.streamReset rq index) s = execStreamReset rq index s := rfl
@[simp] theorem exec_kvSeqFork (rq : Req) (child : Nat) (parent : Nat) (pfx : Nat) (geom : KvGeom) (s : State) : exec (.kvSeqFork rq child parent pfx geom) s = execKvSeqFork rq child parent pfx geom s := rfl
@[simp] theorem exec_kvSeqFree (rq : Req) (seq : Nat) (s : State) : exec (.kvSeqFree rq seq) s = execKvSeqFree rq seq s := rfl
@[simp] theorem exec_winOpen (who : WinBy) (space : Nat) (win : Nat) (slot : Nat) (base : Nat) (limit : Nat) (writers : Nat) (threshold : Nat) (s : State) : exec (.winOpen who space win slot base limit writers threshold) s = execWinOpen who space win slot base limit writers threshold s := rfl
@[simp] theorem exec_winClose (who : WinBy) (space : Nat) (win : Nat) (slot : Nat) (s : State) : exec (.winClose who space win slot) s = execWinClose who space win slot s := rfl
@[simp] theorem exec_winWrite (rq : Req) (space : Nat) (win : Nat) (epoch : Nat) (slot : Nat) (off : Nat) (data : Bytes) (s : State) : exec (.winWrite rq space win epoch slot off data) s = execWinWrite rq space win epoch slot off data s := rfl
@[simp] theorem exec_laneCfg (rq : Req) (lane : Nat) (mode : Nat) (enable : Nat) (level : Nat) (idle : Nat) (s : State) : exec (.laneCfg rq lane mode enable level idle) s = execLaneCfg rq lane mode enable level idle s := rfl
@[simp] theorem exec_laneFlush (rq : Req) (lane : Nat) (s : State) : exec (.laneFlush rq lane) s = execLaneFlush rq lane s := rfl
@[simp] theorem exec_sensorCfgBind (rq : Req) (isp : Nat) (owner : Nat) (s : State) : exec (.sensorCfgBind rq isp owner) s = execSensorCfgBind rq isp owner s := rfl
@[simp] theorem exec_sensorCfgRegWrite (rq : Req) (addr : Nat) (values : List Word) (s : State) : exec (.sensorCfgRegWrite rq addr values) s = execSensorCfgRegWrite rq addr values s := rfl
@[simp] theorem exec_i3cXfer (rq : Req) (xfer : I3cArgs) (bus : I3cBus) (s : State) : exec (.i3cXfer rq xfer bus) s = execI3cXfer rq xfer bus s := rfl
@[simp] theorem exec_audioCfgBind (rq : Req) (owner : Nat) (s : State) : exec (.audioCfgBind rq owner) s = execAudioCfgBind rq owner s := rfl
@[simp] theorem exec_audioCfgRegWrite (rq : Req) (addr : Nat) (values : List Word) (s : State) : exec (.audioCfgRegWrite rq addr values) s = execAudioCfgRegWrite rq addr values s := rfl
@[simp] theorem exec_cascade (rq : Req) (entry : Nat) (mask : Nat) (space : Nat) (win : Nat) (linger : Nat) (s : State) : exec (.cascade rq entry mask space win linger) s = execCascade rq entry mask space win linger s := rfl
@[simp] theorem exec_wakePhraseLoad (rq : Req) (phrase : Nat) (handle : Nat) (len : Nat) (off : Nat) (s : State) : exec (.wakePhraseLoad rq phrase handle len off) s = execWakePhraseLoad rq phrase handle len off s := rfl
@[simp] theorem exec_attest (rq : Req) (nonce : Bytes) (off : Nat) (len : Nat) (s : State) : exec (.attest rq nonce off len) s = execAttest rq nonce off len s := rfl
@[simp] theorem exec_accountRead (rq : Req) (s : State) : exec (.accountRead rq) s = execAccountRead rq s := rfl
@[simp] theorem exec_odometerRead (rq : Req) (cursor : Nat) (len : Nat) (s : State) : exec (.odometerRead rq cursor len) s = execOdometerRead rq cursor len s := rfl
@[simp] theorem exec_countersRead (rq : Req) (select : Nat) (s : State) : exec (.countersRead rq select) s = execCountersRead rq select s := rfl
@[simp] theorem exec_fwStage (rq : Req) (target : Nat) (total : Nat) (off : Nat) (data : Bytes) (s : State) : exec (.fwStage rq target total off data) s = execFwStage rq target total off data s := rfl
@[simp] theorem exec_fwActivateArm (rq : Req) (target : Nat) (cores : Nat) (s : State) : exec (.fwActivateArm rq target cores) s = execFwActivateArm rq target cores s := rfl
@[simp] theorem exec_fwActivateConfirm (rq : Req) (target : Nat) (s : State) : exec (.fwActivateConfirm rq target) s = execFwActivateConfirm rq target s := rfl
@[simp] theorem exec_fwActivateDisarm (rq : Req) (target : Nat) (s : State) : exec (.fwActivateDisarm rq target) s = execFwActivateDisarm rq target s := rfl
@[simp] theorem exec_coreFence (rq : Req) (core : Nat) (s : State) : exec (.coreFence rq core) s = execCoreFence rq core s := rfl
@[simp] theorem exec_coreRepair (rq : Req) (core : Nat) (sound : Bool) (s : State) : exec (.coreRepair rq core sound) s = execCoreRepair rq core sound s := rfl
@[simp] theorem exec_loadWeights (rq : Req) (weights : Bytes) (s : State) : exec (.loadWeights rq weights) s = execLoadWeights rq weights s := rfl
@[simp] theorem exec_release (rq : Req) (outputs : Nat) (s : State) : exec (.release rq outputs) s = execRelease rq outputs s := rfl
@[simp] theorem exec_deepOverride (rq : Req) (s : State) : exec (.deepOverride rq) s = execDeepOverride rq s := rfl
@[simp] theorem exec_commit (page : Nat) (s : State) : exec (.commit page) s = execCommit page s := rfl
@[simp] theorem exec_safePointCommit (page : Nat) (s : State) : exec (.safePointCommit page) s = execSafePointCommit page s := rfl
@[simp] theorem exec_enable (page : Nat) (s : State) : exec (.enable page) s = execEnable page s := rfl
@[simp] theorem exec_enableClear (page : Nat) (s : State) : exec (.enableClear page) s = execEnableClear page s := rfl
@[simp] theorem exec_ddrCtrlEnable (s : State) : exec (.ddrCtrlEnable) s = execDdrCtrlEnable s := rfl
@[simp] theorem exec_grdEnable (s : State) : exec (.grdEnable) s = execGrdEnable s := rfl
@[simp] theorem exec_grdDisable (s : State) : exec (.grdDisable) s = execGrdDisable s := rfl
@[simp] theorem exec_ispContextEnable (isp : Nat) (s : State) : exec (.ispContextEnable isp) s = execIspContextEnable isp s := rfl
@[simp] theorem exec_pcieEnable (link : PcieLink) (s : State) : exec (.pcieEnable link) s = execPcieEnable link s := rfl
@[simp] theorem exec_tlaogZeroise (value : Word) (s : State) : exec (.tlaogZeroise value) s = execTlaogZeroise value s := rfl
@[simp] theorem exec_tlaogCakData (value : Word) (s : State) : exec (.tlaogCakData value) s = execTlaogCakData value s := rfl
@[simp] theorem exec_rstWarm (rq : Req) (s : State) : exec (.rstWarm rq) s = execRstWarm rq s := rfl
@[simp] theorem exec_rstCfgSave (rq : Req) (s : State) : exec (.rstCfgSave rq) s = execRstCfgSave rq s := rfl
@[simp] theorem exec_rstRecSel (rq : Req) (value : Word) (s : State) : exec (.rstRecSel rq value) s = execRstRecSel rq value s := rfl
@[simp] theorem exec_rstRecData (rq : Req) (value : Word) (s : State) : exec (.rstRecData rq value) s = execRstRecData rq value s := rfl
@[simp] theorem exec_datagramReceive (dgram : Datagram) (s : State) : exec (.datagramReceive dgram) s = execDatagramReceive dgram s := rfl
@[simp] theorem exec_commandDispatch (s : State) : exec (.commandDispatch) s = execCommandDispatch s := rfl
@[simp] theorem exec_outboundRetransmit (sess : Nat) (num : Nat) (s : State) : exec (.outboundRetransmit sess num) s = execOutboundRetransmit sess num s := rfl
@[simp] theorem exec_sessionIdleTimeout (sess : Nat) (s : State) : exec (.sessionIdleTimeout sess) s = execSessionIdleTimeout sess s := rfl
@[simp] theorem exec_eventsLostReport (s : State) : exec (.eventsLostReport) s = execEventsLostReport s := rfl
@[simp] theorem exec_ethLinkUp (port : Nat) (link : LinkUp) (s : State) : exec (.ethLinkUp port link) s = execEthLinkUp port link s := rfl
@[simp] theorem exec_ethLinkDown (port : Nat) (s : State) : exec (.ethLinkDown port) s = execEthLinkDown port s := rfl
@[simp] theorem exec_engineDescriptorPush (core : Nat) (slot : Nat) (group : Nat) (off : Nat) (s : State) : exec (.engineDescriptorPush core slot group off) s = execEngineDescriptorPush core slot group off s := rfl
@[simp] theorem exec_engineDescriptorStart (core : Nat) (group : Nat) (s : State) : exec (.engineDescriptorStart core group) s = execEngineDescriptorStart core group s := rfl
@[simp] theorem exec_engineDescriptorComplete (core : Nat) (group : Nat) (s : State) : exec (.engineDescriptorComplete core group) s = execEngineDescriptorComplete core group s := rfl
@[simp] theorem exec_coreJunctionBeat (core : Nat) (s : State) : exec (.coreJunctionBeat core) s = execCoreJunctionBeat core s := rfl
@[simp] theorem exec_viewFence (core : Nat) (slot : Nat) (s : State) : exec (.viewFence core slot) s = execViewFence core slot s := rfl
@[simp] theorem exec_windowWriteCheck (hdr : WinHdr) (s : State) : exec (.windowWriteCheck hdr) s = execWindowWriteCheck hdr s := rfl
@[simp] theorem exec_windowWriteLand (flight : Nat) (s : State) : exec (.windowWriteLand flight) s = execWindowWriteLand flight s := rfl
@[simp] theorem exec_winWait (core : Nat) (slot : Nat) (space : Nat) (win : Nat) (threshold : Option Nat) (s : State) : exec (.winWait core slot space win threshold) s = execWinWait core slot space win threshold s := rfl
@[simp] theorem exec_winCloseComplete (space : Nat) (entry : Nat) (s : State) : exec (.winCloseComplete space entry) s = execWinCloseComplete space entry s := rfl
@[simp] theorem exec_convoyDescriptorPush (core : Nat) (slot : Nat) (off : Nat) (s : State) : exec (.convoyDescriptorPush core slot off) s = execConvoyDescriptorPush core slot off s := rfl
@[simp] theorem exec_convoyDescriptorCheck (core : Nat) (queue : Nat) (s : State) : exec (.convoyDescriptorCheck core queue) s = execConvoyDescriptorCheck core queue s := rfl
@[simp] theorem exec_convoyTileIssue (core : Nat) (queue : Nat) (s : State) : exec (.convoyTileIssue core queue) s = execConvoyTileIssue core queue s := rfl
@[simp] theorem exec_convoyTileLand (core : Nat) (queue : Nat) (s : State) : exec (.convoyTileLand core queue) s = execConvoyTileLand core queue s := rfl
@[simp] theorem exec_convoyDescriptorComplete (core : Nat) (queue : Nat) (s : State) : exec (.convoyDescriptorComplete core queue) s = execConvoyDescriptorComplete core queue s := rfl
@[simp] theorem exec_spanBankPowerUp (bank : Nat) (s : State) : exec (.spanBankPowerUp bank) s = execSpanBankPowerUp bank s := rfl
@[simp] theorem exec_zeroFillComplete (ctx : Nat) (handle : Nat) (s : State) : exec (.zeroFillComplete ctx handle) s = execZeroFillComplete ctx handle s := rfl
@[simp] theorem exec_keyRetirement (ctx : Nat) (s : State) : exec (.keyRetirement ctx) s = execKeyRetirement ctx s := rfl
@[simp] theorem exec_prefetchIssue (ctx : Nat) (slot : Nat) (s : State) : exec (.prefetchIssue ctx slot) s = execPrefetchIssue ctx slot s := rfl
@[simp] theorem exec_stageBoundary (core : Nat) (slot : Nat) (s : State) : exec (.stageBoundary core slot) s = execStageBoundary core slot s := rfl
@[simp] theorem exec_preemptionPoint (core : Nat) (slot : Nat) (s : State) : exec (.preemptionPoint core slot) s = execPreemptionPoint core slot s := rfl
@[simp] theorem exec_phaseEnd (ctx : Nat) (succ : Option Nat) (s : State) : exec (.phaseEnd ctx succ) s = execPhaseEnd ctx succ s := rfl
@[simp] theorem exec_reshardStart (ctx : Nat) (s : State) : exec (.reshardStart ctx) s = execReshardStart ctx s := rfl
@[simp] theorem exec_reshardStepComplete (ctx : Nat) (s : State) : exec (.reshardStepComplete ctx) s = execReshardStepComplete ctx s := rfl
@[simp] theorem exec_jctBeatSend (core : Nat) (slot : Nat) (group : Nat) (row : Nat) (off : Nat) (s : State) : exec (.jctBeatSend core slot group row off) s = execJctBeatSend core slot group row off s := rfl
@[simp] theorem exec_jctBeatAccept (s : State) : exec (.jctBeatAccept) s = execJctBeatAccept s := rfl
@[simp] theorem exec_jctRowWrite (ctx : Nat) (group : Nat) (row : Nat) (s : State) : exec (.jctRowWrite ctx group row) s = execJctRowWrite ctx group row s := rfl
@[simp] theorem exec_pipeJctStuck (ctx : Nat) (group : Nat) (s : State) : exec (.pipeJctStuck ctx group) s = execPipeJctStuck ctx group s := rfl
@[simp] theorem exec_kvWalkRequest (core : Nat) (slot : Nat) (off : Nat) (s : State) : exec (.kvWalkRequest core slot off) s = execKvWalkRequest core slot off s := rfl
@[simp] theorem exec_scanChunkRequest (core : Nat) (slot : Nat) (off : Nat) (s : State) : exec (.scanChunkRequest core slot off) s = execScanChunkRequest core slot off s := rfl
@[simp] theorem exec_scanChunkComplete (core : Nat) (slot : Nat) (s : State) : exec (.scanChunkComplete core slot) s = execScanChunkComplete core slot s := rfl
@[simp] theorem exec_anchorWritebackLand (ctx : Nat) (index : Nat) (s : State) : exec (.anchorWritebackLand ctx index) s = execAnchorWritebackLand ctx index s := rfl
@[simp] theorem exec_quantumExpire (s : State) : exec (.quantumExpire) s = execQuantumExpire s := rfl
@[simp] theorem exec_jobComplete (ctx : Nat) (s : State) : exec (.jobComplete ctx) s = execJobComplete ctx s := rfl
@[simp] theorem exec_bringIn (ctx : Nat) (s : State) : exec (.bringIn ctx) s = execBringIn ctx s := rfl
@[simp] theorem exec_schedNoBoundary (ctx : Nat) (s : State) : exec (.schedNoBoundary ctx) s = execSchedNoBoundary ctx s := rfl
@[simp] theorem exec_ctxRemoteTimeout (ctx : Nat) (core : Nat) (slot : Nat) (s : State) : exec (.ctxRemoteTimeout ctx core slot) s = execCtxRemoteTimeout ctx core slot s := rfl
@[simp] theorem exec_csiFrameStart (rx : Nat) (head : CsiHead) (frame : Nat) (s : State) : exec (.csiFrameStart rx head frame) s = execCsiFrameStart rx head frame s := rfl
@[simp] theorem exec_csiLine (rx : Nat) (vc : Nat) (dt : Nat) (data : Bytes) (errs : Nat) (s : State) : exec (.csiLine rx vc dt data errs) s = execCsiLine rx vc dt data errs s := rfl
@[simp] theorem exec_csiFrameEnd (rx : Nat) (head : CsiHead) (s : State) : exec (.csiFrameEnd rx head) s = execCsiFrameEnd rx head s := rfl
@[simp] theorem exec_camPresenceChange (rx : Nat) (lanes : CamLanes) (s : State) : exec (.camPresenceChange rx lanes) s = execCamPresenceChange rx lanes s := rfl
@[simp] theorem exec_camMuteOn (s : State) : exec (.camMuteOn) s = execCamMuteOn s := rfl
@[simp] theorem exec_camMuteOff (s : State) : exec (.camMuteOff) s = execCamMuteOff s := rfl
@[simp] theorem exec_ispUnitStart (isp : Nat) (s : State) : exec (.ispUnitStart isp) s = execIspUnitStart isp s := rfl
@[simp] theorem exec_ispUnitComplete (isp : Nat) (s : State) : exec (.ispUnitComplete isp) s = execIspUnitComplete isp s := rfl
@[simp] theorem exec_ispRotaSlotEnd (s : State) : exec (.ispRotaSlotEnd) s = execIspRotaSlotEnd s := rfl
@[simp] theorem exec_i3cIbi (ctrl : Nat) (addr : Nat) (payload : Bytes) (s : State) : exec (.i3cIbi ctrl addr payload) s = execI3cIbi ctrl addr payload s := rfl
@[simp] theorem exec_i3cHotJoin (ctrl : Nat) (s : State) : exec (.i3cHotJoin ctrl) s = execI3cHotJoin ctrl s := rfl
@[simp] theorem exec_spotterFrameEnd (pdm : List Pdm) (s : State) : exec (.spotterFrameEnd pdm) s = execSpotterFrameEnd pdm s := rfl
@[simp] theorem exec_holdMaxExpire (s : State) : exec (.holdMaxExpire) s = execHoldMaxExpire s := rfl
@[simp] theorem exec_audioBlockEnd (path : Nat) (time : Nat) (s : State) : exec (.audioBlockEnd path time) s = execAudioBlockEnd path time s := rfl
@[simp] theorem exec_prerollDelivery (s : State) : exec (.prerollDelivery) s = execPrerollDelivery s := rfl
@[simp] theorem exec_micMuteOn (s : State) : exec (.micMuteOn) s = execMicMuteOn s := rfl
@[simp] theorem exec_micMuteOff (s : State) : exec (.micMuteOff) s = execMicMuteOff s := rfl
@[simp] theorem exec_settlingEnd (s : State) : exec (.settlingEnd) s = execSettlingEnd s := rfl
@[simp] theorem exec_cascadeDone (entry : Nat) (s : State) : exec (.cascadeDone entry) s = execCascadeDone entry s := rfl
@[simp] theorem exec_lingerExpire (entry : Nat) (s : State) : exec (.lingerExpire entry) s = execLingerExpire entry s := rfl
@[simp] theorem exec_sensorPoll (slot : Nat) (s : State) : exec (.sensorPoll slot) s = execSensorPoll slot s := rfl
@[simp] theorem exec_sensorFrame (slot : Nat) (data : Bytes) (s : State) : exec (.sensorFrame slot data) s = execSensorFrame slot data s := rfl
@[simp] theorem exec_grdInActive (levels : Nat) (s : State) : exec (.grdInActive levels) s = execGrdInActive levels s := rfl
@[simp] theorem exec_grdStale (slot : Nat) (s : State) : exec (.grdStale slot) s = execGrdStale slot s := rfl
@[simp] theorem exec_heartbeatToggle (s : State) : exec (.heartbeatToggle) s = execHeartbeatToggle s := rfl
@[simp] theorem exec_grdParityCheck (ok : Bool) (s : State) : exec (.grdParityCheck ok) s = execGrdParityCheck ok s := rfl
@[simp] theorem exec_gclkGap (s : State) : exec (.gclkGap) s = execGclkGap s := rfl
@[simp] theorem exec_dockNEdge (level : Bool) (s : State) : exec (.dockNEdge level) s = execDockNEdge level s := rfl
@[simp] theorem exec_lanePut (core : Nat) (slot : Nat) (lane : Nat) (off : Nat) (len : Nat) (close : Bool) (s : State) : exec (.lanePut core slot lane off len close) s = execLanePut core slot lane off len close s := rfl
@[simp] theorem exec_laneHandover (lane : Nat) (s : State) : exec (.laneHandover lane) s = execLaneHandover lane s := rfl
@[simp] theorem exec_laneIdleExpire (lane : Nat) (s : State) : exec (.laneIdleExpire lane) s = execLaneIdleExpire lane s := rfl
@[simp] theorem exec_ddrTrainingComplete (failed : Nat) (step : Nat) (s : State) : exec (.ddrTrainingComplete failed step) s = execDdrTrainingComplete failed step s := rfl
@[simp] theorem exec_ddrMaintenanceFrame (s : State) : exec (.ddrMaintenanceFrame) s = execDdrMaintenanceFrame s := rfl
@[simp] theorem exec_ddrRequestPresent (req : DdrReq) (s : State) : exec (.ddrRequestPresent req) s = execDdrRequestPresent req s := rfl
@[simp] theorem exec_ddrRequestComplete (channel : Nat) (id : Nat) (ecc : Ecc) (s : State) : exec (.ddrRequestComplete channel id ecc) s = execDdrRequestComplete channel id ecc s := rfl
@[simp] theorem exec_refreshWindowStart (s : State) : exec (.refreshWindowStart) s = execRefreshWindowStart s := rfl
@[simp] theorem exec_patrolScrubRead (channel : Nat) (ecc : Ecc) (s : State) : exec (.patrolScrubRead channel ecc) s = execPatrolScrubRead channel ecc s := rfl
@[simp] theorem exec_domainDelayExpire (domain : Nat) (s : State) : exec (.domainDelayExpire domain) s = execDomainDelayExpire domain s := rfl
@[simp] theorem exec_coreIdleGate (core : Nat) (s : State) : exec (.coreIdleGate core) s = execCoreIdleGate core s := rfl
@[simp] theorem exec_corePowerUpComplete (core : Nat) (s : State) : exec (.corePowerUpComplete core) s = execCorePowerUpComplete core s := rfl
@[simp] theorem exec_wakeNFall (s : State) : exec (.wakeNFall) s = execWakeNFall s := rfl
@[simp] theorem exec_deepTimerExpire (s : State) : exec (.deepTimerExpire) s = execDeepTimerExpire s := rfl
@[simp] theorem exec_deepExit (ok : Bool) (s : State) : exec (.deepExit ok) s = execDeepExit ok s := rfl
@[simp] theorem exec_tableRestore (s : State) : exec (.tableRestore) s = execTableRestore s := rfl
@[simp] theorem exec_int4Limit (above : Bool) (s : State) : exec (.int4Limit above) s = execInt4Limit above s := rfl
@[simp] theorem exec_envelopeGlide (s : State) : exec (.envelopeGlide) s = execEnvelopeGlide s := rfl
@[simp] theorem exec_thermN (temp : Nat) (s : State) : exec (.thermN temp) s = execThermN temp s := rfl
@[simp] theorem exec_thermalTrip (s : State) : exec (.thermalTrip) s = execThermalTrip s := rfl
@[simp] theorem exec_secTamper (s : State) : exec (.secTamper) s = execSecTamper s := rfl
@[simp] theorem exec_periodicSelfTest (pass : Bool) (s : State) : exec (.periodicSelfTest pass) s = execPeriodicSelfTest pass s := rfl
@[simp] theorem exec_mgmtWatchdogExpire (s : State) : exec (.mgmtWatchdogExpire) s = execMgmtWatchdogExpire s := rfl
@[simp] theorem exec_autoFence (core : Nat) (cause : Nat) (s : State) : exec (.autoFence core cause) s = execAutoFence core cause s := rfl
@[simp] theorem exec_trialTimeout (s : State) : exec (.trialTimeout) s = execTrialTimeout s := rfl
@[simp] theorem exec_hourUnitTick (s : State) : exec (.hourUnitTick) s = execHourUnitTick s := rfl
@[simp] theorem exec_odometerSample (id : Nat) (value : Nat) (s : State) : exec (.odometerSample id value) s = execOdometerSample id value s := rfl
@[simp] theorem exec_odometerPersist (s : State) : exec (.odometerPersist) s = execOdometerPersist s := rfl
@[simp] theorem exec_setSessionOpen (peer : Nat) (s : State) : exec (.setSessionOpen peer) s = execSetSessionOpen peer s := rfl
@[simp] theorem exec_setRefresh (peer : Nat) (s : State) : exec (.setRefresh peer) s = execSetRefresh peer s := rfl
@[simp] theorem exec_setPeerDown (peer : Nat) (s : State) : exec (.setPeerDown peer) s = execSetPeerDown peer s := rfl
@[simp] theorem exec_crossingInstall (k : Nat) (a : Word) (b : Word) (s : State) : exec (.crossingInstall k a b) s = execCrossingInstall k a b s := rfl
@[simp] theorem exec_remoteWriteReceive (peer : Nat) (seq : Nat) (payload : Bytes) (s : State) : exec (.remoteWriteReceive peer seq payload) s = execRemoteWriteReceive peer seq payload s := rfl
@[simp] theorem exec_settlementPacket (peer : Nat) (s : State) : exec (.settlementPacket peer) s = execSettlementPacket peer s := rfl
@[simp] theorem exec_remoteWriteRetransmit (peer : Nat) (s : State) : exec (.remoteWriteRetransmit peer) s = execRemoteWriteRetransmit peer s := rfl
@[simp] theorem exec_settlementReceive (peer : Nat) (link : Nat) (report : Bytes) (s : State) : exec (.settlementReceive peer link report) s = execSettlementReceive peer link report s := rfl
@[simp] theorem exec_attestReportTimeout (ctx : Nat) (peer : Nat) (s : State) : exec (.attestReportTimeout ctx peer) s = execAttestReportTimeout ctx peer s := rfl
@[simp] theorem exec_porstN (boot : BootInput) (s : State) : exec (.porstN boot) s = execPorstN boot s := rfl
@[simp] theorem exec_refclkInterruption (s : State) : exec (.refclkInterruption) s = execRefclkInterruption s := rfl
@[simp] theorem exec_pllLoss (pll : Nat) (s : State) : exec (.pllLoss pll) s = execPllLoss pll s := rfl
@[simp] theorem exec_pcieLinkDown (s : State) : exec (.pcieLinkDown) s = execPcieLinkDown s := rfl
@[simp] theorem exec_pcieLinkUp (gen : Nat) (width : Nat) (s : State) : exec (.pcieLinkUp gen width) s = execPcieLinkUp gen width s := rfl
@[simp] theorem exec_porstNAsserted (s : State) : exec (.porstNAsserted) s = execPorstNAsserted s := rfl
@[simp] theorem exec_refclkStable (s : State) : exec (.refclkStable) s = execRefclkStable s := rfl
@[simp] theorem exec_deckIslandPowerUp (core : Nat) (s : State) : exec (.deckIslandPowerUp core) s = execDeckIslandPowerUp core s := rfl
@[simp] theorem exec_pwrMainEnMinimumLowEnd (s : State) : exec (.pwrMainEnMinimumLowEnd) s = execPwrMainEnMinimumLowEnd s := rfl
@[simp] theorem exec_pwrOnMinimumLowEnd (s : State) : exec (.pwrOnMinimumLowEnd) s = execPwrOnMinimumLowEnd s := rfl

end Sys2Proof.Machine
end

