-- ==== Sys2Proof/Laws/State.lean ====
section
/-!
SUPPORT. What each named update of the state leaves alone, one lemma per field, so that no later proof unfolds a
record update: the updates that are one record update first, and then the packets, replies and events, which change
the Kraros layer, the counter of draws and the meters of `rel` alone.
-/

namespace Sys2Proof.Machine

@[simp] theorem draw_pending (s : State) : (draw s).pending = s.pending := rfl
@[simp] theorem draw_net (s : State) : (draw s).net = s.net := rfl
@[simp] theorem draw_regs (s : State) : (draw s).regs = s.regs := rfl
@[simp] theorem draw_ctxs (s : State) : (draw s).ctxs = s.ctxs := rfl
@[simp] theorem draw_wins (s : State) : (draw s).wins = s.wins := rfl
@[simp] theorem draw_flights (s : State) : (draw s).flights = s.flights := rfl
@[simp] theorem draw_nextFlight (s : State) : (draw s).nextFlight = s.nextFlight := rfl
@[simp] theorem draw_waitHdrs (s : State) : (draw s).waitHdrs = s.waitHdrs := rfl
@[simp] theorem draw_decks (s : State) : (draw s).decks = s.decks := rfl
@[simp] theorem draw_span (s : State) : (draw s).span = s.span := rfl
@[simp] theorem draw_t3 (s : State) : (draw s).t3 = s.t3 := rfl
@[simp] theorem draw_t4 (s : State) : (draw s).t4 = s.t4 := rfl
@[simp] theorem draw_sealedRegions (s : State) : (draw s).sealedRegions = s.sealedRegions := rfl
@[simp] theorem draw_cores (s : State) : (draw s).cores = s.cores := rfl
@[simp] theorem draw_coreMap (s : State) : (draw s).coreMap = s.coreMap := rfl
@[simp] theorem draw_sched (s : State) : (draw s).sched = s.sched := rfl
@[simp] theorem draw_jct (s : State) : (draw s).jct = s.jct := rfl
@[simp] theorem draw_lanes (s : State) : (draw s).lanes = s.lanes := rfl
@[simp] theorem draw_fenced (s : State) : (draw s).fenced = s.fenced := rfl
@[simp] theorem draw_sec (s : State) : (draw s).sec = s.sec := rfl
@[simp] theorem draw_rst (s : State) : (draw s).rst = s.rst := rfl
@[simp] theorem draw_set (s : State) : (draw s).set = s.set := rfl
@[simp] theorem draw_ddr (s : State) : (draw s).ddr = s.ddr := rfl
@[simp] theorem draw_pcie (s : State) : (draw s).pcie = s.pcie := rfl
@[simp] theorem draw_pwr (s : State) : (draw s).pwr = s.pwr := rfl
@[simp] theorem draw_fwWaits (s : State) : (draw s).fwWaits = s.fwWaits := rfl
@[simp] theorem draw_cam (s : State) : (draw s).cam = s.cam := rfl
@[simp] theorem draw_aud (s : State) : (draw s).aud = s.aud := rfl
@[simp] theorem draw_grd (s : State) : (draw s).grd = s.grd := rfl
@[simp] theorem draw_rel (s : State) : (draw s).rel = s.rel := rfl

@[simp] theorem sendPkt_pending (s : State) (p : Packet) : (sendPkt s p).pending = s.pending := rfl
@[simp] theorem sendPkt_draws (s : State) (p : Packet) : (sendPkt s p).draws = s.draws := rfl
@[simp] theorem sendPkt_regs (s : State) (p : Packet) : (sendPkt s p).regs = s.regs := rfl
@[simp] theorem sendPkt_ctxs (s : State) (p : Packet) : (sendPkt s p).ctxs = s.ctxs := rfl
@[simp] theorem sendPkt_wins (s : State) (p : Packet) : (sendPkt s p).wins = s.wins := rfl
@[simp] theorem sendPkt_flights (s : State) (p : Packet) : (sendPkt s p).flights = s.flights := rfl
@[simp] theorem sendPkt_nextFlight (s : State) (p : Packet) : (sendPkt s p).nextFlight = s.nextFlight := rfl
@[simp] theorem sendPkt_waitHdrs (s : State) (p : Packet) : (sendPkt s p).waitHdrs = s.waitHdrs := rfl
@[simp] theorem sendPkt_decks (s : State) (p : Packet) : (sendPkt s p).decks = s.decks := rfl
@[simp] theorem sendPkt_span (s : State) (p : Packet) : (sendPkt s p).span = s.span := rfl
@[simp] theorem sendPkt_t3 (s : State) (p : Packet) : (sendPkt s p).t3 = s.t3 := rfl
@[simp] theorem sendPkt_t4 (s : State) (p : Packet) : (sendPkt s p).t4 = s.t4 := rfl
@[simp] theorem sendPkt_sealedRegions (s : State) (p : Packet) : (sendPkt s p).sealedRegions = s.sealedRegions := rfl
@[simp] theorem sendPkt_cores (s : State) (p : Packet) : (sendPkt s p).cores = s.cores := rfl
@[simp] theorem sendPkt_coreMap (s : State) (p : Packet) : (sendPkt s p).coreMap = s.coreMap := rfl
@[simp] theorem sendPkt_sched (s : State) (p : Packet) : (sendPkt s p).sched = s.sched := rfl
@[simp] theorem sendPkt_jct (s : State) (p : Packet) : (sendPkt s p).jct = s.jct := rfl
@[simp] theorem sendPkt_lanes (s : State) (p : Packet) : (sendPkt s p).lanes = s.lanes := rfl
@[simp] theorem sendPkt_fenced (s : State) (p : Packet) : (sendPkt s p).fenced = s.fenced := rfl
@[simp] theorem sendPkt_sec (s : State) (p : Packet) : (sendPkt s p).sec = s.sec := rfl
@[simp] theorem sendPkt_rst (s : State) (p : Packet) : (sendPkt s p).rst = s.rst := rfl
@[simp] theorem sendPkt_set (s : State) (p : Packet) : (sendPkt s p).set = s.set := rfl
@[simp] theorem sendPkt_ddr (s : State) (p : Packet) : (sendPkt s p).ddr = s.ddr := rfl
@[simp] theorem sendPkt_pcie (s : State) (p : Packet) : (sendPkt s p).pcie = s.pcie := rfl
@[simp] theorem sendPkt_pwr (s : State) (p : Packet) : (sendPkt s p).pwr = s.pwr := rfl
@[simp] theorem sendPkt_fwWaits (s : State) (p : Packet) : (sendPkt s p).fwWaits = s.fwWaits := rfl
@[simp] theorem sendPkt_cam (s : State) (p : Packet) : (sendPkt s p).cam = s.cam := rfl
@[simp] theorem sendPkt_aud (s : State) (p : Packet) : (sendPkt s p).aud = s.aud := rfl
@[simp] theorem sendPkt_grd (s : State) (p : Packet) : (sendPkt s p).grd = s.grd := rfl
@[simp] theorem sendPkt_rel (s : State) (p : Packet) : (sendPkt s p).rel = s.rel := rfl

@[simp] theorem finishCmd_pending (s : State) (sid seq : Nat) : (finishCmd s sid seq).pending = s.pending := rfl
@[simp] theorem finishCmd_draws (s : State) (sid seq : Nat) : (finishCmd s sid seq).draws = s.draws := rfl
@[simp] theorem finishCmd_regs (s : State) (sid seq : Nat) : (finishCmd s sid seq).regs = s.regs := rfl
@[simp] theorem finishCmd_ctxs (s : State) (sid seq : Nat) : (finishCmd s sid seq).ctxs = s.ctxs := rfl
@[simp] theorem finishCmd_wins (s : State) (sid seq : Nat) : (finishCmd s sid seq).wins = s.wins := rfl
@[simp] theorem finishCmd_flights (s : State) (sid seq : Nat) : (finishCmd s sid seq).flights = s.flights := rfl
@[simp] theorem finishCmd_nextFlight (s : State) (sid seq : Nat) : (finishCmd s sid seq).nextFlight = s.nextFlight := rfl
@[simp] theorem finishCmd_waitHdrs (s : State) (sid seq : Nat) : (finishCmd s sid seq).waitHdrs = s.waitHdrs := rfl
@[simp] theorem finishCmd_decks (s : State) (sid seq : Nat) : (finishCmd s sid seq).decks = s.decks := rfl
@[simp] theorem finishCmd_span (s : State) (sid seq : Nat) : (finishCmd s sid seq).span = s.span := rfl
@[simp] theorem finishCmd_t3 (s : State) (sid seq : Nat) : (finishCmd s sid seq).t3 = s.t3 := rfl
@[simp] theorem finishCmd_t4 (s : State) (sid seq : Nat) : (finishCmd s sid seq).t4 = s.t4 := rfl
@[simp] theorem finishCmd_sealedRegions (s : State) (sid seq : Nat) : (finishCmd s sid seq).sealedRegions = s.sealedRegions := rfl
@[simp] theorem finishCmd_cores (s : State) (sid seq : Nat) : (finishCmd s sid seq).cores = s.cores := rfl
@[simp] theorem finishCmd_coreMap (s : State) (sid seq : Nat) : (finishCmd s sid seq).coreMap = s.coreMap := rfl
@[simp] theorem finishCmd_sched (s : State) (sid seq : Nat) : (finishCmd s sid seq).sched = s.sched := rfl
@[simp] theorem finishCmd_jct (s : State) (sid seq : Nat) : (finishCmd s sid seq).jct = s.jct := rfl
@[simp] theorem finishCmd_lanes (s : State) (sid seq : Nat) : (finishCmd s sid seq).lanes = s.lanes := rfl
@[simp] theorem finishCmd_fenced (s : State) (sid seq : Nat) : (finishCmd s sid seq).fenced = s.fenced := rfl
@[simp] theorem finishCmd_sec (s : State) (sid seq : Nat) : (finishCmd s sid seq).sec = s.sec := rfl
@[simp] theorem finishCmd_rst (s : State) (sid seq : Nat) : (finishCmd s sid seq).rst = s.rst := rfl
@[simp] theorem finishCmd_set (s : State) (sid seq : Nat) : (finishCmd s sid seq).set = s.set := rfl
@[simp] theorem finishCmd_ddr (s : State) (sid seq : Nat) : (finishCmd s sid seq).ddr = s.ddr := rfl
@[simp] theorem finishCmd_pcie (s : State) (sid seq : Nat) : (finishCmd s sid seq).pcie = s.pcie := rfl
@[simp] theorem finishCmd_pwr (s : State) (sid seq : Nat) : (finishCmd s sid seq).pwr = s.pwr := rfl
@[simp] theorem finishCmd_fwWaits (s : State) (sid seq : Nat) : (finishCmd s sid seq).fwWaits = s.fwWaits := rfl
@[simp] theorem finishCmd_cam (s : State) (sid seq : Nat) : (finishCmd s sid seq).cam = s.cam := rfl
@[simp] theorem finishCmd_aud (s : State) (sid seq : Nat) : (finishCmd s sid seq).aud = s.aud := rfl
@[simp] theorem finishCmd_grd (s : State) (sid seq : Nat) : (finishCmd s sid seq).grd = s.grd := rfl
@[simp] theorem finishCmd_rel (s : State) (sid seq : Nat) : (finishCmd s sid seq).rel = s.rel := rfl

@[simp] theorem odoSample_pending (s : State) (id : Nat) (v : Int) : (odoSample s id v).pending = s.pending := rfl
@[simp] theorem odoSample_draws (s : State) (id : Nat) (v : Int) : (odoSample s id v).draws = s.draws := rfl
@[simp] theorem odoSample_net (s : State) (id : Nat) (v : Int) : (odoSample s id v).net = s.net := rfl
@[simp] theorem odoSample_regs (s : State) (id : Nat) (v : Int) : (odoSample s id v).regs = s.regs := rfl
@[simp] theorem odoSample_ctxs (s : State) (id : Nat) (v : Int) : (odoSample s id v).ctxs = s.ctxs := rfl
@[simp] theorem odoSample_wins (s : State) (id : Nat) (v : Int) : (odoSample s id v).wins = s.wins := rfl
@[simp] theorem odoSample_flights (s : State) (id : Nat) (v : Int) : (odoSample s id v).flights = s.flights := rfl
@[simp] theorem odoSample_nextFlight (s : State) (id : Nat) (v : Int) : (odoSample s id v).nextFlight = s.nextFlight := rfl
@[simp] theorem odoSample_waitHdrs (s : State) (id : Nat) (v : Int) : (odoSample s id v).waitHdrs = s.waitHdrs := rfl
@[simp] theorem odoSample_decks (s : State) (id : Nat) (v : Int) : (odoSample s id v).decks = s.decks := rfl
@[simp] theorem odoSample_span (s : State) (id : Nat) (v : Int) : (odoSample s id v).span = s.span := rfl
@[simp] theorem odoSample_t3 (s : State) (id : Nat) (v : Int) : (odoSample s id v).t3 = s.t3 := rfl
@[simp] theorem odoSample_t4 (s : State) (id : Nat) (v : Int) : (odoSample s id v).t4 = s.t4 := rfl
@[simp] theorem odoSample_sealedRegions (s : State) (id : Nat) (v : Int) : (odoSample s id v).sealedRegions = s.sealedRegions := rfl
@[simp] theorem odoSample_cores (s : State) (id : Nat) (v : Int) : (odoSample s id v).cores = s.cores := rfl
@[simp] theorem odoSample_coreMap (s : State) (id : Nat) (v : Int) : (odoSample s id v).coreMap = s.coreMap := rfl
@[simp] theorem odoSample_sched (s : State) (id : Nat) (v : Int) : (odoSample s id v).sched = s.sched := rfl
@[simp] theorem odoSample_jct (s : State) (id : Nat) (v : Int) : (odoSample s id v).jct = s.jct := rfl
@[simp] theorem odoSample_lanes (s : State) (id : Nat) (v : Int) : (odoSample s id v).lanes = s.lanes := rfl
@[simp] theorem odoSample_fenced (s : State) (id : Nat) (v : Int) : (odoSample s id v).fenced = s.fenced := rfl
@[simp] theorem odoSample_sec (s : State) (id : Nat) (v : Int) : (odoSample s id v).sec = s.sec := rfl
@[simp] theorem odoSample_rst (s : State) (id : Nat) (v : Int) : (odoSample s id v).rst = s.rst := rfl
@[simp] theorem odoSample_set (s : State) (id : Nat) (v : Int) : (odoSample s id v).set = s.set := rfl
@[simp] theorem odoSample_ddr (s : State) (id : Nat) (v : Int) : (odoSample s id v).ddr = s.ddr := rfl
@[simp] theorem odoSample_pcie (s : State) (id : Nat) (v : Int) : (odoSample s id v).pcie = s.pcie := rfl
@[simp] theorem odoSample_pwr (s : State) (id : Nat) (v : Int) : (odoSample s id v).pwr = s.pwr := rfl
@[simp] theorem odoSample_fwWaits (s : State) (id : Nat) (v : Int) : (odoSample s id v).fwWaits = s.fwWaits := rfl
@[simp] theorem odoSample_cam (s : State) (id : Nat) (v : Int) : (odoSample s id v).cam = s.cam := rfl
@[simp] theorem odoSample_aud (s : State) (id : Nat) (v : Int) : (odoSample s id v).aud = s.aud := rfl
@[simp] theorem odoSample_grd (s : State) (id : Nat) (v : Int) : (odoSample s id v).grd = s.grd := rfl

@[simp] theorem monSample_pending (s : State) (cls idx : Nat) (v : Int) : (monSample s cls idx v).pending = s.pending := rfl
@[simp] theorem monSample_draws (s : State) (cls idx : Nat) (v : Int) : (monSample s cls idx v).draws = s.draws := rfl
@[simp] theorem monSample_net (s : State) (cls idx : Nat) (v : Int) : (monSample s cls idx v).net = s.net := rfl
@[simp] theorem monSample_regs (s : State) (cls idx : Nat) (v : Int) : (monSample s cls idx v).regs = s.regs := rfl
@[simp] theorem monSample_ctxs (s : State) (cls idx : Nat) (v : Int) : (monSample s cls idx v).ctxs = s.ctxs := rfl
@[simp] theorem monSample_wins (s : State) (cls idx : Nat) (v : Int) : (monSample s cls idx v).wins = s.wins := rfl
@[simp] theorem monSample_flights (s : State) (cls idx : Nat) (v : Int) : (monSample s cls idx v).flights = s.flights := rfl
@[simp] theorem monSample_nextFlight (s : State) (cls idx : Nat) (v : Int) : (monSample s cls idx v).nextFlight = s.nextFlight := rfl
@[simp] theorem monSample_waitHdrs (s : State) (cls idx : Nat) (v : Int) : (monSample s cls idx v).waitHdrs = s.waitHdrs := rfl
@[simp] theorem monSample_decks (s : State) (cls idx : Nat) (v : Int) : (monSample s cls idx v).decks = s.decks := rfl
@[simp] theorem monSample_span (s : State) (cls idx : Nat) (v : Int) : (monSample s cls idx v).span = s.span := rfl
@[simp] theorem monSample_t3 (s : State) (cls idx : Nat) (v : Int) : (monSample s cls idx v).t3 = s.t3 := rfl
@[simp] theorem monSample_t4 (s : State) (cls idx : Nat) (v : Int) : (monSample s cls idx v).t4 = s.t4 := rfl
@[simp] theorem monSample_sealedRegions (s : State) (cls idx : Nat) (v : Int) : (monSample s cls idx v).sealedRegions = s.sealedRegions := rfl
@[simp] theorem monSample_cores (s : State) (cls idx : Nat) (v : Int) : (monSample s cls idx v).cores = s.cores := rfl
@[simp] theorem monSample_coreMap (s : State) (cls idx : Nat) (v : Int) : (monSample s cls idx v).coreMap = s.coreMap := rfl
@[simp] theorem monSample_sched (s : State) (cls idx : Nat) (v : Int) : (monSample s cls idx v).sched = s.sched := rfl
@[simp] theorem monSample_jct (s : State) (cls idx : Nat) (v : Int) : (monSample s cls idx v).jct = s.jct := rfl
@[simp] theorem monSample_lanes (s : State) (cls idx : Nat) (v : Int) : (monSample s cls idx v).lanes = s.lanes := rfl
@[simp] theorem monSample_fenced (s : State) (cls idx : Nat) (v : Int) : (monSample s cls idx v).fenced = s.fenced := rfl
@[simp] theorem monSample_sec (s : State) (cls idx : Nat) (v : Int) : (monSample s cls idx v).sec = s.sec := rfl
@[simp] theorem monSample_rst (s : State) (cls idx : Nat) (v : Int) : (monSample s cls idx v).rst = s.rst := rfl
@[simp] theorem monSample_set (s : State) (cls idx : Nat) (v : Int) : (monSample s cls idx v).set = s.set := rfl
@[simp] theorem monSample_ddr (s : State) (cls idx : Nat) (v : Int) : (monSample s cls idx v).ddr = s.ddr := rfl
@[simp] theorem monSample_pcie (s : State) (cls idx : Nat) (v : Int) : (monSample s cls idx v).pcie = s.pcie := rfl
@[simp] theorem monSample_pwr (s : State) (cls idx : Nat) (v : Int) : (monSample s cls idx v).pwr = s.pwr := rfl
@[simp] theorem monSample_fwWaits (s : State) (cls idx : Nat) (v : Int) : (monSample s cls idx v).fwWaits = s.fwWaits := rfl
@[simp] theorem monSample_cam (s : State) (cls idx : Nat) (v : Int) : (monSample s cls idx v).cam = s.cam := rfl
@[simp] theorem monSample_aud (s : State) (cls idx : Nat) (v : Int) : (monSample s cls idx v).aud = s.aud := rfl
@[simp] theorem monSample_grd (s : State) (cls idx : Nat) (v : Int) : (monSample s cls idx v).grd = s.grd := rfl

@[simp] theorem replyMeter_pending (s : State) (i : Iface) : (replyMeter s i).pending = s.pending := rfl
@[simp] theorem replyMeter_net (s : State) (i : Iface) : (replyMeter s i).net = s.net := rfl
@[simp] theorem replyMeter_regs (s : State) (i : Iface) : (replyMeter s i).regs = s.regs := rfl
@[simp] theorem replyMeter_ctxs (s : State) (i : Iface) : (replyMeter s i).ctxs = s.ctxs := rfl
@[simp] theorem replyMeter_wins (s : State) (i : Iface) : (replyMeter s i).wins = s.wins := rfl
@[simp] theorem replyMeter_flights (s : State) (i : Iface) : (replyMeter s i).flights = s.flights := rfl
@[simp] theorem replyMeter_nextFlight (s : State) (i : Iface) : (replyMeter s i).nextFlight = s.nextFlight := rfl
@[simp] theorem replyMeter_waitHdrs (s : State) (i : Iface) : (replyMeter s i).waitHdrs = s.waitHdrs := rfl
@[simp] theorem replyMeter_decks (s : State) (i : Iface) : (replyMeter s i).decks = s.decks := rfl
@[simp] theorem replyMeter_span (s : State) (i : Iface) : (replyMeter s i).span = s.span := rfl
@[simp] theorem replyMeter_t3 (s : State) (i : Iface) : (replyMeter s i).t3 = s.t3 := rfl
@[simp] theorem replyMeter_t4 (s : State) (i : Iface) : (replyMeter s i).t4 = s.t4 := rfl
@[simp] theorem replyMeter_sealedRegions (s : State) (i : Iface) : (replyMeter s i).sealedRegions = s.sealedRegions := rfl
@[simp] theorem replyMeter_cores (s : State) (i : Iface) : (replyMeter s i).cores = s.cores := rfl
@[simp] theorem replyMeter_coreMap (s : State) (i : Iface) : (replyMeter s i).coreMap = s.coreMap := rfl
@[simp] theorem replyMeter_sched (s : State) (i : Iface) : (replyMeter s i).sched = s.sched := rfl
@[simp] theorem replyMeter_jct (s : State) (i : Iface) : (replyMeter s i).jct = s.jct := rfl
@[simp] theorem replyMeter_lanes (s : State) (i : Iface) : (replyMeter s i).lanes = s.lanes := rfl
@[simp] theorem replyMeter_fenced (s : State) (i : Iface) : (replyMeter s i).fenced = s.fenced := rfl
@[simp] theorem replyMeter_sec (s : State) (i : Iface) : (replyMeter s i).sec = s.sec := rfl
@[simp] theorem replyMeter_rst (s : State) (i : Iface) : (replyMeter s i).rst = s.rst := rfl
@[simp] theorem replyMeter_set (s : State) (i : Iface) : (replyMeter s i).set = s.set := rfl
@[simp] theorem replyMeter_ddr (s : State) (i : Iface) : (replyMeter s i).ddr = s.ddr := rfl
@[simp] theorem replyMeter_pcie (s : State) (i : Iface) : (replyMeter s i).pcie = s.pcie := rfl
@[simp] theorem replyMeter_pwr (s : State) (i : Iface) : (replyMeter s i).pwr = s.pwr := rfl
@[simp] theorem replyMeter_fwWaits (s : State) (i : Iface) : (replyMeter s i).fwWaits = s.fwWaits := rfl
@[simp] theorem replyMeter_cam (s : State) (i : Iface) : (replyMeter s i).cam = s.cam := rfl
@[simp] theorem replyMeter_aud (s : State) (i : Iface) : (replyMeter s i).aud = s.aud := rfl
@[simp] theorem replyMeter_grd (s : State) (i : Iface) : (replyMeter s i).grd = s.grd := rfl

@[simp] theorem interim_pending (s : State) (rq : Req) (op ctx : Nat) : (interim s rq op ctx).pending = s.pending := rfl
@[simp] theorem interim_draws (s : State) (rq : Req) (op ctx : Nat) : (interim s rq op ctx).draws = s.draws := rfl
@[simp] theorem interim_regs (s : State) (rq : Req) (op ctx : Nat) : (interim s rq op ctx).regs = s.regs := rfl
@[simp] theorem interim_ctxs (s : State) (rq : Req) (op ctx : Nat) : (interim s rq op ctx).ctxs = s.ctxs := rfl
@[simp] theorem interim_wins (s : State) (rq : Req) (op ctx : Nat) : (interim s rq op ctx).wins = s.wins := rfl
@[simp] theorem interim_flights (s : State) (rq : Req) (op ctx : Nat) : (interim s rq op ctx).flights = s.flights := rfl
@[simp] theorem interim_nextFlight (s : State) (rq : Req) (op ctx : Nat) : (interim s rq op ctx).nextFlight = s.nextFlight := rfl
@[simp] theorem interim_waitHdrs (s : State) (rq : Req) (op ctx : Nat) : (interim s rq op ctx).waitHdrs = s.waitHdrs := rfl
@[simp] theorem interim_decks (s : State) (rq : Req) (op ctx : Nat) : (interim s rq op ctx).decks = s.decks := rfl
@[simp] theorem interim_span (s : State) (rq : Req) (op ctx : Nat) : (interim s rq op ctx).span = s.span := rfl
@[simp] theorem interim_t3 (s : State) (rq : Req) (op ctx : Nat) : (interim s rq op ctx).t3 = s.t3 := rfl
@[simp] theorem interim_t4 (s : State) (rq : Req) (op ctx : Nat) : (interim s rq op ctx).t4 = s.t4 := rfl
@[simp] theorem interim_sealedRegions (s : State) (rq : Req) (op ctx : Nat) : (interim s rq op ctx).sealedRegions = s.sealedRegions := rfl
@[simp] theorem interim_cores (s : State) (rq : Req) (op ctx : Nat) : (interim s rq op ctx).cores = s.cores := rfl
@[simp] theorem interim_coreMap (s : State) (rq : Req) (op ctx : Nat) : (interim s rq op ctx).coreMap = s.coreMap := rfl
@[simp] theorem interim_sched (s : State) (rq : Req) (op ctx : Nat) : (interim s rq op ctx).sched = s.sched := rfl
@[simp] theorem interim_jct (s : State) (rq : Req) (op ctx : Nat) : (interim s rq op ctx).jct = s.jct := rfl
@[simp] theorem interim_lanes (s : State) (rq : Req) (op ctx : Nat) : (interim s rq op ctx).lanes = s.lanes := rfl
@[simp] theorem interim_fenced (s : State) (rq : Req) (op ctx : Nat) : (interim s rq op ctx).fenced = s.fenced := rfl
@[simp] theorem interim_sec (s : State) (rq : Req) (op ctx : Nat) : (interim s rq op ctx).sec = s.sec := rfl
@[simp] theorem interim_rst (s : State) (rq : Req) (op ctx : Nat) : (interim s rq op ctx).rst = s.rst := rfl
@[simp] theorem interim_set (s : State) (rq : Req) (op ctx : Nat) : (interim s rq op ctx).set = s.set := rfl
@[simp] theorem interim_ddr (s : State) (rq : Req) (op ctx : Nat) : (interim s rq op ctx).ddr = s.ddr := rfl
@[simp] theorem interim_pcie (s : State) (rq : Req) (op ctx : Nat) : (interim s rq op ctx).pcie = s.pcie := rfl
@[simp] theorem interim_pwr (s : State) (rq : Req) (op ctx : Nat) : (interim s rq op ctx).pwr = s.pwr := rfl
@[simp] theorem interim_fwWaits (s : State) (rq : Req) (op ctx : Nat) : (interim s rq op ctx).fwWaits = s.fwWaits := rfl
@[simp] theorem interim_cam (s : State) (rq : Req) (op ctx : Nat) : (interim s rq op ctx).cam = s.cam := rfl
@[simp] theorem interim_aud (s : State) (rq : Req) (op ctx : Nat) : (interim s rq op ctx).aud = s.aud := rfl
@[simp] theorem interim_grd (s : State) (rq : Req) (op ctx : Nat) : (interim s rq op ctx).grd = s.grd := rfl
@[simp] theorem interim_rel (s : State) (rq : Req) (op ctx : Nat) : (interim s rq op ctx).rel = s.rel := rfl

@[simp] theorem setCtx_pending (s : State) (c : Nat) (x : Ctx) : (setCtx s c x).pending = s.pending := rfl
@[simp] theorem setCtx_draws (s : State) (c : Nat) (x : Ctx) : (setCtx s c x).draws = s.draws := rfl
@[simp] theorem setCtx_net (s : State) (c : Nat) (x : Ctx) : (setCtx s c x).net = s.net := rfl
@[simp] theorem setCtx_regs (s : State) (c : Nat) (x : Ctx) : (setCtx s c x).regs = s.regs := rfl
@[simp] theorem setCtx_wins (s : State) (c : Nat) (x : Ctx) : (setCtx s c x).wins = s.wins := rfl
@[simp] theorem setCtx_flights (s : State) (c : Nat) (x : Ctx) : (setCtx s c x).flights = s.flights := rfl
@[simp] theorem setCtx_nextFlight (s : State) (c : Nat) (x : Ctx) : (setCtx s c x).nextFlight = s.nextFlight := rfl
@[simp] theorem setCtx_waitHdrs (s : State) (c : Nat) (x : Ctx) : (setCtx s c x).waitHdrs = s.waitHdrs := rfl
@[simp] theorem setCtx_decks (s : State) (c : Nat) (x : Ctx) : (setCtx s c x).decks = s.decks := rfl
@[simp] theorem setCtx_span (s : State) (c : Nat) (x : Ctx) : (setCtx s c x).span = s.span := rfl
@[simp] theorem setCtx_t3 (s : State) (c : Nat) (x : Ctx) : (setCtx s c x).t3 = s.t3 := rfl
@[simp] theorem setCtx_t4 (s : State) (c : Nat) (x : Ctx) : (setCtx s c x).t4 = s.t4 := rfl
@[simp] theorem setCtx_sealedRegions (s : State) (c : Nat) (x : Ctx) : (setCtx s c x).sealedRegions = s.sealedRegions := rfl
@[simp] theorem setCtx_cores (s : State) (c : Nat) (x : Ctx) : (setCtx s c x).cores = s.cores := rfl
@[simp] theorem setCtx_coreMap (s : State) (c : Nat) (x : Ctx) : (setCtx s c x).coreMap = s.coreMap := rfl
@[simp] theorem setCtx_sched (s : State) (c : Nat) (x : Ctx) : (setCtx s c x).sched = s.sched := rfl
@[simp] theorem setCtx_jct (s : State) (c : Nat) (x : Ctx) : (setCtx s c x).jct = s.jct := rfl
@[simp] theorem setCtx_lanes (s : State) (c : Nat) (x : Ctx) : (setCtx s c x).lanes = s.lanes := rfl
@[simp] theorem setCtx_fenced (s : State) (c : Nat) (x : Ctx) : (setCtx s c x).fenced = s.fenced := rfl
@[simp] theorem setCtx_sec (s : State) (c : Nat) (x : Ctx) : (setCtx s c x).sec = s.sec := rfl
@[simp] theorem setCtx_rst (s : State) (c : Nat) (x : Ctx) : (setCtx s c x).rst = s.rst := rfl
@[simp] theorem setCtx_set (s : State) (c : Nat) (x : Ctx) : (setCtx s c x).set = s.set := rfl
@[simp] theorem setCtx_ddr (s : State) (c : Nat) (x : Ctx) : (setCtx s c x).ddr = s.ddr := rfl
@[simp] theorem setCtx_pcie (s : State) (c : Nat) (x : Ctx) : (setCtx s c x).pcie = s.pcie := rfl
@[simp] theorem setCtx_pwr (s : State) (c : Nat) (x : Ctx) : (setCtx s c x).pwr = s.pwr := rfl
@[simp] theorem setCtx_fwWaits (s : State) (c : Nat) (x : Ctx) : (setCtx s c x).fwWaits = s.fwWaits := rfl
@[simp] theorem setCtx_cam (s : State) (c : Nat) (x : Ctx) : (setCtx s c x).cam = s.cam := rfl
@[simp] theorem setCtx_aud (s : State) (c : Nat) (x : Ctx) : (setCtx s c x).aud = s.aud := rfl
@[simp] theorem setCtx_grd (s : State) (c : Nat) (x : Ctx) : (setCtx s c x).grd = s.grd := rfl
@[simp] theorem setCtx_rel (s : State) (c : Nat) (x : Ctx) : (setCtx s c x).rel = s.rel := rfl

@[simp] theorem modCtx_pending (s : State) (c : Nat) (f : Ctx → Ctx) : (modCtx s c f).pending = s.pending := rfl
@[simp] theorem modCtx_draws (s : State) (c : Nat) (f : Ctx → Ctx) : (modCtx s c f).draws = s.draws := rfl
@[simp] theorem modCtx_net (s : State) (c : Nat) (f : Ctx → Ctx) : (modCtx s c f).net = s.net := rfl
@[simp] theorem modCtx_regs (s : State) (c : Nat) (f : Ctx → Ctx) : (modCtx s c f).regs = s.regs := rfl
@[simp] theorem modCtx_wins (s : State) (c : Nat) (f : Ctx → Ctx) : (modCtx s c f).wins = s.wins := rfl
@[simp] theorem modCtx_flights (s : State) (c : Nat) (f : Ctx → Ctx) : (modCtx s c f).flights = s.flights := rfl
@[simp] theorem modCtx_nextFlight (s : State) (c : Nat) (f : Ctx → Ctx) : (modCtx s c f).nextFlight = s.nextFlight := rfl
@[simp] theorem modCtx_waitHdrs (s : State) (c : Nat) (f : Ctx → Ctx) : (modCtx s c f).waitHdrs = s.waitHdrs := rfl
@[simp] theorem modCtx_decks (s : State) (c : Nat) (f : Ctx → Ctx) : (modCtx s c f).decks = s.decks := rfl
@[simp] theorem modCtx_span (s : State) (c : Nat) (f : Ctx → Ctx) : (modCtx s c f).span = s.span := rfl
@[simp] theorem modCtx_t3 (s : State) (c : Nat) (f : Ctx → Ctx) : (modCtx s c f).t3 = s.t3 := rfl
@[simp] theorem modCtx_t4 (s : State) (c : Nat) (f : Ctx → Ctx) : (modCtx s c f).t4 = s.t4 := rfl
@[simp] theorem modCtx_sealedRegions (s : State) (c : Nat) (f : Ctx → Ctx) : (modCtx s c f).sealedRegions = s.sealedRegions := rfl
@[simp] theorem modCtx_cores (s : State) (c : Nat) (f : Ctx → Ctx) : (modCtx s c f).cores = s.cores := rfl
@[simp] theorem modCtx_coreMap (s : State) (c : Nat) (f : Ctx → Ctx) : (modCtx s c f).coreMap = s.coreMap := rfl
@[simp] theorem modCtx_sched (s : State) (c : Nat) (f : Ctx → Ctx) : (modCtx s c f).sched = s.sched := rfl
@[simp] theorem modCtx_jct (s : State) (c : Nat) (f : Ctx → Ctx) : (modCtx s c f).jct = s.jct := rfl
@[simp] theorem modCtx_lanes (s : State) (c : Nat) (f : Ctx → Ctx) : (modCtx s c f).lanes = s.lanes := rfl
@[simp] theorem modCtx_fenced (s : State) (c : Nat) (f : Ctx → Ctx) : (modCtx s c f).fenced = s.fenced := rfl
@[simp] theorem modCtx_sec (s : State) (c : Nat) (f : Ctx → Ctx) : (modCtx s c f).sec = s.sec := rfl
@[simp] theorem modCtx_rst (s : State) (c : Nat) (f : Ctx → Ctx) : (modCtx s c f).rst = s.rst := rfl
@[simp] theorem modCtx_set (s : State) (c : Nat) (f : Ctx → Ctx) : (modCtx s c f).set = s.set := rfl
@[simp] theorem modCtx_ddr (s : State) (c : Nat) (f : Ctx → Ctx) : (modCtx s c f).ddr = s.ddr := rfl
@[simp] theorem modCtx_pcie (s : State) (c : Nat) (f : Ctx → Ctx) : (modCtx s c f).pcie = s.pcie := rfl
@[simp] theorem modCtx_pwr (s : State) (c : Nat) (f : Ctx → Ctx) : (modCtx s c f).pwr = s.pwr := rfl
@[simp] theorem modCtx_fwWaits (s : State) (c : Nat) (f : Ctx → Ctx) : (modCtx s c f).fwWaits = s.fwWaits := rfl
@[simp] theorem modCtx_cam (s : State) (c : Nat) (f : Ctx → Ctx) : (modCtx s c f).cam = s.cam := rfl
@[simp] theorem modCtx_aud (s : State) (c : Nat) (f : Ctx → Ctx) : (modCtx s c f).aud = s.aud := rfl
@[simp] theorem modCtx_grd (s : State) (c : Nat) (f : Ctx → Ctx) : (modCtx s c f).grd = s.grd := rfl
@[simp] theorem modCtx_rel (s : State) (c : Nat) (f : Ctx → Ctx) : (modCtx s c f).rel = s.rel := rfl

@[simp] theorem modAcct_pending (s : State) (c : Nat) (f : Acct → Acct) : (modAcct s c f).pending = s.pending := rfl
@[simp] theorem modAcct_draws (s : State) (c : Nat) (f : Acct → Acct) : (modAcct s c f).draws = s.draws := rfl
@[simp] theorem modAcct_net (s : State) (c : Nat) (f : Acct → Acct) : (modAcct s c f).net = s.net := rfl
@[simp] theorem modAcct_regs (s : State) (c : Nat) (f : Acct → Acct) : (modAcct s c f).regs = s.regs := rfl
@[simp] theorem modAcct_wins (s : State) (c : Nat) (f : Acct → Acct) : (modAcct s c f).wins = s.wins := rfl
@[simp] theorem modAcct_flights (s : State) (c : Nat) (f : Acct → Acct) : (modAcct s c f).flights = s.flights := rfl
@[simp] theorem modAcct_nextFlight (s : State) (c : Nat) (f : Acct → Acct) : (modAcct s c f).nextFlight = s.nextFlight := rfl
@[simp] theorem modAcct_waitHdrs (s : State) (c : Nat) (f : Acct → Acct) : (modAcct s c f).waitHdrs = s.waitHdrs := rfl
@[simp] theorem modAcct_decks (s : State) (c : Nat) (f : Acct → Acct) : (modAcct s c f).decks = s.decks := rfl
@[simp] theorem modAcct_span (s : State) (c : Nat) (f : Acct → Acct) : (modAcct s c f).span = s.span := rfl
@[simp] theorem modAcct_t3 (s : State) (c : Nat) (f : Acct → Acct) : (modAcct s c f).t3 = s.t3 := rfl
@[simp] theorem modAcct_t4 (s : State) (c : Nat) (f : Acct → Acct) : (modAcct s c f).t4 = s.t4 := rfl
@[simp] theorem modAcct_sealedRegions (s : State) (c : Nat) (f : Acct → Acct) : (modAcct s c f).sealedRegions = s.sealedRegions := rfl
@[simp] theorem modAcct_cores (s : State) (c : Nat) (f : Acct → Acct) : (modAcct s c f).cores = s.cores := rfl
@[simp] theorem modAcct_coreMap (s : State) (c : Nat) (f : Acct → Acct) : (modAcct s c f).coreMap = s.coreMap := rfl
@[simp] theorem modAcct_sched (s : State) (c : Nat) (f : Acct → Acct) : (modAcct s c f).sched = s.sched := rfl
@[simp] theorem modAcct_jct (s : State) (c : Nat) (f : Acct → Acct) : (modAcct s c f).jct = s.jct := rfl
@[simp] theorem modAcct_lanes (s : State) (c : Nat) (f : Acct → Acct) : (modAcct s c f).lanes = s.lanes := rfl
@[simp] theorem modAcct_fenced (s : State) (c : Nat) (f : Acct → Acct) : (modAcct s c f).fenced = s.fenced := rfl
@[simp] theorem modAcct_sec (s : State) (c : Nat) (f : Acct → Acct) : (modAcct s c f).sec = s.sec := rfl
@[simp] theorem modAcct_rst (s : State) (c : Nat) (f : Acct → Acct) : (modAcct s c f).rst = s.rst := rfl
@[simp] theorem modAcct_set (s : State) (c : Nat) (f : Acct → Acct) : (modAcct s c f).set = s.set := rfl
@[simp] theorem modAcct_ddr (s : State) (c : Nat) (f : Acct → Acct) : (modAcct s c f).ddr = s.ddr := rfl
@[simp] theorem modAcct_pcie (s : State) (c : Nat) (f : Acct → Acct) : (modAcct s c f).pcie = s.pcie := rfl
@[simp] theorem modAcct_pwr (s : State) (c : Nat) (f : Acct → Acct) : (modAcct s c f).pwr = s.pwr := rfl
@[simp] theorem modAcct_fwWaits (s : State) (c : Nat) (f : Acct → Acct) : (modAcct s c f).fwWaits = s.fwWaits := rfl
@[simp] theorem modAcct_cam (s : State) (c : Nat) (f : Acct → Acct) : (modAcct s c f).cam = s.cam := rfl
@[simp] theorem modAcct_aud (s : State) (c : Nat) (f : Acct → Acct) : (modAcct s c f).aud = s.aud := rfl
@[simp] theorem modAcct_grd (s : State) (c : Nat) (f : Acct → Acct) : (modAcct s c f).grd = s.grd := rfl
@[simp] theorem modAcct_rel (s : State) (c : Nat) (f : Acct → Acct) : (modAcct s c f).rel = s.rel := rfl

@[simp] theorem setWin_pending (s : State) (k : Nat) (w : Win) : (setWin s k w).pending = s.pending := rfl
@[simp] theorem setWin_draws (s : State) (k : Nat) (w : Win) : (setWin s k w).draws = s.draws := rfl
@[simp] theorem setWin_net (s : State) (k : Nat) (w : Win) : (setWin s k w).net = s.net := rfl
@[simp] theorem setWin_regs (s : State) (k : Nat) (w : Win) : (setWin s k w).regs = s.regs := rfl
@[simp] theorem setWin_ctxs (s : State) (k : Nat) (w : Win) : (setWin s k w).ctxs = s.ctxs := rfl
@[simp] theorem setWin_flights (s : State) (k : Nat) (w : Win) : (setWin s k w).flights = s.flights := rfl
@[simp] theorem setWin_nextFlight (s : State) (k : Nat) (w : Win) : (setWin s k w).nextFlight = s.nextFlight := rfl
@[simp] theorem setWin_waitHdrs (s : State) (k : Nat) (w : Win) : (setWin s k w).waitHdrs = s.waitHdrs := rfl
@[simp] theorem setWin_decks (s : State) (k : Nat) (w : Win) : (setWin s k w).decks = s.decks := rfl
@[simp] theorem setWin_span (s : State) (k : Nat) (w : Win) : (setWin s k w).span = s.span := rfl
@[simp] theorem setWin_t3 (s : State) (k : Nat) (w : Win) : (setWin s k w).t3 = s.t3 := rfl
@[simp] theorem setWin_t4 (s : State) (k : Nat) (w : Win) : (setWin s k w).t4 = s.t4 := rfl
@[simp] theorem setWin_sealedRegions (s : State) (k : Nat) (w : Win) : (setWin s k w).sealedRegions = s.sealedRegions := rfl
@[simp] theorem setWin_cores (s : State) (k : Nat) (w : Win) : (setWin s k w).cores = s.cores := rfl
@[simp] theorem setWin_coreMap (s : State) (k : Nat) (w : Win) : (setWin s k w).coreMap = s.coreMap := rfl
@[simp] theorem setWin_sched (s : State) (k : Nat) (w : Win) : (setWin s k w).sched = s.sched := rfl
@[simp] theorem setWin_jct (s : State) (k : Nat) (w : Win) : (setWin s k w).jct = s.jct := rfl
@[simp] theorem setWin_lanes (s : State) (k : Nat) (w : Win) : (setWin s k w).lanes = s.lanes := rfl
@[simp] theorem setWin_fenced (s : State) (k : Nat) (w : Win) : (setWin s k w).fenced = s.fenced := rfl
@[simp] theorem setWin_sec (s : State) (k : Nat) (w : Win) : (setWin s k w).sec = s.sec := rfl
@[simp] theorem setWin_rst (s : State) (k : Nat) (w : Win) : (setWin s k w).rst = s.rst := rfl
@[simp] theorem setWin_set (s : State) (k : Nat) (w : Win) : (setWin s k w).set = s.set := rfl
@[simp] theorem setWin_ddr (s : State) (k : Nat) (w : Win) : (setWin s k w).ddr = s.ddr := rfl
@[simp] theorem setWin_pcie (s : State) (k : Nat) (w : Win) : (setWin s k w).pcie = s.pcie := rfl
@[simp] theorem setWin_pwr (s : State) (k : Nat) (w : Win) : (setWin s k w).pwr = s.pwr := rfl
@[simp] theorem setWin_fwWaits (s : State) (k : Nat) (w : Win) : (setWin s k w).fwWaits = s.fwWaits := rfl
@[simp] theorem setWin_cam (s : State) (k : Nat) (w : Win) : (setWin s k w).cam = s.cam := rfl
@[simp] theorem setWin_aud (s : State) (k : Nat) (w : Win) : (setWin s k w).aud = s.aud := rfl
@[simp] theorem setWin_grd (s : State) (k : Nat) (w : Win) : (setWin s k w).grd = s.grd := rfl
@[simp] theorem setWin_rel (s : State) (k : Nat) (w : Win) : (setWin s k w).rel = s.rel := rfl

@[simp] theorem setCore_pending (s : State) (p : Nat) (c : Core) : (setCore s p c).pending = s.pending := rfl
@[simp] theorem setCore_draws (s : State) (p : Nat) (c : Core) : (setCore s p c).draws = s.draws := rfl
@[simp] theorem setCore_net (s : State) (p : Nat) (c : Core) : (setCore s p c).net = s.net := rfl
@[simp] theorem setCore_regs (s : State) (p : Nat) (c : Core) : (setCore s p c).regs = s.regs := rfl
@[simp] theorem setCore_ctxs (s : State) (p : Nat) (c : Core) : (setCore s p c).ctxs = s.ctxs := rfl
@[simp] theorem setCore_wins (s : State) (p : Nat) (c : Core) : (setCore s p c).wins = s.wins := rfl
@[simp] theorem setCore_flights (s : State) (p : Nat) (c : Core) : (setCore s p c).flights = s.flights := rfl
@[simp] theorem setCore_nextFlight (s : State) (p : Nat) (c : Core) : (setCore s p c).nextFlight = s.nextFlight := rfl
@[simp] theorem setCore_waitHdrs (s : State) (p : Nat) (c : Core) : (setCore s p c).waitHdrs = s.waitHdrs := rfl
@[simp] theorem setCore_decks (s : State) (p : Nat) (c : Core) : (setCore s p c).decks = s.decks := rfl
@[simp] theorem setCore_span (s : State) (p : Nat) (c : Core) : (setCore s p c).span = s.span := rfl
@[simp] theorem setCore_t3 (s : State) (p : Nat) (c : Core) : (setCore s p c).t3 = s.t3 := rfl
@[simp] theorem setCore_t4 (s : State) (p : Nat) (c : Core) : (setCore s p c).t4 = s.t4 := rfl
@[simp] theorem setCore_sealedRegions (s : State) (p : Nat) (c : Core) : (setCore s p c).sealedRegions = s.sealedRegions := rfl
@[simp] theorem setCore_coreMap (s : State) (p : Nat) (c : Core) : (setCore s p c).coreMap = s.coreMap := rfl
@[simp] theorem setCore_sched (s : State) (p : Nat) (c : Core) : (setCore s p c).sched = s.sched := rfl
@[simp] theorem setCore_jct (s : State) (p : Nat) (c : Core) : (setCore s p c).jct = s.jct := rfl
@[simp] theorem setCore_lanes (s : State) (p : Nat) (c : Core) : (setCore s p c).lanes = s.lanes := rfl
@[simp] theorem setCore_fenced (s : State) (p : Nat) (c : Core) : (setCore s p c).fenced = s.fenced := rfl
@[simp] theorem setCore_sec (s : State) (p : Nat) (c : Core) : (setCore s p c).sec = s.sec := rfl
@[simp] theorem setCore_rst (s : State) (p : Nat) (c : Core) : (setCore s p c).rst = s.rst := rfl
@[simp] theorem setCore_set (s : State) (p : Nat) (c : Core) : (setCore s p c).set = s.set := rfl
@[simp] theorem setCore_ddr (s : State) (p : Nat) (c : Core) : (setCore s p c).ddr = s.ddr := rfl
@[simp] theorem setCore_pcie (s : State) (p : Nat) (c : Core) : (setCore s p c).pcie = s.pcie := rfl
@[simp] theorem setCore_pwr (s : State) (p : Nat) (c : Core) : (setCore s p c).pwr = s.pwr := rfl
@[simp] theorem setCore_fwWaits (s : State) (p : Nat) (c : Core) : (setCore s p c).fwWaits = s.fwWaits := rfl
@[simp] theorem setCore_cam (s : State) (p : Nat) (c : Core) : (setCore s p c).cam = s.cam := rfl
@[simp] theorem setCore_aud (s : State) (p : Nat) (c : Core) : (setCore s p c).aud = s.aud := rfl
@[simp] theorem setCore_grd (s : State) (p : Nat) (c : Core) : (setCore s p c).grd = s.grd := rfl
@[simp] theorem setCore_rel (s : State) (p : Nat) (c : Core) : (setCore s p c).rel = s.rel := rfl

@[simp] theorem setPeer_pending (s : State) (i : Nat) (p : Peer) : (setPeer s i p).pending = s.pending := rfl
@[simp] theorem setPeer_draws (s : State) (i : Nat) (p : Peer) : (setPeer s i p).draws = s.draws := rfl
@[simp] theorem setPeer_net (s : State) (i : Nat) (p : Peer) : (setPeer s i p).net = s.net := rfl
@[simp] theorem setPeer_regs (s : State) (i : Nat) (p : Peer) : (setPeer s i p).regs = s.regs := rfl
@[simp] theorem setPeer_ctxs (s : State) (i : Nat) (p : Peer) : (setPeer s i p).ctxs = s.ctxs := rfl
@[simp] theorem setPeer_wins (s : State) (i : Nat) (p : Peer) : (setPeer s i p).wins = s.wins := rfl
@[simp] theorem setPeer_flights (s : State) (i : Nat) (p : Peer) : (setPeer s i p).flights = s.flights := rfl
@[simp] theorem setPeer_nextFlight (s : State) (i : Nat) (p : Peer) : (setPeer s i p).nextFlight = s.nextFlight := rfl
@[simp] theorem setPeer_waitHdrs (s : State) (i : Nat) (p : Peer) : (setPeer s i p).waitHdrs = s.waitHdrs := rfl
@[simp] theorem setPeer_decks (s : State) (i : Nat) (p : Peer) : (setPeer s i p).decks = s.decks := rfl
@[simp] theorem setPeer_span (s : State) (i : Nat) (p : Peer) : (setPeer s i p).span = s.span := rfl
@[simp] theorem setPeer_t3 (s : State) (i : Nat) (p : Peer) : (setPeer s i p).t3 = s.t3 := rfl
@[simp] theorem setPeer_t4 (s : State) (i : Nat) (p : Peer) : (setPeer s i p).t4 = s.t4 := rfl
@[simp] theorem setPeer_sealedRegions (s : State) (i : Nat) (p : Peer) : (setPeer s i p).sealedRegions = s.sealedRegions := rfl
@[simp] theorem setPeer_cores (s : State) (i : Nat) (p : Peer) : (setPeer s i p).cores = s.cores := rfl
@[simp] theorem setPeer_coreMap (s : State) (i : Nat) (p : Peer) : (setPeer s i p).coreMap = s.coreMap := rfl
@[simp] theorem setPeer_sched (s : State) (i : Nat) (p : Peer) : (setPeer s i p).sched = s.sched := rfl
@[simp] theorem setPeer_jct (s : State) (i : Nat) (p : Peer) : (setPeer s i p).jct = s.jct := rfl
@[simp] theorem setPeer_lanes (s : State) (i : Nat) (p : Peer) : (setPeer s i p).lanes = s.lanes := rfl
@[simp] theorem setPeer_fenced (s : State) (i : Nat) (p : Peer) : (setPeer s i p).fenced = s.fenced := rfl
@[simp] theorem setPeer_sec (s : State) (i : Nat) (p : Peer) : (setPeer s i p).sec = s.sec := rfl
@[simp] theorem setPeer_rst (s : State) (i : Nat) (p : Peer) : (setPeer s i p).rst = s.rst := rfl
@[simp] theorem setPeer_ddr (s : State) (i : Nat) (p : Peer) : (setPeer s i p).ddr = s.ddr := rfl
@[simp] theorem setPeer_pcie (s : State) (i : Nat) (p : Peer) : (setPeer s i p).pcie = s.pcie := rfl
@[simp] theorem setPeer_pwr (s : State) (i : Nat) (p : Peer) : (setPeer s i p).pwr = s.pwr := rfl
@[simp] theorem setPeer_fwWaits (s : State) (i : Nat) (p : Peer) : (setPeer s i p).fwWaits = s.fwWaits := rfl
@[simp] theorem setPeer_cam (s : State) (i : Nat) (p : Peer) : (setPeer s i p).cam = s.cam := rfl
@[simp] theorem setPeer_aud (s : State) (i : Nat) (p : Peer) : (setPeer s i p).aud = s.aud := rfl
@[simp] theorem setPeer_grd (s : State) (i : Nat) (p : Peer) : (setPeer s i p).grd = s.grd := rfl
@[simp] theorem setPeer_rel (s : State) (i : Nat) (p : Peer) : (setPeer s i p).rel = s.rel := rfl

@[simp] theorem setLane_pending (s : State) (n : Nat) (l : Lane) : (setLane s n l).pending = s.pending := rfl
@[simp] theorem setLane_draws (s : State) (n : Nat) (l : Lane) : (setLane s n l).draws = s.draws := rfl
@[simp] theorem setLane_net (s : State) (n : Nat) (l : Lane) : (setLane s n l).net = s.net := rfl
@[simp] theorem setLane_regs (s : State) (n : Nat) (l : Lane) : (setLane s n l).regs = s.regs := rfl
@[simp] theorem setLane_ctxs (s : State) (n : Nat) (l : Lane) : (setLane s n l).ctxs = s.ctxs := rfl
@[simp] theorem setLane_wins (s : State) (n : Nat) (l : Lane) : (setLane s n l).wins = s.wins := rfl
@[simp] theorem setLane_flights (s : State) (n : Nat) (l : Lane) : (setLane s n l).flights = s.flights := rfl
@[simp] theorem setLane_nextFlight (s : State) (n : Nat) (l : Lane) : (setLane s n l).nextFlight = s.nextFlight := rfl
@[simp] theorem setLane_waitHdrs (s : State) (n : Nat) (l : Lane) : (setLane s n l).waitHdrs = s.waitHdrs := rfl
@[simp] theorem setLane_decks (s : State) (n : Nat) (l : Lane) : (setLane s n l).decks = s.decks := rfl
@[simp] theorem setLane_span (s : State) (n : Nat) (l : Lane) : (setLane s n l).span = s.span := rfl
@[simp] theorem setLane_t3 (s : State) (n : Nat) (l : Lane) : (setLane s n l).t3 = s.t3 := rfl
@[simp] theorem setLane_t4 (s : State) (n : Nat) (l : Lane) : (setLane s n l).t4 = s.t4 := rfl
@[simp] theorem setLane_sealedRegions (s : State) (n : Nat) (l : Lane) : (setLane s n l).sealedRegions = s.sealedRegions := rfl
@[simp] theorem setLane_cores (s : State) (n : Nat) (l : Lane) : (setLane s n l).cores = s.cores := rfl
@[simp] theorem setLane_coreMap (s : State) (n : Nat) (l : Lane) : (setLane s n l).coreMap = s.coreMap := rfl
@[simp] theorem setLane_sched (s : State) (n : Nat) (l : Lane) : (setLane s n l).sched = s.sched := rfl
@[simp] theorem setLane_jct (s : State) (n : Nat) (l : Lane) : (setLane s n l).jct = s.jct := rfl
@[simp] theorem setLane_fenced (s : State) (n : Nat) (l : Lane) : (setLane s n l).fenced = s.fenced := rfl
@[simp] theorem setLane_sec (s : State) (n : Nat) (l : Lane) : (setLane s n l).sec = s.sec := rfl
@[simp] theorem setLane_rst (s : State) (n : Nat) (l : Lane) : (setLane s n l).rst = s.rst := rfl
@[simp] theorem setLane_set (s : State) (n : Nat) (l : Lane) : (setLane s n l).set = s.set := rfl
@[simp] theorem setLane_ddr (s : State) (n : Nat) (l : Lane) : (setLane s n l).ddr = s.ddr := rfl
@[simp] theorem setLane_pcie (s : State) (n : Nat) (l : Lane) : (setLane s n l).pcie = s.pcie := rfl
@[simp] theorem setLane_pwr (s : State) (n : Nat) (l : Lane) : (setLane s n l).pwr = s.pwr := rfl
@[simp] theorem setLane_fwWaits (s : State) (n : Nat) (l : Lane) : (setLane s n l).fwWaits = s.fwWaits := rfl
@[simp] theorem setLane_cam (s : State) (n : Nat) (l : Lane) : (setLane s n l).cam = s.cam := rfl
@[simp] theorem setLane_aud (s : State) (n : Nat) (l : Lane) : (setLane s n l).aud = s.aud := rfl
@[simp] theorem setLane_grd (s : State) (n : Nat) (l : Lane) : (setLane s n l).grd = s.grd := rfl
@[simp] theorem setLane_rel (s : State) (n : Nat) (l : Lane) : (setLane s n l).rel = s.rel := rfl

@[simp] theorem deliver_pending (s : State) (sid : Nat) (p : Packet) (lane : Option Nat) : (deliver s sid p lane).pending = s.pending := by unfold deliver; split; rfl; split <;> rfl
@[simp] theorem deliver_draws (s : State) (sid : Nat) (p : Packet) (lane : Option Nat) : (deliver s sid p lane).draws = s.draws := by unfold deliver; split; rfl; split <;> rfl
@[simp] theorem deliver_regs (s : State) (sid : Nat) (p : Packet) (lane : Option Nat) : (deliver s sid p lane).regs = s.regs := by unfold deliver; split; rfl; split <;> rfl
@[simp] theorem deliver_ctxs (s : State) (sid : Nat) (p : Packet) (lane : Option Nat) : (deliver s sid p lane).ctxs = s.ctxs := by unfold deliver; split; rfl; split <;> rfl
@[simp] theorem deliver_wins (s : State) (sid : Nat) (p : Packet) (lane : Option Nat) : (deliver s sid p lane).wins = s.wins := by unfold deliver; split; rfl; split <;> rfl
@[simp] theorem deliver_flights (s : State) (sid : Nat) (p : Packet) (lane : Option Nat) : (deliver s sid p lane).flights = s.flights := by unfold deliver; split; rfl; split <;> rfl
@[simp] theorem deliver_nextFlight (s : State) (sid : Nat) (p : Packet) (lane : Option Nat) : (deliver s sid p lane).nextFlight = s.nextFlight := by unfold deliver; split; rfl; split <;> rfl
@[simp] theorem deliver_waitHdrs (s : State) (sid : Nat) (p : Packet) (lane : Option Nat) : (deliver s sid p lane).waitHdrs = s.waitHdrs := by unfold deliver; split; rfl; split <;> rfl
@[simp] theorem deliver_decks (s : State) (sid : Nat) (p : Packet) (lane : Option Nat) : (deliver s sid p lane).decks = s.decks := by unfold deliver; split; rfl; split <;> rfl
@[simp] theorem deliver_span (s : State) (sid : Nat) (p : Packet) (lane : Option Nat) : (deliver s sid p lane).span = s.span := by unfold deliver; split; rfl; split <;> rfl
@[simp] theorem deliver_t3 (s : State) (sid : Nat) (p : Packet) (lane : Option Nat) : (deliver s sid p lane).t3 = s.t3 := by unfold deliver; split; rfl; split <;> rfl
@[simp] theorem deliver_t4 (s : State) (sid : Nat) (p : Packet) (lane : Option Nat) : (deliver s sid p lane).t4 = s.t4 := by unfold deliver; split; rfl; split <;> rfl
@[simp] theorem deliver_sealedRegions (s : State) (sid : Nat) (p : Packet) (lane : Option Nat) : (deliver s sid p lane).sealedRegions = s.sealedRegions := by unfold deliver; split; rfl; split <;> rfl
@[simp] theorem deliver_cores (s : State) (sid : Nat) (p : Packet) (lane : Option Nat) : (deliver s sid p lane).cores = s.cores := by unfold deliver; split; rfl; split <;> rfl
@[simp] theorem deliver_coreMap (s : State) (sid : Nat) (p : Packet) (lane : Option Nat) : (deliver s sid p lane).coreMap = s.coreMap := by unfold deliver; split; rfl; split <;> rfl
@[simp] theorem deliver_sched (s : State) (sid : Nat) (p : Packet) (lane : Option Nat) : (deliver s sid p lane).sched = s.sched := by unfold deliver; split; rfl; split <;> rfl
@[simp] theorem deliver_jct (s : State) (sid : Nat) (p : Packet) (lane : Option Nat) : (deliver s sid p lane).jct = s.jct := by unfold deliver; split; rfl; split <;> rfl
@[simp] theorem deliver_lanes (s : State) (sid : Nat) (p : Packet) (lane : Option Nat) : (deliver s sid p lane).lanes = s.lanes := by unfold deliver; split; rfl; split <;> rfl
@[simp] theorem deliver_fenced (s : State) (sid : Nat) (p : Packet) (lane : Option Nat) : (deliver s sid p lane).fenced = s.fenced := by unfold deliver; split; rfl; split <;> rfl
@[simp] theorem deliver_sec (s : State) (sid : Nat) (p : Packet) (lane : Option Nat) : (deliver s sid p lane).sec = s.sec := by unfold deliver; split; rfl; split <;> rfl
@[simp] theorem deliver_rst (s : State) (sid : Nat) (p : Packet) (lane : Option Nat) : (deliver s sid p lane).rst = s.rst := by unfold deliver; split; rfl; split <;> rfl
@[simp] theorem deliver_set (s : State) (sid : Nat) (p : Packet) (lane : Option Nat) : (deliver s sid p lane).set = s.set := by unfold deliver; split; rfl; split <;> rfl
@[simp] theorem deliver_ddr (s : State) (sid : Nat) (p : Packet) (lane : Option Nat) : (deliver s sid p lane).ddr = s.ddr := by unfold deliver; split; rfl; split <;> rfl
@[simp] theorem deliver_pcie (s : State) (sid : Nat) (p : Packet) (lane : Option Nat) : (deliver s sid p lane).pcie = s.pcie := by unfold deliver; split; rfl; split <;> rfl
@[simp] theorem deliver_pwr (s : State) (sid : Nat) (p : Packet) (lane : Option Nat) : (deliver s sid p lane).pwr = s.pwr := by unfold deliver; split; rfl; split <;> rfl
@[simp] theorem deliver_fwWaits (s : State) (sid : Nat) (p : Packet) (lane : Option Nat) : (deliver s sid p lane).fwWaits = s.fwWaits := by unfold deliver; split; rfl; split <;> rfl
@[simp] theorem deliver_cam (s : State) (sid : Nat) (p : Packet) (lane : Option Nat) : (deliver s sid p lane).cam = s.cam := by unfold deliver; split; rfl; split <;> rfl
@[simp] theorem deliver_aud (s : State) (sid : Nat) (p : Packet) (lane : Option Nat) : (deliver s sid p lane).aud = s.aud := by unfold deliver; split; rfl; split <;> rfl
@[simp] theorem deliver_grd (s : State) (sid : Nat) (p : Packet) (lane : Option Nat) : (deliver s sid p lane).grd = s.grd := by unfold deliver; split; rfl; split <;> rfl
@[simp] theorem deliver_rel (s : State) (sid : Nat) (p : Packet) (lane : Option Nat) : (deliver s sid p lane).rel = s.rel := by unfold deliver; split; rfl; split <;> rfl

@[simp] theorem replyAs_pending (s : State) (rq : Req) (op ctx : Nat) (st : Status) (r : Reason) (b : Bytes) : (replyAs s rq op ctx st r b).pending = s.pending := by simp [replyAs]
@[simp] theorem replyAs_regs (s : State) (rq : Req) (op ctx : Nat) (st : Status) (r : Reason) (b : Bytes) : (replyAs s rq op ctx st r b).regs = s.regs := by simp [replyAs]
@[simp] theorem replyAs_ctxs (s : State) (rq : Req) (op ctx : Nat) (st : Status) (r : Reason) (b : Bytes) : (replyAs s rq op ctx st r b).ctxs = s.ctxs := by simp [replyAs]
@[simp] theorem replyAs_wins (s : State) (rq : Req) (op ctx : Nat) (st : Status) (r : Reason) (b : Bytes) : (replyAs s rq op ctx st r b).wins = s.wins := by simp [replyAs]
@[simp] theorem replyAs_flights (s : State) (rq : Req) (op ctx : Nat) (st : Status) (r : Reason) (b : Bytes) : (replyAs s rq op ctx st r b).flights = s.flights := by simp [replyAs]
@[simp] theorem replyAs_nextFlight (s : State) (rq : Req) (op ctx : Nat) (st : Status) (r : Reason) (b : Bytes) : (replyAs s rq op ctx st r b).nextFlight = s.nextFlight := by simp [replyAs]
@[simp] theorem replyAs_waitHdrs (s : State) (rq : Req) (op ctx : Nat) (st : Status) (r : Reason) (b : Bytes) : (replyAs s rq op ctx st r b).waitHdrs = s.waitHdrs := by simp [replyAs]
@[simp] theorem replyAs_decks (s : State) (rq : Req) (op ctx : Nat) (st : Status) (r : Reason) (b : Bytes) : (replyAs s rq op ctx st r b).decks = s.decks := by simp [replyAs]
@[simp] theorem replyAs_span (s : State) (rq : Req) (op ctx : Nat) (st : Status) (r : Reason) (b : Bytes) : (replyAs s rq op ctx st r b).span = s.span := by simp [replyAs]
@[simp] theorem replyAs_t3 (s : State) (rq : Req) (op ctx : Nat) (st : Status) (r : Reason) (b : Bytes) : (replyAs s rq op ctx st r b).t3 = s.t3 := by simp [replyAs]
@[simp] theorem replyAs_t4 (s : State) (rq : Req) (op ctx : Nat) (st : Status) (r : Reason) (b : Bytes) : (replyAs s rq op ctx st r b).t4 = s.t4 := by simp [replyAs]
@[simp] theorem replyAs_sealedRegions (s : State) (rq : Req) (op ctx : Nat) (st : Status) (r : Reason) (b : Bytes) : (replyAs s rq op ctx st r b).sealedRegions = s.sealedRegions := by simp [replyAs]
@[simp] theorem replyAs_cores (s : State) (rq : Req) (op ctx : Nat) (st : Status) (r : Reason) (b : Bytes) : (replyAs s rq op ctx st r b).cores = s.cores := by simp [replyAs]
@[simp] theorem replyAs_coreMap (s : State) (rq : Req) (op ctx : Nat) (st : Status) (r : Reason) (b : Bytes) : (replyAs s rq op ctx st r b).coreMap = s.coreMap := by simp [replyAs]
@[simp] theorem replyAs_sched (s : State) (rq : Req) (op ctx : Nat) (st : Status) (r : Reason) (b : Bytes) : (replyAs s rq op ctx st r b).sched = s.sched := by simp [replyAs]
@[simp] theorem replyAs_jct (s : State) (rq : Req) (op ctx : Nat) (st : Status) (r : Reason) (b : Bytes) : (replyAs s rq op ctx st r b).jct = s.jct := by simp [replyAs]
@[simp] theorem replyAs_lanes (s : State) (rq : Req) (op ctx : Nat) (st : Status) (r : Reason) (b : Bytes) : (replyAs s rq op ctx st r b).lanes = s.lanes := by simp [replyAs]
@[simp] theorem replyAs_fenced (s : State) (rq : Req) (op ctx : Nat) (st : Status) (r : Reason) (b : Bytes) : (replyAs s rq op ctx st r b).fenced = s.fenced := by simp [replyAs]
@[simp] theorem replyAs_sec (s : State) (rq : Req) (op ctx : Nat) (st : Status) (r : Reason) (b : Bytes) : (replyAs s rq op ctx st r b).sec = s.sec := by simp [replyAs]
@[simp] theorem replyAs_rst (s : State) (rq : Req) (op ctx : Nat) (st : Status) (r : Reason) (b : Bytes) : (replyAs s rq op ctx st r b).rst = s.rst := by simp [replyAs]
@[simp] theorem replyAs_set (s : State) (rq : Req) (op ctx : Nat) (st : Status) (r : Reason) (b : Bytes) : (replyAs s rq op ctx st r b).set = s.set := by simp [replyAs]
@[simp] theorem replyAs_ddr (s : State) (rq : Req) (op ctx : Nat) (st : Status) (r : Reason) (b : Bytes) : (replyAs s rq op ctx st r b).ddr = s.ddr := by simp [replyAs]
@[simp] theorem replyAs_pcie (s : State) (rq : Req) (op ctx : Nat) (st : Status) (r : Reason) (b : Bytes) : (replyAs s rq op ctx st r b).pcie = s.pcie := by simp [replyAs]
@[simp] theorem replyAs_pwr (s : State) (rq : Req) (op ctx : Nat) (st : Status) (r : Reason) (b : Bytes) : (replyAs s rq op ctx st r b).pwr = s.pwr := by simp [replyAs]
@[simp] theorem replyAs_fwWaits (s : State) (rq : Req) (op ctx : Nat) (st : Status) (r : Reason) (b : Bytes) : (replyAs s rq op ctx st r b).fwWaits = s.fwWaits := by simp [replyAs]
@[simp] theorem replyAs_cam (s : State) (rq : Req) (op ctx : Nat) (st : Status) (r : Reason) (b : Bytes) : (replyAs s rq op ctx st r b).cam = s.cam := by simp [replyAs]
@[simp] theorem replyAs_aud (s : State) (rq : Req) (op ctx : Nat) (st : Status) (r : Reason) (b : Bytes) : (replyAs s rq op ctx st r b).aud = s.aud := by simp [replyAs]
@[simp] theorem replyAs_grd (s : State) (rq : Req) (op ctx : Nat) (st : Status) (r : Reason) (b : Bytes) : (replyAs s rq op ctx st r b).grd = s.grd := by simp [replyAs]

@[simp] theorem replyC_pending (s : State) (rq : Req) (op : Nat) (st : Status) (r : Reason) (b : Bytes) : (replyC s rq op st r b).pending = s.pending := by simp [replyC]
@[simp] theorem replyC_regs (s : State) (rq : Req) (op : Nat) (st : Status) (r : Reason) (b : Bytes) : (replyC s rq op st r b).regs = s.regs := by simp [replyC]
@[simp] theorem replyC_ctxs (s : State) (rq : Req) (op : Nat) (st : Status) (r : Reason) (b : Bytes) : (replyC s rq op st r b).ctxs = s.ctxs := by simp [replyC]
@[simp] theorem replyC_wins (s : State) (rq : Req) (op : Nat) (st : Status) (r : Reason) (b : Bytes) : (replyC s rq op st r b).wins = s.wins := by simp [replyC]
@[simp] theorem replyC_flights (s : State) (rq : Req) (op : Nat) (st : Status) (r : Reason) (b : Bytes) : (replyC s rq op st r b).flights = s.flights := by simp [replyC]
@[simp] theorem replyC_nextFlight (s : State) (rq : Req) (op : Nat) (st : Status) (r : Reason) (b : Bytes) : (replyC s rq op st r b).nextFlight = s.nextFlight := by simp [replyC]
@[simp] theorem replyC_waitHdrs (s : State) (rq : Req) (op : Nat) (st : Status) (r : Reason) (b : Bytes) : (replyC s rq op st r b).waitHdrs = s.waitHdrs := by simp [replyC]
@[simp] theorem replyC_decks (s : State) (rq : Req) (op : Nat) (st : Status) (r : Reason) (b : Bytes) : (replyC s rq op st r b).decks = s.decks := by simp [replyC]
@[simp] theorem replyC_span (s : State) (rq : Req) (op : Nat) (st : Status) (r : Reason) (b : Bytes) : (replyC s rq op st r b).span = s.span := by simp [replyC]
@[simp] theorem replyC_t3 (s : State) (rq : Req) (op : Nat) (st : Status) (r : Reason) (b : Bytes) : (replyC s rq op st r b).t3 = s.t3 := by simp [replyC]
@[simp] theorem replyC_t4 (s : State) (rq : Req) (op : Nat) (st : Status) (r : Reason) (b : Bytes) : (replyC s rq op st r b).t4 = s.t4 := by simp [replyC]
@[simp] theorem replyC_sealedRegions (s : State) (rq : Req) (op : Nat) (st : Status) (r : Reason) (b : Bytes) : (replyC s rq op st r b).sealedRegions = s.sealedRegions := by simp [replyC]
@[simp] theorem replyC_cores (s : State) (rq : Req) (op : Nat) (st : Status) (r : Reason) (b : Bytes) : (replyC s rq op st r b).cores = s.cores := by simp [replyC]
@[simp] theorem replyC_coreMap (s : State) (rq : Req) (op : Nat) (st : Status) (r : Reason) (b : Bytes) : (replyC s rq op st r b).coreMap = s.coreMap := by simp [replyC]
@[simp] theorem replyC_sched (s : State) (rq : Req) (op : Nat) (st : Status) (r : Reason) (b : Bytes) : (replyC s rq op st r b).sched = s.sched := by simp [replyC]
@[simp] theorem replyC_jct (s : State) (rq : Req) (op : Nat) (st : Status) (r : Reason) (b : Bytes) : (replyC s rq op st r b).jct = s.jct := by simp [replyC]
@[simp] theorem replyC_lanes (s : State) (rq : Req) (op : Nat) (st : Status) (r : Reason) (b : Bytes) : (replyC s rq op st r b).lanes = s.lanes := by simp [replyC]
@[simp] theorem replyC_fenced (s : State) (rq : Req) (op : Nat) (st : Status) (r : Reason) (b : Bytes) : (replyC s rq op st r b).fenced = s.fenced := by simp [replyC]
@[simp] theorem replyC_sec (s : State) (rq : Req) (op : Nat) (st : Status) (r : Reason) (b : Bytes) : (replyC s rq op st r b).sec = s.sec := by simp [replyC]
@[simp] theorem replyC_rst (s : State) (rq : Req) (op : Nat) (st : Status) (r : Reason) (b : Bytes) : (replyC s rq op st r b).rst = s.rst := by simp [replyC]
@[simp] theorem replyC_set (s : State) (rq : Req) (op : Nat) (st : Status) (r : Reason) (b : Bytes) : (replyC s rq op st r b).set = s.set := by simp [replyC]
@[simp] theorem replyC_ddr (s : State) (rq : Req) (op : Nat) (st : Status) (r : Reason) (b : Bytes) : (replyC s rq op st r b).ddr = s.ddr := by simp [replyC]
@[simp] theorem replyC_pcie (s : State) (rq : Req) (op : Nat) (st : Status) (r : Reason) (b : Bytes) : (replyC s rq op st r b).pcie = s.pcie := by simp [replyC]
@[simp] theorem replyC_pwr (s : State) (rq : Req) (op : Nat) (st : Status) (r : Reason) (b : Bytes) : (replyC s rq op st r b).pwr = s.pwr := by simp [replyC]
@[simp] theorem replyC_fwWaits (s : State) (rq : Req) (op : Nat) (st : Status) (r : Reason) (b : Bytes) : (replyC s rq op st r b).fwWaits = s.fwWaits := by simp [replyC]
@[simp] theorem replyC_cam (s : State) (rq : Req) (op : Nat) (st : Status) (r : Reason) (b : Bytes) : (replyC s rq op st r b).cam = s.cam := by simp [replyC]
@[simp] theorem replyC_aud (s : State) (rq : Req) (op : Nat) (st : Status) (r : Reason) (b : Bytes) : (replyC s rq op st r b).aud = s.aud := by simp [replyC]
@[simp] theorem replyC_grd (s : State) (rq : Req) (op : Nat) (st : Status) (r : Reason) (b : Bytes) : (replyC s rq op st r b).grd = s.grd := by simp [replyC]

@[simp] theorem replyD_pending (s : State) (rq : Req) (op : Nat) (st : Status) (r : Reason) (b : Bytes) : (replyD s rq op st r b).pending = s.pending := by simp [replyD]
@[simp] theorem replyD_regs (s : State) (rq : Req) (op : Nat) (st : Status) (r : Reason) (b : Bytes) : (replyD s rq op st r b).regs = s.regs := by simp [replyD]
@[simp] theorem replyD_ctxs (s : State) (rq : Req) (op : Nat) (st : Status) (r : Reason) (b : Bytes) : (replyD s rq op st r b).ctxs = s.ctxs := by simp [replyD]
@[simp] theorem replyD_wins (s : State) (rq : Req) (op : Nat) (st : Status) (r : Reason) (b : Bytes) : (replyD s rq op st r b).wins = s.wins := by simp [replyD]
@[simp] theorem replyD_flights (s : State) (rq : Req) (op : Nat) (st : Status) (r : Reason) (b : Bytes) : (replyD s rq op st r b).flights = s.flights := by simp [replyD]
@[simp] theorem replyD_nextFlight (s : State) (rq : Req) (op : Nat) (st : Status) (r : Reason) (b : Bytes) : (replyD s rq op st r b).nextFlight = s.nextFlight := by simp [replyD]
@[simp] theorem replyD_waitHdrs (s : State) (rq : Req) (op : Nat) (st : Status) (r : Reason) (b : Bytes) : (replyD s rq op st r b).waitHdrs = s.waitHdrs := by simp [replyD]
@[simp] theorem replyD_decks (s : State) (rq : Req) (op : Nat) (st : Status) (r : Reason) (b : Bytes) : (replyD s rq op st r b).decks = s.decks := by simp [replyD]
@[simp] theorem replyD_span (s : State) (rq : Req) (op : Nat) (st : Status) (r : Reason) (b : Bytes) : (replyD s rq op st r b).span = s.span := by simp [replyD]
@[simp] theorem replyD_t3 (s : State) (rq : Req) (op : Nat) (st : Status) (r : Reason) (b : Bytes) : (replyD s rq op st r b).t3 = s.t3 := by simp [replyD]
@[simp] theorem replyD_t4 (s : State) (rq : Req) (op : Nat) (st : Status) (r : Reason) (b : Bytes) : (replyD s rq op st r b).t4 = s.t4 := by simp [replyD]
@[simp] theorem replyD_sealedRegions (s : State) (rq : Req) (op : Nat) (st : Status) (r : Reason) (b : Bytes) : (replyD s rq op st r b).sealedRegions = s.sealedRegions := by simp [replyD]
@[simp] theorem replyD_cores (s : State) (rq : Req) (op : Nat) (st : Status) (r : Reason) (b : Bytes) : (replyD s rq op st r b).cores = s.cores := by simp [replyD]
@[simp] theorem replyD_coreMap (s : State) (rq : Req) (op : Nat) (st : Status) (r : Reason) (b : Bytes) : (replyD s rq op st r b).coreMap = s.coreMap := by simp [replyD]
@[simp] theorem replyD_sched (s : State) (rq : Req) (op : Nat) (st : Status) (r : Reason) (b : Bytes) : (replyD s rq op st r b).sched = s.sched := by simp [replyD]
@[simp] theorem replyD_jct (s : State) (rq : Req) (op : Nat) (st : Status) (r : Reason) (b : Bytes) : (replyD s rq op st r b).jct = s.jct := by simp [replyD]
@[simp] theorem replyD_lanes (s : State) (rq : Req) (op : Nat) (st : Status) (r : Reason) (b : Bytes) : (replyD s rq op st r b).lanes = s.lanes := by simp [replyD]
@[simp] theorem replyD_fenced (s : State) (rq : Req) (op : Nat) (st : Status) (r : Reason) (b : Bytes) : (replyD s rq op st r b).fenced = s.fenced := by simp [replyD]
@[simp] theorem replyD_sec (s : State) (rq : Req) (op : Nat) (st : Status) (r : Reason) (b : Bytes) : (replyD s rq op st r b).sec = s.sec := by simp [replyD]
@[simp] theorem replyD_rst (s : State) (rq : Req) (op : Nat) (st : Status) (r : Reason) (b : Bytes) : (replyD s rq op st r b).rst = s.rst := by simp [replyD]
@[simp] theorem replyD_set (s : State) (rq : Req) (op : Nat) (st : Status) (r : Reason) (b : Bytes) : (replyD s rq op st r b).set = s.set := by simp [replyD]
@[simp] theorem replyD_ddr (s : State) (rq : Req) (op : Nat) (st : Status) (r : Reason) (b : Bytes) : (replyD s rq op st r b).ddr = s.ddr := by simp [replyD]
@[simp] theorem replyD_pcie (s : State) (rq : Req) (op : Nat) (st : Status) (r : Reason) (b : Bytes) : (replyD s rq op st r b).pcie = s.pcie := by simp [replyD]
@[simp] theorem replyD_pwr (s : State) (rq : Req) (op : Nat) (st : Status) (r : Reason) (b : Bytes) : (replyD s rq op st r b).pwr = s.pwr := by simp [replyD]
@[simp] theorem replyD_fwWaits (s : State) (rq : Req) (op : Nat) (st : Status) (r : Reason) (b : Bytes) : (replyD s rq op st r b).fwWaits = s.fwWaits := by simp [replyD]
@[simp] theorem replyD_cam (s : State) (rq : Req) (op : Nat) (st : Status) (r : Reason) (b : Bytes) : (replyD s rq op st r b).cam = s.cam := by simp [replyD]
@[simp] theorem replyD_aud (s : State) (rq : Req) (op : Nat) (st : Status) (r : Reason) (b : Bytes) : (replyD s rq op st r b).aud = s.aud := by simp [replyD]
@[simp] theorem replyD_grd (s : State) (rq : Req) (op : Nat) (st : Status) (r : Reason) (b : Bytes) : (replyD s rq op st r b).grd = s.grd := by simp [replyD]

/-- A fold of states that keeps a projection at every step keeps it. -/
theorem foldl_keeps {α β : Type} (g : State → β) (f : State → α → State) (h : ∀ s a, g (f s a) = g s) (l : List α) (s : State) :
    g (l.foldl f s) = g s := by
  induction l generalizing s with
  | nil => rfl
  | cons a r ih => rw [List.foldl_cons, ih, h]

/-- An event changes the Kraros layer and the counter of draws alone. -/
theorem emit_keeps {β : Type} (g : State → β) (hd : ∀ s sid p l, g (deliver s sid p l) = g s)
    (hn : ∀ (s : State) (n : Net) (d : Nat), g { s with net := n, draws := d } = g s)
    (s : State) (c : Option Nat) (st : Status) (r : Reason) (b : Bytes) : g (emit s c st r b) = g s := by
  unfold emit
  split
  · exact hn s _ s.draws
  · dsimp only
    split
    · exact hn s _ _
    · rw [foldl_keeps g (fun a sid => deliver a sid _ none) (fun s a => hd s a _ none)]
      exact hn s _ _

@[simp] theorem emit_pending (s : State) (c : Option Nat) (st : Status) (r : Reason) (b : Bytes) : (emit s c st r b).pending = s.pending :=
  emit_keeps State.pending (fun s sid p l => deliver_pending s sid p l) (fun _ _ _ => rfl) s c st r b
@[simp] theorem emit_regs (s : State) (c : Option Nat) (st : Status) (r : Reason) (b : Bytes) : (emit s c st r b).regs = s.regs :=
  emit_keeps State.regs (fun s sid p l => deliver_regs s sid p l) (fun _ _ _ => rfl) s c st r b
@[simp] theorem emit_ctxs (s : State) (c : Option Nat) (st : Status) (r : Reason) (b : Bytes) : (emit s c st r b).ctxs = s.ctxs :=
  emit_keeps State.ctxs (fun s sid p l => deliver_ctxs s sid p l) (fun _ _ _ => rfl) s c st r b
@[simp] theorem emit_wins (s : State) (c : Option Nat) (st : Status) (r : Reason) (b : Bytes) : (emit s c st r b).wins = s.wins :=
  emit_keeps State.wins (fun s sid p l => deliver_wins s sid p l) (fun _ _ _ => rfl) s c st r b
@[simp] theorem emit_flights (s : State) (c : Option Nat) (st : Status) (r : Reason) (b : Bytes) : (emit s c st r b).flights = s.flights :=
  emit_keeps State.flights (fun s sid p l => deliver_flights s sid p l) (fun _ _ _ => rfl) s c st r b
@[simp] theorem emit_nextFlight (s : State) (c : Option Nat) (st : Status) (r : Reason) (b : Bytes) : (emit s c st r b).nextFlight = s.nextFlight :=
  emit_keeps State.nextFlight (fun s sid p l => deliver_nextFlight s sid p l) (fun _ _ _ => rfl) s c st r b
@[simp] theorem emit_waitHdrs (s : State) (c : Option Nat) (st : Status) (r : Reason) (b : Bytes) : (emit s c st r b).waitHdrs = s.waitHdrs :=
  emit_keeps State.waitHdrs (fun s sid p l => deliver_waitHdrs s sid p l) (fun _ _ _ => rfl) s c st r b
@[simp] theorem emit_decks (s : State) (c : Option Nat) (st : Status) (r : Reason) (b : Bytes) : (emit s c st r b).decks = s.decks :=
  emit_keeps State.decks (fun s sid p l => deliver_decks s sid p l) (fun _ _ _ => rfl) s c st r b
@[simp] theorem emit_span (s : State) (c : Option Nat) (st : Status) (r : Reason) (b : Bytes) : (emit s c st r b).span = s.span :=
  emit_keeps State.span (fun s sid p l => deliver_span s sid p l) (fun _ _ _ => rfl) s c st r b
@[simp] theorem emit_t3 (s : State) (c : Option Nat) (st : Status) (r : Reason) (b : Bytes) : (emit s c st r b).t3 = s.t3 :=
  emit_keeps State.t3 (fun s sid p l => deliver_t3 s sid p l) (fun _ _ _ => rfl) s c st r b
@[simp] theorem emit_t4 (s : State) (c : Option Nat) (st : Status) (r : Reason) (b : Bytes) : (emit s c st r b).t4 = s.t4 :=
  emit_keeps State.t4 (fun s sid p l => deliver_t4 s sid p l) (fun _ _ _ => rfl) s c st r b
@[simp] theorem emit_sealedRegions (s : State) (c : Option Nat) (st : Status) (r : Reason) (b : Bytes) : (emit s c st r b).sealedRegions = s.sealedRegions :=
  emit_keeps State.sealedRegions (fun s sid p l => deliver_sealedRegions s sid p l) (fun _ _ _ => rfl) s c st r b
@[simp] theorem emit_cores (s : State) (c : Option Nat) (st : Status) (r : Reason) (b : Bytes) : (emit s c st r b).cores = s.cores :=
  emit_keeps State.cores (fun s sid p l => deliver_cores s sid p l) (fun _ _ _ => rfl) s c st r b
@[simp] theorem emit_coreMap (s : State) (c : Option Nat) (st : Status) (r : Reason) (b : Bytes) : (emit s c st r b).coreMap = s.coreMap :=
  emit_keeps State.coreMap (fun s sid p l => deliver_coreMap s sid p l) (fun _ _ _ => rfl) s c st r b
@[simp] theorem emit_sched (s : State) (c : Option Nat) (st : Status) (r : Reason) (b : Bytes) : (emit s c st r b).sched = s.sched :=
  emit_keeps State.sched (fun s sid p l => deliver_sched s sid p l) (fun _ _ _ => rfl) s c st r b
@[simp] theorem emit_jct (s : State) (c : Option Nat) (st : Status) (r : Reason) (b : Bytes) : (emit s c st r b).jct = s.jct :=
  emit_keeps State.jct (fun s sid p l => deliver_jct s sid p l) (fun _ _ _ => rfl) s c st r b
@[simp] theorem emit_lanes (s : State) (c : Option Nat) (st : Status) (r : Reason) (b : Bytes) : (emit s c st r b).lanes = s.lanes :=
  emit_keeps State.lanes (fun s sid p l => deliver_lanes s sid p l) (fun _ _ _ => rfl) s c st r b
@[simp] theorem emit_fenced (s : State) (c : Option Nat) (st : Status) (r : Reason) (b : Bytes) : (emit s c st r b).fenced = s.fenced :=
  emit_keeps State.fenced (fun s sid p l => deliver_fenced s sid p l) (fun _ _ _ => rfl) s c st r b
@[simp] theorem emit_sec (s : State) (c : Option Nat) (st : Status) (r : Reason) (b : Bytes) : (emit s c st r b).sec = s.sec :=
  emit_keeps State.sec (fun s sid p l => deliver_sec s sid p l) (fun _ _ _ => rfl) s c st r b
@[simp] theorem emit_rst (s : State) (c : Option Nat) (st : Status) (r : Reason) (b : Bytes) : (emit s c st r b).rst = s.rst :=
  emit_keeps State.rst (fun s sid p l => deliver_rst s sid p l) (fun _ _ _ => rfl) s c st r b
@[simp] theorem emit_set (s : State) (c : Option Nat) (st : Status) (r : Reason) (b : Bytes) : (emit s c st r b).set = s.set :=
  emit_keeps State.set (fun s sid p l => deliver_set s sid p l) (fun _ _ _ => rfl) s c st r b
@[simp] theorem emit_ddr (s : State) (c : Option Nat) (st : Status) (r : Reason) (b : Bytes) : (emit s c st r b).ddr = s.ddr :=
  emit_keeps State.ddr (fun s sid p l => deliver_ddr s sid p l) (fun _ _ _ => rfl) s c st r b
@[simp] theorem emit_pcie (s : State) (c : Option Nat) (st : Status) (r : Reason) (b : Bytes) : (emit s c st r b).pcie = s.pcie :=
  emit_keeps State.pcie (fun s sid p l => deliver_pcie s sid p l) (fun _ _ _ => rfl) s c st r b
@[simp] theorem emit_pwr (s : State) (c : Option Nat) (st : Status) (r : Reason) (b : Bytes) : (emit s c st r b).pwr = s.pwr :=
  emit_keeps State.pwr (fun s sid p l => deliver_pwr s sid p l) (fun _ _ _ => rfl) s c st r b
@[simp] theorem emit_fwWaits (s : State) (c : Option Nat) (st : Status) (r : Reason) (b : Bytes) : (emit s c st r b).fwWaits = s.fwWaits :=
  emit_keeps State.fwWaits (fun s sid p l => deliver_fwWaits s sid p l) (fun _ _ _ => rfl) s c st r b
@[simp] theorem emit_cam (s : State) (c : Option Nat) (st : Status) (r : Reason) (b : Bytes) : (emit s c st r b).cam = s.cam :=
  emit_keeps State.cam (fun s sid p l => deliver_cam s sid p l) (fun _ _ _ => rfl) s c st r b
@[simp] theorem emit_aud (s : State) (c : Option Nat) (st : Status) (r : Reason) (b : Bytes) : (emit s c st r b).aud = s.aud :=
  emit_keeps State.aud (fun s sid p l => deliver_aud s sid p l) (fun _ _ _ => rfl) s c st r b
@[simp] theorem emit_grd (s : State) (c : Option Nat) (st : Status) (r : Reason) (b : Bytes) : (emit s c st r b).grd = s.grd :=
  emit_keeps State.grd (fun s sid p l => deliver_grd s sid p l) (fun _ _ _ => rfl) s c st r b
@[simp] theorem emit_rel (s : State) (c : Option Nat) (st : Status) (r : Reason) (b : Bytes) : (emit s c st r b).rel = s.rel :=
  emit_keeps State.rel (fun s sid p l => deliver_rel s sid p l) (fun _ _ _ => rfl) s c st r b
@[simp] theorem emitDev_pending (s : State) (r : Reason) (b : Bytes) : (emitDev s r b).pending = s.pending := by simp [emitDev]
@[simp] theorem emitDev_regs (s : State) (r : Reason) (b : Bytes) : (emitDev s r b).regs = s.regs := by simp [emitDev]
@[simp] theorem emitDev_ctxs (s : State) (r : Reason) (b : Bytes) : (emitDev s r b).ctxs = s.ctxs := by simp [emitDev]
@[simp] theorem emitDev_wins (s : State) (r : Reason) (b : Bytes) : (emitDev s r b).wins = s.wins := by simp [emitDev]
@[simp] theorem emitDev_flights (s : State) (r : Reason) (b : Bytes) : (emitDev s r b).flights = s.flights := by simp [emitDev]
@[simp] theorem emitDev_nextFlight (s : State) (r : Reason) (b : Bytes) : (emitDev s r b).nextFlight = s.nextFlight := by simp [emitDev]
@[simp] theorem emitDev_waitHdrs (s : State) (r : Reason) (b : Bytes) : (emitDev s r b).waitHdrs = s.waitHdrs := by simp [emitDev]
@[simp] theorem emitDev_decks (s : State) (r : Reason) (b : Bytes) : (emitDev s r b).decks = s.decks := by simp [emitDev]
@[simp] theorem emitDev_span (s : State) (r : Reason) (b : Bytes) : (emitDev s r b).span = s.span := by simp [emitDev]
@[simp] theorem emitDev_t3 (s : State) (r : Reason) (b : Bytes) : (emitDev s r b).t3 = s.t3 := by simp [emitDev]
@[simp] theorem emitDev_t4 (s : State) (r : Reason) (b : Bytes) : (emitDev s r b).t4 = s.t4 := by simp [emitDev]
@[simp] theorem emitDev_sealedRegions (s : State) (r : Reason) (b : Bytes) : (emitDev s r b).sealedRegions = s.sealedRegions := by simp [emitDev]
@[simp] theorem emitDev_cores (s : State) (r : Reason) (b : Bytes) : (emitDev s r b).cores = s.cores := by simp [emitDev]
@[simp] theorem emitDev_coreMap (s : State) (r : Reason) (b : Bytes) : (emitDev s r b).coreMap = s.coreMap := by simp [emitDev]
@[simp] theorem emitDev_sched (s : State) (r : Reason) (b : Bytes) : (emitDev s r b).sched = s.sched := by simp [emitDev]
@[simp] theorem emitDev_jct (s : State) (r : Reason) (b : Bytes) : (emitDev s r b).jct = s.jct := by simp [emitDev]
@[simp] theorem emitDev_lanes (s : State) (r : Reason) (b : Bytes) : (emitDev s r b).lanes = s.lanes := by simp [emitDev]
@[simp] theorem emitDev_fenced (s : State) (r : Reason) (b : Bytes) : (emitDev s r b).fenced = s.fenced := by simp [emitDev]
@[simp] theorem emitDev_sec (s : State) (r : Reason) (b : Bytes) : (emitDev s r b).sec = s.sec := by simp [emitDev]
@[simp] theorem emitDev_rst (s : State) (r : Reason) (b : Bytes) : (emitDev s r b).rst = s.rst := by simp [emitDev]
@[simp] theorem emitDev_set (s : State) (r : Reason) (b : Bytes) : (emitDev s r b).set = s.set := by simp [emitDev]
@[simp] theorem emitDev_ddr (s : State) (r : Reason) (b : Bytes) : (emitDev s r b).ddr = s.ddr := by simp [emitDev]
@[simp] theorem emitDev_pcie (s : State) (r : Reason) (b : Bytes) : (emitDev s r b).pcie = s.pcie := by simp [emitDev]
@[simp] theorem emitDev_pwr (s : State) (r : Reason) (b : Bytes) : (emitDev s r b).pwr = s.pwr := by simp [emitDev]
@[simp] theorem emitDev_fwWaits (s : State) (r : Reason) (b : Bytes) : (emitDev s r b).fwWaits = s.fwWaits := by simp [emitDev]
@[simp] theorem emitDev_cam (s : State) (r : Reason) (b : Bytes) : (emitDev s r b).cam = s.cam := by simp [emitDev]
@[simp] theorem emitDev_aud (s : State) (r : Reason) (b : Bytes) : (emitDev s r b).aud = s.aud := by simp [emitDev]
@[simp] theorem emitDev_grd (s : State) (r : Reason) (b : Bytes) : (emitDev s r b).grd = s.grd := by simp [emitDev]
@[simp] theorem emitDev_rel (s : State) (r : Reason) (b : Bytes) : (emitDev s r b).rel = s.rel := by simp [emitDev]

end Sys2Proof.Machine
end

