-- ==== Sys2Proof/Laws/Tables.lean ====
section
/-!
SUPPORT. Reading a table after it is updated: an entry that is set is the one read, and every other entry stays.
-/

namespace Sys2Proof.Machine

@[simp] theorem tget?_tset_self {α : Type} (t : Tab α) (k : Nat) (v : α) : tget? (tset t k v) k = some v := by
  induction t with
  | nil => simp [tset, tget?]
  | cons e r ih =>
    obtain ⟨j, w⟩ := e
    unfold tset
    by_cases h1 : k < j
    · simp [h1, tget?]
    · by_cases h2 : k = j
      · simp [h2, tget?]
      · have h3 : (k == j) = false := by simp [h2]
        simp only [h1, h2, if_false, tget?, List.lookup_cons, h3]
        exact ih

theorem tget?_tset_ne {α : Type} (t : Tab α) (k m : Nat) (v : α) (h : m ≠ k) : tget? (tset t k v) m = tget? t m := by
  have hk : (m == k) = false := by simp [h]
  induction t with
  | nil => simp [tset, tget?, List.lookup_cons, hk]
  | cons e r ih =>
    obtain ⟨j, w⟩ := e
    unfold tset
    by_cases h1 : k < j
    · simp [h1, tget?, List.lookup_cons, hk]
    · by_cases h2 : k = j
      · subst h2
        simp [tget?, List.lookup_cons, hk]
      · simp only [h1, h2, if_false, tget?, List.lookup_cons]
        split
        · rfl
        · exact ih

@[simp] theorem tget_tset_self {α : Type} (t : Tab α) (k : Nat) (v d : α) : tget (tset t k v) d k = v := by
  have := tget?_tset_self t k v
  simp only [tget?] at this
  simp [tget, this]

theorem tget_tset_ne {α : Type} (t : Tab α) (k m : Nat) (v d : α) (h : m ≠ k) :
    tget (tset t k v) d m = tget t d m := by
  have := tget?_tset_ne t k m v h
  simp only [tget?] at this
  simp [tget, this]

theorem tget?_tmod_self {α : Type} (t : Tab α) (k : Nat) (f : α → α) : tget? (tmod t k f) k = (tget? t k).map f := by
  unfold tmod
  cases h : tget? t k <;> simp [h]

theorem tget?_tmod_ne {α : Type} (t : Tab α) (k m : Nat) (f : α → α) (h : m ≠ k) :
    tget? (tmod t k f) m = tget? t m := by
  unfold tmod
  split
  · exact tget?_tset_ne t k m _ h
  · rfl

theorem tget?_terase_self {α : Type} (t : Tab α) (k : Nat) : tget? (terase t k) k = none := by
  induction t with
  | nil => rfl
  | cons e r ih =>
    obtain ⟨j, w⟩ := e
    unfold terase at *
    by_cases h : j = k
    · simpa [h] using ih
    · have h' : (k == j) = false := by simp [Ne.symm h]
      simpa [h, tget?, List.lookup_cons, h'] using ih

theorem tget?_terase_ne {α : Type} (t : Tab α) (k m : Nat) (h : m ≠ k) : tget? (terase t k) m = tget? t m := by
  induction t with
  | nil => rfl
  | cons e r ih =>
    obtain ⟨j, w⟩ := e
    unfold terase tget? at *
    by_cases h1 : j = k
    · subst h1
      have h2 : (m == j) = false := by simp [h]
      simpa [List.lookup_cons, h2] using ih
    · have h3 : (!((j, w).1 == k)) = true := by simp [h1]
      rw [List.filter_cons, if_pos h3, List.lookup_cons, List.lookup_cons, ih]

/-! ## The tables of the state -/

@[simp] theorem winAt_setWin (s : State) (k : Nat) (w : Win) : winAt (setWin s k w) k = w := by simp [winAt, setWin]

theorem winAt_setWin_ne (s : State) (k m : Nat) (w : Win) (h : m ≠ k) : winAt (setWin s k w) m = winAt s m := by
  simp [winAt, setWin, tget_tset_ne _ _ _ _ _ h]

@[simp] theorem coreOf_setCore (s : State) (p : Nat) (c : Core) : coreOf (setCore s p c) p = c := by simp [coreOf, setCore]

@[simp] theorem peerAt_setPeer (s : State) (i : Nat) (p : Peer) : peerAt (setPeer s i p) i = p := by simp [peerAt, setPeer]

@[simp] theorem laneAt_setLane (s : State) (n : Nat) (l : Lane) : laneAt (setLane s n l) n = l := by simp [laneAt, setLane]

@[simp] theorem tget?_setCtx (s : State) (c : Nat) (x : Ctx) : tget? (setCtx s c x).ctxs c = some x := by simp [setCtx]

theorem tget?_modCtx (s : State) (c : Nat) (f : Ctx → Ctx) : tget? (modCtx s c f).ctxs c = (tget? s.ctxs c).map f := by
  simp [modCtx, tget?_tmod_self]

end Sys2Proof.Machine
end

