-- ==== Sys2Proof/Laws/Packets.lean ====
section
/-!
SUPPORT. What a packet, a final reply and an event do to the Kraros layer.
-/

namespace Sys2Proof.Machine

/-- A delivered packet is the last one sent. -/
theorem deliver_sent (s : State) (sid : Nat) (p : Packet) (lane : Option Nat) (h : (tget? s.net.sessions sid).isSome) :
    ∃ n w, (deliver s sid p lane).net.sent.head? = some { p with sess := sid, link := n, wire := w } := by
  obtain ⟨e, he⟩ := Option.isSome_iff_exists.mp h
  unfold deliver
  rw [he]
  by_cases hp : e.peer.isSome
  · exact ⟨0, p.wire.orElse (fun _ => wireOf s sid), by simp [hp, sendPkt]⟩
  · exact ⟨e.nextOut, wireOf s sid, by simp [hp]⟩

/-- Taking a command off the list of commands in progress keeps its session. -/
theorem finishCmd_live (s : State) (sid seq m : Nat) :
    (tget? (finishCmd s sid seq).net.sessions m).isSome = (tget? s.net.sessions m).isSome := by
  unfold finishCmd
  by_cases h : m = sid
  · subst h
    simp [tget?_tmod_self]
  · simp [tget?_tmod_ne _ _ _ _ h]

/-- The meter of replies leaves the Kraros layer alone. -/
theorem replyMeter_sessions (s : State) (i : Iface) : (replyMeter s i).net.sessions = s.net.sessions := rfl

/-- The final reply of a command of a live session is the last packet sent. -/
theorem replyAs_replied (s : State) (rq : Req) (op ctx : Nat) (st : Status) (r : Reason) (b : Bytes) (h : Live rq s) :
    Replied rq op ctx st r b (replyAs s rq op ctx st r b) := by
  have hl : (tget? (finishCmd (replyMeter s rq.iface) rq.sess rq.seq).net.sessions rq.sess).isSome := by
    rw [finishCmd_live]
    exact h
  obtain ⟨n, w, hn⟩ := deliver_sent (finishCmd (replyMeter s rq.iface) rq.sess rq.seq) rq.sess
    { cls := .rsp, op := op, seq := rq.seq, ctx := ctx, status := st, reason := r, payload := b } none hl
  exact ⟨n, w, hn⟩

/-- The reply to a context-scoped command. -/
theorem replyC_replied (s : State) (rq : Req) (op : Nat) (st : Status) (r : Reason) (b : Bytes) (h : Live rq s) :
    Replied rq op rq.ctx st r b (replyC s rq op st r b) := replyAs_replied s rq op rq.ctx st r b h

/-- The reply to any other command. -/
theorem replyD_replied (s : State) (rq : Req) (op : Nat) (st : Status) (r : Reason) (b : Bytes) (h : Live rq s) :
    Replied rq op 0 st r b (replyD s rq op st r b) := replyAs_replied s rq op 0 st r b h

/-- A delivered packet changes the sessions, the outbound store and the record of packets of the Kraros layer alone. -/
theorem deliver_frame (s : State) (sid : Nat) (p : Packet) (lane : Option Nat) :
    deliver s sid p lane = { s with net := (deliver s sid p lane).net } := by
  unfold deliver
  split
  · rfl
  · split <;> rfl

/-- A delivered packet leaves every other session alone. -/
theorem deliver_session_ne (s : State) (sid m : Nat) (p : Packet) (l : Option Nat) (h : m ≠ sid) :
    tget? (deliver s sid p l).net.sessions m = tget? s.net.sessions m := by
  unfold deliver
  split
  · rfl
  · split
    · rfl
    · exact tget?_tset_ne _ _ _ _ h

/-- A reply leaves every other session alone. -/
theorem replyAs_session_ne (s : State) (rq : Req) (op c : Nat) (st : Status) (r : Reason) (b : Bytes) (m : Nat)
    (h : m ≠ rq.sess) : tget? (replyAs s rq op c st r b).net.sessions m = tget? s.net.sessions m := by
  unfold replyAs
  rw [deliver_session_ne _ _ _ _ _ h]
  unfold finishCmd
  exact tget?_tmod_ne _ _ _ _ h

/-- A reply keeps its own session, whose identity, proof and subscription stay. -/
theorem replyAs_session (s : State) (rq : Req) (op c : Nat) (st : Status) (r : Reason) (b : Bytes) (e : Session)
    (h : tget? s.net.sessions rq.sess = some e) :
    ∃ x, tget? (replyAs s rq op c st r b).net.sessions rq.sess = some x ∧ x.iface = e.iface ∧ x.src = e.src ∧
      x.sport = e.sport ∧ x.port = e.port ∧ x.peer = e.peer ∧ x.proved = e.proved ∧ x.events = e.events ∧
      x.maxPayload = e.maxPayload := by
  have h1 : tget? (finishCmd (replyMeter s rq.iface) rq.sess rq.seq).net.sessions rq.sess =
      some { e with inProgress := e.inProgress.erase rq.seq } := by
    simp only [finishCmd, tget?_tmod_self, replyMeter_sessions, h, Option.map_some]
  unfold replyAs deliver
  simp only [h1]
  split
  · exact ⟨_, h1, rfl, rfl, rfl, rfl, rfl, rfl, rfl, rfl⟩
  · exact ⟨_, tget?_tset_self _ _ _, rfl, rfl, rfl, rfl, rfl, rfl, rfl, rfl⟩

/-- A session that is ended is gone, and with it its outbound entries. -/
theorem endSession_gone (s : State) (sid : Nat) :
    tget? (endSession s sid).net.sessions sid = none ∧
    (endSession s sid).net.outbound.any (fun o => o.pkt.sess == sid) = false := by
  constructor
  · exact tget?_terase_self _ _
  · simp [endSession]

/-- What a delivered packet leaves alone in the Kraros layer. -/
theorem deliver_net (s : State) (sid : Nat) (p : Packet) (lane : Option Nat) :
    (deliver s sid p lane).net = { s.net with
      sessions := (deliver s sid p lane).net.sessions, outbound := (deliver s sid p lane).net.outbound,
      sent := (deliver s sid p lane).net.sent } := by
  unfold deliver
  split
  · rfl
  · split <;> rfl

/-- A reply changes the packets, its own session and the records of latency alone. -/
theorem replyAs_only (s : State) (rq : Req) (op ctx : Nat) (st : Status) (r : Reason) (b : Bytes) :
    OnlyReply rq s (replyAs s rq op ctx st r b) := by
  refine ⟨?_, fun m h => replyAs_session_ne s rq op ctx st r b m h⟩
  have h1 := deliver_frame (finishCmd (replyMeter s rq.iface) rq.sess rq.seq) rq.sess
    { cls := .rsp, op := op, seq := rq.seq, ctx := ctx, status := st, reason := r, payload := b } none
  have h2 := deliver_net (finishCmd (replyMeter s rq.iface) rq.sess rq.seq) rq.sess
    { cls := .rsp, op := op, seq := rq.seq, ctx := ctx, status := st, reason := r, payload := b } none
  unfold replyAs
  rw [h1]
  simp only
  rw [h2]
  rfl

/-- A command whose meaning ends in a reply without a context. -/
theorem answered_replyD {i : Instr} {s u : State} {rq : Req} {op : Nat} {st : Status} {r : Reason} {b : Bytes}
    (h : exec i s = .next (replyD u rq op st r b)) (hl : Live rq u) : Answered i s rq op 0 st r b u :=
  ⟨_, h, replyAs_replied u rq op 0 st r b hl, replyAs_only u rq op 0 st r b⟩

/-- A command whose meaning ends in a reply of its context. -/
theorem answered_replyC {i : Instr} {s u : State} {rq : Req} {op : Nat} {st : Status} {r : Reason} {b : Bytes}
    (h : exec i s = .next (replyC u rq op st r b)) (hl : Live rq u) : Answered i s rq op rq.ctx st r b u :=
  ⟨_, h, replyAs_replied u rq op rq.ctx st r b hl, replyAs_only u rq op rq.ctx st r b⟩

end Sys2Proof.Machine
end

