-- ==== Sys2Proof/Laws/Events.lean ====
section
/-!
SUPPORT. What reporting an event does: it is numbered, it is the last packet sent or it waits, and nothing else changes.
-/

namespace Sys2Proof.Machine

/-- Delivering one packet to several sessions changes the packets, the outbound store and the sessions alone. -/
theorem deliverAll_frame (p : Packet) (ts : List Nat) (s : State) :
    ts.foldl (fun a sid => deliver a sid p none) s = { s with
      net := { s.net with
        sessions := (ts.foldl (fun a sid => deliver a sid p none) s).net.sessions,
        outbound := (ts.foldl (fun a sid => deliver a sid p none) s).net.outbound,
        sent := (ts.foldl (fun a sid => deliver a sid p none) s).net.sent } } := by
  induction ts generalizing s with
  | nil => rfl
  | cons k r ih =>
    simp only [List.foldl_cons]
    rw [ih (deliver s k p none)]
    rw [deliver_frame s k p none, deliver_net s k p none]

/-- A session that lives keeps living when a packet is delivered to any session. -/
theorem deliver_live (s : State) (sid m : Nat) (p : Packet) (h : (tget? s.net.sessions m).isSome) :
    (tget? (deliver s sid p none).net.sessions m).isSome := by
  by_cases hm : m = sid
  · subst hm
    obtain ⟨e, he⟩ := Option.isSome_iff_exists.mp h
    unfold deliver
    rw [he]
    by_cases hp : e.peer.isSome
    · simp [hp, sendPkt, he]
    · simp [hp]
  · rw [deliver_session_ne _ _ _ _ _ hm]
    exact h

/-- A packet delivered to sessions that live, of which there is at least one, is the last packet sent. -/
theorem deliverAll_sent (p : Packet) (ts : List Nat) (s : State) (hne : ts ≠ [])
    (hl : ∀ k ∈ ts, (tget? s.net.sessions k).isSome) :
    ∃ sid n w, (ts.foldl (fun a sid => deliver a sid p none) s).net.sent.head? =
      some { p with sess := sid, link := n, wire := w } := by
  induction ts generalizing s with
  | nil => exact absurd rfl hne
  | cons k r ih =>
    simp only [List.foldl_cons]
    by_cases hr : r = []
    · subst hr
      obtain ⟨n, w, hn⟩ := deliver_sent s k p none (hl k (by simp))
      exact ⟨k, n, w, hn⟩
    · exact ih _ hr (fun m hm => deliver_live s k m p (hl m (by simp [hm])))

/-- A key of a table has an entry. -/
theorem tget?_isSome_of_mem {α : Type} (t : Tab α) (k : Nat) (h : k ∈ t.map Prod.fst) : (tget? t k).isSome := by
  induction t with
  | nil => simp at h
  | cons e r ih =>
    obtain ⟨j, w⟩ := e
    unfold tget? at *
    rw [List.lookup_cons]
    split
    · rfl
    · rename_i hk
      simp only [List.map_cons, List.mem_cons] at h
      rcases h with h | h
      · simp [h] at hk
      · exact ih h

/-- The sessions to which an event goes live. -/
theorem eventTargets_live (s : State) (d : Bool) (k : Nat) (h : k ∈ eventTargets s d) :
    (tget? s.net.sessions k).isSome := by
  apply tget?_isSome_of_mem
  unfold eventTargets at h
  obtain ⟨e, he, rfl⟩ := List.mem_map.mp h
  exact List.mem_map.mpr ⟨e, List.mem_of_mem_filter he, rfl⟩

theorem leBytes_length (w n : Nat) : (leBytes w n).length = w := by
  induction w generalizing n with
  | zero => rfl
  | succ w ih => simp [leBytes, ih]

/-- An event that the outbound store has room for is reported (R530, R531). -/
theorem emit_reported (s : State) (c : Option Nat) (st : Status) (r : Reason) (b : Bytes) (h : EventRoom s) :
    Reported c st r b s (emit s c st r b) := by
  have hd : ∀ n x, (leBytes 8 n ++ x : Bytes).drop 8 = x := by
    intro n x
    exact List.drop_left' (leBytes_length 8 n)
  unfold emit
  rw [if_neg (by simp [h.2, Nat.not_le.mpr h.1])]
  simp only
  split
  · refine ⟨rfl, _, Or.inr List.getLast?_concat, rfl, rfl, rfl, rfl, rfl, rfl, ?_⟩
    exact hd _ _
  · rename_i hne
    refine ⟨?_, ?_⟩
    · rw [deliverAll_frame]
      rfl
    · obtain ⟨sid, n, w, hs⟩ := deliverAll_sent
        { cls := .evt, seq := s.net.evtNum, ctx := c.getD 0, status := st, device := c.isNone, reason := r,
          payload := leBytes 8 (Config.freeTime s.draws) ++ b } (eventTargets s c.isNone)
        (draw { s with net := { s.net with evtNum := (s.net.evtNum + 1) % 2 ^ 32 } }) (by simpa using hne)
        (fun k hk => eventTargets_live s _ k hk)
      exact ⟨_, Or.inl hs, rfl, rfl, rfl, rfl, rfl, rfl, hd _ _⟩

/-- Reporting an event changes nothing but what carries it. -/
theorem emit_only (s : State) (c : Option Nat) (st : Status) (r : Reason) (b : Bytes) (h : EventRoom s) :
    OnlyEvent s (emit s c st r b) := by
  unfold emit
  rw [if_neg (by simp [h.2, Nat.not_le.mpr h.1])]
  simp only
  split
  · rfl
  · rw [deliverAll_frame]
    rfl

/-- A command whose meaning ends in an event. -/
theorem reports_emit {i : Instr} {s u : State} {c : Option Nat} {st : Status} {r : Reason} {b : Bytes}
    (h : exec i s = .next (emit u c st r b)) (hr : EventRoom u) : Reports i s c st r b u :=
  ⟨_, h, emit_reported u c st r b hr, emit_only u c st r b hr⟩

end Sys2Proof.Machine
end

