-- ==== Sys2Proof/Laws/Memory.lean ====
section
/-!
SUPPORT. The byte memories: every operation on them keeps the canonical form, a read after a write gives what was
written, and a write leaves every other address alone.
-/

namespace Sys2Proof.Machine

/-! ## The canonical form -/

/-- The canonical form said of elements: no zero byte is listed and addresses rise. -/
theorem memWf_iff (m : List Host.Cell) : memWf m = true ↔ (∀ c ∈ m, c.2 ≠ 0) ∧ m.Pairwise (fun a b => a.1 < b.1) := by
  have key : ∀ l : List Host.Cell, ((l.zip l.tail).all (fun p => decide (p.1.1 < p.2.1)) = true) ↔
      l.Pairwise (fun a b => a.1 < b.1) := by
    intro l
    induction l with
    | nil => simp
    | cons x r ih =>
      cases r with
      | nil => simp
      | cons y t =>
        simp only [List.tail_cons, List.zip_cons_cons, List.all_cons, Bool.and_eq_true, decide_eq_true_eq] at ih ⊢
        rw [ih]
        constructor
        · rintro ⟨h1, h2⟩
          refine List.pairwise_cons.2 ⟨fun z hz => ?_, h2⟩
          rcases List.mem_cons.1 hz with rfl | hz
          · exact h1
          · exact Nat.lt_trans h1 ((List.pairwise_cons.1 h2).1 z hz)
        · intro h
          exact ⟨(List.pairwise_cons.1 h).1 y (by simp), (List.pairwise_cons.1 h).2⟩
  unfold memWf
  rw [Bool.and_eq_true, key]
  simp

/-- The canonical form of a filtered memory. -/
theorem memWf_filter (m : List Host.Cell) (p : Host.Cell → Bool) (h : memWf m = true) : memWf (m.filter p) = true := by
  rw [memWf_iff] at h ⊢
  exact ⟨fun c hc => h.1 c (List.mem_of_mem_filter hc), h.2.filter p⟩

/-- The cells of a block lie within it and list no zero byte. -/
theorem mem_memBlock (a : Nat) (bs : Bytes) (c : Host.Cell) (h : c ∈ memBlock a bs) :
    a ≤ c.1 ∧ c.1 < a + bs.length ∧ c.2 ≠ 0 := by
  induction bs generalizing a with
  | nil => simp [memBlock] at h
  | cons b r ih =>
    unfold memBlock at h
    split at h
    · have := ih (a + 1) h
      simp only [List.length_cons]; exact ⟨by omega, by omega, this.2.2⟩
    · rcases List.mem_cons.1 h with rfl | h
      · simp only [List.length_cons]; exact ⟨by omega, by omega, ‹_›⟩
      · have := ih (a + 1) h
        simp only [List.length_cons]; exact ⟨by omega, by omega, this.2.2⟩

/-- The cells of a block rise. -/
theorem memBlock_pairwise (a : Nat) (bs : Bytes) : (memBlock a bs).Pairwise (fun x y => x.1 < y.1) := by
  induction bs generalizing a with
  | nil => simp [memBlock]
  | cons b r ih =>
    unfold memBlock
    split
    · exact ih (a + 1)
    · rw [List.pairwise_cons]
      exact ⟨fun c hc => by have := mem_memBlock (a + 1) r c hc; omega, ih (a + 1)⟩

/-- Clearing a range keeps the canonical form. -/
theorem memWf_memClear (m : List Host.Cell) (lo hi : Nat) (h : memWf m = true) : memWf (memClear m lo hi) = true :=
  memWf_filter m _ h

/-- Writing a block keeps the canonical form. -/
theorem memWf_memWrite (m : List Host.Cell) (a : Nat) (bs : Bytes) (h : memWf m = true) :
    memWf (memWrite m a bs) = true := by
  have h0 := (memWf_iff m).1 h
  rw [memWf_iff]
  unfold memWrite
  constructor
  · intro c hc
    simp only [List.mem_append, List.mem_filter] at hc
    rcases hc with (hc | hc) | hc
    · exact h0.1 c hc.1
    · exact (mem_memBlock a bs c hc).2.2
    · exact h0.1 c hc.1
  · rw [List.pairwise_append, List.pairwise_append]
    refine ⟨⟨h0.2.filter _, memBlock_pairwise a bs, ?_⟩, h0.2.filter _, ?_⟩
    · intro x hx y hy
      have := mem_memBlock a bs y hy
      simp only [List.mem_filter, decide_eq_true_eq] at hx
      omega
    · intro x hx y hy
      simp only [List.mem_filter, decide_eq_true_eq] at hy
      simp only [List.mem_append, List.mem_filter, decide_eq_true_eq] at hx
      rcases hx with hx | hx
      · omega
      · have := mem_memBlock a bs x hx
        omega

/-! ## Reading after writing -/

/-- Reading a memory whose other cells were taken out. -/
theorem lookup_filter_of_keep (m : List Host.Cell) (p : Nat → Bool) (a : Nat) (h : p a = true) :
    (m.filter (fun c => p c.1)).lookup a = m.lookup a := by
  induction m with
  | nil => rfl
  | cons c r ih =>
    obtain ⟨k, v⟩ := c
    by_cases hk : a = k
    · subst hk; simp [h]
    · have h1 : (a == k) = false := by simp [hk]
      by_cases hp : p k = true
      · simp [hp, List.lookup_cons, h1, ih]
      · simp [hp, List.lookup_cons, h1, ih]

/-- An address that no cell has reads as none. -/
theorem lookup_none (m : List Host.Cell) (a : Nat) (h : ∀ c ∈ m, c.1 ≠ a) : m.lookup a = none := by
  induction m with
  | nil => rfl
  | cons c r ih =>
    obtain ⟨k, v⟩ := c
    have h1 : (a == k) = false := by
      have := h (k, v) (by simp)
      simp only [ne_eq] at this
      simp [Ne.symm this]
    rw [List.lookup_cons, h1]
    exact ih (fun c hc => h c (by simp [hc]))

/-- Reading a byte of a block. -/
theorem memGet_memBlock (a : Nat) (bs : Bytes) (x : Nat) (h1 : a ≤ x) (h2 : x < a + bs.length) :
    memGet (memBlock a bs) x = bs.getD (x - a) 0 := by
  induction bs generalizing a with
  | nil => simp at h2; omega
  | cons b r ih =>
    by_cases hx : x = a
    · subst hx
      simp only [Nat.sub_self, List.getD_cons_zero]
      unfold memBlock
      split
      · rename_i hb
        unfold memGet
        rw [lookup_none]
        · simp [hb]
        · intro c hc
          have := mem_memBlock (x + 1) r c hc
          omega
      · simp [memGet]
    · have h3 : memGet (memBlock (a + 1) r) x = r.getD (x - (a + 1)) 0 :=
        ih (a + 1) (by omega) (by simp only [List.length_cons] at h2; omega)
      have h4 : (b :: r).getD (x - a) 0 = r.getD (x - (a + 1)) 0 := by
        have : x - a = (x - (a + 1)) + 1 := by omega
        rw [this, List.getD_cons_succ]
      rw [h4, ← h3]
      conv_lhs => unfold memBlock
      split
      · rfl
      · have : (x == a) = false := by simp [hx]
        simp only [memGet, List.lookup_cons, this]

/-- A byte after a write: the one written within the block, the old one elsewhere. -/
theorem memGet_memWrite (m : List Host.Cell) (a : Nat) (bs : Bytes) (x : Nat) :
    memGet (memWrite m a bs) x =
      if a ≤ x ∧ x < a + bs.length then bs.getD (x - a) 0 else memGet m x := by
  have hb : ¬(a ≤ x ∧ x < a + bs.length) → (memBlock a bs).lookup x = none := fun h =>
    lookup_none _ _ (fun c hc => by have := mem_memBlock a bs c hc; omega)
  have hl : ¬ x < a → (m.filter (fun c => decide (c.1 < a))).lookup x = none := fun h =>
    lookup_none _ _ (fun c hc => by simp only [List.mem_filter, decide_eq_true_eq] at hc; omega)
  have hr : ¬ a + bs.length ≤ x → (m.filter (fun c => decide (a + bs.length ≤ c.1))).lookup x = none := fun h =>
    lookup_none _ _ (fun c hc => by simp only [List.mem_filter, decide_eq_true_eq] at hc; omega)
  unfold memWrite memGet
  rw [List.lookup_append, List.lookup_append]
  split
  · rename_i h
    rw [hl (by omega), hr (by omega), Option.none_or, Option.or_none]
    exact memGet_memBlock a bs x h.1 h.2
  · rename_i h
    rw [hb h, Option.or_none]
    by_cases hx : x < a
    · rw [hr (by omega), Option.or_none, lookup_filter_of_keep m (fun k => decide (k < a)) x (by simpa using hx)]
    · rw [hl hx, Option.none_or, lookup_filter_of_keep m (fun k => decide (a + bs.length ≤ k)) x (by simp; omega)]

/-- A byte after a range is cleared: 0 within it, the old one elsewhere. -/
theorem memGet_memClear (m : List Host.Cell) (lo hi x : Nat) :
    memGet (memClear m lo hi) x = if lo ≤ x ∧ x < hi then 0 else memGet m x := by
  unfold memGet memClear
  split
  · rw [lookup_none]
    · rfl
    · intro c hc
      simp only [List.mem_filter, Bool.or_eq_true, decide_eq_true_eq] at hc
      omega
  · rw [lookup_filter_of_keep m (fun k => decide (k < lo) || decide (hi ≤ k)) x
      (by simp only [Bool.or_eq_true, decide_eq_true_eq]; omega)]

/-! ## Deck and Span rows -/

/-- A write within a row keeps the canonical form. -/
theorem writeRow_wf (r : Ram) (a : Nat) (bs : Bytes) (h : memWf r.mem = true) : memWf (r.writeRow a bs).mem = true := by
  unfold Ram.writeRow
  dsimp only
  split
  · exact memWf_memWrite _ _ _ h
  · exact memWf_memWrite _ _ _ (memWf_memClear _ _ _ h)

/-- A write split at row boundaries keeps the canonical form. -/
theorem writeRows_wf (n : Nat) (r : Ram) (a : Nat) (bs : Bytes) (h : memWf r.mem = true) :
    memWf (Ram.writeRows n r a bs).mem = true := by
  induction n generalizing r a bs with
  | zero => simpa [Ram.writeRows] using h
  | succ n ih =>
    cases bs with
    | nil => simpa [Ram.writeRows] using h
    | cons b t => exact ih _ _ _ (writeRow_wf _ _ _ h)

/-- A write keeps the canonical form. -/
theorem write_wf (r : Ram) (a : Nat) (bs : Bytes) (h : memWf r.mem = true) : memWf (r.write a bs).mem = true :=
  writeRows_wf _ _ _ _ h

/-- Rows that land at a pitch keep the canonical form. -/
theorem landRows_wf (pitch row n : Nat) (r : Ram) (a : Nat) (bs : Bytes) (h : memWf r.mem = true) :
    memWf (landRows pitch row n r a bs).mem = true := by
  induction n generalizing r a bs with
  | zero => simpa [landRows] using h
  | succ n ih =>
    cases bs with
    | nil => simpa [landRows] using h
    | cons b t => exact ih _ _ _ (write_wf _ _ _ h)

/-- A landed write keeps the canonical form. -/
theorem landBytes_wf (r : Ram) (a pitch row : Nat) (bs : Bytes) (h : memWf r.mem = true) :
    memWf (landBytes r a pitch row bs).mem = true := by
  unfold landBytes
  split
  · exact write_wf _ _ _ h
  · exact landRows_wf _ _ _ _ _ _ h

/-! ## The memories of the block -/

/-- The canonical form of all memories, said of each. -/
theorem Memory.wf_iff (s : State) : Memory.wf s = true ↔
    memWf s.span.mem = true ∧ (∀ d ∈ s.decks, memWf d.2.mem = true) ∧ memWf s.t3.mem = true ∧ memWf s.t4.mem = true := by
  unfold Memory.wf
  simp only [Bool.and_eq_true, List.all_eq_true]
  tauto

/-- The memory of a home is in canonical form when all are. -/
theorem ramOf_wf (s : State) (home : Nat) (h : Memory.wf s = true) : memWf (ramOf s home).mem = true := by
  rw [Memory.wf_iff] at h
  unfold ramOf
  split
  · exact h.1
  · unfold tget
    cases hl : s.decks.lookup home with
    | none => rfl
    | some r =>
      refine h.2.1 (home, r) ?_
      have key : ∀ l : Tab Ram, l.lookup home = some r → (home, r) ∈ l := by
        intro l hl
        induction l with
        | nil => simp at hl
        | cons e t ih =>
          obtain ⟨k, w⟩ := e
          rw [List.lookup_cons] at hl
          by_cases hk : home = k
          · subst hk; simp at hl; simp [hl]
          · have : (home == k) = false := by simp [hk]
            rw [this] at hl
            exact List.mem_cons_of_mem _ (ih hl)
      exact key _ hl

/-- An entry of a table after one is set is the one set or an old one. -/
theorem mem_tset {α : Type} (t : Tab α) (k : Nat) (v : α) (e : Nat × α) (h : e ∈ tset t k v) : e = (k, v) ∨ e ∈ t := by
  induction t with
  | nil => simpa [tset] using h
  | cons c r ih =>
    obtain ⟨j, w⟩ := c
    unfold tset at h
    split at h
    · simpa using h
    · split at h
      · rcases List.mem_cons.1 h with rfl | h
        · exact .inl rfl
        · exact .inr (List.mem_cons_of_mem _ h)
      · rcases List.mem_cons.1 h with rfl | h
        · exact .inr (by simp)
        · rcases ih h with h | h
          · exact .inl h
          · exact .inr (List.mem_cons_of_mem _ h)

/-- Setting the memory of a home to one in canonical form. -/
theorem setRam_wf (s : State) (home : Nat) (r : Ram) (h : Memory.wf s = true) (hr : memWf r.mem = true) :
    Memory.wf (setRam s home r) = true := by
  rw [Memory.wf_iff] at h ⊢
  unfold setRam
  split
  · exact ⟨hr, h.2.1, h.2.2⟩
  · refine ⟨h.1, fun d hd => ?_, h.2.2⟩
    rcases mem_tset _ _ _ _ hd with rfl | hd
    · exact hr
    · exact h.2.1 d hd

/-- Setting the storage of a tier to one whose bytes are in canonical form. -/
theorem setExt_wf (s : State) (tier : Nat) (e : Ext) (h : Memory.wf s = true) (he : memWf e.mem = true) :
    Memory.wf (setExt s tier e) = true := by
  rw [Memory.wf_iff] at h ⊢
  unfold setExt
  split
  · exact ⟨h.1, h.2.1, h.2.2.1, he⟩
  · exact ⟨h.1, h.2.1, he, h.2.2.2⟩

/-- The bytes of a tier are in canonical form when all memories are. -/
theorem extOf_wf (s : State) (tier : Nat) (h : Memory.wf s = true) : memWf (extOf s tier).mem = true := by
  rw [Memory.wf_iff] at h
  unfold extOf
  split
  · exact h.2.2.2
  · exact h.2.2.1

/-- Tag data leaves the bytes as they are. -/
@[simp] theorem setLines_mem (e : Ext) (first n : Nat) (f : Nat → Line) : (setLines e first n f).mem = e.mem := rfl

/-- A line's tag leaves the bytes as they are. -/
@[simp] theorem tagLine_mem (e : Ext) (key : Nat) (sealed : Bool) (ln : Nat) : (tagLine e key sealed ln).mem = e.mem := by
  unfold tagLine
  dsimp only
  split <;> rfl

/-- A write to T3 or T4 keeps the canonical form. -/
theorem extWrite_wf (s : State) (tier key : Nat) (sealed : Bool) (addr : Nat) (bs : Bytes) (h : Memory.wf s = true) :
    Memory.wf (extWrite s tier key sealed addr bs) = true := by
  unfold extWrite
  split
  · exact h
  dsimp only
  apply setExt_wf _ _ _ h
  have key2 : ∀ (l : List Nat) (e : Ext), (l.foldl (fun a i => tagLine a key true (addr / 64 + i)) e).mem = e.mem := by
    intro l
    induction l with
    | nil => intro e; rfl
    | cons i r ih => intro e; rw [List.foldl_cons, ih]; simp
  split
  · rw [key2]; exact memWf_memWrite _ _ _ (extOf_wf s tier h)
  · exact memWf_memWrite _ _ _ (extOf_wf s tier h)

/-- The allocation fill keeps the canonical form. -/
theorem extFill_wf (s : State) (tier key : Nat) (sealed : Bool) (first count : Nat) (h : Memory.wf s = true) :
    Memory.wf (extFill s tier key sealed first count) = true := by
  unfold extFill
  split
  · exact h
  · exact setExt_wf _ _ _ h (memWf_memClear _ _ _ (extOf_wf s tier h))

/-- Major counters that increment leave the bytes as they are. -/
@[simp] theorem bumpMajor_mem (e : Ext) (g : Nat) : (bumpMajor e g).mem = e.mem := rfl

/-- The same for several granules. -/
theorem bumpAll_mem (first : Nat) (l : List Nat) (e : Ext) :
    (l.foldl (fun a i => bumpMajor a (first + i)) e).mem = e.mem := by
  induction l generalizing e with
  | nil => rfl
  | cons i r ih => rw [List.foldl_cons, ih, bumpMajor_mem]

/-- The zero-fill of freed granules keeps the canonical form. -/
theorem extErase_wf (s : State) (tier first count : Nat) (sealed : Bool) (h : Memory.wf s = true) :
    Memory.wf (extErase s tier first count sealed) = true := by
  unfold extErase
  refine setExt_wf _ _ _ h (memWf_memClear _ _ _ ?_)
  split
  · rw [bumpAll_mem]; exact extOf_wf s tier h
  · exact extOf_wf s tier h

/-- A write at an object's home keeps the canonical form. -/
theorem homeWrite_wf (s : State) (x : Ctx) (o : Obj) (off : Nat) (bs : Bytes) (h : Memory.wf s = true) :
    Memory.wf (homeWrite s x o off bs) = true := by
  unfold homeWrite
  split
  · exact extWrite_wf _ _ _ _ _ _ h
  · exact setRam_wf _ _ _ h (write_wf _ _ _ (ramOf_wf _ _ h))

/-- A write of a tile of an upper copy keeps the canonical form. -/
theorem upperWrite_wf (s : State) (x : Ctx) (u : Upper) (i : Nat) (bs : Bytes) (h : Memory.wf s = true) :
    Memory.wf (upperWrite s x u i bs) = true := by
  unfold upperWrite
  split
  · exact extWrite_wf _ _ _ _ _ _ h
  · exact setRam_wf _ _ _ h (write_wf _ _ _ (ramOf_wf _ _ h))

/-- A block that is written reads back byte by byte. -/
theorem memGet_memWrite_self (m : List Host.Cell) (a : Nat) (bs : Bytes) (i : Nat) (h : i < bs.length) :
    memGet (memWrite m a bs) (a + i) = bs[i] := by
  rw [memGet_memWrite, if_pos ⟨by omega, by omega⟩]
  simp [h]

end Sys2Proof.Machine
end

