-- ==== Sys2Proof/Machine/Response.lean ====
section
/-!
DEFINITION. The responses of the decimation paths (R447), as a condition on the taps of `Config`: every device meets it. The
filters themselves are those of `Decimate`.
-/

namespace Sys2Proof.Machine

/-- A path as a cascade of filters: the rate of each in Hz and its taps. The CIC filter is its order of times a sum of `ratio`
inputs at the PDM rate. -/
def DecimPath.stages (p : DecimPath) (rate : Nat) : List (Nat × List Int) :=
  List.replicate p.order (rate, List.replicate p.ratio 1) ++
    (p.firs.foldl (fun (l : Nat × List (Nat × List Int)) f => (l.1 / f.dec, l.2 ++ [(l.1, f.taps)]))
      (rate / p.ratio, [])).2

/-- `z` is the response of a cascade at a frequency in Hz. -/
def RespondsWith (st : List (Nat × List Int)) (f : ℝ) (z : ℂ) : Prop :=
  z = (st.map (fun q => (q.2.mapIdx (fun k t =>
    (t : ℂ) * Complex.exp (-2 * Real.pi * Complex.I * f * k / q.1))).sum)).prod

/-- `d` is the group delay of a cascade at a frequency, in seconds: the sum over its filters. -/
def DelayedBy (st : List (Nat × List Int)) (f d : ℝ) : Prop :=
  d = (st.map (fun q =>
    ((q.2.mapIdx (fun k t => (k : ℂ) * t * Complex.exp (-2 * Real.pi * Complex.I * f * k / q.1))).sum /
     (q.2.mapIdx (fun k t => (t : ℂ) * Complex.exp (-2 * Real.pi * Complex.I * f * k / q.1))).sum).re / (q.1 : ℝ))).sum

/-- From `lo` to `hi` Hz the level lies between `a` and `b` dB, relative to the response at 1 kHz. -/
def LevelIn (st : List (Nat × List Int)) (lo hi a b : ℝ) : Prop :=
  ∀ f, lo ≤ f → f ≤ hi → ∀ z w, RespondsWith st f z → RespondsWith st 1000 w →
    (10 : ℝ) ^ (a / 20) * ‖w‖ ≤ ‖z‖ ∧ ‖z‖ ≤ (10 : ℝ) ^ (b / 20) * ‖w‖

/-- From `lo` to `hi` Hz the level is at most `b` dB. -/
def LevelBelow (st : List (Nat × List Int)) (lo hi b : ℝ) : Prop :=
  ∀ f, lo ≤ f → f ≤ hi → ∀ z w, RespondsWith st f z → RespondsWith st 1000 w → ‖z‖ ≤ (10 : ℝ) ^ (b / 20) * ‖w‖

/-- The bands that fold into a passband up to `edge` Hz when a path decimates to `rate` Hz lie `b` dB down: those around every
multiple of the rate below half the PDM rate. -/
def FoldsBelow (st : List (Nat × List Int)) (pdm rate : Nat) (edge b : ℝ) : Prop :=
  ∀ m : Nat, 0 < m → 2 * m * rate ≤ pdm → LevelBelow st (m * rate - edge) (m * rate + edge) b

/-- In a band the group delay is at most `d` seconds. -/
def DelayIn (st : List (Nat × List Int)) (lo hi d : ℝ) : Prop :=
  ∀ f, lo ≤ f → f ≤ hi → ∀ x, DelayedBy st f x → x ≤ d

/-- The low-power path meets R447 at a setting of DIV. -/
def LpMeets (div : Nat) : Prop :=
  let rate := 24576000 / div
  let st := (lpPath div).stages rate
  LevelIn st 20 6400 (-0.25) 0.25 ∧ LevelIn st 7000 7000 (-1.5) (-0.5) ∧ LevelIn st 8000 8000 (-6.5) (-5.5) ∧
    LevelBelow st 9600 16000 (-60) ∧ FoldsBelow st rate 32000 6400 (-46) ∧ DelayIn st 20 6400 0.00055

/-- The high-quality path meets R447 at a setting of DIV. -/
def HqMeets (div : Nat) : Prop :=
  let rate := 24576000 / div
  let st := (hqPath div).stages rate
  LevelIn st 20 20000 (-0.1) 0.1 ∧ LevelIn st 22000 22000 (-3.5) (-2.5) ∧ LevelBelow st 24000 24000 (-40) ∧
    LevelBelow st 26000 192000 (-90) ∧ FoldsBelow st rate 384000 20000 (-90) ∧ DelayIn st 20 20000 0.0011

/-- The taps of `Config` give the responses of R447: the low-power path at every DIV, the high-quality one at DIV 8 and 16. -/
def PathsMeet : Prop := (∀ div ∈ [8, 12, 16, 24], LpMeets div) ∧ ∀ div ∈ [8, 16], HqMeets div

end Sys2Proof.Machine
end

