-- ==== Sys2Proof/Tests/Slice0.lean ====
section
/-!
SUPPORT. The model's own tests: an ill-formed command for each check of `WellFormed`, the spec's worked examples and tables,
and for each statement states and operands that meet its hypotheses.
-/

namespace Sys2Proof.Tests

open Sys2Proof.Machine

/-! ## Small states -/

/-- A command of the host's session 1 for a context. -/
def rq (c : Nat) : Req := { iface := .host, sess := 1, src := 7, sport := 9, port := 0, seq := 5, ctx := c }

/-- A command of the management session 2. -/
def rqM : Req := { iface := .mgmt, sess := 2, src := 8, sport := 9, port := 3, seq := 5, ctx := 0 }

/-- A device that has started, with a session of the host and one of management. -/
def on : State := {
  net := { sessions := [(1, { src := 7, sport := 9, proved := true }), (2, { iface := .mgmt, src := 8, sport := 9, port := 3, proved := true })],
           nextSession := 3 },
  rst := { up := true, porstLow := false },
  pwr := { startup := false, up := 0x0001_00FF } }

/-- The same with a context 0 of cores 0 and 1. -/
def withCtx (x : Ctx) : State := { on with ctxs := [(0, x)] }

/-- A context of cores 0 and 1. -/
def ctx0 : Ctx := { cores := 3, key := 1 }

/-- A word for a register. -/
def setReg (s : State) (a v : Nat) : State :=
  { s with regs := { s.regs with
      shadow := tset s.regs.shadow a (BitVec.ofNat 32 v), live := tset s.regs.live a (BitVec.ofNat 32 v) } }

/-- A page switched on or off. -/
def setPage (s : State) (p : Nat) (b : Bool) : State := modPage s p (fun g => { g with enable := b })

/-! ## States that meet the statements' hypotheses: sessions and registers -/

theorem wit_hello_open :
    (peerOf on (rq 0).port (rq 0).src).filter (fun i => decide (ownIndex on < i)) = none ∧
    sessionCount on .host < sessionLimit .host ∧
    sessionLimit .mgmt ≤ sessionCount { on with net := { on.net with
      sessions := (List.range 64).map (fun i => (i, { iface := .mgmt })) } } .mgmt := by decide

theorem wit_hello_prove : ∃ e, tget? on.net.sessions (rq 0).sess = some e ∧ e.peer = none ∧
    ((credentials on e.iface).contains [1] && Config.mldsaVerify [1] e.challenge [2]) = false :=
  ⟨{ src := 7, sport := 9, proved := true }, by decide, by decide, by rfl⟩

theorem wit_hello_refresh_end : Live (rq 0) on ∧ ∃ e, tget? on.net.sessions 1 = some e ∧ e.peer = none :=
  ⟨by unfold Live; decide, { src := 7, sport := 9, proved := true }, by decide, by decide⟩

theorem wit_register_reads : Live rqM on ∧
    (∀ k < 1, mayRead on rqM (0x0001_0010 + 4 * k) = true ∧ regView on (0x0001_0010 + 4 * k) = some ([1].getD k 0)) ∧
    (∀ k < 1, mayRead on (rq 0) (0x0001_0010 + 4 * k) = false) ∧ regView on 0x0001_0012 = none := by
  unfold Live; decide

theorem wit_register_writes : Live rqM on ∧ 0x0001_0010 % 4 = 0 ∧ (∃ i, regInfo 0x0001_0010 = some i) ∧ isPage 0x0001_0010 = false ∧
    isPage (0x0001_0010 - 4) = false ∧ crossingReg 0x0001_0010 = false :=
  ⟨by unfold Live; decide, by decide, ⟨(regInfo 0x0001_0010).getD { page := 0, rws := 0 }, by decide⟩, by decide, by decide, by decide⟩

theorem wit_sensor_and_audio_writes :
    (regInfo 0x0023_0500).isSome ∧ crossingReg 0x0023_0500 = true ∧ bits (live on 0x0023_0410) 31 30 ≠ 2 ∧
    (regInfo 0x0020_0010).isSome ∧ blockOf 0x0020_0010 = 0x20 ∧ (regInfo 0x0020_8010).isSome ∧ blockOf 0x0020_8010 = 0x20 ∧
    tget? { on with cam := { on.cam with owners := [(0, 0)] } }.cam.owners ((0x0020_8010 - 0x0020_8000) / 0x800) = some (rq 0).ctx ∧
    (regInfo 0x0021_0020).isSome ∧ blockOf 0x0021_0020 = 0x21 ∧ (regInfo 0x0021_0020).any (fun i => isPage i.page) := by decide

theorem wit_commit : atSafePoint on 0x0022_0000 = true ∧ atSafePoint on 0x0001_0000 = false ∧
    (pageAt (modPage on 0x0001_0000 (fun g => { g with pending := true })) 0x0001_0000).pending = true ∧ firstFail (commitChecks on 0x0001_0000) = none ∧
    firstFail (commitChecks (setReg on 0x0001_0010 3) 0x0001_0000) = some .rstParam ∧
    (on.regs.shadow.map Prod.fst).Nodup ∧ (∀ w ∈ on.regs.waits, w.left ≠ [] ∧ 0x0001_0000 ∉ w.left) := by decide

theorem wit_enable : pageOn on 0x0020_0000 = false ∧ firstFail (enableChecks on 0x0020_0000) = none ∧
    firstFail (enableChecks on grdPage) = some .grdNotReady ∧ pageOn on 0x0024_0000 = false ∧
    firstFail (enableChecks on 0x0024_0000) = none ∧ pageOn (setPage on 0x0003_8000 true) 0x0003_8000 = true := by decide

theorem wit_disable : (∀ p ∈ [0x0020_0000, 0x0020_3000, 0x0020_3100, 0x0021_0000, 0x0021_1000, 0x0024_0000, grdPage],
      pageOn (setPage on p true) p = true ∧ (pageAt (setPage on p true) p).pending = false) ∧
    pageOn on 0x0020_0000 = false ∧ ({ setPage on 0x0003_8000 true with ddr := { inService := true } } : State).ddr.inService = true := by
  decide

theorem wit_cak : on.sec.cakBuf.length + 1 < (if bit on.sec.cakSel 4 then 8 else 4) ∧
    ([0#32, 0#32, 0#32].length + 1 = if bit on.sec.cakSel 4 then 8 else 4) ∧
    ((List.replicate 7 0#32).length + 1 = if bit 16 4 then 8 else 4) := by decide

theorem wit_records : Live rqM on ∧ (1#32).toNat % 256 ≤ 1 ∧ 1 < (2#32).toNat % 256 ∧ on.rst.recSel = none ∧ on.rst.saving = none ∧
    (zeros 12).length = 12 ∧ 764 + 4 = 768 := by
  unfold Live; decide

/-! ## Power and contexts -/

/-- A device in which client 1 of class 3 votes for the first core. -/
def voting (s : State) : State := { s with pwr := { s.pwr with votes := [{ cls := 3, id := 1, domains := 1 }] } }

theorem wit_votes : Live (rq 0) (voting (withCtx ctx0)) ∧ (voting (withCtx ctx0)).pwr.entry = none ∧
    descending (voting (withCtx ctx0)) = false ∧
    (∃ x, liveCtx (voting (withCtx ctx0)) 0 = some x ∧ 3 &&& ((2 ^ 32 - 1) ^^^ (x.cores ||| 0x700)) = 0 ∧
      4 &&& ((2 ^ 32 - 1) ^^^ (x.cores ||| 0x700)) ≠ 0) ∧
    (voting (withCtx ctx0)).pwr.votes.all (fun v => !(v.cls == 0 && v.id == 0)) = true ∧ liveCtx on 0 = none :=
  ⟨by unfold Live; decide, by decide, by decide, ⟨ctx0, by decide⟩, by decide, by decide⟩

theorem wit_enter : Live (rq 0) on ∧ on.pwr.entry = none ∧ refuser { on with pwr := { on.pwr with wakeLow := true } } 4 = some (7, 0) ∧
    refuser { on with pwr := { on.pwr with up := 0 } } 4 = none := by
  unfold Live; decide

theorem wit_domains : on.pwr.mode = .awake ∧ bit on.pwr.up 7 = true ∧ bit (votedMask on) 7 = false ∧
    bit (votedMask { on with pwr := { on.pwr with votes := [{ cls := 3, id := 1, domains := 128 }] } }) 7 = true ∧
    bit on.pwr.gated 0 = false ∧ coreBusy on 0 = false ∧
    bit ({ on with pwr := { up := 0, islands := 1 } } : State).pwr.islands 0 = true := by decide

theorem wit_power_up : bit ({ on with pwr := { up := 0, votes := [{ cls := 3, id := 1, domains := 128 }] } } : State).pwr.up 7 = false ∧
    bit (votedMask { on with pwr := { up := 0, votes := [{ cls := 3, id := 1, domains := 128 }] } }) 7 = true ∧ 7 ∉ on.fenced ∧
    bit on.pwr.up (16 + 15) = false := by decide

theorem wit_wake : on.pwr.mode = .awake ∧ on.pwr.entry = none ∧
    ({ on with pwr := { mode := .deep, deepTimer := true, mainMin := true, wake := true } } : State).pwr.mode = .deep ∧
    ({ on with pwr := { mode := .off, onMin := true, wake := true } } : State).pwr.onMin = true := by decide

theorem wit_deep_exit : ∃ s : State, s.pwr.mode = .deep ∧ s.pwr.wake = true ∧ s.pwr.mainEn = true ∧ pageOn s 0x0003_8000 = true ∧
    pageOn s grdPage = false :=
  ⟨setPage { on with pwr := { mode := .deep, wake := true } } 0x0003_8000 true, by decide⟩

theorem wit_table_restore : ∃ s : State, s.pwr.restoring = [0] ∧ s.pwr.mode = .awake ∧ s.ddr.inService = true ∧ s.pwr.saveOk = true ∧
    tget? s.ctxs 0 = some ctx0 ∧ lostObjects ctx0 = 0 ∧ EventRoom s :=
  ⟨{ withCtx ctx0 with pwr := { restoring := [0] }, ddr := { inService := true } }, by unfold EventRoom; decide⟩

theorem wit_glide : ∀ w ∈ [60, 45, 30, 15], ({ on with pwr := { gliding := true, watts := w } } : State).pwr.watts = w := by decide

theorem wit_burst : noBurst on = false ∧ noBurst { withCtx { ctx0 with sealed := true } with sec := { policy := 16 } } = true := by decide

theorem wit_create : Live (rq 0) on ∧
    createCheck on { sealed := 0, cores := 3, spanBanks := 0, ddrSlots := 0, boundUs := 0, remoteMs := 0, quantumUs := 0 } = none ∧
    createParamsOk { sealed := 2, cores := 3, spanBanks := 0, ddrSlots := 0, boundUs := 0, remoteMs := 0, quantumUs := 0 } = false ∧
    createCoresOk on { sealed := 0, cores := 0, spanBanks := 0, ddrSlots := 0, boundUs := 0, remoteMs := 0, quantumUs := 0 } = false ∧
    tget? on.ctxs 0 = none := by
  unfold Live; decide

theorem wit_destroy : Live (rq 0) (withCtx ctx0) ∧ liveCtx (withCtx ctx0) 0 = some ctx0 ∧ ctx0.job = none ∧ ctx0.images = [] ∧
    ctx0.runQ = [] ∧ ctx0.retiring = false ∧ (withCtx ctx0).rel.fencing = [] ∧ (withCtx ctx0).rel.repairing = none ∧
    tget? (withCtx { ctx0 with st := .destroying, retiring := true }).ctxs 0 = some { ctx0 with st := .destroying, retiring := true } := by
  unfold Live; decide

theorem wit_quota : quotaCheck (withCtx ctx0) 0 ctx0 {} = none ∧
    quotaCheck (withCtx ctx0) 0 ctx0 { t2 := 2 ^ 31 } ≠ none := by decide

theorem wit_park : ctx0.st = .resident ∧ ctx0.sealed = false ∧ ctx0.job = none ∧ ctx0.runQ = [] ∧
    (makeRoom (withCtx ctx0) 0 3 0 (parkGranules ctx0)).2 = true ∧
    (makeRoom (withCtx ctx0) 0 3 0 1).2 = false := by decide

theorem wit_bring_in : ∃ (x : Ctx) (s : State), tget? s.ctxs 0 = some x ∧ x.st = .parked ∧ x.runQ.length = 1 ∧ x.images = [] ∧
    placeAll s 0 ≠ none :=
  ⟨{ ctx0 with st := .parked, runQ := [{ req := rq 0, slot := 0, param := 0 }] }, withCtx { ctx0 with st := .parked, runQ := [{ req := rq 0, slot := 0, param := 0 }] }, by decide⟩

/-! ## Jobs -/

/-- An image with one stage on core 0, a share of 64 rows in its Deck and of 16 in the Span, and a window in each. -/
def img0 : Image :=
  { cores := 1, shares := [(0, (0, 64)), (8, (0, 16))], wins := [(0, [0]), (8, [0])], progRows := [(0, 16)],
    stages := [{ core := 0, leader := true, groups := 7 }], phases := [{ phase := 0, stages := 1, succ := 2 }],
    groups := [{ contrib := 3, fmt := 8, slots := 2, order := [0, 1], rows := 4 }],
    prefetch := [{ body := zeros 32 }], reshard := [{ src := 0, dst := 1, kind := 1, step := 0, body := zeros 32 }] }

/-- Its running stage. -/
def stage0 : StageRun := { core := 0, slot := 0, groups := 7, leader := true }

/-- A job of it that holds its cores. -/
def job0 : Job := { run := { req := rq 0, slot := 0, param := 0 }, stages := [stage0], onCores := true }

/-- The context with the image and the job. -/
def ctx1 : Ctx := { ctx0 with images := [(0, img0)], job := some job0, quotas := { streams := 4, t3 := 1000 } }

/-- The device while the job runs. -/
def busy : State := { withCtx ctx1 with sched := { entries := [[0]], turn := some 0 } }

/-- A Deck of physical core 0 that holds bytes from the share's first byte on. -/
def deckOf (b : Bytes) (s : State) : State := { s with decks := [(0, Ram.write {} 0 b)] }

theorem wit_run : Live (rq 0) busy ∧ liveCtx busy 0 = some ctx1 ∧ tget? ctx1.images 1 = none ∧ tget? ctx1.images 0 = some img0 ∧
    img0.reload = false ∧ ctx1.runQ.length < 16 ∧ descending busy = false ∧ ctx1.job ≠ none ∧
    (List.replicate 16 job0.run).length = 16 ∧ (∀ n ∈ imageCores img0, n ∉ busy.fenced) ∧
    ({ ctx1 with job := none } : Ctx).st = .resident := by
  unfold Live; decide

theorem wit_cancel : allAtPoint busy job0 = false ∧ job0.onCores = true ∧ ctx1.sealed = false ∧
    allAtPoint busy { job0 with stages := [{ stage0 with st := .stopped }] } = true := by decide

theorem wit_quantum : busy.sched.turn = some 0 ∧ otherRunnable busy = false ∧
    otherRunnable { busy with ctxs := [(0, ctx1), (1, ctx1)], sched := { entries := [[0], [1]], turn := some 0 } } = true ∧
    job0.order = none := by decide

theorem wit_stop : stageCtx busy 0 0 = some 0 ∧ tget? busy.ctxs 0 = some ctx1 ∧ engineBusy busy 0 0 = false ∧
    engineBusy { busy with cores := [(0, { chunks := [{ slot := 0 }] })] } 0 0 = true ∧
    stageCtx (withCtx { ctx1 with job := some { job0 with order := some .yield } }) 0 0 = some 0 := by decide

theorem wit_complete : ∃ (x : Ctx) (j : Job) (s : State), tget? s.ctxs 0 = some x ∧ x.job = some j ∧ j.ended = some (.ok, .none) ∧
    j.waiters = [] :=
  ⟨{ ctx1 with job := some { job0 with ended := some (.ok, .none) } }, { job0 with ended := some (.ok, .none) },
    withCtx { ctx1 with job := some { job0 with ended := some (.ok, .none) } }, by decide⟩

/-- The job while its stage waits on window 0 of its Deck. -/
def waitJob : Job := { job0 with stages := [{ stage0 with st := .waiting 0 0 }] }

theorem wit_remote_timeout : ∃ s : State, tget? s.ctxs 0 = some { ctx1 with job := some waitJob } ∧
    waitJob.stages.find? (fun q => q.core == 0 && q.slot == 0) = some { stage0 with st := .waiting 0 0 } ∧
    keyOf s 0 0 0 0 = some 0 ∧ (winAt s 0).writers = 2 ^ 24 :=
  ⟨{ withCtx { ctx1 with job := some waitJob } with wins := [(0, { writers := 2 ^ 24 })] }, by decide⟩

theorem wit_prefetch : (phasePrefetch img0 job0.phase)[img0.prefetchNext]? = some { body := zeros 32 } ∧
    prefetchDue job0 { body := zeros 32 } = true ∧ prefetchDue job0 { body := zeros 32, trigCount := 1 } = false ∧
    job0.trans = none ∧ job0.ended = none := by decide

theorem wit_phase_end : stagesCanEnd busy job0 = true ∧ jctIncomplete busy 0 = false ∧
    jctIncomplete { busy with jct := { slots := [{ ctx := 0 }] } } 0 = true ∧
    (∃ ph, img0.phases.find? (fun e => e.phase == 0) = some ph ∧ bit ph.succ 1 = true ∧ bit ph.succ 0 = false) :=
  ⟨by decide, by decide, by decide, { phase := 0, stages := 1, succ := 2 }, by decide⟩

theorem wit_reshard : (planOf img0 { src := 0, dst := 1 }).filter (fun e => e.kind == 0) = [] ∧
    (∀ e ∈ planOf img0 { src := 0, dst := 1, begun := true }, e.kind ≠ 2 ∧ (e.kind = 1 → e.step ≤ 0)) ∧
    (planOf { img0 with reshard := [{ src := 0, dst := 1, kind := 1, step := 1 }] } { src := 0, dst := 1, begun := true }).any
      (fun e => e.kind == 1 && decide (0 < e.step)) = true := by decide

/-! ## Objects, images, the paged cache and streams -/

/-- An object of four granules in T3. -/
def obj0 : Obj := { tilesM1 := 3, storedM1 := 3, home := 8 }

/-- The device with a context that has the object and no job, its key held and DDR4 in service. -/
def ctx2 : Ctx := { ctx1 with job := none, images := [], objs := [(0, obj0)] }
def stored : State := { withCtx ctx2 with sec := { keys := [1] }, ddr := { inService := true, poolMib := 65536 } }

theorem wit_alloc : Live (rq 0) stored ∧ allocCheck stored ctx2 (objOfFlags 0x60_7000 3 3) 0 = none ∧
    (objOfFlags 0x60_7000 3 3).homeTier = 3 ∧ freeHandle ctx2 = some 1 ∧ Machine.fits ctx2 3 0 4 = true ∧ placeHome stored 0 3 4 false = some 0 ∧
    tierFault stored 3 = none ∧
    allocCheck stored ctx2 (objOfFlags 0 3 3) 0 = some (.refused, .objParam) ∧
    allocCheck stored { ctx2 with images := [(0, img0)] } (objOfFlags 0x20_7000 0 0) 0 = none ∧
    homeShare { ctx2 with images := [(0, img0)] } (objOfFlags 0x20_7000 0 0) 0 = some (0, 64) := by
  unfold Live; decide

theorem wit_free : tget? ctx2.objs 0 = some obj0 ∧ tagsHeld stored 0 0 = false ∧ ispNames stored 0 0 = false ∧
    imageNames ctx2 0 = false ∧ streamOf ctx2 0 = none ∧ imageNames { ctx2 with images := [(0, { img0 with bound := [0] })] } 0 = true ∧
    streamOf { ctx2 with streams := [(0, { state := .opened })] } 0 ≠ none ∧
    fillHeld { stored with ctxs := [(0, { ctx2 with objs := [], fills := [(0, { tier := 3, first := 8, count := 4 })] })] } 0 0 = false ∧
    fillHeld { withCtx { ctx2 with objs := [], fills := [(0, { tier := 3, first := 8, count := 4 })] } with ddr := {} } 0 0 = true := by
  decide

theorem wit_write : objWriteFault stored 0 0 64 64 ctx2 obj0 = none ∧ mirrorTargets stored 0 = [] ∧
    objWriteFault stored 0 0 1 64 ctx2 obj0 = some (.fault, .objRange) := by decide

theorem wit_read : rangeOk obj0 (3 * 4096) 4096 = true ∧ rangeOk obj0 (3 * 4096) 4097 = false ∧ stored.sec.error = false ∧
    ctx2.key ∈ stored.sec.keys ∧ stored.ddr.inService = true ∧ ({ pcie := { ready := true } } : State).pcie.ready = true := by decide

theorem wit_place : bit ctx2.cores 1 = true ∧ bit ctx2.cores 2 = false ∧ obj0.upper = none ∧ 1 < obj0.homeTier := by decide

theorem wit_image : tget? ctx2.images 0 = none ∧ tfree ctx2.images 4 = some 0 ∧ tget? ctx1.images 0 = some img0 ∧
    imageKeys busy { img0 with wins := [] } = [] ∧ ctxEntries busy 0 = [] := by decide

/-- A sequence of one layer and one slice. -/
def geom0 : KvGeom := { maxTokens := 128, layers := 1, slices := 1, fmtK := 1, fmtV := 1 }

theorem wit_fork : Machine.geomOk geom0 = true ∧ Machine.geomOk { geom0 with layers := 129 } = false ∧
    (∀ e ∈ addRefs ctx2.refs [], e.2 ≤ 65535) ∧ Machine.fits ctx2 3 0 (seqGranules geom0) = true ∧ tget? ctx2.seqs 0 = none := by decide

theorem wit_seq_free : seqWalked stored 0 0 = false ∧
    (tget? ({ ctx2 with seqs := [(0, { geom := geom0, ptes := [(0, { page := some 0, fill := 64 })] })] } : Ctx).seqs 0).isSome := by decide

/-- A walk request for 64 tokens of sequence 0, and one with a version of 0. -/
def walk0 : Bytes := leBytes 4 0x1000_0000 ++ zeros 8 ++ leBytes 4 64 ++ zeros 48

theorem wit_walk : stageRunning (deckOf walk0 busy) 0 0 = some (0, job0) ∧
    deckRead (deckOf walk0 busy) 0 0 0 0 64 = some walk0 ∧ walkVersionBad walk0 = false ∧ walkVersionBad (zeros 64) = true ∧
    walkRangeBad (64 * 256) 0 (walkReq walk0) = false ∧ walkRangeBad (64 * 256) 1 (walkReq walk0) = true ∧
    walkSeqBad geom0 (walkReq walk0) = false ∧ walkSeqBad { geom0 with maxTokens := 0 } (walkReq walk0) = true ∧
    blockNeed (walkReq walk0) 0 = 64 := by decide

theorem wit_streams : chunkRuns stored 0 3 = false ∧ 3 < ctx2.quotas.streams ∧ (streamAt ctx2 3).state = .free ∧
    chunkRuns { stored with cores := [(0, { chunks := [{ ctx := 0, index := 3, running := true }] })] } 0 3 = true ∧
    streamGeomBad ctx2 { index := 3, options := 0, channels := 64, homeCore := 1, aObject := 0 } = false ∧
    (streamAt { ctx2 with streams := [(3, { state := .paused })] } 3).state = .paused := by decide

/-- A chunk request of 64 steps, with FP32 output. -/
def chunk0 : Bytes := leBytes 4 0x1300_0000 ++ zeros 8 ++ leBytes 4 64 ++ zeros 48

theorem wit_chunk : deckRead (deckOf chunk0 busy) 0 0 0 0 64 = some chunk0 ∧ scanVersionBad chunk0 = false ∧
    scanVersionBad (zeros 64) = true ∧ scanRangeBad (64 * 256) 0 0 true (scanReq chunk0) = false ∧
    scanRangeBad (64 * 256) 1 0 true (scanReq chunk0) = true ∧ (scanReq chunk0).index < ctx1.quotas.streams := by decide

theorem wit_chunk_complete : ∃ (s : State) (q : Chunk) (x : Ctx) (o : Obj), q = { running := true } ∧
    (coreOf s (physOf s 0)).chunks.find? (fun k => k.slot == 0 && k.running) = some q ∧ tget? s.ctxs 0 = some x ∧
    deckRead s 0 0 0 0 64 = some chunk0 ∧ tget? x.streams 0 = some { state := .opened } ∧ tget? x.objs 0 = some o ∧ o.upper = some { tier := 1 } :=
  ⟨{ deckOf chunk0 (withCtx { ctx1 with streams := [(0, { state := .opened })], objs := [(0, { upper := some { tier := 1 } })] }) with
      cores := [(0, { chunks := [{ running := true }] })] }, { running := true },
    { ctx1 with streams := [(0, { state := .opened })], objs := [(0, { upper := some { tier := 1 } })] }, { upper := some { tier := 1 } },
    by decide⟩


/-! ## Windows and lanes -/

/-- An open window of sixteen rows that core 0, the host and the audio block may write. -/
def openWin : Win := { state := .opened, epoch := 1, limit := 16, writers := 0x501 }

/-- The running device with that window as entry 0 of its Deck. -/
def windowed : State := { busy with wins := [(0, openWin)] }

/-- A window write of core 0. -/
def hdr0 : WinHdr := { space := 0, ctx := 0, slot := 0, win := 0, epoch := 1, off := 4094, data := [1, 2], writer := .core 0 }

/-- Its write, accepted. -/
def flight0 : Flight := { off := 4094, data := [1, 2], writer := .core 0 }

theorem wit_window_opening : Live (rq 0) busy ∧ (liveCtx busy 0).isSome ∧ busy.fenced.contains 0 = false ∧
    keyOf busy 0 0 0 1 = none ∧ keyOf busy 0 0 0 0 = some 0 ∧ imageOf busy 0 0 = some img0 ∧ tget? img0.shares 0 = some (0, 64) ∧
    (winAt windowed 0).state ≠ .closed ∧ (winAt busy 0).state = .closed ∧ (∀ n < 8, bit 0x1FF n = true → n < 8) ∧
    (∀ n < 8, bit 0x103 n = true → bit (tget busy.ctxs {} 0).cores n = true) ∧
    (∀ n < 8, bit 0x103 (24 + n) = true → bit (setMembers busy) n = true) ∧ (tget busy.ctxs {} 0).cores < 256 ∧
    (∃ n < 8, bit 4 n = true ∧ bit (tget busy.ctxs {} 0).cores n = false) ∧
    (∃ e ∈ [((1 : Nat), openWin)], e.1 / 256 = 0 / 256 ∧ e.2.state ≠ .closed ∧ e.2.base < 0 + 64 ∧ 0 + 15 < e.2.limit) := by
  unfold Live; decide

theorem wit_window_writes : keyOf windowed 0 0 0 0 = some 0 ∧ winAt windowed 0 = openWin ∧ hdr0.pitch = 0 ∧ homeReady windowed hdr0 = true ∧
    homeReady { windowed with pwr := { up := 0 } } hdr0 = false ∧ bit openWin.writers (writerBit hdr0.writer) = true ∧
    bit openWin.writers (writerBit (.core 1)) = false ∧ openWin.epoch = hdr0.epoch ∧
    hdr0.off + hdr0.data.length = (openWin.limit - openWin.base) * 256 ∧ (windowed.flights.filter (fun f => f.2.home == 0 / 256)).length < 4 ∧
    4 ≤ (([(0, flight0), (1, flight0), (2, flight0), (3, flight0)] : Tab Flight).filter (fun f => f.2.home == 0 / 256)).length := by decide

theorem wit_host_window_writes : Live (rq 0) windowed ∧ (liveCtx windowed 0).isSome ∧ keyOf windowed 0 0 0 0 = some 0 ∧
    winAt windowed 0 = openWin ∧ homeReady windowed { space := 0, ctx := 0, slot := 0, win := 0, epoch := 1, off := 4095, data := [1], writer := .host } = true ∧
    bit openWin.writers 8 = true ∧ bit 0x401 8 = false ∧ 4095 + 1 ≤ (openWin.limit - openWin.base) * 256 ∧ inFlight windowed (0 / 256) < 4 := by
  unfold Live; decide

theorem wit_window_landing : ∃ s : State, tget? s.flights 1 = some flight0 ∧ flight0.pitch = 0 ∧ flight0.entry < 256 ∧
    (∃ g ∈ s.flights, g.1 < 1 ∧ g.2.home = flight0.home ∧ g.2.entry = flight0.entry ∧ g.2.writer = flight0.writer) ∧
    tget? s.flights 0 = some flight0 ∧
    (∀ g ∈ s.flights, g.1 < 0 → g.2.home ≠ flight0.home ∨ g.2.entry ≠ flight0.entry ∨ g.2.writer ≠ flight0.writer) ∧
    Live (rq 0) s :=
  ⟨{ windowed with flights := [(0, flight0), (1, flight0)] }, by unfold Live; decide⟩

theorem wit_wait_is_satisfied : stageCtx windowed 0 0 = some 0 ∧ tget? windowed.ctxs 0 = some ctx1 ∧ ctx1.job = some job0 ∧
    keyOf windowed 0 job0.run.slot 0 0 = some 0 ∧ openWin.waiting = none ∧ openWin.state ≠ .closed ∧
    ((0 : Int) - (0 : Int)) % 2 ^ 32 < 2 ^ 31 ∧ (2 : Int) ^ 31 ≤ ((0 : Int) - (1 : Int)) % 2 ^ 32 ∧
    ((0 : Int) - (2 ^ 31 + 1 : Int)) % 2 ^ 32 < 2 ^ 31 ∧ (2 : Int) ^ 31 ≤ ((0 : Int) - (2 ^ 31 : Int)) % 2 ^ 32 := by decide

theorem wit_window_waiting : ({ openWin with waiting := some (0, 0) } : Win).waiting ≠ none ∧ ({} : Win).state = .closed ∧
    waitSatisfied { openWin with threshold := 0 } = true ∧ waitSatisfied { openWin with threshold := 1 } = false ∧
    waitSatisfied { openWin with threshold := 2 ^ 31 } = false ∧ waitSatisfied { openWin with threshold := 2 ^ 31 + 1 } = true := by decide

theorem wit_window_closing : Live (rq 0) windowed ∧ keyOf windowed 0 0 0 1 = none ∧ keyOf windowed 0 0 0 0 = some 0 ∧
    (winAt busy 0).state = .closed ∧ (winAt windowed 0).state ≠ .closed ∧ 0 = homeOf windowed 0 * 256 + 0 ∧
    ({ openWin with state := .closing, closers := [(.host (rq 0), 0)], waiting := some (0, 0) } : Win).state = .closing ∧
    (([(0, flight0)] : Tab Flight).any (fun f => f.2.home * 256 + f.2.entry == 0)) = true := by
  unfold Live; decide

theorem wit_view_fences : stageCtx busy 0 0 = some 0 ∧ physOf busy 0 = 0 ∧
    (coreOf { busy with cores := [(0, { narrow := [(5, 1), (9, 2)], wideRows := [0] })] } 0).narrow = [(5, 1), (9, 2)] ∧
    (([(5, 1), (9, 2)] : List Host.Cell).map Prod.fst).Nodup := by decide

/-- A large lane of context 0 that is enabled. -/
def lane0 : Lane := { enable := true, owner := some 0, sess := some 1, level := 64, idle := 10 }

/-- The running device with that lane as lane 24, and as the small lane 0. -/
def laned : State := { busy with lanes := [(0, lane0), (24, lane0)] }

theorem wit_lane_configuration : Live (rq 0) laned ∧ (liveCtx laned 0).isSome ∧ laneAt laned 24 = lane0 ∧ lane0.waiting = [] ∧
    lane0.flush = [] ∧ lane0.flushing = [] ∧ lane0.opened = none ∧ lane0.draining = [] ∧ lane0.owner = some (rq 0).ctx ∧ (8 : Nat) ≤ 131072 ∧
    (131072 : Nat) % 8 = 0 ∧ (16384 : Nat) % 8 = 0 ∧ ({ lane0 with owner := some 1 } : Lane).owner ≠ some (rq 0).ctx ∧
    ({ lane0 with opened := some ({}, 0, 0) } : Lane).opened ≠ none := by
  unfold Live; decide

theorem wit_lane_flushing : laneAt laned 0 = lane0 ∧ (laneAt laned 1).enable = false ∧ (laneAt laned 1).owner = none ∧
    lane0.enable = true ∧ lane0.pend = none ∧ ({ lane0 with draining := [1] } : Lane).draining ≠ [] := by decide

theorem wit_lane_puts : stageRunning (deckOf [7] laned) 0 0 = some (0, job0) ∧ laneAt (deckOf [7] laned) 0 = lane0 ∧
    tagFree (deckOf [7] laned) 0 0 = true ∧ deckRead (deckOf [7] laned) 0 0 0 (64 * 256 - 32) 32 = some (zeros 32) ∧ deckRead (deckOf [7] laned) 0 0 0 (64 * 256) 32 = none ∧
    (bankSize 0 < pktSize (4096 + bankSize 0)) ∧ pktSize (zeros 32).length ≤ bankSize 0 ∧
    fillBytes lane0 + pktSize (zeros 32).length ≤ bankSize 0 ∧ (∃ n, n ≤ bankSize 0 ∧ bankSize 0 < n + pktSize 32) ∧
    ({ lane0 with opened := some ({}, 1, 0) } : Lane).opened = some ({}, 1, 0) :=
  ⟨by decide, by decide, by decide, by decide, by decide, by decide, by decide, by decide, ⟨bankSize 0, by decide⟩, by decide⟩

theorem wit_lane_handover : ∃ l : Lane, l.waiting = [] ∧ l.flush = [] ∧ l.flushing = [] ∧ l.pend = none ∧ l.draining = [] ∧ l.filling ≠ [] ∧
    l.level ≤ fillBytes l ∧ l.idle ≠ 0 ∧ l.sess = some 1 ∧ tget? laned.net.sessions 1 = some { src := 7, sport := 9, proved := true } ∧
    laned.net.outbound.length < 4096 ∧ (l.filling.flatMap LanePkt.bytes).length ≤ (1024 - 16) / 8 * 8 ∧
    fillBytes { l with filling := [] } < l.level :=
  ⟨{ lane0 with filling := [{ number := 0, data := zeros 64 }], level := 64 }, by decide⟩

/-! ## Cameras, audio and Guardrail -/

/-- A camera path in service: receiver 0, and stream 0 of two RAW10 lines of four pixels from its virtual channel 0. -/
def camera : State :=
  let s := setReg (setReg { busy with pwr := { busy.pwr with up := 0x0001_01FF } } (strPage 0 + 8) (0x2B * 2 ^ 14 + 2 ^ 11))
    (strPage 0 + 0xC) 0x0002_0004
  setPage (setPage s (rxPage 0) true) (strPage 0) true

/-- The same with a frame begun. -/
def framed : State := { camera with cam := { camera.cam with frames := [{ stream := 0, no := 3 }] } }

theorem wit_camera_binding : Live (rq 0) busy ∧ pageOn busy (ispPage 15) = false ∧ pageOn (setPage busy (ispPage 15) true) (ispPage 15) = true ∧
    (liveCtx busy 0).isSome ∧ liveCtx busy 1 = none ∧ EventRoom busy := by
  unfold Live EventRoom; decide

theorem wit_frame_reception : camera.cam.muted = false ∧ bit camera.pwr.up 8 = true ∧ bit busy.pwr.up 8 = false ∧
    pageOn camera (rxPage 0) = true ∧ strOf camera 0 0 = some 0 ∧ strOf camera 0 1 = none ∧ openFrame camera 0 = none ∧
    (camera.cam.frames.filter (fun g => g.stream == 0)).length < laybySlots camera 0 ∧
    openFrame framed 0 = some { stream := 0, no := 3 } ∧ frameOf framed 0 3 = some { stream := 0, no := 3 } ∧
    0x2B = bits (strSrc framed 0) 19 14 ∧ bit (strSrc framed 0) 11 = true ∧ strW framed 0 = 4 ∧ strH framed 0 = 2 ∧
    (unpackRaw 0x2B (zeros 5)).length = 4 ∧ strW framed 0 < (unpackRaw 0x2B (zeros 10)).length := by decide

theorem wit_presence_and_mute : EventRoom camera ∧ camera.cam.muted = false ∧ (rxAt camera 0).present = false ∧
    ({ camera with cam := { camera.cam with muted := true } } : State).cam.muted = true := by
  unfold EventRoom; decide

theorem wit_isp_turns : ∃ s : State, s.cam.running = none ∧ (0, 0, 3, 0).2.2.2 = 0 ∧ (pageAt s (ispPage 0)).pending = false ∧ homeReady s hdr0 = true ∧
    bit (live s 0x0020_0010) 31 = false ∧ s.cam.ready.head? = some (0, 0, 3, 0) ∧
    bit (live (setReg s 0x0020_0010 0x8002_0000) 0x0020_0010) 31 = true ∧ 0 < bits (live (setReg s 0x0020_0010 0x8002_0000) 0x0020_0010) 21 16 ∧
    bit (live (setReg s 0x0020_0080 0x10) 0x0020_0080) 4 = true ∧ s.cam.served = false ∧
    (pageAt (modPage s (ispPage 0) (fun g => { g with pending := true })) (ispPage 0)).pending = true ∧
    frameOf s 0 3 = some { stream := 0, no := 3 } ∧
    ({ s with cam := { s.cam with running := some (0, 0, 3, 0) } } : State).cam.running = some (0, 0, 3, 0) :=
  ⟨{ framed with cam := { framed.cam with ready := [(0, 0, 3, 0)] } }, by decide⟩

theorem wit_isp_writes : ∃ (h : WinHdr) (w : Win) (s : State), h = { space := 0, ctx := 0, slot := 0, win := 0, epoch := 1, off := 0, data := [1], writer := .isp } ∧
    homeReady s h = true ∧ keyOf s 0 0 0 0 = some 0 ∧ winAt s 0 = w ∧ writeFate s h 0 = .accepted ∧
    writeFate { s with wins := [(0, { w with writers := 1 })] } h 0 = .denied ∧ writeFate { s with wins := [(0, { w with epoch := 2 })] } h 0 = .closed ∧
    writeFate s { h with off := 4096 } 0 = .range :=
  ⟨_, { openWin with writers := 0x200 }, { framed with wins := [(0, { openWin with writers := 0x200 })] }, rfl, by decide⟩

theorem wit_frame_record : ∃ (g : Frame) (u : IspFrame), (∀ k ∈ g.flags, k < 14) ∧ (∀ k ∈ u.lost, k < 3) ∧ g.stream < 8 ∧ u.isp < 16 ∧
    g.no < 2 ^ 64 ∧ g.got < 2 ^ 16 ∧ (2 ^ 32 - 1 : Nat) < 2 ^ 32 ∧ (255 : Nat) < 256 ∧ (∀ k ∈ [13], k < 14) ∧ g.csi < 2 ^ 16 ∧ g.flags ≠ [] ∧ u.lost ≠ [] :=
  ⟨{ stream := 7, no := 2 ^ 64 - 1, flags := [0, 13], got := 65535, csi := 65535 }, { isp := 15, lost := [0, 2] }, by decide⟩

/-- The running device whose context 0 owns the audio block, with both paths enabled: ten milliseconds of one channel into
window 0 of core 0's Deck. -/
def sounding : State :=
  let s := setReg (setReg windowed 0x0021_0010 0x0101_0000) 0x0021_0040 1
  let s := setReg (setReg s 0x0021_0048 0x8004_000A) 0x0021_0058 0x8004_000A
  setPage (setPage { s with aud := { s.aud with owner := some 0 } } 0x0021_0000 true) 0x0021_1000 true

theorem wit_audio_owner_commands : Live (rq 0) sounding ∧ sounding.aud.owner = some (rq 0).ctx ∧ busy.aud.owner = none ∧
    (rq 0).iface ≠ .mgmt ∧ (liveCtx sounding 0).isSome ∧ imageOf sounding 0 0 = some img0 ∧ imageOf sounding 0 1 = none ∧
    (entryOf sounding 0 0 0 0).isSome ∧ entryOf sounding 0 0 0 1 = none ∧ liveCtx sounding 0 = some ctx1 ∧ tget? ctx1.objs 7 = none := by
  unfold Live; decide

theorem wit_phrase_load : ∃ (o : Obj) (x : Ctx) (r : Bytes), tget? x.objs 0 = some o ∧ storedBytes o < 0 + (storedBytes o + 1) ∧
    0 + 32 ≤ storedBytes o ∧ homeRead busy x o 0 32 = .ok r ∧ wakeFormatOk r = false :=
  ⟨{ homeTier := 2 }, { ctx0 with objs := [(0, { homeTier := 2 })] }, zeros 32, by decide⟩

theorem wit_spotter_frames : sounding.pwr.mode ≠ .off ∧ sounding.aud.ring.length ≤ 32000 ∧ pageOn sounding 0x0021_1000 = true ∧
    pageOn busy 0x0021_1000 = false ∧ ([] : List Nat).Nodup ∧ (runLayers [] [] [5] [] []).2.2 = some 5 := by decide

theorem wit_microphone_mute : EventRoom sounding ∧ sounding.aud.muted = false ∧ sounding.aud.hold = false ∧
    ({ sounding with pwr := { sounding.pwr with mode := .off } } : State).pwr.mode = .off := by
  unfold EventRoom; decide

theorem wit_audio_blocks : pathOn sounding 0 = true ∧ pathOn sounding 1 = true ∧ pathOn busy 0 = false ∧ chipState sounding ≤ 1 ∧
    2 ≤ chipState { sounding with pwr := { startup := false } } ∧ blockSamples sounding 0 = 160 ∧
    live sounding (pathRegs 0) = 1 ∧ keyOf sounding 0 (bits 1 17 16) (bits 1 29 26) (bits 1 15 8) = some 0 ∧ winAt sounding 0 = openWin ∧
    openWin.epoch = 1 % 256 ∧ bit openWin.writers 10 = true ∧ inFlight sounding (gateOf (0 / 256) openWin.base) ≤ 2 ∧ sounding.waitHdrs = [] ∧ bits 1 29 26 < 8 ∧
    bit sounding.pwr.up (bits 1 29 26) = true ∧ tget? sounding.flights (sounding.nextFlight + 1) = none ∧ tget? sounding.flights sounding.nextFlight = none ∧
    (([{ samples := [1, 2, 3, 4, 5, 6, 7, 8] }, { samples := [2, 2, 3, 4, 5, 6, 7, 8] }] : List AudRow).flatMap (rowBytes sounding 0)).length = 4 ∧
    0 + 32 + 4 ≤ (openWin.limit - openWin.base) * 256 := by decide

theorem wit_preroll : prerollReady sounding = true ∧ prerollReady busy = false ∧ ringOldest sounding ≤ 0 ∧ sounding.aud.index < 0 + 160 ∧
    0 + 160 ≤ ({ sounding with aud := { sounding.aud with index := 160 } } : State).aud.index ∧
    0 < ringOldest { sounding with aud := { sounding.aud with index := 160 } } := by decide

theorem wit_cascade : EventRoom busy ∧ tget? ({ busy with aud := { cascade := [(1, {}), (2, {})] } } : State).aud.cascade 1 = some {} ∧
    (∀ r, tget? ({ busy with aud := { cascade := [(1, {}), (2, {})] } } : State).aud.casRuns 1 = some r → r.active = false) ∧
    tget? ({ busy with aud := { casRuns := [(1, { active := true, results := [(0, .ok, 2)] })] } } : State).aud.casRuns 1 =
      some { active := true, results := [(0, .ok, 2)] } ∧
    liveCtx busy 0 = some ctx1 ∧ tget? ctx1.images 0 = some img0 ∧ img0.reload = false ∧ ctx1.runQ.length < 16 ∧ ctx1.job.isSome ∧
    descending busy = false ∧
    actionTarget { busy with aud := { cascade := [(1, {}), (2, {})] } } 1 1 = 2 ∧ actionTarget busy 1 1 = 0 := by
  unfold EventRoom; decide

/-- A Guardrail that runs, with its sensor slot 0 enabled. -/
def guarded : State := setPage (setReg on 0x0022_0080 0xC000_0000) grdPage true

theorem wit_guardrail_commands : Live rqM guarded ∧ pageOn guarded grdPage = true ∧ pageOn on grdPage = false ∧ weightsOk [] = false ∧
    guarded.grd.stopped < 16 ∧ causePersists guarded 0 = false ∧ causePersists on 0 = true := by
  unfold Live; decide

theorem wit_guardrail_evaluates : grdOn guarded = true ∧ grdOn on = false ∧ slotOn guarded 0 = true ∧ slotOn guarded 1 = false ∧
    guarded.grd.bus = none ∧ ({ guarded with grd := { guarded.grd with bus := some 0 } } : State).grd.bus = some 0 ∧
    bit (slotReg guarded 0) 30 = true ∧ bit (slotReg (setReg guarded 0x0022_0080 0x8000_0000) 0) 30 = false := by decide

theorem wit_frame_crc : crc8 (([0, 0, 0, 0, 0, 0, 0, 0, 1] : Bytes).take 8) ≠ field [0, 0, 0, 0, 0, 0, 0, 0, 1] 8 1 ∧
    crc8 ((zeros 9).take 8) = field (zeros 9) 8 1 := by decide +kernel

theorem wit_guardrail_faults : ∃ e : PwrEntry, grdOn guarded = true ∧ guarded.grd.fault = false ∧ guarded.pwr.mode = .awake ∧
    e.target = 3 ∧ guarded.grd.deepOverride = false ∧ guarded.pwr.entry = none ∧
    ({ guarded with grd := { guarded.grd with dockHigh := false }, pwr := { guarded.pwr with entry := some e } } : State).grd.dockHigh = false :=
  ⟨{}, by decide⟩

/-! ## Datagrams, dispatch and DDR4 -/

/-- A datagram of the host's session 1 with SEQUENCE 6: DEVICE_INFO. -/
def packet6 (seq op : Nat) (p : Bytes) : Datagram :=
  { iface := .host, src := 7, sport := 9, port := 0, checksumOk := true, late := false, dst := 0xFFFF_0A00_0001, dport := 47210,
    bytes := [1, 0] ++ leBytes 2 op ++ leBytes 4 seq ++ leBytes 2 0 ++ leBytes 2 p.length ++ zeros 4 ++ leBytes 4 0 ++ leBytes 4 1 ++ p }

/-- The session's device with the ETHERNET page enabled, the session having sent SEQUENCE 5. -/
def listening : State :=
  setPage (setReg { on with net := { on.net with
    sessions := [(1, { src := 7, sport := 9, proved := true, remembered := [5], highest := some 5 })] } } 0x0023_0014 0x0A00_0001) 0x0023_0000 true

theorem wit_door : hears listening (packet6 6 2 []) = true ∧ hears on (packet6 6 2 []) = false ∧
    (readHeader (packet6 6 2 []).bytes).cls = 0 ∧ (readHeader (packet6 6 2 []).bytes).version = 1 ∧
    (readHeader (packet6 6 2 []).bytes).len = 0 ∧ (readHeader (packet6 6 2 []).bytes).sess = 1 ∧ 24 ≤ (packet6 6 2 []).bytes.length ∧
    peerOf listening 0 7 = none ∧ (readHeader (packet6 6 2 []).bytes).seq = 6 ∧ tget? listening.net.sessions 2 = none ∧
    (5 + 2 ^ 32 - 6) % 2 ^ 32 = 2 ^ 32 - 1 ∧ 2 ^ 31 < 2 ^ 32 - 1 ∧ (5 + 2 ^ 32 - 4) % 2 ^ 32 = 1 ∧
    doorChecks listening (tget? listening.net.sessions 1) (readHeader (packet6 6 2 []).bytes) (rq 0) [] = none ∧
    (doorChecks listening (tget? listening.net.sessions 1) (readHeader (packet6 6 3 []).bytes) (rq 0) []) =
      some (.malformed, .ethOpcode) ∧ heldReply listening 1 5 = none := by decide

theorem wit_door_open : ∃ p : Bytes, 1 ≤ p.length ∧ field p 0 1 = 0 ∧
    doorChecks { listening with net := {} } none (readHeader (packet6 6 1 p).bytes) { rq 0 with sess := 0 } p = none :=
  ⟨[0, 1, 0, 4, 0, 0, 0, 0], by decide⟩

theorem wit_door_refusals : 3 ∉ knownOps ∧ 2 ∈ knownOps ∧ lengthOk 2 [0] = false ∧ lengthOk 2 [] = true ∧ acceptedOn .host true 2 [] = false ∧
    acceptedOn .host false 2 [] = true ∧ acceptedOn .host false 0x0011 [] = false ∧ acceptedOn .host false 0x0100 (zeros 16) = true ∧
    authOk { on with sec := { policy := 32 } } {} 0x0100 = false ∧ authOk on {} 0x0100 = true ∧
    authOk on { peer := some 1 } 0x0100 = false ∧ isScoped 2 [] = false ∧ isScoped 0x0101 [] = true ∧ contextHeld on 0 < 32 := by decide

/-- The entry of a queued DEVICE_INFO. -/
def queued (op : Nat) (p : Bytes) : QEntry := { req := rq 0, op := op, payload := p }

theorem wit_dispatch : ∃ s : State, s.net.outbound.length < 4096 ∧ s.net.queue = [queued 2 []] ∧ heldBack s (queued 2 []) = false ∧
    Live (queued 2 []).req s ∧ (queued 2 []).req.sess ≠ 0 ∧ (queued 2 []).bad = false ∧
    (reservedFields 2 []).any (fun r => field [] r.1 r.2 != 0) = false ∧ modeOk 2 [] = true ∧
    (reservedFields 0x0010 [0, 0, 0, 0, 1, 0, 1, 0]).any (fun r => field [0, 0, 0, 0, 1, 0, 1, 0] r.1 r.2 != 0) = true ∧
    modeOk 0x0190 [3, 0] = false ∧ s.pwr.entry = none ∧ s.rst.recovery = false ∧ s.sec.error = false ∧ runsWithoutDdr 2 [] = true ∧
    runsWithoutDdr 0x0100 (zeros 16) = false ∧ readCommand s (queued 2 []) = some (.deviceInfo (rq 0)) :=
  ⟨{ listening with net := { listening.net with queue := [queued 2 []] } }, by unfold Live; decide⟩

theorem wit_outbound : ∃ e : OutEntry, ([e] : List OutEntry).find? (fun o => o.pkt.sess == 1 && o.pkt.link == 1) = some e ∧ e ∈ [e] ∧
    (1 + 2 ^ 32 - e.pkt.link) % 2 ^ 32 < 2 ^ 31 ∧ 2 ^ 31 ≤ (0 + 2 ^ 32 - e.pkt.link) % 2 ^ 32 ∧ EventRoom { on with net := { lostSince := 1 } } :=
  ⟨{ pkt := { sess := 1, link := 1 } }, by unfold EventRoom; decide⟩

/-- A device whose channels 0 and 1 are populated and train. -/
def training : State :=
  { setReg on 0x0003_8010 0xFF00_0000 with ddr := { training := true } }

theorem wit_ddr_training : training.rst.booting = false ∧ training.ddr.training = true ∧ EventRoom training ∧ stored.ddr.inService = true ∧
    (∀ n ∈ populated training, bit 0 n = false) ∧ on.ddr.inService = false ∧ (0, 5) ∉ (chanAt stored 0).throttled ∧
    4096 < tget ([(5, 4096)] : Tab Nat) 0 5 + 1 ∧ tget ([(5, 4095)] : Tab Nat) 0 5 + 1 ≤ 4096 := by
  unfold EventRoom; decide

/-- The worked example of the carve-out on a 32 GiB board: a line's tag word and its leaf counter (18, R653, R656). -/
theorem test_carve_out : carveBase training = 0x7_0000_0000 ∧ tagWordAt training 0x4C80_1F40 = 0x7_0AC0_03E8 ∧
    nodeAt training 19 0 256 = 0x7_0B30_4000 ∧ pathAt (0x4C80_1F40 / 4096) 0 = (nodeKey 19 0 256, 1) ∧
    countLine training (0x7_0AC0_03E8 / 64) / 2 ^ 20 = 19 ∧ countLine training 5 = 5 := by decide

theorem wit_ddr_populated : ∃ s : State, populated s ≠ [] ∧ ∃ n ∈ populated s, bit 255 n = true ∧ (chanAt s n).trained = false :=
  ⟨training, by decide, by decide⟩

/-- A read of line 4, on channel 1. -/
def ddrRead : DdrReq := { channel := 1, port := 0, id := 1, ctx := 0, line := 4, lines := 1, write := false, data := [] }

theorem wit_ddr_requests : Machine.reqOk training ddrRead = true ∧ Machine.reqOk training { ddrRead with lines := 5 } = false ∧ chanAt training 1 = {} ∧
    0 < partyEntries training (partyOf training 0) ∧ bit (live (setReg training 0x0027_0060 0x8000_0000) 0x0027_0060) 31 = true ∧
    1 ∈ populated training ∧ (chanAt training 1).scrub + 1 < scrubUnits training ∧ ddrRead.line % 4 + ddrRead.lines ≤ 4 ∧ 1 ≤ ddrRead.lines ∧ ddrRead.write = false ∧
    (∃ i < ddrRead.lines, (ddrRead.line + i) ∈ ([4] : List Nat)) ∧
    (∀ i < ddrRead.lines, (ddrRead.line + i) ∉ on.t3.bad) ∧
    (∀ i < ddrRead.lines, (tget? ([(4, zeros 64)] : Tab Bytes) (ddrRead.line + i)).isSome) ∧ (chanAt on 0).reqs = [] := by decide

/-! ## Security, reliability, sets of devices, reset and clocks -/

theorem wit_zeroisation : tlaogRuns on = true ∧ tlaogRuns State.reset = false ∧ on.rst.up = true ∧ on.pwr.mode = .awake ∧ on.sec.error = false ∧
    EventRoom on ∧ on.rel.trial = false ∧ on.set.peers = [] ∧ on.pwr.entry = none := by
  unfold EventRoom; decide

theorem wit_attestation : ∃ e : Session, tget? busy.net.sessions (rq 0).sess = some e ∧ e.maxPayload < 1017 + 8 ∧ 1016 + 8 ≤ e.maxPayload ∧
    busy.sec.error = false ∧ liveCtx busy 0 = some ctx1 ∧ liveCtx busy 1 = none ∧ crossedMembers busy 0 = [] ∧ setRole busy ≠ 1 ∧
    ctx1.report = none ∧ ({ ctx1 with report := some ([1], [2]) } : Ctx).report = some ([1], [2]) :=
  ⟨{ src := 7, sport := 9, proved := true }, by decide⟩

theorem wit_firmware : ∃ (g : Stage) (st : Status) (r : Reason), Live rqM on ∧ on.rel.trial = false ∧ g.target = 1 ∧ g.total = 8 ∧ g.bytes.length = 4 ∧
    4 + 4 ≤ g.total ∧ fwFault on [] 1 = some (st, r) ∧ on.rel.staged = [] ∧ on.rst.bootSlot ≤ 1 ∧
    ({ on with rel := { on.rel with trial := true, staged := [1], armed := true } } : State).rel.staged ≠ [] :=
  ⟨{ target := 1, total := 8, bytes := zeros 4 }, .malformed, .fwFormat, by unfold Live; decide⟩

theorem wit_odometer : on.pwr.mode ≠ .off ∧ on.pwr.mode = .awake ∧ on.rst.up = true ∧
    on.rel.odo.persistHours / 64 < 64 / 64 ∧ (-800 : Int) + 50 * 31 ≤ (750 : Nat) ∧ ((2 : Nat) : Int) < -400 + 50 * (9 + 1) ∧
    (-400 : Int) + 50 * 8 ≤ (2 : Nat) ∧ (2 ^ (30 - 1) ≤ 2 ^ 30 - 1) ∧ (tget? on.net.sessions 1).isSome ∧ bits 3 26 8 = 0 ∧
    bits 0x2000_001F 31 28 = 2 ∧ 0x2000_001F % 256 < monCount 2 ∧ monCount 2 ≤ 0x2000_0020 % 256 ∧ bit 0x0800_0000 27 = true := by decide

theorem wit_fencing : Live rqM on ∧ 7 ∉ on.fenced ∧ 7 ∈ ({ on with fenced := [7] } : State).fenced ∧ bit (live (setReg on 0x0027_0050 0) 0x0027_0050) 31 = false ∧
    bit (live on 0x0027_0050) 31 = true ∧ on.pwr.mode = .awake ∧
    on.rel.fencing.any (fun f => f.1 == 7) = false ∧ on.rel.consumed = false ∧ on.rel.reliefBad = false ∧ 7 < on.coreMap.length ∧
    repairingCore on 7 = false ∧ fenceCause on 7 2 = true ∧ on.rel.repairing = none ∧ on.rel.heldDestroys = [] ∧
    repairingCore { on with rel := { repairing := some (7, true, none) } } 7 = true ∧
    fenceCause { on with rel := { ueAt := [(7, 0), (7, 0)] } } 7 1 = true ∧ recentUes on 7 < bits (live on 0x0027_0050) 7 0 := by
  unfold Live; decide

/-- Member 1 of a set of members 0 and 1, its set session with member 0 up, and a crossing of its own context 0 with the other's. -/
def member : State :=
  let s := setPage (setReg busy 0x0023_0410 0x8100_0003) 0x0023_0400 true
  { s with set := { peers := [(0, { state := .up, sess := some 9, unsettled := [{ num := 1, src := .mirror (rq 0) }] })] } }

theorem wit_set_sessions : peerAt member 0 = { state := .up, sess := some 9, unsettled := [{ num := 1, src := .mirror (rq 0) }] } ∧
    member.rst.up = true ∧ member.pwr.mode = .awake ∧ bit (setMembers member) 0 = true ∧ 0 < ownIndex member ∧
    (peerAt { member with set := {} } 0).state ≠ .up ∧ bit (setMembers member) 2 = false ∧
    EventRoom (peerGone { member with ctxs := [], set := { peers := [(0, { state := .up })] } } 0 .lost) := by
  unfold EventRoom; decide

theorem wit_crossings : ∃ c : Crossing, setRole member = 2 ∧ (peerAt member 0).state = .up ∧ c.devB = ownIndex member ∧ c.devA ≠ c.devB ∧
    c = { devA := bits (0x8000_0000#32).toNat 26 24, ctxA := bits (0x8000_0000#32).toNat 8 0, devB := bits (0x0100_0000#32).toNat 26 24,
          ctxB := bits (0x0100_0000#32).toNat 8 0, mirror := bit (0x8000_0000#32).toNat 30 } ∧
    bit (0x8000_0000#32).toNat 31 = true ∧ (liveCtx member c.ctxB).isSome ∧ liveCtx on 0 = none ∧
    setRole (setPage (setReg on 0x0023_0410 0x4000_0003) 0x0023_0400 true) = 1 ∧ setRole on ≠ 1 ∧ setRole on ≠ 2 :=
  ⟨{ devB := 1 }, by decide⟩

theorem wit_trunk_crossing : ∃ (c : Crossing) (s : State), setRole s = 1 ∧ bit (live s (0x0023_0500 + 8 * 63)) 31 = true ∧
    c = crossingAt (live s) 63 ∧ tget? s.set.installed 63 ≠ some c ∧ c.devA = ownIndex s ∧ c.devB ≠ c.devA ∧
    (peerAt s c.devB).state = .up ∧ (liveCtx s c.ctxA).isSome ∧ bit (live s 0x0023_0500) 31 = false :=
  ⟨{ devB := 1 }, { setReg (setReg (setPage (setReg busy 0x0023_0410 0x4000_0003) 0x0023_0400 true) (0x0023_0500 + 8 * 63) 0x8000_0000)
      (0x0023_0504 + 8 * 63) 0x0100_0000 with set := { peers := [(1, { state := .up })] } }, by decide⟩

theorem wit_aggregates : ∃ (a b : Aggregate) (s : State), 1 ∈ a.waiting ∧ (∃ m ∈ a.waiting, m ≠ 1) ∧ b.waiting = [1] ∧ Live b.req s ∧
    (liveCtx s b.req.ctx).isSome ∧ s.set.aggregates = [(0, b)] :=
  ⟨{ req := rq 0, waiting := [1, 2] }, { req := rq 0, waiting := [1] }, { busy with set := { aggregates := [(0, { req := rq 0, waiting := [1] })] } },
    by unfold Live; decide⟩

/-- The bytes of a remote write of member 0 to window 0 of core 0's Deck. -/
def remote0 : Bytes := [1, 0, 0, 0, 1, 0, 0, 0, 0, 0, 2, 0, 0, 0, 0, 0, 5, 6]

theorem wit_remote_writes : ∃ s : State, (peerAt s 0).state = .up ∧ keyOf s 0 0 0 0 = some 0 ∧ homeReady s (remoteHdr remote0) = true ∧
    (1 + 2 ^ 32 - 1 % 2 ^ 32) % 2 ^ 32 = 0 ∧ (peerAt s 0).expected = 1 ∧ crossingAdmits s remote0 = true ∧ field remote0 1 1 = 0 ∧
    writeFate s (remoteHdr remote0) 0 = .accepted ∧ (remoteHdr remote0).space ≤ 8 ∧ crossingAdmits member remote0 = false ∧ (peerAt s 0).inbound = [] ∧
    (0 + 2 ^ 32 - 1 % 2 ^ 32) % 2 ^ 32 = 2 ^ 32 - 1 ∧ (2 + 2 ^ 32 - 1 % 2 ^ 32) % 2 ^ 32 = 1 ∧ (peerAt s 0).unsettled ≠ [] ∧
    (peerAt s 0).failures = [] ∧ s.set.mirrors = [] ∧ (peerAt s 0).told = (peerAt s 0).settled ∧
    ({ (peerAt s 0) with settled := 1 } : Peer).told ≠ ({ (peerAt s 0) with settled := 1 } : Peer).settled :=
  ⟨{ member with set := { member.set with installed := [(0, { devB := 1 })] }, wins := [(0, { openWin with writers := 2 ^ 24 })] }, by decide⟩

/-- What a cold boot meets when all is well. -/
def boot0 : BootInput :=
  { slotOk := [true, true], selfTest := true, snapshot := true, repair := true, cores := List.replicate 9 true, copies := [true, true] }

theorem wit_reset_and_boot : on.pwr.mode ≠ .off ∧ State.reset.rst.porstLow = true ∧ State.reset.pwr.powerOn = true ∧
    on.rst.porstLow = false ∧ State.reset.rst.activeSlot ≤ 1 ∧ boot0.slotOk.getD 0 false = true ∧
    ({ boot0 with slotOk := [false, true] } : BootInput).slotOk.getD 0 false = false ∧ State.reset.rst.snapshot = [] ∧
    State.reset.rst.repair = none ∧ State.reset.ddr.training = false ∧ State.reset.rel.copies = [] ∧
    Live rqM on ∧ on.pwr.entry = none ∧ on.rel.fencing = [] ∧ on.rel.repairing = none ∧ on.rel.stage = none ∧ on.set.peers = [] ∧ on.rst.snapshot = [] := by
  unfold Live; decide

theorem wit_clocks_and_links : on.pwr.mode ≠ .off ∧ on.rst.porstLow = false ∧ on.rst.held = false ∧
    bit ({ on with rst := { on.rst with lock := 0x1FF } } : State).rst.lock 8 = true ∧ bit (locks on) 8 = false ∧
    bit (locks { on with rst := { on.rst with lock := 0x1FF }, pwr := { on.pwr with up := 2 ^ 10 } }) 8 = true ∧
    bit (locks { on with rst := { on.rst with lock := 0x1FF } }) 0 = true ∧ bit (locks { on with rst := { on.rst with lock := 0x1FF } }) 1 = true ∧ EventRoom on ∧
    ({ on with pcie := { up := true } } : State).pcie.up = true ∧ on.pcie.up = false ∧
    pageOn (setPage on 0x0024_0000 true) 0x0024_0000 = true := by
  unfold EventRoom; decide

/-! ## Engines, the chip Junction and Convoy -/

/-- The two descriptors of a product of one row and one column over 32 channels, INT8 with FP32 output, on MXE 0: A at 0x100, B at
0x120, the side table at 0x200, and the result at 0x1000. -/
def cag0 : Bytes :=
  leBytes 4 (2 ^ 28 + 2 ^ 16) ++ leBytes 4 0x100 ++ leBytes 4 32 ++ leBytes 4 32 ++ leBytes 2 1 ++ leBytes 2 1 ++ leBytes 2 1 ++
    leBytes 2 32 ++ [1, 1, 1, 1] ++ [0, 0, 1, 1] ++ zeros 8 ++ leBytes 4 0 ++ leBytes 4 1 ++ leBytes 2 0 ++ leBytes 2 0 ++ leBytes 4 64 ++ zeros 8
def pd0 : Bytes :=
  leBytes 4 (2 ^ 28 + 2 ^ 24 + 6 * 2 ^ 20 + 2 ^ 9) ++ leBytes 4 0x120 ++ leBytes 2 1 ++ leBytes 2 0 ++ leBytes 4 0x200 ++ leBytes 4 0 ++
    leBytes 4 0x1000 ++ leBytes 4 0 ++ leBytes 4 0

/-- The entry of the group's queue, and the device that has it. -/
def eng0 : EngEntry := { slot := 0, ctx := 0, img := 0, off := 0 }
def engaged : State := { deckOf (cag0 ++ pd0) busy with cores := [(0, { groups := [(0, { queue := [eng0] })] })] }

theorem wit_engine_pushes : stageRunning busy 0 0 = some (0, job0) ∧ physOf busy 0 = 0 ∧ bit (stageGroups job0 0 0) 0 = true ∧
    bit (stageGroups { job0 with stages := [{ stage0 with groups := 1 }] } 0 0) 1 = false := by decide

theorem wit_engine_starts : physOf engaged 0 = 0 ∧ groupAt (coreOf engaged 0) 0 = { queue := [eng0] } ∧ tget? engaged.ctxs eng0.ctx = some ctx1 ∧
    ctx1.job = some job0 ∧ job0.onCores = true ∧ engCheck engaged 0 eng0 job0 = .ok (cag0, pd0) ∧ ramp (engDesc cag0 pd0) = false ∧
    maskBits (engDesc cag0 pd0).mask 4 = [0] ∧ busyEngines (coreOf engaged 0) = [] := by decide +kernel

theorem wit_engine_refusals : engCheck engaged 0 { eng0 with off := 32 } job0 = .error .engVersion ∧
    engCheck engaged 0 { eng0 with off := 64 * 256 } job0 = .error .engBounds ∧
    engVersionBad (engDesc (zeros 64) pd0) = true ∧ 0 ∈ busyEngines { groups := [(1, { run := some { cag := cag0, pd := pd0 } })] } := by
  decide +kernel

/-- A running descriptor of one beat. -/
def run0 : EngRun := { entry := eng0, cag := cag0, pd := pd0, beats := [(0, [{ acc := [5] }])] }

theorem wit_core_junction : (∀ i < 4, inputGroup {} i = none) ∧
    inputGroup { groups := [(0, { run := some run0 })] } 0 = some (0, run0, { acc := [5] }) ∧
    (∀ k < 4, k ≠ 0 → inputGroup { groups := [(0, { run := some run0 })] } k = none) ∧ splitParts (engDesc cag0 pd0) = 1 ∧
    splitParts { engDesc cag0 pd0 with splitK := 1 } = 2 ∧ (combineBeats (engDesc cag0 pd0) [{ acc := [5] }, { acc := [6] }]).isSome := by
  decide +kernel

theorem wit_engine_completes : (∃ e ∈ run0.beats, e.1 < 4 ∧ e.2 ≠ []) ∧ (∀ e ∈ ({ run0 with beats := [(4, [])] } : EngRun).beats, 4 ≤ e.1 ∨ e.2 = []) ∧
    run0.parts = [] ∧ (groupAt (coreOf busy 0) 0).run = none := by decide

/-- The job's image has group 0 with cores 0 and 1 contributing four rows. -/
theorem wit_junction_beats_are_sent : imageOf busy 0 job0.run.slot = some img0 ∧
    (groupOf img0 job0.phase 0).map (fun g => (g.contrib, g.rows)) = some (3, 4) ∧ (0, 0, 3) ∉ job0.jctSent ∧
    (deckRead busy 0 0 0 (64 * 256 - 256) 256).isSome ∧ deckRead busy 0 0 0 (64 * 256 - 255) 256 = none ∧ groupOf img0 job0.phase 1 = none := by
  decide

/-- A beat of that group. -/
def beat0 : JctBeat := { ctx := 0, group := 0, core := 0, row := 0, data := [7] }

theorem wit_junction_beats_are_accepted : (1 = 2 * busy.jct.turn ∨ 1 = 2 * busy.jct.turn + 1) ∧ tget busy.jct.skids [] 1 = [] ∧
    tget ([(0, [beat0])] : Tab (List JctBeat)) [] 0 = [beat0] ∧ (jctGroup busy 0 0).map Prod.fst = some 0 ∧ jctGroup busy 0 1 = none ∧
    (jctGroup busy 0 0).map (fun g => (g.2.gather, g.2.slots)) = some (false, 2) ∧ jctJoin busy beat0 = false ∧
    jctJoin { busy with jct := { slots := [{ ctx := 0, group := 0, row := 0, parts := [(1, [7])] }] } } beat0 = true := by decide

theorem wit_junction_rows_are_written : ∃ (j : JctSlot) (g : JctEnt), jctGroup busy 0 0 = some (0, g) ∧ g.gather = false ∧
    [j].find? (fun j => j.ctx == 0 && j.group == 0 && j.row == 0 && !j.written) = some j ∧
    (∀ n < 8, bit g.contrib n = true → (tget? j.parts n).isSome) ∧ (∃ n < 8, bit g.contrib n = true ∧ tget? ({} : JctSlot).parts n = none) ∧
    j.ctx = 0 ∧ j.group = 0 ∧ j.written = false :=
  ⟨{ parts := [(0, []), (1, [])] }, { contrib := 3, fmt := 8, slots := 2, order := [0, 1], rows := 4 }, by decide⟩

/-- A FILL descriptor of two tiles into window 0 of core 0's Deck. -/
def fill0 : Bytes :=
  leBytes 4 (2 ^ 28 + 2 ^ 24 + 2 ^ 20 + 2) ++ leBytes 4 0 ++ leBytes 4 0 ++ leBytes 4 (2 ^ 30 + 1) ++ zeros 16

/-- A stage's entry of it, and the device with that entry in queue 0 of core 0. -/
def entry0 : CvEntry := { off := 0, ctx := 0, slot := 0 }
def moving : State := { deckOf fill0 windowed with cores := [(0, { convoy := [(0, [entry0])], nextCv := 1 })] }

theorem wit_convoy_checks : physOf moving 0 = 0 ∧ cvHead (tget (coreOf moving 0).convoy [] 0) = some entry0 ∧ entry0.checked = false ∧
    bit moving.pwr.up 0 = true ∧ tget? moving.ctxs 0 = some ctx1 ∧ entry0.purpose ≠ .reshard ∧ cvBody moving 0 entry0 = some fill0 ∧
    cvBody moving 0 { entry0 with off := 64 * 256 } = none ∧ entry0.off % 32 = 0 ∧ (CvDesc.parse fill0).fence = false ∧
    cvCheck moving 0 0 ctx1 entry0 (CvDesc.parse fill0) = none ∧ cvHandles (CvDesc.parse fill0) = [] ∧
    cvReserved (CvDesc.parse (zeros 32)) = true ∧ cvReserved { CvDesc.parse fill0 with op := 2 } = false := by decide

theorem wit_convoy_tiles_are_issued : ∃ e : CvEntry, cvHead [e] = some e ∧ e.checked = true ∧ e.body = some fill0 ∧
    tagFree moving 0 0 = true ∧ mayIssue moving 0 0 ctx1 = true ∧ bit moving.pwr.up 0 = true ∧ 0 ∉ moving.fenced ∧ tileReads ctx1 (CvDesc.parse fill0) e.issued = [] ∧ (CvDesc.parse fill0).op = 1 ∧
    cvSource moving 0 ctx1 e { CvDesc.parse fill0 with op := 0, srcKind := 0, srcHandle := 7 } 0 = .error .objHandle ∧ objOf ctx1 7 = none :=
  ⟨{ entry0 with checked := true, body := some fill0 }, by decide +kernel⟩

theorem wit_convoy_tiles_land : ∃ e : CvEntry, (queueAll { convoy := [(0, [e])] } 0).find? (fun e => !e.tiles.isEmpty) = some e ∧ e.tiles = [(0, none, [7])] ∧
    e.body = some fill0 ∧ (CvDesc.parse fill0).dstKind = 1 ∧ (CvDesc.parse fill0).codes = false ∧ (CvDesc.parse fill0).pitch = 0 ∧
    (peerAt member 0).state = .up ∧ (peerAt member 0).unsettled.length < 256 ∧ crossingTo member 0 0 = none ∧
    crossingTo { member with set := { member.set with installed := [(0, { devB := 1 })] } } 0 0 = some 0 :=
  ⟨{ entry0 with checked := true, body := some fill0, tiles := [(0, none, [7])] }, by decide⟩

theorem wit_convoy_tiles_land_in_objects :
    objOf ({ ctx1 with objs := [(0, { homeTier := 3, fmt := 1 })] } : Ctx) 0 = some { homeTier := 3, fmt := 1 } ∧
    (∃ v y, objTileWrite stored { ctx1 with objs := [(0, { homeTier := 3, fmt := 1 })] } { homeTier := 3, fmt := 1 } 0 true [] [] = .ok (v, y)) :=
  ⟨by decide, _, _, by rfl⟩

theorem wit_convoy_completes :
    (queueAll { convoy := [(0, [{ entry0 with checked := true, body := some fill0, issued := 2, landed := 2 }])] } 0).find? cvDone =
      some { entry0 with checked := true, body := some fill0, issued := 2, landed := 2 } ∧
    cvDone { entry0 with checked := true, body := some fill0, issued := 2, landed := 2 } = true ∧
    cvDone { entry0 with checked := true, body := some fill0, issued := 2, landed := 1 } = false ∧ entry0.purpose = .stage := by decide

theorem wit_step : ({ busy with pending := [.secTamper, .gclkGap] } : State).pending = .secTamper :: [.gclkGap] ∧ busy.pending = [] ∧
    Memory.wf State.reset = true := by decide

theorem wit_block_coding : (zeros 0).length ≤ 256 ∧ (zeros 4096).length = 4096 := by
  exact ⟨by decide, List.length_replicate⟩

theorem wit_feature : ∃ s : State, slotOn s 0 = true ∧ 0 ∈ s.grd.heard ∧ s.grd.weights = some (zeros 1392) ∧ tget s.grd.readings 0 0 = 0 :=
  ⟨{ guarded with grd := { guarded.grd with heard := [0], weights := some (zeros 1392) } }, by decide, by decide, rfl, by decide⟩

/-! ## Ill-formed commands: one for each check -/

theorem test_ill_formed_fields :
    wellFormed (.helloOpen (rq 0) 0x1_0000 false) = false ∧ wellFormed (.helloProve (rq 0) (zeros 63) []) = false ∧
    wellFormed (.helloRefresh { rq 0 with port := 3 }) = false ∧ wellFormed (.helloEnd { rqM with port := 0 }) = false ∧
    wellFormed (.ctxDestroy { rq 0 with ctx := 512 }) = false ∧ wellFormed (.powerStateGet { rq 0 with seq := 2 ^ 32 }) = false ∧
    wellFormed (.ctxCreate (rq 0) { sealed := 256, cores := 1, spanBanks := 0, ddrSlots := 0, boundUs := 0, remoteMs := 0, quantumUs := 0 }) = false ∧ wellFormed (.ctxQuotaSet (rq 0) { t1 := [0] }) = false ∧
    wellFormed (.kvSeqFork (rq 0) 0 0 0 { layers := 256 }) = false ∧
    wellFormed (.streamOpenNew (rq 0) { index := 0, options := 0, channels := 65536, homeCore := 0, aObject := 0 }) = false := by decide

theorem test_ill_formed_records :
    wellFormed (.i3cXfer (rq 0) { ctrl := 256, kind := 0, addr := 0, ccc := 0, wdata := [], readLen := 0 } .nack) = false ∧
    wellFormed (.pcieEnable { up := true, gen := 4, width := 0, ready := true, granules := 0 }) = false ∧
    wellFormed (.datagramReceive { packet6 0 2 [] with port := 3 }) = false ∧ wellFormed (.ddrRequestPresent { ddrRead with lines := 0 }) = false ∧
    wellFormed (.windowWriteCheck { hdr0 with space := 9 }) = false ∧ wellFormed (.porstN { boot0 with cores := [] }) = false ∧
    wellFormed (.coreJunctionBeat 9) = false ∧ wellFormed (.laneHandover 32) = false ∧ wellFormed (.grdInActive 256) = false := by decide

theorem test_ill_formed_values : wellFormed (.regWrite (rqM) 0 (List.replicate 2048 0)) = false := by decide +kernel

theorem test_well_formed :
    wellFormed (.helloOpen (rq 0) 1024 true) = true ∧ wellFormed (.windowWriteCheck hdr0) = true ∧ wellFormed (.porstN boot0) = true ∧
    wellFormed (.datagramReceive (packet6 6 2 [])) = true ∧ wellFormed (.ddrRequestPresent ddrRead) = true := by decide

/-! ## The spec's worked examples and tables -/

/-- R62, R66 (02): the example's operands, with its scales, zero points and column sum in a side table at 0x100. -/
def reader62 : Reader := fun o n =>
  if o < 0x10 then slice [12, 0xFB, 100, 0x80] o n
  else if o < 0x100 then slice [7, 0xFD, 0, 25] (o - 0x20) n
  else match o with
    | 0x100 => leBytes n 0x3D4C_CCCD
    | 0x200 => leBytes n 3
    | 0x300 => leBytes n 0x3C23_D70A
    | 0x400 => leBytes n 0xFFFF_FFFE
    | 0x500 => leBytes n 29
    | _ => zeros n
def desc62 : EngDesc :=
  { engDesc [] [] with
    mode := 1, mask := 1, inH := 1, inW := 1, inC := 4, groups := 1, kh := 1, kw := 1, sh := 1, sw := 1, dh := 1, dw := 1, mCount := 1,
    fmtA := 1, fmtB := 1, fmtOut := 4, zpA := true, zpB := true, bBase := 0x20, nCount := 1, sideBase := 0x100, outBase := 0x1000,
    recip := 0x42A0_0000 }

/-- The example of R62: the plain product −3,101 and the row sum −21. -/
theorem test_product_of_the_zero_point_example :
    engBeats reader62 desc62 = [(0, [{ m := 0, j := 0, acc := [-3101], outl := [], ra := [-21], kp := 4 }])] := by decide +kernel

/-- Its results: BF16 0xBFD0, and INT8 0x80 with an output scale of 0.0125. -/
theorem test_outputs_of_the_zero_point_example :
    beatWrite reader62 desc62 { acc := [-3101], outl := [0], ra := [-21], kp := 4 } = (0x1000, [0xD0, 0xBF]) ∧
    beatWrite reader62 { desc62 with fmtOut := 1 } { acc := [-3101], outl := [0], ra := [-21], kp := 4 } = (0x1000, [0x80]) := by
  decide +kernel

/-- The conversion examples after R73 (02). -/
theorem test_conversion_examples :
    e4m3.encode (.ofInt 300) = 0x79 ∧ e4m3.encode (.ofInt 304) = 0x7A ∧ e4m3.encode (.ofInt 470) = 0x7E ∧
    e4m3.encode (.num 1 1024) = 0x00 ∧ e4m3.encode (.num (-1) 1024) = 0x80 ∧ e5m2.encode (.ofInt 60000) = 0x7B ∧
    fp16.encode (.ofInt 70000) = 0x7C00 ∧ ofSigned 8 (toIntFmt 8 (.ofInt 1) 0 (.num 255 2)) = 0x7F ∧
    ofSigned 8 (toIntFmt 8 (.ofInt 1) 0 (.num (-5) 2)) = 0xFE := by decide +kernel

/-- The example of R219 (05): the codes of 3, −1, 0, 9 and −40 with k = 2. -/
theorem test_ibc_w_example :
    Ibc.bytesOfBits ([3, 0xFF, 0, 9, 0xD8].flatMap (fun q => Ibc.codeW 8 2 (Ibc.zigzag 8 q))) = [0x29, 0x3C, 0xFF, 0xFF, 0x4F] := by
  decide +kernel

/-- The spotter example (12): S of the ten frames, and the verdict at frame 7, for a record of TRIGGER 80, HOLD 30 and MIN_FRAMES 2. -/
theorem test_spotter_example :
    (([20, 60, 100, 110, 115, 112, 120, 10, -40, -60] : List Int).foldl (fun (a : Phrase × List (Int × Bool)) x =>
      let r := phraseFrame a.1 [x]
      (r.1, a.2 ++ [(r.1.score, r.2)])) ({ record := [0, 0, 0, 0, 0, 0, 80, 30, 2, 0, 100, 0] }, [])).2 =
    [(5, false), (18, false), (38, false), (56, false), (70, false), (80, false), (90, true), (70, false), (42, false), (16, false)] := by
  decide +kernel

/-- The block sizes and strides of the example after R750 (21). -/
theorem test_audio_block_example :
    blockBytes 0 8 10 = 2592 ∧ blockStride 0 8 10 = 2816 ∧ blockBytes 0 8 40 = 10272 ∧ blockStride 0 8 40 = 10496 := by decide

/-- The packet of the example of WIN_CLOSE (14), its bytes as the table gives them. -/
def closePacket : Bytes :=
  [0x01, 0x00, 0x61, 0x01, 0x2B, 0x1A, 0x00, 0x00, 0x11, 0x00, 0x04, 0x00, 0x00, 0x00, 0x00, 0x00, 0x40, 0x00, 0x00, 0x00, 0x03, 0x00, 0x00,
    0x00, 0x08, 0x04, 0x00, 0x00]

theorem test_close_packet_header :
    (readHeader closePacket).version = 1 ∧ (readHeader closePacket).cls = 0 ∧ (readHeader closePacket).op = 0x0161 ∧
    (readHeader closePacket).seq = 0x1A2B ∧ (readHeader closePacket).ctx = 17 ∧ (readHeader closePacket).len = 4 ∧
    (readHeader closePacket).link = 0x40 ∧ (readHeader closePacket).sess = 3 ∧ (readHeader closePacket).bad = false := by decide

theorem test_close_packet_command :
    readCommand on { req := rq 17, op := 0x0161, payload := closePacket.drop 24 } = some (.winClose (.host (rq 17)) 8 4 0) := by decide

/-- Its reply: ARRIVALS 38 and DISCARDS 2. -/
theorem test_close_reply : leBytes 4 38 ++ leBytes 4 2 = ([0x26, 0, 0, 0, 2, 0, 0, 0] : Bytes) := by decide

/-- The window of the example of R171 (04) with ARRIVALS 37 and THRESHOLD 40: a close of it while OPEN, then its completion. -/
def exampleWindow : Win := { state := .closing, ctx := 17, epoch := 5, limit := 64, threshold := 40, arrivals := 38, discards := 2 }

theorem test_close_completes :
    (match exec (.winCloseComplete 8 4) { on with wins := [(2308, exampleWindow)] } with
     | .next t => (winAt t 2308).state == .closed && (winAt t 2308).arrivals == 38
     | _ => false) = true := by decide +kernel

/-- The step takes the command at the front of the queue and leaves the rest. -/
theorem test_step_takes_the_front :
    (match step { guarded with pending := [.heartbeatToggle, .gclkGap] } with
     | .next t => t.grd.hb && t.pending == [.gclkGap]
     | _ => false) = true := by decide

/-! ## Further clauses of the statements -/

/-- A stream of RAW10 of sixteen pixels and lines on receiver 0, and an ISP context of it, both not yet enabled. -/
def sensing : State :=
  let s := setReg (setReg { voting (withCtx { ctx0 with images := [(0, img0)] }) with cam := { owners := [(0, 0)] } } (strPage 0 + 8) (0x2B * 2 ^ 14 + 2 ^ 12)) (strPage 0 + 0xC) 0x0010_0010
  let s := setReg (setReg s (ispPage 0 + 0xC) 0x0010_0000) (ispPage 0 + 0x10) 1
  setPage (setReg s (ispPage 0 + 0x18) 0x0100_0000) (rxPage 0) true

theorem wit_enable_stream : pageOn sensing (strPage 0) = false ∧ firstFail (enableChecks sensing (strPage 0)) = none ∧
    firstFail (enableChecks on (strPage 0)) = some .camStreamParam := by decide

theorem wit_enable_isp : pageOn (setPage sensing (strPage 0) true) (ispPage 0) = false ∧
    firstFail (enableChecks (setPage sensing (strPage 0) true) (ispPage 0)) = none ∧ tget? sensing.cam.owners 0 = some 0 ∧
    descending (setPage sensing (strPage 0) true) = false ∧ firstFail (enableChecks sensing (ispPage 0)) = some .ispSource := by decide

/-- A Guardrail with a weight record and one direct input for stop 0. -/
def weighed : State := setReg { on with grd := { on.grd with weights := some [] } } 0x0022_0040 1

theorem wit_enable_guardrail : pageOn weighed grdPage = false ∧ firstFail (enableChecks weighed grdPage) = none := by decide +kernel

theorem wit_load_weights : weightsOk ([0x47, 0x52, 0x44, 0x31, 1] ++ zeros 1387) = true := by decide +kernel

theorem wit_enter_clauses : refuser (voting on) 3 = some (3, 1) ∧ refuser on 3 = none ∧ refuser on 4 = none ∧
    (∃ s : State, s.pwr.entry = some { target := 3, req := none } ∧ descending s = false ∧ 1 % 2 ^ 11 ≠ 0 ∧ Live (rq 0) s) :=
  ⟨by decide, by decide, by decide, { on with pwr := { up := 0, entry := some { target := 3, req := none } } }, by unfold Live; decide⟩

theorem wit_islands : ∃ s : State, bit s.pwr.up 0 = false ∧ s.waitHdrs.any (fun h => h.1.space == 0) = true :=
  ⟨{ on with pwr := { up := 0 }, waitHdrs := [(hdr0, .block)] }, by decide⟩

/-- Parameters of a Sealed context that asks for every Span bank that may be granted. -/
def sealedParams : CtxParams := { sealed := 1, cores := 4, spanBanks := 14, ddrSlots := 1, boundUs := 0, remoteMs := 0, quantumUs := 0 }

theorem wit_create_partition : createPartitionOk (withCtx { ctx0 with banks := [0] }) sealedParams = false ∧ createParamsOk sealedParams = true ∧
    createCoresOk (withCtx { ctx0 with banks := [0] }) sealedParams = true ∧ createPartitionOk (withCtx ctx0) sealedParams = true := by decide

theorem wit_destroy_clauses : chunkOf (withCtx ctx0) 0 = false ∧
    ({ withCtx ctx0 with rel := { (withCtx ctx0).rel with fencing := [(1, 0, none)] } } : State).rel.fencing ≠ [] ∧
    (∃ x : Ctx, x.retiring = true ∧ x.fills ≠ []) ∧ (∃ x : Ctx, x.retiring = true ∧ x.fills = []) ∧ liveCtx on 0 = none :=
  ⟨by decide, by decide, ⟨{ retiring := true, fills := [(0, {})] }, by decide⟩, ⟨{ retiring := true }, by decide⟩, by decide⟩

theorem wit_park_clauses : Live (rq 0) (withCtx ctx0) ∧ liveCtx (withCtx ctx0) 0 = some ctx0 ∧ ctx0.parking = none ∧ ctx0.unloading = [] ∧
    allQuiet (withCtx ctx0) 0 ctx0 = true ∧
    allQuiet (deckOf [] { windowed with ctxs := [(0, { ctx1 with job := none })] }) 0 { ctx1 with job := none } = false := by
  unfold Live; decide

theorem wit_bring_in_fails : ∃ (x : Ctx) (s : State), tget? s.ctxs 0 = some x ∧ x.st = .parked ∧ entriesWith s 0 ≤ 64 ∧ placeAll s 0 = none ∧
    x.runQ = [job0.run] ∧ job0.run.milestone = none ∧ Live job0.run.req s :=
  ⟨{ ctx1 with st := .parked, job := none, runQ := [job0.run], images := [(0, { img0 with rows := [(0, 24577)] })] },
   withCtx { ctx1 with st := .parked, job := none, runQ := [job0.run], images := [(0, { img0 with rows := [(0, 24577)] })] },
   by unfold Live; decide⟩

theorem wit_run_starts : ∃ (x : Ctx) (s : State), Live (rq 0) s ∧ liveCtx s 0 = some x ∧ tget? x.images 0 = some img0 ∧ x.runQ = [] ∧
    descending s = false ∧ x.job = none ∧ x.st = .resident ∧ x.parking = none ∧ (∀ n ∈ imageCores img0, n ∉ s.fenced) :=
  ⟨{ ctx1 with job := none }, voting (withCtx { ctx1 with job := none }), by unfold Live; decide⟩

theorem wit_cancel_clauses : Live (rq 0) busy ∧ liveCtx busy 0 = some ctx1 ∧ ctx1.job = some job0 ∧ job0.onCores = true ∧ job0.order = none ∧
    ctx1.st = .resident ∧ ctx0.job = none ∧ ({ ctx1 with sealed := true } : Ctx).sealed = true := by
  unfold Live; decide

/-- Two contexts that take turns on cores 0 and 1; the first runs. -/
def turns : State :=
  { busy with ctxs := [(0, ctx1), (1, { ctx1 with job := some { job0 with onCores := false } })], sched := { entries := [[0], [1]], turn := some 0 } }

theorem wit_quantum_turns : turns.sched.turn = some 0 ∧ otherRunnable turns = true ∧ nextEntry turns 0 = some 1 ∧ (turns.ctxs.map Prod.fst).Nodup ∧
    0 ∉ turns.sched.entries.getD 1 [] ∧ tget? turns.ctxs 0 = some ctx1 ∧ allAtPoint turns job0 = false := by decide

theorem wit_stop_clauses : ∃ s : State, stageCtx s 0 0 = some 0 ∧ tget? s.ctxs 0 = some { ctx1 with job := some { job0 with order := some .yield } } ∧
    engineBusy s 0 0 = false ∧ job0.onCores = true :=
  ⟨withCtx { ctx1 with job := some { job0 with order := some .yield } }, by decide⟩

theorem wit_remote_wait_local : ∃ s : State, tget? s.ctxs 0 = some { ctx1 with job := some waitJob } ∧ (s.ctxs.map Prod.fst).Nodup ∧
    ctx1.st = .resident ∧ keyOf s 0 0 0 0 = some 0 ∧ (winAt s 0).writers < 2 ^ 24 :=
  ⟨{ withCtx { ctx1 with job := some waitJob } with wins := [(0, { writers := 2 ^ 24 - 1 })] }, by decide⟩

theorem wit_phase_ends : ((tget? (jctFlush (issueAllPrefetch 0 0 img0.prefetch.length busy) 0).ctxs 0).bind Ctx.job).any (fun k => k.ended.isSome) = false ∧
    jctIncomplete (jctFlush (issueAllPrefetch 0 0 img0.prefetch.length busy) 0) 0 = false ∧ stagesCanEnd busy job0 = true ∧
    tget? ctx1.images 0 = some img0 := by decide +kernel

/-- The plan's last step, its moves done. -/
def moved : Trans := { src := 0, dst := 1, begun := true }

theorem wit_reshard_ends : moved.begun = true ∧ moved.left = 0 ∧ moved.failed = false ∧ job0.order = none ∧
    (∀ e ∈ planOf img0 moved, e.kind ≠ 2 ∧ (e.kind = 1 → e.step ≤ moved.step)) ∧
    tget? (withCtx { ctx1 with job := some { job0 with trans := some moved } }).ctxs 0 = some { ctx1 with job := some { job0 with trans := some moved } } := by
  decide

/-- A descriptor of object 0 whose first tile holds a tag. -/
def tagged : CvEntry := { checked := true, body := some (zeros 32), issued := 1 }

theorem wit_objects_held : tagsHeld { stored with cores := [(0, { convoy := [(0, [tagged])] })] } 0 0 = true ∧ tierFault stored 3 = none ∧ tierFault on 3 ≠ none := by decide

theorem wit_place_clauses : ispNames stored 0 0 = false ∧ tagsHeld stored 0 0 = false ∧ obj0.upper = none ∧ (1 : Nat) ≤ 3 ∧ 2 < obj0.homeTier ∧
    ({ obj0 with upper := some { tier := 1 } } : Obj).upper = some { tier := 1 } := by decide

theorem wit_write_in_the_span : ∃ o : Obj, o.homeTier = 2 ∧ objWriteFault stored 0 1 0 64 { ctx2 with objs := [(1, o)] } o = none :=
  ⟨{ homeTier := 2 }, by decide⟩

theorem wit_read_clauses : ((tget? stored.net.sessions (rq 0).sess).map Session.maxPayload).getD 8192 < 1025 ∧
    1024 ≤ ((tget? stored.net.sessions (rq 0).sess).map Session.maxPayload).getD 8192 ∧ rangeOk obj0 0 1024 = true := by decide

theorem wit_image_load : Live (rq 0) stored ∧ liveCtx stored 0 = some ctx2 ∧ tget? ctx2.objs 0 = some obj0 ∧ tfree ctx2.images 4 = some 0 ∧
    ({ ctx1 with job := none } : Ctx).unloading = [] ∧ replyTooLong stored (rq 0).sess 0xFFFF 0 = false ∧
    replyTooLong stored (rq 0).sess 0xFFFF 477 = true := by
  unfold Live; decide

theorem wit_fork_of_parent : ∃ x : Ctx, tget? x.seqs 1 = none ∧ tget? x.seqs 0 = some { geom := geom0, ptes := [(0, { page := some 0, fill := 64 })] } ∧
    (∀ e ∈ addRefs x.refs (forkPtes geom0 64 [(0, { page := some 0, fill := 64 })]), e.2 ≤ 65535) ∧ 64 ≤ geom0.maxTokens ∧ 1023 < 1024 :=
  ⟨{ ctx2 with seqs := [(0, { geom := geom0, ptes := [(0, { page := some 0, fill := 64 })] })] }, by decide⟩

theorem wit_stream_open :
    (allocObj stored 0 (stateObj { index := 3, options := 0, channels := 64, homeCore := 1, aObject := 0 }) 0).2.toOption = some 1 := by decide +kernel

theorem wit_window_answers : ({ flight0 with src := .host (rq 0) } : Flight).src = .host (rq 0) ∧ Live (rq 0) windowed := by
  unfold Live; decide

theorem wit_modes : ({ busy with pwr := { mode := .off } } : State).pwr.mode = .off ∧ busy.pwr.mode ≠ .off := by decide

/-- The smallest phrase record: one layer of 40 inputs and one output. -/
def phrase0 : Bytes :=
  [0x49, 0x56, 0x57, 0x50, 1, 1, 0, 0, 1, 0, 0, 0] ++ leBytes 4 44 ++ leBytes 4 40 ++ zeros 12 ++
    [0, 1, 1, 0] ++ leBytes 2 40 ++ leBytes 2 1 ++ leBytes 2 0 ++ leBytes 2 0 ++ leBytes 2 0 ++ leBytes 2 10 ++ zeros 44

theorem wit_phrase_accepted : (layersOf phrase0).length = 1 ∧ macField phrase0 + otherMacs sounding 0 ≤ 786432 := by decide +kernel

theorem wit_held_reply : ∃ s : State, heldReply s 1 5 ≠ none :=
  ⟨{ listening with net := { listening.net with outbound := [{ pkt := { sess := 1, cls := .rsp, seq := 5 } }] } }, by decide⟩

theorem wit_dispatch_reserved : (0x01D0 = 0x01D0 ∨ 0x01D0 = 0x01D1) ∧ field [1, 0, 1, 0] 1 3 ≠ 0 ∧ modeOk 0x01D0 [1, 0, 1, 0] = true ∧
    (reservedFields 0x01D0 [1, 0, 1, 0]).any (fun r => field [1, 0, 1, 0] r.1 r.2 != 0) = false := by decide

theorem wit_ddr_completes : ∃ (c : DdrChan) (e : DdrPend), c.reqs.find? (fun e => e.req.id == 1 && servable training c e) = some e :=
  ⟨{ reqs := [{ num := 0, req := ddrRead, queued := some 0 }] }, { num := 0, req := ddrRead, queued := some 0 }, by decide⟩

theorem wit_trunk_has_it : ∃ (c : Crossing) (s : State), setRole s = 1 ∧ bit (live s (0x0023_0500 + 8 * 63)) 31 = true ∧ c = crossingAt (live s) 63 ∧
    tget? s.set.installed 63 = some c ∧ c.devA = ownIndex s ∧ (peerAt s c.devB).state = .up ∧ bit (0#32).toNat 31 = false :=
  ⟨{ devB := 1 }, { setReg (setReg (setPage (setReg busy 0x0023_0410 0x4000_0003) 0x0023_0400 true) (0x0023_0500 + 8 * 63) 0x8000_0000)
      (0x0023_0504 + 8 * 63) 0x0100_0000 with set := { peers := [(1, { state := .up })], installed := [(63, { devB := 1 })] } }, by decide⟩


/-! ## Firmware work, check bits, counter trees and the switch -/

/-- The device of `stored` after the object's copy has been placed in core 0's Deck; with the core down the placing waits. -/
def placed : State := { stored with ctxs := [(0, { ctx2 with objs := [(0, { obj0 with upper := some { tier := 1 } })] })] }

theorem wit_firmware_work : Ready stored stored 0 ∧ Ready stored placed 0 ∧ workCores stored placed 0 = [0] ∧
    workReady { stored with pwr := { stored.pwr with up := 0 } } placed 0 = false ∧
    ({ cores := [0], banks := [], cmd := .gclkGap } : FwWait).ready stored = true ∧
    ({ cores := [0], banks := [15], cmd := .gclkGap } : FwWait).ready stored = false := by
  unfold Ready; decide

theorem wit_firmware_outcomes : (saveUpper stored 0 0 ctx2 obj0).2 = none ∧
    (placeObj stored 0 0 1 0 obj0).2.toOption = none ∧ (placeObj stored 0 0 1 2 obj0).2.toOption = none ∧
    (releaseUpper stored 0 0 obj0).2 = none ∧ chunkHeld stored 0 ctx2 0 = false := by decide +kernel

theorem wit_object_copy_is_lost : ∃ (s : State) (x : Ctx) (o : Obj) (v : State) (r : Reason), o = { obj0 with upper := some { tier := 1 }, dirty := true } ∧
    saveUpper s 0 0 x o = (v, some r) :=
  ⟨{ stored with ddr := {} }, ctx2, _, _, _, rfl, by rfl⟩

theorem wit_stages_open_windows : stageRunning busy 0 0 = some (0, job0) ∧ winOpenCheck busy 0 0 0 0 0 16 0x101 = none ∧
    (winOpenCheck busy 0 0 0 0 0 65 0x101).isSome = true ∧ keyOf busy 0 job0.run.slot 0 0 = some 0 ∧
    ({ openWin with closers := [(.stage 0, 0)] } : Win).closers = [(.stage 0, 0)] := by decide

theorem wit_earlier_headers : behindEarlier windowed hdr0 = false ∧ behindEarlier { windowed with waitHdrs := [(hdr0, .block)] } hdr0 = true ∧
    inFlight windowed (gateOf (0 / 256) openWin.base) < 4 ∧ countsArrival flight0 = true ∧
    countsArrival { flight0 with src := .isp 0 0 3 4 } = false := by decide

/-- The running device with an uncorrectable word, and one that ECC corrects, in the Deck of core 0. -/
def struck : State := { deckOf (cag0 ++ pd0) busy with decks := [(0, { Ram.write {} 0 (cag0 ++ pd0) with bad := [0], soft := [1] })] }

theorem wit_uncorrectable_words : (ramOf struck 0).hits (ramOf struck 0).bad [(0, 64)] = [0] ∧
    (ramOf struck 0).hits (ramOf struck 0).soft [(0, 64)] = [1] ∧ (ramOf struck 0).hits (ramOf struck 0).bad [(64, 64)] = [] ∧
    (eccScan struck 0 (descRuns struck 0 eng0 job0)).2 = some .relDeckUe ∧
    (eccScan struck 0 [(0, 64)]).2 = some .relDeckUe ∧ (eccScan struck 0 (bodyRuns struck 0 entry0)).2 = some .relDeckUe ∧
    (match ramRead struck 0 0 4096 with
     | .error r => r == .relDeckUe
     | .ok _ => false) = true := by decide +kernel

theorem wit_clean_words : (ramOf engaged 0).bad = [] ∧ (ramOf engaged 0).soft = [] ∧ (ramOf moving 0).bad = [] ∧ (ramOf moving 0).soft = [] ∧
    tagFree busy 0 0 = true ∧ (shareOf busy 0 0 0).2 * 256 = 0 + 256 * 64 ∧
    (srcRuns moving 0 ctx1 entry0 (CvDesc.parse fill0) 0).1 = 9 := by decide +kernel

theorem wit_ramp_beats : rampGroup {} = none ∧
    rampGroup { groups := [(0, { run := some { run0 with beats := [(4, [{ acc := [1] }, { acc := [2] }])] } })] } = some 0 ∧
    (∀ i < 4, inputGroup { groups := [(0, { run := some { run0 with beats := [(4, [{ acc := [1] }, { acc := [2] }])] } })] } i = none) ∧
    ({ acc := [5] } : EngBeat).acc.length ≤ ({ acc := [5] } : EngBeat).width := by decide

/-- Line 7 of granule 0 of the first region, written twice under key set 1. -/
def secret : Ext := tagLine (tagLine {} 1 true 7) 1 true 7

theorem wit_counter_trees : treeOk {} 5 = true ∧ tget secret.lines {} 7 = { key := 1, minor := 2 } ∧ tierFault stored 3 = none ∧ 7 ∉ secret.bad ∧
    (1 : Nat) ∈ stored.sec.keys ∧ treeOk { secret with roots := [(0, 1)] } 0 = false ∧
    (255 : Nat) ≤ (tget ({ lines := [(7, { key := 1, minor := 255 })] } : Ext).lines {} 7).minor := by decide

/-- The example after R657 (18): the path of granule 2,049 of region 19. -/
theorem test_counter_path_example :
    (List.range 5).map (pathAt (19 * 16384 + 2049)) =
      [(nodeKey 19 0 256, 1), (nodeKey 19 1 32, 0), (nodeKey 19 2 4, 0), (nodeKey 19 3 0, 4), (nodeKey 19 4 0, 0)] := by decide

/-- A write that takes MINOR past 255 increments the major counter, and the path up to the root verifies. -/
theorem test_major_increments :
    (let e := tagLine { lines := [(7, { key := 1, minor := 255 })] } 1 true 7
     majorOf e 0 == 1 && treeOk e 0 && treeOk e 9 && tget e.roots 0 0 == 1 && tget e.lines {} 7 == { key := 1, major := 1, minor := 0 }) = true := by
  decide

/-- A frame between two stations of the host ports. -/
def bridged : Datagram := { packet6 6 2 [] with dmac := .station 5, smac := 6, kind := .other }

/-- The device with the links of ports 0 and 1 up. -/
def switching : State := { listening with net := { listening.net with ports := [(0, { link := true }), (1, { link := true })] } }

theorem wit_switch : switchOn switching = true ∧ frameTaken switching bridged = true ∧ forDevice switching bridged = false ∧
    forDevice switching (packet6 6 2 []) = true ∧ switchOn State.reset = false ∧
    frameTaken { switching with net := { switching.net with vlans := [(0, 3)] } } { bridged with port := 2 } = false ∧
    ownAddr switching .host 0xFFFF_0A00_0001 = some 0xFFFF_0A00_0001 ∧ ownTag switching .host = none := by decide

/-- The frame leaves on the other host port that is up alone. -/
theorem test_bridge : ((bridge switching bridged).net.frames.map Prod.fst) = [1] ∧
    tget? (bridge switching bridged).net.stations 6 = some 0 := by decide

theorem wit_interrupt_queue : (tget busy.cam.ibis [] 0).length < 16 ∧ 16 ≤ (tget ([(0, List.replicate 16 (1, []))] : Tab (List (Nat × Bytes))) [] 0).length := by
  decide

theorem wit_dispatch_room : storeFull on = false ∧ (∃ s : State, storeFull s = true) :=
  ⟨by decide, { on with net := { on.net with outbound := List.replicate 4096 { pkt := {} } } }, by decide +kernel⟩

theorem wit_link_rates : 2 ∈ (portPhy 0).rates ∧ 1 ∉ (portPhy 0).rates := by decide

theorem wit_bring_in_done : ∃ (x : Ctx) (s u v : State), tget? s.ctxs 0 = some x ∧ x.st = .parked ∧ placeAll s 0 = some u ∧ bringIn u 0 x = .ok v :=
  ⟨{ ctx0 with st := .parked, runQ := [{ req := rq 0, slot := 0, param := 0 }] }, withCtx { ctx0 with st := .parked, runQ := [{ req := rq 0, slot := 0, param := 0 }] },
   _, _, by decide, by decide, by rfl, by rfl⟩

/-- Of a finite pattern, whether it is the fraction n / d. -/
def isFrac (x : Nat) (n d : Int) : Bool := match f32 x with
  | .num m e => decide (m * d = n * e)
  | _ => false

theorem wit_vector_functions : f32 0x7FC0_0000 = .nan ∧ f32 0xFF80_0000 = .inf true ∧ isFrac 0x3F80_0000 1 1 = true ∧ isFrac 0 0 1 = true ∧
    VecFn.limit .log (.inf true) = none ∧ VecFn.exact .log (-1) 1 .zero = none ∧ (VecFn.exact .reciprocal 1 1 .zero).isSome ∧
    VecFn.exact .sin 65537 1 .zero = none ∧ isFrac 0x4780_0080 65537 1 = true := by decide +kernel

/-- The owner of an ISP context and of the audio block, a live context (R416, R448). -/
theorem wit_owned_writes : Live (rq 0) { busy with cam := { busy.cam with owners := [(0, 0)] }, aud := { busy.aud with owner := some 0 } } ∧
    tget? ({ busy with cam := { busy.cam with owners := [(0, 0)] } }).cam.owners ((0x0020_8010 - 0x0020_8000) / 0x800) = some (rq 0).ctx ∧
    (liveCtx { busy with cam := { busy.cam with owners := [(0, 0)] }, aud := { busy.aud with owner := some 0 } } (rq 0).ctx).isSome := by
  unfold Live; decide
end Sys2Proof.Tests
end

/-!
PROOFS. The elements of memory (R32) and the chip Junction (R252 to R262).
-/

namespace Sys2Proof.Machine

/-! ## INT4 elements (R32) -/

/-- An even element is the low half of its byte. -/
theorem elemAt_int4_even (rd : Reader) (base n : Nat) (b : Byte) (h : rd (base + n) 1 = [b]) :
    elemAt rd 0 base (2 * n) = b.toNat % 16 := by
  simp [elemAt, leNat, h]

/-- An odd element is the high half of its byte. -/
theorem elemAt_int4_odd (rd : Reader) (base n : Nat) (b : Byte) (h : rd (base + n) 1 = [b]) :
    elemAt rd 0 base (2 * n + 1) = b.toNat / 16 := by
  have hdiv : (2 * n + 1) / 2 = n := by omega
  simp [elemAt, leNat, h, hdiv]

theorem bit_mod_sixteen (m i : Nat) (h : i < 4) : bit (m % 16) i = m.testBit i := by
  have := Nat.testBit_mod_two_pow m 4 i
  simpa [bit, h] using this

theorem bit_div_sixteen (m i : Nat) : bit (m / 16) i = m.testBit (i + 4) := by
  have := Nat.testBit_div_two_pow (n := 4) m i
  simpa [bit] using this

/-- Settles O57: the even element is the byte modulo 16 and the odd one its quotient by 16. -/
theorem int4Elements : Obligations.Int4Elements := by
  intro rd base n b h
  have hb : b.toNat < 256 := b.isLt
  rw [elemAt_int4_even rd base n b h, elemAt_int4_odd rd base n b h]
  refine ⟨by omega, by omega, fun i hi => ⟨?_, ?_⟩⟩
  · rw [bit_mod_sixteen _ i hi, BitVec.testBit_toNat]
  · rw [bit_div_sixteen, BitVec.testBit_toNat]

/-! ## Reads of a Deck share by a stage (R678, R679) -/

/-- A memory with no word in error reads clean: nothing is counted and nothing fails. -/
theorem eccScan_clean (s : State) (home : Nat) (runs : List (Nat × Nat))
    (hbad : (ramOf s home).bad = []) (hsoft : (ramOf s home).soft = []) : eccScan s home runs = (s, none) := by
  simp [eccScan, Ram.hits, hbad, hsoft]

@[simp] theorem Ram.hits_nil (r : Ram) (words : List Nat) : r.hits words [] = [] := by simp [Ram.hits]

@[simp] theorem eccScan_nil (s : State) (home : Nat) : eccScan s home [] = (s, none) := by simp [eccScan]

theorem withWords_error (s t : State) (c slot core off n : Nat) (k : State → State) (r : Reason)
    (hin : off + n ≤ (shareOf s c slot core).2 * 256)
    (hscan : eccScan s (physOf s core) [((shareOf s c slot core).1 * 256 + off, n)] = (t, some r)) :
    withWords s c slot core off n k = failJob t c r := by
  simp [withWords, hin, hscan]

theorem withWords_clean (s : State) (c slot core off n : Nat) (k : State → State)
    (hbad : (ramOf s (physOf s core)).bad = []) (hsoft : (ramOf s (physOf s core)).soft = []) :
    withWords s c slot core off n k = k s := by
  simp [withWords, eccScan_clean s _ _ hbad hsoft]

/-- Beyond the share nothing is read, so no error is found. -/
theorem withWords_beyond (s : State) (c slot core off n : Nat) (k : State → State)
    (hout : (shareOf s c slot core).2 * 256 < off + n) : withWords s c slot core off n k = k s := by
  simp [withWords, Nat.not_le.mpr hout]

theorem deckRead_beyond (s : State) (c slot core off n : Nat)
    (hout : (shareOf s c slot core).2 * 256 < off + n) : deckRead s c slot core off n = none := by
  simp [deckRead, Nat.not_le.mpr hout]

/-- The job of a running stage is its context's job. -/
theorem stageRunning_job {s : State} {core slot c : Nat} {j : Job} (h : stageRunning s core slot = some (c, j)) :
    (tget? s.ctxs c).bind Ctx.job = some j := by
  unfold stageRunning at h
  split at h
  · cases h
  · split at h
    · cases h
    · next hjob =>
      split at h
      · cases h
        exact hjob
      · cases h

theorem tget?_modJob_ne (s : State) (c m : Nat) (f : Job → Job) (h : m ≠ c) :
    tget? (modJob s c f).ctxs m = tget? s.ctxs m := tget?_tmod_ne _ _ _ _ h

theorem job_modJob (s : State) (c : Nat) (f : Job → Job) :
    (tget? (modJob s c f).ctxs c).bind Ctx.job = ((tget? s.ctxs c).bind Ctx.job).map f := by
  rw [modJob, tget?_modCtx]
  cases tget? s.ctxs c <;> rfl

/-! ## A stage sends a beat (R252, R253, R255, R261) -/

/-- A row that a core may send to a group now: the group names the core, the row is within COUNT, and it has not been
sent yet (R252, R261). -/
def JctSendable (im : Image) (j : Job) (core group row : Nat) : Prop :=
  ∃ g, groupOf im j.phase group = some g ∧ bit g.contrib core = true ∧ row < g.rows ∧ (group, core, row) ∉ j.jctSent

/-- A beat joins its core's input and is marked as sent. -/
def jctSend (s : State) (c core group row : Nat) (b : Bytes) : State :=
  let s1 := modJob s c (fun k => { k with jctSent := (group, core, row) :: k.jctSent })
  { s1 with jct := { s1.jct with
      skids := tset s1.jct.skids core (tget s1.jct.skids [] core ++
        [{ ctx := c, group := group, core := core, row := row, data := b }]) } }

theorem jctSend_job {s : State} {c : Nat} {j : Job} (h : (tget? s.ctxs c).bind Ctx.job = some j)
    (core group row : Nat) (b : Bytes) :
    (tget? (jctSend s c core group row b).ctxs c).bind Ctx.job =
      some { j with jctSent := (group, core, row) :: j.jctSent } :=
  (job_modJob s c _).trans (by rw [h]; rfl)

/-- What a sendable row does once its tag is free: the Deck row is read and joins the input. -/
def jctRead (c imSlot core group row off : Nat) (s : State) : State :=
  match deckRead s c imSlot core off 256 with
  | none => failJob s c .cvBounds
  | some b => jctSend s c core group row b

section
variable {core slot group row off c : Nat} {j : Job} {im : Image} {s : State}
  (hrun : stageRunning s core slot = some (c, j)) (him : imageOf s c j.run.slot = some im)
include hrun him

theorem execJctBeatSend_refused (hbad : ¬ JctSendable im j core group row) :
    execJctBeatSend core slot group row off s = .next (failJob s c .pipeJctOrder) := by
  simp only [execJctBeatSend, hrun, him, Option.bind_some]
  cases hg : groupOf im j.phase group with
  | none => simp
  | some g =>
    have hnot : (bit g.contrib core && decide (row < g.rows) && !(j.jctSent.contains (group, core, row))) = false := by
      by_contra h
      simp only [Bool.not_eq_false, Bool.and_eq_true, decide_eq_true_eq, Bool.not_eq_true', List.contains_eq_mem,
        decide_eq_false_iff_not] at h
      obtain ⟨⟨hbit, hrow⟩, hnew⟩ := h
      exact hbad ⟨g, hg, hbit, hrow, hnew⟩
    simp only [hnot, Bool.not_false, if_true]

theorem execJctBeatSend_sendable (hgood : JctSendable im j core group row) :
    execJctBeatSend core slot group row off s = .next (if off % 256 ≠ 0 ∨ !tagFree s core slot then s
      else withWords s c j.run.slot core off 256 (jctRead c j.run.slot core group row off)) := by
  obtain ⟨g, hg, hbit, hrow, hnew⟩ := hgood
  simp only [execJctBeatSend, hrun, him, Option.bind_some, hg, hbit, hrow, hnew, List.contains_eq_mem, decide_true,
    decide_false, Bool.not_false, Bool.and_self, Bool.not_true, Bool.false_eq_true, if_false]
  rfl

theorem execJctBeatSend_waits (hgood : JctSendable im j core group row) (hw : off % 256 ≠ 0 ∨ tagFree s core slot = false) :
    execJctBeatSend core slot group row off s = .next s := by
  rw [execJctBeatSend_sendable hrun him hgood, if_pos (by simpa using hw)]

theorem execJctBeatSend_reads (hgood : JctSendable im j core group row) (halign : off % 256 = 0)
    (htag : tagFree s core slot = true) :
    execJctBeatSend core slot group row off s =
      .next (withWords s c j.run.slot core off 256 (jctRead c j.run.slot core group row off)) := by
  rw [execJctBeatSend_sendable hrun him hgood, if_neg (by simp [halign, htag])]

theorem execJctBeatSend_error (hgood : JctSendable im j core group row) (halign : off % 256 = 0)
    (htag : tagFree s core slot = true) {t : State} {r : Reason} (hin : off + 256 ≤ (shareOf s c j.run.slot core).2 * 256)
    (hscan : eccScan s (physOf s core) [((shareOf s c j.run.slot core).1 * 256 + off, 256)] = (t, some r)) :
    execJctBeatSend core slot group row off s = .next (failJob t c r) := by
  rw [execJctBeatSend_reads hrun him hgood halign htag, withWords_error _ _ _ _ _ _ _ _ _ hin hscan]

theorem execJctBeatSend_sent (hgood : JctSendable im j core group row) (halign : off % 256 = 0)
    (htag : tagFree s core slot = true) (hbad : (ramOf s (physOf s core)).bad = [])
    (hsoft : (ramOf s (physOf s core)).soft = []) {b : Bytes} (hread : deckRead s c j.run.slot core off 256 = some b) :
    execJctBeatSend core slot group row off s = .next (jctSend s c core group row b) := by
  rw [execJctBeatSend_reads hrun him hgood halign htag, withWords_clean _ _ _ _ _ _ _ hbad hsoft]
  simp only [jctRead, hread]

theorem execJctBeatSend_beyond (hgood : JctSendable im j core group row) (halign : off % 256 = 0)
    (htag : tagFree s core slot = true) (hout : (shareOf s c j.run.slot core).2 * 256 < off + 256) :
    execJctBeatSend core slot group row off s = .next (failJob s c .cvBounds) := by
  rw [execJctBeatSend_reads hrun him hgood halign htag, withWords_beyond _ _ _ _ _ _ _ hout]
  simp only [jctRead, deckRead_beyond s c _ core off 256 hout]

end

/-! ## A row's write leaves an empty input empty (R257, R259, R261) -/

/-- A table of lists whose entries are filtered is empty where it was. -/
theorem tget_map_filter_empty {α : Type} (t : Tab (List α)) (p : α → Bool) (k : Nat) (h : tget t [] k = []) :
    tget (t.map (fun e => (e.1, e.2.filter p))) [] k = [] := by
  induction t with
  | nil => rfl
  | cons e r ih =>
    obtain ⟨n, l⟩ := e
    cases hk : k == n with
    | true =>
      have hl : l = [] := by simpa [tget, List.lookup_cons, hk] using h
      simp [tget, List.lookup_cons, hk, hl]
    | false =>
      have hr : tget r [] k = [] := by simpa [tget, List.lookup_cons, hk] using h
      simpa [tget, List.lookup_cons, hk] using ih hr

/-- A job that fails discards its context's beats and brings none. -/
theorem failJob_input_empty (s : State) (c k : Nat) (r : Reason) (h : tget s.jct.skids [] k = []) :
    tget (failJob s c r).jct.skids [] k = [] := tget_map_filter_empty s.jct.skids _ k h

theorem rowLost_input_empty (s : State) (c job k : Nat) (h : tget s.jct.skids [] k = []) :
    tget (rowLost s c job).jct.skids [] k = [] := by
  unfold rowLost
  split
  · split
    · exact failJob_input_empty s c k _ h
    · exact h
  · exact h

@[simp] theorem checkWrite_jct (s : State) (h : WinHdr) (src : WriteFrom) : (checkWrite s h src).1.jct = s.jct := by
  unfold checkWrite
  cases keyOf s h.ctx h.slot h.space h.win with
  | none => rfl
  | some k => cases hf : writeFate s h k <;> simp [hf]

@[simp] theorem offerWrite_jct (s : State) (h : WinHdr) (src : WriteFrom) : (offerWrite s h src).1.jct = s.jct := by
  have hc := checkWrite_jct s h src
  unfold offerWrite
  split
  · rfl
  · split
    · next heq => rw [heq] at hc; exact hc
    · exact hc

theorem jctWrite_input_empty (s : State) (c job slot : Nat) (e : JctEnt) (row core : Nat) (data : Bytes) (k : Nat)
    (h : tget s.jct.skids [] k = []) : tget (jctWrite s c job slot e row core data).jct.skids [] k = [] := by
  unfold jctWrite
  extract_lets ep hdr
  have hj := offerWrite_jct s hdr (.junction c job e.group row core)
  split
  · next heq => rw [heq] at hj; rw [hj]; exact h
  · next heq => rw [heq] at hj; rw [hj]; exact h
  · next heq =>
    rw [heq] at hj
    exact rowLost_input_empty _ c job k (by rw [← hj] at h; exact h)

/-! ## The chip Junction accepts a beat (R254, R256, R259) -/

/-- The store slots that a group has in use (R262). -/
def jctUsed (s : State) (c group : Nat) : Nat :=
  (s.jct.slots.filter (fun j => j.ctx == c && j.group == group && !j.freed)).length

/-- The head beat of an input has left it. -/
def jctPop (s : State) (i : Nat) (rest : List JctBeat) : State :=
  { s with jct := { s.jct with skids := tset s.jct.skids i rest } }

/-- A beat takes a store slot. -/
def jctTake (s : State) (j : JctSlot) : State := { s with jct := { s.jct with slots := s.jct.slots ++ [j] } }

/-- A beat joins the slot of its row. -/
def jctPut (s : State) (i : Nat) (b : JctBeat) : State :=
  { s with jct := { s.jct with slots := s.jct.slots.map (fun j =>
      if j.ctx = b.ctx ∧ j.group = b.group ∧ j.row = b.row ∧ !j.written then { j with parts := tset j.parts i b.data } else j) } }

theorem jctPop_input_empty (s : State) (i k : Nat) (rest : List JctBeat) (hk : k ≠ i) (h : tget s.jct.skids [] k = []) :
    tget (jctPop s i rest).jct.skids [] k = [] := (tget_tset_ne _ i k rest [] hk).trans h

theorem jctAccept_empty {s : State} {i : Nat} (h : tget s.jct.skids [] i = []) : jctAccept s i = s := by
  simp only [jctAccept, h]

section
variable {s : State} {i : Nat} {b : JctBeat} {rest : List JctBeat} (hb : tget s.jct.skids [] i = b :: rest)
include hb

theorem jctAccept_groupGone (hg : jctGroup s b.ctx b.group = none) : jctAccept s i = jctPop s i rest := by
  simp only [jctAccept, hb, hg]
  rfl

variable {slot : Nat} {g : JctEnt} (hg : jctGroup s b.ctx b.group = some (slot, g))
include hg

theorem jctAccept_join (hred : g.gather = false) (hj : jctJoin s b = true) :
    jctAccept s i = jctPut (jctPop s i rest) i b := by
  simp only [jctAccept, hb, hg, hred, hj, if_true, Bool.false_eq_true, if_false]
  rfl

theorem jctAccept_take (hred : g.gather = false) (hj : jctJoin s b = false) (hfree : jctUsed s b.ctx b.group < g.slots) :
    jctAccept s i = jctTake (jctPop s i rest)
      { ctx := b.ctx, job := jobId s b.ctx, group := b.group, row := b.row, parts := [(i, b.data)] } := by
  unfold jctUsed at hfree
  simp only [jctAccept, hb, hg, hred, hj, hfree, if_true, Bool.false_eq_true, if_false]
  rfl

theorem jctAccept_gather (hgat : g.gather = true) (hfree : jctUsed s b.ctx b.group < g.slots) :
    jctAccept s i = jctWrite (jctTake (jctPop s i rest)
      { ctx := b.ctx, job := jobId s b.ctx, group := b.group, row := b.row, parts := [(i, b.data)], written := true })
      b.ctx (jobId s b.ctx) slot g b.row i b.data := by
  unfold jctUsed at hfree
  simp only [jctAccept, hb, hg, hgat, hfree, if_true]
  rfl

theorem jctAccept_full (hfull : g.slots ≤ jctUsed s b.ctx b.group) (hnew : g.gather = true ∨ jctJoin s b = false) :
    jctAccept s i = s := by
  have hno : ¬ jctUsed s b.ctx b.group < g.slots := Nat.not_lt.mpr hfull
  unfold jctUsed at hno
  cases hgat : g.gather with
  | true => simp only [jctAccept, hb, hg, hgat, hno, if_true, if_false]
  | false =>
    have hj : jctJoin s b = false := by simpa [hgat] using hnew
    simp only [jctAccept, hb, hg, hgat, hj, hno, Bool.false_eq_true, if_false]

end

/-- Accepting a beat of one input brings none to another. -/
theorem jctAccept_input_empty (s : State) (i k : Nat) (hk : k ≠ i) (h : tget s.jct.skids [] k = []) :
    tget (jctAccept s i).jct.skids [] k = [] := by
  cases hb : tget s.jct.skids [] i with
  | nil => rwa [jctAccept_empty hb]
  | cons b rest =>
    have hpop := jctPop_input_empty s i k rest hk h
    cases hg : jctGroup s b.ctx b.group with
    | none => rwa [jctAccept_groupGone hb hg]
    | some e =>
      obtain ⟨slot, g⟩ := e
      cases hgat : g.gather with
      | true =>
        by_cases hfree : jctUsed s b.ctx b.group < g.slots
        · rw [jctAccept_gather hb hg hgat hfree]
          exact jctWrite_input_empty _ _ _ _ _ _ _ _ k hpop
        · rwa [jctAccept_full hb hg (Nat.not_lt.mp hfree) (.inl hgat)]
      | false =>
        cases hj : jctJoin s b with
        | true => rw [jctAccept_join hb hg hgat hj]; exact hpop
        | false =>
          by_cases hfree : jctUsed s b.ctx b.group < g.slots
          · rw [jctAccept_take hb hg hgat hj hfree]; exact hpop
          · rwa [jctAccept_full hb hg (Nat.not_lt.mp hfree) (.inr hj)]

/-- The rotation moves on (R254). -/
def nextTurn (s : State) : State := { s with jct := { s.jct with turn := (s.jct.turn + 1) % 4 } }

/-- Inputs `i` and `k` are the two that have their turn (R254). -/
def TurnPair (s : State) (i k : Nat) : Prop :=
  (i = 2 * s.jct.turn ∧ k = 2 * s.jct.turn + 1) ∨ (k = 2 * s.jct.turn ∧ i = 2 * s.jct.turn + 1)

/-- With the other input of the turn empty, the cycle accepts the head of one input alone. -/
theorem execJctBeatAccept_single {s : State} {i k : Nat} (hpair : TurnPair s i k) (hk : tget s.jct.skids [] k = []) :
    execJctBeatAccept s = .next (jctAccept (nextTurn s) i) := by
  have hempty : tget (nextTurn s).jct.skids [] k = [] := hk
  change Host.Outcome.next (jctAccept (jctAccept (nextTurn s) (2 * s.jct.turn)) (2 * s.jct.turn + 1)) = _
  obtain ⟨hi, hk'⟩ | ⟨hk', hi⟩ := hpair
  · rw [← hk', ← hi, jctAccept_empty (jctAccept_input_empty _ i k (by omega) hempty)]
  · rw [← hi, ← hk', jctAccept_empty hempty]

/-! ## A row is written (R42, R256, R257) -/

/-- A slot lacks a part of a contributor exactly when the model's scan of the contributors finds one. -/
theorem missingPart_iff (contrib : Nat) (parts : Tab Bytes) :
    (maskBits contrib 8).any (fun n => (tget? parts n).isNone) = true ↔
      ∃ n < 8, bit contrib n = true ∧ tget? parts n = none := by
  simp [maskBits]

section
variable {s : State} {c group row slot : Nat} {g : JctEnt} (hg : jctGroup s c group = some (slot, g))
include hg

theorem jctRowWrite_noSlot
    (hnone : s.jct.slots.find? (fun j => j.ctx == c && j.group == group && j.row == row && !j.written) = none) :
    jctRowWrite s c group row = s := by
  simp only [jctRowWrite, hg, hnone]

variable {j : JctSlot}
  (hj : s.jct.slots.find? (fun j => j.ctx == c && j.group == group && j.row == row && !j.written) = some j)
include hj

theorem jctRowWrite_waits (hw : g.gather = true ∨ ∃ n < 8, bit g.contrib n = true ∧ tget? j.parts n = none) :
    jctRowWrite s c group row = s := by
  rw [← missingPart_iff] at hw
  simp only [jctRowWrite, hg, hj, if_pos hw]

theorem jctRowWrite_complete (hred : g.gather = false)
    (hall : ∀ n < 8, bit g.contrib n = true → (tget? j.parts n).isSome) :
    ∃ u order data, jctRowWrite s c group row = jctWrite u c j.job slot g row (order.headD 0) data ∧
      order = g.order.filter (fun n => decide (n < 8) && bit g.contrib n) ∧
      data = combineRows g.fmt (order.map (fun n => tget j.parts [] n)) ∧
      u = { s with jct := { s.jct with slots := s.jct.slots.map (fun k => if k = j then { k with written := true } else k) } } := by
  have hgo : ¬ (g.gather = true ∨ (maskBits g.contrib 8).any (fun n => (tget? j.parts n).isNone) = true) := by
    rw [missingPart_iff]
    rintro (hgat | ⟨n, hn, hbit, hmiss⟩)
    · simp [hred] at hgat
    · simpa [hmiss] using hall n hn hbit
  refine ⟨_, _, _, ?_, rfl, rfl, rfl⟩
  simp only [jctRowWrite, hg, hj, if_neg hgo]

end

/-- Two rows of ACC40 containers combine value by value (R42). -/
theorem combineRows_acc40 (a b : Bytes) : combineRows 8 [a, b] = (List.range 32).flatMap (fun i =>
    leBytes 8 (leNat (slice a (8 * i) 8) + leNat (slice b (8 * i) 8))) := rfl

/-! ## A group that is stuck (R261) -/

/-- A group has beats waiting: at an input, or in a slot whose row is not written. -/
def JctWaiting (s : State) (c group : Nat) : Prop :=
  (∃ k ∈ s.jct.skids, ∃ b ∈ k.2, b.ctx = c ∧ b.group = group) ∨
    ∃ j ∈ s.jct.slots, j.ctx = c ∧ j.group = group ∧ j.written = false

theorem jctWaiting_iff (s : State) (c group : Nat) :
    (s.jct.skids.any (fun k => k.2.any (fun b => b.ctx == c && b.group == group)) = true ∨
      s.jct.slots.any (fun j => j.ctx == c && j.group == group && !j.written) = true) ↔ JctWaiting s c group := by
  simp [JctWaiting, and_assoc]

section
variable {s : State} {c group slot : Nat} {g : JctEnt} (hg : jctGroup s c group = some (slot, g))
include hg

theorem execPipeJctStuck_waiting (hw : JctWaiting s c group) :
    execPipeJctStuck c group s = .next (failJob s c .pipeJctStuck) := by
  simp only [execPipeJctStuck, hg, if_pos ((jctWaiting_iff s c group).mpr hw)]

theorem execPipeJctStuck_idle (hw : ¬ JctWaiting s c group) : execPipeJctStuck c group s = .next s := by
  simp only [execPipeJctStuck, hg, if_neg (mt (jctWaiting_iff s c group).mp hw)]

end

/-! ## The statement -/

/-- Settles O49. A send is judged by `JctSendable` and then by its read; a cycle with one beat accepts that beat alone, since
no accept, and no row that it writes, brings a beat to the empty input; a row and a stuck group are judged by their slots. -/
theorem chipJunction : Obligations.ChipJunction := by
  refine ⟨?_, ?_, ?_⟩
  · intro core slot group row off c j im s hrun him
    refine ⟨fun g hg hbit hrow hnew => ?_, fun hno => execJctBeatSend_refused hrun him ?_⟩
    · have hgood : JctSendable im j core group row := ⟨g, hg, hbit, hrow, hnew⟩
      refine ⟨execJctBeatSend_waits hrun him hgood, ?_, fun b halign htag hbad hsoft hread => ?_,
        execJctBeatSend_beyond hrun him hgood⟩
      · rintro t r _ halign htag rfl hin hscan
        exact execJctBeatSend_error hrun him hgood halign htag hin hscan
      · exact ⟨jctSend s c core group row b, execJctBeatSend_sent hrun him hgood halign htag hbad hsoft hread,
          tget_tset_self _ _ _ _, fun k hk => tget_tset_ne _ _ _ _ _ hk, jctSend_job (stageRunning_job hrun) core group row b,
          fun m hm => tget?_modJob_ne _ _ _ _ hm, rfl⟩
    · rintro ⟨g, hg, hbit, hrow, hnew⟩
      obtain hcore | hrows | hsent := hno g hg
      · simp [hbit] at hcore
      · omega
      · exact hnew hsent
  · rintro i k _ s hpair hk rfl
    have hone : exec .jctBeatAccept s = .next (jctAccept (nextTurn s) i) := execJctBeatAccept_single hpair hk
    rw [hone]
    refine ⟨fun hi => congrArg _ (jctAccept_empty hi), ?_⟩
    rintro b rest _ hhead rfl
    have hb : tget (nextTurn s).jct.skids [] i = b :: rest := hhead
    refine ⟨fun hg => congrArg _ (jctAccept_groupGone hb hg), ?_⟩
    rintro slot g _ hgroup rfl
    have hg : jctGroup (nextTurn s) b.ctx b.group = some (slot, g) := hgroup
    exact ⟨fun hred hj => congrArg _ (jctAccept_join hb hg hred hj),
      fun hred hj hfree => congrArg _ (jctAccept_take hb hg hred hj hfree),
      fun hgat hfree => congrArg _ (jctAccept_gather hb hg hgat hfree),
      fun hfull hnew => congrArg _ (jctAccept_full hb hg hfull hnew)⟩
  · intro c group row slot g s hg
    refine ⟨fun j hj => ⟨fun hred hall => ?_, fun hw => congrArg _ (jctRowWrite_waits hg hj hw)⟩,
      fun hnone => congrArg _ (jctRowWrite_noSlot hg hnone), combineRows_acc40,
      execPipeJctStuck_waiting hg, fun hskids hslots => execPipeJctStuck_idle hg ?_⟩
    · obtain ⟨u, order, data, hwrite, hrest⟩ := jctRowWrite_complete hg hj hred hall
      exact ⟨u, order, data, congrArg _ hwrite, hrest⟩
    · rintro (⟨k, hk, b, hb, hctx, hgroup⟩ | ⟨j, hj, hctx, hgroup, hnew⟩)
      · obtain h | h := hskids k hk b hb
        · exact h hctx
        · exact h hgroup
      · obtain h | h | h := hslots j hj
        · exact h hctx
        · exact h hgroup
        · simp [hnew] at h

end Sys2Proof.Machine

/-!
PROOFS. The cores and the engine groups: pushing a descriptor and starting it (R93, R130, R131, R142).
-/

namespace Sys2Proof.Machine

/-! ## Cores, their groups, and Decks -/

theorem coreOf_setCore_ne (s : State) (p q : Nat) (k : Core) (h : q ≠ p) : coreOf (setCore s p k) q = coreOf s q :=
  tget_tset_ne _ _ _ _ _ h

@[simp] theorem ramOf_setCore (s : State) (p q : Nat) (k : Core) : ramOf (setCore s p k) q = ramOf s q := rfl

@[simp] theorem coreOf_setRam (s : State) (p q : Nat) (r : Ram) : coreOf (setRam s p r) q = coreOf s q := by
  unfold setRam
  split <;> rfl

@[simp] theorem ramOf_setRam_self (s : State) (p : Nat) (r : Ram) : ramOf (setRam s p r) p = r := by
  by_cases h : p = 9 <;> simp [ramOf, setRam, h]

theorem ramOf_setRam_ne (s : State) (p q : Nat) (r : Ram) (hq : q ≠ p) : ramOf (setRam s p r) q = ramOf s q := by
  by_cases hp : p = 9
  · have hq9 : q ≠ 9 := hp ▸ hq
    simp [ramOf, setRam, hp, hq9]
  · simp [ramOf, setRam, hp, tget_tset_ne _ _ _ _ _ hq]

/-- The two states differ in cores and in on-chip memories at most. -/
def OnlyCoreData (s t : State) : Prop := t = { s with cores := t.cores, decks := t.decks, span := t.span }

/-- The two states differ in cores at most. -/
def OnlyCores (s t : State) : Prop := t = { s with cores := t.cores }

theorem OnlyCoreData.trans {s t u : State} (h : OnlyCoreData s t) (k : OnlyCoreData t u) : OnlyCoreData s u := by
  unfold OnlyCoreData at *
  rw [k, h]

theorem OnlyCores.trans {s t u : State} (h : OnlyCores s t) (k : OnlyCores t u) : OnlyCores s u := by
  unfold OnlyCores at *
  rw [k, h]

theorem OnlyCores.coreData {s t : State} (h : OnlyCores s t) : OnlyCoreData s t := by
  unfold OnlyCores OnlyCoreData at *
  rw [h]

theorem setCore_onlyCores (s : State) (p : Nat) (k : Core) : OnlyCores s (setCore s p k) := rfl

theorem setRam_onlyCoreData (s : State) (p : Nat) (r : Ram) : OnlyCoreData s (setRam s p r) := by
  unfold OnlyCoreData setRam
  split <;> rfl

/-- A Deck write takes no notice of the cores. -/
theorem OnlyCores.afterSetRam {s t : State} (h : OnlyCores s t) (p : Nat) (r : Ram) :
    OnlyCores (setRam s p r) (setRam t p r) := by
  unfold OnlyCores at *
  rw [h]
  unfold setRam
  split <;> rfl

theorem OnlyCores.afterSetCore {s t : State} (h : OnlyCores s t) (p : Nat) (k l : Core) :
    OnlyCores (setCore s p k) (setCore t p l) := by
  unfold OnlyCores at *
  rw [h]
  rfl

theorem coreOf_setGroup_self (s : State) (p g : Nat) (e : EngGroup) :
    coreOf (setGroup s p g e) p = { coreOf s p with groups := tset (coreOf s p).groups g e } := coreOf_setCore _ _ _

theorem groupAt_setGroup_self (s : State) (p g : Nat) (e : EngGroup) : groupAt (coreOf (setGroup s p g e) p) g = e := by
  simp [coreOf_setGroup_self, groupAt]

theorem groupAt_setGroup_ne (s : State) (p g h : Nat) (e : EngGroup) (hne : h ≠ g) :
    groupAt (coreOf (setGroup s p g e) p) h = groupAt (coreOf s p) h := by
  simp [coreOf_setGroup_self, groupAt, tget_tset_ne _ _ _ _ _ hne]

theorem coreOf_setGroup_ne (s : State) (p q g : Nat) (e : EngGroup) (hq : q ≠ p) :
    coreOf (setGroup s p g e) q = coreOf s q := coreOf_setCore_ne _ _ _ _ hq

theorem setGroup_onlyCores (s : State) (p g : Nat) (e : EngGroup) : OnlyCores s (setGroup s p g e) := rfl

/-! ## A descriptor is pushed (R93, R142) -/

/-- The narrow writes of a core have become visible in its Deck (R142). -/
def narrowsLanded (s : State) (p : Nat) : State :=
  let s1 := setRam s p ((coreOf s p).narrow.foldl (fun r w => r.write w.1 [w.2]) (ramOf s p))
  setCore s1 p { coreOf s1 p with narrow := [] }

theorem coreOf_narrowsLanded_self (s : State) (p : Nat) :
    coreOf (narrowsLanded s p) p = { coreOf s p with narrow := [] } := by
  simp [narrowsLanded]

theorem coreOf_narrowsLanded_ne (s : State) (p q : Nat) (hq : q ≠ p) : coreOf (narrowsLanded s p) q = coreOf s q := by
  simp [narrowsLanded, coreOf_setCore_ne _ _ _ _ hq]

theorem narrowsLanded_onlyCoreData (s : State) (p : Nat) : OnlyCoreData s (narrowsLanded s p) :=
  (setRam_onlyCoreData s p _).trans (setCore_onlyCores _ p _).coreData

/-- A group with one more offset pushed: the queue holds sixteen, and further pushes stall (R93). -/
def pushed (g : EngGroup) (e : EngEntry) : EngGroup :=
  if g.queue.length < 16 then { g with queue := g.queue ++ [e] } else { g with stalled := g.stalled ++ [e] }

section
variable {s : State} {core slot group c : Nat} {j : Job} (hrun : stageRunning s core slot = some (c, j))
include hrun

theorem execEngineDescriptorPush_foreign (hown : bit (stageGroups j core slot) group = false) (off : Nat) :
    execEngineDescriptorPush core slot group off s = .next s := by
  simp only [execEngineDescriptorPush, hrun, hown, Bool.not_false, if_true]

theorem execEngineDescriptorPush_owned (hown : bit (stageGroups j core slot) group = true) (off : Nat) :
    execEngineDescriptorPush core slot group off s =
      .next (setGroup (narrowsLanded s (physOf s core)) (physOf s core) group
        (pushed (groupAt (coreOf s (physOf s core)) group) { slot := slot, ctx := c, img := j.run.slot, off := off })) := by
  have hkeep : groupAt (coreOf (narrowsLanded s (physOf s core)) (physOf s core)) group =
      groupAt (coreOf s (physOf s core)) group := by rw [coreOf_narrowsLanded_self]; rfl
  rw [← hkeep]
  simp only [execEngineDescriptorPush, hrun, hown, Bool.not_true, Bool.false_eq_true, if_false]
  rfl

end

/-! ## The descriptor at the head of a queue starts (R93, R130, R131) -/

theorem popQueue_eq {g : EngGroup} {e : EngEntry} {rest : List EngEntry} (hq : g.queue = e :: rest) :
    popQueue g = { g with queue := rest ++ g.stalled.take 1, stalled := g.stalled.drop 1 } := by
  obtain ⟨queue, stalled, run⟩ := g
  cases hq
  cases stalled <;> simp [popQueue]

theorem engCheck_versionBad {s : State} {core : Nat} {e : EngEntry} {j : Job} {cag pd : Bytes}
    (hcag : deckRead s e.ctx j.run.slot core e.off 64 = some cag)
    (hpd : deckRead s e.ctx j.run.slot core (field cag 0x34 3) 32 = some pd) (hbad : engVersionBad (engDesc cag pd) = true) :
    engCheck s core e j = .error .engVersion := by
  simp only [engCheck, hcag, hpd, hbad, if_true]

/-- The engines that a descriptor names: MXEs 0 to 3, and 4 for the Ramp engine. -/
def enginesOf (d : EngDesc) : List Nat := if ramp d then [4] else maskBits d.mask 4

/-- The running descriptor of an entry that starts, with the beats that its operands give. -/
def startedRun (s : State) (core : Nat) (e : EngEntry) (j : Job) (cag pd : Bytes) : EngRun :=
  { entry := e, cag := cag, pd := pd, beats := engBeats
      (fun o n => (ramOf s (physOf s core)).read ((shareOf s e.ctx j.run.slot core).1 * 256 + o) n) (engDesc cag pd) }

section
variable {s : State} {core group : Nat} {g : EngGroup} {e : EngEntry} {rest : List EngEntry} {j : Job}
  (hg : groupAt (coreOf s (physOf s core)) group = g) (hq : g.queue = e :: rest) (hidle : g.run = none)
  (hjob : (tget? s.ctxs e.ctx).bind Ctx.job = some j) (hon : j.onCores = true)
include hg hq hidle hjob hon

theorem execEngineDescriptorStart_unreadable {t : State} {r : Reason}
    (hscan : eccScan s (physOf s core) (descRuns s core e j) = (t, some r)) :
    execEngineDescriptorStart core group s = .next (failJob (setGroup t (physOf s core) group (popQueue g)) e.ctx r) := by
  simp only [execEngineDescriptorStart, hg, hq, hidle, hjob, hon, hscan, Bool.not_true, Bool.false_eq_true, if_false]

variable (hbad : (ramOf s (physOf s core)).bad = []) (hsoft : (ramOf s (physOf s core)).soft = [])
include hbad hsoft

theorem execEngineDescriptorStart_invalid {r : Reason} (hcheck : engCheck s core e j = .error r) :
    execEngineDescriptorStart core group s = .next (failJob (setGroup s (physOf s core) group (popQueue g)) e.ctx r) := by
  simp only [execEngineDescriptorStart, hg, hq, hidle, hjob, hon, eccScan_clean s _ _ hbad hsoft, hcheck, Bool.not_true,
    Bool.false_eq_true, if_false]

variable {cag pd : Bytes} (hcheck : engCheck s core e j = .ok (cag, pd))
include hcheck

/-- A valid descriptor starts when none of its engines is busy, and otherwise waits. -/
theorem execEngineDescriptorStart_valid :
    execEngineDescriptorStart core group s = .next (
      if (enginesOf (engDesc cag pd)).any (fun n => (busyEngines (coreOf s (physOf s core))).contains n) then s
      else setGroup s (physOf s core) group { popQueue g with run := some (startedRun s core e j cag pd) }) := by
  simp only [execEngineDescriptorStart, hg, hq, hidle, hjob, hon, eccScan_clean s _ _ hbad hsoft, hcheck, Bool.not_true,
    Bool.false_eq_true, if_false]
  rfl

theorem execEngineDescriptorStart_waits
    (hbusy : ∃ n ∈ enginesOf (engDesc cag pd), n ∈ busyEngines (coreOf s (physOf s core))) :
    execEngineDescriptorStart core group s = .next s := by
  rw [execEngineDescriptorStart_valid hg hq hidle hjob hon hbad hsoft hcheck, if_pos (by simpa using hbusy)]

theorem execEngineDescriptorStart_starts
    (hfree : ∀ n ∈ enginesOf (engDesc cag pd), n ∉ busyEngines (coreOf s (physOf s core))) :
    execEngineDescriptorStart core group s =
      .next (setGroup s (physOf s core) group { popQueue g with run := some (startedRun s core e j cag pd) }) := by
  rw [execEngineDescriptorStart_valid hg hq hidle hjob hon hbad hsoft hcheck, if_neg (by simpa using hfree)]

end

/-- Settles O47. A push lands the narrow writes and then adds to the group; a start is judged by the reads of the descriptor,
by `engCheck` and by the engines that are busy, in that order. -/
theorem engineDescriptorsStart : Obligations.EngineDescriptorsStart := by
  refine ⟨?_, ?_⟩
  · rintro core slot group off c _ j _ _ s hrun rfl rfl rfl
    refine ⟨fun hown => execEngineDescriptorPush_foreign hrun hown off, fun hown =>
      ⟨_, execEngineDescriptorPush_owned hrun hown off, groupAt_setGroup_self _ _ _ _, fun h hne => ?_, ?_, fun q hq => ?_,
        ramOf_setRam_self _ _ _, fun q hq => ramOf_setRam_ne _ _ _ _ hq,
        (narrowsLanded_onlyCoreData s _).trans (setGroup_onlyCores _ _ _ _).coreData⟩⟩
    · rw [groupAt_setGroup_ne _ _ _ _ _ hne, coreOf_narrowsLanded_self]
      rfl
    · rw [coreOf_setGroup_self, coreOf_narrowsLanded_self]
    · rw [coreOf_setGroup_ne _ _ _ _ _ hq, coreOf_narrowsLanded_ne _ _ _ hq]
  · rintro core group _ g e rest x j s rfl hg hq hidle hx hxj hon
    have hjob : (tget? s.ctxs e.ctx).bind Ctx.job = some j := by rw [hx]; exact hxj
    rw [← popQueue_eq hq]
    refine ⟨fun t r hscan => execEngineDescriptorStart_unreadable hg hq hidle hjob hon hscan,
      fun cag pd hcag hpd hbad => engCheck_versionBad hcag hpd hbad,
      fun r hcheck hbad hsoft => execEngineDescriptorStart_invalid hg hq hidle hjob hon hbad hsoft hcheck, ?_⟩
    rintro cag pd _ _ hcheck rfl hbad hsoft rfl
    refine ⟨fun hbusy => execEngineDescriptorStart_waits hg hq hidle hjob hon hbad hsoft hcheck hbusy, fun hfree =>
      ⟨_, execEngineDescriptorStart_starts hg hq hidle hjob hon hbad hsoft hcheck hfree, ?_,
        fun h hne => groupAt_setGroup_ne _ _ _ _ _ hne, by rw [coreOf_setGroup_self],
        fun q hq => coreOf_setGroup_ne _ _ _ _ _ hq, rfl⟩⟩
    rw [groupAt_setGroup_self, popQueue_eq hq]
    rfl

end Sys2Proof.Machine

/-!
PROOFS. The core Junction and the front (R92, R117, R118, R127, R129), completion of engine descriptors (R117, R142, R396)
and the functions of the vector unit (R123, R124).
-/

namespace Sys2Proof.Machine

/-! ## The front writes (R118) -/

theorem OnlyCoreData.physOf_eq {s t : State} (h : OnlyCoreData s t) (core : Nat) : physOf t core = physOf s core := by
  unfold OnlyCoreData at h
  rw [h]
  rfl

theorem OnlyCoreData.ctxs_eq {s t : State} (h : OnlyCoreData s t) : t.ctxs = s.ctxs := by
  unfold OnlyCoreData at h
  rw [h]

theorem OnlyCores.memories_eq {s t : State} (h : OnlyCores s t) : t.decks = s.decks ∧ t.span = s.span := by
  unfold OnlyCores at h
  rw [h]
  exact ⟨rfl, rfl⟩

/-- The front of a core has written: of the cores only that core's unfenced wide rows change, and beside them memories. -/
structure FrontOnly (core : Nat) (s t : State) : Prop where
  own : ∃ rows, coreOf t (physOf s core) = { coreOf s (physOf s core) with wideRows := rows }
  others : ∀ q, q ≠ physOf s core → coreOf t q = coreOf s q
  frame : OnlyCoreData s t

theorem FrontOnly.refl (core : Nat) (s : State) : FrontOnly core s s := ⟨⟨_, rfl⟩, fun _ _ => rfl, rfl⟩

theorem FrontOnly.trans {core : Nat} {s t u : State} (h : FrontOnly core s t) (k : FrontOnly core t u) :
    FrontOnly core s u := by
  obtain ⟨⟨rows, hrows⟩, hothers, hframe⟩ := h
  obtain ⟨⟨rows', hrows'⟩, hothers', hframe'⟩ := k
  rw [hframe.physOf_eq] at hrows' hothers'
  exact ⟨⟨rows', by rw [hrows', hrows]⟩, fun q hq => (hothers' q hq).trans (hothers q hq), hframe.trans hframe'⟩

theorem FrontOnly.groupAt_eq {core : Nat} {s t : State} (h : FrontOnly core s t) (g : Nat) :
    groupAt (coreOf t (physOf s core)) g = groupAt (coreOf s (physOf s core)) g := by
  obtain ⟨rows, hrows⟩ := h.own
  rw [hrows]
  rfl

theorem FrontOnly.jptr_eq {core : Nat} {s t : State} (h : FrontOnly core s t) :
    (coreOf t (physOf s core)).jptr = (coreOf s (physOf s core)).jptr := by
  obtain ⟨rows, hrows⟩ := h.own
  rw [hrows]

theorem FrontOnly.rampGroup_eq {core : Nat} {s t : State} (h : FrontOnly core s t) :
    rampGroup (coreOf t (physOf s core)) = rampGroup (coreOf s (physOf s core)) := by
  obtain ⟨rows, hrows⟩ := h.own
  rw [hrows]
  rfl

theorem frontRow_only (r : EngRun) (core : Nat) (s : State) (b : EngBeat) : FrontOnly core s (frontRow r core s b) :=
  ⟨⟨_, (coreOf_setCore _ _ _).trans (by rw [coreOf_setRam])⟩,
    fun q hq => (coreOf_setCore_ne _ _ _ _ hq).trans (coreOf_setRam _ _ _ _),
    (setRam_onlyCoreData s _ _).trans (setCore_onlyCores _ _ _).coreData⟩

theorem frontWrite_only (s : State) (core : Nat) (r : EngRun) (b : EngBeat) : FrontOnly core s (frontWrite s core r b) :=
  List.foldlRecOn (motive := FrontOnly core s) _ _ (FrontOnly.refl core s)
    (fun t ht row _ => ht.trans (frontRow_only r core t row))

/-- The front takes several beats of one descriptor in order. -/
theorem frontWrites_only (s : State) (core : Nat) (r : EngRun) (bs : List EngBeat) :
    FrontOnly core s (bs.foldl (fun a b => frontWrite a core r b) s) :=
  List.foldlRecOn (motive := FrontOnly core s) _ _ (FrontOnly.refl core s)
    (fun t ht b _ => ht.trans (frontWrite_only t core r b))

/-- What the front writes does not depend on the cores. -/
theorem frontRow_onlyCores {s t : State} (h : OnlyCores s t) (r : EngRun) (core : Nat) (b : EngBeat) :
    OnlyCores (frontRow r core s b) (frontRow r core t b) := by
  have hread : runReader t core r = runReader s core r := by unfold OnlyCores at h; rw [h]; rfl
  have hphys : physOf t core = physOf s core := h.coreData.physOf_eq core
  have hram : ramOf t (physOf s core) = ramOf s (physOf s core) := by unfold OnlyCores at h; rw [h]; rfl
  simp only [frontRow, hread, hphys, hram]
  exact (h.afterSetRam _ _).afterSetCore _ _ _

theorem frontWrite_onlyCores {s t : State} (h : OnlyCores s t) (core : Nat) (r : EngRun) (b : EngBeat) :
    OnlyCores (frontWrite s core r b) (frontWrite t core r b) :=
  List.foldl_rel h (fun row _ _ _ h' => frontRow_onlyCores h' r core row)

/-- A beat of one output row is split into itself. -/
theorem splitBeat_row {b : EngBeat} (hne : b.acc ≠ []) (hacc : b.acc.length ≤ b.width) (hra : b.ra.length ≤ b.width) :
    splitBeat b = [b] := by
  have hpos : 0 < b.acc.length := List.length_pos_iff.mpr hne
  have hone : ceilDiv b.acc.length b.width = 1 := by
    unfold ceilDiv
    rw [show b.acc.length + b.width - 1 = b.acc.length - 1 + b.width by omega, Nat.add_div_right _ (by omega),
      Nat.div_eq_of_lt (by omega)]
  simp [splitBeat, hone, List.take_of_length_le hacc, List.take_of_length_le hra]

/-- Where the front writes a row of a running descriptor, and the bytes (R118). -/
def rowWrite (s : State) (core : Nat) (r : EngRun) (b : EngBeat) : Nat × Bytes :=
  beatWrite (runReader s core r).2 (engDesc r.cag r.pd) b

section
variable {b : EngBeat} (hne : b.acc ≠ []) (hacc : b.acc.length ≤ b.width) (hra : b.ra.length ≤ b.width)
include hne hacc hra

theorem frontWrite_row (s : State) (core : Nat) (r : EngRun) : frontWrite s core r b = frontRow r core s b := by
  simp [frontWrite, splitBeat_row hne hacc hra]

/-- A row's elements stand in the core's Deck at their place (R96, R118). -/
theorem ramOf_frontWrite_self (s : State) (core : Nat) (r : EngRun) :
    ramOf (frontWrite s core r b) (physOf s core) = (ramOf s (physOf s core)).write
      ((runReader s core r).1 + (rowWrite s core r b).1) (rowWrite s core r b).2 := by
  rw [frontWrite_row hne hacc hra]
  exact ramOf_setRam_self _ _ _

theorem ramOf_frontWrite_ne (s : State) (core : Nat) (r : EngRun) (q : Nat) (hq : q ≠ physOf s core) :
    ramOf (frontWrite s core r b) q = ramOf s q := by
  rw [frontWrite_row hne hacc hra]
  exact ramOf_setRam_ne _ _ _ _ hq

end

/-! ## A running descriptor goes on -/

/-- The running descriptor of a group of a core goes on as another, or ends. -/
def setRun (s : State) (p g : Nat) (r : Option EngRun) : State :=
  setGroup s p g { groupAt (coreOf s p) g with run := r }

theorem run_setRun_self (s : State) (p g : Nat) (r : Option EngRun) :
    (groupAt (coreOf (setRun s p g r) p) g).run = r := by
  rw [setRun, groupAt_setGroup_self]

theorem groupAt_setRun_ne (s : State) (p g h : Nat) (r : Option EngRun) (hne : h ≠ g) :
    groupAt (coreOf (setRun s p g r) p) h = groupAt (coreOf s p) h := groupAt_setGroup_ne _ _ _ _ _ hne

theorem coreOf_setRun_ne (s : State) (p g q : Nat) (r : Option EngRun) (hq : q ≠ p) :
    coreOf (setRun s p g r) q = coreOf s q := coreOf_setGroup_ne _ _ _ _ _ hq

theorem jptr_setRun (s : State) (p g : Nat) (r : Option EngRun) :
    (coreOf (setRun s p g r) p).jptr = (coreOf s p).jptr := by
  rw [setRun, coreOf_setGroup_self]

theorem setRun_onlyCores (s : State) (p g : Nat) (r : Option EngRun) : OnlyCores s (setRun s p g r) := rfl

/-- A running descriptor goes on as `r` and the front takes a beat of it. -/
def beatTaken (s : State) (core g : Nat) (r : EngRun) (b : EngBeat) : State :=
  frontWrite (setRun s (physOf s core) g (some r)) core r b

section
variable (s : State) (core g : Nat) (r : EngRun) (b : EngBeat)

theorem beatTaken_front : FrontOnly core (setRun s (physOf s core) g (some r)) (beatTaken s core g r b) :=
  frontWrite_only _ core r b

theorem beatTaken_onlyCoreData : OnlyCoreData s (beatTaken s core g r b) :=
  (setRun_onlyCores s _ g _).coreData.trans (beatTaken_front s core g r b).frame

theorem run_beatTaken : (groupAt (coreOf (beatTaken s core g r b) (physOf s core)) g).run = some r :=
  (congrArg EngGroup.run ((beatTaken_front s core g r b).groupAt_eq g)).trans (run_setRun_self _ _ _ _)

theorem groupAt_beatTaken_ne (h : Nat) (hne : h ≠ g) :
    groupAt (coreOf (beatTaken s core g r b) (physOf s core)) h = groupAt (coreOf s (physOf s core)) h :=
  ((beatTaken_front s core g r b).groupAt_eq h).trans (groupAt_setRun_ne _ _ _ _ _ hne)

theorem jptr_beatTaken : (coreOf (beatTaken s core g r b) (physOf s core)).jptr = (coreOf s (physOf s core)).jptr :=
  (beatTaken_front s core g r b).jptr_eq.trans (jptr_setRun _ _ _ _)

theorem coreOf_beatTaken_ne (q : Nat) (hq : q ≠ physOf s core) : coreOf (beatTaken s core g r b) q = coreOf s q :=
  ((beatTaken_front s core g r b).others q hq).trans (coreOf_setRun_ne _ _ _ _ _ hq)

section
variable {b} (hne : b.acc ≠ []) (hacc : b.acc.length ≤ b.width) (hra : b.ra.length ≤ b.width)
include hne hacc hra

theorem ramOf_beatTaken_self : ramOf (beatTaken s core g r b) (physOf s core) = (ramOf s (physOf s core)).write
    ((runReader s core r).1 + (rowWrite s core r b).1) (rowWrite s core r b).2 :=
  ramOf_frontWrite_self hne hacc hra _ core r

theorem ramOf_beatTaken_ne (q : Nat) (hq : q ≠ physOf s core) : ramOf (beatTaken s core g r b) q = ramOf s q :=
  ramOf_frontWrite_ne hne hacc hra _ core r q hq

end

theorem beatTaken_onlyCores : OnlyCores (frontWrite s core r b) (beatTaken s core g r b) :=
  frontWrite_onlyCores (setRun_onlyCores s (physOf s core) g (some r)) core r b

end

/-! ## The Ramp engine's beats (R117, R118) -/

/-- An entry that meets a test, put at the key where the first such entry of a table stands, becomes the first. -/
theorem find?_tset_fst {α : Type} (t : Tab α) (P : Nat × α → Bool) (k : Nat) (v : α)
    (hfirst : (t.find? P).map Prod.fst = some k) (hv : P (k, v) = true) :
    ((tset t k v).find? P).map Prod.fst = some k := by
  induction t with
  | nil => simp at hfirst
  | cons e rest ih =>
    obtain ⟨j, w⟩ := e
    unfold tset
    split
    · simp [hv]
    · split
      · simp [hv]
      · next hne =>
        cases hw : P (j, w) with
        | true => simp [hw, Ne.symm hne] at hfirst
        | false =>
          simp only [List.find?_cons, hw] at hfirst ⊢
          exact ih hfirst

/-- A Ramp descriptor that goes on with beats left keeps its turn. -/
theorem rampGroup_setRun {s : State} {p g : Nat} {r : EngRun} (hg : rampGroup (coreOf s p) = some g)
    (hleft : tget r.beats [] 4 ≠ []) : rampGroup (coreOf (setRun s p g (some r)) p) = some g := by
  rw [setRun, coreOf_setGroup_self]
  exact find?_tset_fst _ _ g _ hg (by simpa using hleft)

theorem rampGroup_beatTaken {s : State} {core g : Nat} {r : EngRun} (b : EngBeat)
    (hg : rampGroup (coreOf s (physOf s core)) = some g) (hleft : tget r.beats [] 4 ≠ []) :
    rampGroup (coreOf (beatTaken s core g r b) (physOf s core)) = some g :=
  (beatTaken_front s core g r b).rampGroup_eq.trans (rampGroup_setRun hg hleft)

/-- A running Ramp descriptor with the beats that the front has not taken. -/
def rampLeft (r : EngRun) (bs : List EngBeat) : EngRun := { r with beats := tset r.beats 4 bs }

@[simp] theorem tget_rampLeft (r : EngRun) (bs : List EngBeat) : tget (rampLeft r bs).beats [] 4 = bs :=
  tget_tset_self _ _ _ _

theorem takeRamp_succ {s : State} {core g : Nat} {r : EngRun} {b : EngBeat} {rest : List EngBeat} (n : Nat)
    (hg : rampGroup (coreOf s (physOf s core)) = some g) (hr : (groupAt (coreOf s (physOf s core)) g).run = some r)
    (hb : tget r.beats [] 4 = b :: rest) :
    takeRamp core (n + 1) s = takeRamp core n (beatTaken s core g (rampLeft r rest) b) := by
  simp only [takeRamp, hg, hr, hb]
  rfl

/-- With two beats or more at the Ramp engine, the front takes the first two. -/
theorem takeRamp_two {s : State} {core g : Nat} {r : EngRun} {b c : EngBeat} {rest : List EngBeat}
    (hg : rampGroup (coreOf s (physOf s core)) = some g) (hr : (groupAt (coreOf s (physOf s core)) g).run = some r)
    (hb : tget r.beats [] 4 = b :: c :: rest) :
    takeRamp core 2 s = beatTaken (beatTaken s core g (rampLeft r (c :: rest)) b) core g
      (rampLeft (rampLeft r (c :: rest)) rest) c := by
  have hphys := (beatTaken_onlyCoreData s core g (rampLeft r (c :: rest)) b).physOf_eq core
  rw [takeRamp_succ 1 hg hr hb, takeRamp_succ (r := rampLeft r (c :: rest)) (b := c) (rest := rest) 0
    (by rw [hphys]; exact rampGroup_beatTaken b hg (by simp)) (by rw [hphys]; exact run_beatTaken _ _ _ _ _) (by simp)]
  rfl

/-- What two beats of one descriptor, taken one after the other, change: the descriptor's run, and what the front writes. -/
theorem rampTwo_spec (s : State) (core g : Nat) (r r' : EngRun) (b c : EngBeat) :
    let t := beatTaken (beatTaken s core g r b) core g r' c
    (groupAt (coreOf t (physOf s core)) g).run = some r' ∧
      (∀ h, h ≠ g → groupAt (coreOf t (physOf s core)) h = groupAt (coreOf s (physOf s core)) h) ∧
      (coreOf t (physOf s core)).jptr = (coreOf s (physOf s core)).jptr ∧
      (∀ q, q ≠ physOf s core → coreOf t q = coreOf s q) ∧ OnlyCoreData s t ∧
      OnlyCores (frontWrite (frontWrite s core r b) core r' c) t := by
  have hdata := beatTaken_onlyCoreData s core g r b
  have hphys := hdata.physOf_eq core
  rw [← hphys]
  refine ⟨run_beatTaken _ _ _ _ _, fun h hne => (groupAt_beatTaken_ne _ _ _ _ _ h hne).trans ?_,
    (jptr_beatTaken _ _ _ _ _).trans ?_, fun q hq => (coreOf_beatTaken_ne _ _ _ _ _ q hq).trans ?_,
    hdata.trans (beatTaken_onlyCoreData _ _ _ _ _),
    (frontWrite_onlyCores (beatTaken_onlyCores s core g r b) core r' c).trans (beatTaken_onlyCores _ _ _ _ _)⟩
  · rw [hphys]
    exact groupAt_beatTaken_ne _ _ _ _ _ h hne
  · rw [hphys]
    exact jptr_beatTaken _ _ _ _ _
  · exact coreOf_beatTaken_ne _ _ _ _ _ q (hphys ▸ hq)

/-! ## One cycle of the core Junction (R92, R117, R127, R129) -/

/-- The inputs of the core Junction with a beat, in the order of the scan (R127). -/
def offering (k : Core) : List Nat :=
  ((List.range 4).map (fun i => (k.jptr + i) % 4)).filter (fun i => (inputGroup k i).isSome)

theorem mem_offering (k : Core) (i : Nat) : i ∈ offering k ↔ i < 4 ∧ (inputGroup k i).isSome := by
  simp only [offering, List.mem_filter, List.mem_map, List.mem_range]
  refine and_congr_left fun _ => ⟨?_, fun hi => ⟨(i + 4 - k.jptr % 4) % 4, ?_, ?_⟩⟩
  · rintro ⟨n, _, rfl⟩
    omega
  · omega
  · omega

theorem offering_nodup (k : Core) : (offering k).Nodup := by
  refine List.Nodup.filter _ (List.Nodup.map_on ?_ List.nodup_range)
  intro a ha b hb hab
  simp only [List.mem_range] at ha hb
  omega

theorem offering_eq_nil {k : Core} (hnone : ∀ i < 4, inputGroup k i = none) : offering k = [] := by
  refine List.eq_nil_iff_forall_not_mem.mpr fun i hi => ?_
  obtain ⟨hlt, hsome⟩ := (mem_offering k i).mp hi
  simp [hnone i hlt] at hsome

theorem offering_eq_singleton {k : Core} {i : Nat} (hi : i < 4) (hsome : (inputGroup k i).isSome)
    (hnone : ∀ n < 4, n ≠ i → inputGroup k n = none) : offering k = [i] := by
  refine List.perm_singleton.mp ((List.perm_ext_iff_of_nodup (offering_nodup k) (List.nodup_singleton i)).mpr fun n => ?_)
  rw [mem_offering, List.mem_singleton]
  refine ⟨fun ⟨hlt, hn⟩ => ?_, fun hn => hn ▸ ⟨hi, hsome⟩⟩
  by_contra hne
  simp [hnone n hlt hne] at hn

/-- The pointer of the core Junction stands at an input, and the next turn of the front is the core Junction's. -/
def turned (s : State) (p n : Nat) : State := setCore s p { coreOf s p with jptr := n, rampTurn := false }

theorem coreOf_turned_self (s : State) (p n : Nat) :
    coreOf (turned s p n) p = { coreOf s p with jptr := n, rampTurn := false } := coreOf_setCore _ _ _

theorem coreOf_turned_ne (s : State) (p n q : Nat) (hq : q ≠ p) : coreOf (turned s p n) q = coreOf s q :=
  coreOf_setCore_ne _ _ _ _ hq

theorem groupAt_turned (s : State) (p n g : Nat) : groupAt (coreOf (turned s p n) p) g = groupAt (coreOf s p) g := by
  rw [coreOf_turned_self]
  rfl

theorem jptr_turned (s : State) (p n : Nat) : (coreOf (turned s p n) p).jptr = n := by rw [coreOf_turned_self]

theorem turned_onlyCores (s : State) (p n : Nat) : OnlyCores s (turned s p n) := rfl

section
variable {s : State} {core : Nat}

theorem execCoreJunctionBeat_idle (hnone : ∀ i < 4, inputGroup (coreOf s (physOf s core)) i = none)
    (hramp : rampGroup (coreOf s (physOf s core)) = none) : execCoreJunctionBeat core s = .next s := by
  have hoff := offering_eq_nil hnone
  unfold offering at hoff
  simp [execCoreJunctionBeat, hoff, hramp]

theorem execCoreJunctionBeat_ramp {g : Nat} (hnone : ∀ i < 4, inputGroup (coreOf s (physOf s core)) i = none)
    (hramp : rampGroup (coreOf s (physOf s core)) = some g) :
    execCoreJunctionBeat core s =
      .next (turned (takeRamp core 2 s) (physOf s core) (coreOf (takeRamp core 2 s) (physOf s core)).jptr) := by
  have hoff := offering_eq_nil hnone
  unfold offering at hoff
  simp [execCoreJunctionBeat, hoff, hramp, turned]

theorem execCoreJunctionBeat_single {i : Nat} (hoff : offering (coreOf s (physOf s core)) = [i])
    (hramp : rampGroup (coreOf s (physOf s core)) = none) :
    execCoreJunctionBeat core s = .next (turned (acceptBeat s core i) (physOf s core) ((i + 1) % 4)) := by
  unfold offering at hoff
  simp [execCoreJunctionBeat, hoff, hramp, turned]

/-- The parts of a beat's row that have come, with the beat itself (R92). -/
def rowParts (r : EngRun) (i : Nat) (b : EngBeat) : List (Nat × EngBeat) :=
  r.parts.filter (fun q => q.2.m == b.m && q.2.j == b.j) ++ [(i, b)]

/-- The parts of a row in ascending MXE order (R92). -/
def inMxeOrder (row : List (Nat × EngBeat)) : List EngBeat :=
  (List.range 4).flatMap (fun n => (row.filter (fun q => q.1 == n)).map Prod.snd)

/-- A running descriptor whose head beat at an input has been accepted. -/
def headAccepted (r : EngRun) (i : Nat) : EngRun := { r with beats := tset r.beats i ((tget r.beats [] i).drop 1) }

/-- A running descriptor once the row of a beat is whole: no part of it waits. -/
def rowDone (r : EngRun) (i : Nat) (b : EngBeat) : EngRun :=
  { headAccepted r i with parts := r.parts.filter (fun q => !(q.2.m == b.m && q.2.j == b.j)) }

variable {i g : Nat} {r : EngRun} {b : EngBeat} (hin : inputGroup (coreOf s (physOf s core)) i = some (g, r, b))
include hin

theorem acceptBeat_whole (hwhole : splitParts (engDesc r.cag r.pd) = 1) :
    acceptBeat s core i = beatTaken s core g (headAccepted r i) b := by
  simp only [acceptBeat, hin, hwhole, if_true]
  rfl

theorem acceptBeat_waits (hpart : splitParts (engDesc r.cag r.pd) ≠ 1)
    (hmissing : (rowParts r i b).length < splitParts (engDesc r.cag r.pd)) :
    acceptBeat s core i =
      setRun s (physOf s core) g (some { headAccepted r i with parts := r.parts ++ [(i, b)] }) := by
  unfold rowParts at hmissing
  simp only [acceptBeat, hin, if_neg hpart, if_pos hmissing]
  rfl

theorem acceptBeat_combines {v : EngBeat} (hpart : splitParts (engDesc r.cag r.pd) ≠ 1)
    (hall : splitParts (engDesc r.cag r.pd) ≤ (rowParts r i b).length)
    (hv : combineBeats (engDesc r.cag r.pd) (inMxeOrder (rowParts r i b)) = some v) :
    acceptBeat s core i = beatTaken s core g (rowDone r i b) v := by
  have hnone := Nat.not_lt.mpr hall
  unfold rowParts at hnone
  unfold inMxeOrder rowParts at hv
  simp only [acceptBeat, hin, if_neg hpart, if_neg hnone, hv]
  rfl

end

/-! ## An engine descriptor completes (R117, R142, R396) -/

/-- Beats of the core Junction, or parts of rows, of a running descriptor are left. -/
def BeatsLeft (r : EngRun) : Prop := (∃ e ∈ r.beats, e.1 < 4 ∧ e.2 ≠ []) ∨ r.parts ≠ []

theorem beatsLeft_iff (r : EngRun) :
    ((r.beats.any (fun e => decide (e.1 < 4) && !e.2.isEmpty)) = true ∨ (!r.parts.isEmpty) = true) ↔ BeatsLeft r := by
  simp [BeatsLeft]

theorem not_beatsLeft {r : EngRun} (hbeats : ∀ e ∈ r.beats, 4 ≤ e.1 ∨ e.2 = []) (hparts : r.parts = []) : ¬ BeatsLeft r := by
  rintro (⟨e, he, hlt, hne⟩ | hne)
  · obtain hge | hnil := hbeats e he
    · omega
    · exact hne hnil
  · exact hne hparts

/-- The Ramp beats of a descriptor that are left reach the Deck, in their order (R117). -/
def rampDrained (s : State) (core : Nat) (r : EngRun) : State :=
  (tget r.beats [] 4).foldl (fun a b => frontWrite a core r b) s

/-- The group of a descriptor that completes is free. -/
def groupFreed (s : State) (core group : Nat) (r : EngRun) : State :=
  setRun (rampDrained s core r) (physOf s core) group none

/-- The wide writes of a core are visible to the narrow view (R142). -/
def wideLanded (s : State) (p : Nat) : State := setCore s p { coreOf s p with wideRows := [] }

/-- What a completed descriptor adds to its context's account (R396). -/
def engineAmounts (d : EngDesc) (amt : Nat → Nat) (a : Acct) : Acct :=
  { a with
    mxe := if ramp d then a.mxe else a.mxe + amt 0
    ramp := if ramp d then a.ramp + amt 0 else a.ramp
    vector := if 3 ≤ d.act then a.vector + amt 1 else a.vector }

/-- A descriptor has completed, before jobs settle. -/
def engineCompleted (s : State) (core group : Nat) (r : EngRun) : State :=
  meter (wideLanded (groupFreed s core group r) (physOf s core)) r.entry.ctx (engineAmounts (engDesc r.cag r.pd))

section
variable (s : State) (core group : Nat) (r : EngRun)

theorem rampDrained_only : FrontOnly core s (rampDrained s core r) := frontWrites_only s core r _

theorem coreOf_engineCompleted : coreOf (engineCompleted s core group r) (physOf s core) =
    { coreOf (groupFreed s core group r) (physOf s core) with wideRows := [] } := coreOf_setCore _ _ _

theorem run_engineCompleted :
    (groupAt (coreOf (engineCompleted s core group r) (physOf s core)) group).run = none := by
  rw [coreOf_engineCompleted]
  exact run_setRun_self _ _ _ _

theorem wideRows_engineCompleted : (coreOf (engineCompleted s core group r) (physOf s core)).wideRows = [] := by
  rw [coreOf_engineCompleted]

theorem groupAt_engineCompleted_ne (h : Nat) (hne : h ≠ group) :
    groupAt (coreOf (engineCompleted s core group r) (physOf s core)) h = groupAt (coreOf s (physOf s core)) h := by
  rw [coreOf_engineCompleted]
  exact (groupAt_setRun_ne _ _ _ _ _ hne).trans ((rampDrained_only s core r).groupAt_eq h)

theorem engineCompleted_frame : engineCompleted s core group r = { s with
    cores := (engineCompleted s core group r).cores, decks := (engineCompleted s core group r).decks,
    span := (engineCompleted s core group r).span, ctxs := (engineCompleted s core group r).ctxs,
    draws := (engineCompleted s core group r).draws } := by
  have h := (rampDrained_only s core r).frame
  unfold OnlyCoreData at h
  unfold engineCompleted groupFreed
  rw [h]
  rfl

theorem ctxs_wideLanded : (wideLanded (groupFreed s core group r) (physOf s core)).ctxs = s.ctxs :=
  (rampDrained_only s core r).frame.ctxs_eq

end

theorem tget?_meter_ne (s : State) (c m : Nat) (f : (Nat → Nat) → Acct → Acct) (h : m ≠ c) :
    tget? (meter s c f).ctxs m = tget? s.ctxs m := tget?_tmod_ne _ _ _ _ h

/-- Metering a context that exists counts in its account, and the energy with it (R399). -/
theorem tget?_meter_self {s : State} {c : Nat} {x : Ctx} (f : (Nat → Nat) → Acct → Acct) (hx : tget? s.ctxs c = some x) :
    ∃ a, tget? (meter s c f).ctxs c = some { x with acct := a, meter := x.meter + 1 } ∧
      a = { f (ownAmount s c x) x.acct with energy := (f (ownAmount s c x) x.acct).energy + ownAmount s c x 9 } :=
  ⟨_, (tget?_modCtx s c _).trans (by rw [hx]; rfl), rfl⟩

theorem engineAmounts_eq (d : EngDesc) (amt : Nat → Nat) (a : Acct) : engineAmounts d amt a = { a with
    mxe := a.mxe + (if ramp d then 0 else amt 0), ramp := a.ramp + (if ramp d then amt 0 else 0),
    vector := a.vector + (if 3 ≤ d.act then amt 1 else 0) } := by
  unfold engineAmounts
  cases ramp d <;> by_cases hact : 3 ≤ d.act <;> simp [hact]

theorem tget?_engineCompleted_ne (s : State) (core group : Nat) (r : EngRun) (m : Nat) (hm : m ≠ r.entry.ctx) :
    tget? (engineCompleted s core group r).ctxs m = tget? s.ctxs m :=
  (tget?_meter_ne _ _ _ _ hm).trans (by rw [ctxs_wideLanded])

/-- The context's MXE or Ramp account, and with an activation its vector account, takes a free amount (R396). -/
theorem engineCompleted_account {s : State} {r : EngRun} {x : Ctx} (core group : Nat)
    (hx : tget? s.ctxs r.entry.ctx = some x) :
    ∃ a n v w, tget? (engineCompleted s core group r).ctxs r.entry.ctx = some { x with acct := a, meter := x.meter + 1 } ∧
      a = { x.acct with
        mxe := x.acct.mxe + (if ramp (engDesc r.cag r.pd) then 0 else n)
        ramp := x.acct.ramp + (if ramp (engDesc r.cag r.pd) then n else 0)
        vector := x.acct.vector + (if 3 ≤ (engDesc r.cag r.pd).act then v else 0)
        energy := x.acct.energy + w } := by
  rw [← ctxs_wideLanded s core group r] at hx
  obtain ⟨a, hctx, hacct⟩ := tget?_meter_self (engineAmounts (engDesc r.cag r.pd)) hx
  rw [engineAmounts_eq] at hacct
  exact ⟨a, _, _, _, hctx, hacct⟩

section
variable {s : State} {core group : Nat} {r : EngRun}

theorem execEngineDescriptorComplete_idle (hrun : (groupAt (coreOf s (physOf s core)) group).run = none) :
    execEngineDescriptorComplete core group s = .next s := by
  simp only [execEngineDescriptorComplete, hrun]

variable (hrun : (groupAt (coreOf s (physOf s core)) group).run = some r)
include hrun

theorem execEngineDescriptorComplete_early (hleft : BeatsLeft r) : execEngineDescriptorComplete core group s = .next s := by
  simp only [execEngineDescriptorComplete, hrun, if_pos ((beatsLeft_iff r).mpr hleft)]

theorem execEngineDescriptorComplete_done (hdone : ¬ BeatsLeft r) :
    execEngineDescriptorComplete core group s = .next (schedule (settleAll (engineCompleted s core group r))) := by
  simp only [execEngineDescriptorComplete, hrun, if_neg (mt (beatsLeft_iff r).mp hdone)]
  rfl

end

/-! ## The functions of the vector unit (R123, R124) -/

/-- The pattern of a value, or the canonical NaN where there is none. -/
def orNan (o : Option Val) : Nat := (o.map fp32.encode).getD fp32.nan

section
variable {f : VecFn} (hf : f ≠ .division) {x : Nat} (y : Nat)
include hf

theorem eval_nan (hx : f32 x = .nan) : f.eval x y = fp32.nan := by
  simp only [VecFn.eval, if_neg hf, hx]

theorem eval_inf {a : Bool} (hx : f32 x = .inf a) : f.eval x y = orNan (f.limit (.inf a)) := by
  simp only [VecFn.eval, if_neg hf, hx]
  cases f.limit (.inf a) <;> rfl

theorem eval_zero {d : Nat} (hx : f32 x = .num 0 d) : f.eval x y = orNan (f.limit .zero) := by
  simp only [VecFn.eval, if_neg hf, hx, if_true]
  cases f.limit .zero <;> rfl

theorem eval_outside {n : Int} {d : Nat} (hx : f32 x = .num n d) (hn : n ≠ 0) (hout : f.exact n d .zero = none) :
    f.eval x y = fp32.nan := by
  simp only [VecFn.eval, if_neg hf, hx, if_neg hn, hout]

theorem eval_inside {n : Int} {d : Nat} {v : Val} (hx : f32 x = .num n d) (hn : n ≠ 0)
    (hv : f.exact n d .zero = some v) : f.eval x y = withinBound f v x y := by
  simp only [VecFn.eval, if_neg hf, hx, if_neg hn, hv]

end

/-- A free result lies within its function's bound, or it is the exact value rounded (R123). -/
theorem withinBound_or (f : VecFn) (v : Val) (x y : Nat) :
    distLe (f32 (withinBound f v x y)) v (f.bound v) = true ∨ withinBound f v x y = fp32.encode v := by
  unfold withinBound
  extract_lets w
  split
  · next hle => exact .inl hle
  · exact .inr rfl

/-- Roots and logarithms have no value of a negative operand (R124). -/
theorem exact_of_neg {f : VecFn} {n : Int} (d : Nat) (y : Val) (hn : n < 0)
    (hf : f = .sqrt ∨ f = .rsqrt ∨ f = .log ∨ f = .log2) : f.exact n d y = none := by
  obtain rfl | rfl | rfl | rfl := hf <;> exact if_pos hn

/-- Sine and cosine have no value beyond their range (R124). -/
theorem exact_of_far {f : VecFn} {n : Int} {d : Nat} (y : Val) (hfar : 65536 * d < n.natAbs)
    (hf : f = .sin ∨ f = .cos) : f.exact n d y = none := by
  obtain rfl | rfl := hf <;> exact if_pos hfar

theorem eval_division_nan {x y : Nat} (h : f32 x = .nan ∨ f32 y = .nan) : VecFn.division.eval x y = fp32.nan := by
  obtain hx | hy := h
  · simp only [VecFn.eval, if_true, hx]
  · simp only [VecFn.eval, if_true, hy]
    cases f32 x <;> rfl

theorem eval_division_inf {x y d : Nat} {n : Int} {a : Bool} (hx : f32 x = .num n d) (hy : f32 y = .inf a) :
    VecFn.division.eval x y = 0 := by
  simp only [VecFn.eval, if_true, hx, hy]

theorem eval_division_zero {x y d e : Nat} {n : Int} (hx : f32 x = .num n d) (hn : n ≠ 0) (hy : f32 y = .num 0 e) :
    VecFn.division.eval x y = fp32.encode (.inf (decide (n < 0))) := by
  simp only [VecFn.eval, if_true, hx, hy, if_neg hn]

theorem isNanW_or {x y : Nat} (h : f32 x = .nan ∨ f32 y = .nan) : (isNanW x || isNanW y) = true := by
  obtain hx | hy := h
  · simp [isNanW, hx]
  · simp [isNanW, hy]

theorem minW_nan {x y : Nat} (h : f32 x = .nan ∨ f32 y = .nan) : minW x y = fp32.nan := if_pos (isNanW_or h)

theorem maxW_nan {x y : Nat} (h : f32 x = .nan ∨ f32 y = .nan) : maxW x y = fp32.nan := if_pos (isNanW_or h)

/-- The logarithm of +0 is −∞ (R124). -/
theorem log_eval_zero : VecFn.log.eval 0 0 = 0xFF80_0000 :=
  (eval_zero (by decide) 0 (d := 2 ^ 149) (by decide)).trans (by decide)

/-- The exponential of −∞ is +0 (R124). -/
theorem exp_eval_negInf : VecFn.exp.eval 0xFF80_0000 0 = 0 :=
  (eval_inf (by decide) 0 (a := true) (by decide)).trans (by decide)

/-! ## The statement -/

/-- Settles O48. A cycle with one offering input accepts its beat alone, and one with none takes two Ramp beats; completion
drains the Ramp beats, frees the group and meters the context; the functions go by the case of their operand. -/
theorem coreJunctionAndCompletion : Obligations.CoreJunctionAndCompletion := by
  refine ⟨?_, ?_, ?_, ?_, log_eval_zero, exp_eval_negInf⟩
  · rintro core _ s rfl
    refine ⟨execCoreJunctionBeat_idle, ?_, ?_⟩
    · rintro g r bs _ hnone hramp hr hbs htwo rfl
      obtain _ | ⟨b, _ | ⟨c, rest⟩⟩ := bs
      · simp at htwo
      · simp at htwo
      · obtain ⟨hrun, hgroups, hjptr, hcores, hdata, hsame⟩ :=
          rampTwo_spec s core g (rampLeft r (c :: rest)) (rampLeft (rampLeft r (c :: rest)) rest) b c
        have hexec := execCoreJunctionBeat_ramp hnone hramp
        rw [takeRamp_two hramp hr hbs] at hexec
        exact ⟨_, hexec, hsame.memories_eq.1, hsame.memories_eq.2, by rw [groupAt_turned]; exact hrun,
          fun h hne => (groupAt_turned _ _ _ _).trans (hgroups h hne), (jptr_turned _ _ _).trans hjptr,
          fun q hq => (coreOf_turned_ne _ _ _ _ hq).trans (hcores q hq), hdata.trans (turned_onlyCores _ _ _).coreData⟩
    · rintro i g r b _ _ rd base hramp hi hothers hin rfl hread rfl
      obtain rfl : (runReader s core r).1 = base := congrArg Prod.fst hread
      obtain rfl : (runReader s core r).2 = rd := congrArg Prod.snd hread
      have hexec := execCoreJunctionBeat_single (offering_eq_singleton hi (by rw [hin]; rfl) hothers) hramp
      refine ⟨fun hwhole hne hacc hra => ?_, ?_⟩
      · rw [acceptBeat_whole hin hwhole] at hexec
        exact ⟨_, _, hexec, rfl, ramOf_beatTaken_self s core g _ hne hacc hra,
          fun q hq => ramOf_beatTaken_ne s core g _ hne hacc hra q hq,
          by rw [groupAt_turned]; exact run_beatTaken _ _ _ _ _,
          fun h hneg => (groupAt_turned _ _ _ _).trans (groupAt_beatTaken_ne _ _ _ _ _ h hneg), jptr_turned _ _ _,
          fun q hq => (coreOf_turned_ne _ _ _ _ hq).trans (coreOf_beatTaken_ne _ _ _ _ _ q hq),
          (beatTaken_onlyCoreData _ _ _ _ _).trans (turned_onlyCores _ _ _).coreData⟩
      · rintro _ rfl hpart
        refine ⟨fun hmissing => ?_, fun v hall hv hne hacc hra => ?_⟩
        · rw [acceptBeat_waits hin hpart hmissing] at hexec
          exact ⟨_, hexec, by rw [groupAt_turned]; exact run_setRun_self _ _ _ _, jptr_turned _ _ _, rfl⟩
        · rw [acceptBeat_combines hin hpart hall hv] at hexec
          exact ⟨_, _, hexec, rfl, ramOf_beatTaken_self s core g _ hne hacc hra,
            fun q hq => ramOf_beatTaken_ne s core g _ hne hacc hra q hq,
            by rw [groupAt_turned]; exact run_beatTaken _ _ _ _ _, jptr_turned _ _ _,
            (beatTaken_onlyCoreData _ _ _ _ _).trans (turned_onlyCores _ _ _).coreData⟩
  · rintro core group _ _ s rfl rfl
    refine ⟨execEngineDescriptorComplete_idle, ?_⟩
    rintro r _ hrun rfl
    refine ⟨execEngineDescriptorComplete_early hrun, fun hbeats hparts => ?_⟩
    refine ⟨_, rampDrained s core r, execEngineDescriptorComplete_done hrun (not_beatsLeft hbeats hparts), rfl,
      run_engineCompleted _ _ _ _, wideRows_engineCompleted _ _ _ _, groupAt_engineCompleted_ne _ _ _ _, rfl, rfl,
      fun hnil => ?_, tget?_engineCompleted_ne _ _ _ _, fun x hx => engineCompleted_account core group hx,
      engineCompleted_frame _ _ _ _⟩
    rw [rampDrained, hnil]
    rfl
  · intro f x y hf
    refine ⟨eval_nan hf y, fun a v hx hlim => ?_, fun a hx hlim => ?_, fun n d hx => ⟨?_, eval_outside hf y hx,
      fun v hn hv => ?_, fun hn hroot => ?_, fun hfar htrig => ?_⟩⟩
    · rw [eval_inf hf y hx, hlim]
      rfl
    · rw [eval_inf hf y hx, hlim]
      rfl
    · rintro rfl v hlim
      rw [eval_zero hf y hx, hlim]
      rfl
    · rw [eval_inside hf y hx hn hv]
      exact withinBound_or f v x y
    · exact eval_outside hf y hx (by omega) (exact_of_neg d _ hn hroot)
    · exact eval_outside hf y hx (by omega) (exact_of_far _ hfar htrig)
  · intro x y
    exact ⟨fun h => ⟨eval_division_nan h, minW_nan h, maxW_nan h⟩,
      fun n d hx hn => ⟨fun a hy => eval_division_inf hx hy, fun e hy => eval_division_zero hx hn hy⟩⟩

end Sys2Proof.Machine

/-!
PROOFS. What leaves the byte memories alone (R147, R160): the Span, the Decks, T3 and T4 as one value, and for each function
of the model that writes none of them the equation that says so. The equations are simp lemmas, so the lemma of a function
follows from those of the functions it calls; the sections have the names of the model's files and follow their order.
-/

namespace Sys2Proof.Machine

/-- The byte memories of the block: the Span, the Decks, T3 and T4. -/
def memories (s : State) : Ram × Tab Ram × Ext × Ext := (s.span, s.decks, s.t3, s.t4)

/-- The state in which the machine is after an outcome. -/
def after (s : State) : Host.Outcome State Fault Refusal → State
  | .next t => t
  | _ => s

@[simp] theorem after_next (s t : State) : after s (.next t) = t := rfl

@[simp] theorem after_ite (p : Prop) [Decidable p] (s : State) (a b : Out) :
    after s (if p then a else b) = if p then after s a else after s b := apply_ite (after s) p a b

/-- An update of any fields but the four memories keeps them. -/
@[simp] theorem memories_update (s : State)
    pending draws net regs ctxs wins flights nextFlight waitHdrs sealedRegions cores coreMap sched jct lanes
    fenced sec rst sets ddr pcie pwr fwWaits cam aud grd rel :
    memories { s with
      pending := pending, draws := draws, net := net, regs := regs, ctxs := ctxs, wins := wins, flights :=
      flights, nextFlight := nextFlight, waitHdrs := waitHdrs, sealedRegions := sealedRegions, cores := cores,
      coreMap := coreMap, sched := sched, jct := jct, lanes := lanes, fenced := fenced, sec := sec, rst := rst,
      set := sets, ddr := ddr, pcie := pcie, pwr := pwr, fwWaits := fwWaits, cam := cam, aud := aud, grd := grd,
      rel := rel } =
      memories s := rfl

@[simp] theorem memories_ite (p : Prop) [Decidable p] (s t : State) :
    memories (if p then s else t) = if p then memories s else memories t := apply_ite memories p s t

/-- A fold keeps the memories when each of its steps does. -/
@[simp] theorem foldl_memories {β : Type} (f : State → β → State) (l : List β) (s : State)
    (h : ∀ a b, memories (f a b) = memories a) : memories (l.foldl f s) = memories s := by
  induction l generalizing s with
  | nil => rfl
  | cons b r ih => rw [List.foldl_cons, ih, h]

/-- The state of a pair keeps the memories when the first component of the pair does. -/
theorem memories_of_fst {α : Type} {p : State × α} {s t : State} {a : α} (e : p = (t, a))
    (h : memories p.1 = memories s) : memories t = memories s := by rw [← h, e]

/-- A fold that has failed has failed. -/
theorem optionFoldl_none {β : Type} (f : State → β → Option State) (l : List β) :
    l.foldl (fun acc b => acc.bind (f · b)) none = none := by
  induction l with
  | nil => rfl
  | cons b r ih => exact ih

/-- A fold that may fail keeps the memories when each of its steps does. -/
theorem optionFoldl_memories {β : Type} (f : State → β → Option State)
    (hf : ∀ a b t, f a b = some t → memories t = memories a) (l : List β) :
    ∀ (s t : State), l.foldl (fun acc b => acc.bind (f · b)) (some s) = some t → memories t = memories s := by
  induction l with
  | nil => intro s t h; cases h; rfl
  | cons b r ih =>
    intro s t h
    rw [List.foldl_cons, Option.bind_some] at h
    cases hb : f s b with
    | none =>
      rw [hb] at h
      exact absurd h (by rw [optionFoldl_none]; simp)
    | some u => rw [hb] at h; rw [ih u t h, hf s b u hb]

/-! ## RegMap -/

@[simp] theorem modPage_memories (s : State) (p : Nat) (f : Page → Page) : memories (modPage s p f) = memories s := by
  rfl

@[simp] theorem writeShadow_memories (s : State) (a v : Nat) (i : RegInfo) :
    memories (writeShadow s a v i) = memories s := by
  simp [writeShadow]

@[simp] theorem pageLive_memories (s : State) (p : Nat) : memories (pageLive s p) = memories s := by rfl

/-! ## Ops -/

@[simp] theorem setCore_memories (s : State) (p : Nat) (c : Core) : memories (setCore s p c) = memories s := by rfl
@[simp] theorem draw_memories (s : State) : memories (draw s) = memories s := by rfl
@[simp] theorem setCtx_memories (s : State) (c : Nat) (x : Ctx) : memories (setCtx s c x) = memories s := by rfl
@[simp] theorem modCtx_memories (s : State) (c : Nat) (f : Ctx → Ctx) : memories (modCtx s c f) = memories s := by rfl

@[simp] theorem meter_memories (s : State) (c : Nat) (f : (Nat → Nat) → Acct → Acct) :
    memories (meter s c f) = memories s := by
  rfl

@[simp] theorem modAcct_memories (s : State) (c : Nat) (f : Acct → Acct) : memories (modAcct s c f) = memories s := by
  rfl

@[simp] theorem countAct_memories (s : State) (c : Nat) (f : Acct → Acct) : memories (countAct s c f) = memories s := by
  rfl

@[simp] theorem odoSample_memories (s : State) (id : Nat) (v : Int) : memories (odoSample s id v) = memories s := by rfl

@[simp] theorem monSample_memories (s : State) (cls idx : Nat) (v : Int) :
    memories (monSample s cls idx v) = memories s := by
  rfl

@[simp] theorem replyMeter_memories (s : State) (i : Iface) : memories (replyMeter s i) = memories s := by rfl
@[simp] theorem sendPkt_memories (s : State) (p : Packet) : memories (sendPkt s p) = memories s := by rfl

@[simp] theorem deliver_memories (s : State) (sid : Nat) (p : Packet) (lane : Option Nat) :
    memories (deliver s sid p lane) = memories s := by
  unfold deliver
  split <;> simp

@[simp] theorem finishCmd_memories (s : State) (sid seq : Nat) : memories (finishCmd s sid seq) = memories s := by rfl

@[simp] theorem replyAs_memories (s : State) (rq : Req) (op ctx : Nat) (st : Status) (rs : Reason) (payload : Bytes) :
    memories (replyAs s rq op ctx st rs payload) = memories s := by
  simp [replyAs]

@[simp] theorem replyC_memories (s : State) (rq : Req) (op : Nat) (st : Status) (rs : Reason) (payload : Bytes) :
    memories (replyC s rq op st rs payload) = memories s := by
  simp [replyC]

@[simp] theorem replyD_memories (s : State) (rq : Req) (op : Nat) (st : Status) (rs : Reason) (payload : Bytes) :
    memories (replyD s rq op st rs payload) = memories s := by
  simp [replyD]

@[simp] theorem interim_memories (s : State) (rq : Req) (op ctx : Nat) :
    memories (interim s rq op ctx) = memories s := by
  rfl

@[simp] theorem emit_memories (s : State) (ctx : Option Nat) (st : Status) (rs : Reason) (items : Bytes) :
    memories (emit s ctx st rs items) = memories s := by
  unfold emit
  (repeat' split) <;> simp

@[simp] theorem emitDev_memories (s : State) (rs : Reason) (items : Bytes) :
    memories (emitDev s rs items) = memories s := by
  simp [emitDev]

@[simp] theorem onCtx_memories (s : State) (rq : Req) (op : Nat) (k : Ctx → State)
    (hk : ∀ x, memories (k x) = memories s) :
    memories (onCtx s rq op k) = memories s := by
  unfold onCtx
  split <;> simp [hk]

@[simp] theorem noteWord_memories (s : State) (home w : Nat) : memories (noteWord s home w) = memories s := by
  simp [noteWord]

@[simp] theorem eccScan_memories (s : State) (home : Nat) (runs : List (Nat × Nat)) :
    memories (eccScan s home runs).1 = memories s := by
  unfold eccScan
  dsimp only
  (repeat' split) <;> simp

@[simp] theorem writeAvs_memories (s : State) (watts : Nat) : memories (writeAvs s watts) = memories s := by rfl

/-! ## Tiers -/

@[simp] theorem noteUe_memories (s : State) (o : Obj) (r : Reason) : memories (noteUe s o r) = memories s := by
  unfold noteUe
  (repeat' split) <;> simp

@[simp] theorem countBytes_memories (s : State) (c src dst n : Nat) :
    memories (countBytes s c src dst n) = memories s := by
  rfl

@[simp] theorem integrityFail_memories (s : State) (c tier granule : Nat) (r : Reason) :
    memories (integrityFail s c tier granule r) = memories s := by
  simp [integrityFail]

/-! ## Windows -/

@[simp] theorem setWin_memories (s : State) (k : Nat) (w : Win) : memories (setWin s k w) = memories s := by rfl

@[simp] theorem winOpen_memories (s : State) (c slot space win base limit writers threshold : Nat) :
    memories (winOpen s c slot space win base limit writers threshold) = memories s := by
  unfold winOpen
  split <;> simp

@[simp] theorem modStage_memories (s : State) (c core slot : Nat) (f : StageRun → StageRun) :
    memories (modStage s c core slot f) = memories s := by
  rfl

@[simp] theorem winAnswer_memories (s : State) (who : WinBy) (slot op : Nat) (st : Status) (rs : Reason) (value : Nat)
    (body : Bytes) :
    memories (winAnswer s who slot op st rs value body) = memories s := by
  unfold winAnswer
  (repeat' split) <;> simp

@[simp] theorem onWindows_memories (s : State) (who : WinBy) (slot op : Nat) (k : Nat → Nat → State)
    (hk : ∀ c i, memories (k c i) = memories s) :
    memories (onWindows s who slot op k) = memories s := by
  unfold onWindows
  (repeat' split) <;> simp [hk]

@[simp] theorem execWinOpen_memories (who : WinBy) (space win slot base limit writers threshold : Nat) (s : State) :
    memories (after s (execWinOpen who space win slot base limit writers threshold s)) = memories s := by
  unfold execWinOpen
  rw [after_next]
  refine onWindows_memories _ _ _ _ _ fun c i => ?_
  dsimp only
  (repeat' split) <;> simp

@[simp] theorem checkWrite_memories (s : State) (h : WinHdr) (src : WriteFrom) :
    memories (checkWrite s h src).1 = memories s := by
  unfold checkWrite
  (repeat' split) <;> simp

@[simp] theorem offerWrite_memories (s : State) (h : WinHdr) (src : WriteFrom) :
    memories (offerWrite s h src).1 = memories s := by
  rcases hcheck : checkWrite s h src with ⟨t, fate⟩
  have ht : memories t = memories s := by simpa [hcheck] using checkWrite_memories s h src
  unfold offerWrite
  split
  · simp
  · cases fate <;> simp [hcheck, ht]

@[simp] theorem execWinWrite_memories (rq : Req) (space win epoch slot off : Nat) (data : Bytes) (s : State) :
    memories (after s (execWinWrite rq space win epoch slot off data s)) = memories s := by
  refine onCtx_memories _ _ _ _ fun x => ?_
  dsimp only
  (repeat' split) <;> try simp
  all_goals exact memories_of_fst ‹_› (offerWrite_memories ..)

@[simp] theorem rebuildTable_memories (s : State) : memories (rebuildTable s) = memories s := by rfl

@[simp] theorem wake_memories (s : State) (k : Nat) : memories (wake s k) = memories s := by
  unfold wake
  dsimp only
  (repeat' split) <;> simp

@[simp] theorem watchSample_memories (s : State) (k : Nat) : memories (watchSample s k) = memories s := by
  simp [watchSample]

@[simp] theorem closePoint_memories (s : State) (k : Nat) : memories (closePoint s k) = memories s := by
  simp [closePoint]

@[simp] theorem closeDone_memories (s : State) (k : Nat) : memories (closeDone s k) = memories s := by simp [closeDone]

@[simp] theorem closeEntry_memories (s : State) (k : Nat) : memories (closeEntry s k) = memories s := by
  simp [closeEntry]

@[simp] theorem execWinClose_memories (who : WinBy) (space win slot : Nat) (s : State) :
    memories (after s (execWinClose who space win slot s)) = memories s := by
  unfold execWinClose
  rw [after_next]
  refine onWindows_memories _ _ _ _ _ fun c i => ?_
  dsimp only
  (repeat' split) <;> simp

/-! ## Objects -/

@[simp] theorem unmapPage_memories (s : State) (c h : Nat) (o : Obj) : memories (unmapPage s c h o) = memories s := by
  rfl

@[simp] theorem onObj_memories (s : State) (rq : Req) (op h : Nat) (k : Ctx → Obj → State)
    (hk : ∀ x o, memories (k x o) = memories s) :
    memories (onObj s rq op h k) = memories s := by
  unfold onObj
  refine onCtx_memories _ _ _ _ fun x => ?_
  split <;> simp [hk]

@[simp] theorem execCtxQuotaSet_memories (rq : Req) (quotas : Quotas) (s : State) :
    memories (after s (execCtxQuotaSet rq quotas s)) = memories s := by
  unfold execCtxQuotaSet
  refine onCtx_memories _ _ _ _ fun x => ?_
  dsimp only
  (repeat' split) <;> simp

/-! ## Images -/

@[simp] theorem ownEntries_memories (s : State) (c slot : Nat) (wins : Tab (List Nat)) :
    memories (ownEntries s c slot wins) = memories s := by
  simp [ownEntries]

@[simp] theorem closeImage_memories (s : State) (im : Image) : memories (closeImage s im) = memories s := by
  simp [closeImage]

@[simp] theorem releaseImage_memories (s : State) (c slot : Nat) (im : Image) :
    memories (releaseImage s c slot im) = memories s := by
  rfl

/-! ## Tiles -/

@[simp] theorem countTile_memories (s : State) (e : CvEntry) (d : CvDesc) (i landed : Nat) :
    memories (countTile s e d i landed) = memories s := by
  unfold countTile
  split <;> simp

/-! ## Votes -/

@[simp] theorem syncUp_memories (s : State) : memories (syncUp s) = memories s := by rfl

@[simp] theorem stateChanged_memories (old : Nat) (s : State) : memories (stateChanged old s) = memories s := by
  simp [stateChanged]

@[simp] theorem logRefusal_memories (s : State) (kind target cls id : Nat) :
    memories (logRefusal s kind target cls id) = memories s := by
  rfl

@[simp] theorem abortEntry_memories (s : State) (cls id : Nat) : memories (abortEntry s cls id) = memories s := by
  unfold abortEntry
  (repeat' split) <;> simp

@[simp] theorem voteCast_memories (s : State) (cls id mask : Nat) : memories (voteCast s cls id mask) = memories s := by
  simp [voteCast]

@[simp] theorem cancelFrom_memories (old s : State) (cls id mask : Nat) :
    memories (cancelFrom old s cls id mask) = memories s := by
  simp [cancelFrom]

@[simp] theorem cancelDescent_memories (s : State) (cls id mask : Nat) :
    memories (cancelDescent s cls id mask) = memories s := by
  simp [cancelDescent]

@[simp] theorem wakeSource_memories (s : State) : memories (wakeSource s) = memories s := by
  unfold wakeSource
  split <;> simp

@[simp] theorem castVote_memories (s0 : State) (cls id mask : Nat) :
    memories (castVote s0 cls id mask) = memories s0 := by
  simp [castVote]

@[simp] theorem dropVote_memories (s : State) (cls id mask : Nat) : memories (dropVote s cls id mask) = memories s := by
  rfl

/-! ## RegCheck -/

@[simp] theorem setReason_memories (s : State) (p : Nat) (r : Reason) : memories (setReason s p r) = memories s := by
  rfl

@[simp] theorem regReply_memories (s : State) (rq : Req) (op count : Nat) (r : Option Reason) :
    memories (regReply s rq op count r) = memories s := by
  unfold regReply
  (repeat' split) <;> simp

@[simp] theorem tellWaits_memories (s : State) (p : Nat) (r : Option Reason) :
    memories (tellWaits s p r) = memories s := by
  simp [tellWaits]

@[simp] theorem takeCommit_memories (s : State) (p : Nat) : memories (takeCommit s p).1 = memories s := by
  unfold takeCommit
  split <;> simp

/-! ## Camera -/

@[simp] theorem setStr_memories (s : State) (m : Nat) (x : CamStr) : memories (setStr s m x) = memories s := by rfl
@[simp] theorem countErr_memories (s : State) (n i : Nat) : memories (countErr s n i) = memories s := by rfl

@[simp] theorem modFrame_memories (s : State) (m no : Nat) (f : Frame → Frame) :
    memories (modFrame s m no f) = memories s := by
  rfl

@[simp] theorem modUser_memories (s : State) (i m no : Nat) (f : IspFrame → IspFrame) :
    memories (modUser s i m no f) = memories s := by
  rfl

@[simp] theorem loseOutput_memories (s : State) (i m no o : Nat) : memories (loseOutput s i m no o) = memories s := by
  rfl

@[simp] theorem ispWrite_memories (s : State) (i m no o c dest off : Nat) (b : Bytes) :
    memories (ispWrite s i m no o c dest off b) = memories s := by
  unfold ispWrite
  dsimp only
  (repeat' split) <;> try simp
  all_goals exact memories_of_fst ‹_› (offerWrite_memories ..)

@[simp] theorem tellDropped_memories (s : State) (i m : Nat) : memories (tellDropped s i m) = memories s := by rfl

@[simp] theorem writeRecord_memories (s : State) (g : Frame) (u : IspFrame) (d : RecDue) :
    memories (writeRecord s g u d) = memories s := by
  unfold writeRecord
  split <;> simp

@[simp] theorem finishFrames_memories (s : State) : memories (finishFrames s) = memories s := by
  unfold finishFrames
  rw [memories_update]
  refine foldl_memories _ _ _ fun a g => foldl_memories _ _ _ fun b u => ?_
  (repeat' split) <;> simp

@[simp] theorem readyUnits_memories (s : State) (m no : Nat) : memories (readyUnits s m no) = memories s := by
  unfold readyUnits
  split <;> simp

@[simp] theorem settleUsers_memories (s : State) (m no : Nat) : memories (settleUsers s m no) = memories s := by
  simp [settleUsers]

@[simp] theorem flagFrame_memories (s : State) (m no fl : Nat) : memories (flagFrame s m no fl) = memories s := by
  simp [flagFrame]

@[simp] theorem closeFrame_memories (s : State) (m : Nat) (g : Frame) : memories (closeFrame s m g) = memories s := by
  simp [closeFrame]

@[simp] theorem dropFrames_memories (s : State) (sel : Frame → Bool) : memories (dropFrames s sel) = memories s := by
  rfl

@[simp] theorem abandonFrames_memories (s : State) (sel : Frame → Bool) (flag : Nat) :
    memories (abandonFrames s sel flag) = memories s := by
  simp [abandonFrames]

@[simp] theorem camSleep_memories (s : State) : memories (camSleep s) = memories s := by simp [camSleep]

@[simp] theorem camRelease_memories (s : State) (c : Nat) : memories (camRelease s c) = memories s := by
  simp [camRelease]

@[simp] theorem overrun_memories (s : State) (m : Nat) : memories (overrun s m) = memories s := by simp [overrun]

@[simp] theorem takeSlot_memories (s : State) (m csi : Nat) : memories (takeSlot s m csi) = memories s := by
  unfold takeSlot
  dsimp only
  (repeat' split) <;> simp

@[simp] theorem endUlps_memories (s : State) (rx : Nat) : memories (endUlps s rx) = memories s := by rfl

@[simp] theorem badHeader_memories (s : State) (rx vc : Nat) : memories (badHeader s rx vc) = memories s := by
  unfold badHeader
  split <;> simp

@[simp] theorem execCsiFrameStart_memories (rx : Nat) (head : CsiHead) (frame : Nat) (s : State) :
    memories (after s (execCsiFrameStart rx head frame s)) = memories s := by
  unfold execCsiFrameStart
  dsimp only
  (repeat' split) <;> simp

@[simp] theorem addLine_memories (s : State) (rx m : Nat) (g : Frame) (l : List Nat) :
    memories (addLine s rx m g l) = memories s := by
  simp [addLine]

@[simp] theorem badChecksum_memories (s : State) (rx m : Nat) : memories (badChecksum s rx m) = memories s := by
  unfold badChecksum
  split <;> simp

@[simp] theorem execCsiLine_memories (rx vc dt : Nat) (data : Bytes) (errs : Nat) (s : State) :
    memories (after s (execCsiLine rx vc dt data errs s)) = memories s := by
  unfold execCsiLine
  dsimp only
  (repeat' split) <;> simp

@[simp] theorem execCsiFrameEnd_memories (rx : Nat) (head : CsiHead) (s : State) :
    memories (after s (execCsiFrameEnd rx head s)) = memories s := by
  unfold execCsiFrameEnd
  dsimp only
  (repeat' split) <;> simp

@[simp] theorem execCamPresenceChange_memories (rx : Nat) (lanes : CamLanes) (s : State) :
    memories (after s (execCamPresenceChange rx lanes s)) = memories s := by
  simp [execCamPresenceChange]

@[simp] theorem execCamMuteOn_memories (s : State) : memories (after s (execCamMuteOn s)) = memories s := by
  simp [execCamMuteOn]

@[simp] theorem execCamMuteOff_memories (s : State) : memories (after s (execCamMuteOff s)) = memories s := by
  simp [execCamMuteOff]

@[simp] theorem execIspUnitStart_memories (isp : Nat) (s : State) :
    memories (after s (execIspUnitStart isp s)) = memories s := by
  unfold execIspUnitStart
  (repeat' split) <;> simp

@[simp] theorem execIspRotaSlotEnd_memories (s : State) : memories (after s (execIspRotaSlotEnd s)) = memories s := by
  simp [execIspRotaSlotEnd]

@[simp] theorem execSensorCfgBind_memories (rq : Req) (isp owner : Nat) (s : State) :
    memories (after s (execSensorCfgBind rq isp owner s)) = memories s := by
  simp [execSensorCfgBind]

@[simp] theorem execI3cXfer_memories (rq : Req) (xfer : I3cArgs) (bus : I3cBus) (s : State) :
    memories (after s (execI3cXfer rq xfer bus s)) = memories s := by
  unfold execI3cXfer
  (repeat' split) <;> simp

@[simp] theorem execI3cIbi_memories (ctrl addr : Nat) (payload : Bytes) (s : State) :
    memories (after s (execI3cIbi ctrl addr payload s)) = memories s := by
  simp [execI3cIbi]

@[simp] theorem reportIbi_memories (s : State) (ctrl : Nat) : memories (reportIbi s ctrl) = memories s := by
  unfold reportIbi
  split <;> simp

@[simp] theorem execI3cHotJoin_memories (ctrl : Nat) (s : State) :
    memories (after s (execI3cHotJoin ctrl s)) = memories s := by
  simp [execI3cHotJoin]

/-! ## Firmware -/

@[simp] theorem firmwareVote_memories (old s : State) (cores : List Nat) :
    memories (firmwareVote old s cores) = memories s := by
  simp [firmwareVote]

@[simp] theorem onFirmware_memories (s t : State) (c : Nat) (cmd : Instr) (h : memories t = memories s) :
    memories (onFirmware s t c cmd) = memories s := by
  unfold onFirmware
  split <;> simp [h]

@[simp] theorem releaseWork_memories (s : State) : memories (releaseWork s) = memories s := by rfl

/-! ## ObjectCmds -/

@[simp] theorem execObjFree_memories (rq : Req) (handle : Nat) (s : State) :
    memories (after s (execObjFree rq handle s)) = memories s := by
  simp [execObjFree]

@[simp] theorem setPinned_memories (s : State) (rq : Req) (handle : Nat) (p : Bool) :
    memories (setPinned s rq handle p) = memories s := by
  simp [setPinned]

@[simp] theorem execObjPlacePin_memories (rq : Req) (handle : Nat) (s : State) :
    memories (after s (execObjPlacePin rq handle s)) = memories s := by
  simp [execObjPlacePin]

@[simp] theorem execObjPlaceUnpin_memories (rq : Req) (handle : Nat) (s : State) :
    memories (after s (execObjPlaceUnpin rq handle s)) = memories s := by
  simp [execObjPlaceUnpin]

/-! ## Jobs -/

@[simp] theorem modJob_memories (s : State) (c : Nat) (f : Job → Job) : memories (modJob s c f) = memories s := by rfl
@[simp] theorem saveCore_memories (s : State) (c core : Nat) : memories (saveCore s c core) = memories s := by rfl

@[simp] theorem restoreCore_memories (s : State) (c core : Nat) : memories (restoreCore s c core) = memories s := by
  unfold restoreCore
  dsimp only
  (repeat' split) <;> simp

@[simp] theorem switchIn_memories (s : State) (c : Nat) : memories (switchIn s c) = memories s := by
  unfold switchIn
  split <;> simp

@[simp] theorem switchOut_memories (s : State) (c : Nat) : memories (switchOut s c) = memories s := by
  unfold switchOut
  split <;> simp

@[simp] theorem grantTurn_memories (s : State) (e : List Nat) : memories (grantTurn s e) = memories s := by
  unfold grantTurn
  refine foldl_memories _ _ _ fun a c => ?_
  dsimp only
  (repeat' split) <;> simp

@[simp] theorem beginTurn_memories (s : State) (i : Nat) : memories (beginTurn s i) = memories s := by simp [beginTurn]

@[simp] theorem restBlocked_memories (s : State) : memories (restBlocked s) = memories s := by
  unfold restBlocked
  split
  · rfl
  · refine foldl_memories _ _ _ fun a c => ?_
    (repeat' split) <;> simp

@[simp] theorem schedule_memories (s : State) : memories (schedule s) = memories s := by
  unfold schedule
  dsimp only
  (repeat' split) <;> simp

@[simp] theorem wakeFor_memories (s : State) (c : Nat) (x : Ctx) : memories (wakeFor s c x) = memories s := by
  unfold wakeFor
  split <;> simp

@[simp] theorem cascadeEnd_memories (s : State) (m : Option Nat) (st : Status) :
    memories (cascadeEnd s m st) = memories s := by
  unfold cascadeEnd
  split <;> simp

@[simp] theorem refuseRun_memories (s : State) (c : Nat) (r : RunReq) (rest : List RunReq) (st : Status)
    (why : Reason) :
    memories (refuseRun s c r rest st why) = memories s := by
  simp [refuseRun]

@[simp] theorem dropEmpty_memories (c fuel : Nat) (s : State) : memories (dropEmpty c fuel s) = memories s := by
  fun_induction dropEmpty c fuel s <;> simp_all

@[simp] theorem startHead_memories (s : State) (c : Nat) : memories (startHead s c) = memories s := by
  unfold startHead
  (repeat' split) <;> simp

@[simp] theorem startNext_memories (s : State) (c : Nat) : memories (startNext s c) = memories s := by simp [startNext]
@[simp] theorem dropLanePackets_memories (s : State) (c : Nat) : memories (dropLanePackets s c) = memories s := by rfl
@[simp] theorem releaseSlots_memories (s : State) (c : Nat) : memories (releaseSlots s c) = memories s := by rfl
@[simp] theorem clearQueues_memories (s : State) (c : Nat) : memories (clearQueues s c) = memories s := by rfl
@[simp] theorem clearWork_memories (s : State) (c : Nat) : memories (clearWork s c) = memories s := by rfl

@[simp] theorem meterRunning_memories (s : State) (c : Nat) : memories (meterRunning s c) = memories s := by
  unfold meterRunning
  split <;> simp

@[simp] theorem completeJob_memories (s : State) (c : Nat) (st : Status) (rs : Reason) :
    memories (completeJob s c st rs) = memories s := by
  unfold completeJob
  (repeat' split) <;> simp

@[simp] theorem failJob_memories (s : State) (c : Nat) (r : Reason) : memories (failJob s c r) = memories s := by rfl

@[simp] theorem withWords_memories (s : State) (c slot core off n : Nat) (k : State → State)
    (hk : ∀ t, memories (k t) = memories t) :
    memories (withWords s c slot core off n k) = memories s := by
  unfold withWords
  dsimp only
  split <;> simp only [failJob_memories, hk]
  all_goals exact memories_of_fst ‹_› (eccScan_memories ..)

@[simp] theorem cancelRun_memories (s : State) (r : RunReq) : memories (cancelRun s r) = memories s := by
  simp [cancelRun]

@[simp] theorem stopJob_memories (s : State) (c : Nat) (j : Job) (st : Status) (rs : Reason) :
    memories (stopJob s c j st rs) = memories s := by
  simp [stopJob]

@[simp] theorem unstall_memories (s : State) (c : Nat) : memories (unstall s c) = memories s := by rfl

@[simp] theorem stopEffect_memories (s : State) (c : Nat) (j : Job) (o : StopOrder) :
    memories (stopEffect s c j o) = memories s := by
  unfold stopEffect
  split <;> simp

@[simp] theorem tryStop_memories (s : State) (c : Nat) : memories (tryStop s c) = memories s := by
  unfold tryStop
  (repeat' split) <;> simp

@[simp] theorem orderStop_memories (s : State) (c : Nat) (o : StopOrder) : memories (orderStop s c o) = memories s := by
  simp [orderStop]

@[simp] theorem execRun_memories (rq : Req) (slot param : Nat) (s : State) :
    memories (after s (execRun rq slot param s)) = memories s := by
  unfold execRun
  refine onCtx_memories _ _ _ _ fun x => ?_
  dsimp only
  (repeat' split) <;> simp

@[simp] theorem execRunCancel_memories (rq : Req) (s : State) :
    memories (after s (execRunCancel rq s)) = memories s := by
  unfold execRunCancel
  refine onCtx_memories _ _ _ _ fun x => ?_
  dsimp only
  (repeat' split) <;> simp

@[simp] theorem execPreemptYield_memories (rq : Req) (s : State) :
    memories (after s (execPreemptYield rq s)) = memories s := by
  unfold execPreemptYield
  refine onCtx_memories _ _ _ _ fun x => ?_
  (repeat' split) <;> simp

@[simp] theorem execQuantumExpire_memories (s : State) : memories (after s (execQuantumExpire s)) = memories s := by
  unfold execQuantumExpire
  (repeat' split) <;> simp

@[simp] theorem execStageBoundary_memories (core slot : Nat) (s : State) :
    memories (after s (execStageBoundary core slot s)) = memories s := by
  unfold execStageBoundary
  (repeat' split) <;> simp

@[simp] theorem preemptionPoint_memories (s : State) (core slot : Nat) :
    memories (preemptionPoint s core slot) = memories s := by
  unfold preemptionPoint
  (repeat' split) <;> simp

@[simp] theorem execSchedNoBoundary_memories (ctx : Nat) (s : State) :
    memories (after s (execSchedNoBoundary ctx s)) = memories s := by
  unfold execSchedNoBoundary
  split <;> simp

@[simp] theorem execCtxRemoteTimeout_memories (ctx core slot : Nat) (s : State) :
    memories (after s (execCtxRemoteTimeout ctx core slot s)) = memories s := by
  unfold execCtxRemoteTimeout
  (repeat' split) <;> simp

/-! ## Landing -/

@[simp] theorem modCv_memories (s : State) (p q id : Nat) (f : CvEntry → CvEntry) :
    memories (modCv s p q id f) = memories s := by
  rfl

@[simp] theorem reapPages_memories (s : State) (c : Nat) : memories (reapPages s c) = memories s := by rfl
@[simp] theorem resolveWalks_memories (s : State) (c : Nat) : memories (resolveWalks s c) = memories s := by rfl

@[simp] theorem modCvWalk_memories (s : State) (p q id : Nat) (f : CvEntry → CvEntry) :
    memories (modCvWalk s p q id f) = memories s := by
  unfold modCvWalk
  split <;> simp

@[simp] theorem cvLanded_memories (s : State) (p q id : Nat) : memories (cvLanded s p q id) = memories s := by
  simp [cvLanded]

@[simp] theorem cvStop_memories (s : State) (p q id : Nat) (st : Status) (r : Reason) :
    memories (cvStop s p q id st r) = memories s := by
  simp [cvStop]

@[simp] theorem countLanded_memories (s : State) (p q id i n : Nat) (strip : Bool) :
    memories (countLanded s p q id i n strip) = memories s := by
  unfold countLanded
  (repeat' split) <;> simp

@[simp] theorem setPeer_memories (s : State) (i : Nat) (p : Peer) : memories (setPeer s i p) = memories s := by rfl

@[simp] theorem remoteFate_memories (s : State) (peer seq : Nat) (st : Status) (r : Reason) :
    memories (remoteFate s peer seq st r) = memories s := by
  rfl

@[simp] theorem setSend_memories (s : State) (peer seq ctx link : Nat) (payload : Bytes) :
    memories (setSend s peer seq ctx link payload) = memories s := by
  rfl

@[simp] theorem sendReport_memories (s : State) (peer : Nat) (fs : List (Nat × Status × Reason)) :
    memories (sendReport s peer fs) = memories s := by
  simp [sendReport]

@[simp] theorem tellSettled_memories (s : State) (peer : Nat) : memories (tellSettled s peer) = memories s := by
  simp [tellSettled]

@[simp] theorem freeSlot_memories (s : State) (ctx job group row core : Nat) :
    memories (freeSlot s ctx job group row core) = memories s := by
  rfl

@[simp] theorem tellLanded_memories (s : State) (f : Flight) : memories (tellLanded s f) = memories s := by
  unfold tellLanded
  split <;> simp

@[simp] theorem rowLost_memories (s : State) (c job : Nat) : memories (rowLost s c job) = memories s := by
  unfold rowLost
  split <;> simp

@[simp] theorem tellFailed_memories (s : State) (src : WriteFrom) (st : Status) (r : Reason) :
    memories (tellFailed s src st r) = memories s := by
  unfold tellFailed
  split <;> simp

@[simp] theorem retryHdrs_memories (fuel : Nat) (l : List (WinHdr × WriteFrom)) (s : State) :
    memories (retryHdrs fuel l s) = memories s := by
  fun_induction retryHdrs fuel l s with
  | case1 => rfl
  | case2 => rfl
  | case3 fuel h src rest s t hoff ih => rw [ih, memories_of_fst hoff (offerWrite_memories s h src)]
  | case4 fuel h src rest s t hoff ih => rw [ih, memories_of_fst hoff (offerWrite_memories s h src)]
  | case5 fuel h src rest s t f hacc hfull hoff ih =>
    rw [ih, tellFailed_memories, memories_of_fst hoff (offerWrite_memories s h src)]

@[simp] theorem retryWaits_memories (s : State) : memories (retryWaits s) = memories s := by simp [retryWaits]

/-! ## Contexts -/

@[simp] theorem execCtxCreate_memories (rq : Req) (params : CtxParams) (s : State) :
    memories (after s (execCtxCreate rq params s)) = memories s := by
  unfold execCtxCreate
  (repeat' split) <;> simp

@[simp] theorem execAccountRead_memories (rq : Req) (s : State) :
    memories (after s (execAccountRead rq s)) = memories s := by
  simp [execAccountRead]

@[simp] theorem freeLanes_memories (s : State) (c : Nat) : memories (freeLanes s c) = memories s := by rfl

@[simp] theorem audRelease_memories (s : State) (c : Nat) : memories (audRelease s c) = memories s := by
  simp [audRelease]

@[simp] theorem crossRelease_memories (s : State) (c : Nat) : memories (crossRelease s c) = memories s := by rfl

@[simp] theorem clearOwners_memories (s : State) (c : Nat) : memories (clearOwners s c) = memories s := by
  simp [clearOwners]

@[simp] theorem finishDestroy_memories (s : State) (c : Nat) : memories (finishDestroy s c) = memories s := by
  unfold finishDestroy
  (repeat' split) <;> simp

@[simp] theorem beginDestroy_memories (s : State) (c : Nat) (req : Option Req) (x : Ctx) :
    memories (beginDestroy s c req x) = memories s := by
  unfold beginDestroy
  split <;> simp

@[simp] theorem execCtxDestroy_memories (rq : Req) (s : State) :
    memories (after s (execCtxDestroy rq s)) = memories s := by
  simp [execCtxDestroy]

@[simp] theorem execKeyRetirement_memories (ctx : Nat) (s : State) :
    memories (after s (execKeyRetirement ctx s)) = memories s := by
  unfold execKeyRetirement
  split <;> simp

/-- One share of an image placed again: the step of `placeImage`. -/
def placeStep (c slot : Nat) (im : Image) (a : State) (e : Nat × Nat) : Option State :=
  match tget? a.ctxs c with
  | none => none
  | some x => (placeShare a c x e.1 e.2).map (fun row =>
      modCtx a c (fun y =>
        let old := tget y.images im slot
        { y with images := tset y.images slot { old with shares := tset old.shares e.1 (row, e.2) } }))

theorem placeImage_memories (s : State) (c slot : Nat) (im : Image) (need : Tab Nat) {t : State}
    (h : placeImage s c slot im need = some t) :
    memories t = memories s := by
  have hfold : placeImage s c slot im need = need.foldl (fun acc e => acc.bind (placeStep c slot im · e)) (some s) := by
    unfold placeImage placeStep
    congr 1
    funext acc e
    cases acc <;> rfl
  rw [hfold] at h
  refine optionFoldl_memories _ (fun a e b hb => ?_) need s t h
  unfold placeStep at hb
  split at hb
  · cases hb
  · obtain ⟨row, -, rfl⟩ := Option.map_eq_some_iff.mp hb
    simp

theorem placeAll_memories (s : State) (c : Nat) {t : State} (h : placeAll s c = some t) : memories t = memories s := by
  unfold placeAll at h
  split at h
  · cases h
  · exact optionFoldl_memories _ (fun a e b hb => placeImage_memories _ _ _ _ _ hb) _ s t h

/-! ## Arrivals -/

@[simp] theorem execWindowWriteCheck_memories (hdr : WinHdr) (s : State) :
    memories (after s (execWindowWriteCheck hdr s)) = memories s := by
  simp [execWindowWriteCheck]

@[simp] theorem execWinWait_memories (core slot space win : Nat) (threshold : Option Nat) (s : State) :
    memories (after s (execWinWait core slot space win threshold s)) = memories s := by
  unfold execWinWait
  (repeat' split) <;> simp

@[simp] theorem execDeckIslandPowerUp_memories (core : Nat) (s : State) :
    memories (after s (execDeckIslandPowerUp core s)) = memories s := by
  simp [execDeckIslandPowerUp]

/-! ## Convoy -/

@[simp] theorem cvPush_memories (s : State) (core q : Nat) (e : CvEntry) :
    memories (cvPush s core q e) = memories s := by
  rfl

@[simp] theorem firmwarePush_memories (s : State) (core c slot : Nat) (purpose : CvFor) (body : Bytes) :
    memories (firmwarePush s core c slot purpose body) = memories s := by
  simp [firmwarePush]

@[simp] theorem execConvoyDescriptorPush_memories (core slot off : Nat) (s : State) :
    memories (after s (execConvoyDescriptorPush core slot off s)) = memories s := by
  unfold execConvoyDescriptorPush
  split <;> simp

@[simp] theorem cvRemove_memories (s : State) (p q id : Nat) : memories (cvRemove s p q id) = memories s := by rfl

@[simp] theorem reshardMoveDone_memories (s : State) (c : Nat) (good : Bool) :
    memories (reshardMoveDone s c good) = memories s := by
  rfl

@[simp] theorem cvFail_memories (s : State) (p q : Nat) (e : CvEntry) (r : Reason) :
    memories (cvFail s p q e r) = memories s := by
  unfold cvFail
  split <;> simp

@[simp] theorem execConvoyDescriptorCheck_memories (core queue : Nat) (s : State) :
    memories (after s (execConvoyDescriptorCheck core queue s)) = memories s := by
  unfold execConvoyDescriptorCheck
  dsimp only [after_next]
  (repeat' split) <;> try simp
  all_goals exact memories_of_fst ‹_› (eccScan_memories ..)

@[simp] theorem cvTileFail_memories (s : State) (p q id : Nat) (r : Reason) :
    memories (cvTileFail s p q id r) = memories s := by
  simp [cvTileFail]

@[simp] theorem execConvoyTileIssue_memories (core queue : Nat) (s : State) :
    memories (after s (execConvoyTileIssue core queue s)) = memories s := by
  unfold execConvoyTileIssue
  dsimp only
  (repeat' split) <;> simp

@[simp] theorem cvTake_memories (s : State) (p q id : Nat) : memories (cvTake s p q id) = memories s := by rfl

@[simp] theorem landWindow_memories (s : State) (core p q : Nat) (e : CvEntry) (d : CvDesc) (i : Nat)
    (strip t : Bytes) :
    memories (landWindow s core p q e d i strip t) = memories s := by
  have hcode : memories (if d.codes then offerWrite s (cvHdr core e d (codePlace d i strip)) (.strip p q e.id)
      else (s, .accepted)).1 = memories s := by split <;> simp
  unfold landWindow
  dsimp only
  generalize (if d.codes then offerWrite s (cvHdr core e d (codePlace d i strip)) (.strip p q e.id)
      else (s, .accepted)) = code at hcode ⊢
  (repeat' split) <;> try simp only [cvStop_memories, hcode]
  all_goals exact (memories_of_fst ‹_› (offerWrite_memories ..)).trans hcode

@[simp] theorem sendRemote_memories (s : State) (peer : Nat) (src : RemoteFrom) (c dst : Nat) (payload : Bytes) :
    memories (sendRemote s peer src c dst payload) = memories s := by
  simp [sendRemote]

@[simp] theorem landRemote_memories (s : State) (p q : Nat) (e : CvEntry) (d : CvDesc) (i : Nat) (strip t : Bytes) :
    memories (landRemote s p q e d i strip t) = memories s := by
  unfold landRemote
  split <;> simp

@[simp] theorem issuePrefetch_memories (s : State) (c slot : Nat) : memories (issuePrefetch s c slot) = memories s := by
  unfold issuePrefetch
  (repeat' split) <;> simp

@[simp] theorem execPrefetchIssue_memories (ctx slot : Nat) (s : State) :
    memories (after s (execPrefetchIssue ctx slot s)) = memories s := by
  simp [execPrefetchIssue]

/-! ## Kv -/

@[simp] theorem execKvSeqFree_memories (rq : Req) (seq : Nat) (s : State) :
    memories (after s (execKvSeqFree rq seq s)) = memories s := by
  unfold execKvSeqFree
  refine onCtx_memories _ _ _ _ fun x => ?_
  dsimp only
  (repeat' split) <;> simp

@[simp] theorem cachePte_memories (s : State) (core c q key : Nat) :
    memories (cachePte s core c q key) = memories s := by
  simp [cachePte]

@[simp] theorem walkRead_memories (c slot core stg : Nat) (w : WalkReq) (g : KvGeom) (fuel i : Nat) (s : State) :
    memories (walkRead c slot core stg w g fuel i s).1 = memories s := by
  fun_induction walkRead c slot core stg w g fuel i s with
  | case1 => rfl
  | case2 => exact cachePte_memories ..
  | case3 => exact cachePte_memories ..
  | case4 n i s b pte s1 h hp hfill ep e ih => rw [ih, cvPush_memories]; exact cachePte_memories ..

@[simp] theorem setPte_memories (s : State) (c q key : Nat) (p : Pte) : memories (setPte s c q key p) = memories s := by
  rfl

@[simp] theorem pushWrite_memories (s : State) (core stg : Nat) (e : CvEntry) (w : WalkWrite) :
    memories (pushWrite s core stg e w) = memories s := by
  rfl

/-! ## Streams -/

@[simp] theorem modStream_memories (s : State) (c i : Nat) (f : Stream → Stream) :
    memories (modStream s c i f) = memories s := by
  rfl

@[simp] theorem dropChunk_memories (s : State) (core : Nat) (q : Chunk) :
    memories (dropChunk s core q) = memories s := by
  rfl

@[simp] theorem streamReply_memories (s : State) (rq : Req) (op i : Nat) :
    memories (streamReply s rq op i) = memories s := by
  simp [streamReply]

@[simp] theorem openResume_memories (s : State) (rq : Req) (g : StreamArgs) :
    memories (openResume s rq g) = memories s := by
  simp [openResume]

@[simp] theorem closeEnd_memories (s : State) (rq : Req) (i : Nat) (x : Ctx) :
    memories (closeEnd s rq i x) = memories s := by
  simp [closeEnd]

@[simp] theorem gateStream_memories (s : State) (rq : Req) (op : Nat) (i : Instr) (k : Ctx → State)
    (hk : ∀ x, memories (k x) = memories s) :
    memories (gateStream s rq op i k) = memories s := by
  unfold gateStream
  refine onCtx_memories _ _ _ _ fun x => ?_
  split <;> simp [hk]

/-! ## Audio -/

@[simp] theorem alignPaths_memories (old s : State) : memories (alignPaths old s) = memories s := by simp [alignPaths]

@[simp] theorem execAudioCfgBind_memories (rq : Req) (owner : Nat) (s : State) :
    memories (after s (execAudioCfgBind rq owner s)) = memories s := by
  simp [execAudioCfgBind]

@[simp] theorem lpFrame_memories (s : State) (pdm : List Pdm) : memories (lpFrame s pdm).1 = memories s := by
  unfold lpFrame
  split <;> simp

@[simp] theorem hqFrame_memories (s : State) (pdm : List Pdm) : memories (hqFrame s pdm).1 = memories s := by
  unfold hqFrame
  (repeat' split) <;> simp

@[simp] theorem audWrites_memories (path n : Nat) (hdr : Nat → Bytes → WinHdr) (l : List (Nat × Bytes)) (s : State) :
    memories (audWrites path n hdr l s) = memories s := by
  fun_induction audWrites path n hdr l s with
  | case1 => rfl
  | case2 s off b rest t hoff ih => rw [ih, memories_of_fst hoff (offerWrite_memories ..)]
  | case3 s off b rest t hoff ih => rw [ih, memories_of_fst hoff (offerWrite_memories ..)]
  | case4 s off b rest t f hacc hfull hoff => rw [tellFailed_memories, memories_of_fst hoff (offerWrite_memories ..)]

@[simp] theorem writeBlock_memories (s : State) (path first : Nat) (rows : List AudRow) (preroll : Bool) (time : Nat) :
    memories (writeBlock s path first rows preroll time) = memories s := by
  unfold writeBlock
  split <;> simp

@[simp] theorem execAudioBlockEnd_memories (path time : Nat) (s : State) :
    memories (after s (execAudioBlockEnd path time s)) = memories s := by
  simp [execAudioBlockEnd]

@[simp] theorem ringPush_memories (s : State) (lp hq : List AudRow) : memories (ringPush s lp hq) = memories s := by
  unfold ringPush
  rw [memories_update]

@[simp] theorem execPrerollDelivery_memories (s : State) : memories (after s (execPrerollDelivery s)) = memories s := by
  unfold execPrerollDelivery
  split <;> simp

@[simp] theorem cascadeEvent_memories (s : State) (m c : Nat) (st : Status) (word target : Nat) :
    memories (cascadeEvent s m c st word target) = memories s := by
  simp [cascadeEvent]

@[simp] theorem triggerEntry_memories (s : State) (m cls id : Nat) :
    memories (triggerEntry s m cls id) = memories s := by
  unfold triggerEntry
  (repeat' split) <;> simp

@[simp] theorem execCascade_memories (rq : Req) (entry mask space win linger : Nat) (s : State) :
    memories (after s (execCascade rq entry mask space win linger s)) = memories s := by
  unfold execCascade
  dsimp only
  (repeat' split) <;> simp

@[simp] theorem execCascadeDone_memories (entry : Nat) (s : State) :
    memories (after s (execCascadeDone entry s)) = memories s := by
  unfold execCascadeDone
  (repeat' split) <;> simp

@[simp] theorem execLingerExpire_memories (entry : Nat) (s : State) :
    memories (after s (execLingerExpire entry s)) = memories s := by
  rfl

@[simp] theorem verdict_memories (s : State) (p : Nat) : memories (verdict s p) = memories s := by simp [verdict]

@[simp] theorem holdUpdate_memories (s : State) : memories (holdUpdate s) = memories s := by
  unfold holdUpdate
  (repeat' split) <;> simp

@[simp] theorem takeLoads_memories (s : State) : memories (takeLoads s) = memories s := by rfl

/-- What a frame's samples leave before the phrase networks run keeps the memories. -/
theorem samplesTaken_memories (s : State) (stopped : Bool) (lp hq : List AudRow) :
    memories (takeLoads (ringPush { s with aud := { s.aud with stopped := stopped } } lp hq)) = memories s := by
  rw [takeLoads_memories, ringPush_memories]
  rfl

/-- What the phrase networks' new states bring about keeps the memories. -/
theorem phrasesHeard_memories {α : Type} (s : State) (ph : Tab Phrase) (l : List (Nat × α)) :
    memories (l.foldl (fun a e => verdict a e.1) (holdUpdate { s with aud := { s.aud with phrases := ph } })) =
      memories s :=
  (foldl_memories _ l _ fun a e => verdict_memories a e.1).trans ((holdUpdate_memories _).trans rfl)

@[simp] theorem execSpotterFrameEnd_memories (pdm : List Pdm) (s : State) :
    memories (after s (execSpotterFrameEnd pdm s)) = memories s := by
  unfold execSpotterFrameEnd
  rw [after_next]
  split
  · rfl
  · split
    next a lp hlp =>
    split
    next b hq hhq =>
    have hb : memories b = memories s :=
      (memories_of_fst hhq (hqFrame_memories ..)).trans (memories_of_fst hlp (lpFrame_memories ..))
    split
    · exact (samplesTaken_memories ..).trans hb
    · exact (phrasesHeard_memories ..).trans ((samplesTaken_memories ..).trans hb)

@[simp] theorem execHoldMaxExpire_memories (s : State) : memories (after s (execHoldMaxExpire s)) = memories s := by
  simp [execHoldMaxExpire]

@[simp] theorem muteAudio_memories (s : State) : memories (muteAudio s) = memories s := by rfl

@[simp] theorem execMicMuteOn_memories (s : State) : memories (after s (execMicMuteOn s)) = memories s := by
  simp [execMicMuteOn]

@[simp] theorem execMicMuteOff_memories (s : State) : memories (after s (execMicMuteOff s)) = memories s := by
  simp [execMicMuteOff]

@[simp] theorem execSettlingEnd_memories (s : State) : memories (after s (execSettlingEnd s)) = memories s := by rfl

/-! ## Net -/

@[simp] theorem endSession_memories (s : State) (sid : Nat) : memories (endSession s sid) = memories s := by rfl

@[simp] theorem deliverHeld_memories (s : State) (sid : Nat) (host : Bool) :
    memories (deliverHeld s sid host) = memories s := by
  simp [deliverHeld]

@[simp] theorem laneAck_memories (s : State) (lane n : Nat) : memories (laneAck s lane n) = memories s := by rfl

@[simp] theorem acknowledge_memories (s : State) (sid link : Nat) : memories (acknowledge s sid link) = memories s := by
  unfold acknowledge
  rw [foldl_memories _ _ _ (fun a e => by split <;> simp)]
  simp

@[simp] theorem resend_memories (s : State) (sid num : Nat) : memories (resend s sid num) = memories s := by
  unfold resend
  split <;> simp

@[simp] theorem execOutboundRetransmit_memories (sess num : Nat) (s : State) :
    memories (after s (execOutboundRetransmit sess num s)) = memories s := by
  simp [execOutboundRetransmit]

@[simp] theorem execEventsLostReport_memories (s : State) :
    memories (after s (execEventsLostReport s)) = memories s := by
  simp [execEventsLostReport]

@[simp] theorem execEthLinkUp_memories (port : Nat) (link : LinkUp) (s : State) :
    memories (after s (execEthLinkUp port link s)) = memories s := by
  simp [execEthLinkUp]

@[simp] theorem execEthLinkDown_memories (port : Nat) (s : State) :
    memories (after s (execEthLinkDown port s)) = memories s := by
  simp [execEthLinkDown]

/-! ## Lanes -/

@[simp] theorem setLane_memories (s : State) (n : Nat) (l : Lane) : memories (setLane s n l) = memories s := by rfl

@[simp] theorem laneSend_memories (n fuel : Nat) (s : State) : memories (laneSend n fuel s) = memories s := by
  fun_induction laneSend n fuel s <;> simp_all

@[simp] theorem sendLane_memories (s : State) (n : Nat) : memories (sendLane s n) = memories s := by simp [sendLane]
@[simp] theorem handOver_memories (s : State) (n : Nat) : memories (handOver s n) = memories s := by simp [handOver]
@[simp] theorem withdrawLane_memories (s : State) (n : Nat) : memories (withdrawLane s n) = memories s := by rfl

@[simp] theorem applyCfg_memories (s : State) (n : Nat) (g : LaneCfg) : memories (applyCfg s n g) = memories s := by
  simp [applyCfg]

@[simp] theorem flushOut_memories (s : State) (n : Nat) : memories (flushOut s n) = memories s := by simp [flushOut]

@[simp] theorem boundary_memories (s : State) (n : Nat) : memories (boundary s n) = memories s := by
  unfold boundary
  dsimp only
  (repeat' split) <;> simp

@[simp] theorem putDone_memories (s : State) (c core slot result : Nat) :
    memories (putDone s c core slot result) = memories s := by
  rfl

@[simp] theorem levelEvent_memories (s : State) (n old : Nat) : memories (levelEvent s n old) = memories s := by
  simp [levelEvent]

@[simp] theorem putBytes_go_memories (n core slot : Nat) (bs : Bytes) (close : Bool) (s : State) (l : Lane)
    (p : LanePkt) (old : Nat) :
    memories (putBytes.go n core slot bs close s l p old).1 = memories s := by
  unfold putBytes.go
  dsimp only
  (repeat' split) <;> simp

@[simp] theorem putBytes_memories (s : State) (n core slot : Nat) (bs : Bytes) (close : Bool) :
    memories (putBytes s n core slot bs close).1 = memories s := by
  unfold putBytes
  dsimp only
  (repeat' split) <;> simp

@[simp] theorem retryPuts_memories (n : Nat) (l : List (Nat × Nat × Bytes × Bool)) (s : State) :
    memories (retryPuts n l s) = memories s := by
  fun_induction retryPuts n l s with
  | case1 => rfl
  | case2 core slot bs close rest s keep hready ih => rw [ih]; exact setLane_memories ..
  | case3 core slot bs close rest s resume hready hoff ih =>
    rw [ih]
    unfold resume
    split <;> simp
  | case4 core slot bs close rest s keep hready hon t hput ih =>
    rw [ih]
    exact (setLane_memories ..).trans (memories_of_fst hput (putBytes_memories ..))
  | case5 core slot bs close rest s resume hready hon t f hf hput ih =>
    rw [ih, ← memories_of_fst hput (putBytes_memories ..)]
    unfold resume
    split <;> simp

@[simp] theorem servePuts_memories (s : State) (n : Nat) : memories (servePuts s n) = memories s := by simp [servePuts]

@[simp] theorem execLanePut_memories (core slot lane off len : Nat) (close : Bool) (s : State) :
    memories (after s (execLanePut core slot lane off len close s)) = memories s := by
  unfold execLanePut
  dsimp only [after_next]
  split
  · rfl
  · split
    · simp
    · split
      · rfl
      · refine withWords_memories _ _ _ _ _ _ _ fun t => ?_
        (repeat' split) <;> try simp
        all_goals exact (memories_of_fst ‹_› (putBytes_memories ..)).trans (monSample_memories ..)

@[simp] theorem carryLane_memories (s : State) (n : Nat) (go : Bool) : memories (carryLane s n go) = memories s := by
  simp [carryLane]

@[simp] theorem execLaneHandover_memories (lane : Nat) (s : State) :
    memories (after s (execLaneHandover lane s)) = memories s := by
  simp [execLaneHandover]

@[simp] theorem execLaneIdleExpire_memories (lane : Nat) (s : State) :
    memories (after s (execLaneIdleExpire lane s)) = memories s := by
  simp [execLaneIdleExpire]

@[simp] theorem laneRefuse_memories (s : State) (rq : Req) (op lane : Nat) (r : Reason) :
    memories (laneRefuse s rq op lane r) = memories s := by
  simp [laneRefuse]

@[simp] theorem execLaneCfg_memories (rq : Req) (lane mode enable level idle : Nat) (s : State) :
    memories (after s (execLaneCfg rq lane mode enable level idle s)) = memories s := by
  simp [execLaneCfg]

@[simp] theorem execLaneFlush_memories (rq : Req) (lane : Nat) (s : State) :
    memories (after s (execLaneFlush rq lane s)) = memories s := by
  simp [execLaneFlush]

/-! ## Guardrail -/

@[simp] theorem assertStops_memories (s : State) (mask : Nat) (cause : Nat → GrdCause) :
    memories (assertStops s mask cause) = memories s := by
  simp [assertStops]

@[simp] theorem grdFault_memories (s : State) : memories (grdFault s) = memories s := by simp [grdFault]
@[simp] theorem grdStart_memories (s : State) : memories (grdStart s) = memories s := by rfl
@[simp] theorem grdHalt_memories (s : State) : memories (grdHalt s) = memories s := by simp [grdHalt]
@[simp] theorem evaluate_memories (s : State) : memories (evaluate s) = memories s := by simp [evaluate]

@[simp] theorem execSensorPoll_memories (slot : Nat) (s : State) :
    memories (after s (execSensorPoll slot s)) = memories s := by
  unfold execSensorPoll
  (repeat' split) <;> simp

@[simp] theorem freeBus_memories (s : State) : memories (freeBus s) = memories s := by rfl

@[simp] theorem execSensorFrame_memories (slot : Nat) (data : Bytes) (s : State) :
    memories (after s (execSensorFrame slot data s)) = memories s := by
  simp [execSensorFrame]

@[simp] theorem execGrdStale_memories (slot : Nat) (s : State) :
    memories (after s (execGrdStale slot s)) = memories s := by
  simp [execGrdStale]

@[simp] theorem execGrdInActive_memories (levels : Nat) (s : State) :
    memories (after s (execGrdInActive levels s)) = memories s := by
  simp [execGrdInActive]

@[simp] theorem execRelease_memories (rq : Req) (outputs : Nat) (s : State) :
    memories (after s (execRelease rq outputs s)) = memories s := by
  simp [execRelease]

@[simp] theorem execDeepOverride_memories (rq : Req) (s : State) :
    memories (after s (execDeepOverride rq s)) = memories s := by
  simp [execDeepOverride]

@[simp] theorem execLoadWeights_memories (rq : Req) (weights : Bytes) (s : State) :
    memories (after s (execLoadWeights rq weights s)) = memories s := by
  simp [execLoadWeights]

@[simp] theorem execHeartbeatToggle_memories (s : State) : memories (after s (execHeartbeatToggle s)) = memories s := by
  simp [execHeartbeatToggle]

@[simp] theorem execGrdParityCheck_memories (ok : Bool) (s : State) :
    memories (after s (execGrdParityCheck ok s)) = memories s := by
  simp [execGrdParityCheck]

@[simp] theorem execGclkGap_memories (s : State) : memories (after s (execGclkGap s)) = memories s := by
  simp [execGclkGap]

@[simp] theorem execDockNEdge_memories (level : Bool) (s : State) :
    memories (after s (execDockNEdge level s)) = memories s := by
  unfold execDockNEdge
  (repeat' split) <;> simp

/-! ## Ddr -/

@[simp] theorem setChan_memories (s : State) (n : Nat) (c : DdrChan) : memories (setChan s n c) = memories s := by rfl
@[simp] theorem unavailFrom_memories (s : State) (cause : Nat) : memories (unavailFrom s cause) = memories s := by rfl

@[simp] theorem unavailTo_memories (s : State) (cause : Nat) : memories (unavailTo s cause) = memories s := by
  simp [unavailTo]

@[simp] theorem ddrEnter_memories (s : State) : memories (ddrEnter s) = memories s := by simp [ddrEnter]
@[simp] theorem ddrTrain_memories (s : State) (verify : Bool) : memories (ddrTrain s verify) = memories s := by rfl

@[simp] theorem trainDone_memories (s : State) (failed : Nat) : memories (trainDone s failed) = memories s := by
  simp [trainDone]

@[simp] theorem ddrTrained_memories (s : State) (failed step : Nat) :
    memories (ddrTrained s failed step) = memories s := by
  simp [ddrTrained]

@[simp] theorem execDdrMaintenanceFrame_memories (s : State) :
    memories (after s (execDdrMaintenanceFrame s)) = memories s := by
  simp [execDdrMaintenanceFrame]

@[simp] theorem execRefreshWindowStart_memories (s : State) :
    memories (after s (execRefreshWindowStart s)) = memories s := by
  simp [execRefreshWindowStart]

@[simp] theorem delayActivation_memories (s : State) (n port line : Nat) :
    memories (delayActivation s n port line) = memories s := by
  simp [delayActivation]

@[simp] theorem countActivation_memories (s : State) (n port line : Nat) :
    memories (countActivation s n port line) = memories s := by
  simp [countActivation]

@[simp] theorem openRowFor_memories (s : State) (n port line : Nat) :
    memories (openRowFor s n port line) = memories s := by
  simp [openRowFor]

@[simp] theorem correctedRead_memories (s : State) (n line : Nat) : memories (correctedRead s n line) = memories s := by
  simp [correctedRead]

@[simp] theorem takeIn_memories (n fuel : Nat) (s : State) : memories (takeIn n fuel s) = memories s := by
  fun_induction takeIn n fuel s with
  | case1 => rfl
  | case2 => rfl
  | case3 fuel s c cands own pick e hpick reqs s1 ih => rw [ih, draw_memories, memories_update]; exact setChan_memories ..

@[simp] theorem execDdrRequestPresent_memories (req : DdrReq) (s : State) :
    memories (after s (execDdrRequestPresent req s)) = memories s := by
  simp [execDdrRequestPresent]

@[simp] theorem deliverResps_memories (port fuel : Nat) (s : State) :
    memories (deliverResps port fuel s) = memories s := by
  fun_induction deliverResps port fuel s with
  | case1 => rfl
  | case2 => rfl
  | case3 => rfl
  | case4 fuel s mine n r hfind st rs data hres c s1 ih => rw [ih, memories_update]; exact setChan_memories ..

@[simp] theorem scrubRewrite_memories (s : State) (n line : Nat) : memories (scrubRewrite s n line) = memories s := by
  simp [scrubRewrite]

/-! ## Pipeline -/

@[simp] theorem execJctBeatSend_memories (core slot group row off : Nat) (s : State) :
    memories (after s (execJctBeatSend core slot group row off s)) = memories s := by
  unfold execJctBeatSend
  dsimp only [after_next]
  (repeat' split) <;> try simp
  all_goals exact withWords_memories _ _ _ _ _ _ _ fun t => by (repeat' split) <;> simp

@[simp] theorem jctWrite_memories (s : State) (c job slot : Nat) (e : JctEnt) (row core : Nat) (data : Bytes) :
    memories (jctWrite s c job slot e row core data) = memories s := by
  unfold jctWrite
  dsimp only
  (repeat' split) <;> try simp
  all_goals exact memories_of_fst ‹_› (offerWrite_memories ..)

@[simp] theorem jctAccept_memories (s : State) (core : Nat) : memories (jctAccept s core) = memories s := by
  unfold jctAccept
  (repeat' split) <;> simp

@[simp] theorem execJctBeatAccept_memories (s : State) : memories (after s (execJctBeatAccept s)) = memories s := by
  simp [execJctBeatAccept]

@[simp] theorem jctRowWrite_memories (s : State) (ctx group row : Nat) :
    memories (jctRowWrite s ctx group row) = memories s := by
  unfold jctRowWrite
  (repeat' split) <;> simp

@[simp] theorem execJctRowWrite_memories (ctx group row : Nat) (s : State) :
    memories (after s (execJctRowWrite ctx group row s)) = memories s := by
  simp [execJctRowWrite]

@[simp] theorem jctFlush_memories (s : State) (ctx : Nat) : memories (jctFlush s ctx) = memories s := by simp [jctFlush]

@[simp] theorem execPipeJctStuck_memories (ctx group : Nat) (s : State) :
    memories (after s (execPipeJctStuck ctx group s)) = memories s := by
  unfold execPipeJctStuck
  split <;> simp

@[simp] theorem issueAllPrefetch_memories (c slot fuel : Nat) (s : State) :
    memories (issueAllPrefetch c slot fuel s) = memories s := by
  fun_induction issueAllPrefetch c slot fuel s <;> simp_all

@[simp] theorem execPhaseEnd_memories (ctx : Nat) (succ : Option Nat) (s : State) :
    memories (after s (execPhaseEnd ctx succ s)) = memories s := by
  unfold execPhaseEnd
  (repeat' split) <;> simp

@[simp] theorem planOpen_memories (s : State) (c slot : Nat) (e : ReshardEnt) :
    memories (planOpen s c slot e).1 = memories s := by
  unfold planOpen
  dsimp only
  (repeat' split) <;> simp

@[simp] theorem planOpens_memories (c slot : Nat) (l : List ReshardEnt) (s : State) :
    memories (planOpens c slot l s).1 = memories s := by
  fun_induction planOpens c slot l s with
  | case1 => rfl
  | case2 e r s t hopen ih => rw [ih, memories_of_fst hopen (planOpen_memories ..)]
  | case3 e r s t hopen => rw [memories_of_fst hopen (planOpen_memories ..)]

@[simp] theorem planStep_memories (s : State) (c slot : Nat) (im : Image) (t : Trans) (step : Nat) :
    memories (planStep s c slot im t step) = memories s := by
  simp [planStep]

@[simp] theorem execReshardStart_memories (ctx : Nat) (s : State) :
    memories (after s (execReshardStart ctx s)) = memories s := by
  unfold execReshardStart
  dsimp only [after_next]
  (repeat' split) <;> try simp
  all_goals exact memories_of_fst ‹_› (planOpens_memories ..)

@[simp] theorem startPhase_memories (s : State) (c slot q : Nat) (im : Image) :
    memories (startPhase s c slot q im) = memories s := by
  simp [startPhase]

@[simp] theorem execReshardStepComplete_memories (ctx : Nat) (s : State) :
    memories (after s (execReshardStepComplete ctx s)) = memories s := by
  unfold execReshardStepComplete
  (repeat' split) <;> simp

/-! ## Engine -/

@[simp] theorem setGroup_memories (s : State) (p g : Nat) (e : EngGroup) :
    memories (setGroup s p g e) = memories s := by
  rfl

@[simp] theorem execEngineDescriptorStart_memories (core group : Nat) (s : State) :
    memories (after s (execEngineDescriptorStart core group s)) = memories s := by
  unfold execEngineDescriptorStart
  dsimp only [after_next]
  (repeat' split) <;> try simp
  all_goals exact memories_of_fst ‹_› (eccScan_memories ..)

/-! ## Security -/

@[simp] theorem enterError_memories (s : State) : memories (enterError s) = memories s := by simp [enterError]
@[simp] theorem clearKeys_memories (s : State) : memories (clearKeys s) = memories s := by rfl
@[simp] theorem zeroise_memories (s : State) : memories (zeroise s) = memories s := by simp [zeroise]
@[simp] theorem tamper_memories (s : State) : memories (tamper s) = memories s := by simp [tamper]

@[simp] theorem execSecTamper_memories (s : State) : memories (after s (execSecTamper s)) = memories s := by
  simp [execSecTamper]

@[simp] theorem zeroiseWrite_memories (s : State) (value : Nat) : memories (zeroiseWrite s value) = memories s := by
  simp [zeroiseWrite]

@[simp] theorem execTlaogZeroise_memories (value : Word) (s : State) :
    memories (after s (execTlaogZeroise value s)) = memories s := by
  simp [execTlaogZeroise]

@[simp] theorem execPeriodicSelfTest_memories (pass : Bool) (s : State) :
    memories (after s (execPeriodicSelfTest pass s)) = memories s := by
  simp [execPeriodicSelfTest]

@[simp] theorem cakSelect_memories (s : State) (value : Nat) : memories (cakSelect s value) = memories s := by rfl

@[simp] theorem cakWord_memories (s : State) (value : Word) : memories (cakWord s value) = memories s := by
  simp [cakWord]

@[simp] theorem execTlaogCakData_memories (value : Word) (s : State) :
    memories (after s (execTlaogCakData value s)) = memories s := by
  simp [execTlaogCakData]

/-! ## SetDev -/

@[simp] theorem mirrorDone_memories (s : State) (rq : Req) (ok : Bool) :
    memories (mirrorDone s rq ok) = memories s := by
  unfold mirrorDone
  split <;> simp

@[simp] theorem sendCopies_memories (rq : Req) (l : List (Nat × Nat × Bytes)) (s : State)
    (m : List (Nat × Nat × Bytes)) :
    memories (sendCopies rq l s m).1 = memories s := by
  fun_induction sendCopies rq l s m <;> simp_all

@[simp] theorem sendMirrors_memories (s : State) : memories (sendMirrors s) = memories s := by simp [sendMirrors]

@[simp] theorem mirrorWrite_memories (s : State) (rq : Req) (data : Bytes) :
    memories (mirrorWrite s rq data) = memories s := by
  simp [mirrorWrite]

@[simp] theorem holdReport_memories (s : State) (rq : Req) (nonce report : Bytes) (off len : Nat) (st : Status)
    (r : Reason) :
    memories (holdReport s rq nonce report off len st r) = memories s := by
  simp [holdReport]

@[simp] theorem finishAggregate_memories (s : State) (a : Aggregate) : memories (finishAggregate s a) = memories s := by
  unfold finishAggregate
  split <;> simp

@[simp] theorem updateAggregate_memories (p : Nat × Aggregate → Bool) (f : Aggregate → Aggregate) (s : State) :
    memories (updateAggregate p f s) = memories s := by
  unfold updateAggregate
  split <;> simp

@[simp] theorem formReport_memories (s : State) (rq : Req) (nonce : Bytes) (off len : Nat) (x : Ctx) :
    memories (formReport s rq nonce off len x) = memories s := by
  simp [formReport]

@[simp] theorem execAttest_memories (rq : Req) (nonce : Bytes) (off len : Nat) (s : State) :
    memories (after s (execAttest rq nonce off len s)) = memories s := by
  unfold execAttest
  dsimp only [after_next]
  split
  · rfl
  · (repeat' split) <;> try simp
    refine onCtx_memories _ _ _ _ fun x => ?_
    (repeat' split) <;> simp

@[simp] theorem execAttestReportTimeout_memories (ctx peer : Nat) (s : State) :
    memories (after s (execAttestReportTimeout ctx peer s)) = memories s := by
  simp [execAttestReportTimeout]

@[simp] theorem gatherReport_memories (s : State) : memories (gatherReport s) = memories s := by
  unfold gatherReport
  split <;> simp

@[simp] theorem settleOut_memories (s : State) (w : RemoteOut) (st : Status) (r : Reason) :
    memories (settleOut s w st r) = memories s := by
  unfold settleOut
  (repeat' split) <;> simp

@[simp] theorem applyEntry_memories (i : Nat) (s : State) (e : Nat × Status × Reason) :
    memories (applyEntry i s e) = memories s := by
  unfold applyEntry
  dsimp only
  (repeat' split) <;> simp

@[simp] theorem applyLink_memories (s : State) (i link : Nat) : memories (applyLink s i link) = memories s := by
  simp [applyLink]

@[simp] theorem execRemoteWriteRetransmit_memories (peer : Nat) (s : State) :
    memories (after s (execRemoteWriteRetransmit peer s)) = memories s := by
  simp [execRemoteWriteRetransmit]

@[simp] theorem settlementPacket_memories (s : State) (i : Nat) : memories (settlementPacket s i) = memories s := by
  simp [settlementPacket]

@[simp] theorem execSettlementPacket_memories (peer : Nat) (s : State) :
    memories (after s (execSettlementPacket peer s)) = memories s := by
  simp [execSettlementPacket]

@[simp] theorem denyRemote_memories (s : State) (h : WinHdr) : memories (denyRemote s h) = memories s := by
  unfold denyRemote
  split <;> simp

@[simp] theorem peerUp_memories (s : State) (i : Nat) : memories (peerUp s i) = memories s := by simp [peerUp]

@[simp] theorem dropCopies_memories (s : State) (i : Nat) : memories (dropCopies s i) = memories s := by
  simp [dropCopies]

@[simp] theorem dropMember_memories (i fuel : Nat) (s : State) : memories (dropMember i fuel s) = memories s := by
  fun_induction dropMember i fuel s <;> simp_all

@[simp] theorem sendHello_memories (s : State) (i mode : Nat) (tail : Bytes) :
    memories (sendHello s i mode tail) = memories s := by
  simp [sendHello]

@[simp] theorem execSetSessionOpen_memories (peer : Nat) (s : State) :
    memories (after s (execSetSessionOpen peer s)) = memories s := by
  simp [execSetSessionOpen]

@[simp] theorem execSetRefresh_memories (peer : Nat) (s : State) :
    memories (after s (execSetRefresh peer s)) = memories s := by
  simp [execSetRefresh]

@[simp] theorem execHelloRefresh_memories (rq : Req) (s : State) :
    memories (after s (execHelloRefresh rq s)) = memories s := by
  simp [execHelloRefresh]

@[simp] theorem clearCrossing_memories (s : State) (k : Nat) : memories (clearCrossing s k) = memories s := by rfl

@[simp] theorem installTrunk_memories (s : State) (k a : Nat) : memories (installTrunk s k a) = memories s := by
  simp [installTrunk]

@[simp] theorem installBranch_memories (s : State) (k a b : Nat) : memories (installBranch s k a b) = memories s := by
  simp [installBranch]

@[simp] theorem execCrossingInstall_memories (k : Nat) (a b : Word) (s : State) :
    memories (after s (execCrossingInstall k a b s)) = memories s := by
  simp [execCrossingInstall]

/-! ## Power -/

@[simp] theorem voteCommand_memories (s : State) (rq : Req) (client domains : Nat) (cast : Bool) :
    memories (voteCommand s rq client domains cast) = memories s := by
  simp [voteCommand]

@[simp] theorem execPowerVoteCast_memories (rq : Req) (client domains : Nat) (s : State) :
    memories (after s (execPowerVoteCast rq client domains s)) = memories s := by
  simp [execPowerVoteCast]

@[simp] theorem execPowerVoteWithdraw_memories (rq : Req) (client domains : Nat) (s : State) :
    memories (after s (execPowerVoteWithdraw rq client domains s)) = memories s := by
  simp [execPowerVoteWithdraw]

@[simp] theorem execPowerStateGet_memories (rq : Req) (s : State) :
    memories (after s (execPowerStateGet rq s)) = memories s := by
  simp [execPowerStateGet]

@[simp] theorem enterStep2_memories (s : State) : memories (enterStep2 s) = memories s := by simp [enterStep2]
@[simp] theorem saveTables_memories (s : State) : memories (saveTables s) = memories s := by rfl
@[simp] theorem persistOdo_memories (s : State) : memories (persistOdo s) = memories s := by rfl

@[simp] theorem refuseEnter_memories (s : State) (rq : Req) (target : Nat) (who : Nat × Nat) :
    memories (refuseEnter s rq target who) = memories s := by
  simp [refuseEnter]

@[simp] theorem execPowerVoteEnter_memories (rq : Req) (client target : Nat) (s : State) :
    memories (after s (execPowerVoteEnter rq client target s)) = memories s := by
  unfold execPowerVoteEnter
  (repeat' split) <;> simp

@[simp] theorem execWakeNFall_memories (s : State) : memories (after s (execWakeNFall s)) = memories s := by
  unfold execWakeNFall
  split <;> simp

@[simp] theorem execDeepTimerExpire_memories (s : State) : memories (after s (execDeepTimerExpire s)) = memories s := by
  simp [execDeepTimerExpire]

@[simp] theorem execPwrMainEnMinimumLowEnd_memories (s : State) :
    memories (after s (execPwrMainEnMinimumLowEnd s)) = memories s := by
  simp [execPwrMainEnMinimumLowEnd]

@[simp] theorem execPwrOnMinimumLowEnd_memories (s : State) :
    memories (after s (execPwrOnMinimumLowEnd s)) = memories s := by
  simp [execPwrOnMinimumLowEnd]

@[simp] theorem execDeepExit_memories (ok : Bool) (s : State) :
    memories (after s (execDeepExit ok s)) = memories s := by
  simp [execDeepExit]

@[simp] theorem restoreCtx_memories (s : State) (c : Nat) : memories (restoreCtx s c) = memories s := by
  unfold restoreCtx
  split <;> simp

@[simp] theorem execTableRestore_memories (s : State) : memories (after s (execTableRestore s)) = memories s := by
  unfold execTableRestore
  split <;> simp

@[simp] theorem execCoreIdleGate_memories (core : Nat) (s : State) :
    memories (after s (execCoreIdleGate core s)) = memories s := by
  simp [execCoreIdleGate]

@[simp] theorem ungateBusy_memories (s : State) : memories (ungateBusy s) = memories s := by simp [ungateBusy]

@[simp] theorem domainDown_memories (s : State) (d : Nat) : memories (domainDown s d) = memories s := by
  simp [domainDown]

@[simp] theorem execDomainDelayExpire_memories (domain : Nat) (s : State) :
    memories (after s (execDomainDelayExpire domain s)) = memories s := by
  simp [execDomainDelayExpire]

@[simp] theorem boundEvents_memories (s : State) : memories (boundEvents s) = memories s := by simp [boundEvents]
@[simp] theorem setAclk_memories (s : State) (mhz : Nat) : memories (setAclk s mhz) = memories s := by simp [setAclk]

@[simp] theorem execEnvelopeGlide_memories (s : State) : memories (after s (execEnvelopeGlide s)) = memories s := by
  simp [execEnvelopeGlide]

@[simp] theorem execInt4Limit_memories (above : Bool) (s : State) :
    memories (after s (execInt4Limit above s)) = memories s := by
  simp [execInt4Limit]

@[simp] theorem execThermN_memories (temp : Nat) (s : State) : memories (after s (execThermN temp s)) = memories s := by
  simp [execThermN]

/-! ## Bridge -/

@[simp] theorem sendFrame_memories (s : State) (port : Nat) (d : Datagram) :
    memories (sendFrame s port d) = memories s := by
  rfl

@[simp] theorem bridge_memories (s : State) (d : Datagram) : memories (bridge s d) = memories s := by simp [bridge]

@[simp] theorem answerFrame_memories (s : State) (d : Datagram) : memories (answerFrame s d) = memories s := by
  unfold answerFrame
  split <;> simp

/-! ## Reliability -/

@[simp] theorem closeHome_memories (s : State) (p : Nat) : memories (closeHome s p) = memories s := by simp [closeHome]
@[simp] theorem haltCore_memories (s : State) (n : Nat) : memories (haltCore s n) = memories s := by rfl
@[simp] theorem fenceJob_memories (s : State) (n c : Nat) : memories (fenceJob s n c) = memories s := by simp [fenceJob]

@[simp] theorem moveFirmware_memories (s : State) (p m : Nat) (e : CvEntry) :
    memories (moveFirmware s p m e) = memories s := by
  simp [moveFirmware]

@[simp] theorem reissue_memories (s : State) (n : Nat) : memories (reissue s n) = memories s := by
  refine foldl_memories _ _ _ fun a e => ?_
  split <;> simp

@[simp] theorem loseUppers_memories (s : State) (n : Nat) : memories (loseUppers s n) = memories s := by
  simp [loseUppers]

@[simp] theorem refuseReloads_memories (s : State) : memories (refuseReloads s) = memories s := by simp [refuseReloads]

@[simp] theorem repairFails_memories (s : State) (n : Nat) (req : Option Req) :
    memories (repairFails s n req) = memories s := by
  unfold repairFails
  split <;> simp

@[simp] theorem execCoreRepair_memories (rq : Req) (core : Nat) (sound : Bool) (s : State) :
    memories (after s (execCoreRepair rq core sound s)) = memories s := by
  simp [execCoreRepair]

@[simp] theorem releaseDestroys_memories (s : State) : memories (releaseDestroys s) = memories s := by
  simp [releaseDestroys]

@[simp] theorem carryFence_memories (s : State) : memories (carryFence s) = memories s := by
  unfold carryFence
  (repeat' split) <;> simp

@[simp] theorem finishStage_memories (s : State) (rq : Req) (ty : Nat) (b : Bytes) :
    memories (finishStage s rq ty b) = memories s := by
  unfold finishStage
  split <;> simp

@[simp] theorem execFwStage_memories (rq : Req) (target total off : Nat) (data : Bytes) (s : State) :
    memories (after s (execFwStage rq target total off data s)) = memories s := by
  unfold execFwStage
  (repeat' split) <;> simp

@[simp] theorem execFwActivateArm_memories (rq : Req) (target cores : Nat) (s : State) :
    memories (after s (execFwActivateArm rq target cores s)) = memories s := by
  simp [execFwActivateArm]

@[simp] theorem execFwActivateConfirm_memories (rq : Req) (target : Nat) (s : State) :
    memories (after s (execFwActivateConfirm rq target s)) = memories s := by
  simp [execFwActivateConfirm]

@[simp] theorem execFwActivateDisarm_memories (rq : Req) (target : Nat) (s : State) :
    memories (after s (execFwActivateDisarm rq target s)) = memories s := by
  simp [execFwActivateDisarm]

@[simp] theorem execOdometerRead_memories (rq : Req) (cursor len : Nat) (s : State) :
    memories (after s (execOdometerRead rq cursor len s)) = memories s := by
  unfold execOdometerRead
  split <;> simp

@[simp] theorem execOdometerSample_memories (id value : Nat) (s : State) :
    memories (after s (execOdometerSample id value s)) = memories s := by
  simp [execOdometerSample]

@[simp] theorem hourlySamples_memories (s : State) : memories (hourlySamples s) = memories s := by simp [hourlySamples]

@[simp] theorem execHourUnitTick_memories (s : State) : memories (after s (execHourUnitTick s)) = memories s := by
  simp [execHourUnitTick]

@[simp] theorem execOdometerPersist_memories (s : State) : memories (after s (execOdometerPersist s)) = memories s := by
  simp [execOdometerPersist]

@[simp] theorem execCountersRead_memories (rq : Req) (select : Nat) (s : State) :
    memories (after s (execCountersRead rq select s)) = memories s := by
  simp [execCountersRead]

/-! ## Registers -/

@[simp] theorem clearWatch_memories (old s : State) : memories (clearWatch old s) = memories s := by rfl
@[simp] theorem ispStop_memories (s : State) (i : Nat) : memories (ispStop s i) = memories s := by simp [ispStop]

@[simp] theorem execPcieLinkDown_memories (s : State) : memories (after s (execPcieLinkDown s)) = memories s := by
  simp [execPcieLinkDown]

@[simp] theorem execPcieLinkUp_memories (gen width : Nat) (s : State) :
    memories (after s (execPcieLinkUp gen width s)) = memories s := by
  simp [execPcieLinkUp]

/-! ## Reset -/

@[simp] theorem takePolicy_memories (s : State) (slot : Nat) : memories (takePolicy s slot) = memories s := by
  unfold takePolicy
  split <;> simp

@[simp] theorem bootImages_memories (s : State) (slot : Nat) (selfTest : Bool) :
    memories (bootImages s slot selfTest) = memories s := by
  simp [bootImages]

@[simp] theorem bootOdometer_memories (s : State) (copies : List Bool) :
    memories (bootOdometer s copies) = memories s := by
  simp [bootOdometer]

@[simp] theorem bootDone_memories (s : State) : memories (bootDone s) = memories s := by simp [bootDone]
@[simp] theorem bootRecovery_memories (s : State) : memories (bootRecovery s) = memories s := by rfl

@[simp] theorem execDdrTrainingComplete_memories (failed step : Nat) (s : State) :
    memories (after s (execDdrTrainingComplete failed step s)) = memories s := by
  simp [execDdrTrainingComplete]

@[simp] theorem startSave_memories (s : State) (rq : Req) : memories (startSave s rq) = memories s := by rfl

@[simp] theorem execRstCfgSave_memories (rq : Req) (s : State) :
    memories (after s (execRstCfgSave rq s)) = memories s := by
  simp [execRstCfgSave]

@[simp] theorem carrySave_memories (s : State) : memories (carrySave s) = memories s := by simp [carrySave]

@[simp] theorem recSelect_memories (s : State) (value : Nat) : memories (recSelect s value).1 = memories s := by
  unfold recSelect
  split <;> simp

@[simp] theorem recWord_memories (s : State) (value : Nat) : memories (recWord s value).1 = memories s := by
  unfold recWord
  dsimp only
  (repeat' split) <;> simp

@[simp] theorem execRstRecSel_memories (rq : Req) (value : Word) (s : State) :
    memories (after s (execRstRecSel rq value s)) = memories s := by
  simp [execRstRecSel]

@[simp] theorem execRstRecData_memories (rq : Req) (value : Word) (s : State) :
    memories (after s (execRstRecData rq value s)) = memories s := by
  simp [execRstRecData]

/-! ## Receive -/

@[simp] theorem dropDatagram_memories (s : State) : memories (dropDatagram s) = memories s := by rfl

@[simp] theorem doorReply_memories (s : State) (rq : Req) (op ctx : Nat) (st : Status) (r : Reason) :
    memories (doorReply s rq op ctx st r) = memories s := by
  rfl

@[simp] theorem acceptCmd_memories (s : State) (d : Datagram) (h : Header) (rq : Req) (p : Bytes) :
    memories (acceptCmd s d h rq p) = memories s := by
  simp [acceptCmd]

@[simp] theorem admitCmd_memories (s : State) (d : Datagram) (h : Header) (rq : Req) (e : Option Session) (p : Bytes) :
    memories (admitCmd s d h rq e p) = memories s := by
  unfold admitCmd
  split <;> simp

@[simp] theorem duplicate_memories (s : State) (sid : Nat) (x : Session) (h : Header) (rq : Req) (p : Bytes) :
    memories (duplicate s sid x h rq p) = memories s := by
  unfold duplicate
  (repeat' split) <;> simp

@[simp] theorem openHello_memories (s : State) (d : Datagram) (h : Header) (rq : Req) (p : Bytes) :
    memories (openHello s d h rq p) = memories s := by
  unfold openHello
  dsimp only
  (repeat' split) <;> simp

@[simp] theorem refuseDispatch_memories (s : State) (e : QEntry) (st : Status) (r : Reason) :
    memories (refuseDispatch s e st r) = memories s := by
  simp [refuseDispatch]

@[simp] theorem dispatchEntry_memories (s : State) (e : QEntry) : memories (dispatchEntry s e) = memories s := by
  unfold dispatchEntry
  (repeat' split) <;> simp

@[simp] theorem execCommandDispatch_memories (s : State) : memories (after s (execCommandDispatch s)) = memories s := by
  unfold execCommandDispatch
  (repeat' split) <;> simp

/-! ## RegAccess -/

@[simp] theorem execRegRead_memories (rq : Req) (addr count : Nat) (s : State) :
    memories (after s (execRegRead rq addr count s)) = memories s := by
  simp [execRegRead]

@[simp] theorem execDeviceInfo_memories (rq : Req) (s : State) :
    memories (after s (execDeviceInfo rq s)) = memories s := by
  simp [execDeviceInfo]

/-! ## Idle -/

@[simp] theorem carryLanes_memories (s : State) : memories (carryLanes s) = memories s := by simp [carryLanes]
@[simp] theorem endWake_memories (s : State) : memories (endWake s) = memories s := by rfl

@[simp] theorem takeDispatched_memories (s : State) : memories (takeDispatched s) = memories s := by
  unfold takeDispatched
  split <;> simp

@[simp] theorem reportIbis_memories (s : State) : memories (reportIbis s) = memories s := by simp [reportIbis]

end Sys2Proof.Machine

/-!
PROOFS. Every step keeps the byte memories in canonical form (R147, R160): for each function of the model that writes a memory,
or calls one that does, that it keeps the canonical form.
-/

namespace Sys2Proof.Machine

/-- Memories in canonical form: what `Memory.wf` says of a state, said of its memories alone. -/
def Canonical (m : Ram × Tab Ram × Ext × Ext) : Prop :=
  memWf m.1.mem = true ∧ (∀ d ∈ m.2.1, memWf d.2.mem = true) ∧ memWf m.2.2.1.mem = true ∧ memWf m.2.2.2.mem = true

theorem wf_iff_canonical (s : State) : Memory.wf s = true ↔ Canonical (memories s) := Memory.wf_iff s

@[simp] theorem canonical_ite (p : Prop) [Decidable p] {s t : State} (hs : Canonical (memories s))
    (ht : Canonical (memories t)) : Canonical (if p then memories s else memories t) := by
  split <;> assumption

/-- The state of a pair is canonical when the first component of the pair is. -/
theorem canonical_of_fst {α : Type} {p : State × α} {t : State} {a : α} (e : p = (t, a))
    (h : Canonical (memories p.1)) : Canonical (memories t) := by
  rw [e] at h
  exact h

/-- A fold keeps the canonical form when each of its steps does. -/
theorem foldl_canonical {β : Type} (f : State → β → State) (l : List β) (s : State)
    (hf : ∀ a b, Canonical (memories a) → Canonical (memories (f a b))) (h : Canonical (memories s)) :
    Canonical (memories (l.foldl f s)) := by
  induction l generalizing s with
  | nil => exact h
  | cons b r ih => exact ih _ (hf s b h)

/-- The same for a fold that carries a value beside the state. -/
theorem foldl_fst_canonical {α β : Type} (f : State × α → β → State × α) (l : List β) (p : State × α)
    (hf : ∀ a b, Canonical (memories a.1) → Canonical (memories (f a b).1)) (h : Canonical (memories p.1)) :
    Canonical (memories (l.foldl f p).1) := by
  induction l generalizing p with
  | nil => exact h
  | cons b r ih => exact ih _ (hf p b h)

theorem exceptMap_eq_ok {ε α β : Type} {x : Except ε α} {f : α → β} {b : β} (h : x.map f = .ok b) :
    ∃ a, x = .ok a ∧ f a = b := by
  cases x with
  | error e => cases h
  | ok a => exact ⟨a, rfl, Except.ok.inj h⟩

theorem exceptBind_eq_ok {ε α β : Type} {x : Except ε α} {f : α → Except ε β} {b : β} (h : x.bind f = .ok b) :
    ∃ a, x = .ok a ∧ f a = .ok b := by
  cases x with
  | error e => cases h
  | ok a => exact ⟨a, rfl, h⟩

/-! ## The memories themselves -/

@[simp] theorem ramOf_canonical {s : State} (home : Nat) (hm : Canonical (memories s)) :
    memWf (ramOf s home).mem = true := ramOf_wf s home ((wf_iff_canonical s).mpr hm)

@[simp] theorem extOf_canonical {s : State} (tier : Nat) (hm : Canonical (memories s)) :
    memWf (extOf s tier).mem = true := extOf_wf s tier ((wf_iff_canonical s).mpr hm)

@[simp] theorem flashClear_mem (r : Ram) (lo hi : Nat) : (r.flashClear lo hi).mem = r.mem := rfl

/-- Narrow writes that land one after another keep the canonical form. -/
theorem narrowWrites_wf (l : List (Nat × Byte)) (r : Ram) (h : memWf r.mem = true) :
    memWf (l.foldl (fun r w => r.write w.1 [w.2]) r).mem = true := by
  induction l generalizing r with
  | nil => exact h
  | cons w t ih => exact ih _ (write_wf _ _ _ h)

/-- A table without one of its Decks keeps the canonical form. -/
theorem terase_canonical {t : Tab Ram} (k : Nat) (h : ∀ d ∈ t, memWf d.2.mem = true) :
    ∀ d ∈ terase t k, memWf d.2.mem = true := fun d hd => h d (List.mem_of_mem_filter hd)

/-! ## Commands of a context, of an object and of a stage -/

theorem onCtx_canonical {s : State} (rq : Req) (op : Nat) {k : Ctx → State} (hm : Canonical (memories s))
    (hk : ∀ x, Canonical (memories (k x))) : Canonical (memories (onCtx s rq op k)) := by
  unfold onCtx
  split
  · simpa using hm
  · exact hk _

theorem onObj_canonical {s : State} (rq : Req) (op h : Nat) {k : Ctx → Obj → State} (hm : Canonical (memories s))
    (hk : ∀ x o, Canonical (memories (k x o))) : Canonical (memories (onObj s rq op h k)) :=
  onCtx_canonical rq op hm fun x => by
    split
    · simpa using hm
    · exact hk _ _

theorem gateStream_canonical {s : State} (rq : Req) (op : Nat) (i : Instr) {k : Ctx → State}
    (hm : Canonical (memories s)) (hk : ∀ x, Canonical (memories (k x))) :
    Canonical (memories (gateStream s rq op i k)) :=
  onCtx_canonical rq op hm fun x => by
    split
    · simpa using hm
    · exact hk _

theorem withWords_canonical {s : State} (c slot core off n : Nat) {k : State → State} (hm : Canonical (memories s))
    (hk : ∀ t, Canonical (memories t) → Canonical (memories (k t))) :
    Canonical (memories (withWords s c slot core off n k)) := by
  have hscan : ∀ q, Canonical (memories (eccScan s (physOf s core) q).1) := fun q => by simpa using hm
  unfold withWords
  dsimp only
  split
  next t r h => rw [failJob_memories]; exact canonical_of_fst h (hscan _)
  next t h => exact hk _ (canonical_of_fst h (hscan _))

theorem onFirmware_canonical {s t : State} (c : Nat) (cmd : Instr) (hm : Canonical (memories s))
    (ht : Canonical (memories t)) : Canonical (memories (onFirmware s t c cmd)) := by
  unfold onFirmware
  split <;> simp [hm, ht]

/-! ## Ops -/

@[simp] theorem setRam_canonical (s : State) (home : Nat) (r : Ram) (hm : Canonical (memories s))
    (hr : memWf r.mem = true) :
    Canonical (memories (setRam s home r)) := by
  rw [← wf_iff_canonical] at hm ⊢
  exact setRam_wf s home r hm hr

/-- A write to the memory of a home keeps the canonical form. -/
@[simp] theorem ramWritten_canonical {s : State} (home a : Nat) (bs : Bytes) (hm : Canonical (memories s)) :
    Canonical (memories (setRam s home ((ramOf s home).write a bs))) :=
  setRam_canonical s home _ hm (write_wf _ _ _ (ramOf_canonical home hm))
/-- Narrow writes that land keep the canonical form. -/
@[simp] theorem narrowsWritten_canonical {s : State} (home : Nat) (l : List (Nat × Byte)) (hm : Canonical (memories s)) :
    Canonical (memories (setRam s home (l.foldl (fun r w => r.write w.1 [w.2]) (ramOf s home)))) :=
  setRam_canonical s home _ hm (narrowWrites_wf _ _ (ramOf_canonical home hm))

theorem firmwareWrite_canonical (s : State) (addr : Nat) (bs : Bytes) (hm : Canonical (memories s)) {t : State}
    (e : firmwareWrite s addr bs = .ok t) :
    Canonical (memories t) := by
  unfold firmwareWrite at e
  obtain ⟨a, -, e⟩ := exceptBind_eq_ok e
  obtain ⟨b, -, e⟩ := exceptBind_eq_ok e
  split at e
  · cases e; exact hm
  · split at e
    · cases e
      exact setRam_canonical _ _ _ hm (write_wf _ _ _ (ramOf_canonical _ hm))
    · cases e

/-- The memory of a home after the upset that strikes now: what `strike` makes of it. -/
def struck (s : State) (h : Nat) (r : Ram) : Ram :=
  match Config.upset s.draws with
  | some (k, w, soft) => if k = h then
      (if soft then { r with soft := insertNum w r.soft } else { r with bad := insertNum w r.bad }) else r
  | none => r

@[simp] theorem strike_canonical (s : State) (hm : Canonical (memories s)) : Canonical (memories (strike s)) := by
  obtain ⟨hspan, hdecks, ht3, ht4⟩ := hm
  have hhit : ∀ h r, (struck s h r).mem = r.mem := fun h r => by
    unfold struck
    (repeat' split) <;> rfl
  refine ⟨(congrArg memWf (hhit 9 s.span)).trans hspan, fun d hd => ?_, ht3, ht4⟩
  obtain ⟨e, he, rfl⟩ := List.mem_map.mp hd
  exact (congrArg memWf (hhit e.1 e.2)).trans (hdecks e he)

/-! ## Tiers -/

@[simp] theorem setExt_canonical (s : State) (tier : Nat) (e : Ext) (hm : Canonical (memories s))
    (he : memWf e.mem = true) :
    Canonical (memories (setExt s tier e)) := by
  rw [← wf_iff_canonical] at hm ⊢
  exact setExt_wf s tier e hm he

@[simp] theorem extWrite_canonical (s : State) (tier key : Nat) (sealed : Bool) (addr : Nat) (bs : Bytes)
    (hm : Canonical (memories s)) :
    Canonical (memories (extWrite s tier key sealed addr bs)) := by
  rw [← wf_iff_canonical] at hm ⊢
  exact extWrite_wf s tier key sealed addr bs hm

@[simp] theorem extFill_canonical (s : State) (tier key : Nat) (sealed : Bool) (first count : Nat)
    (hm : Canonical (memories s)) :
    Canonical (memories (extFill s tier key sealed first count)) := by
  rw [← wf_iff_canonical] at hm ⊢
  exact extFill_wf s tier key sealed first count hm

@[simp] theorem extErase_canonical (s : State) (tier first count : Nat) (sealed : Bool) (hm : Canonical (memories s)) :
    Canonical (memories (extErase s tier first count sealed)) := by
  rw [← wf_iff_canonical] at hm ⊢
  exact extErase_wf s tier first count sealed hm

@[simp] theorem extUntag_canonical (s : State) (tier first count : Nat) (hm : Canonical (memories s)) :
    Canonical (memories (extUntag s tier first count)) := by
  unfold extUntag
  exact setExt_canonical _ _ _ hm (extOf_canonical tier hm)

@[simp] theorem homeWrite_canonical (s : State) (x : Ctx) (o : Obj) (off : Nat) (bs : Bytes)
    (hm : Canonical (memories s)) :
    Canonical (memories (homeWrite s x o off bs)) := by
  rw [← wf_iff_canonical] at hm ⊢
  exact homeWrite_wf s x o off bs hm

@[simp] theorem upperWrite_canonical (s : State) (x : Ctx) (u : Upper) (i : Nat) (bs : Bytes)
    (hm : Canonical (memories s)) :
    Canonical (memories (upperWrite s x u i bs)) := by
  rw [← wf_iff_canonical] at hm ⊢
  exact upperWrite_wf s x u i bs hm

theorem codedWrite_canonical (s : State) (x : Ctx) (o : Obj) (i : Nat) (fresh : Bool) (strip tile : Bytes)
    (hm : Canonical (memories s)) {t : State} (e : codedWrite s x o i fresh strip tile = .ok t) :
    Canonical (memories t) := by
  unfold codedWrite at e
  split at e
  · cases e
  · extract_lets tiles new s1 stored flags sl p s2 s3 at e
    split at e
    · cases e
    · obtain rfl := Except.ok.inj e
      have h1 : Canonical (memories s1) := by
        unfold s1
        split <;> simp [hm]
      exact homeWrite_canonical _ _ _ _ _ (homeWrite_canonical _ _ _ _ _ (homeWrite_canonical _ _ _ _ _ h1))

theorem objTileWrite_canonical (s : State) (x : Ctx) (o : Obj) (i : Nat) (fresh : Bool) (strip tile : Bytes)
    (hm : Canonical (memories s)) {p : State × Obj} (e : objTileWrite s x o i fresh strip tile = .ok p) :
    Canonical (memories p.1) := by
  unfold objTileWrite at e
  split at e
  · cases e
  · split at e
    · obtain rfl := Except.ok.inj e
      simp [hm]
    · split at e
      · obtain rfl := Except.ok.inj e
        simp [hm]
      · obtain ⟨t, ht, rfl⟩ := exceptMap_eq_ok e
        exact codedWrite_canonical _ _ _ _ _ _ _ hm ht

@[simp] theorem writeBackTiles_canonical (s : State) (x : Ctx) (o : Obj) (u : Upper) (fuel i : Nat)
    (hm : Canonical (memories s)) :
    Canonical (memories (writeBackTiles s x o u fuel i).1) := by
  fun_induction writeBackTiles s x o u fuel i with
  | case1 => exact hm
  | case2 => exact hm
  | case3 => exact hm
  | case4 s n i b hread t o1 hwrite ih => exact ih (objTileWrite_canonical _ _ _ _ _ _ _ hm hwrite)

@[simp] theorem writeBack_canonical (s : State) (c : Nat) (x : Ctx) (o : Obj) (hm : Canonical (memories s)) :
    Canonical (memories (writeBack s c x o).1) := by
  unfold writeBack
  (repeat' split) <;> try exact hm
  · simpa using canonical_of_fst ‹_› (writeBackTiles_canonical _ _ _ _ _ _ hm)
  · exact writeBackTiles_canonical _ _ _ _ _ _ hm

/-! ## Windows -/

@[simp] theorem landFlight_canonical (s : State) (id : Nat) (f : Flight) (hm : Canonical (memories s)) :
    Canonical (memories (landFlight s id f)) := by
  have hland : Canonical (memories (setRam s f.home
      (landBytes (ramOf s f.home) (f.base * 256 + f.off) f.pitch f.row f.data))) :=
    setRam_canonical _ _ _ hm (landBytes_wf _ _ _ _ _ (ramOf_canonical _ hm))
  unfold landFlight
  dsimp only
  split <;> simpa using hland

/-! ## Objects -/

@[simp] theorem finishFill_canonical (s : State) (c h : Nat) (hm : Canonical (memories s)) :
    Canonical (memories (finishFill s c h)) := by
  unfold finishFill
  (repeat' split) <;> simp [hm]

@[simp] theorem saveUpper_canonical (s : State) (c h : Nat) (x : Ctx) (o : Obj) (hm : Canonical (memories s)) :
    Canonical (memories (saveUpper s c h x o).1) := by
  unfold saveUpper
  split
  · simpa using canonical_of_fst ‹_› (writeBack_canonical _ _ _ _ hm)
  · exact writeBack_canonical _ _ _ _ hm

@[simp] theorem releaseUpper_canonical (s : State) (c h : Nat) (o : Obj) (hm : Canonical (memories s)) :
    Canonical (memories (releaseUpper s c h o).1) := by
  unfold releaseUpper
  split
  · exact hm
  · split
    · simpa using canonical_of_fst ‹_› (saveUpper_canonical _ _ _ _ _ hm)
    · exact saveUpper_canonical _ _ _ _ _ hm

@[simp] theorem evictUpper_canonical (s : State) (c h : Nat) (o : Obj) (hm : Canonical (memories s)) :
    Canonical (memories (evictUpper s c h o).1) := by
  unfold evictUpper
  split
  · simpa using canonical_of_fst ‹_› (releaseUpper_canonical _ _ _ _ hm)
  · exact releaseUpper_canonical _ _ _ _ hm

@[simp] theorem dropPage_canonical (s : State) (c h : Nat) (o : Obj) (hm : Canonical (memories s)) :
    Canonical (memories (dropPage s c h o)) := by
  simp [dropPage, hm]

@[simp] theorem evict_canonical (s : State) (c tier core n : Nat) (stuck : List Nat) (fuel : Nat)
    (hm : Canonical (memories s)) :
    Canonical (memories (evict s c tier core n stuck fuel)) := by
  fun_induction evict s c tier core n stuck fuel with
  | case1 => exact hm
  | case2 => exact hm
  | case3 => exact hm
  | case4 s stuck fuel x hx hfits h o hold t hev ih => exact ih (canonical_of_fst hev (evictUpper_canonical _ _ _ _ hm))
  | case5 s stuck fuel x hx hfits h o hold t r hev ih => exact ih (canonical_of_fst hev (evictUpper_canonical _ _ _ _ hm))
  | case6 s stuck fuel x hx hfits hold h3 h o hpage ih => exact ih (dropPage_canonical _ _ _ _ hm)
  | case7 => exact hm
  | case8 => exact hm

@[simp] theorem makeRoom_canonical (s : State) (c tier core n : Nat) (hm : Canonical (memories s)) :
    Canonical (memories (makeRoom s c tier core n).1) := by
  unfold makeRoom
  split <;> simp [hm]

@[simp] theorem allocObj_canonical (s : State) (c : Nat) (o : Obj) (loc : Nat) (hm : Canonical (memories s)) :
    Canonical (memories (allocObj s c o loc).1) := by
  have hroom : ∀ t n, Canonical (memories (makeRoom s c t 0 n).1) := fun t n => makeRoom_canonical _ _ _ _ _ hm
  unfold allocObj
  dsimp only
  split
  · exact hm
  · split
    · exact hm
    · split
      · split <;> simp [hm]
      · split
        · exact hm
        · split
          next h => exact canonical_of_fst h (hroom _ _)
          next t h =>
            have ht : Canonical (memories t) := canonical_of_fst h (hroom _ _)
            split
            · exact ht
            · split <;> simp [ht]

@[simp] theorem objWriteDo_canonical (s : State) (c handle off : Nat) (data : Bytes) (x : Ctx) (o : Obj)
    (hm : Canonical (memories s)) :
    Canonical (memories (objWriteDo s c handle off data x o)) := by
  simp [objWriteDo, hm]

theorem copyUp_canonical (s : State) (x : Ctx) (o : Obj) (u : Upper) (fuel i : Nat) (hm : Canonical (memories s))
    {t : State} (e : copyUp s x o u fuel i = .ok t) :
    Canonical (memories t) := by
  fun_induction copyUp s x o u fuel i with
  | case1 => cases e; exact hm
  | case2 => cases e
  | case3 s n i b t ht ih => exact ih (upperWrite_canonical _ _ _ _ _ hm) e

@[simp] theorem placeObj_canonical (s : State) (c h tier core : Nat) (o : Obj) (hm : Canonical (memories s)) :
    Canonical (memories (placeObj s c h tier core o).1) := by
  unfold placeObj
  dsimp only
  split
  next h => exact canonical_of_fst h (makeRoom_canonical _ _ _ _ _ hm)
  next t h =>
    have ht : Canonical (memories t) := canonical_of_fst h (makeRoom_canonical _ _ _ _ _ hm)
    split
    · exact ht
    · split
      · exact ht
      · split
        · simpa using ht
        next u hcopy =>
          have hu : Canonical (memories u) := copyUp_canonical _ _ _ _ _ _ (by split <;> simp [ht]) hcopy
          simpa using hu

/-! ## Images -/

theorem allocAll_canonical (s : State) (c : Nat) (l : List Manifest) (hm : Canonical (memories s))
    {p : State × List Nat} (e : allocAll s c l = .ok p) :
    Canonical (memories p.1) := by
  fun_induction allocAll s c l generalizing p with
  | case1 => cases e; exact hm
  | case2 => cases e
  | case3 => cases e
  | case4 s m r o hcheck t h halloc ih =>
    obtain ⟨q, hq, rfl⟩ := exceptMap_eq_ok e
    have hfirst := ih (canonical_of_fst halloc (allocObj_canonical _ _ _ _ hm)) hq
    exact hfirst

@[simp] theorem clearShares_canonical (s : State) (shares : Tab (Nat × Nat)) (hm : Canonical (memories s)) :
    Canonical (memories (clearShares s shares)) := by
  unfold clearShares
  exact foldl_canonical _ _ _ (fun a b ha => setRam_canonical _ _ _ ha (ramOf_canonical _ ha)) hm

theorem copyPrograms_canonical (s : State) (core row : Nat) (programs : Bytes) (l : List StageEnt)
    (hm : Canonical (memories s)) {t : State} (e : copyPrograms s core row programs l = .ok t) :
    Canonical (memories t) := by
  fun_induction copyPrograms s core row programs l with
  | case1 => cases e; exact hm
  | case2 s row p r ih =>
    obtain ⟨t, ht, e⟩ := exceptBind_eq_ok e
    exact ih t (firmwareWrite_canonical _ _ _ hm ht) e

theorem copyAllPrograms_canonical (t : Tables) (shares : Tab (Nat × Nat)) (l : List Nat) (s : State)
    (hm : Canonical (memories s)) {u : State} (e : copyAllPrograms t shares l s = .ok u) :
    Canonical (memories u) := by
  induction l generalizing s with
  | nil => cases e; exact hm
  | cons n r ih =>
    unfold copyAllPrograms at e
    split at e
    · obtain ⟨v, hv, e⟩ := exceptBind_eq_ok e
      exact ih v (copyPrograms_canonical _ _ _ _ _ hm hv) e
    · exact ih _ hm e

theorem grantImage_canonical (s : State) (c slot : Nat) (x : Ctx) (t : Tables) (shares : Tab (Nat × Nat)) (im : Image)
    (hm : Canonical (memories s)) {u : State} (e : grantImage s c slot x t shares im = .ok u) :
    Canonical (memories u) := by
  unfold grantImage at e
  obtain ⟨v, hv, rfl⟩ := exceptMap_eq_ok e
  have hplaced : Canonical (memories v) := by
    split at hv
    · cases hv; exact hm
    · exact copyAllPrograms_canonical _ _ _ _ (clearShares_canonical _ _ hm) hv
  simpa using hplaced

@[simp] theorem loadObjects_canonical (s : State) (c slot image : Nat) (x : Ctx) (b : Bytes) (ss : List Section)
    (t : Tables) (hs : List Nat) (shares : Tab (Nat × Nat)) (hm : Canonical (memories s)) :
    Canonical (memories (loadObjects s c slot image x b ss t hs shares).1) := by
  unfold loadObjects
  dsimp only
  split
  next h => exact canonical_of_fst h (makeRoom_canonical _ _ _ _ _ hm)
  next v h =>
    have hv : Canonical (memories v) := canonical_of_fst h (makeRoom_canonical _ _ _ _ _ hm)
    split
    next h2 => exact canonical_of_fst h2 (makeRoom_canonical _ _ _ _ _ hv)
    next w h2 =>
      have hw : Canonical (memories w) := canonical_of_fst h2 (makeRoom_canonical _ _ _ _ _ hv)
      split
      · exact hw
      · split
        · exact hw
        next q hq => exact grantImage_canonical _ _ _ _ _ _ _ (allocAll_canonical _ _ _ hw ‹_›) hq

@[simp] theorem loadGrant_canonical (s : State) (c slot image : Nat) (x : Ctx) (b : Bytes) (ss : List Section)
    (t : Tables) (hs : List Nat) (hm : Canonical (memories s)) :
    Canonical (memories (loadGrant s c slot image x b ss t hs).1) := by
  unfold loadGrant
  dsimp only
  (repeat' split) <;> simp [hm]

@[simp] theorem loadChecks_canonical (s : State) (c slot image : Nat) (x : Ctx) (b : Bytes) (hs : Option (List Nat))
    (hm : Canonical (memories s)) :
    Canonical (memories (loadChecks s c slot image x b hs).1) := by
  unfold loadChecks
  extract_lets ss t
  (repeat' split) <;> simp [hm]

@[simp] theorem storeHandles_canonical (s : State) (c list n : Nat) (as : List Nat) (hm : Canonical (memories s)) :
    Canonical (memories (storeHandles s c list n as)) := by
  unfold storeHandles
  (repeat' split) <;> simp [hm]

@[simp] theorem saveUppers_canonical (c : Nat) (l : List (Nat × Obj)) (s : State) (hm : Canonical (memories s)) :
    Canonical (memories (saveUppers c l s).1) := by
  fun_induction saveUppers c l s with
  | case1 => exact hm
  | case2 => exact hm
  | case3 h o r s x hx t hsave ih => exact ih (canonical_of_fst hsave (saveUpper_canonical _ _ _ _ _ hm))
  | case4 => exact saveUpper_canonical _ _ _ _ _ hm

/-! ## Camera -/

@[simp] theorem outWrite_canonical (s : State) (i m no : Nat) (q : OutEnv) (off : Nat) (b : Bytes)
    (hm : Canonical (memories s)) :
    Canonical (memories (outWrite s i m no q off b)) := by
  unfold outWrite
  split
  · exact hm
  · dsimp only
    split
    · refine foldl_canonical _ _ _ (fun a w ha => ?_) hm
      (repeat' split) <;> simp [ha]
    · (repeat' split) <;> simp [hm]

@[simp] theorem writeUnit_canonical (s : State) (i m no : Nat) (g : Frame) (u : Nat) (hm : Canonical (memories s)) :
    Canonical (memories (writeUnit s i m no g u)) := by
  unfold writeUnit
  refine foldl_canonical _ _ _ (fun a q ha => ?_) hm
  extract_lets lost ps base
  split
  · exact ha
  · exact foldl_canonical _ _ _ (fun b j hb => foldl_canonical _ _ _ (fun d w hd => outWrite_canonical _ _ _ _ _ _ _ hd) hb) ha

@[simp] theorem execIspUnitComplete_canonical (isp : Nat) (s : State) (hm : Canonical (memories s)) :
    Canonical (memories (after s (execIspUnitComplete isp s))) := by
  unfold execIspUnitComplete
  rw [after_next]
  split
  · exact hm
  · split
    · exact hm
    · extract_lets s1
      split
      · exact hm
      · rw [settleUsers_memories, modUser_memories]
        split
        · exact hm
        · exact writeUnit_canonical _ _ _ _ _ _ hm

/-! ## ImageCmds -/

@[simp] theorem execImageLoad_canonical (rq : Req) (image list bindCount : Nat) (handles : List Nat) (s : State)
    (hm : Canonical (memories s)) :
    Canonical (memories (after s (execImageLoad rq image list bindCount handles s))) := by
  unfold execImageLoad
  rw [after_next]
  refine onCtx_canonical _ _ hm fun x => ?_
  split
  · split <;> simp [hm]
  · dsimp only
    split
    · simpa using hm
    · split
      · simpa using hm
      · refine onFirmware_canonical _ _ hm ?_
        split
        next h => simpa using canonical_of_fst h (loadChecks_canonical _ _ _ _ _ _ _ hm)
        next h => simpa using storeHandles_canonical _ _ _ _ _ (canonical_of_fst h (loadChecks_canonical _ _ _ _ _ _ _ hm))

@[simp] theorem unloadDone_canonical (s : State) (c slot : Nat) (im : Image) (rq : Req) (hm : Canonical (memories s)) :
    Canonical (memories (unloadDone s c slot im rq)) := by
  have hsave : ∀ l, Canonical (memories (saveUppers c l s).1) := fun l => saveUppers_canonical c l s hm
  unfold unloadDone
  dsimp only
  split
  · simpa using canonical_of_fst ‹_› (hsave _)
  · simpa using canonical_of_fst ‹_› (hsave _)

@[simp] theorem finishUnload_canonical (s : State) (c : Nat) (hm : Canonical (memories s)) :
    Canonical (memories (finishUnload s c)) := by
  unfold finishUnload
  split
  · exact hm
  · refine foldl_canonical _ _ _ (fun a b ha => ?_) hm
    (repeat' split) <;> simp [ha]

@[simp] theorem execImageUnload_canonical (rq : Req) (slot : Nat) (s : State) (hm : Canonical (memories s)) :
    Canonical (memories (after s (execImageUnload rq slot s))) := by
  unfold execImageUnload
  rw [after_next]
  refine onCtx_canonical _ _ hm fun x => ?_
  dsimp only
  (repeat' split) <;> simp [hm]

/-! ## ObjectCmds -/

@[simp] theorem execObjAlloc_canonical (rq : Req) (flags tilesM1 storedM1 loc : Nat) (s : State)
    (hm : Canonical (memories s)) :
    Canonical (memories (after s (execObjAlloc rq flags tilesM1 storedM1 loc s))) := by
  unfold execObjAlloc
  rw [after_next]
  refine onCtx_canonical _ _ hm fun x => ?_
  dsimp only
  split
  · simpa using hm
  · refine onFirmware_canonical _ _ hm ?_
    split
    · simpa using canonical_of_fst ‹_› (allocObj_canonical _ _ _ _ hm)
    · simpa using canonical_of_fst ‹_› (allocObj_canonical _ _ _ _ hm)

@[simp] theorem execObjRead_canonical (rq : Req) (handle len off : Nat) (s : State) (hm : Canonical (memories s)) :
    Canonical (memories (after s (execObjRead rq handle len off s))) := by
  unfold execObjRead
  rw [after_next]
  refine onObj_canonical _ _ _ hm fun x o => ?_
  split
  · simpa using hm
  · split
    · simpa using hm
    · refine onFirmware_canonical _ _ hm ?_
      split
      · simpa using canonical_of_fst ‹_› (saveUpper_canonical _ _ _ _ _ hm)
      next t hsave =>
        have ht : Canonical (memories t) := canonical_of_fst hsave (saveUpper_canonical _ _ _ _ _ hm)
        dsimp only
        split <;> simp [ht]

@[simp] theorem placeReply_canonical (s : State) (rq : Req) (handle tier core : Nat) (o : Obj)
    (hm : Canonical (memories s)) :
    Canonical (memories (placeReply s rq handle tier core o)) := by
  unfold placeReply
  split
  · simpa using canonical_of_fst ‹_› (placeObj_canonical _ _ _ _ _ _ hm)
  · simpa using canonical_of_fst ‹_› (placeObj_canonical _ _ _ _ _ _ hm)

@[simp] theorem execObjPlacePlace_canonical (rq : Req) (handle tier core : Nat) (s : State)
    (hm : Canonical (memories s)) :
    Canonical (memories (after s (execObjPlacePlace rq handle tier core s))) := by
  unfold execObjPlacePlace
  rw [after_next]
  refine onObj_canonical _ _ _ hm fun x o => ?_
  split
  · simpa using hm
  · split
    · simpa using hm
    · split
      · split
        · simpa using hm
        · split
          · simpa using hm
          · refine onFirmware_canonical _ _ hm ?_
            split
            · simpa using canonical_of_fst ‹_› (releaseUpper_canonical _ _ _ _ hm)
            · exact placeReply_canonical _ _ _ _ _ _ (canonical_of_fst ‹_› (releaseUpper_canonical _ _ _ _ hm))
      · exact onFirmware_canonical _ _ hm (placeReply_canonical _ _ _ _ _ _ hm)

@[simp] theorem execObjPlaceRemove_canonical (rq : Req) (handle : Nat) (s : State) (hm : Canonical (memories s)) :
    Canonical (memories (after s (execObjPlaceRemove rq handle s))) := by
  unfold execObjPlaceRemove
  rw [after_next]
  refine onObj_canonical _ _ _ hm fun x o => ?_
  split
  · simpa using hm
  · refine onFirmware_canonical _ _ hm ?_
    split
    · simpa using canonical_of_fst ‹_› (releaseUpper_canonical _ _ _ _ hm)
    · simpa using canonical_of_fst ‹_› (releaseUpper_canonical _ _ _ _ hm)

@[simp] theorem execZeroFillComplete_canonical (ctx handle : Nat) (s : State) (hm : Canonical (memories s)) :
    Canonical (memories (after s (execZeroFillComplete ctx handle s))) := by
  simp [execZeroFillComplete, hm]

/-! ## Landing -/

@[simp] theorem landAndTell_canonical (s : State) (id : Nat) (hm : Canonical (memories s)) :
    Canonical (memories (landAndTell s id)) := by
  unfold landAndTell
  split <;> simp [hm]

/-! ## Contexts -/

@[simp] theorem parkUppers_canonical (c : Nat) (l : List (Nat × Obj)) (s : State) (hm : Canonical (memories s)) :
    Canonical (memories (parkUppers c l s).1) := by
  fun_induction parkUppers c l s with
  | case1 => exact hm
  | case2 h o r s t hrel ih =>
    exact ih (by simpa using canonical_of_fst hrel (releaseUpper_canonical _ _ _ _ hm))
  | case3 h o r s hrel => exact releaseUpper_canonical _ _ _ _ hm

@[simp] theorem parkDone_canonical (s : State) (c : Nat) (x : Ctx) (rq : Req) (hm : Canonical (memories s)) :
    Canonical (memories (parkDone s c x rq)) := by
  have hpark : ∀ l, Canonical (memories (parkUppers c l s).1) := fun l => parkUppers_canonical c l s hm
  unfold parkDone
  split
  · simpa using canonical_of_fst ‹_› (hpark _)
  · simpa using canonical_of_fst ‹_› (hpark _)

@[simp] theorem finishPark_canonical (s : State) (c : Nat) (hm : Canonical (memories s)) :
    Canonical (memories (finishPark s c)) := by
  unfold finishPark
  (repeat' split) <;> simp [hm]

@[simp] theorem settle_canonical (s : State) (c : Nat) (hm : Canonical (memories s)) :
    Canonical (memories (settle s c)) := by
  simp [settle, hm]

@[simp] theorem execPreemptionPoint_canonical (core slot : Nat) (s : State) (hm : Canonical (memories s)) :
    Canonical (memories (after s (execPreemptionPoint core slot s))) := by
  unfold execPreemptionPoint
  split <;> simp [hm]

@[simp] theorem execPreemptPark_canonical (rq : Req) (s : State) (hm : Canonical (memories s)) :
    Canonical (memories (after s (execPreemptPark rq s))) := by
  unfold execPreemptPark
  rw [after_next]
  extract_lets t
  have ht : Canonical (memories t) := by
    refine onCtx_canonical _ _ hm fun x => ?_
    split
    · simpa using hm
    · refine onFirmware_canonical _ _ hm ?_
      have hroom := makeRoom_canonical s rq.ctx 3 0 (parkGranules x) hm
      split
      next h => simpa using canonical_of_fst h hroom
      next v h => simpa using canonical_of_fst h hroom
  split <;> simp [ht]

theorem restorePrograms_canonical (c : Nat) (l : List (Nat × Nat × Bytes)) (s : State) (hm : Canonical (memories s))
    {t : State} (e : restorePrograms c l s = .ok t) :
    Canonical (memories t) := by
  fun_induction restorePrograms c l s with
  | case1 => cases e; exact hm
  | case2 r rest s sh hsh ih =>
    obtain ⟨v, hv, e⟩ := exceptBind_eq_ok e
    exact ih v (by simpa using firmwareWrite_canonical _ _ _ hm hv) e
  | case3 r rest s hsh ih => exact ih hm e

@[simp] theorem restoreUppers_canonical (s : State) (c : Nat) (uppers : List (Nat × Nat × Nat))
    (hm : Canonical (memories s)) :
    Canonical (memories (restoreUppers s c uppers)) := by
  unfold restoreUppers
  refine foldl_canonical _ _ _ (fun a b ha => ?_) hm
  (repeat' split) <;> simp [ha]

theorem bringIn_canonical (s : State) (c : Nat) (x : Ctx) (hm : Canonical (memories s)) {t : State}
    (e : bringIn s c x = .ok t) :
    Canonical (memories t) := by
  unfold bringIn at e
  obtain ⟨v, hv, rfl⟩ := exceptMap_eq_ok e
  have hshares := foldl_canonical (fun a e => clearShares a e.2.shares) ((tget s.ctxs {} c).images) s
    (fun a e ha => clearShares_canonical _ _ ha) hm
  have hprograms : Canonical (memories v) := restorePrograms_canonical _ _ _ (by simpa using hshares) hv
  simpa using restoreUppers_canonical _ _ _ hprograms

@[simp] theorem execBringIn_canonical (ctx : Nat) (s : State) (hm : Canonical (memories s)) :
    Canonical (memories (after s (execBringIn ctx s))) := by
  unfold execBringIn
  rw [after_next]
  split
  · exact hm
  · split
    · exact hm
    · split
      · exact hm
      · split
        · simpa using hm
        · split
          · simpa using hm
          · split
            · simpa using hm
            next u hu =>
              have hplaced : Canonical (memories u) := by rw [placeAll_memories _ _ hu]; exact hm
              split
              · simpa using hm
              next v hv =>
                split
                · simpa using bringIn_canonical _ _ _ hplaced hv
                · exact hm

/-! ## Arrivals -/

@[simp] theorem settleAll_canonical (s : State) (hm : Canonical (memories s)) : Canonical (memories (settleAll s)) := by
  unfold settleAll
  exact foldl_canonical _ _ _ (fun a b ha => by simp [ha]) hm

@[simp] theorem execWindowWriteLand_canonical (flight : Nat) (s : State) (hm : Canonical (memories s)) :
    Canonical (memories (after s (execWindowWriteLand flight s))) := by
  simp [execWindowWriteLand, hm]

@[simp] theorem execWinCloseComplete_canonical (space entry : Nat) (s : State) (hm : Canonical (memories s)) :
    Canonical (memories (after s (execWinCloseComplete space entry s))) := by
  simp [execWinCloseComplete, hm]

@[simp] theorem execViewFence_canonical (core slot : Nat) (s : State) (hm : Canonical (memories s)) :
    Canonical (memories (after s (execViewFence core slot s))) := by
  unfold execViewFence
  dsimp only [after_next]
  (repeat' split) <;> simp [hm]

@[simp] theorem execSpanBankPowerUp_canonical (bank : Nat) (s : State) (hm : Canonical (memories s)) :
    Canonical (memories (after s (execSpanBankPowerUp bank s))) := by
  have hclear : Canonical (memories { s with
      span := s.span.flashClear (bank * 8192) (bank * 8192 + 8192),
      pwr := { s.pwr with up := s.pwr.up ||| (1 <<< (16 + bank)) } }) := hm
  unfold execSpanBankPowerUp
  rw [after_next]
  split
  · exact hm
  · refine settleAll_canonical _ ?_
    rw [releaseWork_memories, retryWaits_memories]
    exact hclear

/-! ## Convoy -/

@[simp] theorem landObject_canonical (s : State) (p q : Nat) (x : Ctx) (e : CvEntry) (d : CvDesc) (i : Nat)
    (strip t : Bytes) (hm : Canonical (memories s)) :
    Canonical (memories (landObject s p q x e d i strip t)) := by
  unfold landObject
  dsimp only
  split
  · simpa using hm
  · split
    · simpa using hm
    next hw => simpa using objTileWrite_canonical _ _ _ _ _ _ _ hm hw

@[simp] theorem execConvoyTileLand_canonical (core queue : Nat) (s : State) (hm : Canonical (memories s)) :
    Canonical (memories (after s (execConvoyTileLand core queue s))) := by
  unfold execConvoyTileLand
  dsimp only
  (repeat' split) <;> simp [hm]

@[simp] theorem execConvoyDescriptorComplete_canonical (core queue : Nat) (s : State) (hm : Canonical (memories s)) :
    Canonical (memories (after s (execConvoyDescriptorComplete core queue s))) := by
  unfold execConvoyDescriptorComplete
  dsimp only
  (repeat' split) <;> simp [hm]

/-! ## Kv -/

@[simp] theorem execKvSeqFork_canonical (rq : Req) (child parent pfx : Nat) (geom : KvGeom) (s : State)
    (hm : Canonical (memories s)) :
    Canonical (memories (after s (execKvSeqFork rq child parent pfx geom s))) := by
  unfold execKvSeqFork
  rw [after_next]
  refine onCtx_canonical _ _ hm fun x => ?_
  extract_lets old g copied
  split
  · simpa using hm
  · split
    · simpa using hm
    · split
      · simpa using hm
      · split
        · simpa using hm
        · refine onFirmware_canonical _ _ hm ?_
          split
          next h => simpa using canonical_of_fst h (makeRoom_canonical _ _ _ _ _ hm)
          next h => simpa using canonical_of_fst h (makeRoom_canonical _ _ _ _ _ hm)

@[simp] theorem copyTiles_canonical (x : Ctx) (a b : Obj) (fuel i : Nat) (s : State) (hm : Canonical (memories s)) :
    Canonical (memories (copyTiles x a b fuel i s).1) := by
  fun_induction copyTiles x a b fuel i s with
  | case1 => exact hm
  | case2 => exact hm
  | case3 => exact hm
  | case4 n i s c t hread u o hwrite ih => exact ih (objTileWrite_canonical _ _ _ _ _ _ _ hm hwrite)

@[simp] theorem copyPage_canonical (s : State) (c old new : Nat) (hm : Canonical (memories s)) :
    Canonical (memories (copyPage s c old new)) := by
  unfold copyPage
  split
  · exact hm
  · split
    next hold hnew =>
      dsimp only
      split
      next h => simpa using canonical_of_fst h (copyTiles_canonical _ _ _ _ _ _ hm)
      next h => simpa using canonical_of_fst h (copyTiles_canonical _ _ _ _ _ _ hm)
    · exact hm

@[simp] theorem walkEntry_canonical (s : State) (c q key : Nat) (g : KvGeom) (fmt : Nat) (pte : Pte)
    (hm : Canonical (memories s)) :
    Canonical (memories (walkEntry s c q key g fmt pte).1) := by
  unfold walkEntry
  extract_lets fresh
  have hfresh : ∀ pte, Canonical (memories (fresh pte).1) := fun pte => by
    have halloc := allocObj_canonical s c (kvPage g fmt) 0 hm
    unfold fresh
    split
    next h => exact canonical_of_fst h halloc
    next h => simpa using canonical_of_fst h halloc
  split
  · exact hfresh _
  · split
    · exact hm
    · split
      next h => simpa using copyPage_canonical _ _ _ _ (by simpa using canonical_of_fst h (hfresh _))
      · exact hfresh _

@[simp] theorem walkWrite_canonical (c slot core stg : Nat) (w : WalkReq) (g : KvGeom) (fuel i : Nat) (s : State)
    (hm : Canonical (memories s)) :
    Canonical (memories (walkWrite c slot core stg w g fuel i s).1) := by
  fun_induction walkWrite c slot core stg w g fuel i s with
  | case1 => exact hm
  | case2 => exact hm
  | case3 n i s key pte fill hfill t hentry =>
    exact canonical_of_fst hentry (walkEntry_canonical _ _ _ _ _ _ _ (by simpa using hm))
  | case4 n i s key pte fill hfill t h hentry e ih =>
    refine ih ?_
    rw [pushWrite_memories]
    exact canonical_of_fst hentry (walkEntry_canonical _ _ _ _ _ _ _ (by simpa using hm))

@[simp] theorem deckWrite_canonical (s : State) (c slot core off : Nat) (bs : Bytes) (hm : Canonical (memories s)) :
    Canonical (memories (deckWrite s c slot core off bs)) := by
  unfold deckWrite
  extract_lets sh put
  have hput : ∀ t, Canonical (memories t) → Canonical (memories (put t)) := fun t ht => by
    unfold put
    split <;> simp [ht]
  split
  · exact withWords_canonical _ _ _ _ _ hm hput
  · exact hput s hm

@[simp] theorem walkStatus_canonical (s : State) (c slot core off : Nat) (e : WalkEnd) (hm : Canonical (memories s)) :
    Canonical (memories (walkStatus s c slot core off e)) := by
  unfold walkStatus
  split <;> simp [hm]

@[simp] theorem execKvWalkRequest_canonical (core slot off : Nat) (s : State) (hm : Canonical (memories s)) :
    Canonical (memories (after s (execKvWalkRequest core slot off s))) := by
  unfold execKvWalkRequest
  dsimp only [after_next]
  split
  · exact hm
  · refine withWords_canonical _ _ _ _ _ hm fun t ht => ?_
    (repeat' split) <;> simp [ht]

/-! ## Streams -/

@[simp] theorem scanStatus_canonical (s : State) (core : Nat) (q : Chunk) (result steps : Nat)
    (hm : Canonical (memories s)) :
    Canonical (memories (scanStatus s core q result steps)) := by
  simp [scanStatus, hm]

@[simp] theorem startChunk_canonical (s : State) (core : Nat) (q : Chunk) (hm : Canonical (memories s)) :
    Canonical (memories (startChunk s core q)) := by
  unfold startChunk
  split
  · extract_lets r t finish e run
    have hfinish : ∀ a res, Canonical (memories a) → Canonical (memories (finish a res)) := fun a res ha => by
      simp [finish, ha]
    have hrun : ∀ a, Canonical (memories a) → Canonical (memories (run a)) := fun a ha => by
      simpa [run] using ha
    split
    · exact hfinish _ _ hm
    · split
      · exact hfinish _ _ hm
      · split
        · exact hfinish _ _ (by simpa using hm)
        · split
          · exact hfinish _ _ (deckWrite_canonical _ _ _ _ _ _ hm)
          · split
            · exact hrun _ hm
            · split
              · exact hfinish _ _ hm
              · split
                next h => simpa using canonical_of_fst h (releaseUpper_canonical _ _ _ _ hm)
                next v h =>
                  have hv : Canonical (memories v) := canonical_of_fst h (releaseUpper_canonical _ _ _ _ hm)
                  have hplace : ∀ o, Canonical (memories (placeObj v q.ctx t.handle 1 t.homeCore o).1) :=
                    fun o => placeObj_canonical _ _ _ _ _ _ hv
                  split
                  next h2 => exact hrun _ (canonical_of_fst h2 (hplace _))
                  next h2 => simpa using canonical_of_fst h2 (hplace _)
                  next h2 => exact hfinish _ _ (canonical_of_fst h2 (hplace _))
  · simpa using hm

@[simp] theorem nextChunks_canonical (core c i fuel : Nat) (s : State) (hm : Canonical (memories s)) :
    Canonical (memories (nextChunks core c i fuel s)) := by
  fun_induction nextChunks core c i fuel s with
  | case1 => exact hm
  | case2 => exact hm
  | case3 => exact hm
  | case4 fuel s hrun q hq ih => exact ih (startChunk_canonical _ _ _ hm)

@[simp] theorem serveChunks_canonical (s : State) (core c i : Nat) (hm : Canonical (memories s)) :
    Canonical (memories (serveChunks s core c i)) := by
  simp [serveChunks, hm]

@[simp] theorem execScanChunkRequest_canonical (core slot off : Nat) (s : State) (hm : Canonical (memories s)) :
    Canonical (memories (after s (execScanChunkRequest core slot off s))) := by
  unfold execScanChunkRequest
  dsimp only [after_next]
  split
  · exact hm
  · split
    · exact hm
    · refine withWords_canonical _ _ _ _ _ hm fun t ht => ?_
      (repeat' split) <;> simp [ht]

@[simp] theorem openNew_canonical (s : State) (rq : Req) (g : StreamArgs) (x : Ctx) (hm : Canonical (memories s)) :
    Canonical (memories (openNew s rq g x)) := by
  unfold openNew
  dsimp only
  split
  · simpa using hm
  · split
    next h => simpa using canonical_of_fst h (allocObj_canonical _ _ _ _ hm)
    next v i h =>
      have hv : Canonical (memories v) := canonical_of_fst h (allocObj_canonical _ _ _ _ hm)
      split
      · exact hv
      · split <;> simp [hv]

@[simp] theorem closePause_canonical (s : State) (rq : Req) (i : Nat) (x : Ctx) (hm : Canonical (memories s)) :
    Canonical (memories (closePause s rq i x)) := by
  unfold closePause
  dsimp only
  split
  next t r h =>
    split at h
    · simpa using canonical_of_fst h (releaseUpper_canonical _ _ _ _ hm)
    · cases h
  next t h =>
    split at h
    · simpa using canonical_of_fst h (releaseUpper_canonical _ _ _ _ hm)
    · cases h; simpa using hm

@[simp] theorem streamResetBody_canonical (s : State) (rq : Req) (i : Nat) (x : Ctx) (hm : Canonical (memories s)) :
    Canonical (memories (streamResetBody s rq i x)) := by
  unfold streamResetBody
  dsimp only
  (repeat' split) <;> simp [hm]

@[simp] theorem runStreamCmd_canonical (s : State) (i : Instr) (hm : Canonical (memories s)) :
    Canonical (memories (runStreamCmd s i)) := by
  unfold runStreamCmd
  split
  · exact gateStream_canonical _ _ _ hm fun x => onFirmware_canonical _ _ hm (openNew_canonical _ _ _ _ hm)
  · exact gateStream_canonical _ _ _ hm fun x => by simpa using hm
  · exact gateStream_canonical _ _ _ hm fun x => onFirmware_canonical _ _ hm (closePause_canonical _ _ _ _ hm)
  · exact gateStream_canonical _ _ _ hm fun x => onFirmware_canonical _ _ hm (by simpa using hm)
  · exact gateStream_canonical _ _ _ hm fun x => onFirmware_canonical _ _ hm (streamResetBody_canonical _ _ _ _ hm)
  · exact hm

@[simp] theorem onStream_canonical (s : State) (rq : Req) (op n : Nat) (i : Instr) (hm : Canonical (memories s)) :
    Canonical (memories (onStream s rq op n i)) := by
  refine onCtx_canonical _ _ hm fun x => ?_
  (repeat' split) <;> simp [hm]

@[simp] theorem execStreamOpenNew_canonical (rq : Req) (args : StreamArgs) (s : State) (hm : Canonical (memories s)) :
    Canonical (memories (after s (execStreamOpenNew rq args s))) := by
  simp [execStreamOpenNew, hm]

@[simp] theorem execStreamOpenResume_canonical (rq : Req) (args : StreamArgs) (s : State)
    (hm : Canonical (memories s)) :
    Canonical (memories (after s (execStreamOpenResume rq args s))) := by
  simp [execStreamOpenResume, hm]

@[simp] theorem execStreamClosePause_canonical (rq : Req) (index : Nat) (s : State) (hm : Canonical (memories s)) :
    Canonical (memories (after s (execStreamClosePause rq index s))) := by
  simp [execStreamClosePause, hm]

@[simp] theorem execStreamCloseEnd_canonical (rq : Req) (index : Nat) (s : State) (hm : Canonical (memories s)) :
    Canonical (memories (after s (execStreamCloseEnd rq index s))) := by
  simp [execStreamCloseEnd, hm]

@[simp] theorem execStreamReset_canonical (rq : Req) (index : Nat) (s : State) (hm : Canonical (memories s)) :
    Canonical (memories (after s (execStreamReset rq index s))) := by
  simp [execStreamReset, hm]

@[simp] theorem releaseCmds_canonical (s : State) (c i : Nat) (hm : Canonical (memories s)) :
    Canonical (memories (releaseCmds s c i)) := by
  unfold releaseCmds
  split
  · exact hm
  · exact foldl_canonical _ _ _ (fun a b ha => runStreamCmd_canonical _ _ ha) (by simpa using hm)

@[simp] theorem landAnchor_canonical (s : State) (c i : Nat) (hm : Canonical (memories s)) :
    Canonical (memories (landAnchor s c i)) := by
  unfold landAnchor
  dsimp only
  (repeat' split) <;> simp [hm]

@[simp] theorem scanWrite_canonical (s : State) (core : Nat) (q : Chunk) (t : Stream) (u : Upper) (o : Obj)
    (r : ScanReq) (hm : Canonical (memories s)) :
    Canonical (memories (scanWrite s core q t u o r)) := by
  unfold scanWrite
  extract_lets sh share recs outs s1 s2 passed s3 at_
  have h1 : Canonical (memories s1) :=
    foldl_canonical _ _ _ (fun a n ha => foldl_canonical _ _ _ (fun b i hb => deckWrite_canonical _ _ _ _ _ _ hb) ha) hm
  have h2 : Canonical (memories s2) := ramWritten_canonical _ _ _ h1
  have h3 : Canonical (memories s3) := by
    unfold s3
    split <;> simp [h2]
  rw [modCtx_memories]
  exact h3

@[simp] theorem execScanChunkComplete_canonical (core slot : Nat) (s : State) (hm : Canonical (memories s)) :
    Canonical (memories (after s (execScanChunkComplete core slot s))) := by
  unfold execScanChunkComplete
  rw [after_next]
  split
  · exact hm
  next q hq =>
    extract_lets after
    have hafter : ∀ a, Canonical (memories a) → Canonical (memories (after a)) := fun a ha =>
      settle_canonical _ _ (serveChunks_canonical _ _ _ _ (releaseCmds_canonical _ _ _ (by simpa using ha)))
    split
    · dsimp only
      split
      · split
        · have hscan := fun r => eccScan_memories s (physOf s core) r
          split
          next h => exact hafter _ (by simpa [memories_of_fst h (hscan _)] using hm)
          next h =>
            exact hafter _ (scanStatus_canonical _ _ _ _ _ (scanWrite_canonical _ _ _ _ _ _ _
              (by rw [memories_of_fst h (hscan _)]; exact hm)))
        · exact hafter _ hm
      · exact hafter _ hm
    · exact hafter _ hm

@[simp] theorem execAnchorWritebackLand_canonical (ctx index : Nat) (s : State) (hm : Canonical (memories s)) :
    Canonical (memories (after s (execAnchorWritebackLand ctx index s))) := by
  simp [execAnchorWritebackLand, hm]

/-! ## Audio -/

@[simp] theorem execWakePhraseLoad_canonical (rq : Req) (phrase handle len off : Nat) (s : State)
    (hm : Canonical (memories s)) :
    Canonical (memories (after s (execWakePhraseLoad rq phrase handle len off s))) := by
  unfold execWakePhraseLoad
  rw [after_next]
  refine onCtx_canonical _ _ hm fun x => ?_
  extract_lets load
  have hload : ∀ a r, Canonical (memories a) → Canonical (memories (load a r)) := fun a r ha => by simpa [load] using ha
  split
  · simpa using hm
  · split
    · simpa using hm
    · split
      · exact hload _ _ hm
      · split
        · simpa using hm
        · split
          · simpa using hm
          · refine onFirmware_canonical _ _ hm ?_
            split
            next h => simpa using canonical_of_fst h (saveUpper_canonical _ _ _ _ _ hm)
            next u h =>
              have hv : Canonical (memories u) := canonical_of_fst h (saveUpper_canonical _ _ _ _ _ hm)
              extract_lets s1
              have h1 : Canonical (memories s1) := by simpa [s1] using hv
              split
              · simpa using h1
              · (repeat' split) <;> simp [h1, hload]

/-! ## Ddr -/

@[simp] theorem uncorrectableRead_canonical (s : State) (n line : Nat) (hm : Canonical (memories s)) :
    Canonical (memories (uncorrectableRead s n line)) := by
  unfold uncorrectableRead
  dsimp only
  rw [emitDev_memories]
  exact hm

@[simp] theorem storeLines_canonical (s : State) (r : DdrReq) (hm : Canonical (memories s)) :
    Canonical (memories (storeLines s r)) := by
  exact hm

@[simp] theorem serveReq_canonical (s : State) (n : Nat) (r : DdrReq) (ecc : Ecc) (hm : Canonical (memories s)) :
    Canonical (memories (serveReq s n r ecc).1) := by
  unfold serveReq
  dsimp only
  (repeat' split) <;> simp [hm]

@[simp] theorem execDdrRequestComplete_canonical (channel id : Nat) (ecc : Ecc) (s : State)
    (hm : Canonical (memories s)) :
    Canonical (memories (after s (execDdrRequestComplete channel id ecc s))) := by
  unfold execDdrRequestComplete
  dsimp only
  (repeat' split) <;> simp [hm]

@[simp] theorem ddrRelease_canonical (s : State) (hm : Canonical (memories s)) :
    Canonical (memories (ddrRelease s)) := by
  obtain ⟨hspan, hdecks, -, ht4⟩ := hm
  exact ⟨hspan, hdecks, rfl, ht4⟩

@[simp] theorem execPatrolScrubRead_canonical (channel : Nat) (ecc : Ecc) (s : State) (hm : Canonical (memories s)) :
    Canonical (memories (after s (execPatrolScrubRead channel ecc s))) := by
  unfold execPatrolScrubRead
  dsimp only
  (repeat' split) <;> simp [hm]

/-! ## Pipeline -/

@[simp] theorem execJobComplete_canonical (ctx : Nat) (s : State) (hm : Canonical (memories s)) :
    Canonical (memories (after s (execJobComplete ctx s))) := by
  unfold execJobComplete
  (repeat' split) <;> simp [hm]

/-! ## Engine -/

@[simp] theorem execEngineDescriptorPush_canonical (core slot group off : Nat) (s : State)
    (hm : Canonical (memories s)) :
    Canonical (memories (after s (execEngineDescriptorPush core slot group off s))) := by
  unfold execEngineDescriptorPush
  dsimp only [after_next]
  (repeat' split) <;> simp [hm]

@[simp] theorem frontRow_canonical (r : EngRun) (core : Nat) (s : State) (b : EngBeat) (hm : Canonical (memories s)) :
    Canonical (memories (frontRow r core s b)) := by
  simp [frontRow, hm]

@[simp] theorem frontWrite_canonical (s : State) (core : Nat) (r : EngRun) (b : EngBeat) (hm : Canonical (memories s)) :
    Canonical (memories (frontWrite s core r b)) := by
  unfold frontWrite
  exact foldl_canonical _ _ _ (fun a b ha => by simp [ha]) hm

@[simp] theorem acceptBeat_canonical (s : State) (core i : Nat) (hm : Canonical (memories s)) :
    Canonical (memories (acceptBeat s core i)) := by
  unfold acceptBeat
  dsimp only
  (repeat' split) <;> simp [hm]

@[simp] theorem takeRamp_canonical (core fuel : Nat) (s : State) (hm : Canonical (memories s)) :
    Canonical (memories (takeRamp core fuel s)) := by
  fun_induction takeRamp core fuel s with
  | case1 => exact hm
  | case2 => exact hm
  | case3 => exact hm
  | case4 => exact hm
  | case5 n s p g hg r hrun b rest hbeats r1 ih => exact ih (frontWrite_canonical _ _ _ _ (by simpa using hm))

@[simp] theorem execCoreJunctionBeat_canonical (core : Nat) (s : State) (hm : Canonical (memories s)) :
    Canonical (memories (after s (execCoreJunctionBeat core s))) := by
  unfold execCoreJunctionBeat
  extract_lets p k order taken both s1 k1 s2
  split
  · exact (setCore_memories _ _ _).symm ▸ takeRamp_canonical _ _ _ hm
  · have h2 : Canonical (memories s2) := foldl_canonical _ _ _ (fun a i ha => acceptBeat_canonical _ _ _ ha) hm
    rw [after_next]
    split
    · exact hm
    · simpa using h2

@[simp] theorem execEngineDescriptorComplete_canonical (core group : Nat) (s : State) (hm : Canonical (memories s)) :
    Canonical (memories (after s (execEngineDescriptorComplete core group s))) := by
  unfold execEngineDescriptorComplete
  dsimp only [after_next]
  split
  · exact hm
  · split
    · exact hm
    · rw [schedule_memories]
      refine settleAll_canonical _ ?_
      simp only [meter_memories, setCore_memories, setGroup_memories]
      exact foldl_canonical _ _ _ (fun a b ha => frontWrite_canonical _ _ _ _ ha) hm

/-! ## SetDev -/

@[simp] theorem execObjWrite_canonical (rq : Req) (handle off : Nat) (data : Bytes) (s : State)
    (hm : Canonical (memories s)) :
    Canonical (memories (after s (execObjWrite rq handle off data s))) := by
  unfold execObjWrite
  rw [after_next]
  refine onObj_canonical _ _ _ hm fun x o => ?_
  split <;> simp [hm]

@[simp] theorem settleReceive_canonical (s : State) (i link : Nat) (report : Bytes) (hm : Canonical (memories s)) :
    Canonical (memories (settleReceive s i link report)) := by
  unfold settleReceive
  split <;> simp [hm]

@[simp] theorem execSettlementReceive_canonical (peer link : Nat) (report : Bytes) (s : State)
    (hm : Canonical (memories s)) :
    Canonical (memories (after s (execSettlementReceive peer link report s))) := by
  simp [execSettlementReceive, hm]

@[simp] theorem storeCopy_canonical (s : State) (i n : Nat) (b : Bytes) (m : Config.MirrorCopy)
    (hm : Canonical (memories s)) :
    Canonical (memories (storeCopy s i n b m)) := by
  unfold storeCopy
  dsimp only
  (repeat' split) <;> simp [hm]

@[simp] theorem presentRemote_canonical (s : State) (i : Nat) (b : Bytes) (hm : Canonical (memories s)) :
    Canonical (memories (presentRemote s i b)) := by
  unfold presentRemote
  extract_lets p n s1 h
  have h1 : Canonical (memories s1) := by simpa [s1] using hm
  split
  · simpa using h1
  · split
    · exact storeCopy_canonical _ _ _ _ _ h1
    · have ho := offerWrite_memories s1 h (.remote i n)
      (repeat' split) <;> simp [memories_of_fst ‹_› ho, h1]

@[simp] theorem receiveRemote_canonical (s : State) (i seq : Nat) (b : Bytes) (hm : Canonical (memories s)) :
    Canonical (memories (receiveRemote s i seq b)) := by
  unfold receiveRemote
  dsimp only
  (repeat' split) <;> simp [hm]

@[simp] theorem execRemoteWriteReceive_canonical (peer seq : Nat) (payload : Bytes) (s : State)
    (hm : Canonical (memories s)) :
    Canonical (memories (after s (execRemoteWriteReceive peer seq payload s))) := by
  simp [execRemoteWriteReceive, hm]

@[simp] theorem peerGone_canonical (s : State) (i : Nat) (st : PeerSt) (hm : Canonical (memories s)) :
    Canonical (memories (peerGone s i st)) := by
  unfold peerGone
  dsimp only
  (repeat' split) <;> simp [hm]

@[simp] theorem peerLost_canonical (s : State) (i : Nat) (hm : Canonical (memories s)) :
    Canonical (memories (peerLost s i)) := by
  simp [peerLost, hm]

@[simp] theorem execSetPeerDown_canonical (peer : Nat) (s : State) (hm : Canonical (memories s)) :
    Canonical (memories (after s (execSetPeerDown peer s))) := by
  simp [execSetPeerDown, hm]

@[simp] theorem endSetSessions_canonical (s : State) (hm : Canonical (memories s)) :
    Canonical (memories (endSetSessions s)) := by
  unfold endSetSessions
  exact foldl_canonical _ _ _ (fun a b ha => by simp [ha]) hm

@[simp] theorem endAllSessions_canonical (s : State) (hm : Canonical (memories s)) :
    Canonical (memories (endAllSessions s)) := by
  simp [endAllSessions, hm]

@[simp] theorem helloReply_canonical (s : State) (i seq sid : Nat) (ok : Bool) (payload : Bytes)
    (hm : Canonical (memories s)) :
    Canonical (memories (helloReply s i seq sid ok payload)) := by
  unfold helloReply
  dsimp only
  (repeat' split) <;> simp [hm]

@[simp] theorem openSet_canonical (s : State) (rq : Req) (i : Nat) (hm : Canonical (memories s)) :
    Canonical (memories (openSet s rq i)) := by
  unfold openSet
  dsimp only
  (repeat' split) <;> simp [hm]

@[simp] theorem execHelloOpen_canonical (rq : Req) (maxPayload : Nat) (events : Bool) (s : State)
    (hm : Canonical (memories s)) :
    Canonical (memories (after s (execHelloOpen rq maxPayload events s))) := by
  unfold execHelloOpen
  dsimp only
  (repeat' split) <;> simp [hm]

@[simp] theorem endAnySession_canonical (s : State) (sid : Nat) (hm : Canonical (memories s)) :
    Canonical (memories (endAnySession s sid)) := by
  unfold endAnySession
  split <;> simp [hm]

@[simp] theorem execHelloProve_canonical (rq : Req) (keyDigest signature : Bytes) (s : State)
    (hm : Canonical (memories s)) :
    Canonical (memories (after s (execHelloProve rq keyDigest signature s))) := by
  unfold execHelloProve
  (repeat' split) <;> simp [hm]

@[simp] theorem execHelloEnd_canonical (rq : Req) (s : State) (hm : Canonical (memories s)) :
    Canonical (memories (after s (execHelloEnd rq s))) := by
  simp [execHelloEnd, hm]

@[simp] theorem execSessionIdleTimeout_canonical (sess : Nat) (s : State) (hm : Canonical (memories s)) :
    Canonical (memories (after s (execSessionIdleTimeout sess s))) := by
  simp [execSessionIdleTimeout, hm]

/-! ## Power -/

@[simp] theorem enterStep4_canonical (s : State) (e : PwrEntry) (rq : Req) (hm : Canonical (memories s)) :
    Canonical (memories (enterStep4 s e rq)) := by
  simp [enterStep4, hm]

@[simp] theorem finishT3Fills_canonical (s : State) (hm : Canonical (memories s)) :
    Canonical (memories (finishT3Fills s)) := by
  unfold finishT3Fills
  exact foldl_canonical _ _ _ (fun a b ha => by simp [ha]) hm

/-- Clearing valid bits of several banks leaves the bytes as they are. -/
theorem banksCleared_mem (v : Nat) (l : List Nat) (r : Ram) :
    (l.foldl (fun r b => if bit v (16 + b) then r else r.flashClear (b * 8192) (b * 8192 + 8192)) r).mem = r.mem := by
  induction l generalizing r with
  | nil => rfl
  | cons b t ih =>
    rw [List.foldl_cons, ih]
    split <;> rfl

@[simp] theorem dropUnvoted_canonical (s : State) (hm : Canonical (memories s)) :
    Canonical (memories (dropUnvoted s)) := by
  obtain ⟨hspan, hdecks, ht3, ht4⟩ := hm
  exact ⟨(congrArg memWf (banksCleared_mem _ _ _)).trans hspan, terase_canonical _ hdecks, ht3, ht4⟩

@[simp] theorem enterDeep_canonical (s : State) (hm : Canonical (memories s)) : Canonical (memories (enterDeep s)) := by
  have hreleased : Canonical (memories (ddrRelease (grdHalt (camSleep s)))) := ddrRelease_canonical _ (by simpa using hm)
  unfold enterDeep
  dsimp only
  rw [stateChanged_memories]
  exact dropUnvoted_canonical _ (finishT3Fills_canonical _ hreleased)

@[simp] theorem coldReset_canonical (s : State) (cause : Nat) (hm : Canonical (memories s)) :
    Canonical (memories (coldReset s cause)) := by
  obtain ⟨-, -, -, ht4⟩ := hm
  exact ⟨rfl, by simp [coldReset, memories], rfl, ht4⟩

@[simp] theorem enterOff_canonical (s : State) (hm : Canonical (memories s)) : Canonical (memories (enterOff s)) := by
  simp [enterOff, hm]

@[simp] theorem carryEntry_canonical (s : State) (hm : Canonical (memories s)) :
    Canonical (memories (carryEntry s)) := by
  unfold carryEntry
  (repeat' split) <;> simp [hm]

@[simp] theorem execCorePowerUpComplete_canonical (core : Nat) (s : State) (hm : Canonical (memories s)) :
    Canonical (memories (after s (execCorePowerUpComplete core s))) := by
  simp [execCorePowerUpComplete, hm]

@[simp] theorem execThermalTrip_canonical (s : State) (hm : Canonical (memories s)) :
    Canonical (memories (after s (execThermalTrip s))) := by
  simp [execThermalTrip, hm]

/-! ## Reliability -/

@[simp] theorem freeStreams_canonical (s : State) (chunks : List Chunk) (hm : Canonical (memories s)) :
    Canonical (memories (freeStreams s chunks)) := by
  unfold freeStreams
  exact foldl_canonical _ _ _ (fun a b ha => by simp [ha]) hm

@[simp] theorem fenceCore_canonical (s : State) (n cause : Nat) (req : Option Req) (hm : Canonical (memories s)) :
    Canonical (memories (fenceCore s n cause req)) := by
  unfold fenceCore
  extract_lets p s1 s2 o rel s3 s4 s5
  have h1 : Canonical (memories s1) := by
    unfold s1
    split <;> simp [hm]
  have h3 : Canonical (memories s3) := by simpa [s3, s2] using h1
  have h4 : Canonical (memories s4) := by simpa [s4] using h3
  have hdeck : Canonical (memories { s4 with decks := terase s4.decks p }) := by
    obtain ⟨hspan, hdecks, ht3, ht4⟩ := h4
    exact ⟨hspan, terase_canonical _ hdecks, ht3, ht4⟩
  have h5 : Canonical (memories s5) := freeStreams_canonical _ _ (by simpa using hdeck)
  rw [releaseWork_memories]
  exact settleAll_canonical _ (foldl_canonical _ _ _ (fun a c ha => by simpa using ha) h5)

@[simp] theorem execCoreFence_canonical (rq : Req) (core : Nat) (s : State) (hm : Canonical (memories s)) :
    Canonical (memories (after s (execCoreFence rq core s))) := by
  unfold execCoreFence
  (repeat' split) <;> simp [hm]

@[simp] theorem execAutoFence_canonical (core cause : Nat) (s : State) (hm : Canonical (memories s)) :
    Canonical (memories (after s (execAutoFence core cause s))) := by
  simp [execAutoFence, hm]

@[simp] theorem mapRelief_canonical (s : State) (n : Nat) (hm : Canonical (memories s)) :
    Canonical (memories (mapRelief s n)) := by
  obtain ⟨hspan, hdecks, ht3, ht4⟩ := hm
  exact ⟨hspan, terase_canonical _ (terase_canonical _ hdecks), ht3, ht4⟩

@[simp] theorem repairCore_canonical (s : State) (n : Nat) (req : Option Req) (hm : Canonical (memories s)) :
    Canonical (memories (repairCore s n req)) := by
  unfold repairCore
  split <;> simp [hm]

@[simp] theorem carryRepair_canonical (s : State) (hm : Canonical (memories s)) :
    Canonical (memories (carryRepair s)) := by
  unfold carryRepair
  split
  · exact hm
  · dsimp only
    rw [releaseDestroys_memories]
    split
    · exact repairCore_canonical _ _ _ hm
    · rw [repairFails_memories]; exact hm

/-! ## Registers -/

@[simp] theorem endInterface_canonical (s : State) (i : Iface) (hm : Canonical (memories s)) :
    Canonical (memories (endInterface s i)) := by
  simp [endInterface, hm]

@[simp] theorem commitEffects_canonical (old s : State) (p : Nat) (hm : Canonical (memories s)) :
    Canonical (memories (commitEffects old s p)) := by
  unfold commitEffects
  (repeat' split) <;> simp [hm]

@[simp] theorem commitNow_canonical (s : State) (p : Nat) (hm : Canonical (memories s)) :
    Canonical (memories (commitNow s p)) := by
  simp [commitNow, hm]

@[simp] theorem requestCommit_canonical (s : State) (p : Nat) (hm : Canonical (memories s)) :
    Canonical (memories (requestCommit s p)) := by
  simp [requestCommit, hm]

@[simp] theorem execCommit_canonical (page : Nat) (s : State) (hm : Canonical (memories s)) :
    Canonical (memories (after s (execCommit page s))) := by
  simp [execCommit, hm]

@[simp] theorem execSafePointCommit_canonical (page : Nat) (s : State) (hm : Canonical (memories s)) :
    Canonical (memories (after s (execSafePointCommit page s))) := by
  simp [execSafePointCommit, hm]

@[simp] theorem enableEffects_canonical (old s : State) (p : Nat) (hm : Canonical (memories s)) :
    Canonical (memories (enableEffects old s p)) := by
  unfold enableEffects
  dsimp only
  (repeat' split) <;> simp [hm]

@[simp] theorem enablePage_canonical (s : State) (p : Nat) (hm : Canonical (memories s)) :
    Canonical (memories (enablePage s p).1) := by
  unfold enablePage
  (repeat' split) <;> simp [hm]

@[simp] theorem enablePcie_canonical (s : State) (l : PcieLink) (hm : Canonical (memories s)) :
    Canonical (memories (enablePcie s l).1) := by
  unfold enablePcie
  dsimp only
  (repeat' split) <;> simp [hm]

@[simp] theorem enableAny_canonical (s : State) (p : Nat) (hm : Canonical (memories s)) :
    Canonical (memories (enableAny s p).1) := by
  unfold enableAny
  split <;> simp [hm]

@[simp] theorem execEnable_canonical (page : Nat) (s : State) (hm : Canonical (memories s)) :
    Canonical (memories (after s (execEnable page s))) := by
  simp [execEnable, hm]

@[simp] theorem execDdrCtrlEnable_canonical (s : State) (hm : Canonical (memories s)) :
    Canonical (memories (after s (execDdrCtrlEnable s))) := by
  simp [execDdrCtrlEnable, hm]

@[simp] theorem execGrdEnable_canonical (s : State) (hm : Canonical (memories s)) :
    Canonical (memories (after s (execGrdEnable s))) := by
  simp [execGrdEnable, hm]

@[simp] theorem execIspContextEnable_canonical (isp : Nat) (s : State) (hm : Canonical (memories s)) :
    Canonical (memories (after s (execIspContextEnable isp s))) := by
  simp [execIspContextEnable, hm]

@[simp] theorem execPcieEnable_canonical (link : PcieLink) (s : State) (hm : Canonical (memories s)) :
    Canonical (memories (after s (execPcieEnable link s))) := by
  simp [execPcieEnable, hm]

@[simp] theorem disableEffects_canonical (s : State) (p : Nat) (hm : Canonical (memories s)) :
    Canonical (memories (disableEffects s p)) := by
  unfold disableEffects
  (repeat' split) <;> simp [hm]

@[simp] theorem disablePage_canonical (s : State) (p : Nat) (hm : Canonical (memories s)) :
    Canonical (memories (disablePage s p).1) := by
  unfold disablePage
  dsimp only
  (repeat' split) <;> simp [hm]

@[simp] theorem execEnableClear_canonical (page : Nat) (s : State) (hm : Canonical (memories s)) :
    Canonical (memories (after s (execEnableClear page s))) := by
  simp [execEnableClear, hm]

@[simp] theorem execGrdDisable_canonical (s : State) (hm : Canonical (memories s)) :
    Canonical (memories (after s (execGrdDisable s))) := by
  simp [execGrdDisable, hm]

/-! ## Reset -/

@[simp] theorem applyPage_canonical (snap : Tab Word) (s : State) (p : Nat) (hm : Canonical (memories s)) :
    Canonical (memories (applyPage snap s p).1) := by
  unfold applyPage
  extract_lets s1 on r s2
  have h1 : Canonical (memories s1) := foldl_canonical _ _ _ (fun a b ha => by (repeat' split) <;> simp [ha]) hm
  have hr : Canonical (memories r.1) := by unfold r; simp [h1]
  split
  · simp [h1]
  · split
    · exact hr
    · split <;> simp [s2, hr]

@[simp] theorem applyBlock_canonical (snap : Tab Word) (s : State) (b : Nat × List Nat) (hm : Canonical (memories s)) :
    Canonical (memories (applyBlock snap s b)) := by
  have hpages : Canonical (memories
      (b.2.foldl (fun (a : State × Option Reason) (p : Nat) => if a.2.isSome then a else applyPage snap a.1 p) (s, none)).1) :=
    foldl_fst_canonical _ _ _ (fun a p ha => by split <;> simp [ha]) hm
  unfold applyBlock
  extract_lets r
  split
  · exact hpages
  · simpa using hm

@[simp] theorem applyRegion_canonical (blocks : List (Nat × List Nat)) (good : Bool) (s : State)
    (hm : Canonical (memories s)) :
    Canonical (memories (applyRegion blocks good s)) := by
  unfold applyRegion
  split
  · exact foldl_canonical _ _ _ (fun a b ha => by simpa using ha) hm
  · split
    · exact hm
    · exact foldl_canonical _ _ _ (fun a b ha => applyBlock_canonical _ _ _ ha) hm

@[simp] theorem bootRegion_canonical (s : State) (good : Bool) (hm : Canonical (memories s)) :
    Canonical (memories (bootRegion s good)) := by
  unfold bootRegion
  exact applyRegion_canonical _ _ _ hm

@[simp] theorem bootFence_canonical (cores : List Bool) (s : State) (n : Nat) (hm : Canonical (memories s)) :
    Canonical (memories (bootFence cores s n)) := by
  unfold bootFence
  split
  · exact hm
  · dsimp only
    split
    · exact hm
    · split
      · exact repairCore_canonical _ _ _ hm
      · rw [repairFails_memories]; exact hm

@[simp] theorem bootRepair_canonical (s : State) (good : Bool) (cores : List Bool) (hm : Canonical (memories s)) :
    Canonical (memories (bootRepair s good cores)) := by
  unfold bootRepair
  split
  · rw [emitDev_memories]
    exact foldl_canonical _ _ _ (fun a n ha => bootFence_canonical _ _ _ ha) hm
  · split
    · exact hm
    · split
      · exact hm
      · split
        · exact mapRelief_canonical _ _ hm
        · exact hm

@[simp] theorem coldBoot_canonical (s : State) (b : BootInput) (hm : Canonical (memories s)) :
    Canonical (memories (coldBoot s b)) := by
  unfold coldBoot
  split <;> simp [hm]

@[simp] theorem bootFree_canonical (s : State) (hm : Canonical (memories s)) : Canonical (memories (bootFree s)) := by
  exact coldBoot_canonical _ _ hm

@[simp] theorem execPorstN_canonical (boot : BootInput) (s : State) (hm : Canonical (memories s)) :
    Canonical (memories (after s (execPorstN boot s))) := by
  simp [execPorstN, hm]

@[simp] theorem execPorstNAsserted_canonical (s : State) (hm : Canonical (memories s)) :
    Canonical (memories (after s (execPorstNAsserted s))) := by
  simp [execPorstNAsserted, hm]

@[simp] theorem holdReset_canonical (s : State) (cause : Nat) (hm : Canonical (memories s)) :
    Canonical (memories (holdReset s cause)) := by
  simp [holdReset, hm]

@[simp] theorem execRefclkInterruption_canonical (s : State) (hm : Canonical (memories s)) :
    Canonical (memories (after s (execRefclkInterruption s))) := by
  simp [execRefclkInterruption, hm]

@[simp] theorem execRefclkStable_canonical (s : State) (hm : Canonical (memories s)) :
    Canonical (memories (after s (execRefclkStable s))) := by
  simp [execRefclkStable, hm]

@[simp] theorem execPllLoss_canonical (pll : Nat) (s : State) (hm : Canonical (memories s)) :
    Canonical (memories (after s (execPllLoss pll s))) := by
  unfold execPllLoss
  (repeat' split) <;> simp [hm]

@[simp] theorem revert_canonical (s : State) (hm : Canonical (memories s)) : Canonical (memories (revert s)) := by
  exact bootFree_canonical _ (coldReset_canonical s 5 hm)

@[simp] theorem execTrialTimeout_canonical (s : State) (hm : Canonical (memories s)) :
    Canonical (memories (after s (execTrialTimeout s))) := by
  simp [execTrialTimeout, hm]

@[simp] theorem carryRevert_canonical (s : State) (hm : Canonical (memories s)) :
    Canonical (memories (carryRevert s)) := by
  simp [carryRevert, hm]

@[simp] theorem execMgmtWatchdogExpire_canonical (s : State) (hm : Canonical (memories s)) :
    Canonical (memories (after s (execMgmtWatchdogExpire s))) := by
  unfold execMgmtWatchdogExpire
  split <;> simp [hm]

@[simp] theorem warmReset_canonical (s : State) (hm : Canonical (memories s)) : Canonical (memories (warmReset s)) := by
  have hall : Canonical (memories ((s.ctxs.map Prod.fst).foldl audRelease (endAllSessions s))) :=
    foldl_canonical _ _ _ (fun a b ha => by simpa using ha) (endAllSessions_canonical _ hm)
  obtain ⟨hspan, -, ht3, ht4⟩ := hall
  exact ⟨hspan, by simp [warmReset, memories], ht3, ht4⟩

@[simp] theorem warmRestart_canonical (s : State) (hm : Canonical (memories s)) :
    Canonical (memories (warmRestart s)) := by
  simp [warmRestart, hm]

@[simp] theorem execRstWarm_canonical (rq : Req) (s : State) (hm : Canonical (memories s)) :
    Canonical (memories (after s (execRstWarm rq s))) := by
  simp [execRstWarm, hm]

/-! ## Receive -/

@[simp] theorem receiveCmd_canonical (s : State) (d : Datagram) (h : Header) (hm : Canonical (memories s)) :
    Canonical (memories (receiveCmd s d h)) := by
  unfold receiveCmd
  dsimp only
  (repeat' split) <;> simp [hm]

@[simp] theorem receiveSet_canonical (s : State) (d : Datagram) (h : Header) (i : Nat) (hm : Canonical (memories s)) :
    Canonical (memories (receiveSet s d h i)) := by
  unfold receiveSet
  dsimp only
  (repeat' split) <;> simp [hm]

@[simp] theorem receivePeerCmd_canonical (s : State) (d : Datagram) (h : Header) (i : Nat)
    (hm : Canonical (memories s)) :
    Canonical (memories (receivePeerCmd s d h i)) := by
  unfold receivePeerCmd
  dsimp only
  (repeat' split) <;> simp [hm]

@[simp] theorem receive_canonical (s : State) (d : Datagram) (hm : Canonical (memories s)) :
    Canonical (memories (receive s d)) := by
  unfold receive
  dsimp only
  (repeat' split) <;> simp [hm]

@[simp] theorem execDatagramReceive_canonical (dgram : Datagram) (s : State) (hm : Canonical (memories s)) :
    Canonical (memories (after s (execDatagramReceive dgram s))) := by
  unfold execDatagramReceive
  split <;> simp [hm]

/-! ## RegAccess -/

@[simp] theorem writeSpecial_memories (rq : Req) (r : RegRun) (a v : Nat) (w : Word) :
    memories (writeSpecial rq r a v w).state = memories r.state := by
  unfold writeSpecial
  dsimp only
  (repeat' split) <;> simp [RegRun.wrote]
theorem writeOne_memories (rq : Req) (allowed : Nat → Option Reason) (r : RegRun) (e : Nat × Word) :
    memories (writeOne rq allowed r e).state = memories r.state := by
  unfold writeOne
  dsimp only
  (repeat' split) <;> simp [RegRun.wrote]
theorem writes_memories (rq : Req) (allowed : Nat → Option Reason) (l : List (Nat × Word)) (r : RegRun) :
    memories (l.foldl (writeOne rq allowed) r).state = memories r.state := by
  induction l generalizing r with
  | nil => rfl
  | cons e t ih => rw [List.foldl_cons, ih, writeOne_memories]
theorem applyEnable_canonical (x : State × Option Reason) (c : Nat × Nat) (hm : Canonical (memories x.1)) :
    Canonical (memories (applyEnable x c).1) := by
  unfold applyEnable
  dsimp only
  (repeat' split) <;> simp [hm]

@[simp] theorem regWrite_canonical (s : State) (rq : Req) (op addr : Nat) (values : List Word)
    (allowed : Nat → Option Reason) (hm : Canonical (memories s)) :
    Canonical (memories (regWrite s rq op addr values allowed)) := by
  unfold regWrite
  extract_lets es r pages x left v regs s1 s2
  have hr : Canonical (memories r.state) := by rw [show memories r.state = memories s from writes_memories ..]; exact hm
  have hx : Canonical (memories x.1) := foldl_fst_canonical _ _ _ (fun a c ha => applyEnable_canonical a c ha) hr
  split
  · exact warmRestart_canonical _ (by simpa using hx)
  · split
    · simpa using hx
    · have h2 : Canonical (memories s2) :=
        foldl_canonical _ pages s1 (fun a p ha => requestCommit_canonical _ _ ha) hx
      split <;> simp [h2]

@[simp] theorem execRegWrite_canonical (rq : Req) (addr : Nat) (values : List Word) (s : State)
    (hm : Canonical (memories s)) :
    Canonical (memories (after s (execRegWrite rq addr values s))) := by
  simp [execRegWrite, hm]

@[simp] theorem execSensorCfgRegWrite_canonical (rq : Req) (addr : Nat) (values : List Word) (s : State)
    (hm : Canonical (memories s)) :
    Canonical (memories (after s (execSensorCfgRegWrite rq addr values s))) := by
  unfold execSensorCfgRegWrite
  rw [after_next]
  split
  · simpa using hm
  · split
    · exact onCtx_canonical _ _ hm fun _ => regWrite_canonical _ _ _ _ _ _ hm
    · exact regWrite_canonical _ _ _ _ _ _ hm

@[simp] theorem execAudioCfgRegWrite_canonical (rq : Req) (addr : Nat) (values : List Word) (s : State)
    (hm : Canonical (memories s)) :
    Canonical (memories (after s (execAudioCfgRegWrite rq addr values s))) := by
  unfold execAudioCfgRegWrite
  rw [after_next]
  split
  · simpa using hm
  · exact onCtx_canonical _ _ hm fun _ => regWrite_canonical _ _ _ _ _ _ hm

/-! ## Dispatch -/

@[simp] theorem exec_canonical (i : Instr) (s : State) (hm : Canonical (memories s)) :
    Canonical (memories (after s (exec i s))) := by
  unfold exec
  split <;> simp [hm]

/-! ## Idle -/

@[simp] theorem idle_canonical (s : State) (hm : Canonical (memories s)) : Canonical (memories (idle s)) := by
  simp only [idle, takeDispatched_memories, gatherReport_memories, carryLanes_memories, reportIbis_memories, carrySave_memories,
    carryFence_memories]
  refine carryRepair_canonical _ ?_
  simp only [ungateBusy_memories, endWake_memories]
  exact carryRevert_canonical _ (carryEntry_canonical _ (strike_canonical _ hm))

/-! ## The statement -/

/-- Settles O55: a step runs the front command or idles, and each keeps the canonical form of the memories. -/
theorem stepsKeepMemoryCanonical : Obligations.StepsKeepMemoryCanonical := by
  intro s t hwf hstep
  rw [wf_iff_canonical] at hwf ⊢
  unfold step at hstep
  split at hstep
  next c rest _ =>
    have hexec := exec_canonical c { s with pending := rest } hwf
    rw [hstep] at hexec
    exact hexec
  next =>
    obtain rfl := Host.Outcome.next.inj hstep
    exact idle_canonical s hwf

end Sys2Proof.Machine

/-!
PROOFS. What a Deck or the Span reads as, byte by byte (R146, R147), and after a write of any length.
-/

namespace Sys2Proof.Machine

/-- The byte that a read of one address gives. -/
def Ram.byte (r : Ram) (x : Nat) : Byte := if r.valid.contains (x / 256) then memGet r.mem x else 0

theorem read_eq_bytes (r : Ram) (a n : Nat) : r.read a n = (List.range n).map (fun i => r.byte (a + i)) := rfl

theorem read_one (r : Ram) (a : Nat) : r.read a 1 = [r.byte a] := rfl

theorem mem_insertNum (n m : Nat) (l : List Nat) : m ∈ insertNum n l ↔ m = n ∨ m ∈ l := by
  induction l with
  | nil => simp [insertNum]
  | cons k r ih =>
    unfold insertNum
    split
    · simp
    · split
      · simp_all
      · simp only [List.mem_cons, ih]
        tauto

/-- A write within one row changes its own bytes alone: an invalid row reads as zero before and after. -/
theorem byte_writeRow (r : Ram) (a : Nat) (bs : Bytes) (hrow : a % 256 + bs.length ≤ 256) (x : Nat) :
    (r.writeRow a bs).byte x = if a ≤ x ∧ x < a + bs.length then bs.getD (x - a) 0 else r.byte x := by
  have hsame : a ≤ x ∧ x < a + bs.length → x / 256 = a / 256 := by omega
  unfold Ram.writeRow Ram.byte
  dsimp only
  by_cases hv : r.valid.contains (a / 256) = true
  · rw [if_pos hv]
    dsimp only [Ram.heal]
    rw [memGet_memWrite]
    by_cases hx : a ≤ x ∧ x < a + bs.length
    · rw [if_pos hx, if_pos hx, hsame hx]
      exact if_pos hv
    · rw [if_neg hx, if_neg hx]
      rfl
  · rw [if_neg hv]
    dsimp only
    rw [memGet_memWrite, memGet_memClear]
    have hcontains : ((insertNum (a / 256) r.valid).contains (x / 256) = true) ↔
        (x / 256 = a / 256 ∨ r.valid.contains (x / 256) = true) := by
      simp [mem_insertNum]
    by_cases hx : a ≤ x ∧ x < a + bs.length
    · rw [if_pos hx, if_pos (hcontains.mpr (.inl (hsame hx))), if_pos hx]
    · rw [if_neg hx, if_neg hx]
      by_cases hr : x / 256 = a / 256
      · rw [if_pos (show a / 256 * 256 ≤ x ∧ x < a / 256 * 256 + 256 by omega), ite_self, hr, if_neg hv]
      · rw [if_neg (show ¬(a / 256 * 256 ≤ x ∧ x < a / 256 * 256 + 256) by omega)]
        by_cases hv' : r.valid.contains (x / 256) = true
        · rw [if_pos (hcontains.mpr (.inr hv')), if_pos hv']
        · rw [if_neg (fun h => (hcontains.mp h).elim hr hv'), if_neg hv']

/-- The same of a write over as many rows as its fuel has steps for. -/
theorem byte_writeRows (fuel : Nat) (r : Ram) (a : Nat) (bs : Bytes) (hfuel : a % 256 + bs.length ≤ fuel * 256) (x : Nat) :
    (Ram.writeRows fuel r a bs).byte x = if a ≤ x ∧ x < a + bs.length then bs.getD (x - a) 0 else r.byte x := by
  induction fuel generalizing r a bs with
  | zero =>
    have hnil : bs.length = 0 := by omega
    rw [if_neg (by omega), Ram.writeRows]
  | succ fuel ih =>
    obtain _ | ⟨b, t⟩ := bs
    · rw [if_neg (by simp), Ram.writeRows]
    · have hn : 0 < 256 - a % 256 ∧ 256 - a % 256 ≤ 256 := by omega
      generalize hbs : b :: t = bs at hfuel ⊢
      have hstep : Ram.writeRows (fuel + 1) r a bs =
          Ram.writeRows fuel (r.writeRow a (bs.take (256 - a % 256))) (a + (256 - a % 256)) (bs.drop (256 - a % 256)) := by
        rw [← hbs]
        rfl
      rw [hstep, ih _ _ _ (by rw [List.length_drop]; omega), byte_writeRow _ _ _ (by rw [List.length_take]; omega)]
      simp only [List.length_drop, List.length_take, List.getD_eq_getElem?_getD, List.getElem?_drop, List.getElem?_take]
      by_cases h1 : a ≤ x ∧ x < a + bs.length
      · rw [if_pos h1]
        by_cases h2 : x < a + (256 - a % 256)
        · rw [if_neg (by omega), if_pos (by omega), if_pos (by omega)]
        · rw [if_pos (by omega), show 256 - a % 256 + (x - (a + (256 - a % 256))) = x - a by omega]
      · rw [if_neg (by omega), if_neg (by omega), if_neg h1]

/-- A byte after a write: the one written within the block, the old one elsewhere (R147). -/
theorem byte_write (r : Ram) (a : Nat) (bs : Bytes) (x : Nat) :
    (r.write a bs).byte x = if a ≤ x ∧ x < a + bs.length then bs.getD (x - a) 0 else r.byte x :=
  byte_writeRows _ r a bs (by omega) x

/-- What was written reads back. -/
theorem read_write_self (r : Ram) (a : Nat) (bs : Bytes) : (r.write a bs).read a bs.length = bs := by
  rw [read_eq_bytes]
  refine List.ext_getElem (by simp) fun i h1 h2 => ?_
  rw [List.getElem_map, List.getElem_range, byte_write, if_pos (by omega), Nat.add_sub_cancel_left]
  simp [h2]

theorem read_write_outside (r : Ram) (a : Nat) (bs : Bytes) (x : Nat) (h : x < a ∨ a + bs.length ≤ x) :
    (r.write a bs).read x 1 = r.read x 1 := by
  rw [read_one, read_one, byte_write, if_neg (by omega)]

/-- Narrow writes land in turn: every other byte stays. -/
theorem byte_narrowWrites_of_notMem (l : List (Nat × Byte)) (r : Ram) (x : Nat) (h : x ∉ l.map Prod.fst) :
    (l.foldl (fun r w => r.write w.1 [w.2]) r).byte x = r.byte x := by
  induction l generalizing r with
  | nil => rfl
  | cons w t ih =>
    rw [List.map_cons, List.mem_cons, not_or] at h
    rw [List.foldl_cons, ih _ h.2, byte_write, if_neg (by simp only [List.length_singleton]; omega)]

/-- Of narrow writes to addresses that differ, each byte reads as it was written. -/
theorem byte_narrowWrites_of_mem (l : List (Nat × Byte)) (r : Ram) (hnodup : (l.map Prod.fst).Nodup) {a : Nat} {b : Byte}
    (h : (a, b) ∈ l) : (l.foldl (fun r w => r.write w.1 [w.2]) r).byte a = b := by
  induction l generalizing r with
  | nil => cases h
  | cons w t ih =>
    rw [List.map_cons, List.nodup_cons] at hnodup
    rw [List.foldl_cons]
    rcases List.mem_cons.mp h with rfl | h
    · rw [byte_narrowWrites_of_notMem _ _ _ hnodup.1, byte_write, if_pos (by simp)]
      simp
    · exact ih _ hnodup.2 h

end Sys2Proof.Machine

/-!
PROOFS. What reset leaves (R151, R764), the stages that wait on windows (R162, R163) and view fences (R141, R142).
-/

namespace Sys2Proof.Machine

/-- Settles O56: reset is the state of which every table and every memory is empty. -/
theorem resetIsEmpty : Obligations.ResetIsEmpty :=
  ⟨rfl, rfl, rfl, rfl, rfl, rfl, rfl, rfl, rfl, rfl⟩

/-! ## A stage waits -/

/-- The jobs of the contexts with one stage changed. -/
theorem tget?_modStage {s : State} {c : Nat} {x : Ctx} {j : Job} (hctx : tget? s.ctxs c = some x) (hjob : x.job = some j)
    (core slot : Nat) (f : StageRun → StageRun) :
    tget? (modStage s c core slot f).ctxs c = some { x with job := some { j with
      stages := j.stages.map (fun r => if r.core = core ∧ r.slot = slot then f r else r) } } := by
  simp [modStage, tget?_modCtx, hctx, hjob]

/-- What a stage's wait does to its job and to the entry, when it waits (R163). -/
def waitBegun (s : State) (c core slot space win k : Nat) (w : Win) : State :=
  modStage (setWin s k { w with waiting := some (core, slot) }) c core slot (fun r => { r with st := .waiting space win })

theorem waitBegun_winAt (s : State) (c core slot space win k : Nat) (w : Win) :
    winAt (waitBegun s c core slot space win k w) k = { w with waiting := some (core, slot) } :=
  winAt_setWin s k _

theorem waitBegun_job {s : State} {c : Nat} {x : Ctx} {j : Job} (hctx : tget? s.ctxs c = some x) (hjob : x.job = some j)
    (core slot space win k : Nat) (w : Win) : ∃ y i, tget? (waitBegun s c core slot space win k w).ctxs c = some y ∧
      y.job = some i ∧ ∀ r ∈ i.stages, r.core = core → r.slot = slot → r.st = .waiting space win := by
  refine ⟨_, _, tget?_modStage (s := setWin s k _) hctx hjob core slot _, rfl, fun r hr hcore hslot => ?_⟩
  obtain ⟨q, -, rfl⟩ := List.mem_map.mp hr
  by_cases h : q.core = core ∧ q.slot = slot
  · rw [if_pos h]
  · rw [if_neg h] at hcore hslot
    exact absurd ⟨hcore, hslot⟩ h

section
variable {core slot space win c k : Nat} {x : Ctx} {j : Job} {s : State} (hstage : stageCtx s core slot = some c)
  (hctx : tget? s.ctxs c = some x) (hjob : x.job = some j) (hkey : keyOf s c j.run.slot space win = some k)
include hstage hctx hjob hkey

/-- The wait of a stage, once its context, its job and the entry are known: a second wait ends the job, one that holds ends at
once with the threshold set, and any other begins. -/
theorem execWinWait_eq (t : Option Nat) {w : Win}
    (hw : w = { winAt s k with threshold := (t.getD (winAt s k).threshold) % 2 ^ 32 }) :
    execWinWait core slot space win t s = .next (if w.waiting.isSome then failJob s c .pipeWait
      else if waitSatisfied w ∨ w.state = .closed then setWin s k w
      else schedule (tryStop (waitBegun s c core slot space win k w) c)) := by
  have hj : (tget? s.ctxs c).bind Ctx.job = some j := by rw [hctx]; exact hjob
  subst hw
  simp only [execWinWait, hstage, hj, hkey]
  rfl

theorem execWinWait_second (t : Option Nat) (hwait : (winAt s k).waiting ≠ none) :
    execWinWait core slot space win t s = .next (failJob s c .pipeWait) := by
  rw [execWinWait_eq hstage hctx hjob hkey t rfl, if_pos (Option.isSome_iff_ne_none.mpr hwait)]

theorem execWinWait_satisfied (t : Option Nat) {w : Win}
    (hw : w = { winAt s k with threshold := (t.getD (winAt s k).threshold) % 2 ^ 32 }) (hwait : w.waiting = none)
    (h : waitSatisfied w = true ∨ w.state = .closed) :
    execWinWait core slot space win t s = .next (setWin s k w) := by
  rw [execWinWait_eq hstage hctx hjob hkey t hw, if_neg (by simp [hwait]), if_pos h]

theorem execWinWait_waits (t : Option Nat) {w : Win}
    (hw : w = { winAt s k with threshold := (t.getD (winAt s k).threshold) % 2 ^ 32 }) (hwait : w.waiting = none)
    (hunsat : waitSatisfied w = false) (hopen : w.state ≠ .closed) :
    execWinWait core slot space win t s = .next (schedule (tryStop (waitBegun s c core slot space win k w) c)) := by
  rw [execWinWait_eq hstage hctx hjob hkey t hw, if_neg (by simp [hwait]), if_neg (by simp [hunsat, hopen])]

end

/-- The model's test and the rule's words agree on counts of 32 bits (R162). -/
theorem waitSatisfied_iff {w : Win} (harr : w.arrivals < 2 ^ 32) (hthr : w.threshold < 2 ^ 32) :
    waitSatisfied w = true ↔ ((w.arrivals : Int) - (w.threshold : Int)) % 2 ^ 32 < 2 ^ 31 := by
  unfold waitSatisfied
  rw [decide_eq_true_iff]
  omega

/-- Settles O27: the threshold stands as it is, and the rule decides between running and waiting. -/
theorem waitIsSatisfied : Obligations.WaitIsSatisfied := by
  intro core slot space win c k x j w s hstage hctx hjob hkey hw hwait hopen harr hthr
  have hsame : w = { winAt s k with threshold := ((none : Option Nat).getD (winAt s k).threshold) % 2 ^ 32 } := by
    rw [Option.getD_none, hw, Nat.mod_eq_of_lt hthr]
  refine ⟨fun hlow => ?_, fun hhigh => ?_⟩
  · exact execWinWait_satisfied hstage hctx hjob hkey none hsame hwait (.inl ((waitSatisfied_iff harr hthr).mpr hlow))
  · have hunsat : waitSatisfied w = false :=
      Bool.eq_false_iff.mpr fun h => absurd ((waitSatisfied_iff harr hthr).mp h) (not_lt.mpr hhigh)
    obtain ⟨y, i, hy, hi, hstages⟩ := waitBegun_job hctx hjob core slot space win k w
    exact ⟨waitBegun s c core slot space win k w, y, i,
      execWinWait_waits hstage hctx hjob hkey none hsame hwait hunsat hopen, waitBegun_winAt .., hy, hi, hstages, rfl⟩

/-! ## View fences -/

/-- The state after a view fence of a stage on a physical core: the narrow writes stand in the Deck, and nothing waits. -/
def viewFenced (s : State) (p : Nat) : State :=
  setCore (setRam s p ((coreOf s p).narrow.foldl (fun r w => r.write w.1 [w.2]) (ramOf s p))) p
    { coreOf s p with narrow := [], wideRows := [] }

theorem execViewFence_eq {s : State} {core slot c : Nat} (hstage : stageCtx s core slot = some c) :
    execViewFence core slot s = .next (viewFenced s (physOf s core)) := by
  simp only [execViewFence, hstage]
  rfl

theorem ramOf_viewFenced (s : State) (p : Nat) :
    ramOf (viewFenced s p) p = (coreOf s p).narrow.foldl (fun r w => r.write w.1 [w.2]) (ramOf s p) := by
  simp [viewFenced]

theorem ramOf_viewFenced_ne (s : State) (p g : Nat) (h : g ≠ p) : ramOf (viewFenced s p) g = ramOf s g := by
  simp [viewFenced, ramOf_setRam_ne _ _ _ _ h]

theorem coreOf_viewFenced (s : State) (p : Nat) :
    coreOf (viewFenced s p) p = { coreOf s p with narrow := [], wideRows := [] } := by
  simp [viewFenced]

theorem coreOf_viewFenced_ne (s : State) (p g : Nat) (h : g ≠ p) : coreOf (viewFenced s p) g = coreOf s g := by
  simp [viewFenced, coreOf_setCore_ne _ _ _ _ h]

/-- A view fence of a core touches the Decks and the cores alone. -/
theorem viewFenced_frame (s : State) (p : Nat) (h : p < 9) :
    viewFenced s p = { s with decks := (viewFenced s p).decks, cores := (viewFenced s p).cores } := by
  simp [viewFenced, setRam, setCore, show p ≠ 9 by omega]

/-- Settles O28: the wait's cases one by one, and the narrow writes of a fence byte by byte. -/
theorem windowWaitsAndViewFences : Obligations.WindowWaitsAndViewFences := by
  refine ⟨?_, ?_⟩
  · intro core slot space win c k thr x j w s hstage hctx hjob hkey hw hthr
    subst hw
    have hset : { winAt s k with threshold := thr } =
        { winAt s k with threshold := ((some thr).getD (winAt s k).threshold) % 2 ^ 32 } := by
      rw [Option.getD_some, Nat.mod_eq_of_lt hthr]
    exact ⟨fun hwait t => execWinWait_second hstage hctx hjob hkey t hwait,
      fun hwait hclosed => execWinWait_satisfied hstage hctx hjob hkey _ hset hwait (.inr hclosed),
      fun hwait hsat => execWinWait_satisfied hstage hctx hjob hkey _ hset hwait (.inl hsat)⟩
  · intro core slot c p k s hstage hp hp9 hk hnodup
    subst hp hk
    refine ⟨_, execViewFence_eq hstage, coreOf_viewFenced _ _, fun a b hab => ?_, fun a ha => ?_,
      fun g hg => ⟨ramOf_viewFenced_ne _ _ _ hg, coreOf_viewFenced_ne _ _ _ hg⟩, viewFenced_frame _ _ hp9⟩
    · rw [read_one, ramOf_viewFenced, byte_narrowWrites_of_mem _ _ hnodup hab]
    · rw [read_one, read_one, ramOf_viewFenced, byte_narrowWrites_of_notMem _ _ _ ha]

end Sys2Proof.Machine

/-!
PROOFS. A wait on a window that ends (R162, R163) and a window write that lands (R160, R164, R165).
-/

namespace Sys2Proof.Machine

/-! ## A wait ends -/

@[simp] theorem watchSample_wins (s : State) (k : Nat) : (watchSample s k).wins = s.wins := by
  unfold watchSample
  split
  · rw [draw_wins]
    exact foldl_keeps State.wins (fun a w => monSample a 3 w _) (fun _ _ => rfl) _ s
  · rfl

@[simp] theorem watchSample_flights (s : State) (k : Nat) : (watchSample s k).flights = s.flights := by
  unfold watchSample
  split
  · rw [draw_flights]
    exact foldl_keeps State.flights (fun a w => monSample a 3 w _) (fun _ _ => rfl) _ s
  · rfl

@[simp] theorem winAt_watchSample (s : State) (k m : Nat) : winAt (watchSample s k) m = winAt s m := by
  unfold winAt
  rw [watchSample_wins]

/-- Nothing waits on an entry: ending its wait does nothing. -/
theorem wake_none {s : State} {k : Nat} (h : (winAt s k).waiting = none) : wake s k = s := by
  simp only [wake, h]

theorem wake_wins {s : State} {k : Nat} {who : Nat × Nat} (h : (winAt s k).waiting = some who) :
    (wake s k).wins = tset s.wins k { winAt s k with waiting := none } := by
  simp only [wake, h]
  split
  · split
    · rw [emit_wins]
      rfl
    · rfl
  · rfl

@[simp] theorem wake_flights (s : State) (k : Nat) : (wake s k).flights = s.flights := by
  cases h : (winAt s k).waiting with
  | none => rw [wake_none h]
  | some who =>
    simp only [wake, h]
    split
    · split
      · rw [emit_flights]
        rfl
      · rfl
    · rfl

@[simp] theorem winAt_wake (s : State) (k : Nat) : winAt (wake s k) k = { winAt s k with waiting := none } := by
  cases h : (winAt s k).waiting with
  | none => rw [wake_none h, ← h]
  | some who =>
    unfold winAt
    rw [wake_wins h, tget_tset_self]
    rfl

theorem winAt_wake_ne (s : State) (k m : Nat) (hm : m ≠ k) : winAt (wake s k) m = winAt s m := by
  cases h : (winAt s k).waiting with
  | none => rw [wake_none h]
  | some who =>
    unfold winAt
    rw [wake_wins h, tget_tset_ne _ _ _ _ _ hm]

/-! ## A write lands -/

/-- The entry of a write that lands, with its arrival counted (R160). -/
def countedWin (f : Flight) (w : Win) : Win :=
  if countsArrival f then { w with arrivals := (w.arrivals + 1) % 2 ^ 32 } else w

/-- The bytes of a write have landed and its entry has counted it; a wait that this satisfies has still to end. -/
def landedBytes (s : State) (id : Nat) (f : Flight) : State :=
  let s1 := setRam s f.home (landBytes (ramOf s f.home) (f.base * 256 + f.off) f.pitch f.row f.data)
  setWin { s1 with flights := terase s1.flights id } (winKey f.home f.entry) (countedWin f (winAt s (winKey f.home f.entry)))

theorem landFlight_eq (s : State) (id : Nat) (f : Flight) :
    landFlight s id f = if waitSatisfied (countedWin f (winAt s (winKey f.home f.entry)))
      then wake (watchSample (landedBytes s id f) (winKey f.home f.entry)) (winKey f.home f.entry)
      else landedBytes s id f := rfl

theorem setRam_wins (s : State) (p : Nat) (r : Ram) : (setRam s p r).wins = s.wins := by
  unfold setRam
  split <;> rfl

theorem setRam_flights (s : State) (p : Nat) (r : Ram) : (setRam s p r).flights = s.flights := by
  unfold setRam
  split <;> rfl

theorem memories_landFlight (s : State) (id : Nat) (f : Flight) : memories (landFlight s id f) =
    memories (setRam s f.home (landBytes (ramOf s f.home) (f.base * 256 + f.off) f.pitch f.row f.data)) := by
  rw [landFlight_eq]
  split
  · rw [wake_memories, watchSample_memories]
    rfl
  · rfl

theorem landFlight_flights (s : State) (id : Nat) (f : Flight) : (landFlight s id f).flights = terase s.flights id := by
  have hland : (landedBytes s id f).flights = terase s.flights id := by
    simp only [landedBytes, setWin_flights, setRam_flights]
  rw [landFlight_eq]
  split
  · rw [wake_flights, watchSample_flights, hland]
  · exact hland

/-- The entry of a landed write: counted, and nothing waits on it any more when that satisfied a wait. -/
theorem winAt_landFlight (s : State) (id : Nat) (f : Flight) : ∃ q,
    winAt (landFlight s id f) (winKey f.home f.entry) =
      { countedWin f (winAt s (winKey f.home f.entry)) with waiting := q } := by
  rw [landFlight_eq]
  split
  · exact ⟨none, by rw [winAt_wake, winAt_watchSample, landedBytes, winAt_setWin]⟩
  · exact ⟨_, winAt_setWin _ _ _⟩

theorem winAt_landFlight_ne (s : State) (id : Nat) (f : Flight) (m : Nat) (hm : m ≠ winKey f.home f.entry) :
    winAt (landFlight s id f) m = winAt s m := by
  have hland : winAt (landedBytes s id f) m = winAt s m := by
    rw [landedBytes, winAt_setWin_ne _ _ _ _ hm]
    unfold winAt
    dsimp only
    rw [setRam_wins]
  rw [landFlight_eq]
  split
  · rw [winAt_wake_ne _ _ _ hm, winAt_watchSample, hland]
  · exact hland

/-- The memory of a home is a part of the byte memories. -/
theorem ramOf_congr {s t : State} (h : memories s = memories t) (g : Nat) : ramOf s g = ramOf t g := by
  simp only [memories, Prod.mk.injEq] at h
  obtain ⟨hspan, hdecks, -, -⟩ := h
  simp only [ramOf, hspan, hdecks]

theorem ramOf_landFlight (s : State) (id : Nat) (f : Flight) : ramOf (landFlight s id f) f.home =
    landBytes (ramOf s f.home) (f.base * 256 + f.off) f.pitch f.row f.data := by
  rw [ramOf_congr (memories_landFlight s id f), ramOf_setRam_self]

theorem ramOf_landFlight_ne (s : State) (id : Nat) (f : Flight) (g : Nat) (h : g ≠ f.home) :
    ramOf (landFlight s id f) g = ramOf s g := by
  rw [ramOf_congr (memories_landFlight s id f), ramOf_setRam_ne _ _ _ _ h]

theorem landFlight_stored (s : State) (id : Nat) (f : Flight) :
    (landFlight s id f).t3 = s.t3 ∧ (landFlight s id f).t4 = s.t4 := by
  have h := memories_landFlight s id f
  simp only [memories, Prod.mk.injEq] at h
  obtain ⟨-, -, h3, h4⟩ := h
  rw [h3, h4]
  unfold setRam
  split <;> exact ⟨rfl, rfl⟩

/-! ## The order of a writer (R165) -/

theorem landAndTell_first {s : State} {id : Nat} {f : Flight} (hf : tget? s.flights id = some f)
    (h : ∀ g ∈ s.flights, g.1 < id → g.2.home ≠ f.home ∨ g.2.entry ≠ f.entry ∨ g.2.writer ≠ f.writer) :
    landAndTell s id = retryWaits (tellLanded (landFlight s id f) f) := by
  have hfirst : firstOfWriter s id f = true := by
    refine List.all_eq_true.mpr fun g hg => ?_
    by_cases hid : g.1 < id
    · obtain hne | hne | hne := h g hg hid <;> simp [hne]
    · simp [not_lt.mp hid]
  simp only [landAndTell, hf, hfirst, if_true]

theorem landAndTell_later {s : State} {id : Nat} {f : Flight} (hf : tget? s.flights id = some f)
    (h : ∃ g ∈ s.flights, g.1 < id ∧ g.2.home = f.home ∧ g.2.entry = f.entry ∧ g.2.writer = f.writer) :
    landAndTell s id = s := by
  obtain ⟨g, hg, hid, hhome, hentry, hwriter⟩ := h
  have hfirst : firstOfWriter s id f = false :=
    List.all_eq_false.mpr ⟨g, hg, by simp [hhome, hentry, hwriter, hid]⟩
  simp only [landAndTell, hf, hfirst]
  rfl

/-- The landing of the host's write counts its bytes and replies (R541, R174). -/
theorem tellLanded_host {f : Flight} {rq : Req} (h : f.src = .host rq) (s : State) : tellLanded s f =
    replyC (countAct s rq.ctx (fun x => { x with hostIn := x.hostIn + f.data.length })) rq 0x0162 .ok .none [] := by
  simp only [tellLanded, h]

/-- Settles O26: an earlier write of the writer holds a later one back; the first one lands byte by byte. -/
theorem windowWritesLand : Obligations.WindowWritesLand := by
  refine ⟨?_, ?_⟩
  · intro id f s hf hpitch _
    have hexec : exec (.windowWriteLand id) s = .next (settleAll (landAndTell s id)) := rfl
    refine ⟨fun hearlier => by rw [hexec, landAndTell_later hf hearlier], fun hfirst => ?_⟩
    have hram : ramOf (landFlight s id f) f.home = (ramOf s f.home).write (f.base * 256 + f.off) f.data := by
      rw [ramOf_landFlight, landBytes, if_pos (.inl hpitch)]
    obtain ⟨q, hwin⟩ := winAt_landFlight s id f
    rw [winKey] at hwin
    refine ⟨landFlight s id f, by rw [hexec, landAndTell_first hf hfirst], ?_, fun b hb => ?_,
      ramOf_landFlight_ne s id f, fun hc => ?_, fun hc => ?_, winAt_landFlight_ne s id f,
      landFlight_flights s id f, landFlight_stored s id f, ?_⟩
    · rw [hram, read_write_self]
    · rw [hram, read_write_outside _ _ _ _ hb]
    · rw [hwin, countedWin, if_pos hc]
    · rw [hwin, countedWin, if_neg (by simp [hc])]
    · rw [hwin, countedWin]
      split <;> rfl
  · intro rq f s hlive hsrc
    rw [tellLanded_host hsrc]
    exact ⟨replyC_replied _ rq _ _ _ _ hlive, replyAs_only _ rq _ _ _ _ _⟩

end Sys2Proof.Machine

/-!
PROOFS. The check of a window write at its home (R161, R165 to R168) and WIN_WRITE (R541).
-/

namespace Sys2Proof.Machine

/-! ## The fate of a header (R166) -/

section
variable {s : State} {h : WinHdr} {k : Nat}

theorem writeFate_denied (hnamed : bit (winAt s k).writers (writerBit h.writer) = false) : writeFate s h k = .denied := by
  simp only [writeFate, hnamed, Bool.not_false, if_true]

theorem writeFate_closed (hnamed : bit (winAt s k).writers (writerBit h.writer) = true)
    (hclosed : (winAt s k).state ≠ .opened ∨ (winAt s k).epoch ≠ h.epoch) : writeFate s h k = .closed := by
  simp only [writeFate, hnamed, Bool.not_true, Bool.false_eq_true, if_false, if_pos hclosed]

section
variable (hnamed : bit (winAt s k).writers (writerBit h.writer) = true) (hopen : (winAt s k).state = .opened)
  (hepoch : (winAt s k).epoch = h.epoch) (hpitch : h.pitch = 0)
include hnamed hopen hepoch hpitch

/-- A header without a pitch that passes the first two checks is judged by its range and then by the room at its home. -/
theorem writeFate_open : writeFate s h k =
    if h.data.length = 0 ∨ 4096 < h.data.length ∨ ((winAt s k).limit - (winAt s k).base) * 256 < h.off + h.data.length
    then .range else if 4 ≤ inFlight s (gateOf (k / 256) (winAt s k).base) then .homeFull else .accepted := by
  have hspan : hdrSpan h = h.data.length := by rw [hdrSpan, if_pos (.inl hpitch)]
  simp only [writeFate, hnamed, hopen, hepoch, hspan, Bool.not_true, Bool.false_eq_true, if_false, ne_eq, not_true_eq_false,
    or_self]

theorem writeFate_range (hrange : h.data = [] ∨ 4096 < h.data.length ∨
      ((winAt s k).limit - (winAt s k).base) * 256 < h.off + h.data.length) : writeFate s h k = .range := by
  rw [← List.length_eq_zero_iff] at hrange
  rw [writeFate_open hnamed hopen hepoch hpitch, if_pos hrange]

variable (hsome : h.data ≠ []) (hlen : h.data.length ≤ 4096)
  (hfits : h.off + h.data.length ≤ ((winAt s k).limit - (winAt s k).base) * 256)
include hsome hlen hfits

theorem writeFate_in_range : writeFate s h k =
    if 4 ≤ inFlight s (gateOf (k / 256) (winAt s k).base) then .homeFull else .accepted := by
  rw [← List.length_pos_iff] at hsome
  rw [writeFate_open hnamed hopen hepoch hpitch, if_neg (by omega)]

end

/-! ## The check (R166 to R168) -/

/-- The state in which an accepted header is the next write in progress. -/
def inProgress (s : State) (h : WinHdr) (k : Nat) (src : WriteFrom) : State :=
  { s with
    flights := tset s.flights s.nextFlight
      { home := k / 256, entry := k % 256, base := (winAt s k).base, off := h.off, data := h.data, pitch := h.pitch,
        row := h.row, writer := h.writer, src := src },
    nextFlight := s.nextFlight + 1 }

/-- An entry that has refused one more header. -/
def refusedOne (w : Win) : Win := { w with rejects := min (w.rejects + 1) 0xFFFF }

/-- An entry that has discarded one more header. -/
def discardedOne (w : Win) : Win := { w with discards := min (w.discards + 1) 0xFFFF_FFFF }

section
variable (hkey : keyOf s h.ctx h.slot h.space h.win = some k) (src : WriteFrom)
include hkey

/-- What the check does for each fate. -/
theorem checkWrite_eq : checkWrite s h src = match writeFate s h k with
    | .denied => (setWin s k (refusedOne (winAt s k)), .denied)
    | .closed => (setWin s k (discardedOne (winAt s k)), .closed)
    | .range => (setWin s k (refusedOne (winAt s k)), .range)
    | .accepted => (inProgress s h k src, .accepted)
    | f => (s, f) := by
  simp only [checkWrite, hkey]
  cases writeFate s h k <;> rfl

variable (hready : homeReady s h = true) (hbehind : behindEarlier s h = false)
include hready hbehind

/-- A header at a powered home with no earlier one in front of it meets the check. -/
theorem offerWrite_eq : offerWrite s h src = match writeFate s h k with
    | .denied => (setWin s k (refusedOne (winAt s k)), .denied)
    | .closed => (setWin s k (discardedOne (winAt s k)), .closed)
    | .range => (setWin s k (refusedOne (winAt s k)), .range)
    | .accepted => (inProgress s h k src, .accepted)
    | .homeFull => ({ s with waitHdrs := s.waitHdrs ++ [(h, src)] }, .homeFull)
    | .noEntry => (s, .noEntry) := by
  rw [offerWrite, hready, hbehind, if_neg (by decide), checkWrite_eq hkey]
  cases writeFate s h k <;> rfl

end

/-- A header whose home is not powered, or with an earlier one in front of it, waits (R165, R238, R617). -/
theorem offerWrite_waits (src : WriteFrom) (hwait : homeReady s h = false ∨ behindEarlier s h = true) :
    offerWrite s h src = ({ s with waitHdrs := s.waitHdrs ++ [(h, src)] }, .homeFull) := by
  rw [offerWrite, if_pos (by obtain hw | hw := hwait <;> simp [hw])]

end

/-! ## WIN_WRITE (R541) -/

/-- A command of a live context goes on in that context. -/
theorem onCtx_of_live {s : State} {rq : Req} (hctx : (liveCtx s rq.ctx).isSome) (op : Nat) (f : State) :
    onCtx s rq op (fun _ => f) = f := by
  obtain ⟨x, hx⟩ := Option.isSome_iff_exists.mp hctx
  simp only [onCtx, hx]

theorem entryOf_of_keyOf {s : State} {c slot space win k : Nat} (hkey : keyOf s c slot space win = some k) :
    (entryOf s c slot space win).isNone = false := by
  unfold keyOf at hkey
  cases h : entryOf s c slot space win with
  | none => simp [h] at hkey
  | some e => rfl

/-- The header of the host's window write. -/
def hostHdr (rq : Req) (space win epoch slot off : Nat) (data : Bytes) : WinHdr :=
  { space := space, ctx := rq.ctx, slot := slot, win := win, epoch := epoch, off := off, data := data, writer := .host }

section
variable {s : State} {rq : Req} {space win epoch slot off k : Nat} {data : Bytes} (hctx : (liveCtx s rq.ctx).isSome)
  (hkey : keyOf s rq.ctx slot space win = some k)
  (hready : homeReady s (hostHdr rq space win epoch slot off data) = true)
  (hbehind : behindEarlier s (hostHdr rq space win epoch slot off data) = false)
include hctx hkey hready hbehind

/-- What WIN_WRITE does for each fate of its header. -/
theorem execWinWrite_eq : execWinWrite rq space win epoch slot off data s = .next (
    match writeFate s (hostHdr rq space win epoch slot off data) k with
    | .denied => replyC (setWin s k (refusedOne (winAt s k))) rq 0x0162 .refused .winDenied []
    | .closed => replyC (setWin s k (discardedOne (winAt s k))) rq 0x0162 .windowClosed .none []
    | .range => replyC (setWin s k (refusedOne (winAt s k))) rq 0x0162 .refused .winRange []
    | .accepted => inProgress s (hostHdr rq space win epoch slot off data) k (.host rq)
    | .homeFull => { s with waitHdrs := s.waitHdrs ++ [(hostHdr rq space win epoch slot off data, .host rq)] }
    | .noEntry => replyC s rq 0x0162 .noQuota .winIndex []) := by
  rw [execWinWrite, onCtx_of_live hctx, entryOf_of_keyOf hkey, if_neg (by decide)]
  have hoffer := offerWrite_eq (h := hostHdr rq space win epoch slot off data) hkey (.host rq) hready hbehind
  dsimp only
  rw [hostHdr] at hoffer ⊢
  rw [hoffer]
  cases writeFate s _ k <;> rfl

end

/-- Settles O25: each fate of the check in the order of R166, for a block's header and for the host's. -/
theorem windowWritesAreChecked : Obligations.WindowWritesAreChecked := by
  refine ⟨?_, ?_⟩
  · intro h k w s hkey hw hpitch
    subst hw
    have hexec : exec (.windowWriteCheck h) s = .next (offerWrite s h .block).1 := rfl
    refine ⟨fun hwait => by rw [hexec, offerWrite_waits _ hwait], fun hready hbehind => ?_⟩
    have hoffer := offerWrite_eq hkey .block hready hbehind
    refine ⟨fun hnamed => ?_, fun hnamed hclosed => ?_,
      fun hnamed hopen hepoch => ⟨fun hrange => ?_, fun hsome hlen hfits => ?_⟩⟩
    · rw [hexec, hoffer, writeFate_denied hnamed]
      rfl
    · rw [hexec, hoffer, writeFate_closed hnamed hclosed]
      rfl
    · rw [hexec, hoffer, writeFate_range hnamed hopen hepoch hpitch hrange]
      rfl
    · have hfate := writeFate_in_range hnamed hopen hepoch hpitch hsome hlen hfits
      refine ⟨fun hfull => ?_, fun hroom => ?_⟩
      · rw [hexec, hoffer, hfate, if_pos hfull]
      · rw [hexec, hoffer, hfate, if_neg (not_le.mpr hroom)]
        simp only [inProgress, hpitch]
  · intro rq space win epoch slot off data k w s hlive hctx hkey hw hhome
    subst hw
    obtain ⟨hready, hbehind⟩ := hhome (hostHdr rq space win epoch slot off data) rfl
    have hexec : exec (.winWrite rq space win epoch slot off data) s = _ :=
      execWinWrite_eq hctx hkey hready hbehind
    refine ⟨fun hnamed => ?_, fun hnamed hclosed => ?_, fun hnamed hopen hepoch hrange => ?_,
      fun hnamed hopen hepoch hsome hlen hfits hroom => ?_⟩
    · rw [writeFate_denied hnamed] at hexec
      exact answered_replyC hexec hlive
    · rw [writeFate_closed hnamed hclosed] at hexec
      exact answered_replyC hexec hlive
    · rw [writeFate_range hnamed hopen hepoch rfl hrange] at hexec
      exact answered_replyC hexec hlive
    · rw [hexec, writeFate_in_range hnamed hopen hepoch rfl hsome hlen hfits, if_neg (not_le.mpr hroom)]
      rfl

end Sys2Proof.Machine

/-!
PROOFS. WIN_OPEN, WIN_CLOSE and the end of a close (R156, R158, R169 to R171, R175).
-/

namespace Sys2Proof.Machine

/-! ## Who asks (R158) -/

theorem onWindows_host {s : State} {rq : Req} (hctx : (liveCtx s rq.ctx).isSome) (slot op : Nat) (f : Nat → Nat → State) :
    onWindows s (.host rq) slot op f = f rq.ctx slot := onCtx_of_live hctx op (f rq.ctx slot)

theorem onWindows_stage {s : State} {core slot c : Nat} {j : Job} (hrun : stageRunning s core slot = some (c, j)) (op : Nat)
    (f : Nat → Nat → State) : onWindows s (.stage core) slot op f = f c j.run.slot := by
  simp only [onWindows, hrun]

/-- A running stage is a stage of a job that holds its cores. -/
theorem stageCtx_of_stageRunning {s : State} {core slot c : Nat} {j : Job} (hrun : stageRunning s core slot = some (c, j)) :
    stageCtx s core slot = some c := by
  unfold stageRunning at hrun
  split at hrun
  · cases hrun
  next d hd =>
    split at hrun
    · cases hrun
    · split at hrun
      · cases hrun
        exact hd
      · cases hrun

theorem winAnswer_stage {s : State} {core slot c : Nat} (hstage : stageCtx s core slot = some c) (op : Nat) (st : Status)
    (rs : Reason) (value : Nat) (body : Bytes) : winAnswer s (.stage core) slot op st rs value body =
      modStage s c core slot (fun r => { r with answer := some (st, rs, value) }) := by
  simp only [winAnswer, hstage]

/-! ## The conditions of an opening (R156, R158) -/

/-- Of a writers' byte, the bits outside a mask of eight are none when each bit that is set stands in the mask. -/
theorem outside_mask_eq_zero {a m : Nat} (h : ∀ n < 8, bit a n = true → bit m n = true) :
    a &&& (255 - m) = 0 := by
  by_cases hm : m < 2 ^ 8
  · refine Nat.eq_of_testBit_eq fun n => ?_
    rw [Nat.testBit_and, Nat.zero_testBit, show 255 - m = 2 ^ 8 - (m + 1) by omega, Nat.testBit_two_pow_sub_succ hm]
    by_cases hn : n < 8
    · have hbit := h n hn
      unfold bit at hbit
      cases hset : a.testBit n <;> simp_all
    · simp [hn]
  · rw [show 255 - m = 0 by omega, Nat.and_zero]

theorem outside_mask_ne_zero {a m n : Nat} (hm : m < 2 ^ 8) (hn : n < 8) (ha : bit a n = true) (hout : bit m n = false) :
    a &&& (255 - m) ≠ 0 := by
  intro h
  unfold bit at ha hout
  have hmask : (255 - m).testBit n = true := by
    rw [show 255 - m = 2 ^ 8 - (m + 1) by omega, Nat.testBit_two_pow_sub_succ hm]
    simp [hout, hn]
  have hbit : (a &&& (255 - m)).testBit n = true := by rw [Nat.testBit_and, ha, hmask, Bool.and_self]
  rw [h, Nat.zero_testBit] at hbit
  cases hbit

theorem bit_mod_byte (wr n : Nat) (hn : n < 8) : bit (wr % 256) n = bit wr n := by
  unfold bit
  rw [show 256 = 2 ^ 8 from rfl, Nat.testBit_mod_two_pow]
  simp [hn]

theorem bit_div_upper (wr n : Nat) : bit (wr / 2 ^ 24) n = bit wr (24 + n) := by
  unfold bit
  rw [Nat.testBit_div_two_pow, Nat.add_comm]

theorem tget_of_tget? {α : Type} {t : Tab α} {k : Nat} {v : α} (d : α) (h : tget? t k = some v) : tget t d k = v := by
  rw [tget?] at h
  rw [tget, h, Option.getD_some]

section
variable {s : State} {c slot space win k : Nat} (base limit wr : Nat)

/-- A name that selects no entry fails first (R175). -/
theorem winOpenCheck_noEntry (hkey : keyOf s c slot space win = none) :
    winOpenCheck s c slot space win base limit wr = some (.noQuota, .winIndex) := by
  unfold winOpenCheck
  split
  next him hk => rw [hkey] at hk; cases hk
  next => rfl

variable {im : Image} {first len : Nat} (him : imageOf s c slot = some im) (hkey : keyOf s c slot space win = some k)
  (hshare : tget? im.shares space = some (first, len))
include him hkey hshare

theorem winOpenCheck_open (hst : (winAt s k).state ≠ .closed) :
    winOpenCheck s c slot space win base limit wr = some (.refused, .winState) := by
  simp [winOpenCheck, him, hkey, hshare, hst]

variable (hst : (winAt s k).state = .closed)
include hst

theorem winOpenCheck_unaligned (hlimit : limit ≤ base) :
    winOpenCheck s c slot space win base limit wr = some (.refused, .winAlign) := by
  simp [winOpenCheck, him, hkey, hshare, hst, hlimit]

variable {base limit} (hlimit : base < limit)
include hlimit

theorem winOpenCheck_beyond (hbounds : len < limit) :
    winOpenCheck s c slot space win base limit wr = some (.refused, .winBounds) := by
  simp [winOpenCheck, him, hkey, hshare, hst, hbounds, not_le.mpr hlimit]

variable (hbounds : limit ≤ len)
include hbounds

/-- Within its share, an opening is judged by the rows of the other entries and then by its writers. -/
theorem winOpenCheck_within : winOpenCheck s c slot space win base limit wr =
    if s.wins.any (fun e => decide (e.1 / 256 = k / 256) && decide (e.2.state ≠ .closed) &&
      decide (e.2.base < first + limit) && decide (first + base < e.2.limit)) then some (.refused, .winOverlap)
    else if (wr % 256) &&& (255 - (tget s.ctxs {} c).cores) ≠ 0 ∨ (wr / 2 ^ 24) &&& (255 - setMembers s) ≠ 0
      then some (.refused, .winWriters) else none := by
  simp only [winOpenCheck, him, hkey, hshare, hst, ne_eq, not_true_eq_false, if_false,
    if_neg (not_le.mpr hlimit), if_neg (not_lt.mpr hbounds)]

theorem winOpenCheck_overlap (hmeet : ∃ e ∈ s.wins, e.1 / 256 = k / 256 ∧ e.2.state ≠ .closed ∧
      e.2.base < first + limit ∧ first + base < e.2.limit) :
    winOpenCheck s c slot space win base limit wr = some (.refused, .winOverlap) := by
  obtain ⟨e, he, hhome, hopen, hlow, hhigh⟩ := hmeet
  rw [winOpenCheck_within wr him hkey hshare hst hlimit hbounds,
    if_pos (List.any_eq_true.mpr ⟨e, he, by simp [hhome, hopen, hlow, hhigh]⟩)]

variable (hfree : ∀ e ∈ s.wins, e.1 / 256 = k / 256 →
  e.2.state = .closed ∨ first + limit ≤ e.2.base ∨ e.2.limit ≤ first + base)
include hfree

theorem winOpenCheck_free : winOpenCheck s c slot space win base limit wr =
    if (wr % 256) &&& (255 - (tget s.ctxs {} c).cores) ≠ 0 ∨ (wr / 2 ^ 24) &&& (255 - setMembers s) ≠ 0
      then some (.refused, .winWriters) else none := by
  have hnone : s.wins.any (fun e => decide (e.1 / 256 = k / 256) && decide (e.2.state ≠ .closed) &&
      decide (e.2.base < first + limit) && decide (first + base < e.2.limit)) = false := by
    refine List.any_eq_false.mpr fun e he => ?_
    by_cases hhome : e.1 / 256 = k / 256
    · obtain h | h | h := hfree e he hhome
      · simp [h]
      · simp [not_lt.mpr h]
      · simp [not_lt.mpr h]
    · simp [hhome]
  rw [winOpenCheck_within wr him hkey hshare hst hlimit hbounds, hnone, if_neg (by decide)]

theorem winOpenCheck_passes (hcores : ∀ n < 8, bit wr n = true → bit (tget s.ctxs {} c).cores n = true)
    (hset : ∀ n < 8, bit wr (24 + n) = true → bit (setMembers s) n = true) :
    winOpenCheck s c slot space win base limit wr = none := by
  have hlow : (wr % 256) &&& (255 - (tget s.ctxs {} c).cores) = 0 :=
    outside_mask_eq_zero fun n hn h => hcores n hn (by rwa [bit_mod_byte _ _ hn] at h)
  have hhigh : (wr / 2 ^ 24) &&& (255 - setMembers s) = 0 :=
    outside_mask_eq_zero fun n hn h => hset n hn (by rwa [bit_div_upper] at h)
  rw [winOpenCheck_free wr him hkey hshare hst hlimit hbounds hfree,
    if_neg (fun h => h.elim (· hlow) (· hhigh))]

theorem winOpenCheck_writers (hcores : (tget s.ctxs {} c).cores < 256)
    (hout : ∃ n < 8, bit wr n = true ∧ bit (tget s.ctxs {} c).cores n = false) :
    winOpenCheck s c slot space win base limit wr = some (.refused, .winWriters) := by
  obtain ⟨n, hn, hset, hclear⟩ := hout
  rw [winOpenCheck_free wr him hkey hshare hst hlimit hbounds hfree,
    if_pos (.inl (outside_mask_ne_zero hcores hn (by rwa [bit_mod_byte _ _ hn]) hclear))]

end

/-! ## WIN_OPEN (R158, R541) -/

/-- An entry that has been opened: `first` is the first row of the share. -/
def openedWin (w : Win) (c slot first base limit wr thr : Nat) : Win :=
  { w with
    state := .opened, slot := slot, ctx := c, epoch := (w.epoch + 1) % 256, base := first + base, limit := first + limit,
    writers := wr &&& 0xFF0007FF, arrivals := 0, threshold := thr, discards := 0, rejects := 0 }

section
variable {s : State} {who : WinBy} {slot c islot space win base limit wr : Nat}
  (hwho : ∀ f, onWindows s who slot 0x0160 f = f c islot) (hfence : s.fenced.contains space = false)
include hwho hfence

theorem execWinOpen_fails (thr : Nat) {st : Status} {r : Reason}
    (hcheck : winOpenCheck s c islot space win base limit wr = some (st, r)) :
    execWinOpen who space win slot base limit wr thr s = .next (winAnswer s who slot 0x0160 st r 0 []) := by
  simp only [execWinOpen, hwho, hfence, hcheck]
  rfl

theorem execWinOpen_opens (thr : Nat) {im : Image} {k : Nat}
    (hcheck : winOpenCheck s c islot space win base limit wr = none) (him : imageOf s c islot = some im)
    (hkey : keyOf s c islot space win = some k) :
    execWinOpen who space win slot base limit wr thr s = .next (winAnswer
      (setWin s k (openedWin (winAt s k) c islot (tget im.shares (0, 0) space).1 base limit wr thr)) who slot 0x0160 .ok .none
      (((winAt s k).epoch + 1) % 256) (leBytes 1 (((winAt s k).epoch + 1) % 256) ++ [0, 0, 0])) := by
  have hopen : winOpen s c islot space win base limit wr thr =
      setWin s k (openedWin (winAt s k) c islot (tget im.shares (0, 0) space).1 base limit wr thr) := by
    simp only [winOpen, him, hkey]
    rfl
  simp only [execWinOpen, hwho, hfence, hcheck, hopen, hkey, Option.map_some, Option.getD_some, winAt_setWin]
  rfl

end

/-! ## WIN_CLOSE (R169 to R171) -/

section
variable {s : State} {who : WinBy} {slot c islot space win : Nat} (hwho : ∀ f, onWindows s who slot 0x0161 f = f c islot)
include hwho

theorem execWinClose_noEntry (hkey : keyOf s c islot space win = none) :
    execWinClose who space win slot s = .next (winAnswer s who slot 0x0161 .noQuota .winIndex 0 []) := by
  simp only [execWinClose, hwho, hkey]

theorem execWinClose_closed {k : Nat} (hkey : keyOf s c islot space win = some k) (hst : (winAt s k).state = .closed) :
    execWinClose who space win slot s =
      .next (winAnswer s who slot 0x0161 .ok .none (winAt s k).arrivals (closeBody (winAt s k))) := by
  simp only [execWinClose, hwho, hkey, hst]

theorem execWinClose_begins {k : Nat} (hkey : keyOf s c islot space win = some k) (hst : (winAt s k).state ≠ .closed) :
    execWinClose who space win slot s = .next (setWin s k { winAt s k with
      state := .closing, closers := (winAt s k).closers ++ [(who, slot)] }) := by
  simp only [execWinClose, hwho, hkey]

end

/-! ## The end of a close (R163, R170, R171) -/

theorem entryFlights_eq_zero_iff (s : State) (k : Nat) :
    entryFlights s k = 0 ↔ s.flights.any (fun f => f.2.home * 256 + f.2.entry == k) = false := by
  rw [entryFlights, List.length_eq_zero_iff, List.filter_eq_nil_iff, List.any_eq_false]
  exact forall₂_congr fun f _ => by rw [decide_eq_true_iff, beq_iff_eq, winKey]

theorem closeDone_stays {s : State} {k : Nat} (h : (winAt s k).state ≠ .closing ∨ entryFlights s k ≠ 0) :
    closeDone s k = s := by
  rw [closeDone]
  exact if_neg (by tauto)

/-- The closers of an entry are answered (R170). -/
def closersAnswered (s : State) (w : Win) : State :=
  w.closers.foldl (fun a q => winAnswer a q.1 q.2 0x0161 .ok .none w.arrivals (closeBody w)) s

theorem closeDone_closes {s : State} {k : Nat} (hst : (winAt s k).state = .closing) (hidle : entryFlights s k = 0) :
    closeDone s k =
      closersAnswered (wake (setWin s k { winAt s k with state := .closed, closers := [] }) k) (winAt s k) := by
  rw [closeDone]
  exact if_pos ⟨hst, hidle⟩

theorem winAnswer_wins (s : State) (who : WinBy) (slot op : Nat) (st : Status) (rs : Reason) (value : Nat) (body : Bytes) :
    (winAnswer s who slot op st rs value body).wins = s.wins := by
  cases who with
  | host rq => exact replyC_wins s rq op st rs body
  | stage core =>
    simp only [winAnswer]
    split <;> rfl

theorem closersAnswered_wins (s : State) (w : Win) : (closersAnswered s w).wins = s.wins := by
  unfold closersAnswered
  exact foldl_keeps State.wins _ (fun a q => winAnswer_wins a q.1 q.2 _ _ _ _ _) w.closers s

theorem winAt_closersAnswered (s : State) (w : Win) (k : Nat) : winAt (closersAnswered s w) k = winAt s k := by
  rw [winAt, closersAnswered_wins, winAt]

/-- The job of a context runs on, and a stage of it does not wait on a window. -/
def WaitOver (s : State) (c core slot : Nat) : Prop :=
  ∃ y i, tget? s.ctxs c = some y ∧ y.job = some i ∧
    ∀ r ∈ i.stages, r.core = core → r.slot = slot → ∀ sp wn, r.st ≠ .waiting sp wn

theorem waitOver_of_ctxs {s t : State} (h : t.ctxs = s.ctxs) {c core slot : Nat} (hs : WaitOver s c core slot) :
    WaitOver t c core slot := by
  unfold WaitOver
  rw [h]
  exact hs

/-- An answer told to a stage ends no wait and begins none. -/
theorem modStage_answer_waitOver {s : State} {c core slot : Nat} (hs : WaitOver s c core slot) (d core' slot' : Nat)
    (a : Option (Status × Reason × Nat)) : WaitOver (modStage s d core' slot' (fun r => { r with answer := a })) c core slot := by
  obtain ⟨y, i, hy, hi, hstages⟩ := hs
  by_cases hd : c = d
  · subst hd
    refine ⟨_, _, tget?_modStage hy hi core' slot' _, rfl, fun r hr hcore hslot => ?_⟩
    obtain ⟨q, hq, rfl⟩ := List.mem_map.mp hr
    split at hcore
    next h =>
      rw [if_pos h] at hslot ⊢
      exact hstages q hq hcore hslot
    next h =>
      rw [if_neg h] at hslot ⊢
      exact hstages q hq hcore hslot
  · exact ⟨y, i, by rw [modStage, modCtx]; exact (tget?_tmod_ne _ _ _ _ hd).trans hy, hi, hstages⟩

theorem winAnswer_waitOver {s : State} {c core slot : Nat} (hs : WaitOver s c core slot) (who : WinBy) (slot' op : Nat)
    (st : Status) (rs : Reason) (value : Nat) (body : Bytes) :
    WaitOver (winAnswer s who slot' op st rs value body) c core slot := by
  cases who with
  | host rq => exact waitOver_of_ctxs (replyC_ctxs s rq op st rs body) hs
  | stage core' =>
    simp only [winAnswer]
    split
    next => exact hs
    next d _ => exact modStage_answer_waitOver hs d core' slot' _

theorem closersAnswered_waitOver {s : State} {c core slot : Nat} (hs : WaitOver s c core slot) (w : Win) :
    WaitOver (closersAnswered s w) c core slot := by
  unfold closersAnswered
  induction w.closers generalizing s with
  | nil => exact hs
  | cons q t ih => exact ih (winAnswer_waitOver hs q.1 q.2 _ _ _ _ _)

/-- A job that resumes waits on no more windows than before. -/
theorem resumeJob_stage {j : Job} {r : StageRun} (hr : r ∈ (resumeJob j).stages) :
    ∃ q ∈ j.stages, q.core = r.core ∧ q.slot = r.slot ∧ (r.st = q.st ∨ r.st = .running) := by
  unfold resumeJob at hr
  split at hr
  · dsimp only at hr
    split at hr
    · obtain ⟨q, hq, rfl⟩ := List.mem_map.mp hr
      refine ⟨q, hq, ?_⟩
      split <;> simp
    · exact ⟨r, hr, rfl, rfl, .inl rfl⟩
  · exact ⟨r, hr, rfl, rfl, .inl rfl⟩

theorem resumeJob_waitOver {s : State} {c core slot : Nat} (hs : WaitOver s c core slot) :
    WaitOver (modCtx s c (fun y => { y with st := .resident, job := y.job.map resumeJob })) c core slot := by
  obtain ⟨y, i, hy, hi, hstages⟩ := hs
  refine ⟨_, _, by rw [tget?_modCtx, hy, Option.map_some], by rw [hi, Option.map_some], fun r hr hcore hslot => ?_⟩
  obtain ⟨q, hq, hqcore, hqslot, hst⟩ := resumeJob_stage hr
  obtain hst | hst := hst
  · rw [hst]
    exact hstages q hq (hqcore.trans hcore) (hqslot.trans hslot)
  · rw [hst]
    exact fun _ _ h => StageSt.noConfusion h

/-- The state of a stage whose wait on a window ends: it runs (R163). -/
def runOn (r : StageRun) : StageRun :=
  match r.st with
  | .waiting _ _ => { r with st := .running }
  | _ => r

theorem runOn_not_waiting (r : StageRun) (sp wn : Nat) : (runOn r).st ≠ .waiting sp wn := by
  unfold runOn
  split
  · exact fun h => StageSt.noConfusion h
  next h => exact fun e => h sp wn e

theorem modStage_runOn_waitOver {s : State} {c core slot : Nat} {x : Ctx} {j : Job} (hctx : tget? s.ctxs c = some x)
    (hjob : x.job = some j) : WaitOver (modStage s c core slot runOn) c core slot := by
  refine ⟨_, _, tget?_modStage hctx hjob core slot _, rfl, fun r hr hcore hslot => ?_⟩
  obtain ⟨q, hq, rfl⟩ := List.mem_map.mp hr
  by_cases h : q.core = core ∧ q.slot = slot
  · rw [if_pos h]
    exact runOn_not_waiting q
  · rw [if_neg h] at hcore hslot
    exact absurd ⟨hcore, hslot⟩ h

/-- The two forms that the end of a wait can take: the stage runs on, and a context that had stalled for it resumes too. -/
theorem wake_eq {s : State} {k core slot : Nat} (hwait : (winAt s k).waiting = some (core, slot)) :
    ∃ u, u = modStage (setWin s k { winAt s k with waiting := none }) (winAt s k).ctx core slot runOn ∧
      (wake s k = u ∨ wake s k = emit (rebuildTable (modCtx u (winAt s k).ctx
        (fun y => { y with st := .resident, job := y.job.map resumeJob }))) (some (winAt s k).ctx) .ok .ctxRemoteResumed []) := by
  refine ⟨_, rfl, ?_⟩
  simp only [wake, hwait]
  split
  · split
    · exact .inr rfl
    · exact .inl rfl
  · exact .inl rfl

theorem wake_waitOver {s : State} {k core slot : Nat} {x : Ctx} {j : Job} (hwait : (winAt s k).waiting = some (core, slot))
    (hctx : tget? s.ctxs (winAt s k).ctx = some x) (hjob : x.job = some j) :
    WaitOver (wake s k) (winAt s k).ctx core slot := by
  obtain ⟨u, hu, hwake⟩ := wake_eq hwait
  have hover : WaitOver u (winAt s k).ctx core slot := by
    rw [hu]
    exact modStage_runOn_waitOver hctx hjob
  obtain hwake | hwake := hwake
  · rw [hwake]
    exact hover
  · rw [hwake]
    exact waitOver_of_ctxs (emit_ctxs _ _ _ _ _) (resumeJob_waitOver hover)

theorem deliverAll_live (p : Packet) (ts : List Nat) {s : State} {rq : Req} (h : Live rq s) :
    Live rq (ts.foldl (fun a sid => deliver a sid p none) s) := by
  induction ts generalizing s with
  | nil => exact h
  | cons sid ts ih => exact ih (deliver_live s sid rq.sess p h)

/-- An event leaves every session alive. -/
theorem emit_live {s : State} {rq : Req} (h : Live rq s) (c : Option Nat) (st : Status) (r : Reason) (b : Bytes) :
    Live rq (emit s c st r b) := by
  unfold emit
  split
  · exact h
  · dsimp only
    split
    · exact h
    · exact deliverAll_live _ _ h

theorem wake_live {s : State} {rq : Req} (h : Live rq s) (k : Nat) : Live rq (wake s k) := by
  cases hwait : (winAt s k).waiting with
  | none => rwa [wake_none hwait]
  | some who =>
    obtain ⟨u, hu, hwake⟩ := wake_eq hwait
    have hlive : Live rq u := by
      rw [hu]
      exact h
    obtain hwake | hwake := hwake
    · rwa [hwake]
    · rw [hwake]
      exact emit_live (show Live rq (rebuildTable (modCtx u _ _)) from hlive) _ _ _ _

/-- Settles O24: the conditions of an opening one by one, the two ways a close is answered, and the end of a close. -/
theorem windowsOpenAndClose : Obligations.WindowsOpenAndClose := by
  refine ⟨⟨?_, ?_⟩, ?_, ?_, ?_⟩
  · intro core stg c space win base limit wr thr j s hrun hfence i hi
    subst hi
    have hwho := onWindows_stage hrun 0x0160
    have hstage := stageCtx_of_stageRunning hrun
    refine ⟨fun st r hcheck => ?_, fun k im hcheck him hkey => ?_⟩
    · exact (execWinOpen_fails hwho hfence thr hcheck).trans (by rw [winAnswer_stage hstage])
    · refine (execWinOpen_opens hwho hfence thr hcheck him hkey).trans ?_
      rw [winAnswer_stage (s := setWin s k _) hstage]
      rfl
  · intro rq space win slot base limit wr thr s hlive hctx hfence
    have hwho := onWindows_host hctx slot 0x0160
    have hfails : ∀ {st r}, winOpenCheck s rq.ctx slot space win base limit wr = some (st, r) →
        Answered (.winOpen (.host rq) space win slot base limit wr thr) s rq 0x0160 rq.ctx st r [] s :=
      fun hcheck => answered_replyC (execWinOpen_fails hwho hfence thr hcheck) hlive
    refine ⟨fun hkey => hfails (winOpenCheck_noEntry _ _ _ hkey), fun k im first len hkey him hshare => ⟨fun hst => ?_,
      fun hst hlimit => ?_, fun hst hlimit hbounds => ?_, fun hst hlimit hbounds hfree hcores hset _ => ?_,
      fun hst hlimit hbounds hmeet => ?_, fun hst hlimit hbounds hfree hcores hout => ?_⟩⟩
    · exact hfails (winOpenCheck_open _ _ _ him hkey hshare hst)
    · exact hfails (winOpenCheck_unaligned _ _ _ him hkey hshare hst hlimit)
    · exact hfails (winOpenCheck_beyond _ him hkey hshare hst hlimit hbounds)
    · have hopens := execWinOpen_opens hwho hfence thr
        (winOpenCheck_passes wr him hkey hshare hst hlimit hbounds hfree hcores hset) him hkey
      rw [tget_of_tget? _ hshare] at hopens
      exact answered_replyC hopens hlive
    · exact hfails (winOpenCheck_overlap _ him hkey hshare hst hlimit hbounds hmeet)
    · exact hfails (winOpenCheck_writers _ him hkey hshare hst hlimit hbounds hfree hcores hout)
  · intro rq space win slot s hlive hctx
    have hwho := onWindows_host hctx slot 0x0161
    refine ⟨fun hkey => answered_replyC (execWinClose_noEntry hwho hkey) hlive, fun k w hkey hw => ?_⟩
    subst hw
    exact ⟨fun hst => answered_replyC (execWinClose_closed hwho hkey hst) hlive, fun hst => execWinClose_begins hwho hkey hst⟩
  · intro core stg c space win j s hrun k w hkey hw
    subst hw
    have hwho := onWindows_stage hrun 0x0161
    exact ⟨fun hst => (execWinClose_closed hwho hkey hst).trans (by rw [winAnswer_stage (stageCtx_of_stageRunning hrun)]),
      fun hst => execWinClose_begins hwho hkey hst⟩
  · intro space entry k w s hk hw
    subst hk hw
    have hexec : exec (.winCloseComplete space entry) s = .next (settleAll (closeDone s (winKey (homeOf s space) entry))) := rfl
    rw [winKey] at hexec
    generalize homeOf s space * 256 + entry = k at hexec ⊢
    refine ⟨fun hstays => ?_, fun hst hidle => ?_⟩
    · rw [hexec, closeDone_stays (hstays.imp id fun h => ?_)]
      rw [Ne, entryFlights_eq_zero_iff, h]
      decide
    · have hdone := closeDone_closes hst ((entryFlights_eq_zero_iff s k).mpr hidle)
      refine ⟨closeDone s k, hexec, ?_, fun m hm => ?_, fun core slot x j hwait hctx hjob => ?_,
        fun rq slot hclosers hlive => ?_, ?_⟩
      · rw [hdone, winAt_closersAnswered, winAt_wake, winAt_setWin]
      · rw [hdone, winAt_closersAnswered, winAt_wake_ne _ _ _ hm, winAt_setWin_ne _ _ _ _ hm]
      · rw [hdone]
        have hover := wake_waitOver (s := setWin s k { winAt s k with state := .closed, closers := [] }) (k := k)
          (core := core) (slot := slot) (x := x) (j := j)
        rw [winAt_setWin] at hover
        exact closersAnswered_waitOver (hover hwait hctx hjob) _
      · rw [hdone, closersAnswered, hclosers]
        exact replyC_replied _ rq _ _ _ _ (wake_live (s := setWin s k _) hlive k)
      · have hmem := closeDone_memories s k
        simp only [memories, Prod.mk.injEq] at hmem
        obtain ⟨hspan, hdecks, ht3, ht4⟩ := hmem
        exact ⟨hdecks, hspan, ht3, ht4⟩

end Sys2Proof.Machine

/-!
PROOFS. Power domains, the islands of the Decks and the banks of the Span (R151, R611 to R617).
-/

namespace Sys2Proof.Machine

/-! ## Masks of domains -/

/-- A domain taken out of a mask of `w` domains: it alone is out. -/
theorem bit_removed (m w d k : Nat) (hk : k < w) : bit (m &&& ((2 ^ w - 1) ^^^ (1 <<< d))) k = (bit m k && decide (k ≠ d)) := by
  unfold bit
  rw [Nat.testBit_and, Nat.testBit_xor, Nat.testBit_two_pow_sub_one, Nat.one_shiftLeft, Nat.testBit_two_pow]
  by_cases h : k = d
  · simp [h, show d < w from h ▸ hk]
  · simp [h, Ne.symm h, hk]

theorem bit_removed_self (m w d : Nat) (hd : d < w) : bit (m &&& ((2 ^ w - 1) ^^^ (1 <<< d))) d = false := by
  rw [bit_removed m w d d hd]
  simp

theorem bit_removed_ne {m w d k : Nat} (hk : k < w) (h : k ≠ d) : bit (m &&& ((2 ^ w - 1) ^^^ (1 <<< d))) k = bit m k := by
  rw [bit_removed m w d k hk]
  simp [h]

theorem bit_added_self (m d : Nat) : bit (m ||| (1 <<< d)) d = true := by
  unfold bit
  rw [Nat.testBit_or, Nat.one_shiftLeft, Nat.testBit_two_pow_self, Bool.or_true]

theorem bit_added_ne {m d k : Nat} (h : k ≠ d) : bit (m ||| (1 <<< d)) k = bit m k := by
  unfold bit
  rw [Nat.testBit_or, Nat.one_shiftLeft, Nat.testBit_two_pow_of_ne h.symm, Bool.or_false]

/-! ## A change of the chip state -/

/-- An event changes the Kraros layer and the counter of draws alone, lost or not. -/
theorem emit_frame (s : State) (c : Option Nat) (st : Status) (r : Reason) (b : Bytes) :
    emit s c st r b = { s with net := (emit s c st r b).net, draws := (emit s c st r b).draws } := by
  unfold emit
  split
  · rfl
  · dsimp only
    split
    · rfl
    · rw [deliverAll_frame]
      rfl

/-- The report of the chip state changes the Kraros layer and the counter of draws alone (R610, R635). -/
theorem stateChanged_frame (old : Nat) (s : State) :
    stateChanged old s = { s with net := (stateChanged old s).net, draws := (stateChanged old s).draws } := by
  unfold stateChanged
  split
  · rfl
  · exact emit_frame s none .ok .pwrStateChange _

@[simp] theorem stateChanged_pwr (old : Nat) (s : State) : (stateChanged old s).pwr = s.pwr := by
  rw [stateChanged_frame]

/-! ## Down, up, gated -/

/-- The state in which a domain other than the ISP's is down, before the report. -/
def withoutDomain (s : State) (d : Nat) : State :=
  { s with pwr := { s.pwr with
    up := s.pwr.up &&& ((2 ^ 32 - 1) ^^^ (1 <<< d)), gated := s.pwr.gated &&& (255 ^^^ (1 <<< d)) } }

theorem domainDown_eq {s : State} {d : Nat} (h : d ≠ 8) : domainDown s d = stateChanged (chipState s) (withoutDomain s d) := by
  rw [domainDown]
  exact congrArg (stateChanged (chipState s)) (if_neg h)

/-- The state in which a voted core is up, its clocks run and its island is its own again, before the report. -/
def withCore (s : State) (n : Nat) : State :=
  { s with pwr := { s.pwr with
    up := s.pwr.up ||| (1 <<< n), gated := s.pwr.gated &&& (255 ^^^ (1 <<< n)),
    islands := s.pwr.islands &&& (255 ^^^ (1 <<< n)) } }

section
variable {s : State} {d : Nat} (hawake : s.pwr.mode = .awake) (hd : d < 32)
include hawake hd

theorem execDomainDelayExpire_voted (hup : bit s.pwr.up d = true) (hvote : bit (votedMask s) d = true) :
    execDomainDelayExpire d s = .next s := by
  rw [execDomainDelayExpire, if_neg (by simp [hawake, not_le.mpr hd]), if_pos hup, if_pos hvote]

theorem execDomainDelayExpire_unvoted (hup : bit s.pwr.up d = true) (hvote : bit (votedMask s) d = false) :
    execDomainDelayExpire d s = .next (domainDown s d) := by
  rw [execDomainDelayExpire, if_neg (by simp [hawake, not_le.mpr hd]), if_pos hup, if_neg (by simp [hvote])]

theorem execDomainDelayExpire_island (hcore : d < 8) (hdown : bit s.pwr.up d = false) (hisland : bit s.pwr.islands d = true)
    (hwait : s.waitHdrs.any (fun h => h.1.space == d) = false) : execDomainDelayExpire d s =
      .next { s with pwr := { s.pwr with islands := s.pwr.islands &&& (255 ^^^ (1 <<< d)) } } := by
  rw [execDomainDelayExpire, if_neg (by simp [hawake, not_le.mpr hd]), if_neg (by simp [hdown]),
    if_pos ⟨hcore, hisland, by simp [hwait]⟩]

end

theorem execCoreIdleGate_gates {s : State} {n : Nat} (hn : n < 8) (hawake : s.pwr.mode = .awake) (hup : bit s.pwr.up n = true)
    (hclock : bit s.pwr.gated n = false) (hidle : coreBusy s n = false) : execCoreIdleGate n s =
      .next (stateChanged (chipState s) { s with pwr := { s.pwr with gated := s.pwr.gated ||| (1 <<< n) } }) := by
  rw [execCoreIdleGate, if_pos ⟨hn, hawake, hup, by simp [hclock], by simp [hidle]⟩]

theorem execCorePowerUpComplete_up {s : State} {n : Nat} (hn : n < 8) (hawake : s.pwr.mode = .awake)
    (hdown : bit s.pwr.up n = false) (hvote : bit (votedMask s) n = true) (hfence : n ∉ s.fenced) :
    execCorePowerUpComplete n s =
      .next (settleAll (releaseWork (retryWaits (schedule (stateChanged (chipState s) (withCore s n)))))) := by
  rw [execCorePowerUpComplete, if_pos ⟨hn, hawake, by simp [hdown], hvote, by simp [hfence]⟩]
  rfl

/-- The state in which a bank of the Span is up, with its rows' valid bits clear (R151). -/
def withBank (s : State) (b : Nat) : State :=
  { s with
    span := s.span.flashClear (b * 8192) (b * 8192 + 8192),
    pwr := { s.pwr with up := s.pwr.up ||| (1 <<< (16 + b)) } }

theorem execSpanBankPowerUp_up {s : State} {b : Nat} (hb : b < 16) (hdown : bit s.pwr.up (16 + b) = false) :
    execSpanBankPowerUp b s = .next (settleAll (releaseWork (retryWaits (withBank s b)))) := by
  rw [execSpanBankPowerUp, if_neg (by simp [hdown, not_le.mpr hb])]
  rfl

/-- The rows whose valid bits a flash clear leaves (R149). -/
theorem mem_valid_flashClear (r : Ram) (lo hi row : Nat) :
    row ∈ (r.flashClear lo hi).valid ↔ row ∈ r.valid ∧ ¬(lo ≤ row ∧ row < hi) := by
  rw [Ram.flashClear, removeRange, List.mem_filter, Bool.or_eq_true, decide_eq_true_iff, decide_eq_true_iff]
  exact and_congr_right fun _ => by omega

/-- Settles O8: each event of power on the masks of the domains, the clocks and the islands. -/
theorem domainsFollowVotes : Obligations.DomainsFollowVotes := by
  refine ⟨⟨?_, ?_, ?_, ?_⟩, ?_, ?_, ?_⟩
  · exact fun rq s hlive => answered_replyD rfl hlive
  · intro d s hawake hd hup
    refine ⟨execDomainDelayExpire_voted hawake hd hup, fun hvote hisp =>
      ⟨stateChanged (chipState s) (withoutDomain s d), ?_, ?_, fun k hk hkd => ?_, ?_⟩⟩
    · exact (execDomainDelayExpire_unvoted hawake hd hup hvote).trans (by rw [domainDown_eq hisp])
    · rw [stateChanged_pwr]
      exact bit_removed_self _ 32 d hd
    · rw [stateChanged_pwr]
      exact bit_removed_ne hk hkd
    · rw [stateChanged_pwr]
      exact stateChanged_frame _ _
  · intro n s hn hawake hup hclock hidle
    refine ⟨_, execCoreIdleGate_gates hn hawake hup hclock hidle, ?_, ?_⟩
    · rw [stateChanged_pwr, Nat.one_shiftLeft]
    · rw [stateChanged_pwr]
      exact stateChanged_frame _ _
  · intro n s hn hawake hdown hisland hwait
    exact ⟨_, execDomainDelayExpire_island hawake (by omega) hn hdown hisland hwait, bit_removed_self _ 8 n hn,
      fun k hk hkn => bit_removed_ne hk hkn, rfl⟩
  · intro n s hn hawake hdown hvote hfence
    exact ⟨withCore s n, bit_added_self _ _, bit_removed_self _ 8 n hn, bit_removed_self _ 8 n hn,
      fun k _ hkn => bit_added_ne hkn, rfl, execCorePowerUpComplete_up hn hawake hdown hvote hfence⟩
  · intro n s hdown hwait
    have hexec : exec (.deckIslandPowerUp n) s = execDeckIslandPowerUp n s := rfl
    rw [hexec, execDeckIslandPowerUp, if_neg (by simp [hdown, hwait]), Nat.one_shiftLeft]
  · intro b s hb hdown
    exact ⟨withBank s b, execSpanBankPowerUp_up hb hdown, mem_valid_flashClear s.span _ _, rfl,
      congrArg (s.pwr.up ||| ·) (Nat.one_shiftLeft _), rfl⟩

end Sys2Proof.Machine

/-!
PROOFS. Block coding of tiles (R214 to R225): zigzag, bit strings, IBC-W, IBC-A, and the payload that the expander takes apart.
-/

namespace Sys2Proof.Machine.Ibc

/-! ## Zigzag (R218) -/

theorem zigzag_of_nonneg {w q : Nat} (h : q < 2 ^ (w - 1)) : zigzag w q = 2 * q := if_pos h

theorem zigzag_of_neg {w q : Nat} (h : 2 ^ (w - 1) ≤ q) : zigzag w q = 2 * (2 ^ w - q) - 1 := if_neg (by omega)

theorem two_pow_pred {w : Nat} (hw : 0 < w) : 2 ^ w = 2 * 2 ^ (w - 1) := by
  obtain ⟨n, rfl⟩ := Nat.exists_eq_succ_of_ne_zero hw.ne'
  rw [Nat.succ_sub_one, Nat.pow_succ, Nat.mul_comm]

theorem zigzag_lt {w q : Nat} (hw : 0 < w) (hq : q < 2 ^ w) : zigzag w q < 2 ^ w := by
  have hpow := two_pow_pred hw
  unfold zigzag
  split <;> omega

theorem unzigzag_zigzag {w q : Nat} (hw : 0 < w) (hq : q < 2 ^ w) : unzigzag w (zigzag w q) = q := by
  have hpow := two_pow_pred hw
  rcases Nat.lt_or_ge q (2 ^ (w - 1)) with h | h
  · rw [zigzag_of_nonneg h, unzigzag, if_pos (by omega)]
    omega
  · rw [zigzag_of_neg h, unzigzag, if_neg (by omega)]
    omega

/-! ## Bits and bytes (R216) -/

@[simp] theorem length_toBits (n v : Nat) : (toBits n v).length = n := by
  induction n generalizing v with
  | zero => rfl
  | succ n ih => simp [toBits, ih]

theorem ofBits_toBits (n v : Nat) : ofBits (toBits n v) = v % 2 ^ n := by
  induction n generalizing v with
  | zero => simp [toBits, ofBits, Nat.mod_one]
  | succ n ih =>
    rw [toBits, ofBits, ih, Nat.pow_succ', Nat.mod_mul]
    rcases Nat.mod_two_eq_zero_or_one v with h | h <;> simp [ofBool, h]

theorem toBits_ofBits (n : Nat) (l : List Bool) (h : l.length ≤ n) :
    toBits n (ofBits l) = l ++ List.replicate (n - l.length) false := by
  induction n generalizing l with
  | zero => simp_all [toBits]
  | succ n ih =>
    cases l with
    | nil => simpa [toBits, ofBits, List.replicate_succ] using ih []
    | cons b r =>
      have hr : r.length ≤ n := by simpa using h
      have hdiv : (ofBool b + 2 * ofBits r) / 2 = ofBits r := by
        cases b
        · simp [ofBool]
        · simp only [ofBool, if_true]; omega
      have hmod : decide ((ofBool b + 2 * ofBits r) % 2 = 1) = b := by cases b <;> simp [ofBool]
      rw [ofBits, toBits, hdiv, hmod, ih r hr, List.length_cons, Nat.succ_sub_succ, List.cons_append]

theorem ofBits_lt (l : List Bool) : ofBits l < 2 ^ l.length := by
  induction l with
  | nil => simp [ofBits]
  | cons b r ih =>
    rw [ofBits, List.length_cons, Nat.pow_succ]
    cases b <;> simp [ofBool] <;> omega

theorem bitsOfBytes_append (a b : Bytes) : bitsOfBytes (a ++ b) = bitsOfBytes a ++ bitsOfBytes b := by
  simp [bitsOfBytes]

theorem toBits_zero (n : Nat) : toBits n 0 = List.replicate n false := by
  simpa [ofBits] using toBits_ofBits n [] (Nat.zero_le n)

theorem bitsOfBytes_zeros (n : Nat) : bitsOfBytes (zeros n) = List.replicate (8 * n) false := by
  induction n with
  | zero => rfl
  | succ n ih =>
    have hcons : zeros (n + 1) = 0 :: zeros n := rfl
    rw [hcons, bitsOfBytes, List.flatMap_cons]
    change toBits 8 0 ++ bitsOfBytes (zeros n) = _
    rw [ih, toBits_zero, ← List.replicate_add, Nat.mul_succ, Nat.add_comm]

@[simp] theorem length_bitsOfBytes (bs : Bytes) : (bitsOfBytes bs).length = 8 * bs.length := by
  simp [bitsOfBytes, List.length_flatMap, Nat.mul_comm]

theorem packBits_cons (fuel : Nat) {l : List Bool} (h : l ≠ []) :
    packBits (fuel + 1) l = BitVec.ofNat 8 (ofBits (l.take 8)) :: packBits fuel (l.drop 8) := by
  cases l with
  | nil => exact absurd rfl h
  | cons b r => rfl

theorem packBits_nil (fuel : Nat) : packBits fuel [] = [] := by cases fuel <;> rfl

theorem length_packBits {fuel : Nat} {l : List Bool} (h : l.length ≤ 8 * fuel) :
    (packBits fuel l).length = (l.length + 7) / 8 := by
  induction fuel generalizing l with
  | zero => simp_all [packBits]
  | succ fuel ih =>
    rcases eq_or_ne l [] with rfl | hl
    · rfl
    · have hpos := List.length_pos_of_ne_nil hl
      rw [packBits_cons fuel hl, List.length_cons, ih (by rw [List.length_drop]; omega), List.length_drop]
      omega

/-- The byte that eight bits or fewer are packed in spells them, then zeros. -/
theorem toBits_packed (t : List Bool) (h : t.length ≤ 8) :
    toBits 8 (BitVec.ofNat 8 (ofBits t)).toNat = t ++ List.replicate (8 - t.length) false := by
  have hlt : ofBits t < 2 ^ 8 := lt_of_lt_of_le (ofBits_lt t) (Nat.pow_le_pow_right (by decide) h)
  rw [BitVec.toNat_ofNat, Nat.mod_eq_of_lt hlt, toBits_ofBits 8 t h]

theorem bitsOfBytes_packBits {fuel : Nat} {l : List Bool} (h : l.length ≤ 8 * fuel) :
    bitsOfBytes (packBits fuel l) = l ++ List.replicate (8 * ((l.length + 7) / 8) - l.length) false := by
  induction fuel generalizing l with
  | zero => simp_all [packBits, bitsOfBytes]
  | succ fuel ih =>
    rcases eq_or_ne l [] with rfl | hl
    · simp [packBits_nil, bitsOfBytes]
    · have hpos := List.length_pos_of_ne_nil hl
      have hrest := ih (l := l.drop 8) (by rw [List.length_drop]; omega)
      have hbyte := toBits_packed (l.take 8) (by rw [List.length_take]; omega)
      rw [packBits_cons fuel hl, bitsOfBytes, List.flatMap_cons, hbyte]
      change _ ++ bitsOfBytes _ = _
      rw [hrest, List.length_take, List.length_drop]
      rcases Nat.lt_or_ge l.length 8 with hlt | hge
      · have hdrop : l.drop 8 = [] := List.drop_eq_nil_of_le (by omega)
        have htake : l.take 8 = l := List.take_of_length_le (by omega)
        have hq : (l.length + 7) / 8 = 1 := by omega
        have hz : l.length - 8 = 0 := by omega
        simp [hdrop, htake, hq, hz, Nat.min_eq_right hlt.le]
      · have hpad : 8 * ((l.length - 8 + 7) / 8) - (l.length - 8) = 8 * ((l.length + 7) / 8) - l.length := by omega
        rw [hpad, Nat.min_eq_left hge, Nat.sub_self, List.replicate_zero, List.append_nil, ← List.append_assoc,
          List.take_append_drop]

theorem length_bytesOfBits (l : List Bool) : (bytesOfBits l).length = (l.length + 7) / 8 := length_packBits (by omega)

theorem bitsOfBytes_bytesOfBits (l : List Bool) :
    bitsOfBytes (bytesOfBits l) = l ++ List.replicate (8 * ((l.length + 7) / 8) - l.length) false :=
  bitsOfBytes_packBits (by omega)

/-! ## Elements and groups of elements (R32, R216) -/

theorem elements_eight (bs : Bytes) : elements 8 bs = bs.map BitVec.toNat := rfl
theorem elements_four (bs : Bytes) : elements 4 bs = bs.flatMap (fun b => [b.toNat % 16, b.toNat / 16]) := rfl
theorem ofElements_eight (es : List Nat) : ofElements 8 es = es.map (BitVec.ofNat 8) := rfl
theorem ofElements_sixteen (es : List Nat) : ofElements 16 es = es.flatMap (leBytes 2) := rfl

theorem elements_sixteen_cons (a b : Byte) (bs : Bytes) :
    elements 16 (a :: b :: bs) = (a.toNat + 256 * b.toNat) :: elements 16 bs := by
  have hlen : (a :: b :: bs).length / 2 = bs.length / 2 + 1 := by simp only [List.length_cons]; omega
  have hdef : ∀ l : Bytes, elements 16 l = (List.range (l.length / 2)).map (fun i => field l (2 * i) 2) := fun _ => rfl
  rw [hdef, hdef, hlen, List.range_succ_eq_map, List.map_cons, List.map_map]
  refine congrArg₂ _ (by simp [field, leNat]) (List.map_congr_left fun i _ => ?_)
  simp [field, Nat.mul_succ]

theorem ofElements_four_cons (a b : Nat) (es : List Nat) :
    ofElements 4 (a :: b :: es) = BitVec.ofNat 8 (a + 16 * b) :: ofElements 4 es := by
  have hlen : (a :: b :: es).length / 2 = es.length / 2 + 1 := by simp only [List.length_cons]; omega
  have hdef : ∀ l : List Nat, ofElements 4 l = (List.range (l.length / 2)).map
    (fun i => BitVec.ofNat 8 (l.getD (2 * i) 0 + 16 * l.getD (2 * i + 1) 0)) := fun _ => rfl
  rw [hdef, hdef, hlen, List.range_succ_eq_map, List.map_cons, List.map_map]
  refine congrArg₂ _ (by simp) (List.map_congr_left fun i _ => ?_)
  simp [Nat.mul_succ]


theorem ofElements_elements_sixteen (n : Nat) (bs : Bytes) (h : bs.length = 2 * n) :
    ofElements 16 (elements 16 bs) = bs := by
  induction n generalizing bs with
  | zero => rw [List.eq_nil_of_length_eq_zero h]; rfl
  | succ n ih =>
    obtain _ | ⟨a, _ | ⟨b, r⟩⟩ := bs
    · simp at h
    · simp at h; omega
    · have hr : r.length = 2 * n := by simp at h; omega
      rw [elements_sixteen_cons, ofElements_sixteen, List.flatMap_cons, ← ofElements_sixteen, ih r hr]
      have ha := a.isLt
      have hb := b.isLt
      have hlo : BitVec.ofNat 8 (a.toNat + 256 * b.toNat) = a := BitVec.eq_of_toNat_eq (by rw [BitVec.toNat_ofNat]; omega)
      have hhi : BitVec.ofNat 8 ((a.toNat + 256 * b.toNat) / 256) = b :=
        BitVec.eq_of_toNat_eq (by rw [BitVec.toNat_ofNat]; omega)
      simp [leBytes, hlo, hhi]

theorem ofElements_elements_four (bs : Bytes) : ofElements 4 (elements 4 bs) = bs := by
  induction bs with
  | nil => rfl
  | cons b r ih =>
    rw [elements_four, List.flatMap_cons, ← elements_four]
    change ofElements 4 (b.toNat % 16 :: b.toNat / 16 :: elements 4 r) = _
    rw [ofElements_four_cons, ih, Nat.mod_add_div]
    simp

theorem ofElements_elements_eight (bs : Bytes) : ofElements 8 (elements 8 bs) = bs := by
  simp [elements_eight, ofElements_eight, Function.comp_def]

/-- The elements of a byte string give its bytes back; those of 16 bits need an even number of bytes. -/
theorem ofElements_elements {w : Nat} (hw : w = 4 ∨ w = 8 ∨ w = 16) (bs : Bytes) (h : bs.length % 2 = 0) :
    ofElements w (elements w bs) = bs := by
  obtain rfl | rfl | rfl := hw
  · exact ofElements_elements_four bs
  · exact ofElements_elements_eight bs
  · exact ofElements_elements_sixteen (bs.length / 2) bs (by omega)

theorem elements_ofElements_four (n : Nat) (es : List Nat) (h : es.length = 2 * n) (hlt : ∀ e ∈ es, e < 16) :
    elements 4 (ofElements 4 es) = es := by
  induction n generalizing es with
  | zero => rw [List.eq_nil_of_length_eq_zero h]; rfl
  | succ n ih =>
    obtain _ | ⟨a, _ | ⟨b, r⟩⟩ := es
    · simp at h
    · simp at h; omega
    · have ha : a < 16 := hlt a (by simp)
      have hb : b < 16 := hlt b (by simp)
      rw [ofElements_four_cons, elements_four, List.flatMap_cons, ← elements_four,
        ih r (by simp at h; omega) (fun e he => hlt e (by simp [he])), BitVec.toNat_ofNat]
      have hlo : (a + 16 * b) % 2 ^ 8 % 16 = a := by omega
      have hhi : (a + 16 * b) % 2 ^ 8 / 16 = b := by omega
      rw [hlo, hhi]
      rfl

theorem elements_ofElements_eight (es : List Nat) (hlt : ∀ e ∈ es, e < 2 ^ 8) : elements 8 (ofElements 8 es) = es := by
  rw [elements_eight, ofElements_eight, List.map_map]
  calc es.map (BitVec.toNat ∘ BitVec.ofNat 8) = es.map id := List.map_congr_left fun e he => Nat.mod_eq_of_lt (hlt e he)
    _ = es := List.map_id es

theorem elements_ofElements_sixteen (es : List Nat) (hlt : ∀ e ∈ es, e < 2 ^ 16) : elements 16 (ofElements 16 es) = es := by
  induction es with
  | nil => rfl
  | cons e r ih =>
    have he := hlt e (by simp)
    rw [ofElements_sixteen, List.flatMap_cons, ← ofElements_sixteen]
    change elements 16 (BitVec.ofNat 8 e :: BitVec.ofNat 8 (e / 256) :: ofElements 16 r) = _
    rw [elements_sixteen_cons, ih (fun a ha => hlt a (by simp [ha])), BitVec.toNat_ofNat, BitVec.toNat_ofNat]
    congr 1
    omega

theorem length_elements {w : Nat} (hw : w = 4 ∨ w = 8 ∨ w = 16) (bs : Bytes) (h : bs.length % 2 = 0) :
    (elements w bs).length * w = 8 * bs.length := by
  obtain rfl | rfl | rfl := hw
  · simp [elements_four, List.length_flatMap]; omega
  · simp [elements_eight]; omega
  · simp [elements]; omega

theorem elements_lt {w : Nat} (hw : w = 4 ∨ w = 8 ∨ w = 16) (bs : Bytes) : ∀ e ∈ elements w bs, e < 2 ^ w := by
  intro e he
  obtain rfl | rfl | rfl := hw
  · obtain ⟨b, -, hb⟩ := List.mem_flatMap.mp he
    have := b.isLt
    simp at hb; omega
  · obtain ⟨b, -, rfl⟩ := List.mem_map.mp he
    exact b.isLt
  · obtain ⟨i, -, rfl⟩ := List.mem_map.mp he
    unfold field
    generalize hl : (bs.drop (2 * i)).take 2 = l
    have hlen : l.length ≤ 2 := by rw [← hl, List.length_take]; omega
    obtain _ | ⟨a, _ | ⟨b, _ | _⟩⟩ := l
    · simp [leNat]
    · have := a.isLt; simp [leNat]; omega
    · have := a.isLt; have := b.isLt; simp [leNat]; omega
    · simp at hlen

theorem chunks_nil {α : Type} (n fuel : Nat) : chunks n fuel ([] : List α) = [] := by cases fuel <;> rfl

theorem chunks_cons {α : Type} (n fuel : Nat) {l : List α} (h : l ≠ []) :
    chunks n (fuel + 1) l = l.take n :: chunks n fuel (l.drop n) := by
  cases l with
  | nil => exact absurd rfl h
  | cons b r => rfl

/-- Groups cut out of a list of `m` full groups: their number, their length, and the list back. -/
theorem chunks_of_length {α : Type} {n fuel m : Nat} {l : List α} (hn : 0 < n) (hl : l.length = n * m) (hm : m ≤ fuel) :
    (chunks n fuel l).length = m ∧ (∀ g ∈ chunks n fuel l, g.length = n) ∧ (chunks n fuel l).flatten = l := by
  induction m generalizing fuel l with
  | zero => simp [List.eq_nil_of_length_eq_zero hl, chunks_nil]
  | succ m ih =>
    obtain ⟨fuel, rfl⟩ := Nat.exists_eq_succ_of_ne_zero (by omega : fuel ≠ 0)
    have hlen : l.length = n * m + n := by rw [hl, Nat.mul_succ]
    have hne : l ≠ [] := by rintro rfl; simp at hlen; omega
    obtain ⟨hcount, hall, hflat⟩ := ih (fuel := fuel) (l := l.drop n) (by rw [List.length_drop]; omega) (by omega)
    rw [chunks_cons n fuel hne]
    refine ⟨by simp [hcount], ?_, by simp [hflat]⟩
    rintro g (_ | ⟨_, hg⟩)
    · rw [List.length_take]; omega
    · exact hall g hg

/-- Numbers of `n` bits each, strung together, are cut apart again. -/
theorem chunks_flatMap_toBits {n fuel : Nat} (hn : 0 < n) (ds : List Nat) (h : ds.length ≤ fuel) (hlt : ∀ d ∈ ds, d < 2 ^ n) :
    (chunks n fuel (ds.flatMap (toBits n))).map ofBits = ds := by
  induction ds generalizing fuel with
  | nil => simp [chunks_nil]
  | cons d r ih =>
    obtain ⟨fuel, rfl⟩ := Nat.exists_eq_succ_of_ne_zero (by simp at h; omega : fuel ≠ 0)
    have hlen := length_toBits n d
    have hne : toBits n d ++ r.flatMap (toBits n) ≠ [] := by
      intro hnil
      have := congrArg List.length hnil
      simp at this; omega
    rw [List.flatMap_cons, chunks_cons n fuel hne, List.take_left' hlen, List.drop_left' hlen, List.map_cons, ofBits_toBits,
      Nat.mod_eq_of_lt (hlt d (by simp)), ih (by simpa using h) (fun e he => hlt e (by simp [he]))]

/-! ## IBC-W (R217 to R220) -/

/-- A parameter that a tile of the width may have. -/
def ParamW (w k : Nat) : Prop := k = 15 ∨ k ∈ paramsW w

theorem paramsW_le {w k : Nat} (h : k ∈ paramsW w) : k ≤ 7 := by
  unfold paramsW at h
  split at h <;> simp at h <;> omega

/-- The compressor's choice is a parameter of the width or raw. -/
theorem chooseW_param (w : Nat) (us : List Nat) : ParamW w (chooseW w us) := by
  refine List.foldlRecOn (motive := fun b : Nat × Nat => ParamW w b.1) (paramsW w) _ (.inl rfl) fun b hb k hk => ?_
  dsimp only
  split
  · exact .inr hk
  · exact hb

theorem takeBits_toBits {n v : Nat} (h : v < 2 ^ n) (r : List Bool) : takeBits n (toBits n v ++ r) = some (v, r) := by
  have hlen := length_toBits n v
  rw [takeBits, if_neg (by simp), List.take_left' hlen, List.drop_left' hlen, ofBits_toBits, Nat.mod_eq_of_lt h]

theorem ones_run (n t : Nat) (h : t < n) (r : List Bool) : ones n (List.replicate t true ++ false :: r) = (t, false :: r) := by
  induction t generalizing n with
  | zero =>
    obtain ⟨n, rfl⟩ := Nat.exists_eq_succ_of_ne_zero h.ne'
    rfl
  | succ t ih =>
    obtain ⟨n, rfl⟩ := Nat.exists_eq_succ_of_ne_zero (by omega : n ≠ 0)
    rw [List.replicate_succ, List.cons_append, ones, ih n (by omega)]

theorem ones_full (n : Nat) (r : List Bool) : ones n (List.replicate n true ++ r) = (n, r) := by
  induction n with
  | zero => rfl
  | succ n ih => rw [List.replicate_succ, List.cons_append, ones, ih]

/-- One element is read back, whichever of the three forms of R219 it took: raw, quotient and remainder, or escaped. -/
theorem decodeW_codeW {w k u : Nat} (hu : u < 2 ^ w) (r : List Bool) : decodeW w k (codeW w k u ++ r) = some (u, r) := by
  rcases eq_or_ne k 15 with rfl | hk
  · rw [codeW, if_pos rfl, decodeW, if_pos rfl, takeBits_toBits hu]
  · rw [codeW, if_neg hk, decodeW, if_neg hk]
    rcases Nat.lt_or_ge 14 (u / 2 ^ k) with hlong | hshort
    · simp only [if_neg (Nat.not_le.mpr hlong), List.append_assoc, ones_full, takeBits_toBits hu]
    · simp only [if_pos hshort, List.append_assoc, List.singleton_append]
      have hrem : takeBits k (toBits k u ++ r) = some (u % 2 ^ k, r) := by
        have hlen := length_toBits k u
        rw [takeBits, if_neg (by simp), List.take_left' hlen, List.drop_left' hlen, ofBits_toBits]
      have hval : u / 2 ^ k * 2 ^ k + u % 2 ^ k = u := Nat.div_add_mod' u (2 ^ k)
      rw [List.cons_append, ones_run 15 (u / 2 ^ k) (by omega)]
      split
      · next heq =>
        rw [Prod.mk.injEq] at heq
        omega
      · next heq =>
        simp only [Prod.mk.injEq, List.cons.injEq, true_and] at heq
        obtain ⟨rfl, rfl⟩ := heq
        simp [hrem, hval, hu]
      · next hno => exact (hno _ _ rfl).elim

/-- A run of elements coded with one parameter is read back, and the decoding goes on behind it. -/
theorem decodeAllW_run {w k : Nat} (ks us : List Nat) (m i : Nat) (r : List Bool) (hus : ∀ u ∈ us, u < 2 ^ w)
    (hk : ∀ j, i ≤ j → j < i + us.length → ks.getD (j / 64) 15 = k) :
    decodeAllW w ks (us.length + m) i (us.flatMap (codeW w k) ++ r) =
      (decodeAllW w ks m (i + us.length) r).map (fun q => (us.map (unzigzag w) ++ q.1, q.2)) := by
  induction us generalizing i with
  | nil => simp
  | cons u us ih =>
    have hhead := hk i le_rfl (by simp)
    have htail := ih (i + 1) (fun v hv => hus v (by simp [hv])) (fun j hj hlt => hk j (by omega) (by simp; omega))
    rw [List.length_cons, Nat.add_right_comm, decodeAllW, hhead, List.flatMap_cons, List.append_assoc,
      decodeW_codeW (hus u (by simp)), Option.bind_some, htail, Option.map_map,
      (by omega : i + 1 + us.length = i + (us.length + 1))]
    rfl

/-- The bits of blocks, each coded with the parameter that the compressor chose for it. -/
def blockBits (w : Nat) (blocks : List (List Nat)) : List Bool :=
  blocks.flatMap (fun us => us.flatMap (codeW w (chooseW w us)))

/-- Blocks of 64 elements are read back one after the other, each with its own parameter. -/
theorem decodeAllW_blocks {w : Nat} (ks : List Nat) (blocks : List (List Nat)) (n : Nat) (r : List Bool)
    (hks : ks.drop n = blocks.map (chooseW w)) (hlen : ∀ us ∈ blocks, us.length = 64)
    (hus : ∀ us ∈ blocks, ∀ u ∈ us, u < 2 ^ w) :
    decodeAllW w ks (64 * blocks.length) (64 * n) (blockBits w blocks ++ r) =
      some (blocks.flatten.map (unzigzag w), r) := by
  induction blocks generalizing n with
  | nil => rfl
  | cons us blocks ih =>
    have h64 := hlen us (by simp)
    have hget : ks[n]? = some (chooseW w us) := by
      have := congrArg List.head? hks
      rwa [List.head?_drop] at this
    have hdrop : ks.drop (n + 1) = blocks.map (chooseW w) := by
      rw [← List.tail_drop, hks]; rfl
    have hk : ∀ j, 64 * n ≤ j → j < 64 * n + us.length → ks.getD (j / 64) 15 = chooseW w us := by
      intro j hge hlt
      have hj : j / 64 = n := by omega
      rw [hj, List.getD_eq_getElem?_getD, hget, Option.getD_some]
    have hrun := decodeAllW_run ks us (64 * blocks.length) (64 * n) (blockBits w blocks ++ r) (hus us (by simp)) hk
    rw [h64] at hrun
    have hcount : 64 * (us :: blocks).length = 64 + 64 * blocks.length := by rw [List.length_cons]; omega
    have hbits : blockBits w (us :: blocks) ++ r = us.flatMap (codeW w (chooseW w us)) ++ (blockBits w blocks ++ r) := by
      simp [blockBits]
    rw [hcount, hbits, hrun, ← Nat.mul_succ,
      ih (n + 1) hdrop (fun v hv => hlen v (by simp [hv])) (fun v hv => hus v (by simp [hv]))]
    simp

/-- The body of a tile is the parameters of its blocks, two to a byte, and the blocks' bits. -/
theorem bodyW_eq (w : Nat) (es : List Nat) {blocks : List (List Nat)} (hb : blocks = chunks 64 200 (es.map (zigzag w))) :
    bodyW w es = ofElements 4 (blocks.map (chooseW w)) ++ bytesOfBits (blockBits w blocks) := by
  rw [bodyW, ← hb]
  have hzip : blocks.zip (blocks.map (chooseW w)) = blocks.map (fun us => (us, chooseW w us)) := by
    simpa using List.zip_map' (f := id) (g := chooseW w) (l := blocks)
  simp only [hzip, List.flatMap_map, blockBits]

/-- The blocks of a tile of `m` times 64 elements: their number, their size, their values, and the elements back. -/
theorem blocks_of_tile {w m : Nat} (hw : 0 < w) (hm : m ≤ 200) {es : List Nat} (hlen : es.length = 64 * m)
    (hes : ∀ e ∈ es, e < 2 ^ w) {blocks : List (List Nat)} (hb : blocks = chunks 64 200 (es.map (zigzag w))) :
    blocks.length = m ∧ (∀ us ∈ blocks, us.length = 64) ∧ (∀ us ∈ blocks, ∀ u ∈ us, u < 2 ^ w) ∧
      blocks.flatten.map (unzigzag w) = es := by
  obtain ⟨hcount, hall, hflat⟩ := chunks_of_length (fuel := 200) (by omega : 0 < 64)
    (by rw [List.length_map, hlen] : (es.map (zigzag w)).length = 64 * m) hm
  rw [← hb] at hcount hall hflat
  refine ⟨hcount, hall, fun us hus u hu => ?_, ?_⟩
  · have hmem : u ∈ es.map (zigzag w) := hflat ▸ List.mem_flatten.mpr ⟨us, hus, hu⟩
    obtain ⟨e, he, rfl⟩ := List.mem_map.mp hmem
    exact zigzag_lt hw (hes e he)
  · rw [hflat, List.map_map]
    calc es.map (unzigzag w ∘ zigzag w) = es.map id := List.map_congr_left fun e he => unzigzag_zigzag hw (hes e he)
      _ = es := List.map_id es

theorem ofElements_four_length (es : List Nat) : (ofElements 4 es).length = es.length / 2 := by simp [ofElements]

/-- R220: an IBC-W body is read back, and the bytes it takes are counted, whatever zero padding stands behind it. -/
theorem decodeBody_bodyW (fmt n : Nat) {tile : Bytes} (h : tile.length = 4096) {body : Bytes}
    (hbody : body = bodyW (widthW fmt) (elements (widthW fmt) tile)) :
    decodeBody 1 fmt (body ++ zeros n) = some (tile, body.length) := by
  generalize hw : widthW fmt = w at hbody
  obtain ⟨m, hwm⟩ : ∃ m, w = 4 ∧ m = 128 ∨ w = 8 ∧ m = 64 := by
    unfold widthW at hw
    split at hw
    · exact ⟨128, .inl ⟨hw.symm, rfl⟩⟩
    · exact ⟨64, .inr ⟨hw.symm, rfl⟩⟩
  have hwidth : w = 4 ∨ w = 8 ∨ w = 16 := by omega
  have hnp : (if w = 4 then 64 else 32) = m / 2 := by rcases hwm with ⟨rfl, rfl⟩ | ⟨rfl, rfl⟩ <;> rfl
  have hcnt : (if w = 4 then 8192 else 4096) = 64 * m := by rcases hwm with ⟨rfl, rfl⟩ | ⟨rfl, rfl⟩ <;> rfl
  have hlen : (elements w tile).length = 64 * m := by
    have := length_elements hwidth tile (by omega)
    rcases hwm with ⟨rfl, rfl⟩ | ⟨rfl, rfl⟩ <;> omega
  generalize hb : chunks 64 200 ((elements w tile).map (zigzag w)) = blocks
  obtain ⟨hcount, h64, hvals, hback⟩ := blocks_of_tile (by omega) (by omega) hlen (elements_lt hwidth tile) hb.symm
  rw [bodyW_eq w _ hb.symm] at hbody
  generalize hks : blocks.map (chooseW w) = ks at hbody
  have hkslen : ks.length = m := by rw [← hks, List.length_map, hcount]
  have hparam : ∀ k ∈ ks, ParamW w k := by
    rw [← hks]
    intro k hk
    obtain ⟨us, -, rfl⟩ := List.mem_map.mp hk
    exact chooseW_param w us
  have hklt : ∀ k ∈ ks, k < 16 := fun k hk => by
    rcases hparam k hk with rfl | hmem
    · decide
    · have := paramsW_le hmem; omega
  have hhead : (ofElements 4 ks).length = m / 2 := by rw [ofElements_four_length, hkslen]
  have hksback : elements 4 (ofElements 4 ks) = ks := elements_ofElements_four (m / 2) ks (by omega) hklt
  have hvalid : ks.any (fun k => !(k == 15) && !((paramsW w).contains k)) = false := by
    rw [List.any_eq_false]
    intro k hk
    rcases hparam k hk with rfl | hmem <;> simp [*]
  have hbits := length_bytesOfBits (blockBits w blocks)
  have hdec := decodeAllW_blocks ks blocks 0
    (List.replicate (8 * (bytesOfBits (blockBits w blocks)).length - (blockBits w blocks).length + 8 * n) false)
    hks.symm h64 hvals
  rw [hcount, hback] at hdec
  have hcontent : bitsOfBytes ((body ++ zeros n).drop (m / 2)) = blockBits w blocks ++
      List.replicate (8 * (bytesOfBits (blockBits w blocks)).length - (blockBits w blocks).length + 8 * n) false := by
    rw [hbody, List.append_assoc, List.drop_left' hhead, bitsOfBytes_append, bitsOfBytes_bytesOfBits, bitsOfBytes_zeros,
      List.append_assoc, ← List.replicate_add, hbits]
  have hsize : body.length = m / 2 + (bytesOfBits (blockBits w blocks)).length := by rw [hbody, List.length_append, hhead]
  have htake : elements 4 ((body ++ zeros n).take (m / 2)) = ks := by
    rw [hbody, List.append_assoc, List.take_left' hhead, hksback]
  have hall : (body ++ zeros n).length = body.length + n := by simp [zeros]
  simp only [decodeBody, if_true, hw, hnp, hcnt, htake, hcontent, hvalid]
  rw [if_neg (by simp; omega)]
  rw [hdec]
  simp only [Option.bind_some, List.length_replicate, List.take_replicate, List.any_replicate]
  rw [hall, hsize, ofElements_elements hwidth tile (by omega)]
  rw [if_neg (by simp)]
  congr 2
  omega

/-! ## IBC-A (R221 to R224) -/

theorem deltas_zero_cons (w prev : Nat) (es : List Nat) : deltas w prev (0 :: es) = deltas w prev es := rfl

theorem deltas_cons (w prev : Nat) {e : Nat} (he : e ≠ 0) (es : List Nat) :
    deltas w prev (e :: es) = zigzag w ((e + 2 ^ w - prev) % 2 ^ w) :: deltas w e es := if_neg he

/-- The map of a group: one bit for each element, set where it is not zero (R222). -/
def mapA (es : List Nat) : List Bool := es.map (fun e => decide (e ≠ 0))

theorem length_deltas (w prev : Nat) (es : List Nat) : (deltas w prev es).length = ((mapA es).filter (· == true)).length := by
  induction es generalizing prev with
  | nil => rfl
  | cons e es ih =>
    rcases eq_or_ne e 0 with rfl | he
    · rw [deltas_zero_cons, ih]; rfl
    · rw [deltas_cons w prev he, List.length_cons, ih]
      simp [mapA, he]

theorem deltas_lt {w : Nat} (hw : 0 < w) (prev : Nat) (es : List Nat) : ∀ d ∈ deltas w prev es, d < 2 ^ w := by
  induction es generalizing prev with
  | nil => simp [deltas]
  | cons e es ih =>
    rcases eq_or_ne e 0 with rfl | he
    · exact ih prev
    · rw [deltas_cons w prev he]
      rintro d (_ | ⟨_, hd⟩)
      · exact zigzag_lt hw (Nat.mod_lt _ (by positivity))
      · exact ih e d hd

/-- A difference added to the element before gives the element (R223). -/
theorem add_delta {w prev e : Nat} (hprev : prev < 2 ^ w) (he : e < 2 ^ w) :
    (prev + (e + 2 ^ w - prev) % 2 ^ w) % 2 ^ w = e := by
  rw [Nat.add_mod_mod, Nat.add_sub_cancel' (by omega), Nat.add_mod_right, Nat.mod_eq_of_lt he]

theorem undelta_deltas {w prev : Nat} (hw : 0 < w) (es : List Nat) (hprev : prev < 2 ^ w) (hes : ∀ e ∈ es, e < 2 ^ w) :
    undelta w prev (mapA es) (deltas w prev es) = some es := by
  induction es generalizing prev with
  | nil => rfl
  | cons e es ih =>
    have he := hes e (by simp)
    have hrest : ∀ a ∈ es, a < 2 ^ w := fun a ha => hes a (by simp [ha])
    rcases eq_or_ne e 0 with rfl | hne
    · have hmap : mapA (0 :: es) = false :: mapA es := rfl
      rw [hmap, deltas_zero_cons, undelta, ih hprev hrest]
      rfl
    · have hmap : mapA (e :: es) = true :: mapA es := by simp [mapA, hne]
      rw [hmap, deltas_cons w prev hne]
      simp only [undelta, unzigzag_zigzag hw (Nat.mod_lt _ (by positivity : 0 < 2 ^ w)), add_delta hprev he, if_neg hne,
        ih he hrest, Option.map_some]

/-- The field width of a group's deltas: every delta fits it, and it is no wider than an element (R224). -/
theorem bitLen_deltas {w : Nat} (hw : 0 < w) (es : List Nat) {dw : Nat} (h : dw = bitLen ((deltas w 0 es).foldl max 0)) :
    0 < dw ∧ dw ≤ w ∧ ∀ d ∈ deltas w 0 es, d < 2 ^ dw := by
  generalize hmax : (deltas w 0 es).foldl max 0 = mx at h
  have hle : ∀ d ∈ deltas w 0 es, d ≤ mx := by
    intro d hd
    rw [← hmax, List.foldl_max, Nat.zero_max]
    exact List.le_max?_getD_of_mem hd
  have hlt : mx < 2 ^ w := by
    rw [← hmax]
    exact List.foldlRecOn (motive := fun n => n < 2 ^ w) _ _ (by positivity)
      fun n hn d hd => max_lt hn (deltas_lt hw 0 es d hd)
  have hlog : mx < 2 ^ dw := by rw [h, bitLen]; exact Nat.lt_log2_self
  refine ⟨by rw [h, bitLen]; omega, ?_, fun d hd => (hle d hd).trans_lt hlog⟩
  rw [h, bitLen, Nat.succ_le_iff]
  rcases eq_or_ne mx 0 with rfl | hne
  · simpa using hw
  · exact (Nat.log2_lt hne).mpr hlt

/-- A mapped group: its marker, its map, the width of its deltas and the deltas. -/
def mappedA (w : Nat) (es : List Nat) : Bytes :=
  let ds := deltas w 0 es
  let dw := bitLen (ds.foldl max 0)
  [0x40] ++ packBits 8 (mapA es) ++ [BitVec.ofNat 8 dw] ++ bytesOfBits (ds.flatMap (toBits dw))

/-- A group is one of the three forms of R222 and R224. -/
theorem groupA_forms (w : Nat) (es : List Nat) :
    (∀ e ∈ es, e = 0) ∧ groupA w es = [0x00] ∨ groupA w es = mappedA w es ∨ groupA w es = 0x80 :: ofElements w es := by
  unfold groupA
  split
  · next h => exact .inl ⟨by simpa using h, rfl⟩
  · dsimp only
    split
    · exact .inr (.inl rfl)
    · exact .inr (.inr rfl)

theorem ungroupA_mappedA {w : Nat} (hw : w = 8 ∨ w = 16) {es : List Nat} (hlen : es.length = 64) (hes : ∀ e ∈ es, e < 2 ^ w)
    (r : Bytes) : ungroupA w (mappedA w es ++ r) = some (es, r) := by
  generalize hds : deltas w 0 es = ds
  generalize hdw : bitLen (ds.foldl max 0) = dw
  have hpos : 0 < w := by omega
  obtain ⟨hdwpos, hdwle, hfit⟩ := bitLen_deltas hpos es (by rw [hds, hdw] : dw = _)
  rw [hds] at hfit
  generalize hbits : ds.flatMap (toBits dw) = bits
  have hform : mappedA w es ++ r = 0x40 :: (packBits 8 (mapA es) ++ (BitVec.ofNat 8 dw :: (bytesOfBits bits ++ r))) := by
    simp [mappedA, hds, hdw, hbits]
  have hmaplen : (mapA es).length = 64 := by rw [mapA, List.length_map, hlen]
  have hpack : (packBits 8 (mapA es)).length = 8 := by rw [length_packBits (by omega : (mapA es).length ≤ 8 * 8), hmaplen]
  have hmap : bitsOfBytes (packBits 8 (mapA es)) = mapA es := by
    rw [bitsOfBytes_packBits (by omega : (mapA es).length ≤ 8 * 8), hmaplen]; simp
  have hcnt : ((mapA es).filter (· == true)).length = ds.length := by rw [← length_deltas w 0, hds]
  have hdslen : ds.length ≤ 64 := by
    rw [← hcnt, ← hmaplen]; exact List.length_filter_le _ _
  have hbitlen : bits.length = ds.length * dw := by rw [← hbits]; simp [List.length_flatMap]
  have hbody := length_bytesOfBits bits
  have hwidth : (BitVec.ofNat 8 dw).toNat = dw := by
    have hsmall : dw < 256 := by omega
    rw [BitVec.toNat_ofNat]; exact Nat.mod_eq_of_lt hsmall
  have hback := bitsOfBytes_bytesOfBits bits
  have hcut : (chunks dw 64 bits).map ofBits = ds := by rw [← hbits]; exact chunks_flatMap_toBits hdwpos ds hdslen hfit
  have hundelta : undelta w 0 (mapA es) ds = some es := by
    rw [← hds]; exact undelta_deltas hpos es (by positivity) hes
  rw [hform, ungroupA, if_neg (by decide), if_neg (by decide), if_pos rfl]
  have hget : (packBits 8 (mapA es) ++ (BitVec.ofNat 8 dw :: (bytesOfBits bits ++ r))).getD 8 0 = BitVec.ofNat 8 dw := by
    rw [List.getD_append_right _ _ _ _ hpack.le, hpack]; rfl
  have hdrop : (packBits 8 (mapA es) ++ (BitVec.ofNat 8 dw :: (bytesOfBits bits ++ r))).drop 9 = bytesOfBits bits ++ r := by
    rw [← List.drop_drop (i := 1) (j := 8), List.drop_left' hpack]; rfl
  simp only [List.take_left' hpack, hmap, hcnt, hget, hwidth, hdrop, ← hbitlen, List.take_left' hbody, List.drop_left' hbody, hback,
    List.take_left, List.drop_left, hcut, hundelta, Option.map_some]
  rw [if_neg (by simp [hpack]; omega), if_neg (by simp)]

/-- One group of 64 elements is read back, whichever form the compressor gave it, and the decoding goes on behind it. -/
theorem ungroupA_groupA {w : Nat} (hw : w = 8 ∨ w = 16) {es : List Nat} (hlen : es.length = 64) (hes : ∀ e ∈ es, e < 2 ^ w)
    (r : Bytes) : ungroupA w (groupA w es ++ r) = some (es, r) := by
  obtain ⟨hzero, h⟩ | h | h := groupA_forms w es
  · rw [h, List.eq_replicate_iff.mpr ⟨hlen, hzero⟩]
    rfl
  · rw [h]
    exact ungroupA_mappedA hw hlen hes r
  · have hsize : (ofElements w es).length = 64 * w / 8 := by
      obtain rfl | rfl := hw
      · simp [ofElements_eight, hlen]
      · simp [ofElements_sixteen, List.length_flatMap, leBytes_length, hlen]
    have hback : elements w (ofElements w es) = es := by
      obtain rfl | rfl := hw
      · exact elements_ofElements_eight es hes
      · exact elements_ofElements_sixteen es hes
    rw [h, List.cons_append, ungroupA, if_neg (by decide), if_pos rfl]
    simp only [List.take_left' hsize, List.drop_left' hsize, hback]
    rw [if_neg (by simp; omega)]

theorem ungroupsA_groups {w : Nat} (hw : w = 8 ∨ w = 16) (groups : List (List Nat)) (hlen : ∀ g ∈ groups, g.length = 64)
    (hes : ∀ g ∈ groups, ∀ e ∈ g, e < 2 ^ w) (r : Bytes) :
    ungroupsA w groups.length (groups.flatMap (groupA w) ++ r) = some (groups.flatten, r) := by
  induction groups with
  | nil => rfl
  | cons g groups ih =>
    have hrest := ih (fun a ha => hlen a (by simp [ha])) (fun a ha => hes a (by simp [ha]))
    rw [List.length_cons, List.flatMap_cons, List.append_assoc, ungroupsA,
      ungroupA_groupA hw (hlen g (by simp)) (hes g (by simp)), Option.bind_some, hrest]
    rfl

/-- R224: an IBC-A body is read back, and the bytes it takes are counted, whatever stands behind it. -/
theorem decodeBody_bodyA {coding : Nat} (hcoding : coding ≠ 1) (fmt : Nat) (r : Bytes) {tile : Bytes} (h : tile.length = 4096)
    {body : Bytes} (hbody : body = bodyA (widthA fmt) (elements (widthA fmt) tile)) :
    decodeBody coding fmt (body ++ r) = some (tile, body.length) := by
  generalize hw : widthA fmt = w at hbody
  have hwidth : w = 8 ∨ w = 16 := by
    unfold widthA at hw
    split at hw <;> omega
  obtain ⟨m, hm, hm100, hlen⟩ : ∃ m, 4096 * 8 / (64 * w) = m ∧ m ≤ 100 ∧ (elements w tile).length = 64 * m := by
    have := length_elements (w := w) (by omega) tile (by omega)
    refine ⟨4096 * 8 / (64 * w), rfl, ?_⟩
    obtain rfl | rfl := hwidth <;> omega
  obtain ⟨hcount, h64, hflat⟩ := chunks_of_length (fuel := 100) (by omega : 0 < 64) hlen hm100
  have hvals : ∀ g ∈ chunks 64 100 (elements w tile), ∀ e ∈ g, e < 2 ^ w := fun g hg e he =>
    elements_lt (by omega) tile e (hflat ▸ List.mem_flatten.mpr ⟨g, hg, he⟩)
  have hgroups := ungroupsA_groups hwidth _ h64 hvals r
  rw [hcount, hflat] at hgroups
  rw [decodeBody, if_neg hcoding, hw]
  dsimp only
  rw [hm, hbody, bodyA, hgroups, Option.map_some, ofElements_elements (by omega) tile (by omega), List.length_append,
    Nat.add_sub_cancel]

/-! ## The tile payload (R215) -/

theorem leNat_leBytes (w n : Nat) : leNat (leBytes w n) = n % 2 ^ (8 * w) := by
  induction w generalizing n with
  | zero => simp [leBytes, leNat, Nat.mod_one]
  | succ w ih =>
    rw [leBytes, leNat, ih, BitVec.toNat_ofNat, Nat.mul_succ, Nat.add_comm (8 * w), Nat.pow_add, Nat.mod_mul]

theorem roundUp_sixteen (n : Nat) : n ≤ roundUp n 16 ∧ roundUp n 16 < n + 16 ∧ roundUp n 16 % 16 = 0 := by
  unfold roundUp
  omega

theorem length_payload (mode : Nat) (content : Bytes) : (payload mode content).length = roundUp (4 + content.length) 16 := by
  have := roundUp_sixteen (4 + content.length)
  simp only [payload, List.length_append, leBytes_length, zeros, List.length_replicate]
  omega

/-- The header of a payload gives its length and mode (R215). -/
theorem field_payload {mode : Nat} {content : Bytes} (hmode : mode < 16) (hlen : (payload mode content).length < 65536) :
    field (payload mode content) 0 4 = (payload mode content).length * 65536 + mode * 4096 := by
  rw [length_payload] at hlen ⊢
  have htake : (payload mode content).take 4 = leBytes 4 (roundUp (4 + content.length) 16 * 65536 + mode * 4096) := by
    rw [payload, List.append_assoc, List.take_left' (leBytes_length 4 _)]
  rw [field, List.drop_zero, htake, leNat_leBytes]
  exact Nat.mod_eq_of_lt (by omega)

/-- Behind its header a payload has its content and zeros. -/
theorem slice_payload (mode : Nat) (content : Bytes) :
    slice (payload mode content) 4 ((payload mode content).length - 4) =
      content ++ zeros ((payload mode content).length - 4 - content.length) := by
  have hall : ((payload mode content).drop 4).length = (payload mode content).length - 4 := List.length_drop
  rw [slice, List.take_of_length_le hall.le, length_payload, payload, List.append_assoc,
    List.drop_left' (leBytes_length 4 _)]

/-- What stands behind the code strip of a payload stands for a tile: a coded body (mode 0), the raw tile (1), or nothing for
a tile of zeros (2). -/
def StandsFor (coding fmt mode : Nat) (body tile : Bytes) : Prop :=
  mode = 0 ∧ (∀ n, decodeBody coding fmt (body ++ zeros n) = some (tile, body.length)) ∨
  mode = 1 ∧ body = tile ∧ tile.length = 4096 ∨ mode = 2 ∧ body = [] ∧ tile = zeros 4096

/-- The expander takes a payload apart: its header is consistent, its padding is zeros, and its body stands for the tile. -/
theorem expand_payload {coding fmt mode : Nat} {strip body tile : Bytes} (hbody : StandsFor coding fmt mode body tile)
    (hlen : (payload mode (strip ++ body)).length < 65536) :
    expand coding fmt strip.length (payload mode (strip ++ body)) = some (strip, tile) := by
  have hmode : mode < 3 := by
    obtain ⟨h, -⟩ | ⟨h, -⟩ | ⟨h, -⟩ := hbody <;> omega
  have hfield := field_payload (by omega) hlen
  have hslice := slice_payload mode (strip ++ body)
  have hround := length_payload mode (strip ++ body)
  generalize payload mode (strip ++ body) = p at hlen hfield hslice hround ⊢
  rw [List.length_append, ← Nat.add_assoc] at hround
  have hbound := roundUp_sixteen (4 + strip.length + body.length)
  generalize p.length - 4 - (strip ++ body).length = n at hslice
  have hp : (p.length * 65536 + mode * 4096) / 65536 = p.length := by omega
  have hm : (p.length * 65536 + mode * 4096) / 4096 % 16 = mode := by omega
  have hdrop : (body ++ zeros n).drop body.length = zeros n := List.drop_left
  have hzero : ∀ b ∈ zeros n, b = 0#8 := fun b hb => List.eq_of_mem_replicate hb
  have hrest : ∀ r : Bytes, (strip ++ r).take strip.length = strip ∧ (strip ++ r).drop strip.length = r := fun r =>
    ⟨List.take_left, List.drop_left⟩
  rw [List.append_assoc] at hslice
  simp only [expand, hfield, hp, hm, hslice, hrest]
  rw [if_neg (by omega)]
  obtain ⟨rfl, hdec⟩ | ⟨rfl, rfl, h4096⟩ | ⟨rfl, rfl, rfl⟩ := hbody
  · simpa [hdec, hdrop, ← hround] using hzero
  · simpa [← h4096, hdrop, ← hround] using hzero
  · rw [List.length_nil, Nat.add_zero] at hround
    simpa [← hround] using hzero

/-! ## The compressor (R220, R224) -/

/-- The coded body of a tile. -/
def codedBody (coding fmt : Nat) (tile : Bytes) : Bytes :=
  if coding = 1 then bodyW (widthW fmt) (elements (widthW fmt) tile) else bodyA (widthA fmt) (elements (widthA fmt) tile)

theorem compress_eq (coding fmt : Nat) (strip tile : Bytes) : compress coding fmt strip tile =
    if tile.all (· == 0) then payload 2 strip
    else if (payload 0 (strip ++ codedBody coding fmt tile)).length < (payload 1 (strip ++ tile)).length then
      payload 0 (strip ++ codedBody coding fmt tile)
    else payload 1 (strip ++ tile) := rfl

theorem codedBody_standsFor (coding fmt : Nat) {tile : Bytes} (htile : tile.length = 4096) :
    StandsFor coding fmt 0 (codedBody coding fmt tile) tile := by
  refine .inl ⟨rfl, fun n => ?_⟩
  rcases eq_or_ne coding 1 with rfl | hcoding
  · exact decodeBody_bodyW fmt n htile (if_pos rfl)
  · exact decodeBody_bodyA hcoding fmt (zeros n) htile (if_neg hcoding)

/-- What the compressor writes for a tile is a payload that stands for it and is no longer than the raw one. -/
theorem compress_form (coding fmt : Nat) (strip : Bytes) {tile : Bytes} (htile : tile.length = 4096) :
    ∃ mode body, compress coding fmt strip tile = payload mode (strip ++ body) ∧ StandsFor coding fmt mode body tile ∧
      (payload mode (strip ++ body)).length ≤ (payload 1 (strip ++ tile)).length := by
  rw [compress_eq]
  split
  · next hzero =>
    have htz : tile = zeros 4096 := List.eq_replicate_iff.mpr ⟨htile, by simpa using hzero⟩
    refine ⟨2, [], by rw [List.append_nil], .inr (.inr ⟨rfl, rfl, htz⟩), ?_⟩
    rw [length_payload, length_payload, List.append_nil, List.length_append]
    unfold roundUp
    omega
  · split
    · next hshort => exact ⟨0, _, rfl, codedBody_standsFor coding fmt htile, hshort.le⟩
    · exact ⟨1, tile, rfl, .inr (.inl ⟨rfl, rfl, htile⟩), le_rfl⟩

end Sys2Proof.Machine.Ibc

namespace Sys2Proof.Machine

/-- Settles O58: the pattern of a negative `q` stands for `q - 2 ^ w`, any other for itself. -/
theorem zigzag : Obligations.Zigzag := by
  intro w p hw hp
  have hpow : 2 ^ w = 2 * 2 ^ (w - 1) := Ibc.two_pow_pred (by omega)
  have hcast : ((2 ^ w : Nat) : Int) = 2 ^ w := by norm_cast
  refine ⟨fun hq => ?_, fun hq => ?_, Ibc.zigzag_lt (by omega) hp⟩ <;>
    simp only [toSigned, Nat.mod_eq_of_lt hp] at hq ⊢ <;>
    rcases Nat.lt_or_ge p (2 ^ (w - 1)) with hsign | hsign
  · rw [if_pos hsign, Ibc.zigzag_of_nonneg hsign]; omega
  · rw [if_neg (by omega)] at hq; omega
  · rw [if_pos hsign] at hq; omega
  · rw [if_neg (by omega), Ibc.zigzag_of_neg hsign]; omega

/-- Settles O59: whatever form the compressor takes stands for the tile, and the expander takes each form apart. -/
theorem blockCodingIsLossless : Obligations.BlockCodingIsLossless := by
  intro coding fmt strip tile hstrip htile
  obtain ⟨mode, body, heq, hbody, hle⟩ := Ibc.compress_form coding fmt strip htile
  have hround := Ibc.length_payload mode (strip ++ body)
  have hraw := Ibc.length_payload 1 (strip ++ tile)
  have hsixteen := Ibc.roundUp_sixteen (4 + (strip ++ body).length)
  simp only [List.length_append, htile, roundUp] at hraw
  rw [heq]
  exact ⟨Ibc.expand_payload hbody (by omega), by omega, by omega⟩

end Sys2Proof.Machine

/-!
PROOFS. Convoy descriptors: the push, the check at the head of a queue and the completion (R190, R201, R204, R211, R212).
-/

namespace Sys2Proof.Machine

/-! ## Tables with a default -/

theorem tget_tmod_self {α : Type} (t : Tab α) (d : α) (k : Nat) (f : α → α) (hd : f d = d) :
    tget (tmod t k f) d k = f (tget t d k) := by
  unfold tmod tget?
  split
  · next v hv => rw [tget_tset_self, tget, hv, Option.getD_some]
  · next hv => rw [tget, hv, Option.getD_none, hd]

theorem tget_tmod_ne {α : Type} (t : Tab α) (d : α) (k m : Nat) (f : α → α) (h : m ≠ k) :
    tget (tmod t k f) d m = tget t d m := by
  unfold tmod
  split
  · exact tget_tset_ne t k m _ d h
  · rfl

theorem tget?_modCtx_ne (s : State) (c m : Nat) (f : Ctx → Ctx) (h : m ≠ c) :
    tget? (modCtx s c f).ctxs m = tget? s.ctxs m := tget?_tmod_ne _ _ _ _ h

/-! ## One descriptor of a queue changes -/

theorem convoy_modCv (s : State) (p q id : Nat) (f : CvEntry → CvEntry) :
    tget (coreOf (modCv s p q id f) p).convoy [] q =
      (tget (coreOf s p).convoy [] q).map (fun e => if e.id = id then f e else e) := by
  rw [modCv, coreOf_setCore]
  exact tget_tmod_self _ _ _ _ rfl

theorem convoy_modCv_ne (s : State) (p q id m : Nat) (f : CvEntry → CvEntry) (h : m ≠ q) :
    tget (coreOf (modCv s p q id f) p).convoy [] m = tget (coreOf s p).convoy [] m := by
  rw [modCv, coreOf_setCore]
  exact tget_tmod_ne _ _ _ _ _ h

theorem coreOf_modCv_ne (s : State) (p q id m : Nat) (f : CvEntry → CvEntry) (h : m ≠ p) :
    coreOf (modCv s p q id f) m = coreOf s m := coreOf_setCore_ne _ _ _ _ h

theorem modCv_onlyCores (s : State) (p q id : Nat) (f : CvEntry → CvEntry) : OnlyCores s (modCv s p q id f) :=
  setCore_onlyCores s p _

/-! ## The use numbers of the objects that a descriptor names (R190) -/

/-- Every object named takes the number; naming one twice changes nothing more. -/
theorem tget?_foldl_tmod {α : Type} (f : α → α) (hf : ∀ a, f (f a) = f a) (hs : List Nat) (t : Tab α) (h : Nat) :
    tget? (hs.foldl (fun t h => tmod t h f) t) h = (tget? t h).map (fun a => if h ∈ hs then f a else a) := by
  induction hs generalizing t with
  | nil => simp
  | cons k hs ih =>
    rw [List.foldl_cons, ih]
    rcases eq_or_ne h k with rfl | hne
    · rw [tget?_tmod_self, Option.map_map]
      congr 1
      funext a
      by_cases hmem : h ∈ hs <;> simp [hmem, hf]
    · rw [tget?_tmod_ne _ _ _ _ hne]
      simp [hne]

theorem useObjs_nil (x : Ctx) : useObjs x [] = x := rfl

theorem useObjs_named (x : Ctx) {hs : List Nat} (hne : hs ≠ []) :
    useObjs x hs = { x with useCtr := (x.useCtr + 1) % 2 ^ 32, objs := (useObjs x hs).objs } ∧
    ∀ h, tget? (useObjs x hs).objs h = (tget? x.objs h).map (fun o =>
      if h ∈ hs then { o with useSeq := (x.useCtr + 1) % 2 ^ 32 } else o) := by
  cases hs with
  | nil => exact absurd rfl hne
  | cons k hs => exact ⟨rfl, fun h => tget?_foldl_tmod (fun o : Obj => { o with useSeq := (x.useCtr + 1) % 2 ^ 32 }) (fun _ => rfl) (k :: hs)
    x.objs h⟩

/-! ## A stage pushes a descriptor (R201, R204) -/

section
variable {s : State} {core slot : Nat}

theorem execConvoyDescriptorPush_idle (hrun : stageRunning s core slot = none) (off : Nat) :
    execConvoyDescriptorPush core slot off s = .next s := by
  rw [execConvoyDescriptorPush, hrun]

theorem execConvoyDescriptorPush_pushed {c : Nat} {j : Job} (hrun : stageRunning s core slot = some (c, j)) (off : Nat) :
    execConvoyDescriptorPush core slot off s =
      .next (cvPush s core slot { off := off, ctx := c, slot := j.run.slot }) := by
  rw [execConvoyDescriptorPush, hrun]

theorem coreOf_cvPush (s : State) (core q : Nat) (e : CvEntry) :
    coreOf (cvPush s core q e) (physOf s core) = { coreOf s (physOf s core) with
      convoy := tset (coreOf s (physOf s core)).convoy q
        (tget (coreOf s (physOf s core)).convoy [] q ++ [{ e with id := (coreOf s (physOf s core)).nextCv }]),
      nextCv := (coreOf s (physOf s core)).nextCv + 1 } := coreOf_setCore _ _ _

end

/-! ## The check at the head (R190, R204, R212, R239, R679) -/

theorem cvFail_eq {e : CvEntry} (he : e.purpose ≠ .reshard) (s : State) (p q : Nat) (r : Reason) :
    cvFail s p q e r = failJob (cvRemove s p q e.id) e.ctx r := by
  unfold cvFail
  split
  · next h => exact absurd h he
  · rfl

theorem cvBody_eq_none_iff (s : State) (core : Nat) (e : CvEntry) :
    cvBody s core e = none ↔ e.body = none ∧ (shareOf s e.ctx e.slot core).2 * 256 < e.off + 32 := by
  unfold cvBody
  split
  · next h => simp [h]
  · next h => simp [h, deckRead]

/-- Bytes that the firmware built, or that lie beyond the share, are not read from the Deck. -/
theorem bodyRuns_eq_nil {s : State} {core : Nat} {e : CvEntry} (h : e.body.isSome ∨ cvBody s core e = none) :
    bodyRuns s core e = [] := by
  refine if_neg fun hread => ?_
  obtain ⟨hnone, hin⟩ := hread
  rcases h with h | h
  · rw [Option.isNone_iff_eq_none] at hnone
    simp [hnone] at h
  · have := ((cvBody_eq_none_iff s core e).mp h).2
    omega

section
variable {s : State} {core queue : Nat} {e : CvEntry} {x : Ctx}
  (hhead : cvHead (tget (coreOf s (physOf s core)).convoy [] queue) = some e) (hopen : e.checked = false)
  (hup : bit s.pwr.up core = true)
include hhead hopen hup

theorem execConvoyDescriptorCheck_unreadable {t : State} {r : Reason}
    (hscan : eccScan s (physOf s core) (bodyRuns s core e) = (t, some r)) :
    execConvoyDescriptorCheck core queue s = .next (cvFail t (physOf s core) queue e r) := by
  simp [execConvoyDescriptorCheck, hhead, hopen, hup, hscan]

theorem execConvoyDescriptorCheck_beyond (hctx : tget? s.ctxs e.ctx = some x) (hbody : cvBody s core e = none) :
    execConvoyDescriptorCheck core queue s = .next (cvFail s (physOf s core) queue e .cvBounds) := by
  simp [execConvoyDescriptorCheck, hhead, hopen, hup, bodyRuns_eq_nil (.inr hbody), hctx, hbody]

section
variable (hctx : tget? s.ctxs e.ctx = some x) (hscan : eccScan s (physOf s core) (bodyRuns s core e) = (s, none))
  {b : Bytes} (hbody : cvBody s core e = some b)
include hctx hscan hbody

theorem execConvoyDescriptorCheck_misaligned (hoff : e.off % 32 ≠ 0) :
    execConvoyDescriptorCheck core queue s = .next (cvFail s (physOf s core) queue e .cvAlign) := by
  simp [execConvoyDescriptorCheck, hhead, hopen, hup, hscan, hctx, hbody, hoff]

variable (hoff : e.off % 32 = 0)
include hoff

theorem execConvoyDescriptorCheck_fenced (hfence : (CvDesc.parse b).fence = true)
    (hfirst : (tget (coreOf s (physOf s core)).convoy [] queue).head?.map CvEntry.id ≠ some e.id) :
    execConvoyDescriptorCheck core queue s = .next s := by
  simp only [execConvoyDescriptorCheck, hhead, hopen, hup, hscan, hctx, hbody, hoff, Bool.not_true, Bool.false_eq_true,
    or_self, if_false, ne_eq, not_true, if_pos (And.intro hfence hfirst)]

variable (hgo : (CvDesc.parse b).fence = false ∨
  (tget (coreOf s (physOf s core)).convoy [] queue).head?.map CvEntry.id = some e.id)
include hgo

theorem execConvoyDescriptorCheck_fails {r : Reason} (hcheck : cvCheck s core queue x e (CvDesc.parse b) = some r) :
    execConvoyDescriptorCheck core queue s = .next (cvFail s (physOf s core) queue e r) := by
  have hnofence : ¬ ((CvDesc.parse b).fence = true ∧ _) := fun ⟨h1, h2⟩ => hgo.elim (fun h => by simp [h] at h1) h2
  simp only [execConvoyDescriptorCheck, hhead, hopen, hup, hscan, hctx, hbody, hoff, Bool.not_true, Bool.false_eq_true,
    or_self, if_false, ne_eq, not_true, if_neg hnofence, hcheck]

theorem execConvoyDescriptorCheck_passes (hcheck : cvCheck s core queue x e (CvDesc.parse b) = none) :
    execConvoyDescriptorCheck core queue s = .next (modCv (modCtx s e.ctx (fun y => cvUse y (CvDesc.parse b)))
      (physOf s core) queue e.id (fun f => { f with checked := true, body := some b })) := by
  have hnofence : ¬ ((CvDesc.parse b).fence = true ∧ _) := fun ⟨h1, h2⟩ => hgo.elim (fun h => by simp [h] at h1) h2
  simp only [execConvoyDescriptorCheck, hhead, hopen, hup, hscan, hctx, hbody, hoff, Bool.not_true, Bool.false_eq_true,
    or_self, if_false, ne_eq, not_true, if_neg hnofence, hcheck]

end

end

theorem cvCheck_version {d : CvDesc} (h : cvReserved d = true) (s : State) (core q : Nat) (x : Ctx) (e : CvEntry) :
    cvCheck s core q x e d = some .cvVersion := if_pos h

theorem cvCheck_op {d : CvDesc} {q : Nat} (hres : cvReserved d = false) (hop : 2 ≤ d.op) (hq : q < 3) (s : State)
    (core : Nat) (x : Ctx) (e : CvEntry) : cvCheck s core q x e d = some .cvOp := by
  rw [cvCheck, if_neg (by simp [hres]), if_pos ⟨hop, hq⟩]

/-- A descriptor that passes is marked, and the objects that it names take their use number; nothing else changes. -/
theorem passed_spec {s : State} {p queue : Nat} {e : CvEntry} {x : Ctx} {b : Bytes} {d : CvDesc} {t : State}
    (hctx : tget? s.ctxs e.ctx = some x)
    (ht : t = modCv (modCtx s e.ctx (fun y => cvUse y d)) p queue e.id (fun f => { f with checked := true, body := some b })) :
    tget? t.ctxs e.ctx = some (cvUse x d) ∧
    tget (coreOf t p).convoy [] queue = (tget (coreOf s p).convoy [] queue).map (fun f =>
      if f.id = e.id then { f with checked := true, body := some b } else f) ∧
    (∀ q, q ≠ queue → tget (coreOf t p).convoy [] q = tget (coreOf s p).convoy [] q) ∧
    (∀ m, m ≠ e.ctx → tget? t.ctxs m = tget? s.ctxs m) ∧ (∀ q, q ≠ p → coreOf t q = coreOf s q) ∧
    t = { s with cores := t.cores, ctxs := t.ctxs } := by
  subst ht
  refine ⟨?_, convoy_modCv _ _ _ _ _, fun q hq => convoy_modCv_ne _ _ _ _ _ _ hq, fun m hm => tget?_modCtx_ne s _ m _ hm,
    fun q hq => coreOf_modCv_ne _ _ _ _ _ _ hq, rfl⟩
  have hmod := tget?_modCtx s e.ctx (fun y => cvUse y d)
  rw [hctx] at hmod
  exact hmod

/-! ## A descriptor completes (R211) -/

/-- The report of a completed descriptor. -/
def doneReport (queue : Nat) (e : CvEntry) : CvDone :=
  { queue := queue, status := (e.stop.getD (.ok, .none)).1, reason := (e.stop.getD (.ok, .none)).2,
    tiles := e.landed - e.discarded }

/-- A completed descriptor has left its queue, and its report stands. -/
def cvCompleted (s : State) (p queue : Nat) (e : CvEntry) : State :=
  let k := coreOf s p
  setCore s p { k with
    convoy := tmod k.convoy queue (fun l => l.filter (fun f => f.id != e.id)),
    saved := k.saved.map (fun v => (v.1, tmod v.2 queue (fun l => l.filter (fun f => f.id != e.id)))),
    convoyDone := doneReport queue e :: k.convoyDone }

theorem execConvoyDescriptorComplete_waits {s : State} {core queue : Nat}
    (h : (queueAll (coreOf s (physOf s core)) queue).find? cvDone = none) :
    execConvoyDescriptorComplete core queue s = .next s := by
  simp [execConvoyDescriptorComplete, h]

theorem execConvoyDescriptorComplete_done {s : State} {core queue : Nat} {e : CvEntry}
    (h : (queueAll (coreOf s (physOf s core)) queue).find? cvDone = some e) (he : e.purpose ≠ .reshard) :
    execConvoyDescriptorComplete core queue s =
      .next (settleAll (resolveWalks (cvCompleted s (physOf s core) queue e) e.ctx)) := by
  simp only [execConvoyDescriptorComplete, h]
  rfl

theorem coreOf_cvCompleted (s : State) (p queue : Nat) (e : CvEntry) :
    tget (coreOf (cvCompleted s p queue e) p).convoy [] queue =
      (tget (coreOf s p).convoy [] queue).filter (fun f => f.id != e.id) ∧
    (∀ q, q ≠ queue → tget (coreOf (cvCompleted s p queue e) p).convoy [] q = tget (coreOf s p).convoy [] q) ∧
    (coreOf (cvCompleted s p queue e) p).convoyDone = doneReport queue e :: (coreOf s p).convoyDone := by
  rw [cvCompleted, coreOf_setCore]
  exact ⟨tget_tmod_self _ _ _ _ rfl, fun q hq => tget_tmod_ne _ _ _ _ _ hq, rfl⟩

/-- Settles O50: the push by `coreOf_cvPush`, the check case by case, the completion by `coreOf_cvCompleted`. -/
theorem convoyDescriptorsRunThrough : Obligations.ConvoyDescriptorsRunThrough := by
  refine ⟨?_, ?_, ?_⟩
  · rintro core slot off p s rfl
    refine ⟨fun hrun => execConvoyDescriptorPush_idle hrun off, fun c j hrun => ⟨_, execConvoyDescriptorPush_pushed hrun off, ?_⟩⟩
    rw [coreOf_cvPush]
    exact ⟨tget_tset_self _ _ _ _, fun q hq => tget_tset_ne _ _ _ _ _ hq, rfl,
      fun q hq => coreOf_setCore_ne _ _ _ _ hq, rfl⟩
  · rintro core queue p e x s rfl hhead hopen hup hctx hpurpose
    simp only [← cvFail_eq hpurpose]
    refine ⟨fun t r => execConvoyDescriptorCheck_unreadable hhead hopen hup,
      execConvoyDescriptorCheck_beyond hhead hopen hup hctx, ?_⟩
    rintro b d hbody rfl hclean
    have hscan : eccScan s (physOf s core) (bodyRuns s core e) = (s, none) := by
      rcases hclean with hsome | ⟨hbad, hsoft⟩
      · rw [bodyRuns_eq_nil (.inl hsome), eccScan_nil]
      · exact eccScan_clean s _ _ hbad hsoft
    refine ⟨execConvoyDescriptorCheck_misaligned hhead hopen hup hctx hscan hbody,
      execConvoyDescriptorCheck_fenced hhead hopen hup hctx hscan hbody, fun hoff hgo => ⟨fun r hr => ?_, fun hpass => ?_⟩,
      fun hres => cvCheck_version hres _ _ _ _ _, fun hres hop hq => cvCheck_op hres hop hq _ _ _ _⟩
    · exact execConvoyDescriptorCheck_fails hhead hopen hup hctx hscan hbody hoff hgo hr
    · obtain ⟨hx, hrest⟩ := passed_spec (p := physOf s core) (queue := queue) (b := b) hctx rfl
      exact ⟨_, _, execConvoyDescriptorCheck_passes hhead hopen hup hctx hscan hbody hoff hgo hpass, hx,
        fun hnone => by rw [cvUse, hnone, useObjs_nil], fun hsome => useObjs_named x hsome, hrest⟩
  · rintro core queue p s rfl
    refine ⟨execConvoyDescriptorComplete_waits, fun e he hpurpose => ⟨cvCompleted s (physOf s core) queue e, ?_⟩⟩
    have hne : e.purpose ≠ .reshard := by rcases hpurpose with h | h | h <;> simp [h]
    obtain ⟨hqueue, hothers, hdone⟩ := coreOf_cvCompleted s (physOf s core) queue e
    exact ⟨execConvoyDescriptorComplete_done he hne, hqueue, hothers, ⟨_, rfl, hdone⟩,
      fun q hq => coreOf_setCore_ne _ _ _ _ hq, rfl⟩

end Sys2Proof.Machine

/-!
PROOFS. Convoy issues the next tile of a queue (R202, R203, R209, R212, R380, R679, R683).
-/

namespace Sys2Proof.Machine

/-! ## What leaves the cores alone -/

@[simp] theorem eccScan_cores (s : State) (home : Nat) (runs : List (Nat × Nat)) : (eccScan s home runs).1.cores = s.cores := by
  unfold eccScan
  dsimp only
  split <;> split <;> simp [noteWord]

@[simp] theorem cancelDescent_cores (s : State) (cls id mask : Nat) : (cancelDescent s cls id mask).cores = s.cores := by
  unfold cancelDescent cancelFrom
  split <;> rfl

@[simp] theorem resolveWalks_cores (s : State) (c : Nat) : (resolveWalks s c).cores = s.cores := rfl

theorem coreOf_congr {s t : State} (h : t.cores = s.cores) (p : Nat) : coreOf t p = coreOf s p := by rw [coreOf, h, coreOf]

/-- A descriptor in a queue changes, whatever follows for its context's walks. -/
theorem convoy_modCvWalk {s : State} {p q id : Nat} (hfound : (findCv s p q id).isSome) (f : CvEntry → CvEntry) :
    tget (coreOf (modCvWalk s p q id f) p).convoy [] q =
      (tget (coreOf s p).convoy [] q).map (fun e => if e.id = id then f e else e) := by
  obtain ⟨e, he⟩ := Option.isSome_iff_exists.mp hfound
  rw [modCvWalk, he]
  exact convoy_modCv s p q id f

theorem findCv_isSome_of_mem {s : State} {p q : Nat} {e : CvEntry} (h : e ∈ tget (coreOf s p).convoy [] q) :
    (findCv s p q e.id).isSome :=
  List.find?_isSome.mpr ⟨e, List.mem_append_left _ h, beq_self_eq_true _⟩

theorem mem_of_cvHead {l : List CvEntry} {e : CvEntry} (h : cvHead l = some e) : e ∈ l :=
  List.mem_of_mem_take (List.mem_of_find?_eq_some h)

/-! ## Reads of a memory without an error (R679) -/

theorem ramRead_clean (s : State) (home a n : Nat) (hbad : (ramOf s home).bad = []) :
    ramRead s home a n = .ok ((ramOf s home).read a n) := by simp [ramRead, Ram.hits, hbad]

/-- A read that fails names the memory that it reads. -/
theorem ramRead_error {s : State} {home a n : Nat} {r : Reason} (h : ramRead s home a n = .error r) : r = ueReason home := by
  unfold ramRead at h
  dsimp only at h
  split at h <;> cases h
  rfl

theorem cvSource_fill {d : CvDesc} (hop : d.op = 1) (s : State) (core : Nat) (x : Ctx) (e : CvEntry) (i : Nat) :
    cvSource s core x e d i = .ok (some (zeros (64 * codesPerRow d.fmt)), zeros 4096) := if_pos hop

theorem cvSource_ownDeck {s : State} {core : Nat} {d : CvDesc} (hop : d.op = 0) (hkind : d.srcKind = 1)
    (hbad : (ramOf s (physOf s core)).bad = []) (x : Ctx) (e : CvEntry) (i : Nat) :
    cvSource s core x e d i = .ok (none,
      (ramOf s (physOf s core)).read ((shareOf s e.ctx e.slot core).1 * 256 + d.srcOff % 2 ^ 24 + i * 4096) 4096) := by
  simp [cvSource, moveSource, hop, hkind, ramRead_clean s _ _ _ hbad, Except.map]

/-! ## The issue of a tile -/

/-- The votes that an issued tile casts: PCIE where an object in T4 takes part (R754). -/
def tileVote (x : Ctx) (d : CvDesc) : Nat := if entryT4 x d then 2 ^ 10 else 0

/-- What a queue needs so that it issues its next tile. -/
def Issuable (s : State) (core queue : Nat) (x : Ctx) (e : CvEntry) (d : CvDesc) : Prop :=
  e.checked = true ∧ tagFree s core queue = true ∧ mayIssue s core queue x = true ∧ bit s.pwr.up core = true ∧
    core ∉ s.fenced ∧ ∀ k ∈ tileReads x d e.issued, bit s.pwr.up (16 + k) = true

theorem issuable_iff (s : State) (core queue : Nat) (x : Ctx) (e : CvEntry) (d : CvDesc) : Issuable s core queue x e d ↔
    ¬ (!e.checked ∨ !tagFree s core queue ∨ !mayIssue s core queue x ∨ !bit s.pwr.up core ∨ s.fenced.contains core ∨
      (tileReads x d e.issued).any (fun k => !bit s.pwr.up (16 + k))) := by
  simp [Issuable]

section
variable {s : State} {core queue : Nat} {e : CvEntry} {b : Bytes} {x : Ctx}
  (hhead : cvHead (tget (coreOf s (physOf s core)).convoy [] queue) = some e) (hbody : e.body = some b)
  (hctx : tget? s.ctxs e.ctx = some x)
include hhead hbody hctx

theorem execConvoyTileIssue_waits (hwait : ¬ Issuable s core queue x e (CvDesc.parse b)) :
    execConvoyTileIssue core queue s = .next s := by
  rw [issuable_iff, not_not] at hwait
  simp only [execConvoyTileIssue, hhead, hbody, hctx, if_pos hwait]

variable (hgo : Issuable s core queue x e (CvDesc.parse b))
include hgo

theorem execConvoyTileIssue_delivers {st : Option Bytes} {t : Bytes}
    (hsrc : cvSource s core x e (CvDesc.parse b) e.issued = .ok (st, t)) :
    execConvoyTileIssue core queue s = .next (voteCast (modCv (cancelDescent
      (eccScan (draw s) (srcRuns s core x e (CvDesc.parse b) e.issued).1 (srcRuns s core x e (CvDesc.parse b) e.issued).2).1
      5 16 (tileVote x (CvDesc.parse b))) (physOf s core) queue e.id
      (fun f => { f with issued := f.issued + 1, tiles := f.tiles ++ [(f.issued, st, t)] }))
      5 16 (tileVote x (CvDesc.parse b))) := by
  rw [issuable_iff] at hgo
  simp only [execConvoyTileIssue, hhead, hbody, hctx, if_neg hgo, hsrc, tileVote]

theorem execConvoyTileIssue_fails {r : Reason} (hsrc : cvSource s core x e (CvDesc.parse b) e.issued = .error r)
    (hobj : objOf x (CvDesc.parse b).srcHandle = none) :
    execConvoyTileIssue core queue s = .next (cvTileFail
      (eccScan (draw s) (srcRuns s core x e (CvDesc.parse b) e.issued).1 (srcRuns s core x e (CvDesc.parse b) e.issued).2).1
      (physOf s core) queue e.id r) := by
  rw [issuable_iff] at hgo
  simp only [execConvoyTileIssue, hhead, hbody, hctx, if_neg hgo, hsrc, hobj]

end

/-- Settles O51: `Issuable` decides whether a tile issues, `cvSource` what it carries. -/
theorem convoyTilesAreIssued : Obligations.ConvoyTilesAreIssued := by
  rintro core queue p e b d x s rfl hhead hbody rfl hctx
  refine ⟨fun hwait => ?_, ?_⟩
  · refine execConvoyTileIssue_waits hhead hbody hctx ?_
    rintro ⟨hchecked, htag, hmay, hup, hserved, hbanks⟩
    obtain h | h | h | h | h | ⟨k, hk, h⟩ := hwait
    · simp [h] at hchecked
    · simp [h] at htag
    · simp [h] at hmay
    · simp [h] at hup
    · exact hserved h
    · simp [hbanks k hk] at h
  · rintro hchecked htag hmay hup hserved hbanks q rfl
    have hgo : Issuable s core queue x e (CvDesc.parse b) := ⟨hchecked, htag, hmay, hup, hserved, hbanks⟩
    refine ⟨fun hop => cvSource_fill hop s core x e e.issued, fun hop hkind hbad => cvSource_ownDeck hop hkind hbad x e e.issued,
      fun st w hsrc hbad hsoft => ?_, fun r hsrc hobj => ?_, fun a r hread => ?_⟩
    · have hclean := eccScan_clean (draw s) _ (srcRuns s core x e (CvDesc.parse b) e.issued).2 hbad hsoft
      have hrun := execConvoyTileIssue_delivers hhead hbody hctx hgo hsrc
      rw [hclean] at hrun
      have hcores : (cancelDescent (draw s) 5 16 (tileVote x (CvDesc.parse b))).cores = s.cores := cancelDescent_cores _ _ _ _
      refine ⟨_, _, hrun, rfl, ?_, fun m hm => ?_, fun m hm => ?_, rfl⟩
      · rw [convoy_modCv, coreOf_congr hcores]
      · rw [convoy_modCv_ne _ _ _ _ _ _ hm, coreOf_congr hcores]
      · rw [coreOf_modCv_ne _ _ _ _ _ _ hm, coreOf_congr hcores]
    · refine ⟨_, execConvoyTileIssue_fails hhead hbody hctx hgo hsrc hobj, rfl, ?_⟩
      have hcores : (eccScan (draw s) (srcRuns s core x e (CvDesc.parse b) e.issued).1
        (srcRuns s core x e (CvDesc.parse b) e.issued).2).1.cores = s.cores := eccScan_cores _ _ _
      have hmem := mem_of_cvHead hhead
      rw [← coreOf_congr hcores] at hmem
      rw [cvTileFail, convoy_modCvWalk (findCv_isSome_of_mem hmem), coreOf_congr hcores]
    · rw [ramRead_error hread, ueReason]
      exact ⟨fun h => if_pos h, fun h => if_neg h⟩

end Sys2Proof.Machine

/-!
PROOFS. Convoy tiles land in windows, objects and set peers (R186, R205 to R209, R397, R718, R719, R724).
-/

namespace Sys2Proof.Machine

/-! ## Where the elements of a tile land (R206) -/

theorem tilePlace_flat {d : CvDesc} (h : d.pitch = 0) (i : Nat) (t : Bytes) :
    tilePlace d i t = (d.dstOff + i * 4096, 0, 0, t) := if_pos h

theorem tilePlace_pitched {d : CvDesc} (h : d.pitch ≠ 0) (i : Nat) (t : Bytes) :
    tilePlace d i t = (d.dstOff + i / d.tpr * 64 * d.pitch + i % d.tpr * 64, d.pitch, d.rowBytes i,
      (List.range (min 64 (d.rows i))).flatMap (fun r => slice t (r * 64) (min 64 (d.rowBytes i)))) := if_neg h

/-! ## A tile is offered to a local window (R205 to R208) -/

/-- A write that has its place at its home, or waits for room there. -/
def WriteFate.stands (f : WriteFate) : Prop := f = .accepted ∨ f = .homeFull

section
variable {s : State} {core p q : Nat} {e : CvEntry} {d : CvDesc} {i : Nat} {strip t : Bytes}

/-- A code strip that its window does not take stops the descriptor, and its tile is not offered. -/
theorem landWindow_strip_stops {v : State} {f : WriteFate} (hcodes : d.codes = true)
    (hoffer : offerWrite s (cvHdr core e d (codePlace d i strip)) (.strip p q e.id) = (v, f)) (hf : ¬ f.stands) :
    landWindow s core p q e d i strip t = cvStop v p q e.id f.report.1 f.report.2 := by
  unfold WriteFate.stands at hf
  cases f <;> simp_all [landWindow]

/-- The state and the fate with which a tile's own write is offered: after that of its code strip, if it has one. -/
def StripDone (s : State) (core p q : Nat) (e : CvEntry) (d : CvDesc) (i : Nat) (strip : Bytes) (v : State) : Prop :=
  (d.codes = false ∧ v = s) ∨ (d.codes = true ∧ ∃ f, WriteFate.stands f ∧
    offerWrite s (cvHdr core e d (codePlace d i strip)) (.strip p q e.id) = (v, f))

variable {v w : State} {f : WriteFate} (hstrip : StripDone s core p q e d i strip v)
  (hoffer : offerWrite v (cvHdr core e d (tilePlace d i t)) (.convoy p q e.id i) = (w, f))
include hstrip hoffer

theorem landWindow_stands (hf : f.stands) : landWindow s core p q e d i strip t = w := by
  obtain ⟨hcodes, rfl⟩ | ⟨hcodes, g, rfl | rfl, hg⟩ := hstrip <;> obtain rfl | rfl := hf <;> simp_all [landWindow]

theorem landWindow_stops (hf : ¬ f.stands) :
    landWindow s core p q e d i strip t = cvStop w p q e.id f.report.1 f.report.2 := by
  unfold WriteFate.stands at hf
  obtain ⟨hcodes, rfl⟩ | ⟨hcodes, g, rfl | rfl, hg⟩ := hstrip <;> cases f <;> simp_all [landWindow]

end

/-! ## A tile is sent to a set peer (R718, R719, R724) -/

section
variable {s : State} {p q : Nat} {e : CvEntry} {d : CvDesc}

theorem landRemote_noCrossing (hnone : crossingTo s e.ctx d.device = none) (i : Nat) (strip t : Bytes) :
    landRemote s p q e d i strip t = cvStop (cvTake s p q e.id) p q e.id .fault .setNoCrossing := by
  simp [landRemote, hnone]

variable {dst : Nat} (hcross : crossingTo s e.ctx d.device = some dst)
include hcross

theorem landRemote_peerLost (hdown : (peerAt s d.device).state ≠ .up) (i : Nat) (strip t : Bytes) :
    landRemote s p q e d i strip t = cvStop (cvTake s p q e.id) p q e.id .timeout .setPeerLost := by
  simp [landRemote, hcross, hdown]

variable (hup : (peerAt s d.device).state = .up)
include hup

theorem landRemote_waits (hfull : 256 < (peerAt s d.device).unsettled.length + (if d.codes then 2 else 1)) (i : Nat)
    (strip t : Bytes) : landRemote s p q e d i strip t = s := by
  simp only [landRemote, hcross, hup, ne_eq, not_true, if_false, if_pos hfull]

theorem landRemote_sends (hroom : (peerAt s d.device).unsettled.length + (if d.codes then 2 else 1) ≤ 256) (i : Nat)
    (strip t : Bytes) : landRemote s p q e d i strip t =
      sendRemote (if d.codes then sendRemote (cvTake s p q e.id) d.device (.strip p q e.id) e.ctx dst
        (remotePayload s d e.ctx dst (codePlace d i strip)) else cvTake s p q e.id) d.device (.convoy p q e.id) e.ctx dst
        (remotePayload s d e.ctx dst (tilePlace d i t)) := by
  simp only [landRemote, hcross, hup, ne_eq, not_true, if_false, if_neg (Nat.not_lt.mpr hroom)]

end

/-! ## The oldest issued tile (R208, R210) -/

theorem execConvoyTileLand_none {s : State} {core queue : Nat}
    (h : ∀ e ∈ queueAll (coreOf s (physOf s core)) queue, e.tiles = []) :
    execConvoyTileLand core queue s = .next (settleAll s) := by
  have hnone : (queueAll (coreOf s (physOf s core)) queue).find? (fun e => !e.tiles.isEmpty) = none := by
    rw [List.find?_eq_none]
    intro e he
    simp [h e he]
  simp [execConvoyTileLand, hnone]

section
variable {s : State} {core queue : Nat} {e : CvEntry} {b : Bytes} {x : Ctx} {i : Nat} {st : Option Bytes} {t : Bytes}
  {rest : List (Nat × Option Bytes × Bytes)}
  (hfirst : (queueAll (coreOf s (physOf s core)) queue).find? (fun e => !e.tiles.isEmpty) = some e)
  (htiles : e.tiles = (i, st, t) :: rest) (hbody : e.body = some b) (hctx : tget? s.ctxs e.ctx = some x)
include hfirst htiles hbody hctx

theorem execConvoyTileLand_object (hkind : (CvDesc.parse b).dstKind = 0) : execConvoyTileLand core queue s =
    .next (settleAll (landObject (cvTake s (physOf s core) queue e.id) (physOf s core) queue x e (CvDesc.parse b) i
      (st.getD []) t)) := by
  simp only [execConvoyTileLand, hfirst, htiles, hbody, hctx, hkind, if_true]

theorem execConvoyTileLand_window (hkind : (CvDesc.parse b).dstKind = 1) : execConvoyTileLand core queue s =
    .next (settleAll (landWindow (cvTake s (physOf s core) queue e.id) core (physOf s core) queue e (CvDesc.parse b) i
      (st.getD []) t)) := by
  simp [execConvoyTileLand, hfirst, htiles, hbody, hctx, hkind]

theorem execConvoyTileLand_remote (hkind : (CvDesc.parse b).dstKind = 2) : execConvoyTileLand core queue s =
    .next (settleAll (landRemote s (physOf s core) queue e (CvDesc.parse b) i (st.getD []) t)) := by
  simp [execConvoyTileLand, hfirst, htiles, hbody, hctx, hkind]

end

theorem landObject_stored {s v : State} {p q : Nat} {x : Ctx} {e : CvEntry} {d : CvDesc} {i : Nat} {strip t : Bytes}
    {o y : Obj} (hobj : objOf x d.dstHandle = some o)
    (hwrite : objTileWrite s x o (d.dstOff + i) (decide (d.dstOff = 0) && decide (d.count = o.tilesM1 + 1) && i == 0) strip t =
      .ok (v, y)) :
    landObject s p q x e d i strip t = countTile (cvLanded
      (modCtx v e.ctx (fun z => { z with objs := tset z.objs d.dstHandle y })) p q e.id) e d i 4096 := by
  simp only [landObject, hobj, hwrite]

/-- A landed tile counts in BYTES and as landed of its descriptor (R397). -/
theorem tellLanded_tile {v : State} {p q i : Nat} {e : CvEntry} {b : Bytes} {f : Flight}
    (hfound : findCv v p q e.id = some e) (hbody : e.body = some b) (hsrc : f.src = .convoy p q e.id i) :
    tellLanded v f = cvLanded (countTile v e (CvDesc.parse b) i f.data.length) p q e.id := by
  simp [tellLanded, hsrc, countLanded, hfound, hbody]

/-- Settles O52: each kind of destination by its `execConvoyTileLand_…`, and then by the fate of the write. -/
theorem convoyTilesLand : Obligations.ConvoyTilesLand := by
  refine ⟨?_, ?_⟩
  · rintro core queue p s rfl
    refine ⟨execConvoyTileLand_none, ?_⟩
    rintro e b d x i st t rest hfirst htiles hbody rfl hctx hkind
    have hrun := execConvoyTileLand_window hfirst htiles hbody hctx hkind
    refine ⟨_, _, rfl, rfl, fun hflat => tilePlace_flat hflat i t, fun hpitch => ?_, fun v0 f0 hcodes hoffer hacc hfull => ?_, ?_,
      fun f v hfound hsrc => tellLanded_tile hfound hbody hsrc⟩
    · rw [tilePlace_pitched hpitch]
      exact ⟨rfl, rfl, rfl, rfl⟩
    · rw [exec_convoyTileLand, hrun, ← landWindow_strip_stops hcodes hoffer (not_or.mpr ⟨hacc, hfull⟩)]
      rfl
    · rintro h v0 v f rfl hstrip hoffer
      refine ⟨fun hstands => ?_, fun hacc hfull => ?_⟩
      · rw [exec_convoyTileLand, hrun, landWindow_stands (s := cvTake s _ queue e.id) hstrip hoffer hstands]
      · rw [exec_convoyTileLand, hrun,
          landWindow_stops (s := cvTake s _ queue e.id) hstrip hoffer (not_or.mpr ⟨hacc, hfull⟩)]
  · rintro core queue p i e b d x st t rest u s rfl hfirst htiles hbody rfl hctx rfl
    refine ⟨fun hkind o v y hobj hwrite => ?_, ?_⟩
    · rw [exec_convoyTileLand, execConvoyTileLand_object hfirst htiles hbody hctx hkind,
        landObject_stored (s := cvTake s _ queue e.id) hobj hwrite]
    · rintro hkind k rfl
      have hrun := execConvoyTileLand_remote hfirst htiles hbody hctx hkind
      rw [exec_convoyTileLand, hrun]
      refine ⟨fun hnone => by rw [landRemote_noCrossing hnone]; rfl, fun dst hcross => ⟨fun hdown => ?_, fun hup hfull => ?_, ?_⟩⟩
      · rw [landRemote_peerLost hcross hdown]
        rfl
      · rw [landRemote_waits hcross hup hfull]
      · rintro hup hroom v rfl
        rw [landRemote_sends hcross hup hroom]
        rfl

end Sys2Proof.Machine

/-!
PROOFS. Commands of a context and of an object: the checks that come before any of them (R239, R366, R402).
-/

namespace Sys2Proof.Machine

/-! ## The context and the object of a command -/

theorem onCtx_none {s : State} {rq : Req} (h : liveCtx s rq.ctx = none) (op : Nat) (k : Ctx → State) :
    onCtx s rq op k = replyC s rq op .noContext .ctxUnknown [] := by
  rw [onCtx, h]

theorem onCtx_some {s : State} {rq : Req} {x : Ctx} (h : liveCtx s rq.ctx = some x) (op : Nat) (k : Ctx → State) :
    onCtx s rq op k = k x := by
  rw [onCtx, h]

theorem onObj_none {s : State} {rq : Req} {x : Ctx} {h : Nat} (hctx : liveCtx s rq.ctx = some x) (hobj : tget? x.objs h = none)
    (op : Nat) (k : Ctx → Obj → State) : onObj s rq op h k = replyC s rq op .refused .objHandle [] := by
  rw [onObj, onCtx_some hctx, hobj]

theorem onObj_some {s : State} {rq : Req} {x : Ctx} {h : Nat} {o : Obj} (hctx : liveCtx s rq.ctx = some x)
    (hobj : tget? x.objs h = some o) (op : Nat) (k : Ctx → Obj → State) : onObj s rq op h k = k x o := by
  rw [onObj, onCtx_some hctx, hobj]

theorem liveCtx_some {s : State} {c : Nat} {x : Ctx} (h : liveCtx s c = some x) : tget? s.ctxs c = some x ∧ x.st ≠ .destroying := by
  unfold liveCtx at h
  split at h
  · next y hy =>
    split at h
    · cases h
    · next hst =>
      cases h
      exact ⟨hy, hst⟩
  · cases h

/-- A park goes on only where one is under way. -/
theorem finishPark_idle {s : State} {c : Nat} (h : (tget? s.ctxs c).bind Ctx.parking = none) : finishPark s c = s := by
  unfold finishPark
  split
  · rfl
  · next x hx =>
    rw [hx, Option.bind_some] at h
    rw [h]

theorem answered_noContext {i : Instr} {s : State} {rq : Req} {op : Nat} {k : Ctx → State} (hl : Live rq s)
    (h : liveCtx s rq.ctx = none) (hi : exec i s = .next (onCtx s rq op k)) :
    Answered i s rq op rq.ctx .noContext .ctxUnknown [] s :=
  answered_replyC (hi.trans (congrArg Host.Outcome.next (onCtx_none h op k))) hl

theorem answered_noObject {i : Instr} {s : State} {rq : Req} {op h : Nat} {x : Ctx} {k : Ctx → Obj → State} (hl : Live rq s)
    (hctx : liveCtx s rq.ctx = some x) (hobj : tget? x.objs h = none) (hi : exec i s = .next (onObj s rq op h k)) :
    Answered i s rq op rq.ctx .refused .objHandle [] s :=
  answered_replyC (hi.trans (congrArg Host.Outcome.next (onObj_none hctx hobj op k))) hl

/-- A PREEMPT in mode PARK that is answered at once, whatever its answer: no park goes on. -/
theorem execPreemptPark_reply {s : State} {rq : Req} {k : Ctx → State} {st : Status} {r : Reason} {b : Bytes}
    (hexec : execPreemptPark rq s = .next (if ((tget? s.ctxs rq.ctx).bind Ctx.parking).isSome then onCtx s rq 0x0132 k
      else finishPark (onCtx s rq 0x0132 k) rq.ctx))
    (hreply : onCtx s rq 0x0132 k = replyC s rq 0x0132 st r b) :
    execPreemptPark rq s = .next (replyC s rq 0x0132 st r b) := by
  rw [hexec, hreply]
  split
  · rfl
  · next h =>
    rw [finishPark_idle (by simpa using h)]

/-- Settles O20: every command of a context runs under `onCtx`, and every one of an object under `onObj`. -/
theorem contextAndObjectAreChecked : Obligations.ContextAndObjectAreChecked := by
  intro rq s hl
  refine ⟨fun hnone a b c d e f g data hs q => ?_, fun x h hctx hobj a b data => ?_⟩
  · simp only [List.forall_mem_cons, List.not_mem_nil, false_implies, implies_true, and_true]
    have hpark : exec (.preemptPark rq) s = .next (replyC s rq 0x0132 .noContext .ctxUnknown []) :=
      execPreemptPark_reply rfl (onCtx_none hnone _ _)
    exact ⟨answered_noContext hl hnone rfl, answered_noContext hl hnone rfl, answered_noContext hl hnone rfl,
      answered_noContext hl hnone rfl, answered_noContext hl hnone rfl, answered_noContext hl hnone rfl,
      answered_noContext hl hnone rfl, answered_noContext hl hnone rfl, answered_noContext hl hnone rfl,
      answered_noContext hl hnone rfl, answered_noContext hl hnone rfl, answered_noContext hl hnone rfl,
      answered_noContext hl hnone rfl, answered_noContext hl hnone rfl, answered_replyC hpark hl,
      answered_noContext hl hnone rfl, answered_noContext hl hnone rfl, answered_noContext hl hnone rfl,
      answered_noContext hl hnone rfl⟩
  · simp only [List.forall_mem_cons, List.not_mem_nil, false_implies, implies_true, and_true]
    exact ⟨answered_noObject hl hctx hobj rfl, answered_noObject hl hctx hobj rfl, answered_noObject hl hctx hobj rfl,
      answered_noObject hl hctx hobj rfl, answered_noObject hl hctx hobj rfl, answered_noObject hl hctx hobj rfl,
      answered_noObject hl hctx hobj rfl⟩

end Sys2Proof.Machine

/-!
PROOFS. Prefetch, the end of a phase and the re-shard plan (R228, R243, R264, R265, R267, R271).
-/

namespace Sys2Proof.Machine

/-! ## A prefetch entry (R228) -/

section
variable {s : State} {c slot : Nat} {x : Ctx} {j : Job} {im : Image} {e : PrefetchEnt}

theorem imageOf_eq (hctx : tget? s.ctxs c = some x) : imageOf s c slot = tget? x.images slot := by
  rw [imageOf, hctx, Option.bind_some]

variable (hctx : tget? s.ctxs c = some x) (hjob : x.job = some j) (him : tget? x.images slot = some im)
  (hslot : j.run.slot = slot) (htrans : j.trans = none) (hended : j.ended = none)
  (hnext : (phasePrefetch im j.phase)[im.prefetchNext]? = some e)
include hctx hjob him hslot htrans hended hnext

theorem issuePrefetch_early (hdue : prefetchDue j e = false) : issuePrefetch s c slot = s := by
  simp [issuePrefetch, imageOf_eq hctx, him, hctx, hjob, hslot, htrans, hended, hnext, hdue]

theorem issuePrefetch_due (hdue : prefetchDue j e = true) : issuePrefetch s c slot = firmwarePush
    (modCtx s c (fun y => { y with images := tmod y.images slot (fun m => { m with prefetchNext := m.prefetchNext + 1 }) }))
    (prefetchCore im e) c slot .prefetch (boundBody s c slot im e.body) := by
  simp [issuePrefetch, imageOf_eq hctx, him, hctx, hjob, hslot, htrans, hended, hnext, hdue]

end

/-! ## The end of a phase (R243, R261, R264) -/

section
variable {s v : State} {c : Nat} {x : Ctx} {j : Job} {im : Image}

/-- The stages of a context's job have ended. -/
def stagesEnded (s : State) (c : Nat) : State :=
  modJob s c (fun k => { k with stages := k.stages.map (fun r => { r with st := .ended }) })

variable (hctx : tget? s.ctxs c = some x) (hjob : x.job = some j) (him : tget? x.images j.run.slot = some im)
  (hcores : j.onCores = true) (htrans : j.trans = none) (hended : j.ended = none) (hend : stagesCanEnd s j = true)
  (hv : v = jctFlush (issueAllPrefetch c j.run.slot im.prefetch.length s) c)
  (hruns : ((tget? v.ctxs c).bind Ctx.job).any (fun k => k.ended.isSome) = false)
include hctx hjob him hcores htrans hended hend hv hruns

theorem execPhaseEnd_incomplete (succ : Option Nat) (hrows : jctIncomplete v c = true) :
    execPhaseEnd c succ s = .next (failJob (stagesEnded v c) c .pipeJctOrder) := by
  subst hv
  simp [execPhaseEnd, hctx, hjob, him, hcores, htrans, hended, hend, hruns, hrows, stagesEnded]

variable (hrows : jctIncomplete v c = false)
include hrows

theorem execPhaseEnd_last :
    execPhaseEnd c none s = .next (modJob (stagesEnded v c) c (fun k => { k with ended := some (.ok, .none) })) := by
  subst hv
  simp [execPhaseEnd, hctx, hjob, him, hcores, htrans, hended, hend, hruns, hrows, stagesEnded]

variable {ph : PhaseEnt} (hph : im.phases.find? (fun e => e.phase == j.phase) = some ph)
include hph

theorem execPhaseEnd_successor {q : Nat} (hsucc : bit ph.succ q = true) : execPhaseEnd c (some q) s =
    .next (modJob (stagesEnded v c) c (fun k => { k with trans := some { src := j.phase, dst := q } })) := by
  subst hv
  simp [execPhaseEnd, hctx, hjob, him, hcores, htrans, hended, hend, hruns, hrows, stagesEnded, hph, hsucc]

theorem execPhaseEnd_noSuccessor {q : Nat} (hsucc : bit ph.succ q = false) : execPhaseEnd c (some q) s =
    .next (failJob (stagesEnded v c) c .pipeSuccessor) := by
  subst hv
  simp [execPhaseEnd, hctx, hjob, him, hcores, htrans, hended, hend, hruns, hrows, stagesEnded, hph, hsucc]

end

/-! ## The re-shard plan (R265 to R271) -/

section
variable {s : State} {c : Nat} {x : Ctx} {j : Job} {im : Image} {w : Trans} (hctx : tget? s.ctxs c = some x)
  (hjob : x.job = some j) (htrans : j.trans = some w) (him : tget? x.images j.run.slot = some im)
include hctx hjob htrans him

theorem execReshardStart_begun (hbegun : w.begun = true) : execReshardStart c s = .next s := by
  simp [execReshardStart, hctx, hjob, htrans, him, hbegun]

theorem execReshardStart_noOpens (hbegun : w.begun = false) (hopens : (planOf im w).filter (fun e => e.kind == 0) = []) :
    execReshardStart c s = .next (planStep s c j.run.slot im w 0) := by
  simp only [execReshardStart, hctx, hjob, htrans, him, hbegun, hopens, planOpens, Bool.false_eq_true, if_false]

variable (hbegun : w.begun = true) (hleft : w.left = 0)
include hbegun hleft

theorem execReshardStepComplete_failed (hfailed : w.failed = true) : execReshardStepComplete c s =
    .next (failJob (modJob s c (fun k => { k with trans := none })) c .pipeReshard) := by
  simp [execReshardStepComplete, hctx, hjob, htrans, him, hbegun, hleft, hfailed]

variable (hfailed : w.failed = false)
include hfailed

theorem execReshardStepComplete_next
    (hlater : (planOf im w).any (fun e => e.kind == 1 && decide (w.step < e.step)) = true) :
    execReshardStepComplete c s = .next (planStep s c j.run.slot im w (w.step + 1)) := by
  simp only [execReshardStepComplete, hctx, hjob, htrans, him, hbegun, hleft, hfailed, hlater, Bool.not_true,
    Bool.false_eq_true, ne_eq, not_true, or_self, if_false, if_true]

theorem execReshardStepComplete_last (hplan : ∀ e ∈ planOf im w, e.kind ≠ 2 ∧ (e.kind = 1 → e.step ≤ w.step)) :
    execReshardStepComplete c s = .next (startPhase s c j.run.slot w.dst im) := by
  have hlater : (planOf im w).any (fun e => e.kind == 1 && decide (w.step < e.step)) = false := by
    rw [List.any_eq_false]
    intro e he
    simpa using (hplan e he).2
  have hcloses : planCloses s c j.run.slot im w = [] := by
    rw [planCloses, List.filter_eq_nil_iff.mpr fun e he => by simpa using (hplan e he).1, List.filterMap_nil]
  simp [execReshardStepComplete, hctx, hjob, htrans, him, hbegun, hleft, hfailed, hlater, hcloses]

end

/-- A job that fails keeps what it holds but its outcome. -/
theorem job_failJob {s : State} {c : Nat} {x : Ctx} {j : Job} (hctx : tget? s.ctxs c = some x) (hjob : x.job = some j)
    (hended : j.ended = none) (r : Reason) : ∃ y, tget? (failJob s c r).ctxs c = some y ∧
      y.job = some { j with ended := some (.fault, r) } := by
  have hmod := tget?_modCtx (clearWork s c) c (fun x => { x with job := x.job.map (fun j => { j with ended := match j.ended with
    | some (.fault, q) => some (.fault, q)
    | _ => some (.fault, r) }) })
  have hsame : (clearWork s c).ctxs = s.ctxs := rfl
  rw [hsame, hctx] at hmod
  exact ⟨_, hmod, by simp [hjob, hended]⟩

/-- The stages of a phase start running, with no boundary behind them (R243, R244). -/
theorem phaseRuns_start (im : Image) (p : Nat) : ∀ r ∈ phaseRuns im p, r.boundary = 0 ∧ r.st = .running := by
  intro r hr
  obtain ⟨e, -, rfl⟩ := List.mem_map.mp hr
  exact ⟨rfl, rfl⟩

/-- A job at the start of a phase. -/
def jobAtPhase (j : Job) (q : Nat) (im : Image) : Job :=
  { j with
    phase := q, trans := none, jctSent := [],
    stages := (phaseRuns im q).map (fun r => { r with st := if j.order.isSome then .stopped else .running }) }

theorem stages_jobAtPhase {j : Job} (horder : j.order = none) (q : Nat) (im : Image) :
    (jobAtPhase j q im).stages = phaseRuns im q := by
  refine (List.map_congr_left fun r hr => ?_).trans (List.map_id _)
  obtain ⟨-, hst⟩ := phaseRuns_start im q r hr
  simp [horder, ← hst]

/-- A phase that no order holds back starts: its stages run, and the next prefetch entry is its first. -/
theorem startPhase_runs {s : State} {c : Nat} {x : Ctx} {j : Job} (hctx : tget? s.ctxs c = some x) (hjob : x.job = some j)
    (slot q : Nat) (im : Image) : ∃ u y, startPhase s c slot q im = tryStop u c ∧
      tget? u.ctxs c = some y ∧ y.job = some (jobAtPhase j q im) ∧ u = { s with ctxs := u.ctxs } := by
  refine ⟨_, { x with job := some (jobAtPhase j q im), images := tmod x.images slot (fun m => { m with prefetchNext := 0 }) },
    rfl, ?_, rfl, rfl⟩
  rw [tget?_modCtx, modJob, tget?_modCtx, hctx, Option.map_some, Option.map_some, hjob, Option.map_some]
  rfl

/-- Settles O15: each outcome of the three commands by its lemma above. -/
theorem phasesAndReshard : Obligations.PhasesAndReshard := by
  refine ⟨⟨?_, ?_⟩, ?_⟩
  · intro c slot im x j e s hctx hjob him hslot htrans hended hnext
    exact ⟨fun hdue => congrArg _ (issuePrefetch_early hctx hjob him hslot htrans hended hnext hdue),
      fun hdue => congrArg _ (issuePrefetch_due hctx hjob him hslot htrans hended hnext hdue)⟩
  · rintro c x j im s hctx hjob him hcores htrans hended hend v u hv rfl hruns
    refine ⟨fun succ => execPhaseEnd_incomplete hctx hjob him hcores htrans hended hend hv hruns succ, fun hrows =>
      ⟨execPhaseEnd_last hctx hjob him hcores htrans hended hend hv hruns hrows, fun q ph hph => ⟨fun hsucc => ?_, fun hsucc => ?_⟩⟩⟩
    · exact execPhaseEnd_successor hctx hjob him hcores htrans hended hend hv hruns hrows hph hsucc
    · exact execPhaseEnd_noSuccessor hctx hjob him hcores htrans hended hend hv hruns hrows hph hsucc
  · intro c x j im w s hctx hjob htrans him
    refine ⟨execReshardStart_begun hctx hjob htrans him, execReshardStart_noOpens hctx hjob htrans him,
      execReshardStepComplete_next hctx hjob htrans him, fun hbegun hleft hfailed hended => ?_,
      fun hbegun hleft hfailed hplan horder => ?_⟩
    · have hmod : tget? (modJob s c (fun k => { k with trans := none })).ctxs c =
          some { x with job := some { j with trans := none } } := by rw [modJob, tget?_modCtx, hctx, Option.map_some, hjob]; rfl
      obtain ⟨y, hy, hyjob⟩ := job_failJob hmod rfl hended .pipeReshard
      exact ⟨_, y, execReshardStepComplete_failed hctx hjob htrans him hbegun hleft hfailed, hy, by rw [hyjob]; rfl,
        by rw [hyjob]; rfl⟩
    · obtain ⟨u, y, hstart, hy, hk, hframe⟩ := startPhase_runs hctx hjob j.run.slot w.dst im
      have hrun := execReshardStepComplete_last hctx hjob htrans him hbegun hleft hfailed hplan
      have hstages := stages_jobAtPhase horder w.dst im
      exact ⟨u, y, _, by rw [exec_reshardStepComplete, hrun, hstart], hy, hk, rfl, hstages, rfl,
        hstages ▸ phaseRuns_start im w.dst, hframe⟩

end Sys2Proof.Machine

/-!
PROOFS. What the storing, copying and evicting of objects leaves of the contexts, and what the firmware's part of a command
leaves of the machine.
-/

namespace Sys2Proof.Machine

/-! ## The firmware's part of a command (R812) -/

/-- A command whose firmware work can begin at once has its effect at once. -/
theorem onFirmware_ready {s t : State} {c : Nat} (h : Ready s t c) (cmd : Instr) : onFirmware s t c cmd = t := by
  obtain ⟨hwork, hfills⟩ := h
  rw [onFirmware, if_pos hwork, hfills]
  rfl

section
variable {β : Type} {g : State → β}
  (hg : ∀ s net draws rel pwr, g { s with net := net, draws := draws, rel := rel, pwr := pwr } = g s)
include hg

theorem replyD_keeps (s : State) (rq : Req) (op : Nat) (st : Status) (r : Reason) (b : Bytes) :
    g (replyD s rq op st r b) = g s := by
  obtain ⟨hframe, -⟩ := replyAs_only s rq op 0 st r b
  rw [replyD, hframe]
  exact hg s _ _ _ s.pwr

theorem logRefusal_keeps (s : State) (kind target cls id : Nat) : g (logRefusal s kind target cls id) = g s :=
  hg s s.net s.draws s.rel _

theorem abortEntry_keeps (s : State) (cls id : Nat) : g (abortEntry s cls id) = g s := by
  unfold abortEntry
  dsimp only
  split
  · rfl
  · split
    · rw [replyD_keeps hg, logRefusal_keeps hg]
      exact hg s s.net s.draws s.rel _
    · rw [logRefusal_keeps hg]
      exact hg s s.net s.draws s.rel _

theorem voteCast_keeps (s : State) (cls id mask : Nat) : g (voteCast s cls id mask) = g s := by
  have hsync : ∀ t, g (syncUp t) = g t := fun t => hg t t.net t.draws t.rel _
  rw [voteCast, hsync]
  split
  · exact abortEntry_keeps hg s cls id
  · rfl

theorem cancelFrom_keeps (old s : State) (cls id mask : Nat) : g (cancelFrom old s cls id mask) = g s := by
  unfold cancelFrom
  split
  · exact logRefusal_keeps hg s 3 2 cls id
  · rfl

/-- A vote changes nothing but the power record, the replies, and the records of reply latency with their draw. -/
theorem firmwareVote_keeps (old s : State) (cores : List Nat) : g (firmwareVote old s cores) = g s := by
  unfold firmwareVote
  split
  · rfl
  · rw [voteCast_keeps hg, cancelFrom_keeps hg]

/-- A command that waits for its cores and banks leaves of its effect nothing but itself, held. -/
theorem onFirmware_waits {s t : State} {c : Nat} (h : workReady s t c = false) (cmd : Instr) :
    g (onFirmware s t c cmd) =
      g { s with fwWaits := s.fwWaits ++ [{ cores := workCores s t c, banks := workBanks s t c, cmd := cmd }] } := by
  rw [onFirmware, if_neg (by simp [h]), firmwareVote_keeps hg]

end

theorem mem_fwWaits_releaseWork (s : State) (w : FwWait) :
    w ∈ (releaseWork s).fwWaits ↔ w ∈ s.fwWaits ∧ w.ready s = false := by
  simp [releaseWork]

theorem mem_dispatched_releaseWork (s : State) (i : Instr) : i ∈ (releaseWork s).net.dispatched ↔
    i ∈ s.net.dispatched ∨ ∃ w ∈ s.fwWaits, w.ready s = true ∧ w.cmd = i := by
  simp [releaseWork, and_assoc]

/-! ## Storage and the contexts -/

@[simp] theorem setExt_ctxs (s : State) (tier : Nat) (e : Ext) : (setExt s tier e).ctxs = s.ctxs := by
  unfold setExt
  split <;> rfl

@[simp] theorem setRam_ctxs (s : State) (home : Nat) (r : Ram) : (setRam s home r).ctxs = s.ctxs := by
  unfold setRam
  split <;> rfl

@[simp] theorem extFill_ctxs (s : State) (tier key : Nat) (sealed : Bool) (first count : Nat) :
    (extFill s tier key sealed first count).ctxs = s.ctxs := by
  unfold extFill
  split
  · rfl
  · exact setExt_ctxs ..

@[simp] theorem extWrite_ctxs (s : State) (tier key : Nat) (sealed : Bool) (addr : Nat) (bs : Bytes) :
    (extWrite s tier key sealed addr bs).ctxs = s.ctxs := by
  unfold extWrite
  split
  · rfl
  · exact setExt_ctxs ..

@[simp] theorem extErase_ctxs (s : State) (tier first count : Nat) (sealed : Bool) :
    (extErase s tier first count sealed).ctxs = s.ctxs := setExt_ctxs ..

@[simp] theorem upperWrite_ctxs (s : State) (x : Ctx) (u : Upper) (i : Nat) (bs : Bytes) :
    (upperWrite s x u i bs).ctxs = s.ctxs := by
  unfold upperWrite
  split <;> simp

@[simp] theorem homeWrite_ctxs (s : State) (x : Ctx) (o : Obj) (off : Nat) (bs : Bytes) :
    (homeWrite s x o off bs).ctxs = s.ctxs := by
  unfold homeWrite
  split <;> simp

theorem codedWrite_ctxs {s t : State} {x : Ctx} {o : Obj} {i : Nat} {fresh : Bool} {strip tile : Bytes}
    (h : codedWrite s x o i fresh strip tile = .ok t) : t.ctxs = s.ctxs := by
  unfold codedWrite at h
  split at h
  · cases h
  · extract_lets tiles new s1 stored flags sl p s2 s3 at h
    have hs1 : s1.ctxs = s.ctxs := by
      unfold s1
      split <;> simp
    split at h
    · cases h
    · cases h
      simpa [s2, s3] using hs1

theorem objTileWrite_ctxs {s t : State} {x : Ctx} {o p : Obj} {i : Nat} {fresh : Bool} {strip tile : Bytes}
    (h : objTileWrite s x o i fresh strip tile = .ok (t, p)) : t.ctxs = s.ctxs := by
  unfold objTileWrite at h
  split at h
  · cases h
  · split at h
    · cases h
      simp
    · split at h
      · cases h
        simp
      · cases hcoded : codedWrite s x o i fresh strip tile with
        | error r => rw [hcoded] at h; cases h
        | ok v => rw [hcoded] at h; cases h; exact codedWrite_ctxs hcoded

theorem writeBackTiles_ctxs (x : Ctx) (o : Obj) (u : Upper) (n : Nat) :
    ∀ (i : Nat) (s : State), (writeBackTiles s x o u n i).1.ctxs = s.ctxs := by
  induction n with
  | zero => intro i s; rfl
  | succ n ih =>
    intro i s
    rw [writeBackTiles]
    split
    · rfl
    · split
      · rfl
      · next hwrite => rw [ih, objTileWrite_ctxs hwrite]

theorem copyUp_ctxs (x : Ctx) (o : Obj) (u : Upper) (n : Nat) :
    ∀ (i : Nat) (s t : State), copyUp s x o u n i = .ok t → t.ctxs = s.ctxs := by
  induction n with
  | zero => intro i s t h; cases h; rfl
  | succ n ih =>
    intro i s t h
    rw [copyUp] at h
    split at h
    · cases h
    · rw [ih _ _ _ h, upperWrite_ctxs]

@[simp] theorem integrityFail_ctxs (s : State) (c tier granule : Nat) (r : Reason) :
    (integrityFail s c tier granule r).ctxs = s.ctxs := by
  unfold integrityFail
  dsimp only
  (repeat' split) <;> simp

@[simp] theorem noteUe_ctxs (s : State) (o : Obj) (r : Reason) : (noteUe s o r).ctxs = s.ctxs := by
  unfold noteUe
  (repeat' split) <;> simp [noteWord]

/-! ## How a context stands: its state, the PARK under way and what it has parked -/

/-- How a context stands, none where there is no such context. -/
def standing (s : State) (c : Nat) : Option (CtxSt × Option Req × Parked) :=
  (tget? s.ctxs c).map (fun x => (x.st, x.parking, x.parked))

theorem standing_of_ctxs {s t : State} (h : t.ctxs = s.ctxs) (c : Nat) : standing t c = standing s c := by
  rw [standing, h, standing]

theorem standing_eq {s : State} {c : Nat} {x : Ctx} (h : tget? s.ctxs c = some x) :
    standing s c = some (x.st, x.parking, x.parked) := by
  rw [standing, h, Option.map_some]

theorem exists_of_standing {s : State} {c : Nat} {st : CtxSt} {p : Option Req} {k : Parked}
    (h : standing s c = some (st, p, k)) : ∃ x, tget? s.ctxs c = some x ∧ x.st = st ∧ x.parking = p ∧ x.parked = k := by
  obtain ⟨x, hx, heq⟩ := Option.map_eq_some_iff.mp h
  cases heq
  exact ⟨x, hx, rfl, rfl, rfl⟩

/-- A context that stands in one state stands in every other in which it stands the same. -/
theorem exists_of_standing_eq {s t : State} {c : Nat} {x : Ctx} (h : standing t c = standing s c) (hx : tget? s.ctxs c = some x) :
    ∃ y, tget? t.ctxs c = some y ∧ y.st = x.st ∧ y.parking = x.parking ∧ y.parked = x.parked :=
  exists_of_standing (h.trans (standing_eq hx))

/-- A change of a context keeps how each one stands when it changes none of the three fields. -/
theorem standing_modCtx (s : State) (d c : Nat) {f : Ctx → Ctx} (hf : ∀ x, (f x).st = x.st ∧ (f x).parking = x.parking ∧
    (f x).parked = x.parked := by exact fun _ => ⟨rfl, rfl, rfl⟩) : standing (modCtx s d f) c = standing s c := by
  by_cases h : c = d
  · subst h
    rw [standing, tget?_modCtx, Option.map_map, standing]
    refine congrArg (Option.map · _) (funext fun x => ?_)
    obtain ⟨hst, hparking, hparked⟩ := hf x
    rw [Function.comp_apply, hst, hparking, hparked]
  · rw [standing, tget?_modCtx_ne s d c f h, standing]

@[simp] theorem standing_meter (s : State) (d : Nat) (f : (Nat → Nat) → Acct → Acct) (c : Nat) :
    standing (meter s d f) c = standing s c := standing_modCtx s d c

@[simp] theorem standing_countBytes (s : State) (d src dst n c : Nat) : standing (countBytes s d src dst n) c = standing s c :=
  standing_meter s d _ c

@[simp] theorem standing_modAcct (s : State) (d : Nat) (f : Acct → Acct) (c : Nat) :
    standing (modAcct s d f) c = standing s c := standing_modCtx s d c

theorem freeObj_standing (x : Ctx) (h : Nat) (o : Obj) :
    (freeObj x h o).st = x.st ∧ (freeObj x h o).parking = x.parking ∧ (freeObj x h o).parked = x.parked := by
  unfold freeObj
  dsimp only
  split <;> exact ⟨rfl, rfl, rfl⟩

@[simp] theorem standing_writeBack (s : State) (d : Nat) (x : Ctx) (o : Obj) (c : Nat) :
    standing (writeBack s d x o).1 c = standing s c := by
  unfold writeBack
  split
  · next u hu =>
    split
    · have htiles := writeBackTiles_ctxs x o u (o.tilesM1 + 1) 0 s
      split
      · next hwrite => rw [hwrite] at htiles; simpa using standing_of_ctxs htiles c
      · exact standing_of_ctxs htiles c
    · rfl
  · rfl

@[simp] theorem standing_saveUpper (s : State) (d h : Nat) (x : Ctx) (o : Obj) (c : Nat) :
    standing (saveUpper s d h x o).1 c = standing s c := by
  have hback := standing_writeBack s d x o c
  unfold saveUpper
  split
  · next hwrite =>
    rw [hwrite] at hback
    exact (standing_modCtx _ d c).trans hback
  · exact hback

@[simp] theorem standing_releaseUpper (s : State) (d h : Nat) (o : Obj) (c : Nat) :
    standing (releaseUpper s d h o).1 c = standing s c := by
  unfold releaseUpper
  split
  · rfl
  · next x hx =>
    have hsave := standing_saveUpper s d h x o c
    split
    · next hwrite =>
      rw [hwrite] at hsave
      exact (standing_modCtx _ d c).trans hsave
    · exact hsave

@[simp] theorem standing_evictUpper (s : State) (d h : Nat) (o : Obj) (c : Nat) :
    standing (evictUpper s d h o).1 c = standing s c := by
  have hrelease := standing_releaseUpper s d h o c
  unfold evictUpper
  split
  · next hout =>
    rw [hout] at hrelease
    simpa using hrelease
  · exact hrelease

@[simp] theorem standing_finishFill (s : State) (d h c : Nat) : standing (finishFill s d h) c = standing s c := by
  unfold finishFill
  split
  · rfl
  · split
    · rfl
    · refine (standing_modCtx _ d c).trans ?_
      exact (standing_countBytes ..).trans (standing_of_ctxs (extErase_ctxs ..) c)

@[simp] theorem standing_dropPage (s : State) (d h : Nat) (o : Obj) (c : Nat) :
    standing (dropPage s d h o) c = standing s c := by
  rw [dropPage, standing_finishFill]
  exact standing_modCtx s d c (fun x => freeObj_standing x h o)

/-- Evictions leave every context standing as it did (R200). -/
@[simp] theorem standing_evict (s : State) (d tier core n : Nat) (stuck : List Nat) (fuel c : Nat) :
    standing (evict s d tier core n stuck fuel) c = standing s c := by
  have hupper : ∀ {u v : State} {h : Nat} {o : Obj} {r : Option Reason}, evictUpper u d h o = (v, r) →
      standing v c = standing u c := fun {u v h o r} hout => by
    rw [← standing_evictUpper u d h o c, hout]
  fun_induction evict s d tier core n stuck fuel with
  | case1 => rfl
  | case2 => rfl
  | case3 => rfl
  | case4 s stuck fuel x hx hfits h o hold t hev ih => exact ih.trans (hupper hev)
  | case5 s stuck fuel x hx hfits h o hold t r hev ih => exact ih.trans (hupper hev)
  | case6 s stuck fuel x hx hfits hold h3 h o hpage ih => exact ih.trans (standing_dropPage s d h o c)
  | case7 => rfl
  | case8 => rfl

@[simp] theorem standing_makeRoom (s : State) (d tier core n c : Nat) :
    standing (makeRoom s d tier core n).1 c = standing s c := by
  unfold makeRoom
  split <;> simp

theorem standing_of_makeRoom {s u : State} {d tier core n : Nat} {fits : Bool}
    (h : makeRoom s d tier core n = (u, fits)) (c : Nat) : standing u c = standing s c := by
  rw [← standing_makeRoom s d tier core n c, h]

/-- A context that already has the room evicts nothing. -/
theorem makeRoom_fits {s : State} {c : Nat} {x : Ctx} {tier core n : Nat} (hctx : tget? s.ctxs c = some x)
    (hfits : fits x tier core n = true) : makeRoom s c tier core n = (s, true) := by
  have hevict : evict s c tier core n [] (x.objs.length + 1) = s := by
    rw [evict, hctx]
    exact if_pos hfits
  simp [makeRoom, hctx, hevict, hfits]

end Sys2Proof.Machine

/-!
PROOFS. OBJ_PLACE (R185, R187), and the commands whose firmware work waits for its cores and banks (R812).
-/

namespace Sys2Proof.Machine

/-! ## Placing and releasing an upper copy -/

/-- A copy that is placed is where it was asked for, and clean. -/
theorem placeObj_ok {s u : State} {c h tier core : Nat} {o : Obj} {w : Upper} (hplace : placeObj s c h tier core o = (u, .ok w)) :
    w.tier = tier ∧ w.core = core ∧
      ∃ y, tget? u.ctxs c = some y ∧ tget? y.objs h = some { o with upper := some w, dirty := false } := by
  unfold placeObj at hplace
  dsimp only at hplace
  split at hplace
  · cases hplace
  · split at hplace
    · cases hplace
    · next s1 hroom x hx =>
      split at hplace
      · cases hplace
      · next a ha =>
        split at hplace
        · cases hplace
        · next s3 hcopy =>
          cases hplace
          have hctx : tget? s3.ctxs c = some x := by
            rw [copyUp_ctxs _ _ _ _ _ _ _ hcopy]
            split <;> simpa using hx
          refine ⟨rfl, rfl, ?_⟩
          simp [countBytes, countAct, meter, draw, tget?_modCtx, hctx]

/-- With no upper copy, or a clean one, nothing is written back. -/
theorem writeBack_clean {o : Obj} (hclean : o.upper = none ∨ o.dirty = false) (s : State) (c : Nat) (x : Ctx) :
    writeBack s c x o = (s, none) := by
  unfold writeBack
  split
  · next u hu => rw [if_neg (by simpa [hu] using hclean)]
  · rfl

theorem releaseUpper_clean {s u : State} {c h : Nat} {o : Obj} {r : Option Reason} (hclean : o.upper = none ∨ o.dirty = false)
    (hrelease : releaseUpper s c h o = (u, r)) : u = { s with ctxs := u.ctxs } := by
  unfold releaseUpper at hrelease
  split at hrelease
  · cases hrelease; rfl
  · rw [saveUpper, writeBack_clean hclean] at hrelease
    cases hrelease
    rfl

/-- An object whose copy is released has none. -/
theorem releaseUpper_obj {s u : State} {c h : Nat} {x : Ctx} {o : Obj} (hctx : tget? s.ctxs c = some x)
    (hrelease : releaseUpper s c h o = (u, none)) :
    ∃ y, tget? u.ctxs c = some y ∧ tget? y.objs h = some { o with upper := none, dirty := false } := by
  have hsave := standing_saveUpper s c h x o c
  unfold releaseUpper at hrelease
  rw [hctx] at hrelease
  dsimp only at hrelease
  split at hrelease
  · next v hv =>
    rw [hv] at hsave
    obtain ⟨y, hy, -⟩ := exists_of_standing_eq hsave hctx
    cases hrelease
    simp [tget?_modCtx, hy]
  · next hne =>
    exact absurd hrelease (hne u)

/-! ## The command -/

/-- A copy above the home, on a granted core, may be placed (R185). -/
theorem tier_placeable {x : Ctx} {o : Obj} {tier core : Nat} (hpos : 1 ≤ tier) (htop : tier ≤ 3) (habove : tier < o.homeTier)
    (hhome : 3 ≤ o.homeTier) (hcore : tier = 1 → bit x.cores core = true) :
    ¬ (tier = 0 ∨ 3 < tier ∨ o.homeTier ≤ tier ∨ o.homeTier ≤ 2 ∨ (tier = 1 ∧ !(bit x.cores core))) := by
  simp only [not_or, not_and, Bool.not_eq_true, Bool.not_eq_false']
  exact ⟨by omega, by omega, by omega, by omega, hcore⟩

section
variable {rq : Req} {h : Nat} {x : Ctx} {o : Obj} {s : State}
  (hctx : liveCtx s rq.ctx = some x) (hobj : tget? x.objs h = some o)
include hctx hobj

theorem setPinned_some (p : Bool) : setPinned s rq h p =
    replyC (setCtx s rq.ctx { x with objs := tset x.objs h { o with pinned := p } }) rq 0x0114 .ok .none (upperLoc o) :=
  onObj_some hctx hobj _ _

/-- A copy lies above its object's home, and in T1 on a granted core (R185). -/
theorem execObjPlacePlace_tier {tier core : Nat}
    (htier : o.homeTier ≤ tier ∨ tier = 0 ∨ 3 < tier ∨ o.homeTier ≤ 2 ∨ (tier = 1 ∧ bit x.cores core = false)) :
    execObjPlacePlace rq h tier core s = .next (replyC s rq 0x0114 .refused .objTier []) := by
  rw [execObjPlacePlace, onObj_some hctx hobj, if_pos]
  simp only [Bool.not_eq_eq_eq_not, Bool.not_true]
  tauto

section
variable {tier core : Nat} (hpos : 1 ≤ tier) (htop : tier ≤ 3) (habove : tier < o.homeTier) (hhome : 3 ≤ o.homeTier)
  (hcore : tier = 1 → bit x.cores core = true)
include hpos htop habove hhome hcore

theorem execObjPlacePlace_busy (hisp : ispNames s rq.ctx h = true) :
    execObjPlacePlace rq h tier core s = .next (replyC s rq 0x0114 .busy .objBusy []) := by
  rw [execObjPlacePlace, onObj_some hctx hobj, if_neg (tier_placeable hpos htop habove hhome hcore), if_pos hisp]

theorem execObjPlacePlace_new (hisp : ispNames s rq.ctx h = false) (hupper : o.upper = none) :
    execObjPlacePlace rq h tier core s =
      .next (onFirmware s (placeReply s rq h tier core o) rq.ctx (.objPlacePlace rq h tier core)) := by
  rw [execObjPlacePlace, onObj_some hctx hobj, if_neg (tier_placeable hpos htop habove hhome hcore),
    if_neg (by simp [hisp]), hupper]

theorem execObjPlacePlace_there (hisp : ispNames s rq.ctx h = false) {w : Upper} (hupper : o.upper = some w)
    (htier : w.tier = tier) (hon : tier = 1 → w.core = core) :
    execObjPlacePlace rq h tier core s = .next (replyC s rq 0x0114 .ok .none (upperLoc o)) := by
  have hthere : w.tier = tier ∧ (tier ≠ 1 ∨ w.core = core) := ⟨htier, Decidable.not_or_of_imp hon⟩
  simp only [execObjPlacePlace, onObj_some hctx hobj, if_neg (tier_placeable hpos htop habove hhome hcore), hisp,
    hupper, if_pos hthere, Bool.false_eq_true, if_false]

end

theorem execObjPlaceRemove_held (hheld : tagsHeld s rq.ctx h = true ∨ chunkHeld s rq.ctx x h = true) :
    execObjPlaceRemove rq h s = .next (replyC s rq 0x0114 .busy .objBusy []) := by
  rw [execObjPlaceRemove, onObj_some hctx hobj, if_pos (by simpa using hheld)]

section
variable (htags : tagsHeld s rq.ctx h = false) (hchunk : chunkHeld s rq.ctx x h = false) {u : State}
include htags hchunk

theorem execObjPlaceRemove_released (hrelease : releaseUpper s rq.ctx h o = (u, none))
    (hready : Ready s (replyC u rq 0x0114 .ok .none [0xFF, 0xFF, 0xFF, 0xFF]) rq.ctx) :
    execObjPlaceRemove rq h s = .next (replyC u rq 0x0114 .ok .none [0xFF, 0xFF, 0xFF, 0xFF]) := by
  rw [execObjPlaceRemove, onObj_some hctx hobj, if_neg (by simp [htags, hchunk]), hrelease]
  exact congrArg _ (onFirmware_ready hready _)

theorem execObjPlaceRemove_failed {r : Reason} (hrelease : releaseUpper s rq.ctx h o = (u, some r))
    (hready : Ready s (replyC u rq 0x0114 .fault r []) rq.ctx) :
    execObjPlaceRemove rq h s = .next (replyC u rq 0x0114 .fault r []) := by
  rw [execObjPlaceRemove, onObj_some hctx hobj, if_neg (by simp [htags, hchunk]), hrelease]
  exact congrArg _ (onFirmware_ready hready _)

end

end

theorem placeReply_ok {s u : State} {rq : Req} {h tier core : Nat} {o : Obj} {w : Upper}
    (hplace : placeObj s rq.ctx h tier core o = (u, .ok w)) :
    placeReply s rq h tier core o = replyC u rq 0x0114 .ok .none (upperLoc { o with upper := some w }) := by
  rw [placeReply, hplace]

theorem placeReply_error {s u : State} {rq : Req} {h tier core : Nat} {o : Obj} {st : Status} {r : Reason}
    (hplace : placeObj s rq.ctx h tier core o = (u, .error (st, r))) :
    placeReply s rq h tier core o = replyC u rq 0x0114 st r [] := by
  rw [placeReply, hplace]

/-- Settles O18: each answer of OBJ_PLACE by its lemma above; a command that waits by `onFirmware_waits`. -/
theorem objectPlacement : Obligations.ObjectPlacement := by
  refine ⟨fun rq h x o s hl hctx hobj => ⟨?_, ?_, fun tier core htier => ?_, fun tier core hpos htop habove hhome hcore =>
    ⟨fun hisp => ?_, fun hisp hupper => ⟨?_, ?_⟩, fun hisp w hupper htier hon => ?_⟩, fun hheld => ?_,
    fun htags hchunk => ⟨?_, ?_⟩⟩, fun s t c cmd => ⟨fun hwork hfills => onFirmware_ready ⟨hwork, hfills⟩ cmd, ?_⟩, ?_⟩
  · exact answered_replyC (congrArg Host.Outcome.next (setPinned_some hctx hobj true)) hl
  · exact answered_replyC (congrArg Host.Outcome.next (setPinned_some hctx hobj false)) hl
  · exact answered_replyC (execObjPlacePlace_tier hctx hobj htier) hl
  · exact answered_replyC (execObjPlacePlace_busy hctx hobj hpos htop habove hhome hcore hisp) hl
  · rintro u w t hplace rfl hready
    refine ⟨?_, placeObj_ok hplace⟩
    rw [exec_objPlacePlace, execObjPlacePlace_new hctx hobj hpos htop habove hhome hcore hisp hupper, placeReply_ok hplace,
      onFirmware_ready hready]
  · rintro u st r t hplace rfl hready
    rw [exec_objPlacePlace, execObjPlacePlace_new hctx hobj hpos htop habove hhome hcore hisp hupper, placeReply_error hplace,
      onFirmware_ready hready]
  · exact answered_replyC (execObjPlacePlace_there hctx hobj hpos htop habove hhome hcore hisp hupper htier hon) hl
  · exact answered_replyC (execObjPlaceRemove_held hctx hobj hheld) hl
  · rintro u t hrelease rfl hready
    obtain ⟨y, hy, hobjs⟩ := releaseUpper_obj (liveCtx_some hctx).1 hrelease
    exact ⟨y, execObjPlaceRemove_released hctx hobj htags hchunk hrelease hready, hy, hobjs,
      fun hclean => releaseUpper_clean hclean hrelease⟩
  · rintro u r t hrelease rfl hready
    exact execObjPlaceRemove_failed hctx hobj htags hchunk hrelease hready
  · rintro hwork u rfl
    exact ⟨onFirmware_waits (g := State.fwWaits) (fun _ _ _ _ _ => rfl) hwork cmd,
      onFirmware_waits (g := State.ctxs) (fun _ _ _ _ _ => rfl) hwork cmd,
      onFirmware_waits (g := State.decks) (fun _ _ _ _ _ => rfl) hwork cmd,
      onFirmware_waits (g := State.span) (fun _ _ _ _ _ => rfl) hwork cmd,
      onFirmware_waits (g := State.t3) (fun _ _ _ _ _ => rfl) hwork cmd,
      onFirmware_waits (g := State.t4) (fun _ _ _ _ _ => rfl) hwork cmd,
      onFirmware_waits (g := State.wins) (fun _ _ _ _ _ => rfl) hwork cmd,
      onFirmware_waits (g := State.pending) (fun _ _ _ _ _ => rfl) hwork cmd⟩
  · rintro s u w rfl
    exact ⟨mem_fwWaits_releaseWork s w, mem_dispatched_releaseWork s, rfl⟩

end Sys2Proof.Machine

/-!
PROOFS. OBJ_ALLOC, OBJ_FREE and the zero-fill of freed granules (R187, R188, R231 to R234).
-/

namespace Sys2Proof.Machine

/-! ## The bytes of a tier -/

@[simp] theorem extOf_setExt (s : State) (tier : Nat) (e : Ext) : extOf (setExt s tier e) tier = e := by
  unfold setExt extOf
  split <;> rfl

theorem setExt_frame (s : State) (tier : Nat) (e : Ext) :
    setExt s tier e = { s with t3 := (setExt s tier e).t3, t4 := (setExt s tier e).t4, ddr := (setExt s tier e).ddr } := by
  unfold setExt
  split <;> rfl

theorem extFill_frame (s : State) (tier key : Nat) (sealed : Bool) (first count : Nat) :
    extFill s tier key sealed first count =
      { s with
        t3 := (extFill s tier key sealed first count).t3, t4 := (extFill s tier key sealed first count).t4,
        ddr := (extFill s tier key sealed first count).ddr } := by
  unfold extFill
  split
  · rfl
  · exact setExt_frame ..

/-- The allocation fill leaves zeros in its granules, where the tier answers (R188). -/
theorem memGet_extFill {s : State} {tier : Nat} (hfault : tierFault s tier = none) (key : Nat) (sealed : Bool)
    (first count b : Nat) : memGet (extOf (extFill s tier key sealed first count) tier).mem b =
      if first * 4096 ≤ b ∧ b < (first + count) * 4096 then 0 else memGet (extOf s tier).mem b := by
  simp [extFill, hfault, memGet_memClear]

theorem memGet_extUntag (s : State) (tier first count b : Nat) :
    memGet (extOf (extUntag s tier first count) tier).mem b = memGet (extOf s tier).mem b := by
  simp [extUntag]

/-- The zero-fill leaves zeros in its granules (R232). -/
theorem memGet_extErase (s : State) (tier first count : Nat) (sealed : Bool) (b : Nat) :
    memGet (extOf (extErase s tier first count sealed) tier).mem b =
      if first * 4096 ≤ b ∧ b < (first + count) * 4096 then 0 else memGet (extOf s tier).mem b := by
  rw [extErase, extOf_setExt, memGet_memClear]
  split
  · rfl
  · split <;> simp only [bumpAll_mem]

/-! ## OBJ_ALLOC -/

/-- The object as it stands once its home in T3 or T4 is placed. -/
def homedObj (o : Obj) (a : Nat) : Obj :=
  { o with home := a, regions := if o.sealed then regionsOf a (o.storedM1 + 1) else [] }

/-- The state in which an object with a home in T3 or T4 has its handle and its regions, its granules not yet filled. -/
def homedState (s : State) (c h : Nat) (o : Obj) (a : Nat) : State :=
  modCtx { s with sealedRegions := (homedObj o a).regions.foldl (fun t r => tset t r c) s.sealedRegions } c
    (fun y => { y with objs := tset y.objs h (homedObj o a) })

/-- The state after OBJ_ALLOC: the granules filled and counted, or with NO_FILL left without a valid tag (R188, R189). -/
def allocated (s : State) (c h key : Nat) (o : Obj) (a : Nat) : State :=
  if o.nofill then extUntag (homedState s c h o a) o.homeTier a (o.storedM1 + 1)
  else countBytes (extFill (homedState s c h o a) o.homeTier key o.sealed a (o.storedM1 + 1)) c o.homeTier o.homeTier
    ((o.storedM1 + 1) * 4096)

section
variable {s : State} {c h : Nat} {x : Ctx} {o : Obj} (hctx : tget? s.ctxs c = some x)
include hctx

theorem allocObj_home {loc a : Nat} (hfree : freeHandle x = some h) (htier : 3 ≤ o.homeTier)
    (hsealed : o.sealed = true → sealedFull s c (o.storedM1 + 1) = false)
    (hfits : fits x o.homeTier 0 (o.storedM1 + 1) = true) (hhome : placeHome s c o.homeTier (o.storedM1 + 1) o.sealed = some a) :
    allocObj s c o loc = (allocated s c h x.key o a, .ok h) := by
  have hroom : (o.sealed && sealedFull s c (o.storedM1 + 1)) = false := by
    rw [Bool.and_eq_false_imp]
    exact hsealed
  simp only [allocObj, hctx, hfree, if_neg (show ¬ o.homeTier ≤ 2 by omega), hroom, Bool.false_eq_true, if_false,
    makeRoom_fits hctx hfits, hhome]
  rfl

theorem allocObj_share {loc first len : Nat} (hfree : freeHandle x = some h) (htier : o.homeTier ≤ 2)
    (hshare : homeShare x o loc = some (first, len)) :
    allocObj s c o loc =
      (modCtx s c (fun y => { y with
        objs := tset y.objs h { o with home := first + bits loc 23 0, homeCore := bits loc 31 29 } }), .ok h) := by
  simp only [allocObj, hctx, hfree, if_pos htier, hshare]

/-- The objects of the context after OBJ_ALLOC: the new one, and the others as they were. -/
theorem allocated_objs (key a : Nat) :
    ∃ y, tget? (allocated s c h key o a).ctxs c = some y ∧ y.objs = tset x.objs h (homedObj o a) := by
  have hhomed : tget? (homedState s c h o a).ctxs c = some { x with objs := tset x.objs h (homedObj o a) } := by
    rw [homedState, tget?_modCtx, hctx, Option.map_some]
  unfold allocated
  split
  · exact ⟨_, by rw [extUntag, setExt_ctxs, hhomed], rfl⟩
  · simp [countBytes, countAct, meter, draw, tget?_modCtx, hhomed]

end

theorem allocated_frame (s : State) (c h key : Nat) (o : Obj) (a : Nat) : ∀ u, u = allocated s c h key o a →
    u = { s with
      ctxs := u.ctxs, draws := u.draws, t3 := u.t3, t4 := u.t4, ddr := u.ddr, sealedRegions := u.sealedRegions } := by
  rintro u rfl
  unfold allocated
  split
  · rw [extUntag, setExt_frame]
    rfl
  · rw [extFill_frame]
    rfl

/-- After OBJ_ALLOC the granules read as zeros unless NO_FILL is set, and every other byte keeps its value (R188, R189). -/
theorem memGet_allocated {s : State} {o : Obj} (hfault : tierFault s o.homeTier = none) (c h key a b : Nat) :
    memGet (extOf (allocated s c h key o a) o.homeTier).mem b =
      if o.nofill = false ∧ a * 4096 ≤ b ∧ b < (a + (o.storedM1 + 1)) * 4096 then 0
      else memGet (extOf s o.homeTier).mem b := by
  have hhomed : extOf (homedState s c h o a) o.homeTier = extOf s o.homeTier := rfl
  cases hfill : o.nofill with
  | true => simp only [allocated, hfill, if_true, memGet_extUntag, hhomed, Bool.true_eq_false, false_and, if_false]
  | false =>
    have hcount : ∀ v : State, extOf (countBytes v c o.homeTier o.homeTier ((o.storedM1 + 1) * 4096)) o.homeTier =
      extOf v o.homeTier := fun _ => rfl
    have hanswers : tierFault (homedState s c h o a) o.homeTier = none := hfault
    simp only [allocated, hfill, Bool.false_eq_true, if_false, hcount, memGet_extFill hanswers, hhomed, true_and]

section
variable {rq : Req} {x : Ctx} {s u : State} {flags tiles stored loc : Nat} (hctx : liveCtx s rq.ctx = some x)
include hctx

theorem execObjAlloc_refused {st : Status} {r : Reason} (hcheck : allocCheck s x (objOfFlags flags tiles stored) loc = some (st, r)) :
    execObjAlloc rq flags tiles stored loc s = .next (replyC s rq 0x0110 st r []) := by
  simp only [execObjAlloc, onCtx_some hctx, hcheck]

/-- An OBJ_ALLOC that places its object answers with the handle. -/
theorem execObjAlloc_placed {h : Nat} (hcheck : allocCheck s x (objOfFlags flags tiles stored) loc = none)
    (halloc : allocObj s rq.ctx (objOfFlags flags tiles stored) loc = (u, .ok h))
    (hready : Ready s (replyC u rq 0x0110 .ok .none (leBytes 2 h ++ [0, 0])) rq.ctx) :
    execObjAlloc rq flags tiles stored loc s = .next (replyC u rq 0x0110 .ok .none (leBytes 2 h ++ [0, 0])) := by
  simp only [execObjAlloc, onCtx_some hctx, hcheck, halloc]
  exact congrArg _ (onFirmware_ready hready _)

end

/-! ## OBJ_FREE -/

theorem freeObj_objs (x : Ctx) (h : Nat) (o : Obj) : (freeObj x h o).objs = terase x.objs h := by
  unfold freeObj
  dsimp only
  split <;> rfl

/-- The zero-fill that freeing an object with a home in T3 or T4 leaves pending (R232). -/
def fillOf (o : Obj) : ZeroFill :=
  { tier := o.homeTier, first := o.home, count := o.storedM1 + 1, sealed := o.sealed, regions := o.regions }

theorem freeObj_fills_home {o : Obj} (htier : o.homeTier = 3 ∨ o.homeTier = 4) (x : Ctx) (h : Nat) :
    (freeObj x h o).fills = tset x.fills h (fillOf o) := by
  rw [freeObj, if_pos htier]
  rfl

theorem freeObj_fills_share {o : Obj} (htier : ¬ (o.homeTier = 3 ∨ o.homeTier = 4)) (x : Ctx) (h : Nat) :
    (freeObj x h o).fills = x.fills := by
  rw [freeObj, if_neg htier]

theorem tget?_freeObj_fills_ne (x : Ctx) (o : Obj) {h k : Nat} (hne : k ≠ h) :
    tget? (freeObj x h o).fills k = tget? x.fills k := by
  by_cases htier : o.homeTier = 3 ∨ o.homeTier = 4
  · rw [freeObj_fills_home htier, tget?_tset_ne _ _ _ _ hne]
  · rw [freeObj_fills_share htier]

theorem freeObj_frame (x : Ctx) (h : Nat) (o : Obj) :
    freeObj x h o = { x with objs := (freeObj x h o).objs, fills := (freeObj x h o).fills } := by
  unfold freeObj
  dsimp only
  split <;> rfl

/-- No entry of a page table names a page that is dropped (R284). -/
theorem dropPtes_page (x : Ctx) (h : Nat) : ∀ q ∈ (dropPtes x h).seqs, ∀ p ∈ q.2.ptes, p.2.page ≠ some h := by
  intro q hq p hp
  obtain ⟨q', -, rfl⟩ := List.mem_map.mp hq
  obtain ⟨p', -, rfl⟩ := List.mem_map.mp hp
  split
  · exact fun hsome => nomatch hsome
  · next hne => exact hne

section
variable {rq : Req} {h : Nat} {x : Ctx} {o : Obj} {s : State}
  (hctx : liveCtx s rq.ctx = some x) (hobj : tget? x.objs h = some o)
include hctx hobj

theorem execObjFree_held (hheld : tagsHeld s rq.ctx h = true ∨ ispNames s rq.ctx h = true) :
    execObjFree rq h s = .next (replyC s rq 0x0111 .busy .objBusy []) := by
  rw [execObjFree, onObj_some hctx hobj, if_pos (by simpa using hheld)]

section
variable (htags : tagsHeld s rq.ctx h = false) (hisp : ispNames s rq.ctx h = false)
include htags hisp

theorem execObjFree_image (himage : imageNames x h = true) :
    execObjFree rq h s = .next (replyC s rq 0x0111 .refused .objImage []) := by
  rw [execObjFree, onObj_some hctx hobj, if_neg (by simp [htags, hisp]), if_pos himage]

theorem execObjFree_stream (himage : imageNames x h = false) (hstream : streamOf x h ≠ none) :
    execObjFree rq h s = .next (replyC s rq 0x0111 .refused .streamObject []) := by
  rw [execObjFree, onObj_some hctx hobj, if_neg (by simp [htags, hisp]), if_neg (by simp [himage]),
    if_pos (Option.isSome_iff_ne_none.mpr hstream)]

theorem execObjFree_freed (himage : imageNames x h = false) (hstream : streamOf x h = none) {t : State}
    (ht : t = replyC (setCtx s rq.ctx (dropPtes (freeObj x h o) h)) rq 0x0111 .ok .none [])
    (hwork : workReady s t rq.ctx = true) :
    execObjFree rq h s = .next (firmwareVote s t (newFillCores s t rq.ctx)) := by
  rw [execObjFree, onObj_some hctx hobj, if_neg (by simp [htags, hisp]), if_neg (by simp [himage]), if_neg (by simp [hstream]),
    ← ht, onFirmware, if_pos hwork]

end

end

/-! ## ZERO_FILL_COMPLETE -/

section
variable {s : State} {c h : Nat} {x : Ctx} (hctx : tget? s.ctxs c = some x)
include hctx

theorem execZeroFillComplete_waits
    (hwait : fillHeld s c h = true ∨ ∃ n ∈ fillCores s c x, bit s.pwr.up n = false) : execZeroFillComplete c h s = .next s := by
  rw [execZeroFillComplete, if_pos]
  rw [hctx]
  simpa using hwait

theorem execZeroFillComplete_done (hheld : fillHeld s c h = false) (hup : ∀ n ∈ fillCores s c x, bit s.pwr.up n = true) :
    execZeroFillComplete c h s = .next (finishFill s c h) := by
  rw [execZeroFillComplete, if_neg]
  rw [hctx]
  simpa [hheld] using hup

variable {z : ZeroFill} (hfill : tget? x.fills h = some z)
include hfill

/-- A completed zero-fill frees its handle and leaves zeros in its granules (R233, R234). -/
theorem finishFill_done : ∃ y, tget? (finishFill s c h).ctxs c = some y ∧ tget? y.fills h = none ∧ y.objs = x.objs := by
  simp [finishFill, hctx, hfill, tget?_modCtx, countBytes, countAct, meter, draw, tget?_terase_self]

theorem finishFill_others {d : Nat} (hne : d ≠ c) : tget? (finishFill s c h).ctxs d = tget? s.ctxs d := by
  simp only [finishFill, hctx, hfill, tget?_modCtx_ne _ _ _ _ hne, countBytes, countAct, meter, draw, extErase_ctxs]

theorem memGet_finishFill (b : Nat) : memGet (extOf (finishFill s c h) z.tier).mem b =
    if z.first * 4096 ≤ b ∧ b < (z.first + z.count) * 4096 then 0 else memGet (extOf s z.tier).mem b := by
  rw [← memGet_extErase s z.tier z.first z.count z.sealed]
  simp only [finishFill, hctx, hfill]
  rfl

theorem finishFill_frame : ∀ t, t = finishFill s c h → t = { s with
    ctxs := t.ctxs, draws := t.draws, t3 := t.t3, t4 := t.t4, ddr := t.ddr, sealedRegions := t.sealedRegions } := by
  rintro t rfl
  simp only [finishFill, hctx, hfill]
  rw [extErase, setExt_frame]
  rfl

end

/-- Settles O16: each outcome of the three commands by its lemma above. -/
theorem objectsAreAllocatedAndFreed : Obligations.ObjectsAreAllocatedAndFreed := by
  refine ⟨?_, ?_, ?_⟩
  · rintro rq flags tiles stored loc x o s hl hctx rfl
    have hself := (liveCtx_some hctx).1
    refine ⟨fun st r hcheck => answered_replyC (execObjAlloc_refused hctx hcheck) hl, ?_, ?_⟩
    · intro h a u t hcheck hfree htier hsealed hfits hhome hu ht hready
      have halloc := allocObj_home (loc := loc) hself hfree htier hsealed hfits hhome
      rw [halloc] at hu
      have hframe := allocated_frame s rq.ctx h x.key (objOfFlags flags tiles stored) a u hu
      have hlive : Live rq u := by rw [hframe]; exact hl
      obtain ⟨y, hy, hobjs⟩ := allocated_objs (h := h) (o := objOfFlags flags tiles stored) hself x.key a
      subst hu ht
      refine ⟨y, homedObj _ a, execObjAlloc_placed hctx hcheck halloc hready, replyC_replied _ _ _ _ _ _ hlive, hy,
        by rw [hobjs, tget?_tset_self], rfl, fun k hk => by rw [hobjs, tget?_tset_ne _ _ _ _ hk],
        fun hfault b => memGet_allocated hfault .., hframe⟩
    · intro h first len u t hcheck hfree htier hshare hu ht hready
      have halloc := allocObj_share hself hfree htier hshare
      rw [halloc] at hu
      subst hu ht
      refine ⟨_, execObjAlloc_placed hctx hcheck halloc hready, replyC_replied _ _ _ _ _ _ hl,
        by rw [tget?_modCtx, hself, Option.map_some], tget?_tset_self .., fun k hk => tget?_tset_ne _ _ _ _ hk, rfl⟩
  · intro rq h x o s hl hctx hobj
    refine ⟨fun hheld => answered_replyC (execObjFree_held hctx hobj hheld) hl, fun htags hisp =>
      ⟨fun himage => answered_replyC (execObjFree_image hctx hobj htags hisp himage) hl, fun himage hstream =>
        answered_replyC (execObjFree_stream hctx hobj htags hisp himage hstream) hl, fun himage hstream => ?_⟩⟩
    rintro y t rfl ht hwork
    refine ⟨execObjFree_freed hctx hobj htags hisp himage hstream ht hwork, ?_, ?_, ?_, fun k hk => ⟨?_, ?_⟩,
      fun h3 h4 => ⟨fillOf o, ?_, rfl, rfl, rfl, rfl, rfl⟩, fun h2 => ?_, tget?_terase_self _ _, dropPtes_page _ _, ?_⟩
    · rw [ht]; exact replyC_replied _ _ _ _ _ _ hl
    · rw [ht]; exact replyAs_only ..
    · rw [dropPtes, freeObj_objs, tget?_terase_self]
    · rw [dropPtes, freeObj_objs, tget?_terase_ne _ _ _ hk]
    · exact tget?_freeObj_fills_ne x o hk
    · rw [dropPtes, freeObj_fills_home (by omega), tget?_tset_self]
    · exact freeObj_fills_share (by omega) x h
    · rw [freeObj_frame]
      rfl
  · intro c h x z s hctx hfill
    refine ⟨execZeroFillComplete_waits hctx, fun hheld hup => ?_⟩
    obtain ⟨y, hy, hnone, hobjs⟩ := finishFill_done hctx hfill
    exact ⟨_, y, execZeroFillComplete_done hctx hheld hup, hy, hnone, hobjs, fun d hd => finishFill_others hctx hfill hd,
      memGet_finishFill hctx hfill, finishFill_frame hctx hfill _ rfl⟩

end Sys2Proof.Machine

/-!
PROOFS. Quotas and account records (R191, R193, R395, R396, R808).
-/

namespace Sys2Proof.Machine

/-! ## CTX_QUOTA_SET -/

section
variable {rq : Req} {quotas : Quotas} {x : Ctx} {s : State} (hctx : liveCtx s rq.ctx = some x)
include hctx

theorem execCtxQuotaSet_set (hcheck : quotaCheck s rq.ctx x (quotasFor x quotas) = none) :
    execCtxQuotaSet rq quotas s = .next (replyC (setCtx s rq.ctx { x with quotas := quotasFor x quotas }) rq 0x0102 .ok .none
      (quotaBody (quotasFor x quotas))) := by
  simp only [execCtxQuotaSet, onCtx_some hctx, hcheck]

theorem execCtxQuotaSet_refused {r : Reason} (hcheck : quotaCheck s rq.ctx x (quotasFor x quotas) = some r) :
    execCtxQuotaSet rq quotas s = .next (replyC s rq 0x0102 .refused r []) := by
  simp only [execCtxQuotaSet, onCtx_some hctx, hcheck]

end

/-! ## ACCOUNT_READ -/

/-- From `x` to `y` the control, vector and energy counters have advanced, and nothing else has changed but the meter. -/
def Counted (x y : Ctx) : Prop :=
  x.acct.control ≤ y.acct.control ∧ x.acct.vector ≤ y.acct.vector ∧ x.acct.energy ≤ y.acct.energy ∧
    y = { x with
      meter := y.meter
      acct := { x.acct with control := y.acct.control, vector := y.acct.vector, energy := y.acct.energy } }

/-- What a job on its cores runs up in the counters of its context. -/
def runCounts (amt : Nat → Nat) (a : Acct) : Acct := { a with control := a.control + amt 2, vector := a.vector + amt 3 }

section
variable {s : State} {c : Nat} {x : Ctx} (hctx : tget? s.ctxs c = some x)
include hctx

theorem meterRunning_idle (hoff : x.job.all (fun j => !j.onCores) = true) : meterRunning s c = s := by
  simp only [meterRunning, hctx, Option.bind_some]
  split
  · next j hj =>
    rw [hj, Option.all_some, Bool.not_eq_true'] at hoff
    rw [hoff]
    rfl
  · rfl

theorem meterRunning_runs (hon : x.job.all (fun j => !j.onCores) = false) : meterRunning s c = meter s c runCounts := by
  simp only [meterRunning, hctx, Option.bind_some]
  split
  · next j hj =>
    rw [hj, Option.all_some, Bool.not_eq_false'] at hon
    rw [hon]
    rfl
  · next hj =>
    rw [hj] at hon
    cases hon

/-- What a running job has run up counts in its context's record (R395, R398, R399). -/
theorem meterRunning_counts : ∃ y, tget? (meterRunning s c).ctxs c = some y ∧ Counted x y := by
  cases hall : x.job.all (fun j => !j.onCores) with
  | true => exact ⟨x, (meterRunning_idle hctx hall).symm ▸ hctx, le_rfl, le_rfl, le_rfl, rfl⟩
  | false =>
    obtain ⟨a, hget, rfl⟩ := tget?_meter_self runCounts hctx
    exact ⟨_, (meterRunning_runs hctx hall).symm ▸ hget, Nat.le_add_right _ _, Nat.le_add_right _ _, Nat.le_add_right _ _, rfl⟩

end

theorem meterRunning_frame (s : State) (c : Nat) : ∀ u, u = meterRunning s c → u = { s with ctxs := u.ctxs, draws := u.draws } := by
  rintro u rfl
  unfold meterRunning
  split
  · split <;> rfl
  · rfl

theorem meterRunning_others (s : State) (c : Nat) {d : Nat} (hne : d ≠ c) :
    tget? (meterRunning s c).ctxs d = tget? s.ctxs d := by
  unfold meterRunning
  split
  · split
    · exact tget?_meter_ne s c d _ hne
    · rfl
  · rfl

theorem execAccountRead_eq {rq : Req} {x y : Ctx} {s : State} (hctx : liveCtx s rq.ctx = some x)
    (hy : tget? (meterRunning s rq.ctx).ctxs rq.ctx = some y) :
    execAccountRead rq s = .next (replyC (meterRunning s rq.ctx) rq 0x01A1 .ok .none (acctRecord rq.ctx y)) := by
  have hget : tget (meterRunning s rq.ctx).ctxs x rq.ctx = y := congrArg (Option.getD · x) hy
  rw [execAccountRead, onCtx_some hctx]
  dsimp only
  rw [hget]

/-! ## The record's layout (R396) -/

theorem zeros_length (n : Nat) : (zeros n).length = n := List.length_replicate

/-- A field that the bytes before it do not reach into is the number written there. -/
theorem field_append {before : Bytes} {off : Nat} (hlength : before.length = off) (after : Bytes) (w n : Nat) :
    field (before ++ (leBytes w n ++ after)) off w = n % 2 ^ (8 * w) := by
  have htake : (leBytes w n ++ after).take w = leBytes w n := List.take_left' (leBytes_length w n)
  rw [← hlength, field, List.drop_left, htake, Ibc.leNat_leBytes]

/-- The head of an account record: the version and identity word, and its reserved word. -/
def acctHead (c : Nat) (x : Ctx) : Bytes := leBytes 4 (2 ^ 24 + ofBool x.sealed * 2 ^ 15 + c) ++ zeros 4

/-- What follows the counters of an account record: the bytes moved between tiers, and by the host and the set. -/
def acctTail (x : Ctx) : Bytes :=
  zeros 8 ++ ((List.range 16).flatMap (fun k => leBytes 8 (tget x.acct.bytes 0 k))) ++
    ([x.acct.hostIn, x.acct.hostOut, x.acct.remoteIn, x.acct.remoteOut].flatMap (leBytes 8)) ++ zeros 32

theorem acctRecord_eq (c : Nat) (x : Ctx) : acctRecord c x = acctHead c x ++
    [x.acct.mxe, x.acct.ramp, x.acct.vector, x.acct.control, x.acct.energy, x.acct.runs, x.acct.preemptions, x.acct.stalls,
      x.acct.kvDrops, x.acct.evictions].flatMap (leBytes 8) ++ acctTail x := by
  simp only [acctRecord, acctHead, acctTail, List.append_assoc]

theorem acctHead_length (c : Nat) (x : Ctx) : (acctHead c x).length = 8 := by
  rw [acctHead, List.length_append, leBytes_length, zeros_length]

theorem flatMap_leBytes_length (w : Nat) (l : List Nat) : (l.flatMap (leBytes w)).length = w * l.length := by
  simp [List.length_flatMap, leBytes_length, Nat.mul_comm]

theorem acctRecord_length (c : Nat) (x : Ctx) : (acctRecord c x).length = 288 := by
  simp [acctRecord_eq, acctHead_length, acctTail, zeros_length, List.length_flatMap, leBytes_length]

theorem acctRecord_mxe (c : Nat) (x : Ctx) : field (acctRecord c x) 8 8 = x.acct.mxe % 2 ^ 64 := by
  rw [acctRecord_eq, List.flatMap_cons, List.append_assoc, List.append_assoc]
  exact field_append (acctHead_length c x) _ 8 x.acct.mxe

theorem acctRecord_runs (c : Nat) (x : Ctx) : field (acctRecord c x) 48 8 = x.acct.runs % 2 ^ 64 := by
  have hsplit : acctRecord c x =
      (acctHead c x ++ [x.acct.mxe, x.acct.ramp, x.acct.vector, x.acct.control, x.acct.energy].flatMap (leBytes 8)) ++
        (leBytes 8 x.acct.runs ++ ([x.acct.preemptions, x.acct.stalls, x.acct.kvDrops, x.acct.evictions].flatMap (leBytes 8) ++
          acctTail x)) := by
    simp only [acctRecord_eq, List.flatMap_cons, List.flatMap_nil, List.append_assoc, List.nil_append]
  have hlength : (acctHead c x ++
      [x.acct.mxe, x.acct.ramp, x.acct.vector, x.acct.control, x.acct.energy].flatMap (leBytes 8)).length = 48 := by
    rw [List.length_append, acctHead_length, flatMap_leBytes_length]
    rfl
  exact hsplit ▸ field_append hlength _ 8 x.acct.runs

end Sys2Proof.Machine

/-!
PROOFS. PREEMPT in mode PARK (R391, R392), and the bring-in of a PARKED context (R393, R394).
-/

namespace Sys2Proof.Machine

/-! ## The reply of a command and its firmware work -/

theorem workReady_replyC (s u : State) (rq : Req) (op : Nat) (st : Status) (r : Reason) (b : Bytes) (c : Nat) :
    workReady s (replyC u rq op st r b) c = workReady s u c := by
  simp only [workReady, workCores, workBanks, movedUppers, replyC_ctxs]

theorem fillHeld_replyC (u : State) (rq : Req) (op : Nat) (st : Status) (r : Reason) (b : Bytes) (c h : Nat) :
    fillHeld (replyC u rq op st r b) c h = fillHeld u c h := by
  simp only [fillHeld, replyC_ctxs, replyC_ddr, replyC_pwr, replyC_pcie]

theorem fillCores_replyC (u : State) (rq : Req) (op : Nat) (st : Status) (r : Reason) (b : Bytes) (c : Nat) (x : Ctx) :
    fillCores (replyC u rq op st r b) c x = fillCores u c x := by
  simp only [fillCores, fillHeld_replyC, servingCore, replyC_ctxs, replyC_fenced]

theorem newFillCores_replyC (s u : State) (rq : Req) (op : Nat) (st : Status) (r : Reason) (b : Bytes) (c : Nat) :
    newFillCores s (replyC u rq op st r b) c = newFillCores s u c := by
  simp only [newFillCores, replyC_ctxs, fillCores_replyC]

/-- A reply leaves the judgement of a command's firmware work as it is. -/
theorem ready_replyC {s u : State} {c : Nat} (h : Ready s u c) (rq : Req) (op : Nat) (st : Status) (r : Reason) (b : Bytes) :
    Ready s (replyC u rq op st r b) c := by
  obtain ⟨hwork, hfills⟩ := h
  exact ⟨(workReady_replyC ..).trans hwork, (newFillCores_replyC ..).trans hfills⟩

/-! ## Closing windows leaves a RESIDENT context standing -/

section
variable {s : State} {c : Nat} {p : Option Req} {k : Parked} (hs : standing s c = some (.resident, p, k))
include hs

theorem standing_modStage (d core slot : Nat) (f : StageRun → StageRun) :
    standing (modStage s d core slot f) c = some (.resident, p, k) := (standing_modCtx s d c).trans hs

theorem standing_resumed (d : Nat) (f : Option Job → Option Job) :
    standing (modCtx s d (fun y => { y with st := .resident, job := f y.job })) c = some (.resident, p, k) := by
  by_cases h : c = d
  · subst h
    obtain ⟨x, hx, hst, hparking, hparked⟩ := exists_of_standing hs
    rw [standing, tget?_modCtx, hx, Option.map_some, Option.map_some, ← hparking, ← hparked]
  · rwa [standing, tget?_modCtx_ne _ _ _ _ h]

/-- A wait that ends may bring a STALLED context back to RESIDENT; a RESIDENT one stands as it did (R389). -/
theorem standing_wake (w : Nat) : standing (wake s w) c = some (.resident, p, k) := by
  cases hwait : (winAt s w).waiting with
  | none => rwa [wake_none hwait]
  | some who =>
    obtain ⟨u, rfl, hwake | hwake⟩ := wake_eq hwait
    · rw [hwake]
      exact standing_modStage (s := setWin s w _) hs ..
    · rw [hwake, standing_of_ctxs (emit_ctxs ..)]
      exact standing_resumed (standing_modStage (s := setWin s w _) hs ..) ..

theorem standing_winAnswer (who : WinBy) (slot op : Nat) (st : Status) (r : Reason) (value : Nat) (body : Bytes) :
    standing (winAnswer s who slot op st r value body) c = some (.resident, p, k) := by
  unfold winAnswer
  split
  · rwa [standing_of_ctxs (replyC_ctxs ..)]
  · split
    · exact hs
    · exact standing_modStage hs ..

theorem standing_closePoint (w : Nat) : standing (closePoint s w) c = some (.resident, p, k) := by
  unfold closePoint
  dsimp only
  split <;> exact hs

end

/-- A fold keeps how a RESIDENT context stands when each of its steps does. -/
theorem standing_foldl {β : Type} {f : State → β → State} {c : Nat} {q : Option (CtxSt × Option Req × Parked)}
    (hf : ∀ a b, standing a c = q → standing (f a b) c = q) (l : List β) :
    ∀ s : State, standing s c = q → standing (l.foldl f s) c = q := by
  induction l with
  | nil => exact fun s hs => hs
  | cons b r ih => exact fun s hs => ih _ (hf s b hs)

section
variable {s : State} {c : Nat} {p : Option Req} {k : Parked} (hs : standing s c = some (.resident, p, k))
include hs

theorem standing_closeDone (w : Nat) : standing (closeDone s w) c = some (.resident, p, k) := by
  unfold closeDone
  dsimp only
  split
  · exact standing_foldl (fun a q ha => standing_winAnswer ha ..) _ _ (standing_wake (s := setWin s w _) hs w)
  · exact hs

theorem standing_closeImage (im : Image) : standing (closeImage s im) c = some (.resident, p, k) :=
  standing_foldl (fun _ w ha => standing_closeDone (standing_closePoint ha w) w) _ _ hs

theorem standing_closeImages (l : List (Nat × Image)) :
    standing (l.foldl (fun a e => closeImage a e.2) s) c = some (.resident, p, k) :=
  standing_foldl (fun _ e ha => standing_closeImage ha e.2) _ _ hs

end

/-! ## PREEMPT in mode PARK -/

/-- What bars a PARK (R391, R392). -/
def parkBarred (x : Ctx) : Prop :=
  x.st ≠ .resident ∨ x.sealed = true ∨ x.job ≠ none ∨ x.runQ ≠ [] ∨ x.parking ≠ none ∨ x.unloading ≠ []

theorem not_parkBarred {x : Ctx} (h : ¬ parkBarred x) : x.st = .resident ∧ x.parking = none := by
  simp only [parkBarred, not_or, not_not] at h
  obtain ⟨hst, -, -, -, hparking, -⟩ := h
  exact ⟨hst, hparking⟩

/-- The state in which a park has begun: its area is charged and every window closes (step 1 of R391). -/
def parkBegun (u : State) (rq : Req) (x : Ctx) : State :=
  x.images.foldl (fun a e => closeImage a e.2) (modCtx u rq.ctx (fun y => { y with
    parking := some rq
    parked := { y.parked with granules := parkGranules x } }))

section
variable {rq : Req} {x : Ctx} {s u : State} (hctx : liveCtx s rq.ctx = some x)
include hctx

theorem execPreemptPark_refused (hbarred : parkBarred x) :
    execPreemptPark rq s = .next (replyC s rq 0x0132 .refused .preemptState []) := by
  refine execPreemptPark_reply rfl ((onCtx_some hctx _ _).trans (if_pos ?_))
  simpa [parkBarred, Option.isSome_iff_ne_none] using hbarred

section
variable (hopen : ¬ parkBarred x)
include hopen

/-- A PARK that nothing bars makes room for its area first, and goes on at once if it can. -/
theorem execPreemptPark_begins {fits : Bool} (hroom : makeRoom s rq.ctx 3 0 (parkGranules x) = (u, fits)) :
    execPreemptPark rq s = .next (finishPark (onFirmware s
      (if fits then parkBegun u rq x else replyC u rq 0x0132 .noQuota .ctxParkQuota []) rq.ctx (.preemptPark rq)) rq.ctx) := by
  obtain ⟨-, hparking⟩ := not_parkBarred hopen
  have hbarred : ¬ (x.st ≠ .resident ∨ x.sealed ∨ x.job.isSome ∨ !x.runQ.isEmpty ∨ x.parking.isSome ∨
      !x.unloading.isEmpty) := by
    simpa [parkBarred, Option.isSome_iff_ne_none] using hopen
  simp only [execPreemptPark, (liveCtx_some hctx).1, Option.bind_some, hparking, Option.isSome_none, Bool.false_eq_true, if_false,
    onCtx_some hctx]
  rw [if_neg (by simpa [hparking] using hbarred), hroom]
  cases fits <;> rfl

/-- While the cores or banks of a PARK are down it waits, its evictions and its charge undone. -/
theorem execPreemptPark_waits (hroom : makeRoom s rq.ctx 3 0 (parkGranules x) = (u, true))
    (hwork : workReady s (parkBegun u rq x) rq.ctx = false) :
    execPreemptPark rq s = .next (onFirmware s (parkBegun u rq x) rq.ctx (.preemptPark rq)) := by
  have hctxs : (onFirmware s (parkBegun u rq x) rq.ctx (.preemptPark rq)).ctxs = s.ctxs :=
    onFirmware_waits (g := State.ctxs) (fun _ _ _ _ _ => rfl) hwork _
  obtain ⟨-, hparking⟩ := not_parkBarred hopen
  rw [execPreemptPark_begins hctx hopen hroom, if_pos rfl, finishPark_idle]
  rw [hctxs, (liveCtx_some hctx).1, Option.bind_some, hparking]

theorem execPreemptPark_goesOn (hroom : makeRoom s rq.ctx 3 0 (parkGranules x) = (u, true))
    (hready : Ready s (parkBegun u rq x) rq.ctx) :
    execPreemptPark rq s = .next (finishPark (parkBegun u rq x) rq.ctx) := by
  rw [execPreemptPark_begins hctx hopen hroom, if_pos rfl, onFirmware_ready hready]

/-- A PARK whose area does not fit is refused, its evictions standing (R200, R391). -/
theorem execPreemptPark_full (hroom : makeRoom s rq.ctx 3 0 (parkGranules x) = (u, false)) (hready : Ready s u rq.ctx) :
    execPreemptPark rq s = .next (replyC u rq 0x0132 .noQuota .ctxParkQuota []) := by
  obtain ⟨-, hparking⟩ := not_parkBarred hopen
  obtain ⟨y, hy, -, hyparking, -⟩ := exists_of_standing_eq (standing_of_makeRoom hroom rq.ctx) (liveCtx_some hctx).1
  rw [execPreemptPark_begins hctx hopen hroom, if_neg Bool.false_ne_true, onFirmware_ready (ready_replyC hready ..),
    finishPark_idle]
  rw [replyC_ctxs, hy, Option.bind_some, hyparking, hparking]

/-- A park that has begun is under way with its area charged, and its context still RESIDENT. -/
theorem parkBegun_standing (hroom : makeRoom s rq.ctx 3 0 (parkGranules x) = (u, true)) :
    ∃ y, tget? (parkBegun u rq x).ctxs rq.ctx = some y ∧ y.st = .resident ∧ y.parking = some rq ∧
      y.parked.granules = parkGranules x := by
  obtain ⟨hst, -⟩ := not_parkBarred hopen
  obtain ⟨z, hz, hzst, -⟩ := exists_of_standing_eq (standing_of_makeRoom hroom rq.ctx) (liveCtx_some hctx).1
  have hbegun : standing (modCtx u rq.ctx (fun y => { y with
      parking := some rq
      parked := { y.parked with granules := parkGranules x } })) rq.ctx =
        some (.resident, some rq, { z.parked with granules := parkGranules x }) := by
    rw [standing, tget?_modCtx, hz, Option.map_some, Option.map_some, hzst, hst]
  obtain ⟨y, hy, hyst, hyparking, hyparked⟩ := exists_of_standing (standing_closeImages hbegun x.images)
  exact ⟨y, hy, hyst, hyparking, by rw [hyparked]⟩

end

end

/-! ## The end of a park -/

section
variable {v : State} {c : Nat} {y : Ctx} {rq : Req} (hctx : tget? v.ctxs c = some y) (hparking : y.parking = some rq)
include hctx hparking

theorem finishPark_waits (hquiet : allQuiet v c y = false) : finishPark v c = v := by
  simp [finishPark, hctx, hparking, hquiet]

theorem finishPark_done (hst : y.st = .resident) (hquiet : allQuiet v c y = true)
    (hwork : workReady v (parkDone v c y rq) c = true) : finishPark v c = parkDone v c y rq := by
  simp [finishPark, hctx, hparking, hst, hquiet, hwork]

end

theorem freeObj_parked (x : Ctx) (h : Nat) (o : Obj) : (freeObj x h o).parked = x.parked := by
  obtain ⟨-, -, hparked⟩ := freeObj_standing x h o
  exact hparked

/-- A fold keeps what a context has parked when each of its steps does. -/
theorem foldl_parked {β : Type} {f : Ctx → β → Ctx} (hf : ∀ y b, (f y b).parked = y.parked) (l : List β) :
    ∀ y : Ctx, (l.foldl f y).parked = y.parked := by
  induction l with
  | nil => exact fun _ => rfl
  | cons b r ih => exact fun y => (ih _).trans (hf y b)

theorem freeShareObjs_parked (x : Ctx) (im : Image) : (freeShareObjs x im).parked = x.parked :=
  foldl_parked (fun y (e : Nat × Obj) => freeObj_parked y e.1 e.2) _ x

/-- A context when it is parked: its shares are released, with the objects homed in them, and its program rows recorded
(steps 3 and 4 of R391). -/
def parkedCtx (x : Ctx) (programs : List (Nat × Nat × Bytes)) (y : Ctx) : Ctx :=
  let z := x.images.foldl (fun w e => freeShareObjs w e.2) y
  { z with
    st := .parked, parking := none,
    images := z.images.map (fun e => (e.1, { e.2 with shares := e.2.shares.map (fun sh => (sh.1, (0, 0))) })),
    parked := { z.parked with programs := programs } }

theorem parkedCtx_granules (x : Ctx) (programs : List (Nat × Nat × Bytes)) (y : Ctx) :
    (parkedCtx x programs y).parked.granules = y.parked.granules := by
  have hgranules :=
    congrArg Parked.granules (foldl_parked (fun w (e : Nat × Image) => freeShareObjs_parked w e.2) x.images y)
  exact hgranules

/-- With no upper copy in T1 or T2 the park ends at once: the context is PARKED and the command answered (R391). -/
theorem parkDone_parked {v : State} {c : Nat} {y : Ctx} (hctx : tget? v.ctxs c = some y) (hupper : upperObjs y = []) (rq : Req) :
    ∃ w z, parkDone v c y rq = replyC w rq 0x0132 .ok .none [] ∧ tget? w.ctxs c = some z ∧ z.st = .parked ∧
      z.parking = none ∧ z.parked.granules = y.parked.granules := by
  let programs := y.images.flatMap (fun e => programBytes v e.1 e.2)
  let counted := countBytes v c 1 3 ((programs.map (fun e => e.2.2.length)).sum)
  obtain ⟨x, hx, -, -, hparked⟩ := exists_of_standing_eq (standing_countBytes v c 1 3 _ c : standing counted c = _) hctx
  have hdone : parkDone v c y rq =
      replyC (rebuildTable (modCtx counted c (parkedCtx y programs))) rq 0x0132 .ok .none [] := by
    simp only [parkDone, hupper, parkUppers]
    rfl
  refine ⟨_, parkedCtx y programs x, hdone, ?_, rfl, rfl, by rw [parkedCtx_granules, hparked]⟩
  exact (tget?_modCtx counted c _).trans (by rw [hx, Option.map_some])

/-! ## Bringing a PARKED context in (R393, R394) -/

/-- A fold that may fail keeps what each of its steps keeps. -/
theorem optionFoldl_standing {β : Type} {f : State → β → Option State} {c : Nat}
    (hf : ∀ a b t, f a b = some t → standing t c = standing a c) (l : List β) :
    ∀ s t : State, l.foldl (fun acc b => acc.bind (f · b)) (some s) = some t → standing t c = standing s c := by
  induction l with
  | nil => intro s t h; cases h; rfl
  | cons b r ih =>
    intro s t h
    rw [List.foldl_cons, Option.bind_some] at h
    cases hb : f s b with
    | none => rw [hb, optionFoldl_none] at h; cases h
    | some u => rw [hb] at h; exact (ih u t h).trans (hf s b u hb)

theorem standing_placeStep {s t : State} {d slot : Nat} {im : Image} {e : Nat × Nat} (h : placeStep d slot im s e = some t)
    (c : Nat) : standing t c = standing s c := by
  unfold placeStep at h
  split at h
  · cases h
  · obtain ⟨row, -, rfl⟩ := Option.map_eq_some_iff.mp h
    exact standing_modCtx s d c

theorem standing_placeImage {s t : State} {d slot : Nat} {im : Image} {need : Tab Nat} (h : placeImage s d slot im need = some t)
    (c : Nat) : standing t c = standing s c := by
  have hfold : placeImage s d slot im need = need.foldl (fun acc e => acc.bind (placeStep d slot im · e)) (some s) := by
    unfold placeImage placeStep
    congr 1
    funext acc e
    cases acc <;> rfl
  rw [hfold] at h
  exact optionFoldl_standing (fun a e b hb => standing_placeStep hb c) need s t h

theorem standing_placeAll {s t : State} {d : Nat} (h : placeAll s d = some t) (c : Nat) : standing t c = standing s c := by
  unfold placeAll at h
  split at h
  · cases h
  · exact optionFoldl_standing (fun a e b hb => standing_placeImage hb c) _ s t h

theorem clearShares_ctxs (s : State) (shares : Tab (Nat × Nat)) : (clearShares s shares).ctxs = s.ctxs := by
  induction shares generalizing s with
  | nil => rfl
  | cons e r ih => exact (ih _).trans (setRam_ctxs ..)

theorem clearImages_ctxs (images : Tab Image) (s : State) :
    (images.foldl (fun b e => clearShares b e.2.shares) s).ctxs = s.ctxs := by
  induction images generalizing s with
  | nil => rfl
  | cons e r ih => exact (ih _).trans (clearShares_ctxs ..)

theorem firmwareWrite_ctxs {s t : State} {addr : Nat} {bs : Bytes} (h : firmwareWrite s addr bs = .ok t) : t.ctxs = s.ctxs := by
  unfold firmwareWrite at h
  obtain ⟨a, -, h⟩ := exceptBind_eq_ok h
  obtain ⟨b, -, h⟩ := exceptBind_eq_ok h
  split at h
  · cases h; rfl
  · split at h
    · cases h; exact setRam_ctxs ..
    · cases h

theorem standing_restorePrograms {c : Nat} {l : List (Nat × Nat × Bytes)} {s t : State} (h : restorePrograms c l s = .ok t)
    (d : Nat) : standing t d = standing s d := by
  fun_induction restorePrograms c l s with
  | case1 => cases h; rfl
  | case2 r rest s sh hsh ih =>
    obtain ⟨v, hv, h⟩ := exceptBind_eq_ok h
    rw [ih v h, standing_countBytes, standing_of_ctxs (firmwareWrite_ctxs hv)]
  | case3 r rest s hsh ih => exact ih h

theorem standing_placeObj (s : State) (d h tier core : Nat) (o : Obj) (c : Nat) :
    standing (placeObj s d h tier core o).1 c = standing s c := by
  unfold placeObj
  dsimp only
  split
  · next hroom => exact standing_of_makeRoom hroom c
  · next s1 hroom =>
    have hs1 := standing_of_makeRoom hroom c
    split
    · exact hs1
    · next x hx =>
      split
      · exact hs1
      · split
        · rwa [standing_of_ctxs ((integrityFail_ctxs ..).trans (noteUe_ctxs ..))]
        · next s3 hcopy =>
          rw [standing_countBytes, standing_modCtx, standing_of_ctxs (copyUp_ctxs _ _ _ _ _ _ _ hcopy)]
          split
          · rwa [standing_of_ctxs (extFill_ctxs ..)]
          · exact hs1

theorem standing_restoreUppers (s : State) (c : Nat) (uppers : List (Nat × Nat × Nat)) (d : Nat) :
    standing (restoreUppers s c uppers) d = standing s d := by
  unfold restoreUppers
  refine standing_foldl (fun a e ha => ?_) uppers s rfl
  split
  · split
    · rwa [standing_placeObj]
    · exact ha
  · exact ha

/-- A context that is brought in is RESIDENT. -/
theorem bringIn_resident {s v : State} {c : Nat} {x z : Ctx} (hctx : tget? s.ctxs c = some z) (h : bringIn s c x = .ok v) :
    ∃ y, tget? v.ctxs c = some y ∧ y.st = .resident := by
  unfold bringIn at h
  obtain ⟨a, ha, rfl⟩ := exceptMap_eq_ok h
  have hrestored := (standing_restoreUppers a c x.parked.uppers c).trans (standing_restorePrograms ha c)
  rw [standing, standing, tget?_modCtx, clearImages_ctxs, hctx] at hrestored
  obtain ⟨y, hy, -⟩ := Option.map_eq_some_iff.mp hrestored
  exact ⟨{ y with st := .resident }, (tget?_modCtx _ c _).trans (by rw [hy, Option.map_some]), rfl⟩

theorem wakeFor_ctxs (s : State) (c : Nat) (x : Ctx) : (wakeFor s c x).ctxs = s.ctxs := by
  unfold wakeFor
  split
  · unfold cancelDescent cancelFrom
    split <;> rfl
  · rfl

section
variable {c : Nat} {x : Ctx} {r : RunReq} {rest : List RunReq} {s : State} (hctx : tget? s.ctxs c = some x)
  (hst : x.st = .parked) (hq : x.runQ = r :: rest) (hslot : slotRuns x r.slot = true) (hentries : entriesWith s c ≤ 64)
include hctx hst hq hslot hentries

theorem execBringIn_noShare (hplace : placeAll s c = none) (hmilestone : r.milestone = none) :
    execBringIn c s = .next (replyC (modCtx s c (fun y => { y with runQ := rest })) r.req 0x0130 .noQuota .ctxBringIn []) := by
  simp [execBringIn, hctx, hst, hq, hslot, hentries, hplace, refuseRun, hmilestone, cascadeEnd]

variable {u v : State} (hplace : placeAll s c = some u) (hbring : bringIn u c x = .ok v)
include hplace hbring

theorem execBringIn_waits (hwork : workReady s v c = false) : execBringIn c s = .next s := by
  simp [execBringIn, hctx, hst, hq, hslot, hentries, hplace, hbring, hwork]

theorem execBringIn_starts (hwork : workReady s v c = true) :
    execBringIn c s = .next (startNext (wakeFor v c (tget v.ctxs {} c)) c) := by
  simp [execBringIn, hctx, hst, hq, hslot, hentries, hplace, hbring, hwork]

end

/-- Settles O11: quotas and accounts, PARK, and the bring-in, each outcome by its lemma above. -/
theorem quotasAndParking : Obligations.QuotasAndParking := by
  refine ⟨?_, fun rq x s hl hctx => ⟨fun hbarred => ?_, ?_⟩, ?_⟩
  · rintro rq quotas q x s hl hctx rfl
    obtain ⟨y, hy, hcontrol, hvector, henergy, honly⟩ := meterRunning_counts (liveCtx_some hctx).1
    have hframe := meterRunning_frame s rq.ctx _ rfl
    have hlive : Live rq (meterRunning s rq.ctx) := by rw [hframe]; exact hl
    refine ⟨fun hcheck => answered_replyC (execCtxQuotaSet_set hctx hcheck) hl,
      fun r hcheck => answered_replyC (execCtxQuotaSet_refused hctx hcheck) hl,
      ⟨_, y, answered_replyC (execAccountRead_eq hctx hy) hlive, hy, meterRunning_idle (liveCtx_some hctx).1, hcontrol, hvector,
        henergy, honly, hframe, fun d hd => meterRunning_others s rq.ctx hd⟩,
      acctRecord_length .., acctRecord_mxe .., acctRecord_runs ..⟩
  · exact answered_replyC (execPreemptPark_refused hctx hbarred) hl
  · intro hst hsealed hjob hq hparking hunloading u fits hroom
    have hopen : ¬ parkBarred x := by simp [parkBarred, hst, hsealed, hjob, hq, hparking, hunloading]
    constructor
    · rintro rfl hready
      exact execPreemptPark_full hctx hopen hroom hready
    · rintro rfl
      obtain ⟨y, hy, hyst, hyparking, hgranules⟩ := parkBegun_standing hctx hopen hroom
      refine ⟨_, y, hy, hyparking, hgranules, execPreemptPark_goesOn hctx hopen hroom, execPreemptPark_waits hctx hopen hroom,
        finishPark_waits hy hyparking, finishPark_done hy hyparking hyst, fun hupper => ?_⟩
      exact hgranules ▸ parkDone_parked hy hupper rq
  · intro c x r rest s hctx hst hq hslot hentries
    refine ⟨fun hplace hl hmilestone =>
      answered_replyC (execBringIn_noShare hctx hst hq hslot hentries hplace hmilestone) hl, fun u v hplace hbring =>
      ⟨execBringIn_waits hctx hst hq hslot hentries hplace hbring, fun hwork => ?_⟩⟩
    obtain ⟨z, hz, -⟩ := exists_of_standing_eq (standing_placeAll hplace c) hctx
    obtain ⟨y, hy, hresident⟩ := bringIn_resident hz hbring
    exact ⟨_, y, execBringIn_starts hctx hst hq hslot hentries hplace hbring hwork, by rw [wakeFor_ctxs, hy], hresident⟩

end Sys2Proof.Machine

/-!
PROOFS. The end of a quantum (R376), pre-emption points (R244, R378, R380, R384) and the completion of a job (R264, R374).
-/

namespace Sys2Proof.Machine

/-! ## Entries of a table and their keys -/

theorem mem_of_tget? {α : Type} {t : Tab α} {k : Nat} {v : α} (h : tget? t k = some v) : (k, v) ∈ t := by
  obtain ⟨before, after, rfl, -⟩ := List.lookup_eq_some_iff.mp h
  simp

theorem tget?_of_mem {α : Type} {t : Tab α} {k : Nat} {v : α} (hkeys : (t.map Prod.fst).Nodup) (h : (k, v) ∈ t) :
    tget? t k = some v := by
  obtain ⟨before, after, rfl⟩ := List.append_of_mem h
  rw [List.map_append, List.nodup_append] at hkeys
  obtain ⟨-, -, hne⟩ := hkeys
  refine List.lookup_eq_some_iff.mpr ⟨before, after, rfl, fun p hp => ?_⟩
  simpa using (hne p.1 (List.mem_map_of_mem hp) k (by simp)).symm

theorem mem_of_mem_tmod {α : Type} {t : Tab α} {k m : Nat} {f : α → α} {v : α} (h : (m, v) ∈ tmod t k f) (hne : m ≠ k) :
    (m, v) ∈ t := by
  unfold tmod at h
  split at h
  · rcases mem_tset _ _ _ _ h with heq | hmem
    · exact absurd (congrArg Prod.fst heq) hne
    · exact hmem
  · exact h

/-! ## The jobs of several contexts change -/

section
variable (f : Job → Job) (l : List Nat) (s : State)

theorem foldl_modJob : l.foldl (fun a c => modJob a c f) s =
    { s with ctxs := l.foldl (fun t c => tmod t c (fun x => { x with job := x.job.map f })) s.ctxs } := by
  induction l generalizing s with
  | nil => rfl
  | cons c r ih => exact ih _

theorem tget?_foldl_modJob (hf : ∀ j, f (f j) = f j) (c : Nat) : tget? (l.foldl (fun a c => modJob a c f) s).ctxs c =
    (tget? s.ctxs c).map (fun x => if c ∈ l then { x with job := x.job.map f } else x) := by
  rw [foldl_modJob]
  refine tget?_foldl_tmod (fun x : Ctx => { x with job := x.job.map f }) (fun x => ?_) l s.ctxs c
  simp [Function.comp_def, hf]

theorem mem_of_mem_foldl_modJob {c : Nat} {x : Ctx} (hc : c ∉ l) (h : (c, x) ∈ (l.foldl (fun a c => modJob a c f) s).ctxs) :
    (c, x) ∈ s.ctxs := by
  induction l generalizing s with
  | nil => exact h
  | cons d r ih =>
    rw [List.mem_cons, not_or] at hc
    exact mem_of_mem_tmod (ih _ hc.2 h) hc.1

end

/-- On a job that a context has, two changes that agree on that job are one. -/
theorem modJob_congr {s : State} {c : Nat} {x : Ctx} {j : Job} {f g : Job → Job} (hctx : tget? s.ctxs c = some x)
    (hjob : x.job = some j) (h : f j = g j) : modJob s c f = modJob s c g := by
  simp only [modJob, modCtx, tmod, hctx, hjob, Option.map_some, h]

theorem tget?_modJob {s : State} {c : Nat} {x : Ctx} {j : Job} (hctx : tget? s.ctxs c = some x) (hjob : x.job = some j)
    (f : Job → Job) : tget? (modJob s c f).ctxs c = some { x with job := some (f j) } := by
  rw [modJob, tget?_modCtx, hctx, Option.map_some, hjob, Option.map_some]

/-! ## A turn begins (R376) -/

/-- A job at the start of a turn of its entry: that it yielded in an earlier one does not count any more. -/
def unyielded (j : Job) : Job := { j with yielded := false }

section
variable (s : State) (i : Nat)

theorem beginTurn_eq : beginTurn s i = (s.sched.entries.getD i []).foldl (fun a c => modJob a c unyielded)
    { s with sched := { s.sched with turn := some i } } := rfl

theorem beginTurn_frame : beginTurn s i =
    { s with sched := { s.sched with turn := some i }, ctxs := (beginTurn s i).ctxs } := by
  rw [beginTurn_eq, foldl_modJob]

theorem tget?_beginTurn (c : Nat) : tget? (beginTurn s i).ctxs c = (tget? s.ctxs c).map (fun x =>
    if c ∈ s.sched.entries.getD i [] then { x with job := x.job.map unyielded } else x) := by
  rw [beginTurn_eq]
  exact tget?_foldl_modJob unyielded _ _ (fun _ => rfl) c

end

/-- A Shared context's job that holds its cores, runs on and has no order to stop. -/
def Outgoes (x : Ctx) (j : Job) : Prop :=
  x.sealed = false ∧ x.job = some j ∧ j.onCores = true ∧ j.order = none ∧ j.ended = none

theorem mem_outgoing {s : State} {e : List Nat} {c : Nat} :
    c ∈ outgoing s e ↔ c ∉ e ∧ ∃ x j, (c, x) ∈ s.ctxs ∧ Outgoes x j := by
  simp only [outgoing, List.mem_map, List.mem_filter, Prod.exists, exists_and_right, exists_eq_right, Outgoes]
  constructor
  · rintro ⟨x, hmem, hout⟩
    cases hjob : x.job with
    | none => simp [hjob] at hout
    | some j =>
      simp only [hjob, Bool.and_eq_true, Bool.not_eq_true', List.contains_eq_mem, decide_eq_false_iff_not,
        Option.isNone_iff_eq_none] at hout
      obtain ⟨⟨hshared, hc⟩, ⟨hon, horder⟩, hended⟩ := hout
      exact ⟨hc, x, j, hmem, hshared, hjob, hon, horder, hended⟩
  · rintro ⟨hc, x, j, hmem, hshared, hjob, hon, horder, hended⟩
    exact ⟨x, hmem, by simp [hc, hshared, hjob, hon, horder, hended]⟩

/-- The contexts whose jobs go out when an entry takes its turn. -/
def leaving (s : State) (n : Nat) : List Nat := outgoing (beginTurn s n) (s.sched.entries.getD n [])

/-- Beginning a turn changes no context outside its entry, so the outgoing jobs are those that stood there before. -/
theorem mem_leaving {s : State} (hkeys : (s.ctxs.map Prod.fst).Nodup) {n c : Nat} :
    c ∈ leaving s n ↔ c ∉ s.sched.entries.getD n [] ∧ ∃ x j, tget? s.ctxs c = some x ∧ Outgoes x j := by
  rw [leaving, mem_outgoing]
  refine and_congr_right fun hc => exists₂_congr fun x j => and_congr_left fun _ => ⟨fun hmem => ?_, fun hctx => ?_⟩
  · rw [beginTurn_eq] at hmem
    have hbefore := mem_of_mem_foldl_modJob unyielded _ _ hc hmem
    exact tget?_of_mem hkeys hbefore
  · refine mem_of_tget? ?_
    rw [tget?_beginTurn, hctx, Option.map_some, if_neg hc]

/-! ## Running jobs are ordered to stop (R376, R379) -/

/-- A job with the order that the end of a quantum gives. -/
def turnOrdered (j : Job) : Job := { j with order := some .turn }

/-- A job that holds its cores and has a stage short of its pre-emption point goes on under an order. -/
theorem tryStop_running {s : State} {c : Nat} {x : Ctx} {j : Job} (hctx : tget? s.ctxs c = some x) (hjob : x.job = some j)
    (hon : j.onCores = true) (hpoint : allAtPoint s j = false) : tryStop s c = s := by
  simp only [tryStop, hctx, Option.bind_some, hjob, hon, hpoint]
  split <;> rfl

/-- A context's job holds its cores, is short of its pre-emption point, and has no order but that of a turn's end. -/
def TurnStoppable (s : State) (c : Nat) : Prop :=
  ∃ x j, tget? s.ctxs c = some x ∧ x.job = some j ∧ j.onCores = true ∧ (j.order = none ∨ j.order = some .turn) ∧
    allAtPoint s j = false

theorem orderStop_turn {s : State} {c : Nat} (h : TurnStoppable s c) : orderStop s c .turn = modJob s c turnOrdered := by
  obtain ⟨x, j, hctx, hjob, hon, horder, hpoint⟩ := h
  have hstep := tryStop_running (tget?_modJob hctx hjob turnOrdered) rfl hon hpoint
  refine Eq.trans ?_ hstep
  refine congrArg (tryStop · c) (modJob_congr hctx hjob ?_)
  rcases horder with horder | horder
  · simp only [horder, turnOrdered]
  · cases hheld : j.held <;> simp [horder, hheld, turnOrdered, StopOrder.max, StopOrder.rank]

theorem turnStoppable_modJob {s : State} {c : Nat} (h : TurnStoppable s c) (d : Nat) :
    TurnStoppable (modJob s d turnOrdered) c := by
  obtain ⟨x, j, hctx, hjob, hon, horder, hpoint⟩ := h
  rcases eq_or_ne c d with rfl | hne
  · exact ⟨_, _, tget?_modJob hctx hjob turnOrdered, rfl, hon, .inr rfl, hpoint⟩
  · exact ⟨x, j, (tget?_modJob_ne s d c _ hne).trans hctx, hjob, hon, horder, hpoint⟩

theorem foldl_orderStop_turn (l : List Nat) (s : State) (h : ∀ c ∈ l, TurnStoppable s c) :
    l.foldl (fun a c => orderStop a c .turn) s = l.foldl (fun a c => modJob a c turnOrdered) s := by
  induction l generalizing s with
  | nil => rfl
  | cons d r ih =>
    rw [List.foldl_cons, List.foldl_cons, orderStop_turn (h d List.mem_cons_self)]
    exact ih _ fun c hc => turnStoppable_modJob (h c (List.mem_cons_of_mem d hc)) d

/-! ## QUANTUM_EXPIRE (R376) -/

/-- An entry has taken its turn, and the jobs outside it are ordered to stop. -/
def turnPassed (s : State) (n : Nat) : State := (leaving s n).foldl (fun a c => modJob a c turnOrdered) (beginTurn s n)

section
variable {s : State} {i n : Nat} (hturn : s.sched.turn = some i)
include hturn

theorem execQuantumExpire_alone (hother : otherRunnable s = false) :
    execQuantumExpire s = .next (schedule (beginTurn s i)) := by
  simp only [execQuantumExpire, hturn, hother, Bool.false_eq_true, if_false]

theorem execQuantumExpire_passes (hother : otherRunnable s = true) (hnext : nextEntry s i = some n)
    (hkeys : (s.ctxs.map Prod.fst).Nodup)
    (hpoint : ∀ c x j, c ∉ s.sched.entries.getD n [] → tget? s.ctxs c = some x → Outgoes x j → allAtPoint s j = false) :
    execQuantumExpire s = .next (schedule (turnPassed s n)) := by
  have hentries : (beginTurn s n).sched.entries = s.sched.entries := by rw [beginTurn_frame]
  have hfold : (leaving s n).foldl (fun a c => orderStop a c .turn) (beginTurn s n) = turnPassed s n := by
    refine foldl_orderStop_turn _ _ fun c hc => ?_
    obtain ⟨hentry, x, j, hctx, hout⟩ := (mem_leaving hkeys).mp hc
    have hrun := hpoint c x j hentry hctx hout
    obtain ⟨-, hjob, hon, horder, -⟩ := hout
    refine ⟨x, j, by rw [tget?_beginTurn, hctx, Option.map_some, if_neg hentry], hjob, hon, .inl horder, ?_⟩
    rw [beginTurn_frame]
    exact hrun
  simp only [execQuantumExpire, hturn, hother, if_true, hnext, hentries]
  rw [← leaving, hfold]

end

theorem tget?_turnPassed (s : State) (n c : Nat) : tget? (turnPassed s n).ctxs c = (tget? (beginTurn s n).ctxs c).map (fun y =>
    if c ∈ leaving s n then { y with job := y.job.map turnOrdered } else y) :=
  tget?_foldl_modJob turnOrdered _ _ (fun _ => rfl) c

theorem turnPassed_frame (s : State) (n : Nat) : turnPassed s n =
    { s with sched := { s.sched with turn := some n }, ctxs := (turnPassed s n).ctxs } := by
  rw [turnPassed, foldl_modJob]
  dsimp only
  rw [beginTurn_frame]

section
variable {s : State} {n c : Nat} {x : Ctx} (hctx : tget? s.ctxs c = some x)
include hctx

theorem turnPassed_entry (hentry : c ∈ s.sched.entries.getD n []) : tget? (turnPassed s n).ctxs c =
    some { x with job := x.job.map unyielded } := by
  have hstays : c ∉ leaving s n := fun h => (mem_outgoing.mp h).1 hentry
  rw [tget?_turnPassed, tget?_beginTurn, hctx, Option.map_some, if_pos hentry, Option.map_some, if_neg hstays]

variable (hkeys : (s.ctxs.map Prod.fst).Nodup) (hentry : c ∉ s.sched.entries.getD n [])
include hkeys hentry

theorem turnPassed_outgoing {j : Job} (hout : Outgoes x j) :
    tget? (turnPassed s n).ctxs c = some { x with job := some (turnOrdered j) } := by
  have hmem := (mem_leaving hkeys).mpr ⟨hentry, x, j, hctx, hout⟩
  obtain ⟨-, hjob, -⟩ := hout
  rw [tget?_turnPassed, tget?_beginTurn, hctx, Option.map_some, if_neg hentry, Option.map_some, if_pos hmem, hjob,
    Option.map_some]

theorem turnPassed_others (hout : ∀ j, ¬ Outgoes x j) : tget? (turnPassed s n).ctxs c = some x := by
  have hstays : c ∉ leaving s n := fun h => by
    obtain ⟨-, y, j, hy, hj⟩ := (mem_leaving hkeys).mp h
    obtain rfl := Option.some.inj (hctx.symm.trans hy)
    exact hout j hj
  rw [tget?_turnPassed, tget?_beginTurn, hctx, Option.map_some, if_neg hentry, Option.map_some, if_neg hstays]

end

/-! ## A stage at its boundary and at its pre-emption point (R244, R378, R380) -/

theorem execPreemptionPoint_eq {s : State} {core slot c : Nat} (hstage : stageCtx s core slot = some c) :
    execPreemptionPoint core slot s = .next (settle (preemptionPoint s core slot) c) := by
  simp only [execPreemptionPoint, hstage]

section
variable {s : State} {core slot c : Nat} {x : Ctx} {j : Job} (hstage : stageCtx s core slot = some c)
  (hctx : tget? s.ctxs c = some x) (hjob : x.job = some j)
include hstage hctx hjob

theorem execStageBoundary_unordered (horder : j.order = none) : execStageBoundary core slot s =
    .next (modStage s c core slot (fun r => { r with boundary := r.boundary + 1 })) := by
  simp [execStageBoundary, hstage, hctx, hjob, horder]

theorem preemptionPoint_stops (horder : j.order ≠ none) (hidle : engineBusy s core slot = false) :
    preemptionPoint s core slot =
      tryStop (modStage s c core slot (fun r => if r.st = .running then { r with st := .stopped } else r)) c := by
  simp [preemptionPoint, hstage, hctx, hjob, horder, hidle]

theorem preemptionPoint_busy (hbusy : engineBusy s core slot = true) : preemptionPoint s core slot = s := by
  simp [preemptionPoint, hstage, hctx, hjob, hbusy]

end

/-! ## SCHED_NO_BOUNDARY (R384) -/

section
variable {s : State} {c : Nat} {x : Ctx} {j : Job} (hctx : tget? s.ctxs c = some x) (hjob : x.job = some j)
include hctx hjob

theorem tget?_failJob (hended : j.ended = none) (r : Reason) : tget? (failJob s c r).ctxs c =
    some { x with job := some { j with ended := some (.fault, r) } } := by
  have hcleared : tget? (clearWork s c).ctxs c = some x := hctx
  rw [failJob, tget?_modJob hcleared hjob, hended]

/-- A switch out takes the job off its cores, ends its order, and counts (R381, R396). -/
theorem tget?_switchOut : tget? (switchOut s c).ctxs c = some { x with
    job := some { j with onCores := false, order := none, held := none }
    acct := { x.acct with preemptions := x.acct.preemptions + 1 } } := by
  have hsaved : tget? ((jobCores j).foldl (fun a n => saveCore a c n) s).ctxs c = some x := by
    rw [foldl_keeps State.ctxs (fun a n => saveCore a c n) (fun _ _ => rfl), hctx]
  simp only [switchOut, hctx, Option.bind_some, hjob, modAcct]
  rw [tget?_modCtx, tget?_modJob hsaved hjob, Option.map_some]

theorem execSchedNoBoundary_ordered (horder : j.order ≠ none) (hon : j.onCores = true) :
    execSchedNoBoundary c s = .next (switchOut (failJob s c .schedNoBoundary) c) := by
  simp [execSchedNoBoundary, hctx, hjob, hon, Option.isSome_iff_ne_none.mpr horder]

end

/-! ## JOB_COMPLETE (R264, R374, R539) -/

/-- What the end of a job counts in its context's account (R396). -/
def completionCounts (amt : Nat → Nat) (a : Acct) : Acct :=
  { a with runs := a.runs + 1, control := a.control + amt 2, vector := a.vector + amt 3 }

/-- A job's work has left the cores and the lanes. -/
def workGone (s : State) (c : Nat) (st : Status) : State :=
  dropLanePackets (if st = .ok then clearQueues s c else clearWork s c) c

/-- A job has ended and is counted; its RUN is not answered yet. -/
def jobClosed (s : State) (c : Nat) (st : Status) : State :=
  meter (modCtx (workGone s c st) c (fun y => { y with job := none })) c completionCounts

@[simp] theorem cascadeEnd_ctxs (s : State) (m : Option Nat) (st : Status) : (cascadeEnd s m st).ctxs = s.ctxs := by
  cases m <;> rfl

@[simp] theorem cascadeEnd_net (s : State) (m : Option Nat) (st : Status) : (cascadeEnd s m st).net = s.net := by
  cases m <;> rfl

theorem workGone_ctxs (s : State) (c : Nat) (st : Status) : (workGone s c st).ctxs = s.ctxs := by
  unfold workGone
  split <;> rfl

theorem jobClosed_net (s : State) (c : Nat) (st : Status) : (jobClosed s c st).net = s.net := by
  change (workGone s c st).net = s.net
  unfold workGone
  split <;> rfl

theorem tget?_jobClosed_ne (s : State) {c d : Nat} (st : Status) (hne : d ≠ c) :
    tget? (jobClosed s c st).ctxs d = tget? s.ctxs d := by
  rw [jobClosed, tget?_meter_ne _ _ _ _ hne, tget?_modCtx_ne _ _ _ _ hne, workGone_ctxs]

theorem jobClosed_counts {s : State} {c : Nat} {x : Ctx} (hctx : tget? s.ctxs c = some x) (st : Status) :
    ∃ y, tget? (jobClosed s c st).ctxs c = some y ∧ y.job = none ∧ y.acct.runs = x.acct.runs + 1 := by
  have hgone : tget? (modCtx (workGone s c st) c (fun y => { y with job := none })).ctxs c = some { x with job := none } := by
    rw [tget?_modCtx, workGone_ctxs, hctx, Option.map_some]
  obtain ⟨a, hy, rfl⟩ := tget?_meter_self completionCounts hgone
  exact ⟨_, hy, rfl, rfl⟩

section
variable {s : State} {c : Nat} {x : Ctx} {j : Job} {st : Status} {r : Reason} (hctx : tget? s.ctxs c = some x)
  (hjob : x.job = some j)
include hctx hjob

theorem completeJob_unawaited (hwaiters : j.waiters = []) : completeJob s c st r =
    cascadeEnd (replyC (draw (jobClosed s c st)) j.run.req 0x0130 st r (runBody s j)) j.run.milestone st := by
  simp only [completeJob, hctx, hjob, hwaiters, List.foldl_nil]
  rfl

theorem execJobComplete_ended (hended : j.ended = some (st, r)) : execJobComplete c s =
    .next (settle (startNext (schedule (completeJob s c st r)) c) c) := by
  simp only [execJobComplete, hctx, Option.bind_some, hjob, hended]

end

theorem runBody_length (s : State) (j : Job) : (runBody s j).length = 16 := by
  simp [runBody, leBytes_length, zeros_length]

theorem runBody_id (s : State) (j : Job) : field (runBody s j) 0 4 = j.id % 2 ^ 32 := by
  rw [runBody, List.append_assoc, List.append_assoc]
  exact field_append (before := []) rfl _ 4 j.id

theorem runBody_phase (s : State) (j : Job) : field (runBody s j) 4 1 = j.phase % 256 := by
  rw [runBody, List.append_assoc, List.append_assoc]
  exact field_append (leBytes_length 4 j.id) _ 1 j.phase

/-- Settles O13: the end of a quantum by the jobs it orders to stop, a stage's boundary and pre-emption point by the order
that stands, and the completion by what the end of a job leaves of its context. -/
theorem jobsStopAndComplete : Obligations.JobsStopAndComplete := by
  refine ⟨fun s i hturn => ⟨execQuantumExpire_alone hturn, ?_⟩, ?_, ?_⟩
  · intro n hother hnext hkeys out hout hpoint
    obtain rfl : out = Outgoes := funext₂ fun x j => propext (hout x j)
    exact ⟨turnPassed s n, execQuantumExpire_passes hturn hother hnext hkeys hpoint, by rw [turnPassed_frame],
      fun c x j hentry hctx => turnPassed_outgoing hctx hkeys hentry,
      fun c x hentry hctx => turnPassed_others hctx hkeys hentry,
      fun c x hentry hctx => turnPassed_entry hctx hentry, by rw [turnPassed_frame]⟩
  · intro core slot c x j s hstage hctx hjob
    refine ⟨execStageBoundary_unordered hstage hctx hjob, fun horder hidle => ?_, fun _ hbusy => ?_, fun horder hon hended => ?_⟩
    · rw [exec_preemptionPoint, execPreemptionPoint_eq hstage, preemptionPoint_stops hstage hctx hjob horder hidle]
    · rw [exec_preemptionPoint, execPreemptionPoint_eq hstage, preemptionPoint_busy hstage hctx hjob hbusy]
    · exact ⟨_, _, execSchedNoBoundary_ordered hctx hjob horder hon,
        tget?_switchOut (tget?_failJob hctx hjob hended _) rfl, rfl, rfl, rfl, rfl⟩
  · intro c x j st r s hctx hjob hended hwaiters
    have hdone := completeJob_unawaited (st := st) (r := r) hctx hjob hwaiters
    have hctxs : (completeJob s c st r).ctxs = (jobClosed s c st).ctxs := by simp [hdone]
    obtain ⟨y, hy, hidle, hruns⟩ := jobClosed_counts hctx st
    refine ⟨completeJob s c st r, y, execJobComplete_ended hctx hjob hended, by rw [hctxs, hy], hidle, hruns,
      fun d hd => by rw [hctxs, tget?_jobClosed_ne s st hd], fun hlive =>
      ⟨runBody s j, ?_, runBody_id s j, runBody_phase s j, runBody_length s j⟩⟩
    rw [hdone, Replied, cascadeEnd_net]
    exact replyC_replied _ j.run.req 0x0130 st r _ (by rwa [Live, draw_net, jobClosed_net])

end Sys2Proof.Machine

/-!
PROOFS. The paged key-value cache: reference counts of pages, KV_SEQ_FORK and KV_SEQ_FREE (R280 to R289), and walk requests
(R300 to R309).
-/

namespace Sys2Proof.Machine

/-! ## Reference counts (R284) -/

theorem tget_terase_self {α : Type} (t : Tab α) (d : α) (k : Nat) : tget (terase t k) d k = d :=
  congrArg (Option.getD · d) (tget?_terase_self t k)

theorem tget_terase_ne {α : Type} (t : Tab α) (d : α) (k m : Nat) (h : m ≠ k) : tget (terase t k) d m = tget t d m :=
  congrArg (Option.getD · d) (tget?_terase_ne t k m h)

/-- The entries of a page table that name a page. -/
def namings (ptes : Tab Pte) (h : Nat) : Nat := (ptes.filter (fun e => e.2.page == some h)).length

theorem namings_cons_none {e : Nat × Pte} (hpage : e.2.page = none) (r : Tab Pte) (h : Nat) :
    namings (e :: r) h = namings r h := by
  simp [namings, hpage]

theorem namings_cons_self {e : Nat × Pte} {h : Nat} (hpage : e.2.page = some h) (r : Tab Pte) :
    namings (e :: r) h = namings r h + 1 := by
  simp [namings, hpage]

theorem namings_cons_ne {e : Nat × Pte} {h m : Nat} (hpage : e.2.page = some m) (hne : h ≠ m) (r : Tab Pte) :
    namings (e :: r) h = namings r h := by
  simp [namings, hpage, hne.symm]

/-- Each copied entry that names a page adds one reference to it. -/
theorem tget_addRefs (ptes : Tab Pte) (h : Nat) : ∀ refs : Tab Nat,
    tget (addRefs refs ptes) 0 h = tget refs 0 h + namings ptes h := by
  induction ptes with
  | nil => intro refs; rfl
  | cons e r ih =>
    intro refs
    rw [addRefs, List.foldl_cons]
    cases hpage : e.2.page with
    | none => rw [namings_cons_none hpage]; exact ih refs
    | some m =>
      refine (ih (tset refs m (tget refs 0 m + 1))).trans ?_
      by_cases hm : h = m
      · subst hm
        rw [tget_tset_self, namings_cons_self hpage]
        omega
      · rw [tget_tset_ne _ _ _ _ _ hm, namings_cons_ne hpage hm]

theorem dropRef_last {x : Ctx} {h : Nat} (hlast : tget x.refs 0 h ≤ 1) :
    dropRef x h = { x with refs := terase x.refs h, doomed := insertNum h x.doomed } := if_pos hlast

theorem dropRef_shared {x : Ctx} {h : Nat} (hshared : 2 ≤ tget x.refs 0 h) :
    dropRef x h = { x with refs := tset x.refs h (tget x.refs 0 h - 1) } := if_neg (by omega)

theorem tget_refs_dropRef_self (x : Ctx) (h : Nat) : tget (dropRef x h).refs 0 h = tget x.refs 0 h - 1 := by
  by_cases hlast : tget x.refs 0 h ≤ 1
  · rw [dropRef_last hlast, tget_terase_self]
    omega
  · rw [dropRef_shared (by omega), tget_tset_self]

theorem tget_refs_dropRef_ne (x : Ctx) {h k : Nat} (hne : k ≠ h) : tget (dropRef x h).refs 0 k = tget x.refs 0 k := by
  by_cases hlast : tget x.refs 0 h ≤ 1
  · rw [dropRef_last hlast, tget_terase_ne _ _ _ _ hne]
  · rw [dropRef_shared (by omega), tget_tset_ne _ _ _ _ _ hne]

theorem mem_doomed_dropRef (x : Ctx) (h k : Nat) :
    k ∈ (dropRef x h).doomed ↔ k ∈ x.doomed ∨ (k = h ∧ tget x.refs 0 h ≤ 1) := by
  by_cases hlast : tget x.refs 0 h ≤ 1
  · rw [dropRef_last hlast, mem_insertNum]
    tauto
  · rw [dropRef_shared (by omega)]
    simp [hlast]

theorem dropRef_frame (x : Ctx) (h : Nat) :
    dropRef x h = { x with refs := (dropRef x h).refs, doomed := (dropRef x h).doomed } := by
  unfold dropRef
  split <;> rfl

/-- A context once every entry of a page table has given its reference up. -/
def dropRefs (x : Ctx) (ptes : Tab Pte) : Ctx :=
  ptes.foldl (fun z e => match e.2.page with
    | some h => dropRef z h
    | none => z) x

theorem dropRefs_cons_none {e : Nat × Pte} (hpage : e.2.page = none) (x : Ctx) (r : Tab Pte) :
    dropRefs x (e :: r) = dropRefs x r := by
  rw [dropRefs, List.foldl_cons, hpage]
  rfl

theorem dropRefs_cons_some {e : Nat × Pte} {m : Nat} (hpage : e.2.page = some m) (x : Ctx) (r : Tab Pte) :
    dropRefs x (e :: r) = dropRefs (dropRef x m) r := by
  rw [dropRefs, List.foldl_cons, hpage]
  rfl

/-- Every entry that names a page takes one reference from it. -/
theorem tget_refs_dropRefs (ptes : Tab Pte) (h : Nat) : ∀ x : Ctx,
    tget (dropRefs x ptes).refs 0 h = tget x.refs 0 h - namings ptes h := by
  induction ptes with
  | nil => intro x; rfl
  | cons e r ih =>
    intro x
    cases hpage : e.2.page with
    | none => rw [dropRefs_cons_none hpage, namings_cons_none hpage, ih]
    | some m =>
      rw [dropRefs_cons_some hpage, ih]
      by_cases hm : h = m
      · subst hm
        rw [tget_refs_dropRef_self, namings_cons_self hpage]
        omega
      · rw [tget_refs_dropRef_ne x hm, namings_cons_ne hpage hm]

/-- A page becomes doomed when the entries that name it take its last reference. -/
theorem mem_doomed_dropRefs (ptes : Tab Pte) (h : Nat) : ∀ x : Ctx,
    h ∈ (dropRefs x ptes).doomed ↔ h ∈ x.doomed ∨ (0 < namings ptes h ∧ tget x.refs 0 h ≤ namings ptes h) := by
  induction ptes with
  | nil => intro x; simp [dropRefs, namings]
  | cons e r ih =>
    intro x
    cases hpage : e.2.page with
    | none => rw [dropRefs_cons_none hpage, namings_cons_none hpage, ih]
    | some m =>
      rw [dropRefs_cons_some hpage, ih, mem_doomed_dropRef]
      by_cases hm : h = m
      · subst hm
        rw [tget_refs_dropRef_self, namings_cons_self hpage, or_assoc]
        refine or_congr_right ?_
        omega
      · rw [tget_refs_dropRef_ne x hm, namings_cons_ne hpage hm]
        simp [hm]

theorem dropRefs_frame (ptes : Tab Pte) : ∀ x : Ctx,
    dropRefs x ptes = { x with refs := (dropRefs x ptes).refs, doomed := (dropRefs x ptes).doomed } := by
  induction ptes with
  | nil => intro x; rfl
  | cons e r ih =>
    intro x
    cases hpage : e.2.page with
    | none => rw [dropRefs_cons_none hpage]; exact ih x
    | some m => rw [dropRefs_cons_some hpage, ih, dropRef_frame]

/-! ## Pages without a reference (R284, R308) -/

/-- A page that no reader holds any more is freed and is no longer doomed. -/
def reapPage (y : Ctx) (h : Nat) : Ctx :=
  match tget? y.objs h with
  | some o => freeObj { y with doomed := y.doomed.erase h } h o
  | none => { y with doomed := y.doomed.erase h }

theorem tget?_objs_reapPage_self (y : Ctx) (h : Nat) : tget? (reapPage y h).objs h = none := by
  unfold reapPage
  split
  · rw [freeObj_objs, tget?_terase_self]
  · next hnone => exact hnone

theorem tget?_objs_reapPage_ne (y : Ctx) {h k : Nat} (hne : k ≠ h) : tget? (reapPage y h).objs k = tget? y.objs k := by
  unfold reapPage
  split
  · rw [freeObj_objs, tget?_terase_ne _ _ _ hne]
  · rfl

theorem reapPage_doomed (y : Ctx) (h : Nat) : (reapPage y h).doomed = y.doomed.erase h := by
  unfold reapPage
  split
  · rw [freeObj_frame]
  · rfl

theorem reapPage_frame (y : Ctx) (h : Nat) :
    reapPage y h = { y with objs := (reapPage y h).objs, fills := (reapPage y h).fills, doomed := (reapPage y h).doomed } := by
  unfold reapPage
  split
  · rw [freeObj_frame]
  · rfl

theorem tget?_objs_foldl_reapPage_none {h : Nat} (l : List Nat) : ∀ y : Ctx, h ∈ l ∨ tget? y.objs h = none →
    tget? (l.foldl reapPage y).objs h = none := by
  induction l with
  | nil => intro y hgone; simpa using hgone
  | cons m r ih =>
    intro y hgone
    refine ih _ ?_
    by_cases hm : h = m
    · exact .inr (hm ▸ tget?_objs_reapPage_self y h)
    · rw [tget?_objs_reapPage_ne y hm]
      simpa [hm] using hgone

theorem foldl_reapPage_of_notMem {h : Nat} (l : List Nat) (hnot : h ∉ l) : ∀ y : Ctx,
    tget? (l.foldl reapPage y).objs h = tget? y.objs h ∧ (h ∈ (l.foldl reapPage y).doomed ↔ h ∈ y.doomed) := by
  induction l with
  | nil => intro y; exact ⟨rfl, Iff.rfl⟩
  | cons m r ih =>
    intro y
    obtain ⟨hm, hr⟩ := List.ne_and_not_mem_of_not_mem_cons hnot
    obtain ⟨hobjs, hdoomed⟩ := ih hr (reapPage y m)
    exact ⟨hobjs.trans (tget?_objs_reapPage_ne y hm), hdoomed.trans (by rw [reapPage_doomed, List.mem_erase_of_ne hm])⟩

theorem foldl_reapPage_frame (l : List Nat) : ∀ y : Ctx, l.foldl reapPage y = { y with
    objs := (l.foldl reapPage y).objs, fills := (l.foldl reapPage y).fills, doomed := (l.foldl reapPage y).doomed } := by
  induction l with
  | nil => intro y; rfl
  | cons m r ih => intro y; rw [List.foldl_cons, ih, reapPage_frame]

/-- The doomed pages of a context that no tag and no walk holds. -/
def reapable (s : State) (c : Nat) (x : Ctx) : List Nat := x.doomed.filter (fun h => !tagsHeld s c h && !walkHeld s c h)

theorem mem_reapable {s : State} {c : Nat} {x : Ctx} {h : Nat} :
    h ∈ reapable s c x ↔ h ∈ x.doomed ∧ tagsHeld s c h = false ∧ walkHeld s c h = false := by
  simp [reapable]

theorem reapPages_setCtx (s : State) (c : Nat) (y : Ctx) :
    tget? (reapPages (setCtx s c y) c).ctxs c = some ((reapable s c y).foldl reapPage y) := by
  rw [reapPages, tget?_modCtx, tget?_setCtx]
  rfl

/-! ## KV_SEQ_FORK (R286, R287) -/

theorem modCtx_eq_setCtx {s : State} {c : Nat} {x : Ctx} (hctx : tget? s.ctxs c = some x) (f : Ctx → Ctx) :
    modCtx s c f = setCtx s c (f x) := by
  rw [modCtx, tmod, hctx, setCtx]

/-- What a fork starts from (R286): the geometry asked for and no entries, or the parent's geometry and the entries that it
copies. -/
def ForkFrom (x : Ctx) (parent pfx : Nat) (geom g : KvGeom) (ps : Tab Pte) : Prop :=
  (parent = 0xFFFF ∧ g = geom ∧ ps = []) ∨
    (parent ≠ 0xFFFF ∧ ∃ q, tget? x.seqs parent = some q ∧ g = q.geom ∧ ps = forkPtes g pfx q.ptes)

/-- A context with a forked sequence. -/
def seqForked (x : Ctx) (child : Nat) (g : KvGeom) (ps : Tab Pte) : Ctx :=
  { x with seqs := tset x.seqs child { geom := g, ptes := ps }, refs := addRefs x.refs ps }

section
variable {rq : Req} {child parent pfx : Nat} {geom g : KvGeom} {ps : Tab Pte} {x : Ctx} {s : State}
  (hctx : liveCtx s rq.ctx = some x)
include hctx

theorem execKvSeqFork_inUse (hused : (tget? x.seqs child).isSome) :
    execKvSeqFork rq child parent pfx geom s = .next (replyC s rq 0x0150 .refused .kvSeqInUse []) := by
  rw [execKvSeqFork, onCtx_some hctx]
  exact congrArg _ (if_pos hused)

variable (hfree : tget? x.seqs child = none)
include hfree

theorem execKvSeqFork_noParent (hparent : parent ≠ 0xFFFF) (hnone : tget? x.seqs parent = none) :
    execKvSeqFork rq child parent pfx geom s = .next (replyC s rq 0x0150 .refused .kvSeqUnknown []) := by
  simp [execKvSeqFork, onCtx_some hctx, hfree, hparent, hnone]

variable (hfrom : ForkFrom x parent pfx geom g ps)
include hfrom

theorem execKvSeqFork_geometry (hgeom : 1024 ≤ child ∨ geomOk g = false ∨ g.maxTokens < pfx) :
    execKvSeqFork rq child parent pfx geom s = .next (replyC s rq 0x0150 .refused .kvGeometry []) := by
  rw [execKvSeqFork, onCtx_some hctx]
  rcases hfrom with ⟨rfl, rfl, -⟩ | ⟨hparent, q, hq, rfl, -⟩
  · simp [hfree, hgeom]
  · simp [hfree, hparent, hq, hgeom]

theorem execKvSeqFork_made (hchild : child < 1024) (hgeom : geomOk g = true) (hpfx : pfx ≤ g.maxTokens)
    (hrefs : ∀ e ∈ addRefs x.refs ps, e.2 ≤ 65535) (hfits : fits x 3 0 (seqGranules g) = true) {b : Bytes}
    (hb : b = leBytes 4 (if parent = 0xFFFF then 0 else forkCount g pfx) ++ zeros 4)
    (hready : Ready s (replyC (setCtx s rq.ctx (seqForked x child g ps)) rq 0x0150 .ok .none b) rq.ctx) :
    execKvSeqFork rq child parent pfx geom s =
      .next (replyC (setCtx s rq.ctx (seqForked x child g ps)) rq 0x0150 .ok .none b) := by
  have hself := (liveCtx_some hctx).1
  have hgeom' : ¬ (1024 ≤ child ∨ geomOk g = false ∨ g.maxTokens < pfx) := by
    simp only [not_or, Bool.not_eq_false]
    exact ⟨by omega, hgeom, by omega⟩
  have hrefs' : (addRefs x.refs ps).any (fun e => decide (65535 < e.2)) = false := by simpa using hrefs
  rw [← onFirmware_ready hready (.kvSeqFork rq child parent pfx geom), hb, execKvSeqFork, onCtx_some hctx]
  rcases hfrom with ⟨rfl, rfl, rfl⟩ | ⟨hparent, q, hq, rfl, rfl⟩
  · simp [hfree, hgeom', hrefs', makeRoom_fits hself hfits, modCtx_eq_setCtx hself, seqForked]
  · simp [hfree, hparent, hq, hgeom', hrefs', makeRoom_fits hself hfits, modCtx_eq_setCtx hself, seqForked]

end

/-! ## KV_SEQ_FREE (R289) -/

/-- A context without a sequence, whose entries have given their references up. -/
def seqDropped (x : Ctx) (n : Nat) (q : KvSeq) : Ctx := { dropRefs x q.ptes with seqs := terase x.seqs n }

/-- The context that KV_SEQ_FREE leaves: the pages that nothing holds any more are freed. -/
def seqFreed (s : State) (c : Nat) (x : Ctx) (n : Nat) (q : KvSeq) : Ctx :=
  (reapable s c (seqDropped x n q)).foldl reapPage (seqDropped x n q)

section
variable {rq : Req} {n : Nat} {x : Ctx} {s : State} (hctx : liveCtx s rq.ctx = some x)
include hctx

theorem execKvSeqFree_unknown (hnone : tget? x.seqs n = none) :
    execKvSeqFree rq n s = .next (replyC s rq 0x0151 .refused .kvSeqUnknown []) := by
  rw [execKvSeqFree, onCtx_some hctx, hnone]

variable {q : KvSeq} (hseq : tget? x.seqs n = some q)
include hseq

theorem execKvSeqFree_busy (hwalk : seqWalked s rq.ctx n = true) :
    execKvSeqFree rq n s = .next (replyC s rq 0x0151 .busy .kvBusy []) := by
  rw [execKvSeqFree, onCtx_some hctx, hseq]
  exact congrArg _ (if_pos hwalk)

theorem execKvSeqFree_freed (hwalk : seqWalked s rq.ctx n = false) {t : State}
    (ht : t = replyC (reapPages (setCtx s rq.ctx (seqDropped x n q)) rq.ctx) rq 0x0151 .ok .none [])
    (hwork : workReady s t rq.ctx = true) :
    execKvSeqFree rq n s = .next (firmwareVote s t (newFillCores s t rq.ctx)) := by
  have hseqs : (dropRefs x q.ptes).seqs = x.seqs := by rw [dropRefs_frame]
  have hdrop : seqDropped x n q = { dropRefs x q.ptes with seqs := terase (dropRefs x q.ptes).seqs n } := by rw [hseqs]; rfl
  have hrun : execKvSeqFree rq n s = .next (onFirmware s t rq.ctx (.kvSeqFree rq n)) := by
    rw [execKvSeqFree, onCtx_some hctx, hseq, ht, hdrop]
    exact congrArg _ (if_neg (by simp [hwalk]))
  rw [hrun, onFirmware, if_pos hwork]

end

section
variable (s : State) (c : Nat) (x : Ctx) (n : Nat) (q : KvSeq)

theorem seqFreed_seqs : (seqFreed s c x n q).seqs = terase x.seqs n := by
  rw [seqFreed, foldl_reapPage_frame]
  rfl

theorem tget_refs_seqFreed (h : Nat) : tget (seqFreed s c x n q).refs 0 h = tget x.refs 0 h - namings q.ptes h := by
  rw [← tget_refs_dropRefs, seqFreed, foldl_reapPage_frame]
  rfl

theorem mem_doomed_seqDropped (h : Nat) : h ∈ (seqDropped x n q).doomed ↔
    h ∈ x.doomed ∨ (0 < namings q.ptes h ∧ tget x.refs 0 h ≤ namings q.ptes h) := mem_doomed_dropRefs q.ptes h x

theorem seqDropped_objs : (seqDropped x n q).objs = x.objs := by
  rw [seqDropped, dropRefs_frame]

variable {s c x n q} {h : Nat}

theorem seqFreed_kept (hkept : h ∉ reapable s c (seqDropped x n q)) : tget? (seqFreed s c x n q).objs h = tget? x.objs h ∧
    (h ∈ (seqFreed s c x n q).doomed ↔ h ∈ (seqDropped x n q).doomed) := by
  rw [← seqDropped_objs x n q]
  exact foldl_reapPage_of_notMem _ hkept _

/-- A page with a reference left, or that nothing of the sequence named, keeps its object. -/
theorem seqFreed_referenced (hlive : h ∉ x.doomed) (hrefs : namings q.ptes h = 0 ∨ namings q.ptes h < tget x.refs 0 h) :
    tget? (seqFreed s c x n q).objs h = tget? x.objs h := by
  refine (seqFreed_kept fun hreap => ?_).1
  rcases (mem_doomed_seqDropped x n q h).mp (mem_reapable.mp hreap).1 with hdoomed | hlast
  · exact hlive hdoomed
  · omega

variable (hnamed : 0 < namings q.ptes h) (hlast : tget x.refs 0 h ≤ namings q.ptes h)
include hnamed hlast

/-- A page whose last reference goes and that nothing holds is freed. -/
theorem seqFreed_freed (htags : tagsHeld s c h = false) (hwalk : walkHeld s c h = false) :
    tget? (seqFreed s c x n q).objs h = none :=
  tget?_objs_foldl_reapPage_none _ _
    (.inl (mem_reapable.mpr ⟨(mem_doomed_seqDropped x n q h).mpr (.inr ⟨hnamed, hlast⟩), htags, hwalk⟩))

/-- A page whose last reference goes while a tag or a walk holds it stays, and is doomed. -/
theorem seqFreed_held (hheld : tagsHeld s c h = true ∨ walkHeld s c h = true) :
    tget? (seqFreed s c x n q).objs h = tget? x.objs h ∧ h ∈ (seqFreed s c x n q).doomed := by
  have hkept : h ∉ reapable s c (seqDropped x n q) := fun hreap => by
    obtain ⟨-, htags, hwalk⟩ := mem_reapable.mp hreap
    simp [htags, hwalk] at hheld
  obtain ⟨hobjs, hdoomed⟩ := seqFreed_kept hkept
  exact ⟨hobjs, hdoomed.mpr ((mem_doomed_seqDropped x n q h).mpr (.inr ⟨hnamed, hlast⟩))⟩

end

/-! ## Walk requests (R300 to R307) -/

section
variable {core slot off c : Nat} {j : Job} {b : Bytes} {s : State} (hstage : stageRunning s core slot = some (c, j))
include hstage

/-- An uncorrectable error of the request's words ends the job (R679). -/
theorem execKvWalkRequest_error {u : State} {r : Reason} (hin : off + 64 ≤ (shareOf s c j.run.slot core).2 * 256)
    (hscan : eccScan s (physOf s core) [((shareOf s c j.run.slot core).1 * 256 + off, 64)] = (u, some r)) :
    execKvWalkRequest core slot off s = .next (failJob u c r) := by
  rw [execKvWalkRequest, hstage]
  exact congrArg _ (withWords_error _ _ _ _ _ _ _ _ _ hin hscan)

variable (hbad : (ramOf s (physOf s core)).bad = []) (hsoft : (ramOf s (physOf s core)).soft = [])
  (hread : deckRead s c j.run.slot core off 64 = some b)
include hbad hsoft hread

theorem execKvWalkRequest_version (hversion : walkVersionBad b = true) :
    execKvWalkRequest core slot off s = .next (failJob s c .kvWalkVersion) := by
  simp [execKvWalkRequest, hstage, withWords_clean, hbad, hsoft, hread, hversion]

variable (hversion : walkVersionBad b = false)
include hversion

theorem execKvWalkRequest_range (hrange : walkRangeBad ((shareOf s c j.run.slot core).2 * 256) off (walkReq b) = true) :
    execKvWalkRequest core slot off s = .next (failJob s c .kvWalkRange) := by
  simp [execKvWalkRequest, hstage, withWords_clean, hbad, hsoft, hread, hversion, hrange]

variable (hrange : walkRangeBad ((shareOf s c j.run.slot core).2 * 256) off (walkReq b) = false) {x : Ctx}
  (hctx : tget? s.ctxs c = some x)
include hrange hctx

theorem execKvWalkRequest_noSeq (hnone : tget? x.seqs (walkReq b).seq = none) :
    execKvWalkRequest core slot off s = .next (failJob s c .kvWalkSeq) := by
  simp [execKvWalkRequest, hstage, withWords_clean, hbad, hsoft, hread, hversion, hrange, hctx, hnone]

variable {q : KvSeq} (hseq : tget? x.seqs (walkReq b).seq = some q)
include hseq

theorem execKvWalkRequest_outside (hout : walkSeqBad q.geom (walkReq b) = true) :
    execKvWalkRequest core slot off s = .next (failJob s c .kvWalkRange) := by
  simp [execKvWalkRequest, hstage, withWords_clean, hbad, hsoft, hread, hversion, hrange, hctx, hseq, hout]

theorem execKvWalkRequest_walks (hwithin : walkSeqBad q.geom (walkReq b) = false) {r : State × WalkEnd}
    (hr : r = if (walkReq b).write then walkWrite c j.run.slot core slot (walkReq b) q.geom (walkBlocks (walkReq b)) 0 s
      else walkRead c j.run.slot core slot (walkReq b) q.geom (walkBlocks (walkReq b)) 0 s) :
    execKvWalkRequest core slot off s = .next (walkStatus r.1 c j.run.slot core off r.2) := by
  simp [execKvWalkRequest, hstage, withWords_clean, hbad, hsoft, hread, hversion, hrange, hctx, hseq, hwithin, hr]

end

/-! ## A block of a read walk (R302) -/

/-- Noting a segment in the page-walk cache changes the cores alone. -/
theorem cachePte_frame (s : State) (core c q key : Nat) :
    cachePte s core c q key = { s with cores := (cachePte s core c q key).cores } := by
  unfold cachePte
  dsimp only
  split <;> rfl

/-- The descriptor that a read walk pushes for a block (R301). -/
def readEntry (s : State) (c slot : Nat) (w : WalkReq) (g : KvGeom) (i page : Nat) : CvEntry :=
  { body := some (readBody w (listFmt g w) page (((keyOf s c slot w.space w.win).map (fun k => (winAt s k).epoch)).getD 0) i),
    ctx := c, slot := slot, purpose := .walk w.seq (walkKey g w (w.first / 64 + i)) page none }

section
variable {c slot core stg n i : Nat} {w : WalkReq} {g : KvGeom} {x : Ctx} {q : KvSeq} {p : Pte} {s : State}
  (hctx : tget? s.ctxs c = some x) (hseq : tget? x.seqs w.seq = some q)
  (hpte : tget q.ptes {} (walkKey g w (w.first / 64 + i)) = p)
include hctx hseq hpte

theorem walkRead_missing (hpage : p.page = none) : (walkRead c slot core stg w g (n + 1) i s).2 =
    { result := if p.dropped then 1 else 2, missing := 64 * (w.first / 64 + i), blocks := i } := by
  simp [walkRead, hctx, hseq, hpte, hpage]

theorem walkRead_short {h : Nat} (hpage : p.page = some h) (hfill : p.fill < blockNeed w i) :
    (walkRead c slot core stg w g (n + 1) i s).2 =
      { result := 2, missing := 64 * (w.first / 64 + i) + p.fill, blocks := i } := by
  simp [walkRead, hctx, hseq, hpte, hpage, hfill]

theorem walkRead_issues {h : Nat} (hpage : p.page = some h) (hfill : blockNeed w i ≤ p.fill) :
    walkRead c slot core stg w g (n + 1) i s = walkRead c slot core stg w g n (i + 1)
      (cvPush (cachePte s core c w.seq (walkKey g w (w.first / 64 + i))) core stg (readEntry s c slot w g i h)) := by
  simp [walkRead, hctx, hseq, hpte, hpage, Nat.not_lt.mpr hfill, readEntry]

end

/-- Settles O21: each outcome of the fork, the free and the walk request by its lemma above; the pages that a free leaves by the
references its entries take. -/
theorem kvSequencesAndWalks : Obligations.KvSequencesAndWalks := by
  refine ⟨?_, ?_, ?_, ?_, ?_⟩
  · intro rq child parent pfx geom g ps x s hl hctx
    refine ⟨fun hused => answered_replyC (execKvSeqFork_inUse hctx hused) hl,
      fun hfree hparent hnone => answered_replyC (execKvSeqFork_noParent hctx hfree hparent hnone) hl,
      fun hfree hfrom => ⟨fun hgeom => answered_replyC (execKvSeqFork_geometry hctx hfree hfrom hgeom) hl, ?_⟩⟩
    rintro hchild hgeom hpfx hrefs hfits y b rfl hb hready
    exact ⟨answered_replyC (execKvSeqFork_made hctx hfree hfrom hchild hgeom hpfx hrefs hfits hb hready) hl,
      tget?_tset_self .., fun m hm => tget?_tset_ne _ _ _ _ hm, fun h => tget_addRefs ps h x.refs⟩
  · intro rq n x s hl hctx
    refine ⟨fun hnone => answered_replyC (execKvSeqFree_unknown hctx hnone) hl, fun q hseq =>
      ⟨fun hwalk => answered_replyC (execKvSeqFree_busy hctx hseq hwalk) hl, ?_⟩⟩
    rintro hwalk y t rfl ht hwork
    refine ⟨execKvSeqFree_freed hctx hseq hwalk ht hwork, ht ▸ replyC_replied _ _ _ _ _ _ hl, seqFreed s rq.ctx x n q,
      ?_, ?_, fun m hm => ?_, fun h hlive hnone => ⟨?_, ?_⟩,
      fun h hlive hone => ⟨fun hshared => ⟨?_, ?_⟩, fun hlast => ⟨?_, ?_, ?_⟩⟩⟩
    · rw [ht, replyC_ctxs]
      exact reapPages_setCtx s rq.ctx (seqDropped x n q)
    · rw [seqFreed_seqs, tget?_terase_self]
    · rw [seqFreed_seqs, tget?_terase_ne _ _ _ hm]
    · rw [tget_refs_seqFreed, namings, hnone, Nat.sub_zero]
    · exact seqFreed_referenced hlive (.inl hnone)
    · rw [tget_refs_seqFreed, namings, hone]
    · exact seqFreed_referenced hlive (.inr (by rw [namings, hone]; omega))
    · rw [tget_refs_seqFreed, namings, hone]
      omega
    · rintro ⟨htags, hwalks⟩
      exact seqFreed_freed (by rw [namings, hone]; omega) (by rwa [namings, hone]) htags hwalks
    · exact seqFreed_held (by rw [namings, hone]; omega) (by rwa [namings, hone])
  · intro core slot off c first len j u r s hstage hshare hin hscan
    refine execKvWalkRequest_error hstage ?_ ?_
    · rwa [hshare]
    · rwa [hshare]
  · intro core slot off c j b s hstage hbad hsoft hread
    refine ⟨execKvWalkRequest_version hstage hbad hsoft hread, execKvWalkRequest_range hstage hbad hsoft hread,
      fun hversion hrange x hctx => ⟨execKvWalkRequest_noSeq hstage hbad hsoft hread hversion hrange hctx, fun q hseq =>
        ⟨execKvWalkRequest_outside hstage hbad hsoft hread hversion hrange hctx hseq, fun hwithin r hr =>
          execKvWalkRequest_walks hstage hbad hsoft hread hversion hrange hctx hseq hwithin hr⟩⟩⟩
  · intro c slot core stg n i w g x q p s hctx hseq hpte
    exact ⟨walkRead_missing hctx hseq hpte, fun h hpage hfill => walkRead_short hctx hseq hpte hpage hfill,
      fun h hpage hfill => ⟨_, _, walkRead_issues hctx hseq hpte hpage hfill, rfl, rfl, cachePte_frame ..⟩⟩

end Sys2Proof.Machine

/-!
PROOFS. The streams of long convolution: the stream commands (R313, R316 to R319, R336, R540), the chunk requests and their
ends (R321 to R327), and the write-back of an anchor (R334, R335).
-/

namespace Sys2Proof.Machine

/-! ## What a context holds: its streams and its objects -/

/-- The streams and the objects of a context, none where there is no such context. -/
def holdings (s : State) (c : Nat) : Option (Tab Stream × Tab Obj) :=
  (tget? s.ctxs c).map (fun x => (x.streams, x.objs))

theorem holdings_of_ctxs {s t : State} (h : t.ctxs = s.ctxs) (c : Nat) : holdings t c = holdings s c := by
  rw [holdings, h, holdings]

/-- A context keeps its streams and objects in a state in which all holdings are the same. -/
theorem exists_of_holdings_eq {s t : State} {c : Nat} {x : Ctx} (h : holdings t c = holdings s c)
    (hctx : tget? s.ctxs c = some x) : ∃ y, tget? t.ctxs c = some y ∧ y.streams = x.streams ∧ y.objs = x.objs := by
  rw [holdings, holdings, hctx] at h
  obtain ⟨y, hy, heq⟩ := Option.map_eq_some_iff.mp h
  obtain ⟨hstreams, hobjs⟩ := Prod.mk.inj heq
  exact ⟨y, hy, hstreams, hobjs⟩

/-- A change of a context that changes neither its streams nor its objects keeps what every context holds. -/
theorem holdings_modCtx (s : State) (d c : Nat) {f : Ctx → Ctx} (hf : ∀ x, (f x).streams = x.streams ∧ (f x).objs = x.objs := by
    exact fun _ => ⟨rfl, rfl⟩) : holdings (modCtx s d f) c = holdings s c := by
  by_cases h : c = d
  · subst h
    rw [holdings, tget?_modCtx, Option.map_map, holdings]
    refine congrArg (Option.map · _) (funext fun x => ?_)
    obtain ⟨hstreams, hobjs⟩ := hf x
    rw [Function.comp_apply, hstreams, hobjs]
  · rw [holdings, tget?_modCtx_ne s d c f h, holdings]

@[simp] theorem holdings_setRam (s : State) (home : Nat) (r : Ram) (c : Nat) : holdings (setRam s home r) c = holdings s c :=
  holdings_of_ctxs (setRam_ctxs s home r) c

@[simp] theorem holdings_countBytes (s : State) (d src dst n c : Nat) : holdings (countBytes s d src dst n) c = holdings s c :=
  holdings_modCtx s d c

@[simp] theorem holdings_failJob (s : State) (d : Nat) (r : Reason) (c : Nat) : holdings (failJob s d r) c = holdings s c :=
  holdings_modCtx (clearWork s d) d c

@[simp] theorem eccScan_ctxs (s : State) (home : Nat) (runs : List (Nat × Nat)) : (eccScan s home runs).1.ctxs = s.ctxs := by
  unfold eccScan
  dsimp only
  split
  · split <;> rfl
  · rw [noteWord, emitDev_ctxs]
    split <;> rfl

/-- An access of a Deck share keeps what every context holds when what it goes on to does. -/
theorem holdings_withWords (s : State) (d slot core off n : Nat) {k : State → State} {c : Nat}
    (hk : ∀ t, holdings (k t) c = holdings t c) : holdings (withWords s d slot core off n k) c = holdings s c := by
  have hscan := holdings_of_ctxs (eccScan_ctxs s (physOf s core)
    (if off + n ≤ (shareOf s d slot core).2 * 256 then [((shareOf s d slot core).1 * 256 + off, n)] else [])) c
  unfold withWords
  dsimp only
  split
  · next heq => rw [holdings_failJob, ← hscan, heq]
  · next heq => rw [hk, ← hscan, heq]

@[simp] theorem holdings_deckWrite (s : State) (d slot core off : Nat) (bs : Bytes) (c : Nat) :
    holdings (deckWrite s d slot core off bs) c = holdings s c := by
  unfold deckWrite
  extract_lets sh put
  have hput : ∀ t, holdings (put t) c = holdings t c := by
    intro t
    unfold put
    split
    · exact holdings_setRam ..
    · rfl
  split
  · exact holdings_withWords s d slot core off bs.length hput
  · exact hput s

@[simp] theorem holdings_scanStatus (s : State) (core : Nat) (q : Chunk) (result steps c : Nat) :
    holdings (scanStatus s core q result steps) c = holdings s c := holdings_deckWrite ..

@[simp] theorem holdings_writeBack (s : State) (d : Nat) (x : Ctx) (o : Obj) (c : Nat) :
    holdings (writeBack s d x o).1 c = holdings s c := by
  unfold writeBack
  split
  · next u hu =>
    split
    · have htiles := holdings_of_ctxs (writeBackTiles_ctxs x o u (o.tilesM1 + 1) 0 s) c
      split
      · next hwrite => rw [hwrite] at htiles; exact (holdings_countBytes ..).trans htiles
      · exact htiles
    · rfl
  · rfl

/-! ## Reading a stream -/

theorem streamAt_some {x : Ctx} {i : Nat} {t : Stream} (h : tget? x.streams i = some t) : streamAt x i = t := by
  rw [tget?] at h
  rw [streamAt, tget, h, Option.getD_some]

theorem streamAt_of_streams {x y : Ctx} (h : y.streams = x.streams) (i : Nat) : streamAt y i = streamAt x i := by
  rw [streamAt, h, streamAt]

/-- A context with another stream in an entry. -/
def withStream (x : Ctx) (i : Nat) (t : Stream) : Ctx := { x with streams := tset x.streams i t }

@[simp] theorem streamAt_withStream (x : Ctx) (i : Nat) (t : Stream) : streamAt (withStream x i t) i = t :=
  tget_tset_self ..

@[simp] theorem tget?_withStream (x : Ctx) (i : Nat) (t : Stream) : tget? (withStream x i t).streams i = some t :=
  tget?_tset_self ..

theorem modStream_eq {s : State} {c : Nat} {x : Ctx} (hctx : tget? s.ctxs c = some x) (i : Nat) (f : Stream → Stream) :
    modStream s c i f = setCtx s c (withStream x i (f (streamAt x i))) := modCtx_eq_setCtx hctx _

/-! ## A stream whose state is written back (R335) -/

/-- The stream once the state of its NEXT_STEP is at home, whatever anchor was on its way. -/
def homed (t : Stream) : Stream := { t with homeStep := t.nextStep, anchor := none }

/-- A state that is written back is the home state of its own stream, and changes no other stream. -/
theorem saveUpper_stream {s v : State} {c h : Nat} {x : Ctx} {o : Obj} (hctx : tget? s.ctxs c = some x)
    (hsave : saveUpper s c h x o = (v, none)) (i : Nat) : ∃ y, tget? v.ctxs c = some y ∧
      (streamAt y i = streamAt x i ∨ streamAt y i = homed (streamAt x i)) := by
  have hback := holdings_writeBack s c x o c
  unfold saveUpper at hsave
  split at hsave
  · next u hu =>
    rw [hu] at hback
    obtain ⟨z, hz, hstreams, -⟩ := exists_of_holdings_eq hback hctx
    cases hsave
    refine ⟨_, by rw [tget?_modCtx, hz]; rfl, ?_⟩
    rw [← streamAt_of_streams hstreams i]
    dsimp only
    split
    · next k t hk =>
      split
      · by_cases hi : i = k
        · subst hi
          exact .inr (tget_tmod_self z.streams {} i homed rfl)
        · exact .inl (tget_tmod_ne _ _ _ _ _ hi)
      · exact .inl rfl
    · exact .inl rfl
  · next hne => exact absurd hsave (hne v)

/-- A state that is released leaves the tier, and is the home state of its own stream alone. -/
theorem releaseUpper_stream {s u : State} {c h : Nat} {x : Ctx} {o : Obj} (hctx : tget? s.ctxs c = some x)
    (hrelease : releaseUpper s c h o = (u, none)) (i : Nat) : ∃ y, tget? u.ctxs c = some y ∧
      tget? y.objs h = some { o with upper := none, dirty := false } ∧
      (streamAt y i = streamAt x i ∨ streamAt y i = homed (streamAt x i)) := by
  unfold releaseUpper at hrelease
  rw [hctx] at hrelease
  dsimp only at hrelease
  split at hrelease
  · next v hv =>
    obtain ⟨y, hy, hstream⟩ := saveUpper_stream hctx hv i
    cases hrelease
    refine ⟨{ y with objs := tset y.objs h { o with upper := none, dirty := false } }, ?_, tget?_tset_self .., hstream⟩
    rw [tget?_modCtx, hy, Option.map_some]
  · next hne => exact absurd hrelease (hne u)

/-! ## The storage of an object's home -/

theorem setRam_frame (s : State) (home : Nat) (r : Ram) :
    setRam s home r = { s with decks := (setRam s home r).decks, span := (setRam s home r).span } := by
  unfold setRam
  split <;> rfl

theorem extWrite_frame (s : State) (tier key : Nat) (sealed : Bool) (addr : Nat) (bs : Bytes) :
    extWrite s tier key sealed addr bs = { s with
      t3 := (extWrite s tier key sealed addr bs).t3, t4 := (extWrite s tier key sealed addr bs).t4,
      ddr := (extWrite s tier key sealed addr bs).ddr } := by
  unfold extWrite
  split
  · rfl
  · exact setExt_frame ..

theorem homeWrite_frame (s : State) (x : Ctx) (o : Obj) (off : Nat) (bs : Bytes) :
    homeWrite s x o off bs = { s with
      t3 := (homeWrite s x o off bs).t3, t4 := (homeWrite s x o off bs).t4, ddr := (homeWrite s x o off bs).ddr,
      decks := (homeWrite s x o off bs).decks, span := (homeWrite s x o off bs).span } := by
  unfold homeWrite
  split
  · rw [extWrite_frame]
  · dsimp only
    rw [setRam_frame]

/-- Creating an object leaves every context standing as it did. -/
theorem standing_allocObj (s : State) (d : Nat) (o : Obj) (loc c : Nat) :
    standing (allocObj s d o loc).1 c = standing s c := by
  unfold allocObj
  split
  · rfl
  · split
    · rfl
    · split
      · split
        · rfl
        · exact standing_modCtx s d c
      · dsimp only
        split
        · rfl
        · split
          · next hroom => exact standing_of_makeRoom hroom c
          · next u hroom =>
            have hstands := standing_of_makeRoom hroom c
            split
            · exact hstands
            · split
              · refine (standing_of_ctxs (setExt_ctxs ..) c).trans ?_
                exact (standing_modCtx _ d c).trans hstands
              · refine (standing_countBytes ..).trans ((standing_of_ctxs (extFill_ctxs ..) c).trans ?_)
                exact (standing_modCtx _ d c).trans hstands

/-! ## The checks of a stream command (R313, R318, R319) -/

theorem nextGen_ne_zero (x : Ctx) : nextGen x ≠ 0 := by
  unfold nextGen
  split
  · exact one_ne_zero
  · next h => exact h

/-- The reply of a stream command gives the generation and NEXT_STEP of its stream (R540). -/
theorem streamReply_eq {s : State} {rq : Req} {y : Ctx} (hctx : tget? s.ctxs rq.ctx = some y) (op i : Nat) :
    streamReply s rq op i = replyC s rq op .ok .none
      (leBytes 4 (streamAt y i).gen ++ [0, 0, 0, 0] ++ leBytes 8 (streamAt y i).nextStep) := by
  rw [streamReply, hctx]
  rfl

theorem leBytes_zero (w : Nat) : leBytes w 0 = zeros w := by
  induction w with
  | zero => rfl
  | succ w ih => rw [leBytes, Nat.zero_div, ih]; rfl

/-- The reply of a command that leaves its stream at step 0. -/
theorem streamReply_begun {s : State} {rq : Req} {y : Ctx} {t : Stream} {i : Nat} (hctx : tget? s.ctxs rq.ctx = some y)
    (hstream : streamAt y i = t) (hstep : t.nextStep = 0) (op : Nat) : streamReply s rq op i =
      replyC s rq op .ok .none (leBytes 4 t.gen ++ [0, 0, 0, 0] ++ [0, 0, 0, 0, 0, 0, 0, 0]) := by
  rw [streamReply_eq hctx, hstream, hstep, leBytes_zero]
  rfl

section
variable {rq : Req} {i op : Nat} {x : Ctx} {s : State} {cmd : Instr} (hctx : liveCtx s rq.ctx = some x)
  (hexec : exec cmd s = .next (onStream s rq op i cmd))
include hctx hexec

theorem streamCommand_noIndex (hl : Live rq s) (hquota : x.quotas.streams ≤ i) :
    Answered cmd s rq op rq.ctx .noQuota .streamIndex [] s := by
  refine answered_replyC (hexec.trans (congrArg _ ?_)) hl
  rw [onStream, onCtx_some hctx, if_pos hquota]

variable (hquota : i < x.quotas.streams)
include hquota

theorem streamCommand_waits (hruns : chunkRuns s rq.ctx i = true) :
    exec cmd s = .next (setCtx s rq.ctx { x with streamCmds := x.streamCmds ++ [cmd] }) := by
  rw [hexec, onStream, onCtx_some hctx, if_neg (Nat.not_le.mpr hquota), if_pos hruns]

variable (hidle : chunkRuns s rq.ctx i = false) {k : Ctx → State} (hgate : runStreamCmd s cmd = gateStream s rq op cmd k)
include hidle hgate

theorem streamCommand_gated : exec cmd s = .next (gateStream s rq op cmd k) := by
  rw [hexec, onStream, onCtx_some hctx, if_neg (Nat.not_le.mpr hquota), if_neg (by simp [hidle]), hgate]

theorem streamCommand_refused (hl : Live rq s) {r : Reason} (hrefusal : streamRefusal x cmd = some r) :
    Answered cmd s rq op rq.ctx .refused r [] s := by
  refine answered_replyC ?_ hl
  rw [streamCommand_gated hctx hexec hquota hidle hgate, gateStream, onCtx_some hctx, hrefusal]

theorem streamCommand_allowed (hrefusal : streamRefusal x cmd = none) : exec cmd s = .next (k x) := by
  rw [streamCommand_gated hctx hexec hquota hidle hgate, gateStream, onCtx_some hctx, hrefusal]

end

/-! ## The effect of a stream command that its stream's state allows (R316 to R318, R336) -/

/-- The stream that OPEN in mode NEW makes. -/
def openedStream (g : StreamArgs) (gen h : Nat) : Stream :=
  { state := .opened, anchored := !bit g.options 0, aConst := bit g.options 1, pinned := bit g.options 2,
    homeCore := g.homeCore, gen := gen, channels := g.channels, handle := h }

/-- The records of a state object that has its handle are written at its home (R317). -/
def recordsWritten (u : State) (y : Ctx) (h : Nat) (recs : Bytes) : State :=
  match tget? y.objs h with
  | some o => homeWrite u y o 0 recs
  | none => u

theorem recordsWritten_ctxs (u : State) (y : Ctx) (h : Nat) (recs : Bytes) : (recordsWritten u y h recs).ctxs = u.ctxs := by
  unfold recordsWritten
  split
  · exact homeWrite_ctxs ..
  · rfl

/-- The state in which the records of the state object are written and its stream is OPEN, before the reply. -/
def streamOpened (u : State) (c : Nat) (g : StreamArgs) (y : Ctx) (h : Nat) : State :=
  modCtx (recordsWritten u y h (freshRecords g.channels none)) c (fun z =>
    { z with streams := tset z.streams g.index (openedStream g (nextGen y) h), genCtr := nextGen z })

theorem tget?_streamOpened {u : State} {c : Nat} {y : Ctx} (hctx : tget? u.ctxs c = some y) (g : StreamArgs) (h : Nat) :
    tget? (streamOpened u c g y h).ctxs c =
      some (withStream { y with genCtr := nextGen y } g.index (openedStream g (nextGen y) h)) := by
  rw [streamOpened, tget?_modCtx, recordsWritten_ctxs, hctx]
  rfl

theorem openNew_eq {s u : State} {rq : Req} {g : StreamArgs} {y : Ctx} {h : Nat} (x : Ctx) (hvalues : bit g.options 1 = false)
    (halloc : allocObj s rq.ctx (stateObj g) 0 = (u, .ok h)) (hctx : tget? u.ctxs rq.ctx = some y) :
    openNew s rq g x = streamReply (streamOpened u rq.ctx g y h) rq 0x0140 g.index := by
  simp only [openNew, streamOpened, openedStream, hvalues, Bool.false_eq_true, if_false, halloc, hctx]
  rfl

/-- OPEN in mode NEW, its state object created, makes the stream at step 0 of a new generation. -/
theorem openNew_opens {s u : State} {rq : Req} {g : StreamArgs} {x : Ctx} {h : Nat} (hvalues : bit g.options 1 = false)
    (halloc : allocObj s rq.ctx (stateObj g) 0 = (u, .ok h)) (hctx : tget? s.ctxs rq.ctx = some x) :
    ∃ v y gen, openNew s rq g x = replyC v rq 0x0140 .ok .none
        (leBytes 4 gen ++ [0, 0, 0, 0] ++ [0, 0, 0, 0, 0, 0, 0, 0]) ∧
      tget? v.ctxs rq.ctx = some y ∧ gen ≠ 0 ∧ streamAt y g.index = openedStream g gen h := by
  have hstands := standing_allocObj s rq.ctx (stateObj g) 0 rq.ctx
  rw [halloc] at hstands
  obtain ⟨y, hy, -⟩ := exists_of_standing_eq hstands hctx
  have hopened := tget?_streamOpened hy g h
  refine ⟨streamOpened u rq.ctx g y h, _, nextGen y, ?_, hopened, nextGen_ne_zero y, streamAt_withStream ..⟩
  rw [openNew_eq x hvalues halloc hy, streamReply_begun hopened (streamAt_withStream ..) rfl]
  rfl

/-- A stream that pauses is at home (R318). -/
def pausedStream (t : Stream) : Stream := { homed t with state := .paused }

/-- The stream that RESET leaves: a new generation at step 0 (R318, R336). -/
def resetStream (t : Stream) (gen : Nat) : Stream :=
  { t with gen := gen, reset := true, nextStep := 0, homeStep := 0, anchor := none }

/-- The context once the stream is reset and its state object has no copy above its home. -/
def resetCtx (x : Ctx) (i : Nat) (t : Stream) (o : Obj) : Ctx :=
  withStream { x with objs := tset x.objs t.handle { o with upper := none, dirty := false }, genCtr := nextGen x } i
    (resetStream t (nextGen x))

theorem streamAt_resetCtx (x : Ctx) (i : Nat) (t : Stream) (o : Obj) :
    streamAt (resetCtx x i t o) i = resetStream t (nextGen x) := streamAt_withStream ..

section
variable {s : State} {rq : Req} {i : Nat} {x : Ctx} {t : Stream} (hstream : streamAt x i = t)
include hstream

/-- The entry of a stream that ends is zero, and its state object is gone (R318). -/
theorem closeEnd_ends : ∃ y, closeEnd s rq i x = replyC (setCtx s rq.ctx y) rq 0x0141 .ok .none (List.replicate 16 0) ∧
    streamAt y i = {} ∧ tget? y.objs t.handle = none ∧ ∀ n, n ≠ i → streamAt y n = streamAt x n := by
  have hreply : ∀ z : Ctx, streamReply (setCtx s rq.ctx { z with streams := terase z.streams i }) rq 0x0141 i =
      replyC (setCtx s rq.ctx { z with streams := terase z.streams i }) rq 0x0141 .ok .none (List.replicate 16 0) := by
    intro z
    rw [streamReply_eq (tget?_setCtx ..), streamAt, tget_terase_self]
    rfl
  cases hobj : tget? x.objs t.handle with
  | none =>
    refine ⟨{ x with streams := terase x.streams i }, ?_, tget_terase_self .., hobj, fun n hn => tget_terase_ne _ _ _ _ hn⟩
    rw [← hreply]
    simp only [closeEnd, hstream, hobj]
  | some o =>
    have hstreams : (freeObj x t.handle o).streams = x.streams := by rw [freeObj_frame]
    refine ⟨{ freeObj x t.handle o with streams := terase (freeObj x t.handle o).streams i }, ?_, tget_terase_self .., ?_,
      fun n hn => ?_⟩
    · rw [← hreply]
      simp only [closeEnd, hstream, hobj]
    · exact (congrArg (tget? · _) (freeObj_objs ..)).trans (tget?_terase_self ..)
    · exact (tget_terase_ne _ _ _ _ hn).trans (streamAt_of_streams hstreams n)

variable (hctx : tget? s.ctxs rq.ctx = some x)
include hctx

/-- A stream command that ends in a change of its stream answers what the stream then holds. -/
theorem streamReply_modStream (op : Nat) (f : Stream → Stream) : streamReply (modStream s rq.ctx i f) rq op i =
    replyC (setCtx s rq.ctx (withStream x i (f t))) rq op .ok .none
      (leBytes 4 (f t).gen ++ [0, 0, 0, 0] ++ leBytes 8 (f t).nextStep) := by
  rw [modStream_eq hctx, hstream, streamReply_eq (tget?_setCtx ..), streamAt_withStream]

theorem openResume_resumes {g : StreamArgs} (hindex : g.index = i) : openResume s rq g =
    replyC (modCtx s rq.ctx (fun y => { y with streams := tset y.streams i { t with state := .opened } })) rq 0x0140 .ok .none
      (leBytes 4 t.gen ++ [0, 0, 0, 0] ++ leBytes 8 t.nextStep) := by
  rw [openResume, hindex, streamReply_modStream hstream hctx, modCtx_eq_setCtx hctx]
  rfl

/-- A stream pauses alike whether its state has been written back or was at home already. -/
theorem closePause_pauses
    (hsaved : ∀ o, tget? x.objs t.handle = some o → (releaseUpper s rq.ctx t.handle o).2 = none) :
    ∃ v y, closePause s rq i x =
        replyC v rq 0x0141 .ok .none (leBytes 4 t.gen ++ [0, 0, 0, 0] ++ leBytes 8 t.nextStep) ∧
      tget? v.ctxs rq.ctx = some y ∧ streamAt y i = pausedStream t ∧
      ∀ o, tget? x.objs t.handle = some o → tget? y.objs t.handle = some { o with upper := none, dirty := false } := by
  cases hobj : tget? x.objs t.handle with
  | none =>
    refine ⟨setCtx s rq.ctx _, _, ?_, tget?_setCtx .., streamAt_withStream x .., fun o ho => nomatch ho⟩
    simp only [closePause, hstream, hobj]
    exact streamReply_modStream hstream hctx 0x0141 pausedStream
  | some o =>
    obtain ⟨u, hrelease⟩ : ∃ u, releaseUpper s rq.ctx t.handle o = (u, none) := ⟨_, Prod.ext rfl (hsaved o hobj)⟩
    obtain ⟨z, hz, hout, hwas⟩ := releaseUpper_stream hctx hrelease i
    have hpaused : pausedStream (streamAt z i) = pausedStream t := by
      rw [hstream] at hwas
      obtain h | h := hwas
      · rw [h]
      · rw [h]; rfl
    have hreply := streamReply_modStream (i := i) rfl hz 0x0141 pausedStream
    rw [hpaused] at hreply
    refine ⟨setCtx u rq.ctx _, _, ?_, tget?_setCtx .., streamAt_withStream z .., fun p hp => ?_⟩
    · simp only [closePause, hstream, hobj, hrelease]
      exact hreply
    · cases hp
      exact hout

theorem streamResetBody_resets {o : Obj} {recs : Bytes} (hobj : tget? x.objs t.handle = some o)
    (hread : homeRead s x o 0 (16 * t.channels) = .ok recs) :
    ∃ v y, streamResetBody s rq i x =
        replyC v rq 0x0142 .ok .none (leBytes 4 (nextGen x) ++ [0, 0, 0, 0] ++ [0, 0, 0, 0, 0, 0, 0, 0]) ∧
      tget? v.ctxs rq.ctx = some y ∧ streamAt y i = resetStream t (nextGen x) ∧
      v = { s with ctxs := v.ctxs, t3 := v.t3, t4 := v.t4, ddr := v.ddr, decks := v.decks, span := v.span } := by
  have hwritten : tget? (homeWrite s x o 0 (zeroCarry recs t.channels)).ctxs rq.ctx = some x := by rwa [homeWrite_ctxs]
  refine ⟨setCtx (homeWrite s x o 0 (zeroCarry recs t.channels)) rq.ctx (resetCtx x i t o), _, ?_, tget?_setCtx ..,
    streamAt_resetCtx .., ?_⟩
  · simp only [streamResetBody, hstream, hobj, hread, modCtx_eq_setCtx hwritten]
    exact streamReply_begun (tget?_setCtx ..) (streamAt_resetCtx x i t o) rfl 0x0142
  · rw [homeWrite_frame]
    rfl

end

/-! ## A chunk request (R321 to R323) -/

/-- A chunk joins the list of the routine on its core. -/
def chunkJoined (s : State) (core : Nat) (q : Chunk) : State :=
  setCore s (physOf s core) { coreOf s (physOf s core) with chunks := (coreOf s (physOf s core)).chunks ++ [q] }

section
variable {core slot off c : Nat} {j : Job} {s : State} (hstage : stageRunning s core slot = some (c, j))
include hstage

/-- A slot that has a chunk hands in no second one. -/
theorem execScanChunkRequest_again (hhas : (coreOf s (physOf s core)).chunks.any (fun q => q.slot == slot) = true) :
    execScanChunkRequest core slot off s = .next s := by
  rw [execScanChunkRequest, hstage]
  exact congrArg _ (if_pos hhas)

variable {b : Bytes} {x : Ctx} (hfree : (coreOf s (physOf s core)).chunks.any (fun q => q.slot == slot) = false)
  (hbad : (ramOf s (physOf s core)).bad = []) (hsoft : (ramOf s (physOf s core)).soft = [])
  (hread : deckRead s c j.run.slot core off 64 = some b) (hctx : tget? s.ctxs c = some x)
include hfree hbad hsoft hread hctx

variable {t : Stream} (hstream : streamAt x (scanReq b).index = t)
include hstream

/-- A request in words without errors is judged by its version, its ranges and its stream, in this order (R323 steps 1, 2). -/
theorem execScanChunkRequest_judged : execScanChunkRequest core slot off s = .next (
    if scanVersionBad b then failJob s c .scanVersion
    else if scanRangeBad ((shareOf s c j.run.slot core).2 * 256) off t.channels t.aConst (scanReq b) then
      failJob s c .scanRange
    else if x.quotas.streams ≤ (scanReq b).index ∨ (t.state ≠ .free ∧ t.homeCore ≠ core) then failJob s c .scanHome
    else serveChunks (chunkJoined s core
      { slot := slot, ctx := c, img := j.run.slot, off := off, index := (scanReq b).index }) core c (scanReq b).index) := by
  simp only [execScanChunkRequest, hstage, hfree, Bool.false_eq_true, if_false, withWords_clean _ _ _ _ _ _ _ hbad hsoft, hread,
    hctx, hstream, chunkJoined]

theorem execScanChunkRequest_version (hversion : scanVersionBad b = true) :
    execScanChunkRequest core slot off s = .next (failJob s c .scanVersion) := by
  rw [execScanChunkRequest_judged hstage hfree hbad hsoft hread hctx hstream, if_pos hversion]

variable (hversion : scanVersionBad b = false)
include hversion

theorem execScanChunkRequest_range
    (hrange : scanRangeBad ((shareOf s c j.run.slot core).2 * 256) off t.channels t.aConst (scanReq b) = true) :
    execScanChunkRequest core slot off s = .next (failJob s c .scanRange) := by
  rw [execScanChunkRequest_judged hstage hfree hbad hsoft hread hctx hstream, if_neg (ne_true_of_eq_false hversion),
    if_pos hrange]

variable (hrange : scanRangeBad ((shareOf s c j.run.slot core).2 * 256) off t.channels t.aConst (scanReq b) = false)
include hrange

theorem execScanChunkRequest_home
    (hhome : x.quotas.streams ≤ (scanReq b).index ∨ (t.state ≠ .free ∧ t.homeCore ≠ core)) :
    execScanChunkRequest core slot off s = .next (failJob s c .scanHome) := by
  rw [execScanChunkRequest_judged hstage hfree hbad hsoft hread hctx hstream, if_neg (ne_true_of_eq_false hversion),
    if_neg (ne_true_of_eq_false hrange), if_pos hhome]

theorem execScanChunkRequest_joins (hquota : (scanReq b).index < x.quotas.streams)
    (hhome : t.state = .free ∨ t.homeCore = core) :
    execScanChunkRequest core slot off s = .next (serveChunks (chunkJoined s core
      { slot := slot, ctx := c, img := j.run.slot, off := off, index := (scanReq b).index }) core c (scanReq b).index) := by
  have hpasses : ¬ (x.quotas.streams ≤ (scanReq b).index ∨ (t.state ≠ .free ∧ t.homeCore ≠ core)) := by
    rintro (hbeyond | ⟨hstate, hcore⟩)
    · exact absurd hquota (Nat.not_lt.mpr hbeyond)
    · exact hhome.elim hstate hcore
  rw [execScanChunkRequest_judged hstage hfree hbad hsoft hread hctx hstream, if_neg (ne_true_of_eq_false hversion),
    if_neg (ne_true_of_eq_false hrange), if_neg hpasses]

end

/-! ## A chunk that its stream's state ends (R327) -/

section
variable {core : Nat} {q : Chunk} {x : Ctx} {b : Bytes} {s : State} (hctx : tget? s.ctxs q.ctx = some x)
  (hread : deckRead s q.ctx q.img core q.off 64 = some b)
include hctx hread

theorem startChunk_free (hstate : (streamAt x q.index).state = .free) :
    startChunk s core q = dropChunk (scanStatus s core q 4 0) core q := by
  simp only [startChunk, hctx, hread, hstate, if_true]

theorem startChunk_paused (hstate : (streamAt x q.index).state = .paused) :
    startChunk s core q = dropChunk (scanStatus s core q 3 0) core q := by
  simp [startChunk, hctx, hread, hstate]

end

/-! ## The write-back of an anchor (R334, R335) -/

/-- A stream whose anchor has landed. -/
def anchorLanded (t : Stream) (step : Nat) : Stream := { t with homeStep := step, anchor := none }

section
variable {s : State} {c i : Nat} {x : Ctx} {t : Stream} (hctx : tget? s.ctxs c = some x) (hstream : streamAt x i = t)
include hctx hstream

theorem landAnchor_none (hnone : t.anchor = none) : landAnchor s c i = s := by
  simp only [landAnchor, hctx, hstream, hnone]

variable {step : Nat} {recs : Bytes} {o : Obj} (hanchor : t.anchor = some (step, recs))
  (hobj : tget? x.objs t.handle = some o)
include hanchor hobj

theorem landAnchor_eq : landAnchor s c i = modStream (countBytes (homeWrite s x o 0 recs) c 1 3 (storedBytes o)) c i
    (fun u => anchorLanded u step) := by
  simp only [landAnchor, anchorLanded, hctx, hstream, hanchor, hobj]

theorem landAnchor_lands : ∃ y, tget? (landAnchor s c i).ctxs c = some (withStream y i (anchorLanded t step)) ∧
    y.objs = x.objs := by
  have hwritten : tget? (homeWrite s x o 0 recs).ctxs c = some x := by rwa [homeWrite_ctxs]
  obtain ⟨y, hy, hstreams, hobjs⟩ := exists_of_holdings_eq (holdings_countBytes _ c 1 3 (storedBytes o) c) hwritten
  rw [landAnchor_eq hctx hstream hanchor hobj, modStream_eq hy, streamAt_of_streams hstreams, hstream]
  exact ⟨y, tget?_setCtx .., hobjs⟩

theorem landAnchor_home : (landAnchor s c i).t3 = (homeWrite s x o 0 recs).t3 ∧
    (landAnchor s c i).t4 = (homeWrite s x o 0 recs).t4 := by
  rw [landAnchor_eq hctx hstream hanchor hobj]
  exact ⟨rfl, rfl⟩

theorem landAnchor_frame : ∀ v, v = landAnchor s c i → v = { s with
    ctxs := v.ctxs, draws := v.draws, t3 := v.t3, t4 := v.t4, ddr := v.ddr, decks := v.decks, span := v.span } := by
  rintro v rfl
  rw [landAnchor_eq hctx hstream hanchor hobj, homeWrite_frame]
  rfl

end

/-! ## A scanned chunk (R323 to R326, R334) -/

/-- Landing whatever anchor a listed stream has leaves the stream listed, with its generation. -/
theorem landAnchor_keeps {s : State} {c i : Nat} {x : Ctx} {t : Stream} {o : Obj} (hctx : tget? s.ctxs c = some x)
    (hstream : tget? x.streams i = some t) (hobj : tget? x.objs t.handle = some o) :
    ∃ y v, tget? (landAnchor s c i).ctxs c = some y ∧ tget? y.streams i = some v ∧ v.gen = t.gen := by
  cases hanchor : t.anchor with
  | none => exact ⟨x, t, by rwa [landAnchor_none hctx (streamAt_some hstream) hanchor], hstream, rfl⟩
  | some a =>
    obtain ⟨y, hy, -⟩ := landAnchor_lands hctx (streamAt_some hstream) hanchor hobj
    exact ⟨_, _, hy, tget?_withStream .., rfl⟩

/-- A scanned chunk advances its stream, and its state's copy is newer than the home. -/
theorem scanWrite_advances {s : State} {core : Nat} {q : Chunk} {x : Ctx} {t : Stream} {o : Obj}
    (hctx : tget? s.ctxs q.ctx = some x) (hstream : tget? x.streams q.index = some t) (hobj : tget? x.objs t.handle = some o)
    (w : Upper) (r : ScanReq) : ∃ y v, tget? (scanWrite s core q t w o r).ctxs q.ctx = some y ∧
      tget? y.streams q.index = some v ∧ v.nextStep = r.first + r.count ∧ v.reset = false ∧ v.gen = t.gen ∧
      tget? y.objs t.handle = some { o with dirty := true } := by
  unfold scanWrite
  extract_lets sh share recs outs s1 s2 passed s3 at_
  have hwritten : holdings s2 q.ctx = holdings s q.ctx :=
    (holdings_setRam ..).trans (foldl_keeps (holdings · q.ctx) _ (fun a n =>
      foldl_keeps (holdings · q.ctx) _ (fun b k => holdings_deckWrite ..) _ a) _ s)
  obtain ⟨z, hz, hstreams, hobjs⟩ := exists_of_holdings_eq hwritten hctx
  rw [← hstreams] at hstream
  rw [← hobjs] at hobj
  obtain ⟨y, v, hy, hv, hgen⟩ : ∃ y v, tget? s3.ctxs q.ctx = some y ∧ tget? y.streams q.index = some v ∧ v.gen = t.gen := by
    unfold s3
    split
    · exact landAnchor_keeps hz hstream hobj
    · exact ⟨z, t, hz, hstream, rfl⟩
  rw [tget?_modCtx, hy]
  exact ⟨_, _, rfl, (tget?_tmod_self ..).trans (congrArg (Option.map _) hv), rfl, rfl, hgen, tget?_tset_self ..⟩

/-- A chunk whose words are without errors is written, and its entry told (R323 step 8). -/
theorem execScanChunkComplete_scanned {core slot : Nat} {q : Chunk} {x : Ctx} {t : Stream} {b : Bytes} {o : Obj} {w : Upper}
    {s : State} (hchunk : (coreOf s (physOf s core)).chunks.find? (fun k => k.slot == slot && k.running) = some q)
    (hctx : tget? s.ctxs q.ctx = some x) (hread : deckRead s q.ctx q.img core q.off 64 = some b)
    (hstream : streamAt x q.index = t) (hobj : tget? x.objs t.handle = some o) (hupper : o.upper = some w)
    (hbad : (ramOf s (physOf s core)).bad = []) (hsoft : (ramOf s (physOf s core)).soft = []) :
    execScanChunkComplete core slot s = .next (settle (serveChunks (releaseCmds (dropChunk
      (scanStatus (scanWrite s core q t w o (scanReq b)) core q 0 (scanReq b).count) core q) q.ctx q.index) core q.ctx q.index)
      q.ctx) := by
  simp only [execScanChunkComplete, hchunk, hctx, hread, hstream, hobj, hupper, eccScan_clean s _ _ hbad hsoft]

/-! ## The statements -/

/-- Settles O22: each command by its checks, which are those of `onStream` and `gateStream`, and by its effect above. -/
theorem streamCommands : Obligations.StreamCommands := by
  refine ⟨?_, ?_⟩
  · rintro rq i g x s hl hctx rfl
    simp only [List.forall_mem_cons, List.not_mem_nil, false_implies, implies_true, and_true]
    have hlimits : ∀ {cmd : Instr} {op : Nat}, exec cmd s = .next (onStream s rq op g.index cmd) →
        (x.quotas.streams ≤ g.index → Answered cmd s rq op rq.ctx .noQuota .streamIndex [] s) ∧
        (g.index < x.quotas.streams → chunkRuns s rq.ctx g.index = true →
          exec cmd s = .next (setCtx s rq.ctx { x with streamCmds := x.streamCmds ++ [cmd] })) := fun hexec =>
      ⟨streamCommand_noIndex hctx hexec hl, streamCommand_waits hctx hexec⟩
    exact ⟨hlimits rfl, hlimits rfl, hlimits rfl, hlimits rfl, hlimits rfl⟩
  · rintro rq i g x t s hl hctx hquota hidle hstream rfl
    have hself := (liveCtx_some hctx).1
    refine ⟨fun hst => streamCommand_refused hctx rfl hquota hidle rfl hl (if_pos (hstream ▸ hst)),
      fun hst => streamCommand_refused hctx rfl hquota hidle rfl hl (if_pos (hstream ▸ hst)),
      fun hst => streamCommand_refused hctx rfl hquota hidle rfl hl (if_pos (hstream ▸ hst)),
      fun hst => streamCommand_refused hctx rfl hquota hidle rfl hl (if_pos (hstream ▸ hst)),
      fun hst => streamCommand_refused hctx rfl hquota hidle rfl hl (if_pos (hstream ▸ hst)),
      ?_, fun hst => ?_, ?_, ?_, ?_⟩
    · intro u h hst hgeom hvalues halloc hready
      obtain ⟨v, y, gen, hopens, hy, hgen, hopened⟩ := openNew_opens hvalues halloc hself
      have hexec := streamCommand_allowed hctx (cmd := .streamOpenNew rq g) rfl hquota hidle rfl
        ((if_neg (not_not_intro (hstream ▸ hst))).trans (if_neg (ne_true_of_eq_false hgeom)))
      rw [onFirmware_ready hready, hopens] at hexec
      refine ⟨v, y, gen, hexec, hy, hgen, ?_⟩
      rw [hopened]
      exact ⟨rfl, rfl, rfl, rfl, rfl, rfl, rfl⟩
    · have hexec := streamCommand_allowed hctx (cmd := .streamOpenResume rq g) rfl hquota hidle rfl
        (if_neg (not_not_intro (hstream ▸ hst)))
      rw [openResume_resumes hstream hself rfl] at hexec
      exact answered_replyC hexec hl
    · intro hst hsaved hready
      obtain ⟨v, y, hpauses, hrest⟩ := closePause_pauses hstream hself hsaved
      have hexec := streamCommand_allowed hctx (cmd := .streamClosePause rq g.index) rfl hquota hidle rfl
        (if_neg (not_not_intro (hstream ▸ hst)))
      rw [onFirmware_ready hready, hpauses] at hexec
      exact ⟨v, y, hexec, hrest⟩
    · rintro hst w hw hwork
      obtain ⟨y, hends, hentry⟩ := closeEnd_ends (s := s) (rq := rq) hstream
      have hexec := streamCommand_allowed hctx (cmd := .streamCloseEnd rq g.index) rfl hquota hidle rfl
        (if_neg (hstream ▸ hst))
      rw [← hw, onFirmware, if_pos hwork] at hexec
      rw [hends] at hw
      refine ⟨hexec, hw ▸ replyC_replied _ _ _ _ _ _ hl, y, ?_, hw ▸ replyAs_only .., hentry⟩
      rw [hw, replyC_ctxs, tget?_setCtx]
    · intro hst o recs hobj hread hready
      obtain ⟨v, y, hresets, hrest⟩ := streamResetBody_resets hstream hself hobj hread
      have hexec := streamCommand_allowed hctx (cmd := .streamReset rq g.index) rfl hquota hidle rfl
        (if_neg (hstream ▸ hst))
      rw [onFirmware_ready hready, hresets] at hexec
      exact ⟨v, y, hexec, hrest⟩

/-- Settles O23: the checks of a request in their order, the states that end a chunk, and what a scanned chunk and an anchor
leave of the stream. -/
theorem chunksAndAnchors : Obligations.ChunksAndAnchors := by
  refine ⟨?_, ?_, ?_, ?_⟩
  · intro core slot off c j b x s hstage
    refine ⟨execScanChunkRequest_again hstage, ?_⟩
    rintro hfree hbad hsoft hread hctx r t rfl rfl
    refine ⟨execScanChunkRequest_version hstage hfree hbad hsoft hread hctx rfl, fun hversion =>
      ⟨execScanChunkRequest_range hstage hfree hbad hsoft hread hctx rfl hversion, fun hrange =>
        ⟨execScanChunkRequest_home hstage hfree hbad hsoft hread hctx rfl hversion hrange, ?_⟩⟩⟩
    rintro hquota hhome k rfl
    exact execScanChunkRequest_joins hstage hfree hbad hsoft hread hctx rfl hversion hrange hquota hhome
  · intro core q x b s hctx hread
    exact ⟨startChunk_free hctx hread, startChunk_paused hctx hread⟩
  · intro core slot q x t b o w s hchunk hctx hread hstream hobj hupper hbad hsoft
    obtain ⟨z, v, hz, hv, hnext, hreset, hgen, hdirty⟩ := scanWrite_advances (core := core) hctx hstream hobj w (scanReq b)
    obtain ⟨y, hy, hstreams, hobjs⟩ := exists_of_holdings_eq (holdings_scanStatus _ core q 0 (scanReq b).count q.ctx) hz
    exact ⟨_, y, v, _, execScanChunkComplete_scanned hchunk hctx hread (streamAt_some hstream) hobj hupper hbad hsoft, hy,
      by rw [hstreams, hv], hnext, hreset, hgen, by rw [hobjs, hdirty], rfl⟩
  · intro c i step recs x t o s hctx hstream
    refine ⟨fun hnone => congrArg _ (landAnchor_none hctx hstream hnone), fun hanchor hobj => ?_⟩
    obtain ⟨y, hy, hobjs⟩ := landAnchor_lands hctx hstream hanchor hobj
    obtain ⟨ht3, ht4⟩ := landAnchor_home hctx hstream hanchor hobj
    exact ⟨landAnchor s c i, _, rfl, hy, streamAt_withStream .., hobjs, ht3, ht4,
      landAnchor_frame hctx hstream hanchor hobj _ rfl⟩

end Sys2Proof.Machine

/-!
PROOFS. IMAGE_LOAD and IMAGE_UNLOAD (R347, R348, R354 to R356, R359, R360, R538).
-/

namespace Sys2Proof.Machine

/-! ## The grant of an image (R354) -/

@[simp] theorem rebuildTable_ctxs (s : State) : (rebuildTable s).ctxs = s.ctxs := rfl

@[simp] theorem ownEntries_ctxs (s : State) (c slot : Nat) (wins : Tab (List Nat)) :
    (ownEntries s c slot wins).ctxs = s.ctxs := by
  unfold ownEntries
  refine foldl_keeps State.ctxs _ (fun a e => ?_) wins s
  exact foldl_keeps State.ctxs _ (fun b i => setWin_ctxs ..) e.2 a

theorem copyPrograms_ctxs {s u : State} {core row : Nat} {programs : Bytes} {l : List StageEnt}
    (h : copyPrograms s core row programs l = .ok u) : u.ctxs = s.ctxs := by
  fun_induction copyPrograms s core row programs l with
  | case1 => cases h; rfl
  | case2 s row e rest ih =>
    obtain ⟨v, hv, h⟩ := exceptBind_eq_ok h
    rw [ih v h, firmwareWrite_ctxs hv]

theorem copyAllPrograms_ctxs {t : Tables} {shares : Tab (Nat × Nat)} {l : List Nat} {s u : State}
    (h : copyAllPrograms t shares l s = .ok u) : u.ctxs = s.ctxs := by
  induction l generalizing s with
  | nil => cases h; rfl
  | cons n rest ih =>
    unfold copyAllPrograms at h
    split at h
    · obtain ⟨v, hv, h⟩ := exceptBind_eq_ok h
      rw [ih h, copyPrograms_ctxs hv]
    · exact ih h

/-- The image of an object stands in a slot of a context, with its digest and the handles that its load allocated. -/
def ImageLoaded (s : State) (c slot image : Nat) (as : List Nat) (dg : Bytes) : Prop :=
  ∃ y im, tget? s.ctxs c = some y ∧ tget? y.images slot = some im ∧ im.digest = dg ∧ im.obj = image ∧ im.allocated = as

/-- The image that joins a context is its record, whether or not it has taken its shares (R365, R393). -/
theorem joinImage_image (y : Ctx) (slot : Nat) (im : Image) (t : Tables) : ∃ shares,
    tget? (joinImage y slot im t).images slot = some { im with shares := shares } := by
  unfold joinImage
  split
  · exact ⟨_, tget?_tset_self ..⟩
  · exact ⟨im.shares, tget?_tset_self ..⟩

theorem grantImage_loaded {s u : State} {c slot : Nat} {x y : Ctx} {t : Tables} {shares : Tab (Nat × Nat)} {im : Image}
    (hctx : tget? s.ctxs c = some y) (h : grantImage s c slot x t shares im = .ok u) :
    ImageLoaded u c slot im.obj im.allocated im.digest := by
  obtain ⟨v, hv, rfl⟩ := exceptMap_eq_ok h
  have hctxs : v.ctxs = s.ctxs := by
    split at hv
    · cases hv; rfl
    · rw [copyAllPrograms_ctxs hv, clearShares_ctxs]
  obtain ⟨placed, himage⟩ := joinImage_image y slot im t
  refine ⟨_, _, ?_, himage, rfl, rfl, rfl⟩
  rw [rebuildTable_ctxs, tget?_modCtx, ownEntries_ctxs, hctxs, hctx, Option.map_some]

/-- Allocating an image's objects leaves every context standing as it did. -/
theorem standing_allocAll {c : Nat} {l : List Manifest} {s t : State} {as : List Nat} (h : allocAll s c l = .ok (t, as))
    (d : Nat) : standing t d = standing s d := by
  induction l generalizing s as with
  | nil => cases h; rfl
  | cons m rest ih =>
    unfold allocAll at h
    dsimp only at h
    split at h
    · cases h
    · split at h
      · cases h
      · next v n halloc =>
        obtain ⟨⟨w, bs⟩, hrest, heq⟩ := exceptMap_eq_ok h
        cases heq
        rw [ih hrest, ← standing_allocObj s c (objOfManifest m) 0 d, halloc]

/-! ## The checks of a load (R348) -/

section
variable {s u : State} {c slot image sl : Nat} {x : Ctx} {b dg : Bytes} {as : List Nat}

/-- A load that gets past check 16 answers its slot, its objects and its digest, and leaves its image there. -/
theorem loadObjects_loaded {ss : List Section} {t : Tables} {hs : List Nat} {shares : Tab (Nat × Nat)}
    (hctx : tget? s.ctxs c = some x) (h : loadObjects s c slot image x b ss t hs shares = (u, .ok (sl, as, dg))) :
    sl = slot ∧ ImageLoaded u c slot image as dg := by
  unfold loadObjects at h
  dsimp only at h
  split at h
  · cases h
  · next s1 hroom3 =>
    split at h
    · cases h
    · next s2 hroom4 =>
      split at h
      · cases h
      · next s3 bs halloc =>
        split at h
        · cases h
        · next s4 hgrant =>
          cases h
          have hstanding : standing s3 c = standing s c := by
            rw [standing_allocAll halloc, standing_of_makeRoom hroom4, standing_of_makeRoom hroom3]
          obtain ⟨y, hy, -⟩ := exists_of_standing_eq hstanding hctx
          exact ⟨rfl, grantImage_loaded hy hgrant⟩

/-- A load that succeeds has passed the check at which it would have been refused. -/
theorem passed_of_ok {q : Prop} [Decidable q] {e : Status × Reason} {k : LoadResult} {r : Nat × List Nat × Bytes}
    (h : (if q then (s, .error e) else k) = (u, .ok r)) : k = (u, .ok r) := by
  split at h
  · cases h
  · exact h

/-- A load that is granted has passed checks 12 to 15, its shares placed, and comes to check 16. -/
theorem loadObjects_of_loadGrant {ss : List Section} {t : Tables} {hs : List Nat} {r : Nat × List Nat × Bytes}
    (h : loadGrant s c slot image x b ss t hs = (u, .ok r)) :
    ∃ shares, loadObjects s c slot image x b ss t hs shares = (u, .ok r) := by
  unfold loadGrant at h
  replace h := passed_of_ok h
  split at h
  · cases h
  · next decks hdecks =>
    dsimp only at h
    split at h
    · cases h
    · next span hspan => exact ⟨decks ++ span, passed_of_ok (passed_of_ok h)⟩

/-- A load that succeeds has passed checks 2 to 11 and is granted. -/
theorem loadGrant_of_loadChecks {hs : Option (List Nat)} {r : Nat × List Nat × Bytes}
    (h : loadChecks s c slot image x b hs = (u, .ok r)) :
    ∃ ss t l, loadGrant s c slot image x b ss t l = (u, .ok r) := by
  unfold loadChecks at h
  extract_lets ss t at h
  replace h := passed_of_ok (passed_of_ok (passed_of_ok (passed_of_ok h)))
  split at h
  · cases h
  · replace h := passed_of_ok (passed_of_ok (passed_of_ok (passed_of_ok h)))
    split at h
    · cases h
    · next l => exact ⟨ss, t, l, passed_of_ok (passed_of_ok (passed_of_ok h))⟩

theorem loadChecks_loaded {hs : Option (List Nat)} (hctx : tget? s.ctxs c = some x)
    (h : loadChecks s c slot image x b hs = (u, .ok (sl, as, dg))) : sl = slot ∧ ImageLoaded u c slot image as dg := by
  obtain ⟨ss, t, l, hgrant⟩ := loadGrant_of_loadChecks h
  obtain ⟨shares, hobjects⟩ := loadObjects_of_loadGrant hgrant
  exact loadObjects_loaded hctx hobjects

end

/-! ## IMAGE_LOAD (R347, R538) -/

section
variable {rq : Req} {x : Ctx} {s u : State} {image n slot : Nat} {hs : List Nat} {o : Obj}
  (hctx : liveCtx s rq.ctx = some x) (hobj : tget? x.objs image = some o) (hslot : tfree x.images 4 = some slot)
  (hshort : replyTooLong s rq.sess 0xFFFF
    ((tablesOf (imageBytes s x o) (sectionsOf (imageBytes s x o))).manifest.filter (fun m => m.source == 1)).length = false)
include hctx hobj hslot hshort

/-- A load whose checks all pass answers its slot, the number of its objects, its digest and their handles. -/
theorem execImageLoad_loads {sl : Nat} {as : List Nat} {dg : Bytes} {t : State}
    (hload : loadChecks s rq.ctx slot image x (imageBytes s x o) (some hs) = (u, .ok (sl, as, dg)))
    (ht : t = replyC u rq 0x0120 .ok .none
      (leBytes 1 sl ++ [0] ++ leBytes 2 as.length ++ [0, 0, 0, 0] ++ dg ++ as.flatMap (leBytes 2)))
    (hready : Ready s t rq.ctx) : execImageLoad rq image 0xFFFF n hs s = .next t := by
  subst ht
  simp only [execImageLoad, onCtx_some hctx, hobj, hshort, Bool.false_eq_true, if_false, hslot, bindingList, if_true, hload,
    storeHandles]
  exact congrArg Host.Outcome.next (onFirmware_ready hready _)

theorem execImageLoad_fails {st : Status} {r : Reason} {t : State}
    (hload : loadChecks s rq.ctx slot image x (imageBytes s x o) (some hs) = (u, .error (st, r)))
    (ht : t = replyC u rq 0x0120 st r []) (hready : Ready s t rq.ctx) :
    execImageLoad rq image 0xFFFF n hs s = .next t := by
  subst ht
  simp only [execImageLoad, onCtx_some hctx, hobj, hshort, Bool.false_eq_true, if_false, hslot, bindingList, if_true, hload]
  exact congrArg Host.Outcome.next (onFirmware_ready hready _)

end

/-! ## Closing an image's windows (step 1 of R360) -/

/-- A context stands as it did but for its state and its job, which the end of a wait may change (R163, R389). -/
def StandsButJob (x : Ctx) (s : State) (c : Nat) : Prop :=
  ∃ st j, tget? s.ctxs c = some { x with st := st, job := j }

theorem standsButJob_of_ctxs {x : Ctx} {s t : State} {c : Nat} (h : t.ctxs = s.ctxs) (hs : StandsButJob x s c) :
    StandsButJob x t c := by
  unfold StandsButJob
  rwa [h]

theorem standsButJob_modCtx {x : Ctx} {s : State} {c : Nat} (hs : StandsButJob x s c) (d : Nat) {f : Ctx → Ctx}
    (hf : ∀ y, ∃ st j, f y = { y with st := st, job := j } := by exact fun _ => ⟨_, _, rfl⟩) :
    StandsButJob x (modCtx s d f) c := by
  obtain ⟨st, j, hx⟩ := hs
  by_cases h : c = d
  · subst h
    obtain ⟨st', j', heq⟩ := hf { x with st := st, job := j }
    exact ⟨st', j', by rw [tget?_modCtx, hx, Option.map_some, heq]⟩
  · exact ⟨st, j, by rw [tget?_modCtx_ne _ _ _ _ h, hx]⟩

section
variable {x : Ctx} {s : State} {c : Nat} (hs : StandsButJob x s c)
include hs

theorem standsButJob_wake (k : Nat) : StandsButJob x (wake s k) c := by
  cases hwait : (winAt s k).waiting with
  | none => rwa [wake_none hwait]
  | some who =>
    obtain ⟨u, rfl, hwake | hwake⟩ := wake_eq hwait <;> rw [hwake]
    · exact standsButJob_modCtx (s := setWin s k _) hs _
    · refine standsButJob_of_ctxs (emit_ctxs ..) ?_
      exact standsButJob_modCtx (standsButJob_modCtx (s := setWin s k _) hs _) _

theorem standsButJob_winAnswer (who : WinBy) (slot op : Nat) (st : Status) (r : Reason) (value : Nat) (body : Bytes) :
    StandsButJob x (winAnswer s who slot op st r value body) c := by
  unfold winAnswer
  split
  · exact standsButJob_of_ctxs (replyC_ctxs ..) hs
  · split
    · exact hs
    · exact standsButJob_modCtx hs _

end

theorem replyC_live {rq : Req} {s : State} (h : Live rq s) (q : Req) (op : Nat) (st : Status) (r : Reason) (b : Bytes) :
    Live rq (replyC s q op st r b) :=
  deliver_live _ _ _ _ ((finishCmd_live ..).trans h)

theorem winAnswer_live {rq : Req} {s : State} (h : Live rq s) (who : WinBy) (slot op : Nat) (st : Status) (r : Reason)
    (value : Nat) (body : Bytes) : Live rq (winAnswer s who slot op st r value body) := by
  unfold winAnswer
  split
  · exact replyC_live h ..
  · split <;> exact h

/-- What the end of a wait, an answer and a change of a window keep, closing an image's windows keeps. -/
theorem closeImage_keeps {p : State → Prop} (hwin : ∀ a k w, p a → p (setWin a k w)) (hwake : ∀ a k, p a → p (wake a k))
    (hanswer : ∀ a who slot op st r value body, p a → p (winAnswer a who slot op st r value body)) {s : State} (hs : p s)
    (im : Image) : p (closeImage s im) := by
  refine List.foldlRecOn (motive := p) _ _ hs fun a ha k _ => ?_
  have hpoint : p (closePoint a k) := by
    unfold closePoint
    dsimp only
    split
    · exact hwin _ _ _ ha
    · exact ha
  unfold closeEntry closeDone
  dsimp only
  split
  · exact List.foldlRecOn (motive := p) _ _ (hwake _ _ (hwin _ _ _ hpoint)) fun b hb q _ => hanswer _ _ _ _ _ _ _ _ hb
  · exact hpoint

theorem closeImage_standsButJob {x : Ctx} {s : State} {c : Nat} (hctx : tget? s.ctxs c = some x) (im : Image) :
    StandsButJob x (closeImage s im) c :=
  closeImage_keeps (p := (StandsButJob x · c)) (fun _ _ _ ha => ha) (fun _ k ha => standsButJob_wake ha k)
    (fun _ who slot op st r value body ha => standsButJob_winAnswer ha who slot op st r value body) ⟨_, _, hctx⟩ im

theorem closeImage_live {rq : Req} {s : State} (h : Live rq s) (im : Image) : Live rq (closeImage s im) :=
  closeImage_keeps (p := Live rq) (fun _ _ _ ha => ha) (fun _ k ha => wake_live ha k)
    (fun _ who slot op st r value body ha => winAnswer_live ha who slot op st r value body) h im

/-! ## Writing upper copies back (R198) -/

/-- From `s` to `t` nothing changes but the storage of the tiers. -/
def OnlyStorage (s t : State) : Prop :=
  ∃ decks span t3 t4 ddr, t = { s with decks := decks, span := span, t3 := t3, t4 := t4, ddr := ddr }

theorem OnlyStorage.refl (s : State) : OnlyStorage s s := ⟨_, _, _, _, _, rfl⟩

theorem OnlyStorage.trans {s t u : State} (hst : OnlyStorage s t) (htu : OnlyStorage t u) : OnlyStorage s u := by
  obtain ⟨_, _, _, _, _, rfl⟩ := hst
  obtain ⟨_, _, _, _, _, rfl⟩ := htu
  exact ⟨_, _, _, _, _, rfl⟩

theorem OnlyStorage.net {s t : State} (h : OnlyStorage s t) : t.net = s.net := by
  obtain ⟨_, _, _, _, _, rfl⟩ := h
  rfl

theorem homeWrite_onlyStorage (s : State) (x : Ctx) (o : Obj) (off : Nat) (bs : Bytes) : OnlyStorage s (homeWrite s x o off bs) :=
  ⟨_, _, _, _, _, homeWrite_frame s x o off bs⟩

theorem upperWrite_onlyStorage (s : State) (x : Ctx) (u : Upper) (i : Nat) (bs : Bytes) :
    OnlyStorage s (upperWrite s x u i bs) := by
  unfold upperWrite
  split
  · exact ⟨_, _, _, _, _, extWrite_frame ..⟩
  · exact ⟨_, _, _, _, _, setRam_frame ..⟩

theorem codedWrite_onlyStorage {s t : State} {x : Ctx} {o : Obj} {i : Nat} {fresh : Bool} {strip tile : Bytes}
    (h : codedWrite s x o i fresh strip tile = .ok t) : OnlyStorage s t := by
  unfold codedWrite at h
  split at h
  · cases h
  · extract_lets tiles new s1 stored flags sl p s2 s3 at h
    have hs1 : OnlyStorage s s1 := by
      unfold s1
      split
      · exact homeWrite_onlyStorage ..
      · exact .refl s
    split at h
    · cases h
    · cases h
      exact ((hs1.trans (homeWrite_onlyStorage ..)).trans (homeWrite_onlyStorage ..)).trans (homeWrite_onlyStorage ..)

theorem objTileWrite_onlyStorage {s t : State} {x : Ctx} {o p : Obj} {i : Nat} {fresh : Bool} {strip tile : Bytes}
    (h : objTileWrite s x o i fresh strip tile = .ok (t, p)) : OnlyStorage s t := by
  unfold objTileWrite at h
  split at h
  · cases h
  · split at h
    · cases h
      exact upperWrite_onlyStorage ..
    · split at h
      · cases h
        exact homeWrite_onlyStorage ..
      · obtain ⟨v, hv, heq⟩ := exceptMap_eq_ok h
        cases heq
        exact codedWrite_onlyStorage hv

theorem writeBackTiles_onlyStorage (s : State) (x : Ctx) (o : Obj) (u : Upper) (n i : Nat) :
    OnlyStorage s (writeBackTiles s x o u n i).1 := by
  fun_induction writeBackTiles s x o u n i with
  | case1 s => exact .refl s
  | case2 s => exact .refl s
  | case3 s => exact .refl s
  | case4 s i n b hread v p hwrite ih => exact (objTileWrite_onlyStorage hwrite).trans ih

theorem writeBack_net (s : State) (c : Nat) (x : Ctx) (o : Obj) : (writeBack s c x o).1.net = s.net := by
  unfold writeBack
  split
  · next u hu =>
    split
    · have htiles := (writeBackTiles_onlyStorage s x o u (o.tilesM1 + 1) 0).net
      split
      · next hwrite =>
        rw [hwrite] at htiles
        exact htiles
      · exact htiles
    · rfl
  · rfl

theorem saveUpper_net (s : State) (c h : Nat) (x : Ctx) (o : Obj) : (saveUpper s c h x o).1.net = s.net := by
  have hback := writeBack_net s c x o
  unfold saveUpper
  split
  · next hwrite =>
    rw [hwrite] at hback
    exact hback
  · exact hback

/-- Writing upper copies back sends nothing. -/
theorem saveUppers_net (c : Nat) (l : List (Nat × Obj)) (s : State) : (saveUppers c l s).1.net = s.net := by
  fun_induction saveUppers c l s with
  | case1 => rfl
  | case2 => rfl
  | case3 h o rest s x hx v hsave ih => rw [ih, ← saveUpper_net s c h x o, hsave]
  | case4 h o rest s x hx hsave => exact saveUpper_net ..

theorem standing_saveUppers (c : Nat) (l : List (Nat × Obj)) (s : State) (d : Nat) :
    standing (saveUppers c l s).1 d = standing s d := by
  fun_induction saveUppers c l s with
  | case1 => rfl
  | case2 => rfl
  | case3 h o rest s x hx v hsave ih => rw [ih, ← standing_saveUpper s c h x o, hsave]
  | case4 h o rest s x hx hsave => exact standing_saveUpper ..

/-! ## IMAGE_UNLOAD (R359, R360) -/

theorem imageBusy_iff {x : Ctx} {slot : Nat} : imageBusy x slot = true ↔ ∃ j, x.job = some j ∧ j.run.slot = slot := by
  unfold imageBusy
  split
  · next j hj => simp [hj]
  · next hj => simp [hj]

/-- A slot whose image is released is empty. -/
theorem releaseImage_empties {s : State} {c : Nat} {x : Ctx} (hctx : tget? s.ctxs c = some x) (slot : Nat) (im : Image) :
    ∃ y, tget? (releaseImage s c slot im).ctxs c = some y ∧ tget? y.images slot = none := by
  rw [releaseImage, rebuildTable_ctxs]
  refine ⟨_, (tget?_modCtx s c _).trans (by rw [hctx, Option.map_some]), tget?_terase_self _ slot⟩

theorem releaseImage_net (s : State) (c slot : Nat) (im : Image) : (releaseImage s c slot im).net = s.net := rfl

/-- An unload whose write-backs succeed is answered, its slot empty and its entry among the unloads gone. -/
theorem unloadDone_empties {s v : State} {c slot : Nat} {x : Ctx} {im : Image} {rq : Req} (hctx : tget? s.ctxs c = some x)
    (hsave : saveUppers c (x.objs.filter (fun e => inShare im e.2)) s = (v, none)) (hlive : Live rq s) :
    ∃ y, tget? (unloadDone s c slot im rq).ctxs c = some y ∧ tget? y.images slot = none ∧ tget? y.unloading slot = none ∧
      Replied rq 0x0121 rq.ctx .ok .none [] (unloadDone s c slot im rq) := by
  have hstanding := standing_saveUppers c (x.objs.filter (fun e => inShare im e.2)) s c
  have hnet := saveUppers_net c (x.objs.filter (fun e => inShare im e.2)) s
  rw [hsave] at hstanding hnet
  obtain ⟨z, hz, -⟩ := exists_of_standing_eq hstanding hctx
  obtain ⟨y, hy, hempty⟩ := releaseImage_empties hz slot im
  have hdone : unloadDone s c slot im rq = replyC (modCtx (releaseImage v c slot im) c (fun y =>
      { y with unloading := terase y.unloading slot })) rq 0x0121 .ok .none [] := by
    simp only [unloadDone, hctx, Option.map_some, Option.getD_some, hsave]
  rw [hdone]
  refine ⟨{ y with unloading := terase y.unloading slot }, ?_, hempty, tget?_terase_self .., replyC_replied _ _ _ _ _ _ ?_⟩
  · rw [replyC_ctxs, tget?_modCtx, hy, Option.map_some]
  · rwa [Live, modCtx_net, releaseImage_net, hnet]

/-- The one unload of a context that is quiet, and whose firmware work may start, is done. -/
theorem finishUnload_done {s : State} {c slot : Nat} {x : Ctx} {im : Image} {rq : Req} (hctx : tget? s.ctxs c = some x)
    (hunloading : x.unloading = [(slot, rq)]) (himage : tget? x.images slot = some im) (hquiet : imageQuiet s c slot im = true)
    (hwork : workReady s (unloadDone s c slot im rq) c = true) : finishUnload s c = unloadDone s c slot im rq := by
  simp [finishUnload, hctx, hunloading, himage, hquiet, hwork]

section
variable {rq : Req} {x : Ctx} {s : State} {slot : Nat} (hctx : liveCtx s rq.ctx = some x)
include hctx

theorem execImageUnload_empty (himage : tget? x.images slot = none) :
    execImageUnload rq slot s = .next (replyC s rq 0x0121 .refused .loadEmpty []) := by
  simp only [execImageUnload, onCtx_some hctx, himage]

theorem execImageUnload_busy {im : Image} (himage : tget? x.images slot = some im)
    (hbusy : (∃ j, x.job = some j ∧ j.run.slot = slot) ∨ ∃ q, tget? x.unloading slot = some q) :
    execImageUnload rq slot s = .next (replyC s rq 0x0121 .busy .loadImageBusy []) := by
  have hbarred : (imageBusy x slot || (tget? x.unloading slot).isSome) = true := by
    rwa [Bool.or_eq_true, imageBusy_iff, Option.isSome_iff_exists]
  simp only [execImageUnload, onCtx_some hctx, himage, hbarred, if_true]

/-- An unload that nothing bars closes the image's windows, and goes on at once if it can. -/
theorem execImageUnload_begins {im : Image} (himage : tget? x.images slot = some im) (hjob : x.job = none)
    (hunloading : x.unloading = []) :
    execImageUnload rq slot s = .next (finishUnload (modCtx (closeImage s im) rq.ctx (fun y =>
      { y with unloading := [(slot, rq)] })) rq.ctx) := by
  have hidle : imageBusy x slot = false := by rw [imageBusy, hjob]
  have hopen : (imageBusy x slot || (tget? x.unloading slot).isSome) = false := by
    rw [hidle, hunloading]
    rfl
  obtain ⟨st, j, hclosed⟩ := closeImage_standsButJob (liveCtx_some hctx).1 im
  simp only [execImageUnload, onCtx_some hctx, himage, hopen, Bool.false_eq_true, if_false, modCtx_eq_setCtx hclosed]
  rw [hunloading]
  rfl

end

/-- Settles O19: what a load that passes or fails its checks answers and leaves, what bars an unload, and how one ends. -/
theorem imagesLoadAndUnload : Obligations.ImagesLoadAndUnload := by
  intro rq x s hlive hctx
  refine ⟨fun image n hs o slot hobj hslot hshort => ⟨?_, ?_⟩, ?_, ?_, ?_⟩
  · intro u sl as dg t hload ht hready
    obtain ⟨rfl, y, im, hy, himage, hdigest, hobject, hallocated⟩ := loadChecks_loaded (liveCtx_some hctx).1 hload
    exact ⟨execImageLoad_loads hctx hobj hslot hshort hload ht hready, y, im, hy, rfl, himage, hdigest, hobject, hallocated⟩
  · intro u st r t hload ht hready
    exact execImageLoad_fails hctx hobj hslot hshort hload ht hready
  · exact fun slot himage => answered_replyC (execImageUnload_empty hctx himage) hlive
  · exact fun slot im himage hbusy => answered_replyC (execImageUnload_busy hctx himage hbusy) hlive
  · rintro slot im _ v himage hjob hunloading rfl hquiet hsave hwork
    obtain ⟨st, j, hclosed⟩ := closeImage_standsButJob (liveCtx_some hctx).1 im
    have hu : tget? (modCtx (closeImage s im) rq.ctx (fun y => { y with unloading := [(slot, rq)] })).ctxs rq.ctx =
        some { x with st := st, job := j, unloading := [(slot, rq)] } := by
      rw [tget?_modCtx, hclosed, Option.map_some]
    obtain ⟨y, hy, hempty, hgone, hreplied⟩ := unloadDone_empties (slot := slot) hu hsave (closeImage_live hlive im)
    refine ⟨_, y, ?_, hy, hempty, hgone, hreplied⟩
    rw [exec_imageUnload, execImageUnload_begins hctx himage hjob hunloading, finishUnload_done hu rfl himage hquiet hwork]

end Sys2Proof.Machine
/-!
PROOFS. A remote timeout (R386, R388).
-/

namespace Sys2Proof.Machine

/-! ## What turns, replies and queued RUNs leave alone -/

/-- A part of the state that a change of jobs, of whose turn it is, of replies and of cascades does not touch. -/
def TurnBlind {β : Type} (g : State → β) : Prop := ∀ s net draws rel aud cores ctxs turn,
  g { s with
    net := net, draws := draws, rel := rel, aud := aud, cores := cores, ctxs := ctxs,
    sched := { s.sched with turn := turn } } = g s

theorem turnBlind_wins : TurnBlind State.wins := fun _ _ _ _ _ _ _ _ => rfl

theorem turnBlind_entries : TurnBlind (fun s => s.sched.entries) := fun _ _ _ _ _ _ _ _ => rfl

section
variable {β : Type} {g : State → β} (hg : TurnBlind g)
include hg

theorem TurnBlind.setCore_eq (s : State) (p : Nat) (k : Core) : g (setCore s p k) = g s :=
  hg s s.net s.draws s.rel s.aud (tset s.cores p k) s.ctxs s.sched.turn

theorem TurnBlind.modCtx_eq (s : State) (c : Nat) (f : Ctx → Ctx) : g (modCtx s c f) = g s :=
  hg s s.net s.draws s.rel s.aud s.cores _ s.sched.turn

theorem TurnBlind.modJob_eq (s : State) (c : Nat) (f : Job → Job) : g (modJob s c f) = g s := hg.modCtx_eq s c _

theorem TurnBlind.replyC_eq (s : State) (rq : Req) (op : Nat) (st : Status) (r : Reason) (b : Bytes) :
    g (replyC s rq op st r b) = g s := by
  obtain ⟨hframe, -⟩ := replyAs_only s rq op rq.ctx st r b
  rw [replyC, hframe]
  exact hg s _ _ _ s.aud s.cores s.ctxs s.sched.turn

theorem TurnBlind.cascadeEnd_eq (s : State) (m : Option Nat) (st : Status) : g (cascadeEnd s m st) = g s := by
  cases m with
  | none => rfl
  | some k => exact hg s s.net s.draws s.rel _ s.cores s.ctxs s.sched.turn

theorem TurnBlind.switchIn_eq (s : State) (c : Nat) : g (switchIn s c) = g s := by
  have hcore : ∀ a n, g (restoreCore a c n) = g a := fun a n => by
    unfold restoreCore
    dsimp only
    split <;> exact hg.setCore_eq ..
  unfold switchIn
  split
  · rfl
  · rw [hg.modJob_eq, foldl_keeps g _ hcore]

theorem TurnBlind.switchOut_eq (s : State) (c : Nat) : g (switchOut s c) = g s := by
  unfold switchOut modAcct
  split
  · rfl
  · rw [hg.modCtx_eq, hg.modJob_eq]
    exact foldl_keeps g _ (fun a n => hg.setCore_eq a _ _) _ s

theorem TurnBlind.grantTurn_eq (s : State) (e : List Nat) : g (grantTurn s e) = g s := by
  refine foldl_keeps g _ (fun a c => ?_) e s
  dsimp only
  split
  · split
    · exact hg.switchIn_eq a c
    · rfl
  · rfl

theorem TurnBlind.beginTurn_eq (s : State) (i : Nat) : g (beginTurn s i) = g s := by
  rw [beginTurn_frame]
  exact hg s s.net s.draws s.rel s.aud s.cores _ (some i)

theorem TurnBlind.restBlocked_eq (s : State) : g (restBlocked s) = g s := by
  unfold restBlocked
  split
  · rfl
  · refine foldl_keeps g _ (fun a c => ?_) _ s
    split
    · split
      · exact hg.switchOut_eq a c
      · rfl
    · rfl

theorem TurnBlind.schedule_eq (s : State) : g (schedule s) = g s := by
  have hsealed : g (restBlocked ((s.ctxs.filter (fun e => e.2.sealed)).foldl (fun a e => grantTurn a [e.1]) s)) =
      g s := by
    rw [hg.restBlocked_eq]
    exact foldl_keeps g _ (fun a e => hg.grantTurn_eq a _) _ s
  unfold schedule
  dsimp only
  split
  case' h_1 => rw [hg.grantTurn_eq]
  all_goals
    split
    · exact hsealed
    · split
      · rw [hg.beginTurn_eq, hsealed]
      · exact hsealed

theorem TurnBlind.refuseRun_eq (s : State) (c : Nat) (r : RunReq) (rest : List RunReq) (st : Status) (why : Reason) :
    g (refuseRun s c r rest st why) = g s := by
  rw [refuseRun, hg.replyC_eq, hg.cascadeEnd_eq, hg.modCtx_eq]

theorem TurnBlind.dropEmpty_eq (c fuel : Nat) (s : State) : g (dropEmpty c fuel s) = g s := by
  induction fuel generalizing s with
  | zero => rfl
  | succ fuel ih =>
    unfold dropEmpty
    split
    · rfl
    · split
      · split
        · rw [ih, hg.refuseRun_eq]
        · rfl
      · rfl

theorem TurnBlind.startNext_eq (s : State) (c : Nat) : g (startNext s c) = g s := by
  have hdraw : ∀ a, g (draw a) = g a := fun a => hg a a.net _ a.rel a.aud a.cores a.ctxs a.sched.turn
  rw [← hg.dropEmpty_eq c 17 s]
  unfold startNext startHead
  split
  · rfl
  · split
    · rfl
    · rw [hg.schedule_eq, hdraw, hg.modCtx_eq]

end

/-! ## An order to stop keeps the slot table, unless the job ends -/

/-- No window of a context has a stage that waits on it. -/
def NoWaits (c : Nat) (s : State) : Prop := ∀ e ∈ s.wins, e.2.ctx = c → e.2.waiting = none

theorem noWaits_of_wins {c : Nat} {s t : State} (h : t.wins = s.wins) (hs : NoWaits c s) : NoWaits c t := by
  rwa [NoWaits, h]

theorem noWaits_clearQueues (s : State) (c : Nat) : NoWaits c (clearQueues s c) := by
  intro e he howner
  obtain ⟨w, -, rfl⟩ := List.mem_map.mp he
  split at howner
  · rw [if_pos ‹_›]
  · exact absurd howner ‹_›

/-- The end of a job takes the waits of its stages away. -/
theorem noWaits_completeJob {s : State} {c : Nat} {x : Ctx} {j : Job} (hctx : tget? s.ctxs c = some x) (hjob : x.job = some j)
    (st : Status) (r : Reason) : NoWaits c (completeJob s c st r) := by
  have hgone : NoWaits c (workGone s c st) := by
    unfold workGone
    split <;> exact noWaits_clearQueues s c
  refine noWaits_of_wins ?_ hgone
  unfold completeJob
  simp only [hctx, hjob]
  rw [foldl_keeps State.wins _ (fun a w => turnBlind_wins.replyC_eq ..), turnBlind_wins.cascadeEnd_eq,
    turnBlind_wins.replyC_eq]
  rfl

/-- `t` follows `s` with the slot table as it stood, or with the job of a context ended. -/
def TableKept (c : Nat) (s t : State) : Prop := t.sched.entries = s.sched.entries ∨ NoWaits c t

theorem tableKept_ended {s t : State} {c : Nat} (h : NoWaits c t) : TableKept c s (startNext (schedule t) c) := by
  exact .inr (noWaits_of_wins (by rw [turnBlind_wins.startNext_eq, turnBlind_wins.schedule_eq]) h)

theorem tget?_modAcct {s : State} {c : Nat} {x : Ctx} (hctx : tget? s.ctxs c = some x) (f : Acct → Acct) :
    tget? (modAcct s c f).ctxs c = some { x with acct := f x.acct } := by
  rw [modAcct, tget?_modCtx, hctx, Option.map_some]

theorem noWaits_stopJob {s : State} {c : Nat} {x : Ctx} {j : Job} (hctx : tget? s.ctxs c = some x) (hjob : x.job = some j)
    (st : Status) (r : Reason) : NoWaits c (stopJob s c j st r) := by
  unfold stopJob
  dsimp only
  split
  · exact noWaits_completeJob (tget?_modAcct hctx _) hjob _ _
  · exact noWaits_completeJob hctx hjob _ _

theorem tget?_unstall {s : State} {c : Nat} {x : Ctx} (hctx : tget? s.ctxs c = some x) :
    tget? (unstall s c).ctxs c = some { x with st := if x.st = .stalled then .resident else x.st } := by
  rw [unstall, rebuildTable_ctxs, tget?_modCtx, hctx, Option.map_some]

theorem stopEffect_tableKept {s : State} {c : Nat} {x : Ctx} {j : Job} (hctx : tget? s.ctxs c = some x)
    (hjob : x.job = some j) (o : StopOrder) : TableKept c s (stopEffect s c j o) := by
  have hmild : ∀ o, (schedule (j.waiters.foldl (fun a w => replyC a w.1 w.2 .ok .none [])
      (modJob (if j.onCores then switchOut s c else modJob s c (fun k => { k with order := none, held := none })) c
        (fun k => { k with waiters := [], yielded := o == StopOrder.yield })))).sched.entries = s.sched.entries := fun o => by
    refine (turnBlind_entries.schedule_eq _).trans <| (foldl_keeps (fun s : State => s.sched.entries) _
      (fun a w => turnBlind_entries.replyC_eq ..) ..).trans <| (turnBlind_entries.modJob_eq ..).trans ?_
    split
    · exact turnBlind_entries.switchOut_eq s c
    · exact turnBlind_entries.modJob_eq s c _
  cases o with
  | cancel => exact tableKept_ended (noWaits_stopJob (tget?_unstall hctx) hjob _ _)
  | destroy => exact .inr (noWaits_stopJob hctx hjob _ _)
  | fence => exact tableKept_ended (noWaits_stopJob (tget?_unstall hctx) hjob _ _)
  | turn => exact .inl (hmild .turn)
  | yield => exact .inl (hmild .yield)
  | stall => exact .inl (hmild .stall)

theorem orderStop_tableKept {s : State} {c : Nat} {x : Ctx} {j : Job} (hctx : tget? s.ctxs c = some x)
    (hjob : x.job = some j) (o : StopOrder) : TableKept c s (orderStop s c o) := by
  unfold orderStop tryStop
  split
  · exact .inl rfl
  · next k hk =>
    rw [tget?_modJob hctx hjob, Option.bind_some] at hk
    split
    · exact .inl rfl
    · split
      · exact stopEffect_tableKept (tget?_modJob hctx hjob _) hk _
      · exact .inl rfl

/-! ## A context table that is not in ascending order -/

/-- The RUN of the job that waits. -/
def waitingRun : RunReq :=
  { req := { iface := .host, sess := 1, src := 0, sport := 0, port := 0, seq := 0, ctx := 3 }, slot := 0, param := 0 }

/-- A job whose stage on core 0 waits on window 0 of its core and whose stage on core 1 runs. -/
def waitingJob : Job :=
  { run := waitingRun, onCores := true, stages := [{ core := 0, st := .waiting 0 0 }, { core := 1 }] }

def waitingCtx : Ctx := { cores := 3, images := [(0, { wins := [(0, [0])] })], job := some waitingJob }

/-- Context 5 stands before context 3 in the table, and a window of context 3 takes the writes of device 0. -/
def unsortedState : State :=
  { ctxs := [(5, {}), (3, waitingCtx)], wins := [(0, { ctx := 3, writers := 2 ^ 24, waiting := some (0, 0) })] }

/-- Where the timeout leaves `unsortedState`. -/
def unsortedEnd : State := after unsortedState (execCtxRemoteTimeout 3 0 0 unsortedState)

/-- The stalled context keeps its entry: setting it in the table left its old record behind context 5. -/
theorem unsortedEnd_entries : unsortedEnd.sched.entries = [[3]] := by decide

theorem unsortedEnd_wins : unsortedEnd.wins = unsortedState.wins := by decide

/-- Refutes O14: the keys of the context table are distinct but do not rise, so that `tset` puts the stalled context before
context 5 and its old RESIDENT record stays behind it, from which the rebuilt slot table keeps an entry for the context. -/
theorem not_remoteTimeoutStalls : ¬ Obligations.RemoteTimeoutStalls := by
  intro h
  obtain ⟨-, hstalls⟩ := h 3 0 0 0 0 0 waitingCtx waitingJob { core := 0, st := .waiting 0 0 } unsortedState
    rfl rfl rfl (by decide) rfl rfl rfl
  obtain ⟨u, y, hexec, hctx, -, -, hstalled, htable, -⟩ := hstalls (by decide)
  obtain ⟨k, hjob, -⟩ := Option.map_eq_some_iff.mp hstalled
  have hend : unsortedEnd = orderStop (emit u (some 3) .stalled .ctxRemoteTimeout
      (leBytes 2 3 ++ leBytes 1 0 ++ leBytes 1 0)) 3 .stall := congrArg (after unsortedState) hexec
  have hkept := orderStop_tableKept (s := emit u (some 3) .stalled .ctxRemoteTimeout
    (leBytes 2 3 ++ leBytes 1 0 ++ leBytes 1 0)) (c := 3) (by rw [emit_ctxs]; exact hctx) hjob .stall
  rw [← hend] at hkept
  rcases hkept with hentries | hnone
  · rw [unsortedEnd_entries, emit_sched] at hentries
    exact htable [3] (hentries ▸ List.mem_singleton_self [3]) (List.mem_singleton_self 3)
  · rw [NoWaits, unsortedEnd_wins] at hnone
    exact absurd (hnone _ (List.mem_singleton_self _) rfl) (by decide)

end Sys2Proof.Machine

/-!
PROOFS. RUN, RUN_CANCEL and PREEMPT in mode YIELD (R374, R379, R390, R401, R539).
-/

namespace Sys2Proof.Machine

/-! ## The RUN at the head of a queue (R374) -/

/-- A vote cancels no descent while none runs. -/
theorem cancelDescent_awake {s : State} (h : descending s = false) (cls id mask : Nat) : cancelDescent s cls id mask = s :=
  if_neg fun hrun => by simp [h] at hrun

theorem nextRun_job {x : Ctx} (s : State) (h : x.job ≠ none) : nextRun s x = none :=
  if_pos (.inr (.inl (Option.isSome_iff_ne_none.mpr h)))

theorem nextRun_head {s : State} {x : Ctx} {r : RunReq} {rest : List RunReq} (hst : x.st = .resident) (hjob : x.job = none)
    (hpark : x.parking = none) (hq : x.runQ = r :: rest)
    (hcores : ∀ n ∈ imageCores ((tget? x.images r.slot).getD {}), n ∉ s.fenced) : nextRun s x = some (r, rest) := by
  have hidle : ¬ (x.st ≠ .resident ∨ x.job.isSome ∨ x.parking.isSome) := by simp [hst, hjob, hpark]
  have hfree : ¬ (imageCores ((tget? x.images r.slot).getD {})).any (fun n => s.fenced.contains n) := by simpa using hcores
  rw [nextRun, if_neg hidle]
  simp only [hq]
  rw [if_neg hfree]

theorem wakeFor_idle {s : State} {x : Ctx} (h : nextRun s x = none ∨ descending s = false) (c : Nat) : wakeFor s c x = s := by
  unfold wakeFor
  split
  · next hnext =>
    rcases h with h | h
    · simp [h] at hnext
    · exact cancelDescent_awake h ..
  · rfl

/-- A RUN stays at the head of its queue while a job runs or its slot holds an image that may run. -/
theorem dropEmpty_head {s : State} {c : Nat} {x : Ctx} (hctx : tget? s.ctxs c = some x)
    (hhead : ∀ r rest, x.runQ = r :: rest → x.job ≠ none ∨ slotRuns x r.slot = true) (fuel : Nat) :
    dropEmpty c fuel s = s := by
  cases fuel with
  | zero => rfl
  | succ fuel =>
    unfold dropEmpty
    simp only [hctx]
    split
    · next r rest hq =>
      refine if_neg ?_
      rintro ⟨-, hjob, -, hslot⟩
      rcases hhead r rest hq with h | h
      · exact h (Option.isNone_iff_eq_none.mp hjob)
      · simp [h] at hslot
    · rfl

/-- A context whose queue takes a RUN. -/
def withRun (x : Ctx) (r : RunReq) : Ctx := { x with runQ := x.runQ ++ [r] }

/-- The job that a RUN of a context starts: the first phase's stages at their start (R243, R539). -/
def firstJob (s : State) (x : Ctx) (r : RunReq) : Job :=
  { run := r, id := (x.jobs + 1) % 2 ^ 32, stages := phaseRuns ((tget? x.images r.slot).getD {}) 0, started := s.draws }

/-- A context whose RUN `r` has started a job. -/
def withFirstJob (s : State) (x : Ctx) (r : RunReq) (rest : List RunReq) : Ctx :=
  { x with
    job := some (firstJob s x r), runQ := rest, jobs := x.jobs + 1,
    images := tmod x.images r.slot (fun im => { im with prefetchNext := 0 }) }

section
variable {s : State} {c : Nat} {x : Ctx} (hctx : tget? s.ctxs c = some x)
include hctx

theorem startHead_none (hnext : nextRun s x = none) : startHead s c = s := by
  simp only [startHead, hctx, hnext]

theorem startHead_some {r : RunReq} {rest : List RunReq} (hnext : nextRun s x = some (r, rest)) :
    startHead s c = schedule (draw (setCtx s c (withFirstJob s x r rest))) := by
  simp only [startHead, hctx, hnext]
  rw [modCtx_eq_setCtx hctx]
  rfl

end

/-! ## RUN (R374, R539, R689) -/

section
variable {rq : Req} {slot : Nat} {x : Ctx} {s : State} (hctx : liveCtx s rq.ctx = some x) (param : Nat)
include hctx

theorem execRun_barred (hslot : slotRuns x slot = false) :
    execRun rq slot param s = .next (replyC s rq 0x0130 .refused .loadEmpty []) := by
  rw [execRun, onCtx_some hctx]
  cases himage : tget? x.images slot <;> simp [hslot]

theorem execRun_noImage (himage : tget? x.images slot = none) :
    execRun rq slot param s = .next (replyC s rq 0x0130 .refused .loadEmpty []) :=
  execRun_barred hctx param (by simp [slotRuns, himage])

variable {im : Image} (himage : tget? x.images slot = some im) (hslot : slotRuns x slot = true)
include himage hslot

theorem execRun_reload (hreload : im.reload = true) :
    execRun rq slot param s = .next (replyC s rq 0x0130 .refused .relReloadNeeded []) := by
  simp [execRun, onCtx_some hctx, himage, hslot, hreload]

variable (hreload : im.reload = false)
include hreload

theorem execRun_full (hfull : 16 ≤ x.runQ.length) :
    execRun rq slot param s = .next (replyC s rq 0x0130 .busy .runQueueFull []) := by
  simp [execRun, onCtx_some hctx, himage, hslot, hreload, hfull]

theorem execRun_joins (hroom : x.runQ.length < 16) {r : RunReq} (hr : r = { req := rq, slot := slot, param := param })
    (hwake : nextRun s (withRun x r) = none ∨ descending s = false) : execRun rq slot param s =
    .next (startNext (modCtx (interim s rq 0x0130 rq.ctx) rq.ctx (withRun · r)) rq.ctx) := by
  have hnotfull : ¬ 16 ≤ x.runQ.length := by omega
  subst hr
  simp only [execRun, onCtx_some hctx, himage, hslot, hreload, hnotfull, Bool.not_true, Bool.false_eq_true, if_false]
  rw [← withRun, wakeFor_idle hwake]
  rfl

theorem execRun_queued (hroom : x.runQ.length < 16) (hjob : x.job ≠ none) : execRun rq slot param s =
    .next (modCtx (interim s rq 0x0130 rq.ctx) rq.ctx (withRun · { req := rq, slot := slot, param := param })) := by
  obtain ⟨hx, -⟩ := liveCtx_some hctx
  rw [execRun_joins hctx param himage hslot hreload hroom rfl (.inl (nextRun_job s hjob)), startNext]
  have hqueued := (tget?_modCtx (interim s rq 0x0130 rq.ctx) rq.ctx
    (withRun · { req := rq, slot := slot, param := param })).trans (congrArg _ hx)
  rw [dropEmpty_head hqueued (fun _ _ _ => .inl hjob), startHead_none hqueued (nextRun_job _ hjob)]

/-- The RUN of an idle RESIDENT context starts its job at once. -/
theorem execRun_starts (hq : x.runQ = []) (hdescent : descending s = false) (hjob : x.job = none) (hst : x.st = .resident)
    (hpark : x.parking = none) (hcores : ∀ n ∈ imageCores im, n ∉ s.fenced) {r : RunReq}
    (hr : r = { req := rq, slot := slot, param := param }) : execRun rq slot param s =
    .next (schedule (draw (setCtx (modCtx (interim s rq 0x0130 rq.ctx) rq.ctx (withRun · r)) rq.ctx
      (withFirstJob s (withRun x r) r [])))) := by
  obtain ⟨hx, -⟩ := liveCtx_some hctx
  rw [execRun_joins hctx param himage hslot hreload (by simp [hq]) hr (.inr hdescent), startNext]
  have hqueued := (tget?_modCtx (interim s rq 0x0130 rq.ctx) rq.ctx (withRun · r)).trans (congrArg _ hx)
  have hhead : (withRun x r).runQ = [r] := by rw [withRun, hq, List.nil_append]
  have hnext := nextRun_head (s := modCtx (interim s rq 0x0130 rq.ctx) rq.ctx (withRun · r)) (x := withRun x r)
    hst hjob hpark hhead (by subst hr; rw [show tget? (withRun x _).images slot = some im from himage]; exact hcores)
  rw [dropEmpty_head hqueued, startHead_some hqueued hnext]
  · rfl
  · intro r' rest heq
    obtain ⟨rfl, -⟩ := List.cons.inj (hhead.symm.trans heq)
    subst hr
    exact .inr hslot

end

/-! ## The queued RUNs are answered (R390) -/

/-- From `s` to `t` nothing changes but what answering RUNs changes: the Kraros layer, the meters of replies with their draw,
and the cascades (R471). -/
def OnlyAnswers (s t : State) : Prop :=
  ∃ net draws rel aud, t = { s with net := net, draws := draws, rel := rel, aud := aud }

theorem cancelRun_only (s : State) (r : RunReq) : OnlyAnswers s (cancelRun s r) := by
  obtain ⟨hframe, -⟩ := replyAs_only (cascadeEnd s r.milestone .preempted) r.req 0x0130 r.req.ctx .preempted .schedCancelled []
  rw [cancelRun, replyC, hframe]
  cases r.milestone <;> exact ⟨_, _, _, _, rfl⟩

theorem foldl_cancelRun_only (l : List RunReq) (s : State) : OnlyAnswers s (l.foldl cancelRun s) :=
  List.foldlRecOn (motive := OnlyAnswers s) l cancelRun ⟨_, _, _, _, rfl⟩ fun t ht r _ => by
    obtain ⟨_, _, _, _, rfl⟩ := ht
    obtain ⟨_, _, _, _, h⟩ := cancelRun_only _ r
    exact ⟨_, _, _, _, h⟩

/-- The queued RUNs of a context are cancelled. -/
def queueCancelled (s : State) (c : Nat) (x : Ctx) : State :=
  x.runQ.foldl cancelRun (modCtx s c (fun y => { y with runQ := [] }))

theorem queueCancelled_ctxs (s : State) (c : Nat) (x : Ctx) :
    (queueCancelled s c x).ctxs = (modCtx s c (fun y => { y with runQ := [] })).ctxs := by
  obtain ⟨_, _, _, _, h⟩ := foldl_cancelRun_only x.runQ (modCtx s c (fun y => { y with runQ := [] }))
  rw [queueCancelled, h]

theorem queueCancelled_frame (s : State) (c : Nat) (x : Ctx) : ∃ net draws rel aud ctxs,
    queueCancelled s c x = { s with net := net, draws := draws, rel := rel, aud := aud, ctxs := ctxs } := by
  obtain ⟨_, _, _, _, h⟩ := foldl_cancelRun_only x.runQ (modCtx s c (fun y => { y with runQ := [] }))
  exact ⟨_, _, _, _, _, h⟩

theorem tget?_queueCancelled {s : State} {c : Nat} {x : Ctx} (hctx : tget? s.ctxs c = some x) :
    tget? (queueCancelled s c x).ctxs c = some { x with runQ := [] } := by
  rw [queueCancelled_ctxs, tget?_modCtx, hctx, Option.map_some]

theorem tget?_queueCancelled_ne (s : State) {c d : Nat} (x : Ctx) (hne : d ≠ c) :
    tget? (queueCancelled s c x).ctxs d = tget? s.ctxs d := by
  rw [queueCancelled_ctxs, tget?_modCtx_ne _ _ _ _ hne]

/-! ## An order reaches a job (R379) -/

/-- A job that takes an order to stop: the stronger of the order given and the one that stands. -/
def ordered (o : StopOrder) (j : Job) : Job :=
  match j.order with
  | none => { j with order := some o }
  | some q =>
    let lesser := if q = .stall ∧ o.rank < q.rank then some o else if o = .stall ∧ q.rank < o.rank then some q else none
    { j with order := some (q.max o), held := match j.held, lesser with
      | some a, some b => some (a.max b)
      | a, none => a
      | none, b => b }

theorem orderStop_eq (s : State) (c : Nat) (o : StopOrder) : orderStop s c o = tryStop (modJob s c (ordered o)) c := rfl

theorem ordered_yield {j : Job} (h : j.order = none ∨ j.order = some .turn) :
    ordered .yield j = { j with order := some .yield } := by
  rcases h with h | h
  · simp only [ordered, h]
  · cases hheld : j.held <;> simp [ordered, h, hheld, StopOrder.max, StopOrder.rank]

theorem ordered_cancel {j : Job} (h : j.order ≠ some .destroy) : ordered .cancel j = { j with order := some .cancel } := by
  cases horder : j.order with
  | none => simp only [ordered, horder]
  | some q =>
    cases hheld : j.held <;> cases q <;> simp_all [ordered, StopOrder.max, StopOrder.rank]

theorem ordered_frame (o : StopOrder) (j : Job) :
    ordered o j = { j with order := (ordered o j).order, held := (ordered o j).held } := by
  unfold ordered
  split <;> rfl

/-- Whether the stages of a job stand at their points rests on the cores, and on the job's stages and its transition. -/
theorem allAtPoint_congr {s t : State} {j k : Job} (hcores : t.cores = s.cores) (hmap : t.coreMap = s.coreMap)
    (htrans : k.trans = j.trans) (hstages : k.stages = j.stages) : allAtPoint t k = allAtPoint s j := by
  have hpoint : atPoint t = atPoint s := by
    funext r
    simp only [atPoint, engineBusy, coreOf, physOf, hcores, hmap]
  rw [allAtPoint, allAtPoint, htrans, hstages, hpoint]

/-- A job short of its pre-emption points takes an order and runs on towards them. -/
theorem orderStop_running {s : State} {c : Nat} {x : Ctx} {j : Job} (hctx : tget? s.ctxs c = some x) (hjob : x.job = some j)
    (hon : j.onCores = true) (hpoint : allAtPoint s j = false) (o : StopOrder) :
    orderStop s c o = modJob s c (ordered o) := by
  have hframe := ordered_frame o j
  refine tryStop_running (tget?_modJob hctx hjob (ordered o)) rfl ?_ ?_
  · rw [hframe]
    exact hon
  · rw [hframe]
    exact (allAtPoint_congr (s := s) rfl rfl rfl rfl).trans hpoint

/-! ## A job that is cancelled at its pre-emption points (R390, R396, R401) -/

/-- A job that leaves its cores before it has ended counts as a switch out (R381, R396). -/
def switchCounted (s : State) (c : Nat) (j : Job) : State :=
  if j.onCores ∧ j.ended.isNone then modAcct s c (fun a => { a with preemptions := a.preemptions + 1 }) else s

theorem stopJob_eq (s : State) (c : Nat) (j : Job) (st : Status) (r : Reason) :
    stopJob s c j st r = completeJob (switchCounted s c j) c (j.ended.getD (st, r)).1 (j.ended.getD (st, r)).2 := rfl

theorem switchCounted_frame (s : State) (c : Nat) (j : Job) :
    switchCounted s c j = { s with ctxs := (switchCounted s c j).ctxs } := by
  unfold switchCounted
  split <;> rfl

theorem tget?_switchCounted {s : State} {c : Nat} {x : Ctx} (hctx : tget? s.ctxs c = some x) {j : Job} (hon : j.onCores = true) :
    ∃ a, tget? (switchCounted s c j).ctxs c = some { x with acct := a } ∧
      a.preemptions = x.acct.preemptions + (if j.ended = none then 1 else 0) := by
  unfold switchCounted
  cases hended : j.ended with
  | none => exact ⟨_, by rw [if_pos ⟨hon, rfl⟩, tget?_modAcct hctx], rfl⟩
  | some e => exact ⟨x.acct, by rw [if_neg (by simp), hctx], rfl⟩

theorem tryStop_cancel {s : State} {c : Nat} {x : Ctx} {j : Job} (hctx : tget? s.ctxs c = some x) (hjob : x.job = some j)
    (horder : j.order = some .cancel) (hpoint : allAtPoint s j = true) (hstall : j.cancelStalled = false) :
    tryStop s c = startNext (schedule (stopJob (unstall s c) c j .preempted .schedCancelled)) c := by
  simp only [tryStop, hctx, Option.bind_some, hjob, horder, hpoint, Bool.or_true, if_true, stopEffect, hstall,
    Bool.false_eq_true, if_false]

/-! ## RUN_CANCEL and YIELD -/

/-- A job whose stop a YIELD waits for. -/
def yieldAwaitedBy (rq : Req) (j : Job) : Job := { j with waiters := j.waiters ++ [(rq, 0x0132)] }

/-- A job whose end a RUN_CANCEL waits for. -/
def awaitedBy (rq : Req) (stalled : Bool) (j : Job) : Job :=
  { j with waiters := j.waiters ++ [(rq, 0x0131)], cancelStalled := stalled }

/-- The job that RUN_CANCEL finds at its pre-emption points: cancelled, and awaited by the command. -/
def cancelledJob (rq : Req) (j : Job) : Job := { awaitedBy rq false j with order := some .cancel }

/-- A job that RUN_CANCEL finds at its pre-emption points is about to complete: the queue is cancelled and the switch out
counted. -/
def cancelledAtPoint (s : State) (rq : Req) (x : Ctx) (j : Job) : State :=
  switchCounted (unstall (modJob (modJob (queueCancelled s rq.ctx x) rq.ctx (awaitedBy rq false)) rq.ctx (ordered .cancel))
    rq.ctx) rq.ctx (cancelledJob rq j)

theorem allAtPoint_awaitedBy (s : State) (rq : Req) (x : Ctx) (j : Job) :
    allAtPoint (modJob (queueCancelled s rq.ctx x) rq.ctx (awaitedBy rq (x.st == .stalled)))
      (awaitedBy rq (x.st == .stalled) j) = allAtPoint s j := by
  obtain ⟨_, _, _, _, _, h⟩ := queueCancelled_frame s rq.ctx x
  rw [h]
  exact allAtPoint_congr rfl rfl rfl rfl

theorem cancelledAtPoint_frame (s : State) (rq : Req) (x : Ctx) (j : Job) : ∃ net draws rel aud ctxs sched,
    cancelledAtPoint s rq x j = { s with net := net, draws := draws, rel := rel, aud := aud, ctxs := ctxs, sched := sched } := by
  obtain ⟨_, _, _, _, _, h⟩ := queueCancelled_frame s rq.ctx x
  rw [cancelledAtPoint, switchCounted_frame, h]
  exact ⟨_, _, _, _, _, _, rfl⟩

section
variable {rq : Req} {x : Ctx} {s : State} (hctx : liveCtx s rq.ctx = some x)
include hctx

theorem execPreemptYield_idle (hjob : x.job = none) :
    execPreemptYield rq s = .next (replyC s rq 0x0132 .ok .none []) := by
  simp only [execPreemptYield, onCtx_some hctx, hjob]

theorem execRunCancel_idle (hjob : x.job = none) :
    execRunCancel rq s = .next (replyC (queueCancelled s rq.ctx x) rq 0x0131 .ok .none []) := by
  simp only [execRunCancel, onCtx_some hctx, hjob]
  rfl

variable {j : Job} (hjob : x.job = some j)
include hjob

theorem execPreemptYield_void (hvoid : x.sealed = true ∨ j.onCores = false) :
    execPreemptYield rq s = .next (replyC s rq 0x0132 .ok .none []) := by
  simp only [execPreemptYield, onCtx_some hctx, hjob]
  rw [if_pos (by simpa using hvoid)]

theorem execRunCancel_job : execRunCancel rq s =
    .next (orderStop (modJob (queueCancelled s rq.ctx x) rq.ctx (awaitedBy rq (x.st == .stalled))) rq.ctx .cancel) := by
  simp only [execRunCancel, onCtx_some hctx, hjob]
  rfl

/-- The context of a RUN_CANCEL whose queue is cancelled and whose job the command awaits. -/
theorem tget?_awaitedBy : tget? (modJob (queueCancelled s rq.ctx x) rq.ctx (awaitedBy rq (x.st == .stalled))).ctxs rq.ctx =
    some { x with runQ := [], job := some (awaitedBy rq (x.st == .stalled) j) } := by
  obtain ⟨hx, -⟩ := liveCtx_some hctx
  exact tget?_modJob (tget?_queueCancelled hx) hjob _

theorem execRunCancel_atPoint (hpoint : allAtPoint s j = true) (hst : x.st = .resident) (horder : j.order ≠ some .destroy)
    {st : Status} {r : Reason} (hend : (st, r) = j.ended.getD (.preempted, .schedCancelled)) : execRunCancel rq s =
    .next (startNext (schedule (completeJob (cancelledAtPoint s rq x j) rq.ctx st r)) rq.ctx) := by
  have hawaited := tget?_awaitedBy hctx hjob
  have hat := (allAtPoint_awaitedBy s rq x j).trans hpoint
  have hstall : (x.st == .stalled) = false := by simp [hst]
  rw [hstall] at hawaited hat
  have hcancelled : ordered .cancel (awaitedBy rq false j) = cancelledJob rq j := ordered_cancel horder
  have hordered := tget?_modJob hawaited rfl (ordered .cancel)
  rw [hcancelled] at hordered
  rw [execRunCancel_job hctx hjob, hstall, orderStop_eq, tryStop_cancel hordered rfl rfl ?_ rfl, stopJob_eq]
  · rw [show (cancelledJob rq j).ended.getD (.preempted, .schedCancelled) = (st, r) from hend.symm]
    rfl
  · exact (allAtPoint_congr rfl rfl rfl rfl).trans hat

variable (hon : j.onCores = true)
include hon

theorem execPreemptYield_running (hpoint : allAtPoint s j = false) (hshared : x.sealed = false) : execPreemptYield rq s =
    .next (modJob (modJob s rq.ctx (yieldAwaitedBy rq)) rq.ctx (ordered .yield)) := by
  obtain ⟨hx, -⟩ := liveCtx_some hctx
  simp only [execPreemptYield, onCtx_some hctx, hjob]
  rw [if_neg (by simp [hshared, hon])]
  exact congrArg Host.Outcome.next (orderStop_running (tget?_modJob hx hjob (yieldAwaitedBy rq)) rfl hon
    ((allAtPoint_congr rfl rfl rfl rfl).trans hpoint) .yield)

theorem execRunCancel_running (hpoint : allAtPoint s j = false) : execRunCancel rq s =
    .next (modJob (modJob (queueCancelled s rq.ctx x) rq.ctx (awaitedBy rq (x.st == .stalled))) rq.ctx (ordered .cancel)) := by
  rw [execRunCancel_job hctx hjob, orderStop_running (tget?_awaitedBy hctx hjob) rfl hon]
  exact (allAtPoint_awaitedBy ..).trans hpoint

theorem tget?_cancelledAtPoint (hst : x.st = .resident) (horder : j.order ≠ some .destroy) :
    ∃ a, tget? (cancelledAtPoint s rq x j).ctxs rq.ctx =
      some { x with runQ := [], job := some (cancelledJob rq j), acct := a } ∧
      a.preemptions = x.acct.preemptions + (if j.ended = none then 1 else 0) := by
  obtain ⟨hx, -⟩ := liveCtx_some hctx
  have hordered := tget?_modJob (tget?_modJob (tget?_queueCancelled hx) hjob (awaitedBy rq false)) rfl (ordered .cancel)
  rw [show ordered .cancel (awaitedBy rq false j) = cancelledJob rq j from ordered_cancel horder] at hordered
  have hresident := tget?_unstall hordered
  rw [if_neg (by simp [hst])] at hresident
  exact tget?_switchCounted hresident hon

end

/-- Settles O12: RUN by its checks and by whether a job runs, RUN_CANCEL and YIELD by whether the job's stages all stand at
their pre-emption points. -/
theorem runsStartCancelAndYield : Obligations.RunsStartCancelAndYield := by
  refine ⟨fun rq slot param x s hl hctx => ⟨fun himage => ?_, fun hslot => ?_, fun im himage hslot => ⟨fun hreload => ?_,
    fun hreload hfull => ?_, fun hreload hroom hjob => execRun_queued hctx param himage hslot hreload hroom hjob, ?_⟩⟩,
    fun rq x s hl hctx => ⟨fun hjob => ?_, fun j hjob hvoid => ?_, fun hjob => execRunCancel_idle hctx hjob, ?_, ?_⟩⟩
  · exact answered_replyC (execRun_noImage hctx param himage) hl
  · exact answered_replyC (execRun_barred hctx param hslot) hl
  · exact answered_replyC (execRun_reload hctx param himage hslot hreload) hl
  · exact answered_replyC (execRun_full hctx param himage hslot hreload hfull) hl
  · intro hreload hq hdescent hjob hst hpark hcores
    refine ⟨_, _, _, execRun_starts hctx param himage hslot hreload hq hdescent hjob hst hpark hcores rfl,
      tget?_setCtx .., rfl, rfl, rfl, rfl, rfl, rfl, ?_, rfl, rfl, rfl, fun c hc => ?_, rfl⟩
    · rw [firstJob, show tget? (withRun x _).images slot = some im from himage, Option.getD_some]
    · rw [draw_ctxs, setCtx, tget?_tset_ne _ _ _ _ hc, tget?_modCtx_ne _ _ _ _ hc, interim_ctxs]
  · exact answered_replyC (execPreemptYield_idle hctx hjob) hl
  · exact answered_replyC (execPreemptYield_void hctx hjob hvoid) hl
  · intro j hjob hon hpoint
    obtain ⟨hx, -⟩ := liveCtx_some hctx
    refine ⟨fun hshared horder => ⟨_, execPreemptYield_running hctx hjob hon hpoint hshared, ?_, fun c hc => ?_, rfl⟩,
      fun horder => ⟨_, execRunCancel_running hctx hjob hon hpoint, ?_, fun c hc => ?_, ?_⟩⟩
    · rw [tget?_modJob (tget?_modJob hx hjob _) rfl, ordered_yield (j := yieldAwaitedBy rq j) horder]
      rfl
    · rw [tget?_modJob_ne _ _ _ _ hc, tget?_modJob_ne _ _ _ _ hc]
    · rw [tget?_modJob (tget?_awaitedBy hctx hjob) rfl, ordered_cancel (j := awaitedBy rq _ j) horder]
      rfl
    · rw [tget?_modJob_ne _ _ _ _ hc, tget?_modJob_ne _ _ _ _ hc, tget?_queueCancelled_ne _ _ hc]
    · obtain ⟨_, _, _, _, _, hframe⟩ := queueCancelled_frame s rq.ctx x
      rw [hframe]
      rfl
  · intro j hjob hon hpoint hst horder st r hend
    obtain ⟨a, hy, hcount⟩ := tget?_cancelledAtPoint hctx hjob hon hst horder
    obtain ⟨_, _, _, _, _, _, hframe⟩ := cancelledAtPoint_frame s rq x j
    refine ⟨_, _, _, execRunCancel_atPoint hctx hjob hpoint hst horder hend, hy, rfl, rfl, rfl, rfl, hcount, ?_⟩
    rw [hframe]

end Sys2Proof.Machine

/-!
PROOFS. POWER_VOTE CAST and WITHDRAW (R402, R612 to R615).
-/

namespace Sys2Proof.Machine

/-! ## The vote of a client -/

/-- The client of a vote: its class and ID. -/
abbrev ownedBy (v : Vote) (cls id : Nat) : Prop := v.cls = cls ∧ v.id = id

/-- A vote joins those held. -/
def voteAdded (s : State) (v : Vote) : State := { s with pwr := { s.pwr with votes := s.pwr.votes ++ [v] } }

/-- A named mask names no domain beyond bit 31 (R612). -/
theorem namedDomains_lt (m : Nat) : namedDomains m < 2 ^ 32 := by
  unfold namedDomains
  omega

/-- Domains taken out of a mask are out of it. -/
theorem and_removed_and {m : Nat} (hm : m < 2 ^ 32) (d : Nat) : d &&& ((2 ^ 32 - 1) ^^^ m) &&& m = 0 := by
  refine Nat.eq_of_testBit_eq fun k => ?_
  rw [Nat.testBit_and, Nat.testBit_and, Nat.testBit_xor, Nat.testBit_two_pow_sub_one, Nat.zero_testBit]
  by_cases hk : k < 32
  · cases m.testBit k <;> simp [hk]
  · rw [Nat.testBit_lt_two_pow (hm.trans_le (Nat.pow_le_pow_right (by decide) (Nat.le_of_not_lt hk))), Bool.and_false]

section
variable {s : State} {cls id m : Nat}

theorem voteCast_noEntry (hentry : s.pwr.entry = none) (cls id m : Nat) : voteCast s cls id m = syncUp s := by
  simp only [voteCast, abortEntry, hentry, ite_self]

/-- A client that holds no vote casts one: it joins the votes, and the ISP, AUDIO and PCIE domains follow (R614, R615). -/
theorem castVote_first (hentry : s.pwr.entry = none) (hdescent : descending s = false)
    (hfirst : s.pwr.votes.all (fun v => !(v.cls == cls && v.id == id)) = true) : castVote s cls id m =
    syncUp (voteAdded s { cls := cls, id := id, domains := m }) := by
  have hnone : s.pwr.votes.any (fun v => v.cls == cls && v.id == id) = false := by
    rw [List.any_eq_not_all_not, hfirst]
    rfl
  simp only [castVote, cancelDescent_awake hdescent, hnone, Bool.false_eq_true, if_false]
  exact voteCast_noEntry (by exact hentry) cls id m

/-- What the votes name does not rest on the domains that are up. -/
theorem votedMask_syncUp (s : State) : votedMask (syncUp s) = votedMask s := rfl

theorem syncUp_up (s : State) : (syncUp s).pwr.up = s.pwr.up ||| (votedMask (syncUp s) &&& 0x700) := by
  rw [votedMask_syncUp]
  rfl

theorem mem_dropVote {v : Vote} : v ∈ (dropVote s cls id m).pwr.votes ↔ v.domains ≠ 0 ∧ ∃ w ∈ s.pwr.votes,
    (if ownedBy w cls id then { w with domains := w.domains &&& ((2 ^ 32 - 1) ^^^ m) } else w) = v := by
  simp only [dropVote, List.mem_filter, List.mem_map, bne_iff_ne, ne_eq, ownedBy]
  exact and_comm

/-- The domains withdrawn are out of the client's vote (R614). -/
theorem dropVote_owned (hm : m < 2 ^ 32) {v : Vote} (hv : v ∈ (dropVote s cls id m).pwr.votes) (howned : ownedBy v cls id) :
    v.domains &&& m = 0 := by
  obtain ⟨-, w, -, rfl⟩ := mem_dropVote.mp hv
  split
  · exact and_removed_and hm _
  · next hother =>
    rw [if_neg hother] at howned
    exact absurd howned hother

/-- Another client's vote stays as it is. -/
theorem dropVote_other {v : Vote} (hnamed : v.domains ≠ 0) (hother : ¬ ownedBy v cls id) :
    v ∈ (dropVote s cls id m).pwr.votes ↔ v ∈ s.pwr.votes := by
  rw [mem_dropVote]
  constructor
  · rintro ⟨-, w, hw, rfl⟩
    split
    · next howned =>
      rw [if_pos howned] at hother
      exact absurd howned hother
    · exact hw
  · exact fun hv => ⟨hnamed, v, hv, if_neg hother⟩

end

/-! ## The command of a client (R402, R613, R614) -/

/-- The vote command's effect on the votes. -/
def votesChanged (s : State) (cls id m : Nat) (cast : Bool) : State :=
  if cast then castVote s cls id (namedDomains m) else dropVote s cls id (namedDomains m)

section
variable {rq : Req} {s : State}

/-- A client of a class above 0 votes under its session's number. -/
theorem voteCommand_session {client : Nat} (hclass : client ≠ 0) (m : Nat) (cast : Bool) : voteCommand s rq client m cast =
    replyD (votesChanged s client (rq.sess % 2 ^ 16) m cast) rq 0x0190 .ok .none [] := by
  simp only [voteCommand, voteClient, if_neg hclass, votesChanged]

theorem voteCommand_ofContext (s : State) (rq : Req) (m : Nat) (cast : Bool) : voteCommand s rq 0 m cast =
    onCtx s rq 0x0190 (fun x =>
      if ctxMayName x m then replyC (votesChanged s 0 rq.ctx m cast) rq 0x0190 .ok .none []
      else replyC s rq 0x0190 .refused .pwrDomain []) := rfl

theorem voteCommand_unknown (hctx : liveCtx s rq.ctx = none) (m : Nat) (cast : Bool) :
    voteCommand s rq 0 m cast = replyC s rq 0x0190 .noContext .ctxUnknown [] := by
  rw [voteCommand_ofContext, onCtx_none hctx]

variable {x : Ctx} (hctx : liveCtx s rq.ctx = some x) {m : Nat}
include hctx

/-- A context votes under its own number. -/
theorem voteCommand_context (hmay : m &&& ((2 ^ 32 - 1) ^^^ (x.cores ||| 0x700)) = 0) (cast : Bool) :
    voteCommand s rq 0 m cast = replyC (votesChanged s 0 rq.ctx m cast) rq 0x0190 .ok .none [] := by
  have hname : ctxMayName x m = true := decide_eq_true hmay
  rw [voteCommand_ofContext, onCtx_some hctx, if_pos hname]

theorem voteCommand_beyond (hbeyond : m &&& ((2 ^ 32 - 1) ^^^ (x.cores ||| 0x700)) ≠ 0) (cast : Bool) :
    voteCommand s rq 0 m cast = replyC s rq 0x0190 .refused .pwrDomain [] := by
  have hname : ¬ ctxMayName x m = true := fun h => hbeyond (of_decide_eq_true h)
  rw [voteCommand_ofContext, onCtx_some hctx, if_neg hname]

end

/-- The reply that a vote command's effect `u` is answered with, whichever client asks. -/
theorem answered_vote {i : Instr} {rq : Req} {s u : State} {client m cls id ctx : Nat} {cast : Bool}
    (hexec : exec i s = .next (voteCommand s rq client m cast)) (hlive : Live rq u)
    (hcontext : client = 0 → cls = 0 ∧ id = rq.ctx ∧ ctx = rq.ctx ∧
      ∃ x, liveCtx s rq.ctx = some x ∧ m &&& ((2 ^ 32 - 1) ^^^ (x.cores ||| 0x700)) = 0)
    (hsession : client ≠ 0 → cls = client ∧ id = rq.sess % 2 ^ 16 ∧ ctx = 0)
    (hu : votesChanged s cls id m cast = u) : Answered i s rq 0x0190 ctx .ok .none [] u := by
  subst hu
  by_cases hclass : client = 0
  · obtain ⟨rfl, rfl, rfl, x, hctx, hmay⟩ := hcontext hclass
    subst hclass
    exact answered_replyC (hexec.trans (congrArg _ (voteCommand_context hctx hmay cast))) hlive
  · obtain ⟨rfl, rfl, rfl⟩ := hsession hclass
    exact answered_replyD (hexec.trans (congrArg _ (voteCommand_session hclass m cast))) hlive

/-- Settles O6: a first CAST by `castVote_first`, WITHDRAW vote by vote, and a context's refusals by its check. -/
theorem powerVotes : Obligations.PowerVotes := by
  refine ⟨fun rq client m s hl hentry hdescent cls id ctx hcontext hsession => ⟨fun hfirst => ?_, ?_⟩,
    fun rq m s c hl hc => ⟨fun x hctx hbeyond => ?_, fun hctx => ?_⟩⟩
  · have hcast := castVote_first (m := namedDomains m) hentry hdescent hfirst
    exact ⟨syncUp (voteAdded s { cls := cls, id := id, domains := namedDomains m }),
      answered_vote (cast := true) rfl hl hcontext hsession hcast, rfl, syncUp_up _, rfl⟩
  · exact ⟨dropVote s cls id (namedDomains m), answered_vote (cast := false) rfl hl hcontext hsession rfl,
      fun v hv => ⟨(mem_dropVote.mp hv).1, fun hcls hid => dropVote_owned (namedDomains_lt m) hv ⟨hcls, hid⟩⟩,
      fun v hnamed hother => dropVote_other hnamed hother, rfl⟩
  · rcases hc with rfl | rfl <;> exact answered_replyC (congrArg _ (voteCommand_beyond hctx hbeyond _)) hl
  · rcases hc with rfl | rfl <;> exact answered_replyC (congrArg _ (voteCommand_unknown hctx m _)) hl

end Sys2Proof.Machine

/-!
PROOFS. CTX_CREATE and CTX_DESTROY (R363 to R367, R477, R516, R550, R658, R706, R810).
-/

namespace Sys2Proof.Machine

/-! ## The lowest free number (R363) -/

theorem firstFree_some {used : Nat → Bool} {fuel k c : Nat} (h : firstFree used fuel k = some c) :
    used c = false ∧ ∀ i, k ≤ i → i < c → used i = true := by
  induction fuel generalizing k with
  | zero => cases h
  | succ fuel ih =>
    unfold firstFree at h
    split at h
    · next hk =>
      obtain ⟨hfree, hbelow⟩ := ih h
      refine ⟨hfree, fun i hi hlt => ?_⟩
      rcases Nat.eq_or_lt_of_le hi with rfl | hi
      · exact hk
      · exact hbelow i hi hlt
    · next hk =>
      obtain rfl := Option.some.inj h
      exact ⟨eq_false_of_ne_true hk, fun i hi hlt => absurd hlt (Nat.not_lt.mpr hi)⟩

/-- The number found is the only one that is free and has no free one below it. -/
theorem firstFree_unique {used : Nat → Bool} {fuel c d : Nat} (h : firstFree used fuel 0 = some d) (hfree : used c = false)
    (hbelow : ∀ i < c, used i = true) : d = c := by
  obtain ⟨hd, hlow⟩ := firstFree_some h
  rcases Nat.lt_trichotomy d c with hlt | heq | hgt
  · exact absurd (hbelow d hlt) (by simp [hd])
  · exact heq
  · exact absurd (hlow c (Nat.zero_le c) hgt) (by simp [hfree])

/-! ## CTX_CREATE (R363, R364, R810) -/

/-- A context has been created: it stands in the table, and its key set is held (R364, R638). -/
def ctxCreated (s : State) (p : CtxParams) (c : Nat) : State :=
  { s with
    ctxs := tset s.ctxs c (newCtx s p),
    sec := { s.sec with keys := insertNum s.sec.nextKey s.sec.keys, nextKey := s.sec.nextKey + 1 } }

section
variable {s : State} {p : CtxParams}

theorem createCheck_params (hparams : createParamsOk p = false) : createCheck s p = some (.refused, .ctxParam) := by
  simp [createCheck, hparams]

theorem createCheck_cores (hparams : createParamsOk p = true) (hcores : createCoresOk s p = false) :
    createCheck s p = some (.refused, .ctxCores) := by
  simp [createCheck, hparams, hcores]

theorem createCheck_partition (hparams : createParamsOk p = true) (hcores : createCoresOk s p = true)
    (hpartition : createPartitionOk s p = false) : createCheck s p = some (.refused, .ctxPartition) := by
  simp [createCheck, hparams, hcores, hpartition]

/-- A CTX_CREATE that passes its checks finds a number. -/
theorem createCheck_none (h : createCheck s p = none) : ∃ c, firstFree (fun c => (tget? s.ctxs c).isSome) 512 0 = some c := by
  refine Option.ne_none_iff_exists'.mp fun hnone => ?_
  unfold createCheck at h
  rw [hnone] at h
  split at h
  · cases h
  · split at h
    · cases h
    · split at h
      · cases h
      · cases h

theorem execCtxCreate_fails {rq : Req} {st : Status} {r : Reason} (h : createCheck s p = some (st, r)) :
    execCtxCreate rq p s = .next (replyD s rq 0x0100 st r []) := by
  simp only [execCtxCreate, h]

theorem execCtxCreate_creates {c : Nat} (rq : Req) (h : createCheck s p = none) (hlower : ∀ k < c, (tget? s.ctxs k).isSome)
    (hfree : tget? s.ctxs c = none) : execCtxCreate rq p s = .next (replyAs (draw (ctxCreated s p c)) rq 0x0100 c .ok .none
      (leBytes 2 c ++ leBytes 1 (newCtx s p).partition ++ [0])) := by
  obtain ⟨d, hd⟩ := createCheck_none h
  obtain rfl := firstFree_unique hd (by rw [hfree, Option.isSome_none]) hlower
  simp only [execCtxCreate, h, hd]
  rfl

theorem answered_ctxCreate {c : Nat} {rq : Req} (hl : Live rq s) (h : createCheck s p = none)
    (hlower : ∀ k < c, (tget? s.ctxs k).isSome) (hfree : tget? s.ctxs c = none) :
    Answered (.ctxCreate rq p) s rq 0x0100 c .ok .none (leBytes 2 c ++ leBytes 1 (newCtx s p).partition ++ [0])
      (ctxCreated s p c) := by
  obtain ⟨hframe, hothers⟩ := replyAs_only (draw (ctxCreated s p c)) rq 0x0100 c .ok .none
    (leBytes 2 c ++ leBytes 1 (newCtx s p).partition ++ [0])
  exact ⟨_, execCtxCreate_creates rq h hlower hfree, replyAs_replied _ rq 0x0100 c .ok .none _ hl, hframe, hothers⟩

end

/-! ## What is freed with a context (R235, R366) -/

section
variable (l : List (Nat × Obj)) (y : Ctx)

/-- Several objects of a context are freed. -/
def objsFreed : Ctx := l.foldl (fun w e => freeObj w e.1 e.2) y

theorem objsFreed_frame : ∃ objs fills, objsFreed l y = { y with objs := objs, fills := fills } :=
  List.foldlRecOn (motive := fun w => ∃ objs fills, w = { y with objs := objs, fills := fills }) l _ ⟨_, _, rfl⟩
    fun w hw e _ => by
    obtain ⟨_, _, rfl⟩ := hw
    exact ⟨_, _, freeObj_frame _ e.1 e.2⟩

theorem mem_objsFreed {e : Nat × Obj} (h : e ∈ (objsFreed l y).objs) : e ∈ y.objs ∧ e.1 ∉ l.map Prod.fst := by
  induction l generalizing y with
  | nil => exact ⟨h, List.not_mem_nil⟩
  | cons f l ih =>
    obtain ⟨hmem, hnot⟩ := ih _ h
    rw [freeObj_objs, terase, List.mem_filter] at hmem
    obtain ⟨hmem, hne⟩ := hmem
    exact ⟨hmem, by simpa [hnot] using hne⟩

/-- A context all of whose objects are freed has none. -/
theorem objsFreed_all : (objsFreed y.objs y).objs = [] :=
  List.eq_nil_iff_forall_not_mem.mpr fun e he => by
    obtain ⟨hmem, hnot⟩ := mem_objsFreed y.objs y he
    exact hnot (List.mem_map_of_mem hmem)

end

theorem fills_freeObj_keeps {y : Ctx} {h : Nat} (hfill : (tget? y.fills h).isSome) (k : Nat) (o : Obj) :
    (tget? (freeObj y k o).fills h).isSome := by
  by_cases htier : o.homeTier = 3 ∨ o.homeTier = 4
  · rw [freeObj_fills_home htier]
    rcases eq_or_ne h k with rfl | hne
    · rw [tget?_tset_self, Option.isSome_some]
    · rwa [tget?_tset_ne _ _ _ _ hne]
  · rwa [freeObj_fills_share htier]

/-- Every object freed whose home lies in T3 or T4 has its zero-fill pending (R232). -/
theorem objsFreed_fills {l : List (Nat × Obj)} {h : Nat} {o : Obj} (hmem : (h, o) ∈ l)
    (htier : o.homeTier = 3 ∨ o.homeTier = 4) (y : Ctx) : (tget? (objsFreed l y).fills h).isSome := by
  obtain ⟨before, after, rfl⟩ := List.append_of_mem hmem
  rw [objsFreed, List.foldl_append, List.foldl_cons]
  refine List.foldlRecOn (motive := fun w : Ctx => (tget? w.fills h).isSome) after _ ?_ fun w hw e _ =>
    fills_freeObj_keeps hw e.1 e.2
  rw [freeObj_fills_home htier, tget?_tset_self, Option.isSome_some]

/-! ## The frames that a released ISP context leaves behind (R415, R432) -/

/-- From `s` to `t` nothing changes but what the records of frames change: the window writes on their way with the counts of
their windows, the frames, and the draws. -/
def OnlyFrames (s t : State) : Prop := ∃ wins flights next waits draws frames told, t = { s with
  wins := wins, flights := flights, nextFlight := next, waitHdrs := waits, draws := draws,
  cam := { s.cam with frames := frames, told := told } }

theorem OnlyFrames.refl (s : State) : OnlyFrames s s := ⟨_, _, _, _, _, _, _, rfl⟩

theorem OnlyFrames.trans {s t u : State} (hst : OnlyFrames s t) (htu : OnlyFrames t u) : OnlyFrames s u := by
  obtain ⟨_, _, _, _, _, _, _, rfl⟩ := hst
  obtain ⟨_, _, _, _, _, _, _, rfl⟩ := htu
  exact ⟨_, _, _, _, _, _, _, rfl⟩

theorem OnlyFrames.foldl {β : Type} {f : State → β → State} (hf : ∀ a b, OnlyFrames a (f a b)) (l : List β) (s : State) :
    OnlyFrames s (l.foldl f s) :=
  List.foldlRecOn (motive := OnlyFrames s) l f (.refl s) fun a ha b _ => ha.trans (hf a b)

theorem checkWrite_onlyFrames (s : State) (h : WinHdr) (src : WriteFrom) : OnlyFrames s (checkWrite s h src).1 := by
  unfold checkWrite
  split
  · exact .refl s
  · dsimp only
    split <;> exact ⟨_, _, _, _, _, _, _, rfl⟩

theorem offerWrite_onlyFrames (s : State) (h : WinHdr) (src : WriteFrom) : OnlyFrames s (offerWrite s h src).1 := by
  have hcheck := checkWrite_onlyFrames s h src
  unfold offerWrite
  split
  · exact ⟨_, _, _, _, _, _, _, rfl⟩
  · split
    · next t heq =>
      rw [heq] at hcheck
      exact hcheck.trans ⟨_, _, _, _, _, _, _, rfl⟩
    · exact hcheck

theorem writeRecord_onlyFrames (s : State) (g : Frame) (u : IspFrame) (d : RecDue) : OnlyFrames s (writeRecord s g u d) := by
  have hput : ∀ (a : State) (h : WinHdr) (src : WriteFrom) (b : Bytes),
      OnlyFrames a (if b.isEmpty then a else (offerWrite a h src).1) := fun a h src b => by
    split
    · exact .refl a
    · exact offerWrite_onlyFrames a h src
  have hbegun : OnlyFrames s (tellDropped (draw s) u.isp g.stream) := ⟨_, _, _, _, _, _, _, rfl⟩
  unfold writeRecord
  split
  · exact .refl s
  · exact ((hbegun.trans (hput ..)).trans (hput ..)).trans (hput ..)

theorem finishFrames_onlyFrames (s : State) : OnlyFrames s (finishFrames s) := by
  refine OnlyFrames.trans (t := _) (.foldl (fun a g => .foldl (fun b u => ?_) _ a) _ s) ⟨_, _, _, _, _, _, _, rfl⟩
  split
  · split
    · exact .refl b
    · exact (writeRecord_onlyFrames ..).trans ⟨_, _, _, _, _, _, _, rfl⟩
  · exact .refl b

/-! ## What names a context lets it go (R366, R415, R477, R550) -/

/-- Nothing that outlives a context names it: no vote, no lane, no ISP context, no audio. -/
def Disowned (c : Nat) (s : State) : Prop :=
  (∀ v ∈ s.pwr.votes, ¬(v.cls = 0 ∧ v.id = c)) ∧ (∀ l ∈ s.lanes, l.2.owner ≠ some c) ∧ (∀ o ∈ s.cam.owners, o.2 ≠ c) ∧
    s.aud.owner ≠ some c

/-- From `s` to `t` the contexts, the cores and the sessions stay. -/
def Standing (s t : State) : Prop := t.ctxs = s.ctxs ∧ t.cores = s.cores ∧ t.net.sessions = s.net.sessions

theorem camRelease_frame (s : State) (c : Nat) : ∃ regs wins flights next waits draws cam, camRelease s c = { s with
    regs := regs, wins := wins, flights := flights, nextFlight := next, waitHdrs := waits, draws := draws, cam := cam } ∧
    cam.owners = s.cam.owners.filter (fun e => !(e.2 == c)) := by
  have hpages : ∀ l : List (Nat × Nat), ∃ regs,
      l.foldl (fun a e => modPage a (ispPage e.1) (fun g => { g with enable := false })) s = { s with regs := regs } := fun l =>
    List.foldlRecOn (motive := fun a => ∃ regs, a = { s with regs := regs }) l _ ⟨_, rfl⟩ fun a ha e _ => by
      obtain ⟨_, rfl⟩ := ha
      exact ⟨_, rfl⟩
  obtain ⟨_, hpages⟩ := hpages (s.cam.owners.filter (fun e => e.2 == c))
  unfold camRelease
  dsimp only
  rw [hpages]
  obtain ⟨_, _, _, _, _, _, _, hframes⟩ := finishFrames_onlyFrames _
  rw [hframes]
  exact ⟨_, _, _, _, _, _, _, rfl, rfl⟩

theorem audRelease_frame (s : State) (c : Nat) : ∃ aud regs, audRelease s c = { s with aud := aud, regs := regs } ∧
    aud.owner ≠ some c := by
  unfold audRelease
  dsimp only
  split
  · exact ⟨_, _, rfl, nofun⟩
  · next hother => exact ⟨_, s.regs, rfl, hother⟩

theorem clearOwners_frame (s : State) (c : Nat) : ∃ regs wins flights next waits draws cam aud set, clearOwners s c = { s with
    regs := regs, wins := wins, flights := flights, nextFlight := next, waitHdrs := waits, draws := draws, cam := cam,
    aud := aud, set := set } ∧ (∀ o ∈ cam.owners, o.2 ≠ c) ∧ aud.owner ≠ some c := by
  obtain ⟨_, _, _, _, _, _, cam, hcam, howners⟩ := camRelease_frame s c
  obtain ⟨_, _, haud, howner⟩ := audRelease_frame (camRelease s c) c
  rw [clearOwners, haud, hcam]
  refine ⟨_, _, _, _, _, _, cam, _, _, rfl, fun o ho => ?_, howner⟩
  rw [howners, List.mem_filter] at ho
  simpa using ho.2

theorem freeLanes_owner (s : State) (c : Nat) : ∀ l ∈ (freeLanes s c).lanes, l.2.owner ≠ some c := by
  intro l hl
  obtain ⟨e, -, rfl⟩ := List.mem_map.mp hl
  split
  · exact nofun
  · assumption

/-- The votes, the lanes and every other possession of a context let it go. -/
def letGo (s : State) (c : Nat) : State :=
  clearOwners (freeLanes { s with pwr := { s.pwr with
    votes := s.pwr.votes.filter (fun v => !(v.cls == 0 && v.id == c)) } } c) c

theorem letGo_disowned (s : State) (c : Nat) : Disowned c (letGo s c) := by
  obtain ⟨_, _, _, _, _, _, _, _, _, hframe, howners, howner⟩ := clearOwners_frame (freeLanes { s with pwr := { s.pwr with
    votes := s.pwr.votes.filter (fun v => !(v.cls == 0 && v.id == c)) } } c) c
  rw [letGo, hframe]
  refine ⟨fun v hv => ?_, freeLanes_owner _ c, howners, howner⟩
  have hkept := (List.mem_filter.mp hv).2
  rintro ⟨hcls, hid⟩
  simp [hcls, hid] at hkept

theorem letGo_standing (s : State) (c : Nat) : Standing s (letGo s c) := by
  obtain ⟨_, _, _, _, _, _, _, _, _, hframe, -⟩ := clearOwners_frame (freeLanes { s with pwr := { s.pwr with
    votes := s.pwr.votes.filter (fun v => !(v.cls == 0 && v.id == c)) } } c) c
  rw [letGo, hframe]
  exact ⟨rfl, rfl, rfl⟩

/-! ## The end of a CTX_DESTROY (steps 3 to 5 of R366) -/

/-- A context of which everything is freed but its zero-fills and its key. -/
def emptied (y : Ctx) : Ctx :=
  { objsFreed y.objs y with streams := [], seqs := [], refs := [], unloading := [], retiring := true, destroyReq := none }

/-- The account record rests on the account and on the partition alone (R396). -/
theorem acctRecord_congr {x y : Ctx} (hacct : y.acct = x.acct) (hsealed : y.sealed = x.sealed) (c : Nat) :
    acctRecord c y = acctRecord c x := by
  rw [acctRecord, acctRecord, hacct, hsealed]

theorem acctRecord_emptied (c : Nat) (y : Ctx) : acctRecord c (emptied y) = acctRecord c y := by
  obtain ⟨_, _, hframe⟩ := objsFreed_frame y.objs y
  refine acctRecord_congr ?_ ?_ c <;> rw [emptied, hframe]

theorem emptied_st (y : Ctx) : (emptied y).st = y.st := by
  obtain ⟨_, _, hframe⟩ := objsFreed_frame y.objs y
  rw [emptied, hframe]

/-- From `s` to `t` nothing changes but what replies change. -/
def OnlyReplies (s t : State) : Prop := ∃ net draws rel, t = { s with net := net, draws := draws, rel := rel }

theorem replyC_onlyReplies (s : State) (rq : Req) (op : Nat) (st : Status) (r : Reason) (b : Bytes) :
    OnlyReplies s (replyC s rq op st r b) := by
  obtain ⟨hframe, -⟩ := replyAs_only s rq op rq.ctx st r b
  rw [replyC, hframe]
  exact ⟨_, _, _, rfl⟩

theorem disowned_of_onlyReplies {s t : State} {c : Nat} (h : OnlyReplies s t) (hs : Disowned c s) : Disowned c t := by
  obtain ⟨_, _, _, rfl⟩ := h
  exact hs

/-- The unloads that wait are answered. -/
def unloadsAnswered (s : State) (l : Tab Req) : State := l.foldl (fun a u => replyC a u.2 0x0121 .ok .none []) s

theorem unloadsAnswered_onlyReplies (s : State) (l : Tab Req) : OnlyReplies s (unloadsAnswered s l) :=
  List.foldlRecOn (motive := OnlyReplies s) l _ ⟨_, _, _, rfl⟩ fun a ha u _ => by
    obtain ⟨_, _, _, rfl⟩ := ha
    obtain ⟨_, _, _, h⟩ := replyC_onlyReplies _ u.2 0x0121 .ok .none []
    exact ⟨_, _, _, h⟩

theorem unloadsAnswered_live {rq : Req} {s : State} (hl : Live rq s) (l : Tab Req) : Live rq (unloadsAnswered s l) :=
  List.foldlRecOn (motive := Live rq) l _ hl fun _ ha u _ => replyC_live ha u.2 0x0121 .ok .none []

/-- A context with no image, no job and no chunk being scanned is destroyed at once. -/
theorem finishDestroy_quiet {s : State} {c : Nat} {y : Ctx} {rq : Req} (hctx : tget? s.ctxs c = some y)
    (hst : y.st = .destroying) (hretiring : y.retiring = false) (hjob : y.job = none) (himages : y.images = [])
    (hchunk : chunkOf s c = false) (hreq : y.destroyReq = some rq) :
    finishDestroy s c = replyC (unloadsAnswered (modCtx s c emptied) y.unloading) rq 0x0101 .ok .none (acctRecord c y) := by
  obtain ⟨_, _, _, hframe⟩ := unloadsAnswered_onlyReplies (modCtx s c emptied) y.unloading
  have hemptied : tget (unloadsAnswered (modCtx s c emptied) y.unloading).ctxs y c = emptied y := by
    have hget : tget? (modCtx s c emptied).ctxs c = some (emptied y) := by rw [tget?_modCtx, hctx, Option.map_some]
    rw [hframe]
    exact congrArg (Option.getD · y) hget
  unfold finishDestroy
  simp only [hctx, hst, hretiring, hjob, himages, hchunk, hreq, allQuiet, List.all_nil, List.foldl_nil, ne_eq, not_true_eq_false,
    Option.isSome_none, Bool.false_eq_true, or_self, if_false, Bool.not_true, Bool.or_self]
  rw [← acctRecord_emptied c y, ← hemptied]
  rfl

/-! ## CTX_DESTROY (R366, R706) -/

/-- A PARK that waits when its context is destroyed is refused (log entry 84). -/
def parkRefused (s : State) (x : Ctx) : State :=
  match x.parking with
  | some rq => replyC s rq 0x0132 .refused .preemptState []
  | none => s

theorem parkRefused_onlyReplies (s : State) (x : Ctx) : OnlyReplies s (parkRefused s x) := by
  unfold parkRefused
  split
  · exact replyC_onlyReplies ..
  · exact ⟨_, _, _, rfl⟩

theorem parkRefused_live {rq : Req} {s : State} (hl : Live rq s) (x : Ctx) : Live rq (parkRefused s x) := by
  unfold parkRefused
  split
  · exact replyC_live hl ..
  · exact hl

/-- A context that a CTX_DESTROY has begun to destroy. -/
def doomedCtx (rq : Req) (x : Ctx) : Ctx :=
  { x with st := .destroying, runQ := [], destroyReq := some rq, parking := none, parked := {} }

/-- A context begins to be destroyed: it is DESTROYING, what names it lets it go, and its job is ordered to stop. -/
def destroyBegun (s : State) (rq : Req) (x : Ctx) : State :=
  orderStop (rebuildTable (letGo (modCtx (parkRefused s x) rq.ctx (doomedCtx rq)) rq.ctx)) rq.ctx .destroy

/-- A context with nothing in progress is destroyed but for the reply to the command. -/
def destroyed (s : State) (rq : Req) (x : Ctx) : State :=
  unloadsAnswered (modCtx (destroyBegun s rq x) rq.ctx emptied) x.unloading

theorem orderStop_noJob {s : State} {c : Nat} {x : Ctx} (hctx : tget? s.ctxs c = some x) (hjob : x.job = none)
    (o : StopOrder) : orderStop s c o = modJob s c (ordered o) := by
  have hmod : tget? (modJob s c (ordered o)).ctxs c = some { x with job := none } := by
    rw [modJob, tget?_modCtx, hctx, Option.map_some, hjob, Option.map_none]
  rw [orderStop_eq, tryStop, hmod]
  rfl

theorem orderStop_rebuilt {s : State} {c : Nat} {x : Ctx} (hctx : tget? s.ctxs c = some x) (hjob : x.job = none)
    (o : StopOrder) : ∃ ctxs sched, orderStop (rebuildTable s) c o = { s with ctxs := ctxs, sched := sched } :=
  ⟨_, _, orderStop_noJob (s := rebuildTable s) hctx hjob o⟩

theorem live_modCtx {rq : Req} {s : State} (h : Live rq s) (c : Nat) (f : Ctx → Ctx) : Live rq (modCtx s c f) := h

theorem disowned_modCtx {s : State} {c : Nat} (h : Disowned c s) (d : Nat) (f : Ctx → Ctx) : Disowned c (modCtx s d f) := h

theorem disowned_table {s : State} {c : Nat} (h : Disowned c s) (ctxs : Tab Ctx) (sched : Sched) :
    Disowned c { s with ctxs := ctxs, sched := sched } := h

section
variable {rq : Req} {x : Ctx} {s : State}

theorem tget?_doomed (hctx : tget? s.ctxs rq.ctx = some x) :
    tget? (letGo (modCtx (parkRefused s x) rq.ctx (doomedCtx rq)) rq.ctx).ctxs rq.ctx = some (doomedCtx rq x) := by
  obtain ⟨hctxs, -, -⟩ := letGo_standing (modCtx (parkRefused s x) rq.ctx (doomedCtx rq)) rq.ctx
  obtain ⟨_, _, _, hframe⟩ := parkRefused_onlyReplies s x
  rw [hctxs, tget?_modCtx, hframe, hctx, Option.map_some]

variable (hctx : tget? s.ctxs rq.ctx = some x) (hjob : x.job = none)
include hctx hjob

theorem tget?_destroyBegun : tget? (destroyBegun s rq x).ctxs rq.ctx = some (doomedCtx rq x) := by
  have hdoomed := (congrArg (tget? · rq.ctx) (rebuildTable_ctxs _)).trans (tget?_doomed hctx)
  have hidle : (doomedCtx rq x).job = none := hjob
  rw [destroyBegun, orderStop_noJob hdoomed hidle, modJob, tget?_modCtx, hdoomed, Option.map_some, hidle, Option.map_none,
    ← hidle]

theorem destroyBegun_disowned : Disowned rq.ctx (destroyBegun s rq x) := by
  obtain ⟨_, _, hbegun⟩ := orderStop_rebuilt (tget?_doomed hctx) hjob .destroy
  rw [destroyBegun, hbegun]
  exact disowned_table (letGo_disowned ..) _ _

theorem destroyBegun_chunkOf : chunkOf (destroyBegun s rq x) rq.ctx = chunkOf s rq.ctx := by
  obtain ⟨-, hcores, -⟩ := letGo_standing (modCtx (parkRefused s x) rq.ctx (doomedCtx rq)) rq.ctx
  obtain ⟨_, _, _, hframe⟩ := parkRefused_onlyReplies s x
  obtain ⟨_, _, hbegun⟩ := orderStop_rebuilt (tget?_doomed hctx) hjob .destroy
  have hsame : (destroyBegun s rq x).cores = s.cores := by
    rw [destroyBegun, hbegun]
    dsimp only
    rw [hcores, hframe]
    rfl
  rw [chunkOf, chunkOf, hsame]

theorem destroyBegun_live (hl : Live rq s) : Live rq (destroyBegun s rq x) := by
  obtain ⟨-, -, hsessions⟩ := letGo_standing (modCtx (parkRefused s x) rq.ctx (doomedCtx rq)) rq.ctx
  obtain ⟨_, _, hbegun⟩ := orderStop_rebuilt (tget?_doomed hctx) hjob .destroy
  have hsame : (destroyBegun s rq x).net.sessions = (parkRefused s x).net.sessions := by
    rw [destroyBegun, hbegun]
    exact hsessions
  have hrefused : Live rq (parkRefused s x) := parkRefused_live hl x
  rwa [Live, hsame]

theorem tget?_destroyed : tget? (destroyed s rq x).ctxs rq.ctx = some (emptied (doomedCtx rq x)) := by
  obtain ⟨_, _, _, hframe⟩ := unloadsAnswered_onlyReplies (modCtx (destroyBegun s rq x) rq.ctx emptied) x.unloading
  rw [destroyed, hframe, tget?_modCtx, tget?_destroyBegun hctx hjob, Option.map_some]

theorem destroyed_disowned : Disowned rq.ctx (destroyed s rq x) :=
  disowned_of_onlyReplies (unloadsAnswered_onlyReplies ..) (disowned_modCtx (destroyBegun_disowned hctx hjob) ..)

theorem destroyed_live (hl : Live rq s) : Live rq (destroyed s rq x) :=
  unloadsAnswered_live (live_modCtx (destroyBegun_live hctx hjob hl) ..) x.unloading

end

section
variable {rq : Req} {s : State} (hfence : s.rel.fencing = []) (hrepair : s.rel.repairing = none)
include hfence hrepair

theorem execCtxDestroy_unfenced : execCtxDestroy rq s = .next (onCtx s rq 0x0101 (beginDestroy s rq.ctx (some rq))) := by
  simp [execCtxDestroy, hfence, hrepair]

variable {x : Ctx} (hctx : liveCtx s rq.ctx = some x) (hjob : x.job = none) (himages : x.images = []) (hq : x.runQ = [])
  (hretiring : x.retiring = false) (hchunk : chunkOf s rq.ctx = false)
include hctx hjob himages hq hretiring hchunk

/-- CTX_DESTROY of a context with nothing in progress ends at once, with its account record. -/
theorem execCtxDestroy_quiet : execCtxDestroy rq s =
    .next (replyC (destroyed s rq x) rq 0x0101 .ok .none (acctRecord rq.ctx x)) := by
  obtain ⟨hx, -⟩ := liveCtx_some hctx
  have hbegin : beginDestroy s rq.ctx (some rq) x = finishDestroy (destroyBegun s rq x) rq.ctx := by
    rw [beginDestroy, hq]
    rfl
  rw [execCtxDestroy_unfenced hfence hrepair, onCtx_some hctx, hbegin, finishDestroy_quiet (tget?_destroyBegun hx hjob) rfl
    hretiring hjob himages ((destroyBegun_chunkOf hx hjob).trans hchunk) rfl]
  rfl

end

theorem execCtxDestroy_fenced {s : State} (hfence : s.rel.fencing ≠ [] ∨ s.rel.repairing ≠ none) (rq : Req) :
    execCtxDestroy rq s = .next { s with rel := { s.rel with heldDestroys := s.rel.heldDestroys ++ [rq] } } := by
  refine congrArg Host.Outcome.next (if_neg ?_)
  rw [Bool.and_eq_true, List.isEmpty_iff, Option.isNone_iff_eq_none, not_and_or]
  exact hfence

/-! ## Key retirement (R367, R658) -/

section
variable {s : State} {c : Nat} {x : Ctx} (hctx : tget? s.ctxs c = some x) (hretiring : x.retiring = true)
include hctx hretiring

theorem execKeyRetirement_retires (hfills : x.fills = []) : execKeyRetirement c s = .next { s with
    ctxs := terase s.ctxs c,
    sec := { s.sec with keys := s.sec.keys.filter (fun k => !(k == x.key)) },
    sealedRegions := s.sealedRegions.filter (fun r => !(r.2 == c)) } := by
  simp [execKeyRetirement, hctx, hretiring, hfills]

theorem execKeyRetirement_waits (hfills : x.fills ≠ []) : execKeyRetirement c s = .next s := by
  simp [execKeyRetirement, hctx, hretiring, hfills]

end

/-- Settles O10: CTX_CREATE by its checks, CTX_DESTROY by what names the context and what it owns, and key retirement by the
zero-fills that are left. -/
theorem contextsAreCreatedAndDestroyed : Obligations.ContextsAreCreatedAndDestroyed := by
  refine ⟨fun rq p s hl => ⟨fun hcheck c hlower hfree => ?_, fun st r hcheck => ?_, createCheck_params, createCheck_cores,
    createCheck_partition⟩, ?_, fun rq s hfence => execCtxDestroy_fenced hfence rq, fun rq s hl hfence hrepair hctx => ?_,
    fun c x s hctx hretiring => ⟨execKeyRetirement_retires hctx hretiring, execKeyRetirement_waits hctx hretiring⟩⟩
  · exact ⟨newCtx s p, answered_ctxCreate hl hcheck hlower hfree, rfl, rfl, rfl, rfl, rfl, rfl, rfl, rfl, rfl, rfl, rfl, rfl, rfl,
      rfl, rfl⟩
  · exact answered_replyD (execCtxCreate_fails hcheck) hl
  · intro rq x s hl hfence hrepair hctx hjob himages hq hretiring hchunk
    obtain ⟨hx, -⟩ := liveCtx_some hctx
    have hexec := execCtxDestroy_quiet hfence hrepair hctx hjob himages hq hretiring hchunk
    have hmemories := execCtxDestroy_memories rq s
    rw [hexec, after_next] at hmemories
    obtain ⟨hspan, hdecks, ht3, ht4⟩ : _ ∧ _ ∧ _ ∧ _ := by simpa only [memories, Prod.mk.injEq] using hmemories
    obtain ⟨hvotes, hlanes, howners, haudio⟩ := disowned_of_onlyReplies
      (replyC_onlyReplies _ rq 0x0101 .ok .none (acctRecord rq.ctx x)) (destroyed_disowned hx hjob)
    exact ⟨_, emptied (doomedCtx rq x), hexec, replyC_replied _ rq 0x0101 .ok .none _ (destroyed_live hx hjob hl),
      by rw [replyC_ctxs, tget?_destroyed hx hjob], emptied_st _, rfl, objsFreed_all _, rfl, rfl,
      fun h o hobj htier => objsFreed_fills (mem_of_tget? hobj) htier _, hvotes, hlanes, howners, haudio,
      fun _ => ⟨hdecks, hspan⟩, ht3, ht4⟩
  · exact answered_replyC (by rw [exec_ctxDestroy, execCtxDestroy_unfenced hfence hrepair, onCtx_none hctx]) hl

end Sys2Proof.Machine

/-!
PROOFS. The owners of the ISP contexts (R415) and the I3C controllers (R437 to R439).
-/

namespace Sys2Proof.Machine

/-! ## SENSOR_CFG BIND (R415) -/

section
variable {rq : Req} {isp owner : Nat} {s : State} (hisp : isp < 16)
include hisp

theorem execSensorCfgBind_enabled (hon : pageOn s (ispPage isp) = true) :
    execSensorCfgBind rq isp owner s = .next (replyD s rq 0x0180 .refused .ispOwner []) := by
  simp only [execSensorCfgBind, if_neg (Nat.not_le.mpr hisp), hon, if_true]

variable (hoff : pageOn s (ispPage isp) = false)
include hoff

theorem execSensorCfgBind_clears (howner : owner = 0xFFFF) : execSensorCfgBind rq isp owner s =
    .next (replyD { s with cam := { s.cam with owners := terase s.cam.owners isp } } rq 0x0180 .ok .none []) := by
  simp only [execSensorCfgBind, if_neg (Nat.not_le.mpr hisp), hoff, Bool.false_eq_true, if_false, if_pos howner]

variable (howner : owner ≠ 0xFFFF)
include howner

theorem execSensorCfgBind_unknown (hctx : liveCtx s owner = none) :
    execSensorCfgBind rq isp owner s = .next (replyD s rq 0x0180 .noContext .ctxUnknown []) := by
  simp only [execSensorCfgBind, if_neg (Nat.not_le.mpr hisp), hoff, Bool.false_eq_true, if_false, if_neg howner, hctx,
    Option.isNone_none, if_true]

theorem execSensorCfgBind_binds (hctx : (liveCtx s owner).isSome) : execSensorCfgBind rq isp owner s =
    .next (replyD { s with cam := { s.cam with owners := tset s.cam.owners isp owner } } rq 0x0180 .ok .none []) := by
  obtain ⟨x, hx⟩ := Option.isSome_iff_exists.mp hctx
  simp only [execSensorCfgBind, if_neg (Nat.not_le.mpr hisp), hoff, Bool.false_eq_true, if_false, if_neg howner, hx,
    Option.isNone_some]

end

/-! ## I3C_XFER (R438) -/

section
variable {rq : Req} {a : I3cArgs} {s : State}

theorem execI3cXfer_invalid (hbad : 2 ≤ a.ctrl ∨ 4 ≤ a.kind ∨ 256 < a.wdata.length ∨ 256 < a.readLen) (bus : I3cBus) :
    execI3cXfer rq a bus s = .next (replyD s rq 0x0180 .refused .i3cParam []) :=
  congrArg _ (if_pos hbad)

/-- The reply to a transfer whose fields lie in their ranges. -/
def i3cReply (s : State) (rq : Req) (a : I3cArgs) : I3cBus → State
  | .nack => replyD s rq 0x0180 .refused .i3cNack []
  | .err => replyD s rq 0x0180 .refused .i3cBus []
  | .done r => replyD s rq 0x0180 .ok .none (r.take a.readLen ++ zeros (a.readLen - r.length))

theorem execI3cXfer_valid (hctrl : a.ctrl < 2) (hkind : a.kind < 4) (hwrite : a.wdata.length ≤ 256)
    (hread : a.readLen ≤ 256) (bus : I3cBus) : execI3cXfer rq a bus s = .next (i3cReply s rq a bus) := by
  have hgood : ¬ (2 ≤ a.ctrl ∨ 4 ≤ a.kind ∨ 256 < a.wdata.length ∨ 256 < a.readLen) := by omega
  cases bus <;> exact congrArg _ (if_neg hgood)

/-- A target that gives as many bytes as were asked for has them all in the reply. -/
theorem i3cReply_done {r : Bytes} (hlength : r.length = a.readLen) :
    i3cReply s rq a (.done r) = replyD s rq 0x0180 .ok .none r := by
  have hdata : r.take a.readLen ++ zeros (a.readLen - r.length) = r := by
    rw [hlength, Nat.sub_self, ← hlength, List.take_length, zeros, List.replicate_zero, List.append_nil]
  rw [i3cReply, hdata]

end

/-! ## In-band interrupts (R439) -/

section
variable {s : State} {ctrl : Nat}

theorem execI3cIbi_joins (hroom : (tget s.cam.ibis [] ctrl).length < 16) (addr : Nat) {p : Bytes} (hlength : p.length ≤ 8) :
    execI3cIbi ctrl addr p s = .next { s with
      cam := { s.cam with ibis := tset s.cam.ibis ctrl (tget s.cam.ibis [] ctrl ++ [(addr, p)]) } } := by
  have hack : ibiAcked s ctrl = true := decide_eq_true hroom
  rw [execI3cIbi, if_pos hack, List.take_of_length_le hlength]

theorem execI3cIbi_full (hfull : 16 ≤ (tget s.cam.ibis [] ctrl).length) (addr : Nat) (p : Bytes) :
    execI3cIbi ctrl addr p s = .next s := by
  have hnack : ¬ ibiAcked s ctrl = true := fun h => Nat.not_le.mpr (of_decide_eq_true h) hfull
  rw [execI3cIbi, if_neg hnack]

theorem reportIbi_oldest {addr : Nat} {p : Bytes} {rest : List (Nat × Bytes)}
    (hqueue : tget s.cam.ibis [] ctrl = (addr, p) :: rest) :
    reportIbi s ctrl = emitDev { s with cam := { s.cam with ibis := tset s.cam.ibis ctrl rest } } .i3cIbi
      (leBytes 1 ctrl ++ leBytes 1 addr ++ leBytes 1 p.length ++ p) := by
  simp only [reportIbi, hqueue]

end

/-- Settles O31: BIND and I3C_XFER by their checks, an in-band interrupt by the room in its controller's queue. -/
theorem cameraBindingAndI3c : Obligations.CameraBindingAndI3c := by
  refine ⟨fun rq i owner s hl hisp => ⟨fun hon => answered_replyD (execSensorCfgBind_enabled hisp hon) hl, fun hoff =>
      ⟨fun howner => answered_replyD (execSensorCfgBind_clears hisp hoff howner) hl,
        fun howner hctx => answered_replyD (execSensorCfgBind_unknown hisp hoff howner hctx) hl,
        fun howner hctx => answered_replyD (execSensorCfgBind_binds hisp hoff howner hctx) hl⟩⟩,
    fun rq a bus s hl => ⟨fun hbad => answered_replyD (execI3cXfer_invalid hbad bus) hl,
      fun hctrl hkind hwrite hread => ?_⟩,
    fun ctrl addr p s hroom => ⟨fun hlt hlength => execI3cIbi_joins hlt addr hlength, fun hfull => execI3cIbi_full hfull addr p,
      ?_, reports_emit rfl hroom⟩⟩
  · have hexec := execI3cXfer_valid (rq := rq) (s := s) hctrl hkind hwrite hread
    refine ⟨?_, ?_, ?_⟩
    · rintro rfl
      exact answered_replyD (hexec .nack) hl
    · rintro rfl
      exact answered_replyD (hexec .err) hl
    · rintro r rfl hlength
      exact answered_replyD ((hexec (.done r)).trans (congrArg _ (i3cReply_done hlength))) hl
  · rintro rest u hqueue rfl
    rw [reportIbi_oldest hqueue]
    exact ⟨emit_reported _ none .ok .i3cIbi _ hroom, emit_only _ none .ok .i3cIbi _ hroom⟩

end Sys2Proof.Machine

/-!
PROOFS. Writes of registers into their shadows, and commits (R416, R448, R535, R736, R739, R741, R743, R747).
-/

namespace Sys2Proof.Machine

/-! ## The fields of the registers (R739, R747) -/

/-- The writable fields of a register lie in its 32 bits, and those that stay writable while its page is enabled are the ones
outside its frozen fields. -/
def RegInfo.Sound (i : RegInfo) : Prop := i.rws < 2 ^ 32 ∧ i.rws - i.frozen = i.rws &&& (fAll ^^^ i.frozen)

/-- The layout of a register, if there is one, is sound. -/
def InfoSound (r : Option RegInfo) : Prop := ∀ i ∈ r, i.Sound

theorem none_sound : InfoSound none := nofun

theorem some_sound (page reset : Nat) {rws frozen : Nat} (hwidth : rws < 2 ^ 32)
    (hopen : rws - frozen = rws &&& (fAll ^^^ frozen)) :
    InfoSound (some { page := page, rws := rws, frozen := frozen, reset := reset }) := by
  rintro _ ⟨⟩
  exact ⟨hwidth, hopen⟩

theorem regU_sound (page : Nat) {rws : Nat} (reset : Nat) (h : rws < 2 ^ 32) : InfoSound (regU page rws reset) := by
  refine some_sound page reset h ?_
  rw [Nat.xor_zero, fAll, Nat.and_two_pow_sub_one_of_lt_two_pow h, Nat.sub_zero]

theorem regF_sound (page : Nat) {rws : Nat} (reset : Nat) (h : rws < 2 ^ 32) : InfoSound (regF page rws reset) := by
  refine some_sound page reset h ?_
  rw [Nat.and_xor_distrib_left, fAll, Nat.and_two_pow_sub_one_of_lt_two_pow h, Nat.and_self, Nat.xor_self, Nat.sub_self]

theorem outInfo_sound (page o : Nat) : InfoSound (outInfo page o) := by
  unfold outInfo
  split
  case h_1 => exact some_sound _ _ (by decide) (by decide)
  case h_10 => exact none_sound
  all_goals exact regU_sound _ _ (by decide)

theorem ispInfo_sound (page o : Nat) : InfoSound (ispInfo page o) := by
  unfold ispInfo
  split
  case h_1 | h_2 => exact regF_sound _ _ (by decide)
  case h_23 =>
    split_ifs
    · exact outInfo_sound page _
    · exact regU_sound _ _ (by decide)
    · exact regU_sound _ _ (by decide)
    · exact regU_sound _ _ (by decide)
    · exact none_sound
  all_goals exact regU_sound _ _ (by decide)

theorem camInfo_sound (o : Nat) : InfoSound (camInfo o) := by
  unfold camInfo
  dsimp only
  split_ifs
  · exact regU_sound _ _ (by decide)
  · exact regU_sound _ _ (by decide)
  · split
    · exact regF_sound _ _ (by decide)
    · exact regF_sound _ _ (by decide)
    · exact none_sound
  · split
    · exact some_sound _ _ (by decide) (by decide)
    · exact regF_sound _ _ (by decide)
    · exact none_sound
  · exact regF_sound _ _ (by decide)
  · exact none_sound
  · exact ispInfo_sound _ _
  · exact none_sound

theorem audInfo_sound (o : Nat) : InfoSound (audInfo o) := by
  unfold audInfo
  dsimp only
  split
  case h_1 | h_8 => exact regF_sound _ _ (by decide)
  case h_11 =>
    split_ifs
    · exact regU_sound _ _ (by decide)
    · exact none_sound
  all_goals exact regU_sound _ _ (by decide)

theorem grdInfo_sound (o : Nat) : InfoSound (grdInfo o) := by
  unfold grdInfo
  dsimp only
  split_ifs
  · exact regF_sound _ _ (by decide)
  · exact regF_sound _ _ (by decide)
  · split <;> exact regF_sound _ _ (by decide)
  · exact regF_sound _ _ (by decide)
  · exact regU_sound _ _ (by decide)
  · exact none_sound

theorem ethInfo_sound (o : Nat) : InfoSound (ethInfo o) := by
  unfold ethInfo
  dsimp only
  split_ifs
  · exact regU_sound _ _ (by decide)
  · exact regU_sound _ _ (by decide)
  · exact regF_sound _ _ (by decide)
  · exact regF_sound _ _ (by decide)
  · exact regU_sound _ _ (by decide)
  · exact regU_sound _ _ (by decide)
  · exact none_sound

theorem ddrInfo_sound (o : Nat) : InfoSound (ddrInfo o) := by
  unfold ddrInfo
  dsimp only
  split_ifs
  · exact regF_sound _ _ (by decide)
  · exact regU_sound _ _ (by decide)
  · exact regU_sound _ _ (by decide)
  · exact regU_sound _ _ (by decide)
  · split
    · exact regF_sound _ _ (by decide)
    · exact regF_sound _ _ (by decide)
    · exact regF_sound _ _ (by decide)
    · exact none_sound
  · exact none_sound

theorem otherInfo_sound (a : Nat) : InfoSound (otherInfo a) := by
  unfold otherInfo
  split
  case h_5 => exact regF_sound _ _ (by decide)
  case h_9 =>
    split_ifs
    · exact regU_sound _ _ (by decide)
    · exact none_sound
  all_goals exact regU_sound _ _ (by decide)

theorem regInfo_sound (a : Nat) : InfoSound (regInfo a) := by
  unfold regInfo
  split
  · exact none_sound
  · split
    · exact camInfo_sound _
    · exact audInfo_sound _
    · exact grdInfo_sound _
    · exact ethInfo_sound _
    · exact ddrInfo_sound _
    · exact otherInfo_sound _

/-! ## The shadow of a register that is written (R739, R747) -/

/-- The writable bits of a register take those of the value, and the others stay. -/
def merged (w old v : Nat) : Nat := (old &&& (fAll - w)) ||| (v &&& (fAll - (fAll - w)))

theorem complement_lt (w : Nat) : fAll - w < 2 ^ 32 := by
  unfold fAll
  omega

theorem merged_lt (w old v : Nat) : merged w old v < 2 ^ 32 :=
  Nat.or_lt_two_pow (Nat.and_lt_two_pow _ (complement_lt _)) (Nat.and_lt_two_pow _ (complement_lt _))

theorem bit_complement {w k : Nat} (hw : w < 2 ^ 32) (hk : k < 32) : bit (fAll - w) k = !bit w k := by
  have hsub : fAll - w = 2 ^ 32 - (w + 1) := by
    unfold fAll
    omega
  rw [bit, hsub, Nat.testBit_two_pow_sub_succ hw, decide_eq_true hk, Bool.true_and, bit]

theorem bit_merged {w k : Nat} (hw : w < 2 ^ 32) (hk : k < 32) (old v : Nat) :
    bit (merged w old v) k = if bit w k then bit v k else bit old k := by
  have hor : bit (merged w old v) k = (bit old k && bit (fAll - w) k || bit v k && bit (fAll - (fAll - w)) k) := by
    simp only [bit, merged, Nat.testBit_or, Nat.testBit_and]
  rw [hor, bit_complement (complement_lt w) hk, bit_complement hw hk]
  cases bit w k <;> simp

/-- The fields of a register that take a written value: while its page is enabled the frozen ones do not (R747). -/
def openFields (s : State) (i : RegInfo) : Nat := if pageOn s i.page then i.rws - i.frozen else i.rws

theorem openFields_lt {i : RegInfo} (hsound : i.Sound) (s : State) : openFields s i < 2 ^ 32 := by
  obtain ⟨hwidth, -⟩ := hsound
  unfold openFields
  split <;> omega

theorem bit_openFields {i : RegInfo} (hsound : i.Sound) (s : State) {k : Nat} (hk : k < 32) :
    bit (openFields s i) k = (bit i.rws k && !(pageOn s i.page && bit i.frozen k)) := by
  obtain ⟨-, hopen⟩ := hsound
  unfold openFields
  split
  · next hon =>
    rw [hopen, hon, bit, Nat.testBit_and, Nat.testBit_xor, fAll, Nat.testBit_two_pow_sub_one, decide_eq_true hk, Bool.true_xor,
      Bool.true_and, bit, bit]
  · next hoff => rw [eq_false_of_ne_true hoff, Bool.false_and, Bool.not_false, Bool.and_true]

/-- The state in which a register's shadow holds the bits that a write leaves. -/
def shadowWritten (s : State) (a v : Nat) (i : RegInfo) : State :=
  { s with regs := { s.regs with
    shadow := tset s.regs.shadow a (BitVec.ofNat 32 (merged (openFields s i) (shadow s a) v)) } }

theorem writeShadow_eq (s : State) (a v : Nat) (i : RegInfo) : writeShadow s a v i =
    if pageOn s i.page ∧ i.frozen ≠ 0 then modPage (shadowWritten s a v i) i.page (fun g => { g with frozenWrite := true })
    else shadowWritten s a v i := rfl

theorem shadow_writeShadow (s : State) (a v : Nat) (i : RegInfo) (b : Nat) :
    shadow (writeShadow s a v i) b = shadow (shadowWritten s a v i) b := by
  rw [writeShadow_eq]
  split <;> rfl

theorem shadow_shadowWritten_self (s : State) (a v : Nat) (i : RegInfo) :
    shadow (shadowWritten s a v i) a = merged (openFields s i) (shadow s a) v := by
  have hget : tget? (shadowWritten s a v i).regs.shadow a =
    some (BitVec.ofNat 32 (merged (openFields s i) (shadow s a) v)) := tget?_tset_self _ _ _
  rw [shadow, hget]
  exact Nat.mod_eq_of_lt (merged_lt _ _ _)

theorem shadow_shadowWritten_ne (s : State) {a b : Nat} (hne : b ≠ a) (v : Nat) (i : RegInfo) :
    shadow (shadowWritten s a v i) b = shadow s b := by
  have hget : tget? (shadowWritten s a v i).regs.shadow b = tget? s.regs.shadow b := tget?_tset_ne _ _ _ _ hne
  rw [shadow, hget, shadow]

theorem writeShadow_rule {i : RegInfo} (hsound : i.Sound) (s : State) (a v : Nat) :
    ShadowRule s a v i (writeShadow s a v i) := by
  refine ⟨fun k hk => ?_, fun b hne => ?_⟩
  · rw [shadow_writeShadow, shadow_shadowWritten_self, bit_merged (openFields_lt hsound s) hk, bit_openFields hsound s hk]
  · rw [shadow_writeShadow, shadow_shadowWritten_ne s hne]

/-! ## The words of a page (R738) -/

section
variable (s : State) (p : Nat) (f : Page → Page)

@[simp] theorem pageAt_modPage_self : pageAt (modPage s p f) p = f (pageAt s p) := by
  rw [pageAt, modPage, tget?_tset_self, Option.getD_some]

theorem pageAt_modPage_ne {q : Nat} (hne : q ≠ p) : pageAt (modPage s p f) q = pageAt s q := by
  rw [pageAt, modPage, tget?_tset_ne _ _ _ _ hne, pageAt]

/-- A change of a page's words that leaves ENABLE leaves every page as enabled as it was. -/
theorem pageOn_modPage (hf : ∀ g, (f g).enable = g.enable) (q : Nat) : pageOn (modPage s p f) q = pageOn s q := by
  rcases eq_or_ne q p with rfl | hne
  · rw [pageOn, pageAt_modPage_self, hf, pageOn]
  · rw [pageOn, pageAt_modPage_ne s p f hne, pageOn]

end

theorem pageAt_writeShadow (s : State) (a v : Nat) (i : RegInfo) (p : Nat) : pageAt (writeShadow s a v i) p =
    if p = i.page ∧ pageOn s p = true ∧ i.frozen ≠ 0 then { pageAt s p with frozenWrite := true } else pageAt s p := by
  rw [writeShadow_eq]
  rcases eq_or_ne p i.page with rfl | hne
  · simp only [true_and]
    split
    · rw [pageAt_modPage_self]
      rfl
    · rfl
  · have hother : ¬ (p = i.page ∧ pageOn s p = true ∧ i.frozen ≠ 0) := fun h => hne h.1
    rw [if_neg hother]
    split
    · rw [pageAt_modPage_ne _ _ _ hne]
      rfl
    · rfl

theorem writeShadow_frame (s : State) (a v : Nat) (i : RegInfo) : writeShadow s a v i = { s with
    regs := { s.regs with shadow := (writeShadow s a v i).regs.shadow, pages := (writeShadow s a v i).regs.pages } } := by
  rw [writeShadow_eq]
  split <;> rfl

/-! ## The write of one register (R416, R448, R535) -/

section
variable {s : State} {a : Nat} {i : RegInfo} (hword : a % 4 = 0) (hinfo : regInfo a = some i) (hctrl : isPage a = false)
  (hstatus : 4 ≤ a → isPage (a - 4) = false) (hbranch : crossingReg a = true → bits (live s 0x0023_0410) 31 30 ≠ 2)
include hword hinfo hctrl hstatus hbranch

theorem writeOne_register {allowed : Nat → Option Reason} (hallowed : allowed a = none) (rq : Req) (v : Word) :
    writeOne rq allowed { state := s } (a, v) = { state := writeShadow s a v.toNat i, count := 1 } := by
  have hfirst : ¬ (4 ≤ a ∧ isPage (a - 4) = true) := by
    rintro ⟨hle, hpage⟩
    rw [hstatus hle] at hpage
    cases hpage
  have hplain : ¬ (crossingReg a = true ∧ bits (live s 0x0023_0410) 31 30 = 2) := fun ⟨hcross, htwo⟩ => hbranch hcross htwo
  simp only [writeOne, hallowed, hctrl, if_neg hfirst, if_pos hword, hinfo, if_neg hplain, RegRun.wrote, Option.isSome_none,
    Bool.or_false, Bool.false_eq_true, if_false]

/-- A write of one register has its effect at once and is answered with COUNT 1. -/
theorem regWrite_register {allowed : Nat → Option Reason} (hallowed : allowed a = none) (rq : Req) (op : Nat) (v : Word) :
    regWrite s rq op a [v] allowed = regReply (writeShadow s a v.toNat i) rq op 1 none := by
  have hone := writeOne_register hword hinfo hctrl hstatus hbranch hallowed rq v
  have hlist : (List.range [v].length).map (fun k => (a + 4 * k, [v].getD k 0)) = [(a, v)] := rfl
  simp only [regWrite, hlist, List.foldl_cons, List.foldl_nil, hone]
  rfl

theorem execRegWrite_register (rq : Req) (v : Word) : execRegWrite rq a [v] s =
    .next (replyD (writeShadow s a v.toNat i) rq 0x0011 .ok .none [1, 0, 0, 0]) :=
  congrArg _ (regWrite_register hword hinfo hctrl hstatus hbranch rfl rq 0x0011 v)

/-- SENSOR_CFG outside the ISP contexts' pages takes no notice of the header's context (R416). -/
theorem execSensorCfgRegWrite_block (hblock : blockOf a = 0x20) (hbelow : a < 0x0020_8000) (rq : Req) (v : Word) :
    execSensorCfgRegWrite rq a [v] s =
      .next (replyD (writeShadow s a v.toNat i) { rq with ctx := 0 } 0x0180 .ok .none [1, 0, 0, 0]) := by
  have hname : namesIsp a [v].length = false := by
    rw [namesIsp, List.length_singleton, Bool.and_eq_false_iff]
    exact .inr (decide_eq_false (by omega))
  have hmay : sensorMay s rq a = none := by
    rw [sensorMay, if_neg (not_not.mpr hblock), if_neg (fun h => by omega)]
  have hwrite := regWrite_register hword hinfo hctrl hstatus hbranch hmay { rq with ctx := 0 } 0x0180 v
  simp only [execSensorCfgRegWrite, hname, hwrite]
  rfl

theorem execSensorCfgRegWrite_owner {rq : Req} (hblock : blockOf a = 0x20) (habove : 0x0020_8000 ≤ a)
    (howner : tget? s.cam.owners ((a - 0x0020_8000) / 0x800) = some rq.ctx) (hctx : (liveCtx s rq.ctx).isSome) (v : Word) :
    execSensorCfgRegWrite rq a [v] s = .next (replyC (writeShadow s a v.toNat i) rq 0x0180 .ok .none [1, 0, 0, 0]) := by
  have hname : namesIsp a [v].length = true := by
    unfold blockOf at hblock
    rw [namesIsp, List.length_singleton, Bool.and_eq_true, decide_eq_true_iff, decide_eq_true_iff]
    omega
  have hmay : sensorMay s rq a = none := by
    rw [sensorMay, if_neg (not_not.mpr hblock), if_neg (fun h => h.2 howner)]
  have hwrite := regWrite_register hword hinfo hctrl hstatus hbranch hmay rq 0x0180 v
  simp only [execSensorCfgRegWrite, hname, hwrite, onCtx_of_live hctx]
  rfl

theorem execAudioCfgRegWrite_owner {rq : Req} (hblock : blockOf a = 0x21) (howner : s.aud.owner = some rq.ctx)
    (hctx : (liveCtx s rq.ctx).isSome) (v : Word) :
    execAudioCfgRegWrite rq a [v] s = .next (replyC (writeShadow s a v.toNat i) rq 0x0181 .ok .none [1, 0, 0, 0]) := by
  have hmay : audioMay s rq a = none := by
    rw [audioMay, if_neg (not_not.mpr hblock), if_neg (not_not.mpr howner)]
  have hwrite := regWrite_register hword hinfo hctrl hstatus hbranch hmay rq 0x0181 v
  simp only [execAudioCfgRegWrite, hwrite, onCtx_of_live hctx]
  rfl

end

/-! ## Commits (R736, R741, R743) -/

/-- When no command waits for a page's commit, its outcome is told to none. -/
theorem tellWaits_none {s : State} {p : Nat} (hwaits : ∀ w ∈ s.regs.waits, w.left ≠ [] ∧ p ∉ w.left) (r : Option Reason) :
    tellWaits s p r = s := by
  have hmap : s.regs.waits.map (fun (w : RegWait) => if w.left.contains p then
      { w with left := w.left.filter (· ≠ p), refusal := if w.refusal.isSome then w.refusal else r } else w) =
      s.regs.waits := by
    refine (List.map_congr_left fun w hw => ?_).trans (List.map_id _)
    rw [if_neg (by simpa using (hwaits w hw).2), id]
  have hready : s.regs.waits.filter (fun w => w.left.isEmpty) = [] := by
    simpa [List.filter_eq_nil_iff] using fun w hw => (hwaits w hw).1
  have hkept : s.regs.waits.filter (fun w => !w.left.isEmpty) = s.regs.waits := by
    simpa [List.filter_eq_self] using fun w hw => (hwaits w hw).1
  simp only [tellWaits, hmap, hready, hkept, List.foldl_nil]

/-- Of the pages with an effect of their own, a commit changes no more than the live values. -/
theorem commitEffects_plain {p : Nat} (hp : p ∉ [0x0002_0000, 0x0023_0000, 0x0026_0000, 0x0021_0000]) (old s : State) :
    commitEffects old s p = s := by
  simp only [List.mem_cons, List.not_mem_nil, or_false, not_or] at hp
  obtain ⟨hpower, heth, hodo, haud⟩ := hp
  simp only [commitEffects, if_neg hpower, if_neg heth, if_neg hodo, if_neg haud]

/-- Whether a page is at its safe point does not rest on its pending commit. -/
theorem atSafePoint_modPage {f : Page → Page} (hf : ∀ g, (f g).enable = g.enable) (s : State) (p : Nat) :
    atSafePoint (modPage s p f) p = atSafePoint s p := by
  unfold atSafePoint
  rw [pageOn_modPage s p f hf]
  rfl

/-- The pages whose commit checks rest on their shadows alone, and whose commit has no further effect. -/
def plainPages : List Nat := [0x0001_0000, 0x0022_0000, 0x0024_0000, 0x0027_0000]

theorem commitChecks_modPage {p : Nat} (hp : p ∈ plainPages) (s : State) (f : Page → Page) :
    commitChecks (modPage s p f) p = commitChecks s p := by
  simp only [plainPages, List.mem_cons, List.not_mem_nil, or_false] at hp
  rcases hp with rfl | rfl | rfl | rfl <;> rfl

theorem tellWaits_takeCommit {s : State} {p : Nat} (hwaits : ∀ w ∈ s.regs.waits, w.left ≠ [] ∧ p ∉ w.left)
    (r : Option Reason) : tellWaits (takeCommit s p).1 p r = (takeCommit s p).1 := by
  refine tellWaits_none ?_ r
  have hsame : (takeCommit s p).1.regs.waits = s.regs.waits := by
    unfold takeCommit
    split <;> rfl
  rwa [hsame]

/-- A commit of such a page that no command waits for is its check and the transfer. -/
theorem commitNow_plain {p : Nat} (hp : p ∈ plainPages) {s : State}
    (hwaits : ∀ w ∈ s.regs.waits, w.left ≠ [] ∧ p ∉ w.left) : commitNow s p = (takeCommit s p).1 := by
  have hplain : ∀ q ∈ plainPages, q ∉ [0x0002_0000, 0x0023_0000, 0x0026_0000, 0x0021_0000] := by decide
  rw [commitNow, commitEffects_plain (hplain p hp), ite_self, tellWaits_takeCommit hwaits]

/-- A page's commit is no longer pending. -/
def notPending (g : Page) : Page := { g with pending := false }

/-- A page's commit is requested. -/
def commitAsked (g : Page) : Page := { g with pending := true }

section
variable {s : State} {p : Nat}

theorem takeCommit_passes (hpass : firstFail (commitChecks s p) = none) :
    (takeCommit s p).1 = pageLive (modPage s p notPending) p := by
  simp only [takeCommit, hpass]
  rfl

theorem takeCommit_refused {r : Reason} (hfail : firstFail (commitChecks s p) = some r) :
    (takeCommit s p).1 = setReason (modPage s p notPending) p r := by
  simp only [takeCommit, hfail]
  rfl

end

/-! ## What goes live (R741) -/

theorem tget?_foldl_tset_notMem {α : Type} {a : Nat} {l : Tab α} (hnot : a ∉ l.map Prod.fst) (t : Tab α) :
    tget? (l.foldl (fun t e => tset t e.1 e.2) t) a = tget? t a := by
  induction l generalizing t with
  | nil => rfl
  | cons e l ih =>
    simp only [List.map_cons, List.mem_cons, not_or] at hnot
    obtain ⟨hne, hrest⟩ := hnot
    rw [List.foldl_cons, ih hrest, tget?_tset_ne _ _ _ _ hne]

theorem tget?_foldl_tset_mem {α : Type} {a : Nat} {v : α} {l : Tab α} (hkeys : (l.map Prod.fst).Nodup) (hmem : (a, v) ∈ l)
    (t : Tab α) : tget? (l.foldl (fun t e => tset t e.1 e.2) t) a = some v := by
  induction l generalizing t with
  | nil => cases hmem
  | cons e l ih =>
    obtain ⟨hfirst, hrest⟩ := List.nodup_cons.mp hkeys
    rcases List.mem_cons.mp hmem with rfl | hmem
    · rw [List.foldl_cons, tget?_foldl_tset_notMem hfirst, tget?_tset_self]
    · exact ih hrest hmem _

/-- The shadow entries of a page's registers. -/
def shadowsOf (s : State) (p : Nat) : Tab Word :=
  s.regs.shadow.filter (fun e => (regInfo e.1).any (fun i => i.page == p))

theorem pageLive_eq (s : State) (p : Nat) : pageLive s p =
    { s with regs := { s.regs with live := (shadowsOf s p).foldl (fun t e => tset t e.1 e.2) s.regs.live } } := by
  refine congrArg (fun l : Tab Word => ({ s with
    regs := { s.regs with live := l.foldl (fun t e => tset t e.1 e.2) s.regs.live } } : State)) (List.filter_congr fun e _ => ?_)
  cases regInfo e.1 <;> rfl

section
variable {s : State} {p a : Nat} {i : RegInfo} (hinfo : regInfo a = some i)
include hinfo

theorem pageLive_own (hkeys : (s.regs.shadow.map Prod.fst).Nodup) (hpage : i.page = p) {w : Word}
    (hshadow : tget? s.regs.shadow a = some w) : tget? (pageLive s p).regs.live a = some w := by
  have hmine : (a, w) ∈ shadowsOf s p :=
    List.mem_filter.mpr ⟨mem_of_tget? hshadow, by simp [hinfo, hpage]⟩
  rw [pageLive_eq]
  exact tget?_foldl_tset_mem (hkeys.sublist (List.filter_sublist.map _)) hmine _

theorem pageLive_other (hpage : i.page ≠ p) : tget? (pageLive s p).regs.live a = tget? s.regs.live a := by
  rw [pageLive_eq]
  refine tget?_foldl_tset_notMem (fun hmem => ?_) _
  obtain ⟨e, hmine, rfl⟩ := List.mem_map.mp hmem
  have hany := (List.mem_filter.mp hmine).2
  simp [hinfo, hpage] at hany

end

/-! ## A commit of a plain page, at its safe point or when it comes -/

/-- A commit that is taken at once: requested at the page's safe point, or pending when the safe point comes. -/
def TakenNow (c : Instr) (p : Nat) (s : State) : Prop :=
  c = .commit p ∧ atSafePoint s p = true ∨ c = .safePointCommit p ∧ (pageAt s p).pending = true

section
variable {p : Nat} (hp : p ∈ plainPages) {s : State}
include hp

theorem isPage_plain : isPage p = true := (by decide : ∀ q ∈ plainPages, isPage q = true) p hp

theorem execCommit_waits (hpoint : atSafePoint s p = false) : execCommit p s = .next (modPage s p commitAsked) := by
  have hthen : ¬ atSafePoint (modPage s p commitAsked) p = true := by
    rw [atSafePoint_modPage (f := commitAsked) (fun _ => rfl), hpoint]
    decide
  rw [execCommit, if_pos (isPage_plain hp)]
  exact congrArg _ (if_neg hthen)

variable (hwaits : ∀ w ∈ s.regs.waits, w.left ≠ [] ∧ p ∉ w.left)
include hwaits

theorem execCommit_taken (hpoint : atSafePoint s p = true) :
    execCommit p s = .next (takeCommit (modPage s p commitAsked) p).1 := by
  have hthen : atSafePoint (modPage s p commitAsked) p = true := by
    rw [atSafePoint_modPage (f := commitAsked) (fun _ => rfl), hpoint]
  rw [execCommit, if_pos (isPage_plain hp), ← commitNow_plain hp (s := modPage s p commitAsked) hwaits]
  exact congrArg _ (if_pos hthen)

theorem execSafePointCommit_taken (hpending : (pageAt s p).pending = true) :
    execSafePointCommit p s = .next (takeCommit s p).1 := by
  have hplace : ∀ q ∈ plainPages, (decide (q < 0x0020_8000) || decide (0x0021_0000 ≤ q)) = true := by decide
  rw [execSafePointCommit, hpending, isPage_plain hp, hplace p hp, ← commitNow_plain hp hwaits]
  rfl

/-- A commit that is taken checks the page as it stands, and takes it with nothing but the pending commit changed. -/
theorem exec_takenNow {c : Instr} (hc : TakenNow c p s) : ∃ u, exec c s = .next (takeCommit u p).1 ∧
    commitChecks u p = commitChecks s p ∧ notPending (pageAt u p) = notPending (pageAt s p) ∧
    (∀ q, q ≠ p → pageAt u q = pageAt s q) ∧ u = { s with regs := { s.regs with pages := u.regs.pages } } := by
  obtain ⟨rfl, hpoint⟩ | ⟨rfl, hpending⟩ := hc
  · exact ⟨_, execCommit_taken hp hwaits hpoint, commitChecks_modPage hp s _, by rw [pageAt_modPage_self]; rfl,
      fun q hne => pageAt_modPage_ne s p _ hne, rfl⟩
  · exact ⟨s, execSafePointCommit_taken hp hwaits hpending, rfl, rfl, fun _ _ => rfl, rfl⟩

variable {c : Instr} (hc : TakenNow c p s)
include hc

theorem exec_takenNow_refused {r : Reason} (hfail : firstFail (commitChecks s p) = some r) : ∃ t, exec c s = .next t ∧
    pageAt t p = { pageAt s p with pending := false, cfgReason := r } ∧ (∀ q, q ≠ p → pageAt t q = pageAt s q) ∧
    t = { s with regs := { s.regs with pages := t.regs.pages } } := by
  obtain ⟨u, hexec, hchecks, hself, hothers, hframe⟩ := exec_takenNow hp hwaits hc
  rw [takeCommit_refused (hchecks ▸ hfail)] at hexec
  refine ⟨_, hexec, ?_, fun q hne => ?_, ?_⟩
  · rw [setReason, pageAt_modPage_self, pageAt_modPage_self, hself]
    rfl
  · rw [setReason, pageAt_modPage_ne _ _ _ hne, pageAt_modPage_ne _ _ _ hne, hothers q hne]
  · rw [hframe]
    rfl

theorem exec_takenNow_passes (hkeys : (s.regs.shadow.map Prod.fst).Nodup) (hpass : firstFail (commitChecks s p) = none) :
    ∃ t, exec c s = .next t ∧
      (∀ a i w, regInfo a = some i → i.page = p → tget? s.regs.shadow a = some w → tget? t.regs.live a = some w) ∧
      (∀ a i, regInfo a = some i → i.page ≠ p → tget? t.regs.live a = tget? s.regs.live a) ∧
      pageAt t p = { pageAt s p with pending := false } ∧ (∀ q, q ≠ p → pageAt t q = pageAt s q) ∧
      t = { s with regs := { s.regs with live := t.regs.live, pages := t.regs.pages } } := by
  obtain ⟨u, hexec, hchecks, hself, hothers, hframe⟩ := exec_takenNow hp hwaits hc
  rw [takeCommit_passes (hchecks ▸ hpass)] at hexec
  have hshadow : (modPage u p notPending).regs.shadow = s.regs.shadow := by
    rw [hframe]
    rfl
  have hlive : (modPage u p notPending).regs.live = s.regs.live := by
    rw [hframe]
    rfl
  refine ⟨_, hexec, fun a i w hinfo hpage hw => ?_, fun a i hinfo hpage => ?_, ?_, fun q hne => ?_, ?_⟩
  · exact pageLive_own hinfo (hshadow.symm ▸ hkeys) hpage (hshadow.symm ▸ hw)
  · rw [pageLive_other hinfo hpage, hlive]
  · exact (pageAt_modPage_self u p notPending).trans hself
  · exact (pageAt_modPage_ne u p notPending hne).trans (hothers q hne)
  · rw [hframe]
    rfl

end

/-- Settles O3: a write of one register by the bits of its shadow, and a commit by its check and the transfer. -/
theorem registerWritesAndCommits : Obligations.RegisterWritesAndCommits := by
  refine ⟨fun rq a v i s hl hword hinfo hctrl hstatus hbranch => ?_, fun c p s hp hkeys hwaits => ⟨fun hc =>
    ⟨exec_takenNow_passes hp hwaits hc hkeys, fun r => exec_takenNow_refused hp hwaits hc⟩, ?_⟩⟩
  · have hsound := regInfo_sound a i hinfo
    have hlive : Live rq (writeShadow s a v.toNat i) := by
      rw [writeShadow_frame]
      exact hl
    refine ⟨writeShadow s a v.toNat i, writeShadow_rule hsound s a v.toNat, writeShadow_frame s a v.toNat i,
      pageAt_writeShadow s a v.toNat i, ?_, fun hblock hbelow => ?_, fun hblock habove howner hctx => ?_,
      fun hblock howner hctx => ?_⟩
    · exact answered_replyD (execRegWrite_register hword hinfo hctrl hstatus hbranch rq v) hlive
    · exact answered_replyD (execSensorCfgRegWrite_block hword hinfo hctrl hstatus hbranch hblock hbelow rq v) hlive
    · exact answered_replyC (execSensorCfgRegWrite_owner hword hinfo hctrl hstatus hbranch hblock habove howner hctx v) hlive
    · exact answered_replyC (execAudioCfgRegWrite_owner hword hinfo hctrl hstatus hbranch hblock howner hctx v) hlive
  · rintro rfl hpoint
    exact execCommit_waits hp hpoint

end Sys2Proof.Machine

/-!
PROOFS. Enable and disable of the pages (R423, R436, R499, R578, R608, R748, R749, R753, R755).
-/

namespace Sys2Proof.Machine

/-! ## Enabling a page (R748) -/

/-- A page's ENABLE is set, and no commit of it waits. -/
def switchedOn (g : Page) : Page := { g with enable := true, pending := false }

/-- A page's ENABLE is cleared. -/
def switchedOff (g : Page) : Page := { g with enable := false }

/-- The state in which every shadow of a page has gone live with its ENABLE. -/
def pageEnabled (s : State) (p : Nat) : State := modPage (pageLive s p) p switchedOn

section
variable {s : State} {p : Nat}

theorem enablePage_on (hon : pageOn s p = true) : enablePage s p = (s, none) := if_pos hon

variable (hoff : pageOn s p = false)
include hoff

theorem enablePage_refused {r : Reason} (hfail : firstFail (enableChecks s p) = some r) :
    enablePage s p = (setReason s p r, some r) := by
  simp only [enablePage, hoff, hfail, Bool.false_eq_true, if_false]

theorem enablePage_passes (hpass : firstFail (enableChecks s p) = none) :
    enablePage s p = (enableEffects s (pageEnabled s p) p, none) := by
  simp only [enablePage, hoff, hpass, Bool.false_eq_true, if_false]
  rfl

end

/-- The commands that enable a page whose enable needs no operand. -/
def Enables (c : Instr) (p : Nat) : Prop :=
  (c = .enable p ∧ p ∈ enablePages ∧ p ≠ 0x0024_0000) ∨ (c = .ddrCtrlEnable ∧ p = 0x0003_8000) ∨
    (c = .grdEnable ∧ p = 0x0022_0000) ∨ (∃ i < 16, c = .ispContextEnable i ∧ p = ispPage i)

theorem exec_enables {c : Instr} {p : Nat} (hc : Enables c p) (s : State) : exec c s = .next (enablePage s p).1 := by
  obtain ⟨rfl, hmem, hne⟩ | ⟨rfl, rfl⟩ | ⟨rfl, rfl⟩ | ⟨i, hi, rfl, rfl⟩ := hc
  · have hany : enableAny s p = enablePage s p := if_neg hne
    rw [exec_enable, execEnable, if_pos (List.contains_iff_mem.mpr hmem), hany]
  · rfl
  · rfl
  · rw [exec_ispContextEnable, execIspContextEnable, if_pos hi]

/-! ## What starts with a page (R423, R499, R578) -/

/-- A commit of a page of the camera block has no effect but the transfer. -/
theorem commitEffects_camera {p : Nat} (hlo : 0x0020_0000 ≤ p) (hhi : p < 0x0021_0000) (old s : State) :
    commitEffects old s p = s := by
  refine commitEffects_plain ?_ old s
  simp only [List.mem_cons, List.not_mem_nil, or_false]
  omega

theorem enableEffects_quiet {p : Nat} (hp : p ∈ [0x0020_0000, 0x0020_3000, 0x0020_3100, 0x0021_1000, 0x0024_0000])
    (old s : State) : enableEffects old s p = s := by
  simp only [List.mem_cons, List.not_mem_nil, or_false] at hp
  rcases hp with rfl | rfl | rfl | rfl | rfl <;> rfl

theorem enableEffects_stream {m : Nat} (hm : m < 8) (old s : State) :
    enableEffects old s (strPage m) = setStr s m { strAt s m with nextNo := 0, overrun := false } := by
  have hrange : 0x0020_2000 ≤ strPage m ∧ strPage m < 0x0020_3000 := by
    unfold strPage
    omega
  have hindex : (strPage m - 0x0020_2000) / 0x40 = m := by
    unfold strPage
    omega
  have hddr : strPage m ≠ 0x0003_8000 := by omega
  have hgrd : strPage m ≠ grdPage := by
    unfold grdPage
    omega
  have hrx : ¬ (0x0020_1000 ≤ strPage m ∧ strPage m < 0x0020_2000) := by omega
  simp only [enableEffects, commitEffects_camera (p := strPage m) (by omega) (by omega), if_neg hddr, if_neg hgrd, if_neg hrx,
    if_pos hrange, hindex]

theorem cancelFrom_awake {old : State} (h : descending old = false) (s : State) (cls id mask : Nat) :
    cancelFrom old s cls id mask = s := if_neg fun hrun => by simp [h] at hrun

theorem enableEffects_isp {i c : Nat} (hi : i < 16) {old s : State} (howner : tget? s.cam.owners i = some c)
    (hawake : descending old = false) :
    enableEffects old s (ispPage i) = voteCast (tellDropped s i (ispStream s i)) 0 c (2 ^ 8) := by
  have hrange : 0x0020_8000 ≤ ispPage i ∧ ispPage i < 0x0021_0000 := by
    unfold ispPage
    omega
  have hindex : (ispPage i - 0x0020_8000) / 0x800 = i := by
    unfold ispPage
    omega
  have hddr : ispPage i ≠ 0x0003_8000 := by omega
  have hgrd : ispPage i ≠ grdPage := by
    unfold grdPage
    omega
  have hrx : ¬ (0x0020_1000 ≤ ispPage i ∧ ispPage i < 0x0020_2000) := by omega
  have hstr : ¬ (0x0020_2000 ≤ ispPage i ∧ ispPage i < 0x0020_3000) := by omega
  have hheld : tget? (tellDropped s i (ispStream s i)).cam.owners i = some c := howner
  simp only [enableEffects, commitEffects_camera (p := ispPage i) (by omega) (by omega), if_neg hddr, if_neg hgrd, if_neg hrx,
    if_neg hstr, if_pos hrange, hindex, hheld, cancelFrom_awake hawake]

/-! ## The PCIe root port (R753, R755) -/

section
variable {s : State} {l : PcieLink} (hoff : pageOn s 0x0024_0000 = false)
include hoff

theorem enablePcie_untrained (hdown : l.up = false) :
    enablePcie s l = (setReason s 0x0024_0000 .pcieParam, some .pcieParam) := by
  simp [enablePcie, hoff, hdown]

theorem enablePcie_trained (hup : l.up = true) (hpass : firstFail (enableChecks s 0x0024_0000) = none) :
    (enablePcie s l).1 = { pageEnabled s 0x0024_0000 with pcie := {
      up := true, gen := min l.gen (live (pageEnabled s 0x0024_0000) 0x0024_0010 % 4),
      width := min l.width (bits (live (pageEnabled s 0x0024_0000) 0x0024_0010) 3 2), ready := l.ready,
      granules := if l.ready then l.granules % 2 ^ 32 else 0 } } := by
  have henable : enablePage s 0x0024_0000 = (pageEnabled s 0x0024_0000, none) := by
    rw [enablePage_passes hoff hpass, enableEffects_quiet (by decide)]
  simp only [enablePcie, hoff, hup, henable, Bool.false_eq_true, if_false, if_true, Option.isSome_none]

end

/-! ## Disabling a page (R608, R749) -/

section
variable {s : State} {p : Nat}

theorem disablePage_off (hoff : pageOn s p = false) : disablePage s p = (s, none) := by
  simp [disablePage, hoff]

variable (hpage : p ∈ enablePages) (hon : pageOn s p = true)
include hpage hon

theorem disablePage_refused {r : Reason} (hfault : disableFault s p = some r) : disablePage s p = (setReason s p r, some r) := by
  simp [disablePage, hpage, hon, hfault]

/-- A disable that is not refused stops what the page runs; here no commit of the page waits. -/
theorem disablePage_stops (hfault : disableFault s p = none)
    (hquiet : (pageAt (disableEffects (modPage s p switchedOff) p) p).pending = false) :
    disablePage s p = (disableEffects (modPage s p switchedOff) p, none) := by
  have hnot : ¬ (pageAt (disableEffects (modPage s p switchedOff) p) p).pending = true := by
    rw [hquiet]
    decide
  simp only [disablePage, List.contains_iff_mem.mpr hpage, hon, hfault, Bool.not_true, Bool.or_self, Bool.false_eq_true,
    if_false]
  exact congrArg (·, none) (if_neg hnot)

theorem disablePage_quiet (hquiet : p ∈ [0x0020_0000, 0x0020_3000, 0x0020_3100, 0x0021_0000, 0x0021_1000])
    (hpending : (pageAt s p).pending = false) : disablePage s p = (modPage s p switchedOff, none) := by
  have hfault : disableFault s p = none := by
    simp only [List.mem_cons, List.not_mem_nil, or_false] at hquiet
    rcases hquiet with rfl | rfl | rfl | rfl | rfl <;> rfl
  have hstops (t : State) : disableEffects t p = t := by
    simp only [List.mem_cons, List.not_mem_nil, or_false] at hquiet
    rcases hquiet with rfl | rfl | rfl | rfl | rfl <;> rfl
  rw [disablePage_stops hpage hon hfault, hstops]
  rw [hstops, pageAt_modPage_self]
  exact hpending

end

/-! ## Guardrail's stops (R493, R499) -/

theorem bit_maskOf_from (l : List Nat) (k : Nat) : ∀ m, bit (l.foldl (fun m i => m ||| (1 <<< i)) m) k =
    (bit m k || l.contains k) := by
  induction l with
  | nil => exact fun m => (Bool.or_false _).symm
  | cons i l ih =>
    intro m
    rw [List.foldl_cons, ih, List.contains_cons, ← Bool.or_assoc]
    rcases eq_or_ne k i with rfl | hne
    · rw [bit_added_self, beq_self_eq_true, Bool.or_true]
    · rw [bit_added_ne hne, beq_eq_false_iff_ne.mpr hne, Bool.or_false]

theorem bit_maskOf (l : List Nat) (k : Nat) : bit (maskOf l) k = l.contains k := by
  rw [maskOf, bit_maskOf_from, bit, Nat.zero_testBit, Bool.false_or]

/-- The stops of a mask that are not latched yet. -/
def newStops (s : State) (mask : Nat) : List Nat := (List.range 4).filter (fun k => bit mask k && !bit s.grd.stopped k)

theorem assertStops_frame (s : State) (mask : Nat) (cause : Nat → GrdCause) : ∃ net draws causes stops,
    assertStops s mask cause = { s with net := net, draws := draws, grd := { s.grd with
      stopped := s.grd.stopped ||| maskOf (newStops s mask), causes := causes, stops := stops } } := by
  by_cases hnew : newStops s mask = []
  · have hnone : assertStops s mask cause = s := if_pos (List.isEmpty_iff.mpr hnew)
    rw [hnone, hnew]
    exact ⟨_, _, _, _, by rw [maskOf, List.foldl_nil, Nat.or_zero]⟩
  · refine ⟨_, _, _, _, (if_neg (mt List.isEmpty_iff.mp hnew)).trans ((emit_frame ..).trans rfl)⟩

theorem bit_stopped {s : State} {mask k : Nat} (hk : k < 4) (hmask : bit mask k = true) :
    bit (s.grd.stopped ||| maskOf (newStops s mask)) k = true := by
  have hor : bit (s.grd.stopped ||| maskOf (newStops s mask)) k = (bit s.grd.stopped k || bit (maskOf (newStops s mask)) k) :=
    Nat.testBit_or _ _ _
  rw [hor, bit_maskOf]
  cases hlatched : bit s.grd.stopped k with
  | true => rfl
  | false => simp [newStops, hk, hmask, hlatched]

/-- Guardrail halts with all four stops asserted, and drops what it was evaluating. -/
theorem grdHalt_frame (s : State) : ∃ net draws grd, grdHalt s = { s with net := net, draws := draws, grd := grd } ∧
    (∀ k < 4, bit grd.stopped k = true) ∧ grd.bus = none ∧ grd.waiting = [] ∧ grd.weights = s.grd.weights ∧
    grd.readings = s.grd.readings := by
  obtain ⟨net, draws, _, _, hassert⟩ := assertStops_frame s 15 (fun _ => {})
  unfold grdHalt
  rw [hassert]
  exact ⟨net, draws, _, rfl, fun k hk => bit_stopped hk (by interval_cases k <;> rfl), rfl, rfl, rfl, rfl⟩

theorem execGrdDisable_halts {s : State} (hon : pageOn s grdPage = true) (hpending : (pageAt s grdPage).pending = false) :
    execGrdDisable s = .next (grdHalt (modPage s grdPage switchedOff)) := by
  obtain ⟨_, _, _, hframe, -⟩ := grdHalt_frame (modPage s grdPage switchedOff)
  have hquiet : (pageAt (disableEffects (modPage s grdPage switchedOff) grdPage) grdPage).pending = false := by
    have hregs : (pageAt (grdHalt (modPage s grdPage switchedOff)) grdPage) = pageAt (modPage s grdPage switchedOff) grdPage := by
      rw [hframe]
      rfl
    exact (congrArg Page.pending (hregs.trans (pageAt_modPage_self ..))).trans hpending
  rw [execGrdDisable, disablePage_stops (by decide) hon rfl hquiet]
  rfl

/-- Settles O4: an enable by its checks and what each page starts, a disable by its fault and what each page stops. -/
theorem pagesEnableAndDisable : Obligations.PagesEnableAndDisable := by
  refine ⟨fun s => ⟨fun c p hc => ?_, fun l hoff => ⟨fun hdown => ?_, fun hup hpass => ?_⟩⟩,
    fun s => ⟨fun p hoff => ?_, fun p hquiet hon hpending => ?_, fun hon hservice => ?_, fun hon hpending => ?_,
      fun hon hpending => ?_⟩⟩
  · have hexec := exec_enables hc s
    refine ⟨fun hon => ?_, fun r hoff hfail => ?_, fun hoff hpass => ?_⟩
    · rw [hexec, enablePage_on hon]
    · rw [hexec, enablePage_refused hoff hfail]
    · rw [enablePage_passes hoff hpass] at hexec
      rintro u rfl
      refine ⟨fun hp => ?_, ?_, ?_, ?_, ?_⟩
      · rw [hexec, enableEffects_quiet (List.mem_append_left [0x0024_0000] hp)]
        rfl
      · rintro m hm rfl
        rw [hexec, enableEffects_stream hm]
        rfl
      · rintro rfl
        exact hexec
      · rintro rfl
        exact hexec
      · rintro i hi x rfl howner hawake
        rw [hexec, enableEffects_isp (s := pageEnabled s (ispPage i)) hi howner hawake]
        rfl
  · rw [exec_pcieEnable, execPcieEnable, enablePcie_untrained hoff hdown]
  · rintro u rfl
    rw [exec_pcieEnable, execPcieEnable, enablePcie_trained hoff hup hpass]
    rfl
  · rw [exec_enableClear, execEnableClear, disablePage_off hoff]
  · have hpage : ∀ q ∈ [0x0020_0000, 0x0020_3000, 0x0020_3100, 0x0021_0000, 0x0021_1000], q ∈ enablePages := by decide
    rw [exec_enableClear, execEnableClear, disablePage_quiet (hpage p hquiet) hon hquiet hpending]
    rfl
  · rw [exec_enableClear, execEnableClear, disablePage_refused (by decide) hon (if_pos hservice)]
  · have hquiet : (pageAt (disableEffects (modPage s 0x0024_0000 switchedOff) 0x0024_0000) 0x0024_0000).pending = false :=
      (congrArg Page.pending (pageAt_modPage_self ..)).trans hpending
    rw [exec_enableClear, execEnableClear, disablePage_stops (by decide) hon rfl hquiet]
    rfl
  · obtain ⟨_, _, _, hframe, hstops, hbus, hwaiting, hweights, hreadings⟩ := grdHalt_frame (modPage s grdPage switchedOff)
    have hexec := execGrdDisable_halts hon hpending
    rw [hframe] at hexec
    refine ⟨_, hexec, ?_, hstops, hbus, hwaiting, hweights, hreadings, rfl⟩
    exact congrArg Page.enable (pageAt_modPage_self s grdPage switchedOff)

end Sys2Proof.Machine

/-!
PROOFS. The frames in the Layby: finding one, changing one, flagging one, and what the records of finished frames leave (R403,
R408, R409, R419, R432).
-/

namespace Sys2Proof.Machine

/-! ## Finding and changing a frame -/

/-- A change of frames under which each keeps its stream, its number, and whether it is whole. -/
def SamePlace (f : Frame → Frame) : Prop := ∀ g, (f g).stream = g.stream ∧ (f g).no = g.no ∧ (f g).whole = g.whole

/-- A change of frames under which each keeps its stream and its number. -/
def SameName (f : Frame → Frame) : Prop := ∀ g, (f g).stream = g.stream ∧ (f g).no = g.no

theorem SamePlace.sameName {f : Frame → Frame} (hf : SamePlace f) : SameName f := fun g =>
  let ⟨hstream, hno, _⟩ := hf g
  ⟨hstream, hno⟩

/-- The frame of a stream and number is changed, and every other stays. -/
def changeAt (m no : Nat) (f : Frame → Frame) (g : Frame) : Frame := if g.stream = m ∧ g.no = no then f g else g

theorem SameName.changeAt {f : Frame → Frame} (hf : SameName f) (m no : Nat) : SameName (changeAt m no f) := fun g => by
  unfold Machine.changeAt
  split
  · exact hf g
  · exact ⟨rfl, rfl⟩

theorem changeAt_whole {f : Frame → Frame} (hf : SamePlace f) (m no : Nat) (g : Frame) :
    (changeAt m no f g).whole = g.whole := by
  obtain ⟨-, -, hwhole⟩ := hf g
  unfold changeAt
  split
  · exact hwhole
  · rfl

section
variable {s t : State} {m no : Nat} {f : Frame → Frame} {g : Frame}

theorem frameOf_congr (h : t.cam.frames = s.cam.frames) (m no : Nat) : frameOf t m no = frameOf s m no := by
  rw [frameOf, h, frameOf]

theorem openFrame_congr (h : t.cam.frames = s.cam.frames) (m : Nat) : openFrame t m = openFrame s m := by
  rw [openFrame, h, openFrame]

theorem frameOf_named (h : frameOf s m no = some g) : g.stream = m ∧ g.no = no := by
  simpa using List.find?_some h

theorem openFrame_stream (h : openFrame s m = some g) : g.stream = m := by
  have hfound := List.find?_some h
  simp only [Bool.and_eq_true, beq_iff_eq] at hfound
  exact hfound.1

theorem frameOf_modFrame (hf : SameName f) (h : frameOf s m no = some g) : frameOf (modFrame s m no f) m no = some (f g) := by
  have hsame : ((fun g => g.stream == m && g.no == no) ∘ changeAt m no f) = fun g : Frame => g.stream == m && g.no == no := by
    funext x
    obtain ⟨hstream, hno⟩ := hf.changeAt m no x
    rw [Function.comp_apply, hstream, hno]
  have hfind : frameOf (modFrame s m no f) m no = (frameOf s m no).map (changeAt m no f) := by
    refine List.find?_map.trans ?_
    exact congrArg (fun p => (s.cam.frames.find? p).map (changeAt m no f)) hsame
  rw [hfind, h, Option.map_some, changeAt, if_pos (frameOf_named h)]

theorem openFrame_modFrame (hf : SamePlace f) (h : openFrame s m = some g) :
    openFrame (modFrame s m g.no f) m = some (f g) := by
  have hsame : ((fun g => g.stream == m && !g.whole) ∘ changeAt m g.no f) = fun g : Frame => g.stream == m && !g.whole := by
    funext x
    obtain ⟨hstream, -⟩ := hf.sameName.changeAt m g.no x
    rw [Function.comp_apply, hstream, changeAt_whole hf]
  have hfind : openFrame (modFrame s m g.no f) m = (openFrame s m).map (changeAt m g.no f) := by
    refine List.find?_map.trans ?_
    exact congrArg (fun p => (s.cam.frames.find? p).map (changeAt m g.no f)) hsame
  rw [hfind, h, Option.map_some, changeAt, if_pos ⟨openFrame_stream h, rfl⟩]

end

/-! ## Flagging a frame (R408, R409) -/

/-- A frame with one more flag, and with DROPPED where a flagged frame is dropped. -/
def flagged (drop : Bool) (fl : Nat) (g : Frame) : Frame :=
  { g with flags := insertNum fl (if drop then insertNum 5 g.flags else g.flags) }

theorem flagged_samePlace (drop : Bool) (fl : Nat) : SamePlace (flagged drop fl) := fun _ => ⟨rfl, rfl, rfl⟩

theorem mem_flagged (drop : Bool) (fl : Nat) (g : Frame) : fl ∈ (flagged drop fl g).flags :=
  (mem_insertNum fl fl _).mpr (.inl rfl)

theorem mem_flagged_old (drop : Bool) (fl : Nat) {g : Frame} {k : Nat} (hk : k ∈ g.flags) : k ∈ (flagged drop fl g).flags := by
  refine (mem_insertNum fl k _).mpr (.inr ?_)
  cases drop with
  | false => exact hk
  | true => exact (mem_insertNum 5 k _).mpr (.inr hk)

theorem dropped_mem_flagged (fl : Nat) (g : Frame) : 5 ∈ (flagged true fl g).flags :=
  (mem_insertNum fl 5 _).mpr (.inr ((mem_insertNum 5 5 _).mpr (.inl rfl)))

/-- ERR_POLICY DROP of a stream. -/
abbrev drops (s : State) (m : Nat) : Bool := bit (strSrc s m) 11

/-- The ready units without those of a frame that is dropped (R409). -/
def readyWithout (s : State) (m no : Nat) : List (Nat × Nat × Nat × Nat) :=
  s.cam.ready.filter (fun r => !(r.2.1 == m && r.2.2.1 == no))

section
variable (s : State) (m no fl : Nat)

theorem flagFrame_eq : ∃ strs, flagFrame s m no fl = { s with cam := { s.cam with
    strs := strs, frames := (modFrame s m no (flagged (drops s m) fl)).cam.frames,
    ready := if drops s m then readyWithout s m no else s.cam.ready } } := by
  unfold flagFrame drops flagged
  generalize bit (strSrc s m) 11 = drop
  cases frameOf s m no with
  | none => cases drop <;> exact ⟨_, rfl⟩
  | some g =>
    dsimp only
    cases g.flags.isEmpty <;> cases drop <;> exact ⟨_, rfl⟩

theorem flagFrame_frames : (flagFrame s m no fl).cam.frames = (modFrame s m no (flagged (drops s m) fl)).cam.frames := by
  obtain ⟨_, hframe⟩ := flagFrame_eq s m no fl
  rw [hframe]

theorem flagFrame_regs : (flagFrame s m no fl).regs = s.regs := by
  obtain ⟨_, hframe⟩ := flagFrame_eq s m no fl
  rw [hframe]

variable {s m no}

/-- No unit of a frame that is dropped stays ready. -/
theorem flagFrame_ready (hdrop : drops s m = true) : ∀ r ∈ (flagFrame s m no fl).cam.ready, r.2.1 ≠ m ∨ r.2.2.1 ≠ no := by
  obtain ⟨_, hframe⟩ := flagFrame_eq s m no fl
  rw [hframe, if_pos hdrop]
  intro r hr
  have hkept := (List.mem_filter.mp hr).2
  rw [Bool.not_eq_true', Bool.and_eq_false_iff, beq_eq_false_iff_ne, beq_eq_false_iff_ne] at hkept
  exact hkept

theorem frameOf_flagFrame {g : Frame} (h : frameOf s m no = some g) :
    frameOf (flagFrame s m no fl) m no = some (flagged (drops s m) fl g) := by
  rw [frameOf_congr (flagFrame_frames s m no fl)]
  exact frameOf_modFrame (flagged_samePlace _ fl).sameName h

theorem openFrame_flagFrame {g : Frame} (h : openFrame s m = some g) :
    openFrame (flagFrame s m g.no fl) m = some (flagged (drops s m) fl g) := by
  rw [openFrame_congr (flagFrame_frames s m g.no fl)]
  exact openFrame_modFrame (flagged_samePlace _ fl) h

end

/-! ## Units become ready (R419) -/

theorem SameName.users (f : Frame → List IspFrame) : SameName (fun g => { g with users := f g }) := fun _ => ⟨rfl, rfl⟩

/-- From `s` to `t` a frame has changed in the progress of its ISP contexts alone, and with it only the units that are ready. -/
def Queued (m no : Nat) (g : Frame) (s t : State) : Prop :=
  (∃ users, frameOf t m no = some { g with users := users }) ∧
    ∃ frames ready, t = { s with cam := { s.cam with frames := frames, ready := ready } }

theorem readyUnits_queued {s : State} {m no : Nat} {g : Frame} (h : frameOf s m no = some g) :
    Queued m no g s (readyUnits s m no) := by
  have hself : Queued m no g s s := ⟨⟨g.users, h⟩, s.cam.frames, s.cam.ready, rfl⟩
  unfold readyUnits
  rw [h]
  dsimp only
  split
  · exact hself
  · refine List.foldlRecOn (motive := Queued m no g s) g.users _ hself fun a ha u _ => ?_
    obtain ⟨⟨users, hframe⟩, _, _, rfl⟩ := ha
    exact ⟨⟨_, (frameOf_modFrame (g := { g with users := users }) (.users _) hframe).trans rfl⟩, _, _, rfl⟩

/-! ## The records of finished frames (R432) -/

theorem checkWrite_cam (s : State) (h : WinHdr) (src : WriteFrom) : (checkWrite s h src).1.cam = s.cam := by
  unfold checkWrite
  split
  · rfl
  · dsimp only
    split <;> rfl

theorem offerWrite_cam (s : State) (h : WinHdr) (src : WriteFrom) : (offerWrite s h src).1.cam = s.cam := by
  have hcheck := checkWrite_cam s h src
  unfold offerWrite
  split
  · rfl
  · split
    · next t heq =>
      rw [heq] at hcheck
      exact hcheck
    · exact hcheck

theorem writeRecord_frames (s : State) (g : Frame) (u : IspFrame) (d : RecDue) :
    (writeRecord s g u d).cam.frames = s.cam.frames := by
  have hput : ∀ (a : State) (h : WinHdr) (src : WriteFrom) (b : Bytes),
      (if b.isEmpty then a else (offerWrite a h src).1).cam = a.cam := fun a h src b => by
    split
    · rfl
    · exact offerWrite_cam a h src
  unfold writeRecord
  split
  · rfl
  · dsimp only
    rw [hput, hput, hput]
    rfl

/-- Every frame of `t` is a frame of `s` but for what its ISP contexts have still to do. -/
def FramesFrom (s t : State) : Prop := ∀ g ∈ t.cam.frames, ∃ f ∈ s.cam.frames, g = { f with users := g.users }

theorem FramesFrom.refl (s : State) : FramesFrom s s := fun g hg => ⟨g, hg, rfl⟩

theorem FramesFrom.trans {s t u : State} (hst : FramesFrom s t) (htu : FramesFrom t u) : FramesFrom s u := by
  intro g hg
  obtain ⟨f, hf, hgf⟩ := htu g hg
  obtain ⟨e, he, hfe⟩ := hst f hf
  exact ⟨e, he, by rw [hgf, hfe]⟩

theorem FramesFrom.of_eq {s t : State} (h : t.cam.frames = s.cam.frames) : FramesFrom s t := fun g hg => ⟨g, h ▸ hg, rfl⟩

theorem FramesFrom.foldl {β : Type} {f : State → β → State} (hf : ∀ a b, FramesFrom a (f a b)) (l : List β) (s : State) :
    FramesFrom s (l.foldl f s) :=
  List.foldlRecOn (motive := FramesFrom s) l f (.refl s) fun a ha b _ => ha.trans (hf a b)

theorem modFrame_users_framesFrom (s : State) (m no : Nat) (f : Frame → List IspFrame) :
    FramesFrom s (modFrame s m no (fun g => { g with users := f g })) := by
  intro g hg
  obtain ⟨e, he, rfl⟩ := List.mem_map.mp hg
  refine ⟨e, he, ?_⟩
  split <;> rfl

theorem finishFrames_framesFrom (s : State) : FramesFrom s (finishFrames s) := by
  refine FramesFrom.trans (t := _) (.foldl (fun a g => .foldl (fun b u => ?_) _ a) _ s) fun g hg =>
    ⟨g, (List.mem_filter.mp hg).1, rfl⟩
  split
  · split
    · exact .refl b
    · exact (FramesFrom.of_eq (writeRecord_frames ..)).trans (modFrame_users_framesFrom _ _ _ _)
  · exact .refl b

/-! ## Abandoned frames (R404, R411, R413) -/

/-- A frame of a selection is abandoned. -/
def abandonFrame (s : State) (sel : Frame → Bool) (flag : Nat) (g : Frame) : Frame :=
  if sel g && !g.dead then
    { g with dead := true, whole := true, lines := [], users := g.users.map (fun u =>
      match u.due with
      | some d => { u with due := some { d with flags := insertNum flag d.flags } }
      | none => { u with due := some (recDue s g u [flag]) }) }
  else g

/-- Some frame of a selection has a stream and number. -/
def selected (s : State) (sel : Frame → Bool) (m no : Nat) : Bool :=
  s.cam.frames.any (fun g => sel g && g.stream == m && g.no == no)

section
variable (s : State) (sel : Frame → Bool) (flag : Nat)

theorem abandonFrames_eq : abandonFrames s sel flag = finishFrames { s with cam := { s.cam with
    ready := s.cam.ready.filter (fun r => !selected s sel r.2.1 r.2.2.1),
    running := s.cam.running.filter (fun r => !selected s sel r.2.1 r.2.2.1),
    frames := s.cam.frames.map (abandonFrame s sel flag) } } := rfl

/-- What becomes of the frames when some are abandoned: one that is left is dead, or it was not among them. -/
theorem abandonFrames_mem {g : Frame} (hg : g ∈ (abandonFrames s sel flag).cam.frames) :
    g.dead = true ∨ ∃ f, sel f = false ∧ g.stream = f.stream ∧ g.whole = f.whole := by
  rw [abandonFrames_eq] at hg
  obtain ⟨e, he, hge⟩ := finishFrames_framesFrom _ g hg
  obtain ⟨f, -, rfl⟩ := List.mem_map.mp he
  rw [hge]
  unfold abandonFrame
  cases hsel : sel f with
  | false => exact .inr ⟨f, hsel, rfl, rfl⟩
  | true =>
    cases hdead : f.dead with
    | false => exact .inl rfl
    | true => exact .inl hdead

theorem abandonFrames_frame : ∃ wins flights next waits draws frames told running, abandonFrames s sel flag = { s with
    wins := wins, flights := flights, nextFlight := next, waitHdrs := waits, draws := draws,
    cam := { s.cam with
      ready := s.cam.ready.filter (fun r => !selected s sel r.2.1 r.2.2.1), running := running,
      frames := frames, told := told } } := by
  obtain ⟨_, _, _, _, _, _, _, hframes⟩ := finishFrames_onlyFrames { s with cam := { s.cam with
    ready := s.cam.ready.filter (fun r => !selected s sel r.2.1 r.2.2.1),
    running := s.cam.running.filter (fun r => !selected s sel r.2.1 r.2.2.1),
    frames := s.cam.frames.map (abandonFrame s sel flag) } }
  rw [abandonFrames_eq, hframes]
  exact ⟨_, _, _, _, _, _, _, _, rfl⟩

theorem abandonFrames_rx : (abandonFrames s sel flag).cam.rx = s.cam.rx := by
  obtain ⟨_, _, _, _, _, _, _, _, hframe⟩ := abandonFrames_frame s sel flag
  rw [hframe]

theorem abandonFrames_net : (abandonFrames s sel flag).net = s.net := by
  obtain ⟨_, _, _, _, _, _, _, _, hframe⟩ := abandonFrames_frame s sel flag
  rw [hframe]

end

end Sys2Proof.Machine

/-!
PROOFS. Reception of frames (R404, R405, R407 to R409, R412, R424), presence and the privacy switch (R410, R411, R413, R414).
-/

namespace Sys2Proof.Machine

/-! ## What a receiver hears (R404, R412) -/

theorem rxHears_cut {s : State} (h : s.cam.muted = true ∨ bit s.pwr.up 8 = false) (rx : Nat) : rxHears s rx = false := by
  rcases h with h | h <;> simp [rxHears, h]

theorem rxHears_on {s : State} {rx : Nat} (hmute : s.cam.muted = false) (hup : bit s.pwr.up 8 = true)
    (hon : pageOn s (rxPage rx) = true) : rxHears s rx = true := by
  simp [rxHears, hmute, hup, hon]

section
variable {s : State} {rx : Nat} (hdeaf : rxHears s rx = false)
include hdeaf

theorem execCsiFrameStart_deaf (head : CsiHead) (n : Nat) : execCsiFrameStart rx head n s = .next s := by
  simp [execCsiFrameStart, hdeaf]

theorem execCsiLine_deaf (vc dt : Nat) (b : Bytes) (e : Nat) : execCsiLine rx vc dt b e s = .next s := by
  simp [execCsiLine, hdeaf]

theorem execCsiFrameEnd_deaf (head : CsiHead) : execCsiFrameEnd rx head s = .next s := by
  simp [execCsiFrameEnd, hdeaf]

end

/-! ## The records of the receivers -/

/-- The receivers' records are replaced. -/
def withRx (s : State) (r : Tab CamRx) : State := { s with cam := { s.cam with rx := r } }

/-- A receiver's lanes after a frame start: out of ULPS, and deskewed above 1,500 Mb/s. -/
def laneStart (s : State) (rx : Nat) : State :=
  if decide (1500 < bits (live (endUlps s rx) (rxPage rx + 8)) 19 8) then
    { endUlps s rx with cam := { (endUlps s rx).cam with
      rx := tset (endUlps s rx).cam.rx rx { rxAt (endUlps s rx) rx with deskewed := true } } }
  else endUlps s rx

theorem laneStart_rx (s : State) (rx : Nat) : ∃ r, laneStart s rx = withRx s r := by
  unfold laneStart
  split <;> exact ⟨_, rfl⟩

theorem countErr_errs (s : State) (rx i : Nat) : (rxAt (countErr (endUlps s rx) rx i) rx).errs =
    (List.range 5).map (fun k => min ((rxAt s rx).errs.getD k 0 + if k = i then 1 else 0) 0xFFFF_FFFF) := by
  have hrx : rxAt (endUlps s rx) rx = { rxAt s rx with ulps := false } := tget_tset_self _ _ _ _
  have herrs : (rxAt (countErr (endUlps s rx) rx i) rx).errs = (List.range 5).map (fun k =>
      min ((rxAt (endUlps s rx) rx).errs.getD k 0 + ofBool (k == i)) (2 ^ 32 - 1)) :=
    congrArg CamRx.errs (tget_tset_self _ _ _ _)
  rw [herrs, hrx]
  refine List.map_congr_left fun k _ => ?_
  simp only [ofBool, beq_iff_eq]
  rfl

/-! ## Frame starts (R405, R408, R424) -/

/-- The frame that a frame start opens: the next number of its stream, for the ISP contexts that the stream feeds. -/
def newFrame (s : State) (m csi : Nat) : Frame :=
  { stream := m, no := (strAt s m).nextNo, csi := csi, tFs := Config.freeTime s.draws,
    users := (fedBy s m).map (fun i => { isp := i, lost := lostRings s i }) }

/-- A stream has one more frame, with the next number. -/
def numberedOne (x : CamStr) : CamStr := { x with frames := x.frames + 1, nextNo := x.nextNo + 1 }

theorem takeSlot_free {s : State} {m : Nat} (hfree : (s.cam.frames.filter (fun g => g.stream == m)).length < laybySlots s m)
    (csi : Nat) : takeSlot s m csi = { s with
      draws := s.draws + 1,
      cam := { s.cam with
        strs := tset s.cam.strs m (numberedOne (strAt s m)), frames := s.cam.frames ++ [newFrame s m csi] } } := by
  simp only [takeSlot, if_pos hfree]
  rfl

section
variable {s : State} {rx vc : Nat} (hhears : rxHears s rx = true)
include hhears

theorem execCsiFrameStart_unmatched (hstr : strOf s rx vc = none) (n : Nat) :
    execCsiFrameStart rx ⟨vc, 0⟩ n s = .next (countErr (endUlps s rx) rx 3) := by
  have hnone : strOf (endUlps s rx) rx vc = none := hstr
  have hclean : ∀ k, bit 0 k = false := Nat.zero_testBit
  simp only [execCsiFrameStart, hhears, hclean, hnone, Bool.not_true, Bool.false_eq_true, if_false]

variable {m : Nat} (hstr : strOf s rx vc = some m)
include hstr

theorem execCsiFrameStart_opens (hopen : openFrame s m = none) (n : Nat) :
    execCsiFrameStart rx ⟨vc, 0⟩ n s = .next (takeSlot (laneStart s rx) m n) := by
  have hsome : strOf (endUlps s rx) rx vc = some m := hstr
  have hclean : ∀ k, bit 0 k = false := Nat.zero_testBit
  have hnone : openFrame (laneStart s rx) m = none := by
    obtain ⟨_, hrx⟩ := laneStart_rx s rx
    rw [hrx]
    exact hopen
  unfold laneStart at hnone
  simp only [execCsiFrameStart, hhears, hclean, hsome, hnone, Bool.not_true, Bool.false_eq_true, if_false]
  rfl

end

/-! ## Headers in error (R408) -/

/-- The packets of a virtual channel whose header is in error in two or more bits. -/
def badPackets (rx vc dt : Nat) (b : Bytes) (n : Nat) : List Instr :=
  [.csiFrameStart rx ⟨vc, 2⟩ n, .csiLine rx vc dt b 2, .csiFrameEnd rx ⟨vc, 2⟩]

theorem exec_badHeader {s : State} {rx : Nat} (hhears : rxHears s rx = true) {i : Instr} {vc dt n : Nat} {b : Bytes}
    (hi : i ∈ badPackets rx vc dt b n) : exec i s = .next (badHeader (endUlps s rx) rx vc) := by
  have hcorrected : bit 2 0 = false := rfl
  have huncorrected : bit 2 1 = true := rfl
  simp only [badPackets, List.mem_cons, List.not_mem_nil, or_false] at hi
  rcases hi with rfl | rfl | rfl
  · simp only [exec_csiFrameStart, execCsiFrameStart, hhears, hcorrected, huncorrected, Bool.not_true, Bool.false_eq_true,
      if_false, if_true]
  · simp only [exec_csiLine, execCsiLine, hhears, hcorrected, huncorrected, Bool.not_true, Bool.false_eq_true, if_false, if_true]
  · simp only [exec_csiFrameEnd, execCsiFrameEnd, hhears, hcorrected, huncorrected, Bool.not_true, Bool.false_eq_true, if_false,
      if_true]

/-- The fault of a frame being received flags it, and two counters of its receiver count it. -/
theorem badHeader_eq {s : State} {rx vc m : Nat} {g : Frame} (hstr : strOf s rx vc = some m) (hopen : openFrame s m = some g) :
    ∃ r, badHeader s rx vc = withRx (flagFrame s m g.no 1) r := by
  simp only [badHeader, hstr, hopen, Option.bind_some, Option.map_some]
  exact ⟨_, rfl⟩

theorem badChecksum_eq {s : State} {m : Nat} {g : Frame} (hopen : openFrame s m = some g) (rx : Nat) :
    ∃ r, badChecksum s rx m = withRx (flagFrame s m g.no 0) r := by
  simp only [badChecksum, hopen]
  exact ⟨_, rfl⟩

/-! ## Lines (R407, R408) -/

/-- A frame has taken one more line, cut to the stream's width, while it has room for one. -/
def lineTaken (most height : Nat) (l : List Nat) (f : Frame) : Frame :=
  { f with lines := if f.lines.length < height then f.lines ++ [l.take most] else f.lines, got := f.got + 1 }

theorem lineTaken_sameName (most height : Nat) (l : List Nat) : SameName (lineTaken most height l) := fun _ => ⟨rfl, rfl⟩

theorem lineTaken_lines {height : Nat} {f : Frame} (hroom : f.lines.length < height) (most : Nat) (l : List Nat) :
    (lineTaken most height l f).lines = f.lines ++ [l.take most] := if_pos hroom

/-- A stream of samples has as many in a line as it is wide. -/
theorem lineLen_samples {s : State} {m : Nat} (hraw : bits (strSrc s m) 19 14 ≠ 0x1E) : lineLen s m = strW s m := by
  rw [lineLen, if_neg hraw, Nat.mul_one]

section
variable {s : State} {rx m : Nat} {g : Frame} {l : List Nat}

theorem addLine_fits (hfits : l.length ≤ lineLen s m) : addLine s rx m g l =
    readyUnits (modFrame s m g.no (lineTaken (lineLen s m) (strH s m) l)) m g.no := by
  simp only [addLine, if_neg (Nat.not_lt.mpr hfits)]
  rfl

theorem addLine_long (hlong : lineLen s m < l.length) : addLine s rx m g l =
    readyUnits (modFrame (countErr (flagFrame s m g.no 3) rx 4) m g.no (lineTaken (lineLen s m) (strH s m) l)) m g.no := by
  simp only [addLine, if_pos hlong]
  rfl

variable (hframe : frameOf s m g.no = some g)
include hframe

theorem frameOf_addLine_fits (hfits : l.length ≤ lineLen s m) : ∃ users, frameOf (addLine s rx m g l) m g.no =
    some { lineTaken (lineLen s m) (strH s m) l g with users := users } := by
  obtain ⟨hready, -⟩ := readyUnits_queued (frameOf_modFrame (lineTaken_sameName (lineLen s m) (strH s m) l) hframe)
  rw [addLine_fits hfits]
  exact hready

theorem addLine_fits_frame (hfits : l.length ≤ lineLen s m) : ∃ frames ready, addLine s rx m g l =
    { s with cam := { s.cam with frames := frames, ready := ready } } := by
  obtain ⟨-, _, _, hready⟩ := readyUnits_queued (frameOf_modFrame (lineTaken_sameName (lineLen s m) (strH s m) l) hframe)
  rw [addLine_fits hfits, hready]
  exact ⟨_, _, rfl⟩

theorem frameOf_addLine_long (hlong : lineLen s m < l.length) : ∃ users, frameOf (addLine s rx m g l) m g.no =
    some { lineTaken (lineLen s m) (strH s m) l (flagged (drops s m) 3 g) with users := users } := by
  have hflag : frameOf (countErr (flagFrame s m g.no 3) rx 4) m g.no = some (flagged (drops s m) 3 g) :=
    frameOf_flagFrame 3 hframe
  obtain ⟨hready, -⟩ := readyUnits_queued (frameOf_modFrame (lineTaken_sameName (lineLen s m) (strH s m) l) hflag)
  rw [addLine_long hlong]
  exact hready

end

section
variable {s : State} {rx vc m dt : Nat} (hhears : rxHears s rx = true) (hstr : strOf s rx vc = some m)
  (hdt : dt = bits (strSrc s m) 19 14) {g : Frame} (b : Bytes)
include hhears hstr hdt

theorem execCsiLine_image (hopen : openFrame s m = some g) :
    execCsiLine rx vc dt b 0 s = .next (addLine (endUlps s rx) rx m g (unpackRaw dt b)) := by
  have hsome : strOf (endUlps s rx) rx vc = some m := hstr
  have hclean : ∀ k, bit 0 k = false := Nat.zero_testBit
  have himage : decide (dt = bits (strSrc s m) 19 14) = true := decide_eq_true hdt
  have hframe : openFrame (endUlps s rx) m = some g := hopen
  simp only [execCsiLine, hhears, hclean, hsome, himage, hframe, Bool.not_true, Bool.false_eq_true, if_false, if_true, false_and]

theorem execCsiLine_badChecksum (hopen : openFrame s m = some g) : ∃ r, execCsiLine rx vc dt b 4 s =
    .next (addLine (withRx (flagFrame (endUlps s rx) m g.no 0) r) rx m (flagged (drops s m) 0 g) (unpackRaw dt b)) := by
  have hsome : strOf (endUlps s rx) rx vc = some m := hstr
  have hcorrected : bit 4 0 = false := rfl
  have huncorrected : bit 4 1 = false := rfl
  have hchecksum : bit 4 2 = true := rfl
  have himage : decide (dt = bits (strSrc s m) 19 14) = true := decide_eq_true hdt
  have hbefore : openFrame (endUlps s rx) m = some g := hopen
  obtain ⟨r, hbad⟩ := badChecksum_eq hbefore rx
  have hafter : openFrame (withRx (flagFrame (endUlps s rx) m g.no 0) r) m = some (flagged (drops s m) 0 g) :=
    openFrame_flagFrame 0 hbefore
  refine ⟨r, ?_⟩
  simp only [execCsiLine, hhears, hcorrected, huncorrected, hchecksum, hsome, himage, hbad, hafter, Bool.not_true,
    Bool.false_eq_true, if_false, if_true, false_and]

end

/-! ## Frame ends (R408) -/

/-- A frame has ended: the lines that are missing are blank. -/
def closed (blank : List (List Nat)) (time : Nat) (f : Frame) : Frame :=
  { f with lines := f.lines ++ blank, whole := true, tFe := time }

/-- The state in which a stream's frame has ended, before its units become ready. -/
def frameClosed (s : State) (m : Nat) (g : Frame) : State :=
  draw (modFrame s m g.no (closed (List.replicate (strH s m - g.lines.length) (List.replicate (lineLen s m) 0))
    (Config.freeTime s.draws)))

theorem closeFrame_eq (s : State) (m : Nat) (g : Frame) :
    closeFrame s m g = settleUsers (readyUnits (frameClosed s m g) m g.no) m g.no := rfl

theorem frameOf_frameClosed {s : State} {m : Nat} {g h : Frame} (hframe : frameOf s m g.no = some h) :
    frameOf (frameClosed s m g) m g.no = some (closed
      (List.replicate (strH s m - g.lines.length) (List.replicate (lineLen s m) 0)) (Config.freeTime s.draws) h) :=
  frameOf_modFrame (f := closed _ _) (fun _ => ⟨rfl, rfl⟩) hframe

theorem live_congr {s t : State} (h : t.regs = s.regs) (a : Nat) : live t a = live s a := by
  rw [live, h, live]

theorem strH_congr {s t : State} (h : t.regs = s.regs) (m : Nat) : strH t m = strH s m := by
  rw [strH, live_congr h, strH]

theorem lineLen_congr {s t : State} (h : t.regs = s.regs) (m : Nat) : lineLen t m = lineLen s m := by
  rw [lineLen, strW, strSrc, live_congr h, live_congr h, lineLen, strW, strSrc]

section
variable {s : State} {rx vc m : Nat} (hhears : rxHears s rx = true) (hstr : strOf s rx vc = some m) {g : Frame}
  (hopen : openFrame s m = some g)
include hhears hstr hopen

theorem execCsiFrameEnd_closes : execCsiFrameEnd rx ⟨vc, 0⟩ s = .next (closeFrame
    (if g.lines.length < strH s m then countErr (flagFrame (endUlps s rx) m g.no 2) rx 4 else endUlps s rx) m g) := by
  have hsome : strOf (endUlps s rx) rx vc = some m := hstr
  have hclean : ∀ k, bit 0 k = false := Nat.zero_testBit
  have hframe : openFrame (endUlps s rx) m = some g := hopen
  simp only [execCsiFrameEnd, hhears, hclean, hsome, hframe, Bool.not_true, Bool.false_eq_true, if_false]
  rfl

variable (hframe : frameOf s m g.no = some g)
include hframe

/-- A frame end closes the frame: it is whole, its missing lines are blank, and with lines missing it is SHORT. -/
theorem execCsiFrameEnd_frame : ∃ u h, execCsiFrameEnd rx ⟨vc, 0⟩ s = .next (settleUsers (readyUnits u m g.no) m g.no) ∧
    frameOf u m g.no = some h ∧ h.whole = true ∧
    h.lines = g.lines ++ List.replicate (strH s m - g.lines.length) (List.replicate (lineLen s m) 0) ∧
    (g.lines.length < strH s m → 2 ∈ h.flags) ∧ (strH s m ≤ g.lines.length → h.flags = g.flags) ∧ h.users = g.users := by
  have hexec := execCsiFrameEnd_closes hhears hstr hopen
  rw [closeFrame_eq] at hexec
  by_cases hshort : g.lines.length < strH s m
  · rw [if_pos hshort] at hexec
    have hregs : (countErr (flagFrame (endUlps s rx) m g.no 2) rx 4).regs = s.regs := flagFrame_regs (endUlps s rx) m g.no 2
    have hflag : frameOf (countErr (flagFrame (endUlps s rx) m g.no 2) rx 4) m g.no = some (flagged (drops s m) 2 g) :=
      frameOf_flagFrame (s := endUlps s rx) 2 hframe
    have hclosed := frameOf_frameClosed hflag
    rw [strH_congr hregs, lineLen_congr hregs] at hclosed
    exact ⟨_, _, hexec, hclosed, rfl, rfl, fun _ => mem_flagged _ 2 g, fun hlong => absurd hshort (Nat.not_lt.mpr hlong), rfl⟩
  · rw [if_neg hshort] at hexec
    exact ⟨_, _, hexec, frameOf_frameClosed (s := endUlps s rx) hframe, rfl, rfl, fun h => absurd h hshort, fun _ => rfl, rfl⟩

end

/-! ## Presence (R404, R405, R410, R411, R414) -/

/-- A receiver's record as its lanes change state. -/
def presenceOf (x : CamRx) (lanes : CamLanes) : CamRx :=
  { x with present := lanes.present, deskewed := false, ulps := lanes.ulps && lanes.present }

/-- The state in which a receiver's change of presence is kept. -/
def presenceKept (s : State) (rx : Nat) (lanes : CamLanes) : State :=
  let r := tset s.cam.rx rx { rxAt s rx with ulps := lanes.ulps && lanes.present }
  withRx s (tset r rx { tget r {} rx with present := lanes.present, deskewed := false })

theorem rxAt_presenceKept_self (s : State) (rx : Nat) (lanes : CamLanes) :
    rxAt (presenceKept s rx lanes) rx = presenceOf (rxAt s rx) lanes := by
  refine (tget_tset_self _ _ _ _).trans ?_
  rw [tget_tset_self]
  rfl

theorem rxAt_presenceKept_ne (s : State) {rx k : Nat} (hne : k ≠ rx) (lanes : CamLanes) :
    rxAt (presenceKept s rx lanes) k = rxAt s k :=
  (tget_tset_ne _ _ _ _ _ hne).trans (tget_tset_ne _ _ _ _ _ hne)

/-- The frames that a receiver is receiving. -/
def receiving (s : State) (rx : Nat) (g : Frame) : Bool := !g.whole && bits (strSrc s g.stream) 25 24 == rx

theorem execCamPresenceChange_shut {s : State} (h : s.cam.muted = true ∨ 1 < chipState s) (rx : Nat) (lanes : CamLanes) :
    execCamPresenceChange rx lanes s = .next s := congrArg _ (if_pos h)

section
variable {s : State} (hmute : s.cam.muted = false) (hstate : chipState s ≤ 1) {rx : Nat} {lanes : CamLanes}
include hmute hstate

/-- A receiver that has its power sees its lanes. -/
theorem execCamPresenceChange_seen : execCamPresenceChange rx lanes s = .next (
    if (rxAt s rx).present = lanes.present then
      withRx s (tset s.cam.rx rx { rxAt s rx with ulps := lanes.ulps && lanes.present })
    else if lanes.present then emitDev (presenceKept s rx lanes) .camAttached (leBytes 1 rx)
    else abandonFrames (emitDev (presenceKept s rx lanes) .camDetached (leBytes 1 rx)) (receiving s rx) 7) := by
  have hpower : ¬ (s.cam.muted = true ∨ 1 < chipState s) := by
    rw [hmute]
    simpa using hstate
  exact congrArg _ (if_neg hpower)

theorem execCamPresenceChange_same (hsame : (rxAt s rx).present = lanes.present) : execCamPresenceChange rx lanes s =
    .next (withRx s (tset s.cam.rx rx { rxAt s rx with ulps := lanes.ulps && lanes.present })) := by
  rw [execCamPresenceChange_seen hmute hstate, if_pos hsame]

variable (hother : (rxAt s rx).present ≠ lanes.present)
include hother

theorem execCamPresenceChange_attach (hpresent : lanes.present = true) : execCamPresenceChange rx lanes s =
    .next (emitDev (presenceKept s rx lanes) .camAttached (leBytes 1 rx)) := by
  rw [execCamPresenceChange_seen hmute hstate, if_neg hother, if_pos hpresent]

theorem execCamPresenceChange_detach (habsent : lanes.present = false) : execCamPresenceChange rx lanes s =
    .next (abandonFrames (emitDev (presenceKept s rx lanes) .camDetached (leBytes 1 rx)) (receiving s rx) 7) := by
  rw [execCamPresenceChange_seen hmute hstate, if_neg hother, habsent, if_neg Bool.false_ne_true]

end

/-- What a detach leaves: its receiver absent, no frame of it still received, and one event numbered. -/
theorem detached {s : State} (hroom : EventRoom s) (rx : Nat) {lanes : CamLanes} (habsent : lanes.present = false) :
    ∀ t, t = abandonFrames (emitDev (presenceKept s rx lanes) .camDetached (leBytes 1 rx)) (receiving s rx) 7 →
      (rxAt t rx).present = false ∧ (rxAt t rx).ulps = false ∧
      (∀ g ∈ t.cam.frames, g.whole = false → g.dead = false → bits (strSrc s g.stream) 25 24 ≠ rx) ∧
      t.net.evtNum = (s.net.evtNum + 1) % 2 ^ 32 := by
  rintro t rfl
  obtain ⟨hnumber, -⟩ := emit_reported (presenceKept s rx lanes) none .ok .camDetached (leBytes 1 rx) hroom
  have hrx : rxAt (abandonFrames (emitDev (presenceKept s rx lanes) .camDetached (leBytes 1 rx)) (receiving s rx) 7) rx =
      presenceOf (rxAt s rx) lanes := by
    rw [← rxAt_presenceKept_self, rxAt, abandonFrames_rx, emitDev_cam, rxAt]
  refine ⟨?_, ?_, fun g hg hwhole hdead => ?_, ?_⟩
  · rw [hrx]
    exact habsent
  · rw [hrx]
    simp [presenceOf, habsent]
  · obtain hgone | ⟨f, hsel, hstream, hpart⟩ := abandonFrames_mem _ _ _ hg
    · rw [hgone] at hdead
      cases hdead
    · rw [receiving, ← hpart, hwhole, ← hstream, Bool.not_false, Bool.true_and, beq_eq_false_iff_ne] at hsel
      exact hsel
  · rw [abandonFrames_net]
    exact hnumber

/-! ## The privacy switch (R412, R413) -/

/-- The cameras are muted, or not. -/
def mutedAs (s : State) (b : Bool) : State := { s with cam := { s.cam with muted := b } }

/-- The state in which a mute has abandoned every frame. -/
def muteTaken (s : State) : State := abandonFrames (mutedAs s true) (fun _ => true) 6

theorem execCamMuteOn_again {s : State} (hmute : s.cam.muted = true) : execCamMuteOn s = .next s := congrArg _ (if_pos hmute)

theorem execCamMuteOff_again {s : State} (hmute : s.cam.muted = false) : execCamMuteOff s = .next s := by
  simp [execCamMuteOff, hmute]

theorem execCamMuteOn_off {s : State} (hmute : s.cam.muted = false) (hmode : s.pwr.mode = .off) :
    execCamMuteOn s = .next (mutedAs s true) := by
  simp only [execCamMuteOn, hmute, hmode, Bool.false_eq_true, if_false, if_true]
  rfl

theorem execCamMuteOff_off {s : State} (hmute : s.cam.muted = true) (hmode : s.pwr.mode = .off) :
    execCamMuteOff s = .next (mutedAs s false) := by
  simp only [execCamMuteOff, hmute, hmode, Bool.not_true, Bool.false_eq_true, if_false, if_true]
  rfl

theorem execCamMuteOn_reports {s : State} (hmute : s.cam.muted = false) (hmode : s.pwr.mode ≠ .off) :
    execCamMuteOn s = .next (emitDev (muteTaken s) .camMuteOn []) := by
  simp only [execCamMuteOn, hmute, if_neg hmode, Bool.false_eq_true, if_false]
  rfl

theorem execCamMuteOff_reports {s : State} (hmute : s.cam.muted = true) (hmode : s.pwr.mode ≠ .off) :
    execCamMuteOff s = .next (emitDev (mutedAs s false) .camMuteOff []) := by
  simp only [execCamMuteOff, hmute, if_neg hmode, Bool.not_true, Bool.false_eq_true, if_false]
  rfl

theorem muteTaken_frame (s : State) : ∃ wins flights next waits draws frames told running, muteTaken s = { s with
    wins := wins, flights := flights, nextFlight := next, waitHdrs := waits, draws := draws,
    cam := { s.cam with
      muted := true, ready := s.cam.ready.filter (fun r => !selected (mutedAs s true) (fun _ => true) r.2.1 r.2.2.1),
      running := running, frames := frames, told := told } } := by
  obtain ⟨_, _, _, _, _, _, _, _, hframe⟩ := abandonFrames_frame (mutedAs s true) (fun _ => true) 6
  rw [muteTaken, hframe]
  exact ⟨_, _, _, _, _, _, _, _, rfl⟩

theorem muteTaken_room {s : State} (hroom : EventRoom s) : EventRoom (muteTaken s) := by
  obtain ⟨_, _, _, _, _, _, _, _, hframe⟩ := muteTaken_frame s
  rw [hframe]
  exact hroom

/-- A mute abandons every frame, and no unit of one stays ready. -/
theorem muteTaken_abandons (s : State) : (muteTaken s).cam.muted = true ∧ (∀ g ∈ (muteTaken s).cam.frames, g.dead = true) ∧
    (∀ r ∈ (muteTaken s).cam.ready, s.cam.frames.any (fun g => g.stream == r.2.1 && g.no == r.2.2.1) = false) ∧
    (muteTaken s).cam.owners = s.cam.owners ∧ (muteTaken s).cam.strs = s.cam.strs := by
  obtain ⟨_, _, _, _, _, _, _, _, hframe⟩ := muteTaken_frame s
  refine ⟨by rw [hframe], fun g hg => ?_, fun r hr => ?_, by rw [hframe], by rw [hframe]⟩
  · obtain hdead | ⟨f, hsel, -⟩ := abandonFrames_mem _ _ _ hg
    · exact hdead
    · cases hsel
  · rw [hframe] at hr
    have hkept := (List.mem_filter.mp hr).2
    rw [Bool.not_eq_true', selected] at hkept
    simp only [Bool.true_and] at hkept
    exact hkept

/-! ## What each packet leaves of its frame -/

/-- A frame start with a free slot opens the stream's next frame. -/
theorem execCsiFrameStart_frame {s : State} {rx vc m : Nat} (hhears : rxHears s rx = true) (hstr : strOf s rx vc = some m)
    (hopen : openFrame s m = none) (hfree : (s.cam.frames.filter (fun g => g.stream == m)).length < laybySlots s m) (n : Nat) :
    ∃ r, execCsiFrameStart rx ⟨vc, 0⟩ n s = .next { s with
      draws := s.draws + 1,
      cam := { s.cam with
        rx := r, strs := tset s.cam.strs m (numberedOne (strAt s m)), frames := s.cam.frames ++ [newFrame s m n] } } := by
  obtain ⟨r, hrx⟩ := laneStart_rx s rx
  have hexec := execCsiFrameStart_opens hhears hstr hopen n
  rw [hrx, takeSlot_free (s := withRx s r) hfree] at hexec
  exact ⟨r, hexec⟩

section
variable {s : State} {rx vc m dt : Nat} (hhears : rxHears s rx = true) (hstr : strOf s rx vc = some m) {g : Frame}
  (hopen : openFrame s m = some g) (hframe : frameOf s m g.no = some g)
include hhears hstr hopen hframe

/-- A header in error flags the frame, and has no other effect on it. -/
theorem exec_badHeader_frame {n : Nat} {b : Bytes} {i : Instr} (hi : i ∈ badPackets rx vc dt b n) :
    ∃ t h, exec i s = .next t ∧ frameOf t m g.no = some h ∧ h.lines = g.lines ∧ h.whole = g.whole ∧ 1 ∈ h.flags ∧
      (∀ f ∈ g.flags, f ∈ h.flags) ∧
      (drops s m = true → 5 ∈ h.flags ∧ ∀ r ∈ t.cam.ready, r.2.1 ≠ m ∨ r.2.2.1 ≠ g.no) := by
  obtain ⟨r, hbad⟩ := badHeader_eq (s := endUlps s rx) hstr hopen
  have hexec := exec_badHeader hhears hi
  rw [hbad] at hexec
  refine ⟨_, _, hexec, frameOf_flagFrame (s := endUlps s rx) 1 hframe, rfl, rfl, mem_flagged _ 1 g,
    fun f hf => mem_flagged_old _ 1 hf, fun hdrop => ⟨?_, flagFrame_ready (s := endUlps s rx) 1 hdrop⟩⟩
  have hdrops : drops (endUlps s rx) m = true := hdrop
  rw [hdrops]
  exact dropped_mem_flagged 1 g

variable (hdt : dt = bits (strSrc s m) 19 14) (hraw : dt ≠ 0x1E) {b : Bytes} (hroom : g.lines.length < strH s m)
include hdt hraw hroom

theorem execCsiLine_whole (hfits : (unpackRaw dt b).length ≤ strW s m) : ∃ t h, execCsiLine rx vc dt b 0 s = .next t ∧
    frameOf t m g.no = some h ∧ h.lines = g.lines ++ [unpackRaw dt b] ∧ h.got = g.got + 1 ∧ h.flags = g.flags ∧
    h.whole = g.whole ∧ t = { s with cam := { s.cam with rx := t.cam.rx, frames := t.cam.frames, ready := t.cam.ready } } := by
  have hwidth : lineLen (endUlps s rx) m = strW s m := lineLen_samples (s := endUlps s rx) (hdt ▸ hraw)
  have hlen : (unpackRaw dt b).length ≤ lineLen (endUlps s rx) m := hwidth ▸ hfits
  obtain ⟨_, hadd⟩ := frameOf_addLine_fits (s := endUlps s rx) (rx := rx) hframe hlen
  obtain ⟨_, _, honly⟩ := addLine_fits_frame (s := endUlps s rx) (rx := rx) hframe hlen
  refine ⟨_, _, execCsiLine_image hhears hstr hdt b hopen, hadd, ?_, rfl, rfl, rfl, ?_⟩
  · refine (lineTaken_lines hroom _ _).trans ?_
    rw [List.take_of_length_le hlen]
  · rw [honly]
    rfl

theorem execCsiLine_cut (hlong : strW s m < (unpackRaw dt b).length) : ∃ t h, execCsiLine rx vc dt b 0 s = .next t ∧
    frameOf t m g.no = some h ∧ h.lines = g.lines ++ [(unpackRaw dt b).take (strW s m)] ∧ h.got = g.got + 1 ∧ 3 ∈ h.flags ∧
    (drops s m = true → 5 ∈ h.flags) := by
  have hwidth : lineLen (endUlps s rx) m = strW s m := lineLen_samples (s := endUlps s rx) (hdt ▸ hraw)
  obtain ⟨_, hadd⟩ := frameOf_addLine_long (s := endUlps s rx) (rx := rx) (l := unpackRaw dt b) hframe (hwidth ▸ hlong)
  refine ⟨_, _, execCsiLine_image hhears hstr hdt b hopen, hadd, ?_, rfl, mem_flagged _ 3 g, fun hdrop => ?_⟩
  · refine (lineTaken_lines (f := flagged _ 3 g) hroom _ _).trans ?_
    rw [hwidth]
    rfl
  · have hdrops : drops (endUlps s rx) m = true := hdrop
    rw [hdrops]
    exact dropped_mem_flagged 3 g

theorem execCsiLine_checksum (hfits : (unpackRaw dt b).length ≤ strW s m) : ∃ t h, execCsiLine rx vc dt b 4 s = .next t ∧
    frameOf t m g.no = some h ∧ h.lines = g.lines ++ [unpackRaw dt b] ∧ 0 ∈ h.flags := by
  obtain ⟨r, hexec⟩ := execCsiLine_badChecksum hhears hstr hdt b hopen
  have hregs : (withRx (flagFrame (endUlps s rx) m g.no 0) r).regs = s.regs := flagFrame_regs (endUlps s rx) m g.no 0
  have hwidth : lineLen (withRx (flagFrame (endUlps s rx) m g.no 0) r) m = strW s m :=
    (lineLen_congr hregs m).trans (lineLen_samples (hdt ▸ hraw))
  have hlen : (unpackRaw dt b).length ≤ lineLen (withRx (flagFrame (endUlps s rx) m g.no 0) r) m := hwidth ▸ hfits
  have hheight : g.lines.length < strH (withRx (flagFrame (endUlps s rx) m g.no 0) r) m := by
    rw [strH_congr hregs]
    exact hroom
  have hflag : frameOf (withRx (flagFrame (endUlps s rx) m g.no 0) r) m (flagged (drops s m) 0 g).no =
      some (flagged (drops s m) 0 g) := frameOf_flagFrame (s := endUlps s rx) 0 hframe
  obtain ⟨_, hadd⟩ := frameOf_addLine_fits (rx := rx) hflag hlen
  refine ⟨_, _, hexec, hadd, ?_, mem_flagged _ 0 g⟩
  refine (lineTaken_lines (f := flagged _ 0 g) hheight _ _).trans ?_
  rw [List.take_of_length_le hlen]
  rfl

end

/-- Settles O32: each packet by what its receiver hears and its stream is receiving, a change of the lanes by what was present,
and an edge of the switch by whether the cameras are muted. -/
theorem framesAreReceived : Obligations.FramesAreReceived := by
  refine ⟨⟨fun rx vc n dt e b s hcut => ?_, fun rx vc n s hmute hup hon => ⟨fun hstr => ?_, ?_⟩,
    fun rx vc m dt b g s hmute hup hon hstr hopen hframe => ?_⟩, ⟨fun rx p ulps s hroom i hi => ?_, fun s hroom hmode => ?_,
    fun s hmode => ⟨fun hmute => execCamMuteOn_off hmute hmode, fun hmute => execCamMuteOff_off hmute hmode⟩⟩⟩
  · have hdeaf := rxHears_cut hcut rx
    exact ⟨execCsiFrameStart_deaf hdeaf _ n, execCsiLine_deaf hdeaf vc dt b e, execCsiFrameEnd_deaf hdeaf _⟩
  · exact ⟨_, execCsiFrameStart_unmatched (rxHears_on hmute hup hon) hstr n, countErr_errs s rx 3, rfl⟩
  · rintro m _ hstr hopen rfl hfree
    obtain ⟨_, hexec⟩ := execCsiFrameStart_frame (rxHears_on hmute hup hon) hstr hopen hfree n
    refine ⟨_, newFrame s m n, hexec, rfl, rfl, rfl, rfl, rfl, rfl, rfl, ?_, fun u hu => ?_, tget_tset_self _ _ _ _,
      fun k hne => tget_tset_ne _ _ _ _ _ hne, rfl⟩
    · rw [newFrame, List.map_map]
      exact List.map_id _
    · obtain ⟨_, -, rfl⟩ := List.mem_map.mp hu
      rfl
  · have hhears := rxHears_on hmute hup hon
    refine ⟨?_, fun n i hi => exec_badHeader_frame hhears hstr hopen hframe hi,
      execCsiFrameEnd_frame hhears hstr hopen hframe⟩
    rintro l hdt rfl hroom hraw
    exact ⟨fun hfits => execCsiLine_whole hhears hstr hopen hframe hdt hraw hroom hfits,
      fun hlong => execCsiLine_cut hhears hstr hopen hframe hdt hraw hroom hlong,
      fun hfits => execCsiLine_checksum hhears hstr hopen hframe hdt hraw hroom hfits⟩
  · subst hi
    refine ⟨fun hshut => execCamPresenceChange_shut hshut rx _, fun hmute hstate => ⟨fun hsame =>
      execCamPresenceChange_same hmute hstate hsame, fun hother hp => ?_, fun hother hp => ?_⟩⟩
    · subst hp
      refine ⟨presenceKept s rx ⟨true, ulps⟩, reports_emit (execCamPresenceChange_attach hmute hstate hother rfl) hroom, ?_,
        fun k hne => rxAt_presenceKept_ne s hne _, rfl⟩
      rw [rxAt_presenceKept_self, presenceOf, Bool.and_true]
    · subst hp
      exact ⟨_, execCamPresenceChange_detach hmute hstate hother rfl, detached hroom rx rfl _ rfl⟩
  · refine ⟨fun hmute => ⟨execCamMuteOn_again hmute, reports_emit (execCamMuteOff_reports hmute hmode) hroom⟩, fun hmute =>
      ⟨execCamMuteOff_again hmute, muteTaken s, reports_emit (execCamMuteOn_reports hmute hmode) (muteTaken_room hroom),
        muteTaken_abandons s⟩⟩

end Sys2Proof.Machine

/-!
PROOFS. Turns on the ISP (R409, R419, R420, R422, R431), its window writes (R417, R431), and the frame record (R433).
-/

namespace Sys2Proof.Machine

/-! ## The unit that may start (R420) -/

section
variable {s : State} {i : Nat} {r : Nat × Nat × Nat × Nat}

theorem nextUnit_fifo (hfifo : bit (live s 0x0020_0010) 31 = false) (hhead : s.cam.ready.head? = some r) (hisp : r.1 = i) :
    nextUnit s i = some r := by
  obtain ⟨rest, hready⟩ := List.head?_eq_some_iff.mp hhead
  simp only [nextUnit, hfifo, hready, hisp, Bool.false_eq_true, if_false, if_true]

theorem nextUnit_rota (hrota : bit (live s 0x0020_0010) 31 = true) (hserved : s.cam.served = false)
    (hvalid : bit (live s (0x0020_0080 + 4 * s.cam.rota)) 4 = true) (hctx : live s (0x0020_0080 + 4 * s.cam.rota) % 16 = i) :
    nextUnit s i = s.cam.ready.find? (fun q => q.1 == i) := by
  simp only [nextUnit, hrota, hserved, hvalid, hctx, Bool.not_false, and_self, if_true]

theorem nextUnit_idle (hrota : bit (live s 0x0020_0010) 31 = true)
    (hidle : s.cam.served = true ∨ bit (live s (0x0020_0080 + 4 * s.cam.rota)) 4 = false) (i : Nat) : nextUnit s i = none := by
  rcases hidle with h | h <;> simp [nextUnit, hrota, h]

end

/-! ## A unit starts (R419, R422, R431) -/

/-- A unit is in progress: it is no longer ready, the entry has served its band, and the frame has begun. -/
def unitBegun (s : State) (r : Nat × Nat × Nat × Nat) : State :=
  modFrame { s with cam := { s.cam with running := some r, ready := s.cam.ready.filter (fun x => x ≠ r), served := true } }
    r.2.1 r.2.2.1 (fun g => { g with begun := true })

/-- The commit of an ISP context's page is taken at the first unit of a frame, and the rings of the frame are judged again. -/
def frameCommitted (s : State) (i m no : Nat) : State :=
  modUser (tellWaits (takeCommit s (ispPage i)).1 (ispPage i) (takeCommit s (ispPage i)).2) i m no
    (fun v => { v with lost := lostRings (takeCommit s (ispPage i)).1 i })

theorem execIspUnitStart_running {s : State} (hrun : s.cam.running.isSome) (i : Nat) : execIspUnitStart i s = .next s :=
  congrArg _ (if_pos hrun)

section
variable {s : State} {i : Nat} (hidle : s.cam.running = none)
include hidle

theorem execIspUnitStart_none (hnone : nextUnit s i = none) : execIspUnitStart i s = .next s := by
  simp only [execIspUnitStart, hidle, hnone, Option.isSome_none, Bool.false_eq_true, if_false]

variable {r : Nat × Nat × Nat × Nat} (hunit : nextUnit s i = some r)
include hunit

theorem execIspUnitStart_starts (hcommit : r.2.2.2 ≠ 0 ∨ (pageAt s (ispPage i)).pending = false) :
    execIspUnitStart i s = .next (unitBegun s r) := by
  have hlater : ¬ (r.2.2.2 = 0 ∧ (pageAt s (ispPage i)).pending = true) := by
    rintro ⟨hfirst, hpending⟩
    rcases hcommit with h | h
    · exact h hfirst
    · rw [h] at hpending
      cases hpending
  simp only [execIspUnitStart, hidle, hunit, if_neg hlater, Option.isSome_none, Bool.false_eq_true, if_false]
  rfl

theorem execIspUnitStart_commits (hfirst : r.2.2.2 = 0) (hpending : (pageAt s (ispPage i)).pending = true) :
    execIspUnitStart i s = .next (unitBegun (frameCommitted s i r.2.1 r.2.2.1) r) := by
  simp only [execIspUnitStart, hidle, hunit, if_pos (And.intro hfirst hpending), Option.isSome_none, Bool.false_eq_true,
    if_false]
  rfl

end

/-! ## A unit completes (R409, R419) -/

theorem execIspUnitComplete_idle {s : State} (hidle : s.cam.running = none) (i : Nat) : execIspUnitComplete i s = .next s := by
  simp only [execIspUnitComplete, hidle]

theorem execIspUnitComplete_frame {s : State} {i m no u : Nat} {g : Frame} (hrun : s.cam.running = some (i, m, no, u))
    (hframe : frameOf s m no = some g) : ∀ t, t = { s with cam := { s.cam with running := none } } →
    execIspUnitComplete i s = .next (settleUsers
      (modUser (if g.flags.contains 5 then t else writeUnit t i m no g u) i m no (fun v => { v with unit := u + 1 })) m no) := by
  rintro t rfl
  simp only [execIspUnitComplete, hrun, hframe, ne_eq, not_true_eq_false, if_false]

/-! ## The rota (R420) -/

theorem execIspRotaSlotEnd_next {s : State} (hrota : bit (live s 0x0020_0010) 31 = true)
    (hlen : 0 < bits (live s 0x0020_0010) 21 16) : ∀ k e, k = (s.cam.rota + 1) % bits (live s 0x0020_0010) 21 16 →
    e = live s (0x0020_0080 + 4 * k) → execIspRotaSlotEnd s = .next { s with cam := { s.cam with
      rota := k, served := !(bit e 4 && s.cam.ready.any (fun r => r.1 == e % 16)) } } := by
  rintro k e rfl rfl
  rw [Bool.not_and]
  exact congrArg _ (if_pos ⟨hrota, hlen⟩)

theorem execIspRotaSlotEnd_fifo {s : State} (hfifo : bit (live s 0x0020_0010) 31 = false) :
    execIspRotaSlotEnd s = .next s := by
  simp [execIspRotaSlotEnd, hfifo]

/-! ## The window writes of an ISP context (R417, R431) -/

/-- The header of a window write of an ISP context. -/
def ispHeader (c dest off : Nat) (b : Bytes) : WinHdr :=
  { space := bits dest 29 26, ctx := c, slot := bits dest 17 16, win := bits dest 15 8, epoch := dest % 256, off := off,
    data := b, writer := .isp }

section
variable {s t : State} {i m no o c dest off : Nat} {b : Bytes}

theorem ispWrite_accepted (hoffer : offerWrite s (ispHeader c dest off b) (.isp i m no o) = (t, .accepted)) :
    ispWrite s i m no o c dest off b = t := by
  unfold ispHeader at hoffer
  simp only [ispWrite, hoffer]

theorem ispWrite_refused {f : WriteFate} (hf : f = .denied ∨ f = .closed ∨ f = .range)
    (hoffer : offerWrite s (ispHeader c dest off b) (.isp i m no o) = (t, f)) :
    ispWrite s i m no o c dest off b = loseOutput t i m no o := by
  unfold ispHeader at hoffer
  rcases hf with rfl | rfl | rfl <;> simp only [ispWrite, hoffer]

/-- An output that is lost for a frame is lost in the record of its ISP context. -/
theorem frameOf_loseOutput {g : Frame} {u : IspFrame} (hframe : frameOf s m no = some g)
    (huser : g.users.find? (fun v => v.isp == i) = some u) (o : Nat) :
    ∃ f v, frameOf (loseOutput s i m no o) m no = some f ∧ f.users.find? (fun v => v.isp == i) = some v ∧ o ∈ v.lost := by
  have hisp : u.isp = i := by simpa using List.find?_some huser
  refine ⟨_, { u with lost := insertNum o u.lost }, frameOf_modFrame (.users _) hframe, ?_, (mem_insertNum o o _).mpr (.inl rfl)⟩
  have hsame : ((fun v : IspFrame => v.isp == i) ∘ fun v : IspFrame =>
      if v.isp = i then { v with lost := insertNum o v.lost } else v) = fun v => v.isp == i := by
    funext v
    rw [Function.comp_apply]
    split <;> rfl
  rw [List.find?_map, hsame, huser, Option.map_some, if_pos hisp]

variable (hready : homeReady s (ispHeader c dest off b) = true) (hbehind : behindEarlier s (ispHeader c dest off b) = false)
  {k : Nat} (hkey : keyOf s c (bits dest 17 16) (bits dest 29 26) (bits dest 15 8) = some k)
include hready hbehind hkey

theorem ispWrite_loses (hfate : writeFate s (ispHeader c dest off b) k = .denied ∨
      writeFate s (ispHeader c dest off b) k = .closed ∨ writeFate s (ispHeader c dest off b) k = .range) :
    ∃ w, ispWrite s i m no o c dest off b = loseOutput (setWin s k w) i m no o := by
  have hoffer := offerWrite_eq (h := ispHeader c dest off b) hkey (.isp i m no o) hready hbehind
  rcases hfate with h | h | h
  · rw [h] at hoffer
    exact ⟨_, ispWrite_refused (.inl rfl) hoffer⟩
  · rw [h] at hoffer
    exact ⟨_, ispWrite_refused (.inr (.inl rfl)) hoffer⟩
  · rw [h] at hoffer
    exact ⟨_, ispWrite_refused (.inr (.inr rfl)) hoffer⟩

theorem ispWrite_flies (hfate : writeFate s (ispHeader c dest off b) k = .accepted) :
    ispWrite s i m no o c dest off b = inProgress s (ispHeader c dest off b) k (.isp i m no o) := by
  have hoffer := offerWrite_eq (h := ispHeader c dest off b) hkey (.isp i m no o) hready hbehind
  rw [hfate] at hoffer
  exact ispWrite_accepted hoffer

end

/-! ## Numbers packed behind one another -/

/-- Numbers packed little-endian behind one another, each in its width. -/
def packed (l : List (Nat × Nat)) : Bytes := l.flatMap (fun e => leBytes e.1 e.2)

theorem packed_append (l r : List (Nat × Nat)) : packed (l ++ r) = packed l ++ packed r := List.flatMap_append

theorem packed_cons (w n : Nat) (l : List (Nat × Nat)) : packed ((w, n) :: l) = leBytes w n ++ packed l := List.flatMap_cons

theorem packed_length (l : List (Nat × Nat)) : (packed l).length = (l.map Prod.fst).sum := by
  rw [packed, List.length_flatMap]
  exact congrArg List.sum (List.map_congr_left fun e _ => leBytes_length e.1 e.2)

theorem field_packed {before : List (Nat × Nat)} {off : Nat} (hoff : (before.map Prod.fst).sum = off) (w n : Nat)
    (after : List (Nat × Nat)) : field (packed (before ++ (w, n) :: after)) off w = n % 2 ^ (8 * w) := by
  rw [packed_append, packed_cons]
  exact field_append ((packed_length before).trans hoff) _ w n

theorem leBytes_add (v w n : Nat) : leBytes (v + w) n = leBytes v n ++ leBytes w (n / 256 ^ v) := by
  induction v generalizing n with
  | zero => rw [Nat.zero_add, Nat.pow_zero, Nat.div_one]; rfl
  | succ v ih => rw [Nat.succ_add, leBytes, ih, Nat.div_div_eq_div_mul, ← Nat.pow_succ', leBytes, List.cons_append]

/-- The upper bytes of a number are a number of their own. -/
theorem field_packed_high {before : List (Nat × Nat)} {v off : Nat} (hoff : (before.map Prod.fst).sum + v = off) (w n : Nat)
    (after : List (Nat × Nat)) :
    field (packed (before ++ (v + w, n) :: after)) off w = n / 256 ^ v % 2 ^ (8 * w) := by
  have hsplit : packed (before ++ (v + w, n) :: after) = packed ((before ++ [(v, n)]) ++ (w, n / 256 ^ v) :: after) := by
    simp only [packed, List.flatMap_append, List.flatMap_cons, List.flatMap_nil, List.append_nil, leBytes_add, List.append_assoc]
  rw [hsplit]
  exact field_packed (by simpa using hoff) w _ after

/-! ## The frame record (R433) -/

/-- The flags of a frame record: those of the frame and of its end, LOST of the outputs, and EMB_TRUNC. -/
def recordFlags (u : IspFrame) (d : RecDue) : Nat :=
  maskOf (d.flags ++ u.lost.map (· + 9) ++ (if d.trunc then [12] else []))

/-- The word of a frame record that names the buffer, the ISP context and the stream. -/
def recordOf (g : Frame) (u : IspFrame) (d : RecDue) : Nat := d.buf * 2 ^ 24 + u.isp * 2 ^ 16 + g.stream

theorem frameRecord_eq (s : State) (g : Frame) (u : IspFrame) (d : RecDue) (since : Nat) : frameRecord s g u d since =
    packed [(4, 2 ^ 24 + recordFlags u d), (4, recordOf g u d), (8, g.no), (8, g.tFs), (8, g.tFe),
      (8, Config.freeTime s.draws), (2, g.csi), (2, g.got), (4, since), (16, 0)] := by
  simp only [packed, List.flatMap_cons, List.flatMap_nil, List.append_nil, leBytes_zero, frameRecord, recordFlags, recordOf,
    List.append_assoc]

theorem bit_recordFlags (u : IspFrame) (d : RecDue) (k : Nat) : bit (recordFlags u d) k =
    (d.flags.contains k || (decide (9 ≤ k) && u.lost.contains (k - 9)) || (k == 12 && d.trunc)) := by
  have hlost : (u.lost.map (· + 9)).contains k = (decide (9 ≤ k) && u.lost.contains (k - 9)) := by
    rw [Bool.eq_iff_iff]
    simp only [List.contains_iff_mem, List.mem_map, Bool.and_eq_true, decide_eq_true_eq]
    constructor
    · rintro ⟨j, hj, rfl⟩
      exact ⟨Nat.le_add_left 9 j, by simpa using hj⟩
    · rintro ⟨hle, hmem⟩
      exact ⟨k - 9, hmem, Nat.sub_add_cancel hle⟩
  have htrunc : (if d.trunc then [12] else []).contains k = (k == 12 && d.trunc) := by
    cases d.trunc with
    | false => rw [Bool.and_false]; rfl
    | true => rw [Bool.and_true, if_pos rfl, List.contains_cons, List.contains_nil, Bool.or_false]
  rw [recordFlags, bit_maskOf, List.contains_append, List.contains_append, hlost, htrunc]

theorem recordFlags_lt {u : IspFrame} {d : RecDue} (hflags : ∀ k ∈ d.flags, k < 14) (hlost : ∀ k ∈ u.lost, k < 3) :
    recordFlags u d < 2 ^ 14 := by
  refine Nat.lt_pow_two_of_testBit _ fun k hk => ?_
  have hd : k ∉ d.flags := fun h => Nat.not_lt.mpr hk (hflags k h)
  have hu : k - 9 ∉ u.lost := fun h => by
    have := hlost _ h
    omega
  have htwelve : k ≠ 12 := by omega
  refine (bit_recordFlags u d k).trans ?_
  simp [hd, hu, htwelve]

/-- The low bits of a number are those of what is left of it below a power of two. -/
theorem bit_of_mod {x y n k : Nat} (h : x % 2 ^ n = y) (hk : k < n) : bit x k = bit y k := by
  rw [← h, bit, bit, Nat.testBit_mod_two_pow, decide_eq_true hk, Bool.true_and]

section
variable (s : State) {g : Frame} {u : IspFrame} {d : RecDue} (since : Nat)

theorem frameRecord_length : (frameRecord s g u d since).length = 64 := by
  rw [frameRecord_eq, packed_length]
  rfl

theorem frameRecord_flags (hflags : ∀ k ∈ d.flags, k < 14) (hlost : ∀ k ∈ u.lost, k < 3) {k : Nat} (hk : k < 14) :
    bit (field (frameRecord s g u d since) 0 4) k =
      (d.flags.contains k || (decide (9 ≤ k) && u.lost.contains (k - 9)) || (k == 12 && d.trunc)) := by
  have hlt := recordFlags_lt hflags hlost
  have hword := field_packed (before := []) (off := 0) rfl 4 (2 ^ 24 + recordFlags u d)
  rw [← bit_recordFlags, frameRecord_eq]
  refine bit_of_mod (n := 14) ((congrArg (· % 2 ^ 14) (hword _)).trans ?_) hk
  omega

theorem frameRecord_version (hflags : ∀ k ∈ d.flags, k < 14) (hlost : ∀ k ∈ u.lost, k < 3) :
    field (frameRecord s g u d since) 3 1 = 1 := by
  have hlt := recordFlags_lt hflags hlost
  rw [frameRecord_eq]
  refine (field_packed_high (before := []) (v := 3) rfl 1 (2 ^ 24 + recordFlags u d) _).trans ?_
  omega

theorem frameRecord_of : field (frameRecord s g u d since) 4 4 = recordOf g u d % 2 ^ 32 := by
  rw [frameRecord_eq]
  exact field_packed (before := [(4, _)]) rfl 4 (recordOf g u d) _

theorem frameRecord_buf (hstream : g.stream < 8) (hisp : u.isp < 16) (hbuf : d.buf < 256) :
    field (frameRecord s g u d since) 7 1 = d.buf := by
  rw [frameRecord_eq]
  refine (field_packed_high (before := [(4, _)]) (v := 3) rfl 1 (recordOf g u d) _).trans ?_
  unfold recordOf
  omega

theorem frameRecord_no (hno : g.no < 2 ^ 64) : field (frameRecord s g u d since) 8 8 = g.no := by
  rw [frameRecord_eq]
  exact (field_packed (before := [(4, _), (4, _)]) rfl 8 g.no _).trans (Nat.mod_eq_of_lt hno)

theorem frameRecord_csi (hcsi : g.csi < 2 ^ 16) : field (frameRecord s g u d since) 0x28 2 = g.csi := by
  rw [frameRecord_eq]
  exact (field_packed (before := [(4, _), (4, _), (8, _), (8, _), (8, _), (8, _)]) rfl 2 g.csi _).trans
    (Nat.mod_eq_of_lt hcsi)

theorem frameRecord_lines (hgot : g.got < 2 ^ 16) : field (frameRecord s g u d since) 0x2A 2 = g.got := by
  rw [frameRecord_eq]
  exact (field_packed (before := [(4, _), (4, _), (8, _), (8, _), (8, _), (8, _), (2, _)]) rfl 2 g.got _).trans
    (Nat.mod_eq_of_lt hgot)

theorem frameRecord_since (hsince : since < 2 ^ 32) : field (frameRecord s g u d since) 0x2C 4 = since := by
  rw [frameRecord_eq]
  exact (field_packed (before := [(4, _), (4, _), (8, _), (8, _), (8, _), (8, _), (2, _), (2, _)]) rfl 4 since _).trans
    (Nat.mod_eq_of_lt hsince)

theorem frameRecord_reserved : (frameRecord s g u d since).drop 0x30 = List.replicate 16 0 := by
  rw [frameRecord_eq]
  refine (congrArg (List.drop 0x30) (packed_append [(4, _), (4, _), (8, _), (8, _), (8, _), (8, _), (2, _), (2, _), (4, _)]
    [(16, 0)])).trans ?_
  exact List.drop_left' (packed_length _)

end

/-- Settles O33: a start by the unit that may start, a completion and the rota by their definitions, a window write by its
fate, and the frame record by its layout. -/
theorem ispTurnsAndRecords : Obligations.IspTurnsAndRecords := by
  refine ⟨⟨fun i r s => ⟨fun hrun => execIspUnitStart_running hrun i, ?_, ?_, fun hidle hrota hserved =>
      execIspUnitStart_none hidle (nextUnit_idle hrota hserved i)⟩,
    fun i m no u g s => ⟨fun hidle => execIspUnitComplete_idle hidle i, fun hrun hframe =>
      execIspUnitComplete_frame hrun hframe⟩,
    fun s => ⟨execIspRotaSlotEnd_next, execIspRotaSlotEnd_fifo⟩, ?_⟩, ?_⟩
  · intro hidle hisp hcommit hfifo hrota
    have hunit : nextUnit s i = some r := by
      cases hsched : bit (live s 0x0020_0010) 31 with
      | false => exact nextUnit_fifo hsched (hfifo hsched) hisp
      | true =>
        obtain ⟨hserved, hvalid, hctx, hfind⟩ := hrota hsched
        exact (nextUnit_rota hsched hserved hvalid hctx).trans hfind
    exact execIspUnitStart_starts hidle hunit hcommit
  · intro hidle hisp hfirst hpending hfifo hhead
    exact ⟨_, frameCommitted s i r.2.1 r.2.2.1, rfl, rfl,
      execIspUnitStart_commits hidle (nextUnit_fifo hfifo hhead hisp) hfirst hpending⟩
  · rintro i m no o c dest off b _ s rfl hready hbehind k hkey
    refine ⟨fun hfate g u hframe huser => ?_, fun hfate => ?_⟩
    · obtain ⟨w, hwrite⟩ := ispWrite_loses (i := i) (m := m) (no := no) (o := o) hready hbehind hkey hfate
      rw [hwrite]
      exact frameOf_loseOutput (s := setWin s k w) hframe huser o
    · rw [ispWrite_flies hready hbehind hkey hfate]
      exact ⟨rfl, rfl⟩
  · rintro s g u d since _ rfl hflags hlost hstream hisp hbuf hno hgot hsince hcsi
    have hof := frameRecord_of s (g := g) (u := u) (d := d) since
    refine ⟨frameRecord_length s since, frameRecord_version s since hflags hlost,
      fun k hk => frameRecord_flags s since hflags hlost hk, frameRecord_buf s since hstream hisp hbuf, ?_, ?_,
      frameRecord_no s since hno, frameRecord_csi s since hcsi, frameRecord_lines s since hgot,
      frameRecord_since s since hsince, frameRecord_reserved s since⟩
    · rw [hof, bits, recordOf, Nat.shiftRight_eq_div_pow]
      omega
    · rw [hof, recordOf]
      omega

end Sys2Proof.Machine

/-!
PROOFS. The commands of the owner of the audio block (R448, R461, R469).
-/

namespace Sys2Proof.Machine

/-! ## Paths that come on (R452) -/

theorem pathOn_congr {s t : State} (hregs : t.regs = s.regs) (howner : t.aud.owner = s.aud.owner) (p : Nat) :
    pathOn t p = pathOn s p := by
  simp only [pathOn, pageOn, pageAt, live, hregs, howner]

/-- A path that has no owner is off. -/
theorem pathOn_unowned {s : State} (howner : s.aud.owner = none) (p : Nat) : pathOn s p = false := by
  simp [pathOn, howner]

theorem alignPaths_frame (old s : State) :
    alignPaths old s = { s with aud := { s.aud with paths := (alignPaths old s).aud.paths } } := by
  simp only [alignPaths, List.foldl_cons, List.foldl_nil]
  split <;> split <;> rfl

theorem alignPaths_same {old s : State} (hsame : ∀ p, pathOn s p = pathOn old p) : alignPaths old s = s := by
  simp [alignPaths, hsame]

/-- A path that has come on counts from the ring's index, at its own rate. -/
theorem alignPaths_next {old s : State} {p : Nat} (hp : p < 2) (hon : pathOn s p = true) (hold : pathOn old p = false) :
    (tget (alignPaths old s).aud.paths {} p).next = s.aud.index * (if p = 0 then 1 else 3) := by
  obtain rfl | rfl : p = 0 ∨ p = 1 := by omega
  · simp only [alignPaths, List.foldl_cons, List.foldl_nil, hon, hold]
    split
    · exact congrArg AudPath.next ((tget_tset_ne _ _ _ _ _ (by decide)).trans (tget_tset_self ..))
    · exact congrArg AudPath.next (tget_tset_self ..)
  · simp [alignPaths, hon, hold]

/-! ## BIND (R448, R613) -/

theorem abortEntry_live {rq : Req} {s : State} (h : Live rq s) (cls id : Nat) : Live rq (abortEntry s cls id) := by
  unfold abortEntry
  split
  · exact h
  · dsimp only
    split
    · exact deliver_live _ _ _ _ ((finishCmd_live ..).trans h)
    · exact h

theorem voteCast_live {rq : Req} {s : State} (h : Live rq s) (cls id mask : Nat) : Live rq (voteCast s cls id mask) := by
  unfold voteCast
  split
  · exact abortEntry_live h cls id
  · exact h

theorem cancelFrom_live {rq : Req} {s : State} (h : Live rq s) (old : State) (cls id mask : Nat) :
    Live rq (cancelFrom old s cls id mask) := by
  unfold cancelFrom
  split <;> exact h

/-- The audio block with another owner. -/
def ownedState (s : State) (c : Option Nat) : State := { s with aud := { s.aud with owner := c } }

/-- The block after a BIND that names a context: the paths that have so come on start their count. -/
def bound (s : State) (c : Nat) : State := alignPaths s (ownedState s (some c))

/-- The block after such a BIND, with the AUDIO vote of the new owner where the high-quality output is on. -/
def boundVoted (s : State) (c : Nat) : State :=
  if bit (live s 0x0021_0058) 31 then voteCast (cancelFrom s (bound s c) 0 c (2 ^ 9)) 0 c (2 ^ 9) else bound s c

theorem bound_frame (s : State) (c : Nat) :
    bound s c = { s with aud := { s.aud with owner := some c, paths := (bound s c).aud.paths } } :=
  alignPaths_frame s (ownedState s (some c))

theorem bound_owned {s : State} (howner : s.aud.owner.isSome) (c : Nat) : bound s c = ownedState s (some c) :=
  alignPaths_same fun p => by simp only [pathOn, pageOn, pageAt, live, ownedState, howner, Option.isSome_some]

/-- The vote leaves all but the power record, the replies and their records. -/
theorem boundVoted_keeps {β : Type} {g : State → β}
    (hg : ∀ s net draws rel pwr, g { s with net := net, draws := draws, rel := rel, pwr := pwr } = g s) (s : State)
    (c : Nat) : g (boundVoted s c) = g (bound s c) := by
  unfold boundVoted
  split
  · rw [voteCast_keeps hg, cancelFrom_keeps hg]
  · rfl

theorem boundVoted_aud (s : State) (c : Nat) : (boundVoted s c).aud = (bound s c).aud :=
  boundVoted_keeps (fun _ _ _ _ _ => rfl) s c

theorem boundVoted_owner (s : State) (c : Nat) : (boundVoted s c).aud.owner = some c := by
  rw [boundVoted_aud, bound_frame]

theorem boundVoted_paths {s : State} (howner : s.aud.owner.isSome) (c : Nat) :
    (boundVoted s c).aud.paths = s.aud.paths := by
  rw [boundVoted_aud, bound_owned howner, ownedState]

theorem boundVoted_next {s : State} (howner : s.aud.owner = none) {c p : Nat} (hp : p < 2)
    (hon : pathOn (boundVoted s c) p = true) :
    (tget (boundVoted s c).aud.paths {} p).next = s.aud.index * (if p = 0 then 1 else 3) := by
  have hregs : (boundVoted s c).regs = s.regs := by
    rw [boundVoted_keeps (g := State.regs) (fun _ _ _ _ _ => rfl), bound_frame]
  rw [pathOn_congr (s := ownedState s (some c)) hregs (boundVoted_owner s c)] at hon
  rw [boundVoted_aud]
  exact alignPaths_next hp hon (pathOn_unowned howner p)

theorem boundVoted_unvoted {s : State} (hquiet : bit (live s 0x0021_0058) 31 = false) (c : Nat) :
    boundVoted s c = bound s c := by
  simp [boundVoted, hquiet]

theorem boundVoted_live {rq : Req} {s : State} (h : Live rq s) (c : Nat) : Live rq (boundVoted s c) := by
  have hbound : Live rq (bound s c) := by
    rw [bound_frame]
    exact h
  unfold boundVoted
  split
  · exact voteCast_live (cancelFrom_live hbound ..) ..
  · exact hbound

section
variable {rq : Req} {owner : Nat} {s : State} (hctx : (liveCtx s rq.ctx).isSome)
include hctx

theorem execAudioCfgBind_foreign {c : Nat} (hport : rq.iface ≠ .mgmt) (howner : s.aud.owner = some c) (hne : c ≠ rq.ctx) :
    execAudioCfgBind rq owner s = .next (replyC s rq 0x0181 .refused .audOwner []) := by
  rw [execAudioCfgBind, onCtx_of_live hctx, if_pos]
  simp [hport, howner, hne]

variable (hallowed : rq.iface = .mgmt ∨ s.aud.owner = none ∨ s.aud.owner = some rq.ctx)
include hallowed

/-- A BIND that may be made clears the owner, names no context, or binds one. -/
theorem execAudioCfgBind_allowed : execAudioCfgBind rq owner s = .next (
    if owner = 0xFFFF then replyC (ownedState s none) rq 0x0181 .ok .none []
    else if (liveCtx s owner).isNone then replyC s rq 0x0181 .noContext .ctxUnknown []
    else replyC (boundVoted s owner) rq 0x0181 .ok .none []) := by
  rw [execAudioCfgBind, onCtx_of_live hctx, if_neg]
  · rfl
  · rintro ⟨hport, hsome, hne⟩
    rcases hallowed with h | h | h
    · exact hport h
    · simp [h] at hsome
    · exact hne h

end

/-! ## CASCADE (R469) -/

/-- The slots' masks are the four powers of two. -/
theorem cascadeSlot_some {k : Nat} (hk : k < 4) : ([0, 1, 2, 3] : List Nat).find? (fun j => 2 ^ k == 2 ^ j) = some k := by
  interval_cases k <;> rfl

theorem cascadeSlot_none {mask : Nat} (hmask : mask ∉ [0, 1, 2, 4, 8]) :
    ([0, 1, 2, 3] : List Nat).find? (fun j => mask == 2 ^ j) = none := by
  simp only [List.mem_cons, List.not_mem_nil, or_false, not_or] at hmask
  simp [hmask]

/-- The cascade with entry `m` armed. -/
def cascadeArmed (s : State) (m : Nat) (e : CasEntry) : State :=
  { s with aud := { s.aud with cascade := tset s.aud.cascade m e } }

section
variable {rq : Req} {m mask space win linger : Nat} {s : State} (hctx : (liveCtx s rq.ctx).isSome)
include hctx

theorem execCascade_noEntry (hm : m = 0 ∨ 3 < m) :
    execCascade rq m mask space win linger s = .next (replyC s rq 0x0181 .refused .casSlot []) := by
  rw [execCascade, onCtx_of_live hctx]
  exact congrArg _ (if_pos hm)

variable (hm : ¬ (m = 0 ∨ 3 < m))
include hm

theorem execCascade_clears : execCascade rq m 0 space win linger s = .next
    (replyC { s with aud := { s.aud with cascade := terase s.aud.cascade m } } rq 0x0181 .ok .none []) := by
  rw [execCascade, onCtx_of_live hctx]
  exact congrArg _ (if_neg hm)

theorem execCascade_noSlot (hmask : mask ∉ [0, 1, 2, 4, 8]) :
    execCascade rq m mask space win linger s = .next (replyC s rq 0x0181 .refused .casSlot []) := by
  have hsome : mask ≠ 0 := fun h => hmask (by simp [h])
  rw [execCascade, onCtx_of_live hctx]
  simp only [if_neg hm, if_neg hsome, cascadeSlot_none hmask]

/-- What a mask of one slot does: the image and the window are checked, then LINGER, and then the entry is armed. -/
theorem execCascade_slot {k : Nat} (hk : k < 4) : execCascade rq m (2 ^ k) space win linger s = .next (
    if (imageOf s rq.ctx k).isNone ∨ (entryOf s rq.ctx k space win).isNone then replyC s rq 0x0181 .refused .casSlot []
    else if 60000 < linger then replyC s rq 0x0181 .refused .audParam []
    else replyC (cascadeArmed s m { ctx := rq.ctx, slot := k, space := space, win := win, linger := linger })
      rq 0x0181 .ok .none []) := by
  have hpow : 2 ^ k ≠ 0 := (Nat.two_pow_pos k).ne'
  rw [execCascade, onCtx_of_live hctx]
  simp only [if_neg hm, if_neg hpow, cascadeSlot_some hk]
  rfl

end

/-! ## WAKE_PHRASE_LOAD (R448, R461) -/

/-- A record that waits for the next frame end. -/
def phraseWaits (s : State) (p : Nat) (r : Bytes) : State := { s with aud := { s.aud with loads := tset s.aud.loads p r } }

/-- How a record that has been read is answered: refused for its format or its budget, or taken. -/
def phraseJudged (s u : State) (rq : Req) (p : Nat) (r : Bytes) : State :=
  if !wakeFormatOk r then replyC u rq 0x0182 .refused .wakeFormat []
  else if 786432 < macField r + otherMacs s p then replyC u rq 0x0182 .refused .wakeCompute []
  else replyC (phraseWaits u p r) rq 0x0182 .ok .none (shake256 64 r)

section
variable {s : State} {rq : Req} {p h len off : Nat} {x : Ctx} (hctx : liveCtx s rq.ctx = some x)
include hctx

theorem execWakePhraseLoad_foreign (howner : s.aud.owner ≠ some rq.ctx) :
    execWakePhraseLoad rq p h len off s = .next (replyC s rq 0x0182 .refused .audOwner []) := by
  rw [execWakePhraseLoad, onCtx_some hctx]
  exact congrArg _ (if_pos howner)

variable (howner : s.aud.owner = some rq.ctx) (hp : p < 4)
include howner hp

theorem execWakePhraseLoad_empties : execWakePhraseLoad rq p h 0 off s =
    .next (replyC (phraseWaits s p []) rq 0x0182 .ok .none (shake256 64 [])) := by
  rw [execWakePhraseLoad, onCtx_some hctx]
  simp only [if_neg (not_not.mpr howner), if_neg (Nat.not_le.mpr hp)]
  rfl

variable (hlen : 0 < len)
include hlen

theorem execWakePhraseLoad_noObject (hobj : tget? x.objs h = none) :
    execWakePhraseLoad rq p h len off s = .next (replyC s rq 0x0182 .refused .objHandle []) := by
  rw [execWakePhraseLoad, onCtx_some hctx]
  simp only [if_neg (not_not.mpr howner), if_neg (Nat.not_le.mpr hp), if_neg hlen.ne', hobj]

variable {o : Obj} (hobj : tget? x.objs h = some o)
include hobj

theorem execWakePhraseLoad_outside (hrange : storedBytes o < off + len) :
    execWakePhraseLoad rq p h len off s = .next (replyC s rq 0x0182 .fault .objRange []) := by
  rw [execWakePhraseLoad, onCtx_some hctx]
  simp only [if_neg (not_not.mpr howner), if_neg (Nat.not_le.mpr hp), if_neg hlen.ne', hobj, if_pos hrange]

variable (hrange : off + len ≤ storedBytes o)
include hrange

/-- A copy that cannot be written back fails the load. -/
theorem execWakePhraseLoad_unsaved {v t : State} {f : Reason} (hsave : saveUpper s rq.ctx h x o = (v, some f))
    (ht : t = replyC v rq 0x0182 .fault f []) (hready : Ready s t rq.ctx) :
    execWakePhraseLoad rq p h len off s = .next t := by
  subst ht
  rw [execWakePhraseLoad, onCtx_some hctx]
  simp only [if_neg (not_not.mpr howner), if_neg (Nat.not_le.mpr hp), if_neg hlen.ne', hobj,
    if_neg (Nat.not_lt.mpr hrange), hsave]
  rw [onFirmware_ready hready]

/-- A record that is read is judged, and the answer leaves at once when the firmware's work can begin. -/
theorem execWakePhraseLoad_judged {v u t : State} {r : Bytes} (hsave : saveUpper s rq.ctx h x o = (v, none))
    (hu : u = modCtx v rq.ctx (fun y => { y with objs := tset y.objs h { o with dirty := false } }))
    (hread : homeRead u x o off len = .ok r) (ht : t = phraseJudged s u rq p r) (hready : Ready s t rq.ctx) :
    execWakePhraseLoad rq p h len off s = .next t := by
  subst ht hu
  rw [execWakePhraseLoad, onCtx_some hctx]
  simp only [if_neg (not_not.mpr howner), if_neg (Nat.not_le.mpr hp), if_neg hlen.ne', hobj,
    if_neg (Nat.not_lt.mpr hrange), hsave, hread]
  exact congrArg _ (onFirmware_ready hready _)

end

section
variable {s u : State} {rq : Req} {p : Nat} {r : Bytes}

theorem phraseJudged_format (hformat : wakeFormatOk r = false) :
    phraseJudged s u rq p r = replyC u rq 0x0182 .refused .wakeFormat [] := by
  simp [phraseJudged, hformat]

theorem phraseJudged_compute (hformat : wakeFormatOk r = true) (hbudget : 786432 < macField r + otherMacs s p) :
    phraseJudged s u rq p r = replyC u rq 0x0182 .refused .wakeCompute [] := by
  simp [phraseJudged, hformat, hbudget]

theorem phraseJudged_ok (hformat : wakeFormatOk r = true) (hbudget : macField r + otherMacs s p ≤ 786432) :
    phraseJudged s u rq p r = replyC (phraseWaits u p r) rq 0x0182 .ok .none (shake256 64 r) := by
  simp [phraseJudged, hformat, Nat.not_lt.mpr hbudget]

end

/-! ## The statement -/

/-- Settles O34: BIND, CASCADE and WAKE_PHRASE_LOAD, each by its checks in their order. -/
theorem audioOwnerCommands : Obligations.AudioOwnerCommands := by
  refine ⟨fun rq owner s hlive hctx => ⟨fun c hport howner hne => ?_, fun hallowed => ?_⟩,
    fun rq m mask space win linger k s hlive hctx => ⟨fun hm => ?_, fun hpos hle => ?_⟩,
    fun rq p h len off x s hlive hctx => ⟨fun howner => ?_, fun howner hp => ?_⟩⟩
  · exact answered_replyC (execAudioCfgBind_foreign hctx hport howner hne) hlive
  · have hexec := execAudioCfgBind_allowed (owner := owner) hctx hallowed
    refine ⟨fun hclear => ?_, fun hnamed hnone => ?_, fun hnamed hsome => ⟨boundVoted s owner, ?_, boundVoted_owner s owner,
      fun howner => boundVoted_paths howner owner, fun howner p hp hon => boundVoted_next howner hp hon,
      fun hquiet => (boundVoted_unvoted hquiet owner).trans ?_⟩⟩
    · rw [if_pos hclear] at hexec
      exact answered_replyC hexec hlive
    · rw [if_neg hnamed, if_pos (Option.isNone_iff_eq_none.mpr hnone)] at hexec
      exact answered_replyC hexec hlive
    · rw [if_neg hnamed, if_neg (by simpa using Option.isSome_iff_ne_none.mp hsome)] at hexec
      exact answered_replyC hexec (boundVoted_live hlive owner)
    · rw [boundVoted_unvoted hquiet]
      exact bound_frame s owner
  · exact answered_replyC (execCascade_noEntry hctx hm) hlive
  · have hm : ¬ (m = 0 ∨ 3 < m) := by omega
    refine ⟨?_, fun hmask => answered_replyC (execCascade_noSlot hctx hm hmask) hlive, ?_, ?_⟩
    · rintro rfl
      exact answered_replyC (execCascade_clears (space := space) (win := win) (linger := linger) hctx hm) hlive
    · rintro hk rfl hmissing
      have hexec := execCascade_slot (space := space) (win := win) (linger := linger) hctx hm hk
      rw [if_pos (by simpa using hmissing)] at hexec
      exact answered_replyC hexec hlive
    · rintro hk rfl himage hentry
      have hexec := execCascade_slot (space := space) (win := win) (linger := linger) hctx hm hk
      rw [if_neg (by simpa [Option.isSome_iff_ne_none] using And.intro himage hentry)] at hexec
      refine ⟨fun hlong => ?_, fun hshort => ?_⟩
      · rw [if_pos hlong] at hexec
        exact answered_replyC hexec hlive
      · rw [if_neg (Nat.not_lt.mpr hshort)] at hexec
        exact ⟨_, answered_replyC hexec hlive, rfl, rfl, rfl, rfl, rfl⟩
  · exact answered_replyC (execWakePhraseLoad_foreign hctx howner) hlive
  · refine ⟨?_, fun hlen hobj => answered_replyC (execWakePhraseLoad_noObject hctx howner hp hlen hobj) hlive,
      fun o hlen hobj hrange => answered_replyC (execWakePhraseLoad_outside hctx howner hp hlen hobj hrange) hlive,
      fun o v f t hlen hobj hrange hsave ht hready =>
        execWakePhraseLoad_unsaved hctx howner hp hlen hobj hrange hsave ht hready,
      fun o v u r t hlen hobj hrange hsave hu hread hready => ?_⟩
    · rintro rfl
      exact answered_replyC (execWakePhraseLoad_empties hctx howner hp) hlive
    · have hexec (ht : t = phraseJudged s u rq p r) : exec (.wakePhraseLoad rq p h len off) s = .next t :=
        execWakePhraseLoad_judged hctx howner hp hlen hobj hrange hsave hu hread ht hready
      exact ⟨fun hformat ht => hexec (ht.trans (phraseJudged_format hformat).symm),
        fun hformat hbudget ht => hexec (ht.trans (phraseJudged_compute hformat hbudget).symm),
        fun hformat hbudget ht => hexec (ht.trans (phraseJudged_ok hformat hbudget).symm)⟩

end Sys2Proof.Machine

/-!
PROOFS. The end of a spotter frame (R454 to R463, R466, R475) and the microphone mute (R474 to R476).
-/

namespace Sys2Proof.Machine

/-! ## The rows of a frame (R444 to R446, R475) -/

/-- What zeroes a row of a frame, and what the row then says. -/
structure RowSpec (s : State) (r : AudRow) : Prop where
  eight : r.samples.length = 8
  disabled : ∀ ch < 8, chanOn s ch = false → r.samples.getD ch 0 = 0
  zeroed : r.muted = true ∨ r.settling = true ∨ pageOn s 0x0021_0000 = false → r.samples = List.replicate 8 0
  muted : s.aud.muted = true → r.muted = true
  settled : s.aud.settling = true → r.samples = List.replicate 8 0

theorem zeroRow_spec {s : State} {muted : Bool} (hmuted : s.aud.muted = true → muted = true) (settling : Bool) :
    RowSpec s (zeroRow muted settling) where
  eight := rfl
  disabled ch hch _ := by simp [zeroRow, hch, -List.reduceReplicate]
  zeroed _ := rfl
  muted := hmuted
  settled _ := rfl

/-- The sample of a channel in row `i` of a frame's `n`: of a channel without a filter it is zero. -/
def sampleOf (s : State) (p : DecimPath) (n i : Nat) (outs : Tab (List Int)) (ch : Nat) : Nat :=
  ((tget? outs ch).map fun l =>
    ofSigned p.width (gained p (live s (0x0021_0020 + 4 * ch) % 2 ^ 16) (l.getD (i + l.length - n) 0))).getD 0

/-- A row of a frame is one of zeros, or the channels' samples, which no settling time zeroes. -/
theorem mem_frameRows {s : State} {p : DecimPath} {n settle : Nat} {outs : Tab (List Int)} {r : AudRow}
    (hr : r ∈ frameRows s p n settle outs) : (∃ muted settling, r = zeroRow muted settling) ∨
      s.aud.settling = false ∧ ∃ i, r = { samples := (List.range 8).map (sampleOf s p n i outs) } := by
  obtain ⟨i, -, rfl⟩ := List.mem_map.mp hr
  split
  · exact .inl ⟨_, _, rfl⟩
  · split
    · exact .inl ⟨_, _, rfl⟩
    · next hlate =>
      refine .inr ⟨by simpa using fun h => hlate (.inr h), i, ?_⟩
      congr 1
      refine List.map_congr_left fun ch _ => ?_
      unfold sampleOf
      cases tget? outs ch <;> rfl

/-- A channel that is not enabled has no filter. -/
theorem tget?_runDecims_off {s : State} {ch : Nat} (hoff : chanOn s ch = false) (p : DecimPath) (t : Tab Decim)
    (pdm : List Pdm) : tget? (runDecims s p t pdm).2 ch = none := by
  refine List.lookup_eq_none_iff.mpr fun e he => ?_
  obtain ⟨d, hd, rfl⟩ := List.mem_map.mp he
  obtain ⟨c, hc, rfl⟩ := List.mem_map.mp hd
  have hon : chanOn s c = true := (List.mem_filter.mp hc).2
  have hne : ch ≠ c := by
    rintro rfl
    simp [hoff] at hon
  simpa using hne

theorem lpFrame_deaf {s : State} (hdeaf : micsLive s = false) (l : List Pdm) :
    lpFrame s l = ({ s with aud := { s.aud with lpDecim := [] } }, List.replicate 160 (zeroRow s.aud.muted false)) := by
  rw [lpFrame, hdeaf]
  rfl

theorem lpFrame_rows {s : State} (hlive : micsLive s = true) (l : List Pdm) : (lpFrame s l).2 =
    frameRows s (lpPath (pdmDiv s)) 160 s.aud.lpSettle (runDecims s (lpPath (pdmDiv s)) s.aud.lpDecim l).2 := by
  rw [lpFrame, hlive]
  rfl

theorem lpFrame_length (s : State) (l : List Pdm) : (lpFrame s l).2.length = 160 := by
  cases hlive : micsLive s with
  | false => rw [lpFrame_deaf hlive]; rfl
  | true => rw [lpFrame_rows hlive, frameRows, List.length_map, List.length_range]

theorem lpFrame_frame (s : State) (l : List Pdm) : ∃ decim settle, (lpFrame s l).1 =
    { s with aud := { s.aud with lpDecim := decim, lpSettle := settle } } := by
  unfold lpFrame
  split <;> exact ⟨_, _, rfl⟩

theorem hqFrame_frame (s : State) (l : List Pdm) : ∃ decim settle, (hqFrame s l).1 =
    { s with aud := { s.aud with hqDecim := decim, hqSettle := settle } } := by
  unfold hqFrame
  split
  · exact ⟨_, _, rfl⟩
  · split <;> exact ⟨_, _, rfl⟩

/-- The rows of the low-power path say what zeroed them. -/
theorem lpFrame_spec {s : State} {l : List Pdm} {r : AudRow} (hr : r ∈ (lpFrame s l).2) : RowSpec s r := by
  cases hlive : micsLive s with
  | false =>
    rw [lpFrame_deaf hlive] at hr
    rw [List.eq_of_mem_replicate hr]
    exact zeroRow_spec id false
  | true =>
    obtain ⟨hpage, hmuted⟩ : pageOn s 0x0021_0000 = true ∧ s.aud.muted = false := by simpa [micsLive] using hlive
    rw [lpFrame_rows hlive] at hr
    obtain ⟨muted, settling, rfl⟩ | ⟨hsettled, i, rfl⟩ := mem_frameRows hr
    · exact zeroRow_spec (by simp [hmuted]) settling
    · refine ⟨by simp, fun ch hch hoff => ?_, by simp [hpage], by simp [hmuted], by simp [hsettled]⟩
      rw [List.getD_eq_getElem?_getD, List.getElem?_map, List.getElem?_range hch]
      exact congrArg (fun o => (Option.map _ o).getD 0) (tget?_runDecims_off hoff ..)

/-! ## Waiting records enter their slots (R461) -/

/-- A record that waits replaces its slot, and empty bytes empty it. -/
def loadTaken (t : Tab Phrase) (e : Nat × Bytes) : Tab Phrase :=
  if e.2.isEmpty then terase t e.1 else tset t e.1 { record := e.2 }

theorem tget?_loadTaken_self (t : Tab Phrase) (p : Nat) (b : Bytes) :
    tget? (loadTaken t (p, b)) p = if b = [] then none else some { record := b } := by
  cases b with
  | nil => exact tget?_terase_self t p
  | cons a r => exact tget?_tset_self ..

theorem tget?_loadTaken_ne (t : Tab Phrase) (e : Nat × Bytes) {p : Nat} (hp : p ≠ e.1) :
    tget? (loadTaken t e) p = tget? t p := by
  unfold loadTaken
  split
  · exact tget?_terase_ne t e.1 p hp
  · exact tget?_tset_ne t e.1 p _ hp

/-- A slot for which no record waits stays. -/
theorem tget?_loadsTaken_none {loads : Tab Bytes} {p : Nat} (hnone : tget? loads p = none) (t : Tab Phrase) :
    tget? (loads.foldl loadTaken t) p = tget? t p := by
  induction loads generalizing t with
  | nil => rfl
  | cons e r ih =>
    have hkeys : ∀ q ∈ e :: r, p ≠ q.1 := by simpa [tget?, List.lookup_eq_none_iff] using hnone
    have hrest : tget? r p = none :=
      List.lookup_eq_none_iff.mpr fun q hq => by simpa using hkeys q (List.mem_cons_of_mem e hq)
    rw [List.foldl_cons, ih hrest, tget?_loadTaken_ne t e (hkeys e List.mem_cons_self)]

/-- A slot for which one record waits takes it. -/
theorem tget?_loadsTaken_some {loads : Tab Bytes} (hkeys : (loads.map Prod.fst).Nodup) {p : Nat} {b : Bytes}
    (hload : tget? loads p = some b) (t : Tab Phrase) :
    tget? (loads.foldl loadTaken t) p = if b = [] then none else some { record := b } := by
  induction loads generalizing t with
  | nil => cases hload
  | cons e r ih =>
    obtain ⟨q, c⟩ := e
    rw [List.map_cons, List.nodup_cons] at hkeys
    obtain ⟨hfresh, hrest⟩ := hkeys
    rw [List.foldl_cons]
    by_cases hpq : p = q
    · subst hpq
      obtain rfl : c = b := by simpa [tget?] using hload
      have hnone : tget? r p = none := by
        refine Option.not_isSome_iff_eq_none.mp fun hsome => ?_
        obtain ⟨v, hv⟩ := Option.isSome_iff_exists.mp hsome
        exact hfresh (List.mem_map_of_mem (f := Prod.fst) (a := (p, v)) (mem_of_tget? hv))
      rw [tget?_loadsTaken_none hnone, tget?_loadTaken_self]
    · have hne : (p == q) = false := by simpa using hpq
      exact ih hrest (by simpa [tget?, List.lookup_cons, hne] using hload) _

/-! ## The frame end -/

/-- The block after a frame's rows and waiting records have been taken, before the phrases are heard. -/
def frameHeard (s : State) (l : List Pdm) : State :=
  takeLoads (ringPush { (hqFrame (lpFrame s l).1 l).1 with
    aud := { (hqFrame (lpFrame s l).1 l).1.aud with stopped := s.aud.muted } } (lpFrame s l).2 (hqFrame (lpFrame s l).1 l).2)

/-- The rows of the ring when a frame's have joined it. -/
def ringTaken (ring rows : List AudRow) : List AudRow := (ring ++ rows).drop ((ring ++ rows).length - 32000)

theorem frameHeard_frame (s : State) (l : List Pdm) : ∃ hqRing lpDecim hqDecim lpSettle hqSettle,
    frameHeard s l = { s with aud := { s.aud with
      ring := ringTaken s.aud.ring (lpFrame s l).2, hqRing := hqRing, index := s.aud.index + 160, loads := [],
      phrases := s.aud.loads.foldl loadTaken s.aud.phrases, lpDecim := lpDecim, hqDecim := hqDecim, lpSettle := lpSettle,
      hqSettle := hqSettle, stopped := s.aud.muted } } := by
  obtain ⟨_, _, hlp⟩ := lpFrame_frame s l
  obtain ⟨_, _, hhq⟩ := hqFrame_frame (lpFrame s l).1 l
  rw [frameHeard, hhq, hlp]
  simp only [ringPush, takeLoads, lpFrame_length]
  exact ⟨_, _, _, _, _, rfl⟩

theorem frameHeard_ring (s : State) (l : List Pdm) : (frameHeard s l).aud.ring = ringTaken s.aud.ring (lpFrame s l).2 := by
  obtain ⟨_, _, _, _, _, hframe⟩ := frameHeard_frame s l
  rw [hframe]

theorem frameHeard_phrases (s : State) (l : List Pdm) :
    (frameHeard s l).aud.phrases = s.aud.loads.foldl loadTaken s.aud.phrases := by
  obtain ⟨_, _, _, _, _, hframe⟩ := frameHeard_frame s l
  rw [hframe]

theorem ringTaken_length {ring rows : List AudRow} (hrows : rows.length = 160) :
    (ringTaken ring rows).length = min 32000 (ring.length + 160) := by
  rw [ringTaken, List.length_drop, List.length_append, hrows]
  omega

/-- The last rows of the ring are those of the frame. -/
theorem ringTaken_last {ring rows : List AudRow} (hrows : rows.length = 160) :
    (ringTaken ring rows).drop ((ringTaken ring rows).length - 160) = rows := by
  rw [ringTaken_length hrows, ringTaken, List.drop_drop, List.length_append, hrows]
  exact List.drop_left' (by omega)

/-- The block after each phrase has taken its frame. -/
def phrasesHeard (s : State) : State := { s with aud := { s.aud with
  phrases := s.aud.phrases.map (fun e => (e.1, (phraseFrame e.2 (featureFrame s)).1)) } }

/-- The phrases for which a frame brings a verdict. -/
def phrasesHit (s : State) : List Nat :=
  (s.aud.phrases.filter (fun e => (phraseFrame e.2 (featureFrame s)).2)).map Prod.fst

theorem execSpotterFrameEnd_off {s : State} (hoff : s.pwr.mode = .off) (l : List Pdm) :
    execSpotterFrameEnd l s = .next s := congrArg _ (if_pos hoff)

section
variable {s : State} (hon : s.pwr.mode ≠ .off) (l : List Pdm)
include hon

theorem execSpotterFrameEnd_quiet (hpage : pageOn s 0x0021_1000 = false) :
    execSpotterFrameEnd l s = .next (frameHeard s l) := by
  refine congrArg _ ((if_neg hon).trans ?_)
  exact if_pos (by rw [hpage]; rfl)

theorem execSpotterFrameEnd_hears (hpage : pageOn s 0x0021_1000 = true) : execSpotterFrameEnd l s =
    .next ((phrasesHit (frameHeard s l)).foldl verdict (holdUpdate (phrasesHeard (frameHeard s l)))) := by
  refine congrArg _ ((if_neg hon).trans ((if_neg (by simp [hpage])).trans ?_))
  simp only [phrasesHit, phrasesHeard, List.map_map, List.filter_map, List.foldl_map, Function.comp_def]
  rfl

end

/-! ## A phrase takes a frame (R459, R460, R463) -/

theorem toSigned_ofSigned {i : Int} (hlo : -32768 ≤ i) (hhi : i < 32768) : toSigned 16 (ofSigned 16 i) = i := by
  obtain hneg | hpos := lt_or_ge i 0
  · have hpattern : ofSigned 16 i = (i + 65536).toNat := by simp only [ofSigned]; omega
    rw [toSigned, hpattern]
    omega
  · have hpattern : ofSigned 16 i = i.toNat := by simp only [ofSigned]; omega
    rw [toSigned, hpattern]
    omega

/-- S moves by a quarter of its distance from the new score, rounded down. -/
def nextScore (p : Phrase) (v : Int) : Int := p.score + (v - p.score) / 4

/-- The consecutive frames at or above TRIGGER. -/
def nextCount (p : Phrase) (v : Int) : Nat := if triggerOf p.record ≤ nextScore p v then p.count + 1 else 0

/-- A frame brings a verdict. -/
def hits (p : Phrase) (v : Int) : Bool := decide (field p.record 8 1 ≤ nextCount p v) && p.refract == 0

theorem phraseFrame_scored {p : Phrase} {f : List Int} {v : Int}
    (hrun : (runLayers p.record (layersOf p.record) f p.inputs p.seen).2.2 = some v) (hlo : -32768 ≤ p.score)
    (hhi : p.score < 32768) (hvlo : -128 ≤ v) (hvhi : v < 128) : ∃ inputs seen, phraseFrame p f =
      ({ p with
          inputs := inputs, seen := seen, score := nextScore p v, count := nextCount p v,
          refract := if hits p v then field p.record 0xA 2 else p.refract - 1 }, hits p v) := by
  have hscore : toSigned 16 (ofSigned 16 (p.score + (v - p.score).fdiv 4)) = nextScore p v := by
    rw [Int.fdiv_eq_ediv_of_nonneg _ (by decide), toSigned_ofSigned (by omega) (by omega), nextScore]
  rcases hlayers : runLayers p.record (layersOf p.record) f p.inputs p.seen with ⟨inputs, seen, score⟩
  rw [hlayers] at hrun
  obtain rfl : score = some v := hrun
  refine ⟨inputs, seen, ?_⟩
  simp only [phraseFrame, hlayers, hscore]
  rfl

/-! ## Hold and mute (R462, R474 to R476) -/

/-- The block after MIC_MUTE_N has fallen: HOLD_MAX bars a hold no longer once every S is below HOLD. -/
def mutedBlock (s : State) : State :=
  { muteAudio s with aud := { (muteAudio s).aud with barred := s.aud.barred && (holder (muteAudio s)).isSome } }

theorem execMicMuteOn_mutes {s : State} (hopen : s.aud.muted = false) (hon : s.pwr.mode ≠ .off) :
    execMicMuteOn s = .next (emit (mutedBlock s) none .ok .micMuteOn []) := by
  simp only [execMicMuteOn, hopen, Bool.false_eq_true, if_false, if_neg hon]
  rfl

theorem execMicMuteOn_off {s : State} (hopen : s.aud.muted = false) (hoff : s.pwr.mode = .off) :
    execMicMuteOn s = .next { s with aud := { s.aud with muted := true } } := by
  simp only [execMicMuteOn, hopen, Bool.false_eq_true, if_false, if_pos hoff]

theorem execMicMuteOff_off {s : State} (hmuted : s.aud.muted = true) (hoff : s.pwr.mode = .off) :
    execMicMuteOff s = .next { s with aud := { s.aud with muted := false } } := by
  simp only [execMicMuteOff, hmuted, Bool.not_true, Bool.false_eq_true, if_false, if_pos hoff]

/-- A muted device keeps the PDM clocks low (R474). -/
theorem pinPdmClk_muted {s : State} (hmuted : s.aud.muted = true) (k : Nat) : pinPdmClk s k = 0 := by
  simp [pinPdmClk, micsLive, hmuted]

/-- Of the writes that wait, those of audio blocks are dropped. -/
theorem mem_waitHdrs_mutedBlock {s : State} {h : WinHdr × WriteFrom} (hwait : h ∈ (mutedBlock s).waitHdrs) :
    h ∈ s.waitHdrs ∧ ∀ p n, h.2 ≠ .audio p n := by
  obtain ⟨hmem, hother⟩ := List.mem_filter.mp hwait
  refine ⟨hmem, fun p n haudio => ?_⟩
  simp [haudio] at hother

/-- Every row of both rings is zeros and says that it was muted. -/
theorem mem_rings_mutedBlock {s : State} {r : AudRow} (hr : r ∈ (mutedBlock s).aud.ring ++ (mutedBlock s).aud.hqRing) :
    r = zeroRow true false := by
  rcases List.mem_append.mp hr with h | h <;> exact (List.mem_map.mp h).elim fun _ hq => hq.2.symm

theorem mutedBlock_ring_length (s : State) : (mutedBlock s).aud.ring.length = s.aud.ring.length := List.length_map _

theorem mem_phrases_mutedBlock {s : State} {e : Nat × Phrase} (he : e ∈ (mutedBlock s).aud.phrases) :
    e.2.score = 0 ∧ e.2.inputs = [] := by
  obtain ⟨q, -, rfl⟩ := List.mem_map.mp he
  exact ⟨rfl, rfl⟩

theorem mutedBlock_phrases (s : State) : (mutedBlock s).aud.phrases.map Prod.fst = s.aud.phrases.map Prod.fst := by
  simp [mutedBlock, muteAudio, Function.comp_def]

theorem execMicMuteOff_unmutes {s : State} (hmuted : s.aud.muted = true) (hon : s.pwr.mode ≠ .off) :
    execMicMuteOff s = .next (emit { s with aud := { s.aud with
      muted := false, settling := true, lpSettle := 64, hqSettle := 192, lpDecim := [], hqDecim := [] } } none .ok
      .micMuteOff []) := by
  simp only [execMicMuteOff, hmuted, Bool.not_true, Bool.false_eq_true, if_false, if_neg hon]
  rfl

end Sys2Proof.Machine

/-!
PROOFS. Audio blocks (R450 to R453) and the delivery of the pre-roll (R466 to R468).
-/

namespace Sys2Proof.Machine

/-! ## A block is due (R450 to R453) -/

theorem execAudioBlockEnd_off {path : Nat} {s : State} (hoff : 2 ≤ path ∨ pathOn s path = false ∨ s.pwr.mode = .off)
    (time : Nat) : execAudioBlockEnd path time s = .next s :=
  congrArg _ (if_pos (by simpa using hoff))

section
variable {path : Nat} {s : State} (hpath : path < 2) (hon : pathOn s path = true) (hmode : s.pwr.mode ≠ .off)
  {ring : List AudRow} {last : Nat} (hring : pathRing s path = (ring, last)) (time : Nat)
include hpath hon hmode hring

/-- What a block that is due does: it waits for its samples, counts alone while the chip sleeps, waits for the pre-roll, or is
written. -/
theorem execAudioBlockEnd_on {n : Nat} (hn : blockSamples s path = n) {p : AudPath}
    (hp : tget s.aud.paths {} path = p) : execAudioBlockEnd path time s = .next (
      if last < p.next + n then s
      else if 2 ≤ chipState s then
        { s with aud := { s.aud with paths := tset s.aud.paths path { p with next := p.next + n, gap := true } } }
      else if path = 0 ∧ s.aud.readPoint.isSome then s
      else writeBlock s path p.next ((ring.drop (p.next + ring.length - last)).take n) false time) := by
  have hsleeps : (!audAwake s) = true ↔ 2 ≤ chipState s := by simp [audAwake, Nat.lt_iff_add_one_le]
  subst hn hp
  refine congrArg _ ((if_neg (by simp [hpath, hon, hmode])).trans ?_)
  simp only [hring, hsleeps]

end

/-! ## The writes of a block (R449, R451, R452) -/

/-- The header of a window write of the audio block, to a path's destination. -/
def audioHdr (c d off : Nat) (b : Bytes) : WinHdr :=
  { space := bits d 29 26, ctx := c, slot := bits d 17 16, win := bits d 15 8, epoch := d % 256, off := off, data := b,
    writer := .audio }

/-- The destination `d` of the owner's blocks is an open window of its own, in a Deck that is up, and no write waits. -/
structure DestOpen (s : State) (c d k : Nat) : Prop where
  key : keyOf s c (bits d 17 16) (bits d 29 26) (bits d 15 8) = some k
  opened : (winAt s k).state = .opened
  epoch : (winAt s k).epoch = d % 256
  writer : bit (winAt s k).writers 10 = true
  deck : bits d 29 26 < 8
  up : bit s.pwr.up (bits d 29 26) = true
  quiet : s.waitHdrs = []

theorem DestOpen.kept {s : State} {c d k : Nat} (hdest : DestOpen s c d k) (h : WinHdr) (src : WriteFrom) :
    DestOpen (inProgress s h k src) c d k :=
  ⟨hdest.key, hdest.opened, hdest.epoch, hdest.writer, hdest.deck, hdest.up, hdest.quiet⟩

/-- A write that the window holds and its home has room for is on its way at once. -/
theorem DestOpen.offer {s : State} {c d k off : Nat} {b : Bytes} (hdest : DestOpen s c d k) (hsome : b ≠ [])
    (hlen : b.length ≤ 4096) (hfits : off + b.length ≤ ((winAt s k).limit - (winAt s k).base) * 256)
    (hroom : inFlight s (gateOf (k / 256) (winAt s k).base) < 4) (src : WriteFrom) :
    offerWrite s (audioHdr c d off b) src = (inProgress s (audioHdr c d off b) k src, .accepted) := by
  have hready : homeReady s (audioHdr c d off b) = true := by
    refine (if_neg (Nat.ne_of_lt hdest.deck)).trans ?_
    simp [audioHdr, hdest.up]
  have hbehind : behindEarlier s (audioHdr c d off b) = false := by rw [behindEarlier, hdest.quiet]; rfl
  have hfate := writeFate_in_range (h := audioHdr c d off b) hdest.writer hdest.opened hdest.epoch rfl hsome hlen hfits
  rw [if_neg (Nat.not_le.mpr hroom)] at hfate
  have hoffer := offerWrite_eq (h := audioHdr c d off b) hdest.key src hready hbehind
  rw [hfate] at hoffer
  exact hoffer

theorem length_filter_tset_le {α : Type} (f : Nat × α → Bool) (t : Tab α) (k : Nat) (v : α) :
    ((tset t k v).filter f).length ≤ (t.filter f).length + 1 := by
  have hone : ∀ (e : Nat × α) (l : Tab α), ((e :: l).filter f).length ≤ (l.filter f).length + 1 := fun e l => by
    rw [List.filter_cons]
    split <;> simp
  have hmore : ∀ (e : Nat × α) (l : Tab α), (l.filter f).length ≤ ((e :: l).filter f).length := fun e l =>
    (List.Sublist.filter f (List.sublist_cons_self e l)).length_le
  induction t with
  | nil => exact hone ..
  | cons e r ih =>
    unfold tset
    split
    · exact hone ..
    · split
      · exact (hone ..).trans (Nat.succ_le_succ (hmore ..))
      · rw [List.filter_cons, List.filter_cons]
        split
        · exact Nat.succ_le_succ ih
        · exact ih

theorem inFlight_inProgress_le (s : State) (h : WinHdr) (k : Nat) (src : WriteFrom) (gate : Nat) :
    inFlight (inProgress s h k src) gate ≤ inFlight s gate + 1 := length_filter_tset_le ..

/-- Sample bytes that fit in one write are written by one. -/
theorem audChunks_one {b : Bytes} (hsome : 0 < b.length) (hlen : b.length ≤ 4096) (base : Nat) :
    audChunks base b = [(base, b)] := by
  have hone : ceilDiv b.length 4096 = 1 := by rw [ceilDiv]; omega
  have hwhole : slice b 0 4096 = b := List.take_of_length_le hlen
  rw [audChunks, hone]
  exact congrArg (fun x => [(base, x)]) hwhole

/-- A path's writer after a block of `n` samples per channel. -/
def AudPath.written (p : AudPath) (first n : Nat) : AudPath := { block := p.block + 1, next := first + n, gap := false }

/-- The audio block after a path's writer has counted such a block. -/
def pathWritten (s : State) (path first n : Nat) : State :=
  { s with aud := { s.aud with paths := tset s.aud.paths path ((tget s.aud.paths {} path).written first n) } }

/-- Where a path's next block begins in its window: BASE + (k mod BUFS) × STRIDE. -/
def audBase (s : State) (path : Nat) : Nat :=
  live s (pathRegs path + 4) + (tget s.aud.paths {} path).block % bits (live s (pathRegs path + 8)) 23 16 *
    blockStride path (chansOn s).length (live s (pathRegs path + 8) % 256)

/-- The header of a path's next block. -/
def blockHead (s : State) (path first : Nat) (rows : List AudRow) (pre : Bool) (time : Nat) : Bytes :=
  audHeader s path first rows (tget s.aud.paths {} path).gap pre time

/-- The block's writes, in their order: its samples and then its header. -/
theorem writeBlock_owned {s : State} {c : Nat} (howner : s.aud.owner = some c) (path first : Nat) (rows : List AudRow)
    (pre : Bool) (time : Nat) : writeBlock s path first rows pre time =
      audWrites path (tget s.aud.paths {} path).block (audioHdr c (live s (pathRegs path)))
        (audChunks (audBase s path + 32) (rows.flatMap (rowBytes s path)) ++
          [(audBase s path, blockHead s path first rows pre time)]) (pathWritten s path first rows.length) := by
  unfold writeBlock
  split
  · next hnone => cases howner.symm.trans hnone
  · next d hsome =>
    obtain rfl : c = d := Option.some.inj (howner.symm.trans hsome)
    rfl

/-- Two writes that are taken at once are both on their way. -/
theorem audWrites_pair {path n : Nat} {hdr : Nat → Bytes → WinHdr} {s t u : State} {a b : Nat × Bytes}
    (hfirst : offerWrite s (hdr a.1 a.2) (.audio path n) = (t, .accepted))
    (hsecond : offerWrite t (hdr b.1 b.2) (.audio path n) = (u, .accepted)) : audWrites path n hdr [a, b] s = u := by
  simp only [audWrites, hfirst, hsecond]

/-! ## The header of a block (R452) -/

/-- The first word of a block's header. -/
def blockWord (s : State) (path : Nat) (rows : List AudRow) (gap preroll : Bool) : Nat :=
  2 ^ 24 + bits (live s 0x0021_0010) 23 16 * 2 ^ 16 + path * 2 ^ 5 + ofBool gap * 2 ^ 4 +
    ofBool (rows.any AudRow.settling) * 2 ^ 3 + ofBool (rows.any AudRow.muted) * 2 ^ 2 + ofBool preroll * 2

theorem audHeader_eq (s : State) (path first : Nat) (rows : List AudRow) (gap preroll : Bool) (time : Nat) :
    audHeader s path first rows gap preroll time =
      packed [(4, blockWord s path rows gap preroll), (4, rows.length), (8, first % 2 ^ 40), (8, time), (8, 0)] := by
  simp only [packed, List.flatMap_cons, List.flatMap_nil, List.append_nil, leBytes_zero, audHeader, blockWord,
    List.append_assoc]

theorem ofBool_le (b : Bool) : ofBool b ≤ 1 := by cases b <;> decide

/-- A bit of a number that is read off by division. -/
theorem bit_eq_of_div {n k : Nat} {b : Bool} (h : n / 2 ^ k % 2 = ofBool b) : bit n k = b := by
  rw [bit, Nat.testBit_eq_decide_div_mod_eq, h]
  cases b <;> rfl

section
variable {path : Nat} (hpath : path < 2) (s : State) (rows : List AudRow) (gap preroll : Bool)
include hpath

/-- The word with its parts in view: channels below 2^8 and flags of one bit. -/
theorem blockWord_parts : ∃ chans, chans < 2 ^ 8 ∧ blockWord s path rows gap preroll =
    2 ^ 24 + chans * 2 ^ 16 + path * 2 ^ 5 + ofBool gap * 2 ^ 4 + ofBool (rows.any AudRow.settling) * 2 ^ 3 +
      ofBool (rows.any AudRow.muted) * 2 ^ 2 + ofBool preroll * 2 ∧ blockWord s path rows gap preroll < 2 ^ 25 := by
  have hchans : bits (live s 0x0021_0010) 23 16 < 2 ^ 8 := Nat.mod_lt _ (by decide)
  have hgap := ofBool_le gap
  have hsettling := ofBool_le (rows.any AudRow.settling)
  have hmuted := ofBool_le (rows.any AudRow.muted)
  have hpre := ofBool_le preroll
  refine ⟨_, hchans, rfl, ?_⟩
  rw [blockWord]
  omega

theorem blockWord_flags : bit (blockWord s path rows gap preroll) 4 = gap ∧
    bit (blockWord s path rows gap preroll) 3 = rows.any AudRow.settling ∧
    bit (blockWord s path rows gap preroll) 2 = rows.any AudRow.muted ∧
    bit (blockWord s path rows gap preroll) 1 = preroll := by
  obtain ⟨chans, -, hword, -⟩ := blockWord_parts hpath s rows gap preroll
  have hgap := ofBool_le gap
  have hsettling := ofBool_le (rows.any AudRow.settling)
  have hmuted := ofBool_le (rows.any AudRow.muted)
  have hpre := ofBool_le preroll
  rw [hword]
  refine ⟨bit_eq_of_div ?_, bit_eq_of_div ?_, bit_eq_of_div ?_, bit_eq_of_div ?_⟩ <;> omega

end

section
variable (s : State) (path first : Nat) (rows : List AudRow) (gap preroll : Bool) (time : Nat)

theorem audHeader_length : (audHeader s path first rows gap preroll time).length = 32 := by
  rw [audHeader_eq, packed_length]
  rfl

theorem audHeader_rows : field (audHeader s path first rows gap preroll time) 4 4 = rows.length % 2 ^ 32 := by
  rw [audHeader_eq]
  exact field_packed (before := [(4, _)]) rfl 4 rows.length _

theorem audHeader_first : field (audHeader s path first rows gap preroll time) 8 8 = first % 2 ^ 40 := by
  rw [audHeader_eq]
  refine (field_packed (before := [(4, _), (4, _)]) rfl 8 (first % 2 ^ 40) _).trans (Nat.mod_eq_of_lt ?_)
  omega

theorem audHeader_time : field (audHeader s path first rows gap preroll time) 16 8 = time % 2 ^ 64 := by
  rw [audHeader_eq]
  exact field_packed (before := [(4, _), (4, _), (8, _)]) rfl 8 time _

variable {path} (hpath : path < 2)
include hpath

theorem audHeader_version : field (audHeader s path first rows gap preroll time) 3 1 = 1 := by
  obtain ⟨chans, hchans, hword, hlt⟩ := blockWord_parts hpath s rows gap preroll
  rw [audHeader_eq]
  refine (field_packed_high (before := []) (v := 3) rfl 1 (blockWord s path rows gap preroll) _).trans ?_
  omega

theorem audHeader_word : field (audHeader s path first rows gap preroll time) 0 4 = blockWord s path rows gap preroll := by
  obtain ⟨-, -, -, hlt⟩ := blockWord_parts hpath s rows gap preroll
  rw [audHeader_eq]
  refine (field_packed (before := []) rfl 4 (blockWord s path rows gap preroll) _).trans (Nat.mod_eq_of_lt ?_)
  omega

/-- The flags of a header: GAP, SETTLING, MUTED and PREROLL. -/
theorem audHeader_flags : bit (field (audHeader s path first rows gap preroll time) 0 4) 4 = gap ∧
    bit (field (audHeader s path first rows gap preroll time) 0 4) 3 = rows.any AudRow.settling ∧
    bit (field (audHeader s path first rows gap preroll time) 0 4) 2 = rows.any AudRow.muted ∧
    bit (field (audHeader s path first rows gap preroll time) 0 4) 1 = preroll := by
  rw [audHeader_word s first rows gap preroll time hpath]
  exact blockWord_flags hpath s rows gap preroll

end

/-! ## A block is written (R449 to R452) -/

/-- A block whose samples fit in one write, at a window that takes both: the samples are on their way, then the header. -/
theorem writeBlock_flies {s : State} {path first c k time : Nat} {rows : List AudRow} {pre : Bool}
    (howner : s.aud.owner = some c) (hdest : DestOpen s c (live s (pathRegs path)) k)
    (hsome : 0 < (rows.flatMap (rowBytes s path)).length) (hlen : (rows.flatMap (rowBytes s path)).length ≤ 4096)
    (hfits : audBase s path + 32 + (rows.flatMap (rowBytes s path)).length ≤
      ((winAt s k).limit - (winAt s k).base) * 256)
    (hroom : inFlight s (gateOf (k / 256) (winAt s k).base) ≤ 2) :
    writeBlock s path first rows pre time =
      inProgress (inProgress (pathWritten s path first rows.length)
        (audioHdr c (live s (pathRegs path)) (audBase s path + 32) (rows.flatMap (rowBytes s path))) k
          (.audio path (tget s.aud.paths {} path).block))
        (audioHdr c (live s (pathRegs path)) (audBase s path) (blockHead s path first rows pre time)) k
          (.audio path (tget s.aud.paths {} path).block) := by
  have hwritten : DestOpen (pathWritten s path first rows.length) c (live s (pathRegs path)) k :=
    ⟨hdest.key, hdest.opened, hdest.epoch, hdest.writer, hdest.deck, hdest.up, hdest.quiet⟩
  have hhead : (blockHead s path first rows pre time).length = 32 := audHeader_length ..
  have hfirst := hwritten.offer (off := audBase s path + 32) (List.length_pos_iff.mp hsome) hlen hfits
    (Nat.lt_of_le_of_lt hroom (by decide)) (.audio path (tget s.aud.paths {} path).block)
  have hsecond := (hwritten.kept (audioHdr c (live s (pathRegs path)) (audBase s path + 32)
    (rows.flatMap (rowBytes s path))) (.audio path (tget s.aud.paths {} path).block)).offer (off := audBase s path)
    (b := blockHead s path first rows pre time) (List.length_pos_iff.mp (by omega)) (by omega)
    (hhead ▸ (Nat.le_add_right ..).trans hfits)
    (Nat.lt_of_le_of_lt (inFlight_inProgress_le ..) (Nat.lt_of_le_of_lt (Nat.succ_le_succ hroom) (by decide)))
    (.audio path (tget s.aud.paths {} path).block)
  rw [writeBlock_owned howner, audChunks_one hsome hlen]
  exact audWrites_pair hfirst hsecond

/-! ## The pre-roll (R466 to R468) -/

theorem audWrites_ringLost (path n : Nat) (hdr : Nat → Bytes → WinHdr) (l : List (Nat × Bytes)) (s : State) :
    (audWrites path n hdr l s).aud.ringLost = s.aud.ringLost := by
  induction l generalizing s with
  | nil => rfl
  | cons e r ih =>
    have hoffer {t : State} {f : WriteFate} (heq : offerWrite s (hdr e.1 e.2) (.audio path n) = (t, f)) :
        t.aud.ringLost = s.aud.ringLost := by
      obtain ⟨_, _, _, _, _, _, _, hframe⟩ := offerWrite_onlyFrames s (hdr e.1 e.2) (.audio path n)
      rw [heq] at hframe
      exact congrArg (fun u => u.aud.ringLost) hframe
    unfold audWrites
    split
    · next t heq => exact (ih t).trans (hoffer heq)
    · next t heq => exact (ih t).trans (hoffer heq)
    · next t f _ _ heq => exact (rfl : _ = t.aud.ringLost).trans (hoffer heq)

theorem writeBlock_ringLost (s : State) (path first : Nat) (rows : List AudRow) (pre : Bool) (time : Nat) :
    (writeBlock s path first rows pre time).aud.ringLost = s.aud.ringLost := by
  cases howner : s.aud.owner with
  | none => simp only [writeBlock, howner]
  | some c => rw [writeBlock_owned howner, audWrites_ringLost, pathWritten]

theorem execPrerollDelivery_waits {s : State} (hwait : s.aud.readPoint = none ∨ prerollReady s = false) :
    execPrerollDelivery s = .next s := by
  unfold execPrerollDelivery
  split
  · rfl
  · next r hread =>
    have hunready : prerollReady s = false := hwait.resolve_left (by simp [hread])
    rw [hunready]
    rfl

section
variable {s : State} {r : Nat} (hread : s.aud.readPoint = some r) (hready : prerollReady s = true)
include hread hready

/-- What the ring has lost before the read point is counted. -/
theorem execPrerollDelivery_lost (hlost : r < ringOldest s) : ∃ t, execPrerollDelivery s = .next t ∧
    t.aud.ringLost = min (s.aud.ringLost + (ringOldest s - r)) 0xFFFF_FFFF := by
  have hsome : ringOldest s - r ≠ 0 := Nat.sub_ne_zero_of_lt hlost
  refine ⟨_, rfl, ?_⟩
  simp only [hread, hready, Bool.not_true, Bool.false_eq_true, if_false, if_neg hsome]
  split
  · rfl
  · exact (writeBlock_ringLost ..).trans rfl

variable (hkept : ringOldest s ≤ r) (hsome : 0 < blockSamples s 0)
include hkept hsome

/-- What a delivery does when the ring still holds the read point: a block, or with less than one left, its end. -/
theorem execPrerollDelivery_held : execPrerollDelivery s = .next (
    if s.aud.index < r + blockSamples s 0 then { s with aud := { s.aud with
      readPoint := none, paths := tset s.aud.paths 0 { tget s.aud.paths {} 0 with next := r } } }
    else writeBlock (draw { s with aud := { s.aud with readPoint := some (r + blockSamples s 0) } }) 0 r
      ((s.aud.ring.drop (r - ringOldest s)).take (blockSamples s 0)) true (Config.freeTime s.draws)) := by
  have hmax : max r (ringOldest s) = r := Nat.max_eq_left hkept
  have hnone : ringOldest s - r = 0 := Nat.sub_eq_zero_of_le hkept
  simp only [execPrerollDelivery, hread, hready, hmax, hnone, hsome.ne', Bool.not_true, Bool.false_eq_true, if_false,
    if_true, false_or]

end

end Sys2Proof.Machine

/-!
PROOFS. The cascade (R470 to R472), and the statement on spotter frames, mute, blocks and the cascade.
-/

namespace Sys2Proof.Machine

/-! ## The target of an action word (R470, R471) -/

theorem actionTarget_eq (s : State) (m word : Nat) : actionTarget s m word =
    if m = 1 ∧ word % 4 = 1 ∧ (tget? s.aud.cascade 2).isSome = true then 2
    else if ((m = 1 ∨ m = 2) ∧ (word % 4 = 1 ∨ word % 4 = 2)) ∧ (tget? s.aud.cascade 3).isSome = true then 3 else 0 := by
  have hword : word % 4 < 4 := Nat.mod_lt _ (by decide)
  unfold actionTarget
  generalize word % 4 = w at hword
  match m with
  | 0 => simp
  | 1 => interval_cases w <;> simp
  | 2 => interval_cases w <;> simp
  | m + 3 => simp

/-! ## The end of a cascade job (R470, R471) -/

section
variable {m : Nat} {e : CasRun} {s : State} (hrun : tget? s.aud.casRuns m = some e)
include hrun

theorem execCascadeDone_nothing (hnone : e.results = []) : execCascadeDone m s = .next s := by
  simp only [execCascadeDone, hrun, hnone]

/-- The oldest job that has ended is reported, and its action's target, when there is one, is triggered. -/
theorem execCascadeDone_reports {c word : Nat} {st : Status} {rest : List (Nat × Status × Nat)} {u : State}
    (hresults : e.results = (c, st, word) :: rest)
    (hu : u = { s with aud := { s.aud with casRuns := tset s.aud.casRuns m { e with results := rest } } }) :
    execCascadeDone m s = .next (
      if actionTarget s m word = 0 then cascadeEvent u m c st word (actionTarget s m word)
      else triggerEntry (cascadeEvent u m c st word (actionTarget s m word)) (actionTarget s m word) 0 c) := by
  subst hu
  simp only [execCascadeDone, hrun, hresults]

theorem lingerExpired_casRuns : tget? (tmod s.aud.casRuns m (fun e => { e with lingers := e.lingers.tail })) m =
    some { e with lingers := e.lingers.tail } := by
  rw [tget?_tmod_self, hrun, Option.map_some]

end

/-! ## A trigger (R470, R472) -/

theorem triggerEntry_coalesces {s : State} {m : Nat} {r : CasRun} (harmed : (tget? s.aud.cascade m).isSome)
    (hrun : tget? s.aud.casRuns m = some r) (hactive : r.active = true) (cls id : Nat) : triggerEntry s m cls id =
    { s with aud := { s.aud with coalesced := min (s.aud.coalesced + 1) 0xFFFF_FFFF } } := by
  obtain ⟨e, he⟩ := Option.isSome_iff_exists.mp harmed
  simp [triggerEntry, he, hrun, hactive]

/-- A run that an armed entry triggers, as it is queued: what is left of the runs before it stays. -/
def triggeredRun (s : State) (m : Nat) (e : CasEntry) (cls id : Nat) : CasRun :=
  { tget s.aud.casRuns {} m with
    ctx := e.ctx, slot := e.slot, space := e.space, win := e.win, vote := some (cls, id, entryCores s e), active := true }

/-- The RUN that a trigger queues: it has no command of its own, and names the entry. -/
def triggeredReq (m : Nat) (e : CasEntry) : RunReq :=
  { req := { iface := .host, sess := 0, src := 0, sport := 0, port := 0, seq := 0, ctx := e.ctx },
    slot := e.slot, param := 0, milestone := some m }

/-- The state in which an entry is triggered: its vote has been cast, and its run is active. -/
def triggered (s : State) (m : Nat) (e : CasEntry) (cls id : Nat) : State :=
  { voteCast s cls id (entryCores s e) with aud := { (voteCast s cls id (entryCores s e)).aud with
    casRuns := tset (voteCast s cls id (entryCores s e)).aud.casRuns m (triggeredRun s m e cls id) } }

theorem voteCast_ctxs (s : State) (cls id mask : Nat) : (voteCast s cls id mask).ctxs = s.ctxs :=
  voteCast_keeps (g := State.ctxs) (fun _ _ _ _ _ => rfl) s cls id mask

/-- A context that runs a job starts no other. -/
theorem startNext_busy {s : State} {c : Nat} {x : Ctx} (hctx : tget? s.ctxs c = some x) (hjob : x.job ≠ none) :
    startNext s c = s := by
  rw [startNext, dropEmpty_head hctx (fun _ _ _ => .inl hjob), startHead_none hctx (nextRun_job s hjob)]

section
variable {s : State} {m : Nat} {e : CasEntry} {x : Ctx} {im : Image} (harmed : tget? s.aud.cascade m = some e)
  (hidle : ∀ r, tget? s.aud.casRuns m = some r → r.active = false) (hctx : liveCtx s e.ctx = some x)
  (himage : tget? x.images e.slot = some im) (hreload : im.reload = false) (hroom : x.runQ.length < 16)
  (hdescent : descending s = false)
include harmed hidle hctx himage hreload hroom hdescent

theorem triggerEntry_joins (cls id : Nat) : triggerEntry s m cls id =
    startNext (modCtx (triggered s m e cls id) e.ctx (withRun · (triggeredReq m e))) e.ctx := by
  have hinactive : ((tget? s.aud.casRuns m).map CasRun.active).getD false = false := by
    cases hrun : tget? s.aud.casRuns m with
    | none => rfl
    | some r => exact hidle r hrun
  simp only [triggerEntry, harmed, hinactive, hctx, himage, hreload, cancelDescent_awake hdescent, Option.map_some,
    Option.getD_some, Bool.false_eq_true, if_false, if_neg (Nat.not_le.mpr hroom)]
  rfl

variable (hjob : x.job ≠ none)
include hjob

/-- While a job of the context runs, the triggered run is the last of its queue. -/
theorem triggerEntry_queues (cls id : Nat) : triggerEntry s m cls id =
      modCtx (triggered s m e cls id) e.ctx (withRun · (triggeredReq m e)) ∧
    tget? (triggerEntry s m cls id).ctxs e.ctx = some (withRun x (triggeredReq m e)) := by
  have hqueued : tget? (modCtx (triggered s m e cls id) e.ctx (withRun · (triggeredReq m e))).ctxs e.ctx =
      some (withRun x (triggeredReq m e)) := by
    obtain ⟨hx, -⟩ := liveCtx_some hctx
    rw [tget?_modCtx, triggered, voteCast_ctxs, hx, Option.map_some]
  have hjoins := (triggerEntry_joins harmed hidle hctx himage hreload hroom hdescent cls id).trans
    (startNext_busy hqueued hjob)
  exact ⟨hjoins, hjoins ▸ hqueued⟩

end

/-! ## The statement -/

/-- Settles O35: a frame end by its parts in their order, mute and hold by their definitions, a block by the two writes that
it makes, and the cascade by its triggers. -/
theorem spotterBlocksAndCascade : Obligations.SpotterBlocksAndCascade := by
  refine ⟨⟨fun l s => ⟨fun hoff => execSpotterFrameEnd_off hoff l, fun hon hring => ?_⟩,
      fun p f v hrun hlo hhi hvlo hvhi => ?_⟩, fun s hroom => ?_,
    ⟨fun path time p s hp => ⟨fun hoff => execAudioBlockEnd_off hoff time, fun hpath hon hmode ring last n hring hn => ?_⟩,
      ?_, fun r n p s hp hn => ?_⟩,
    ?_, fun m e s hroom hrun => ?_, fun m cls id e x im s hroom harmed hidle hctx himage hreload hqueue hjob hdescent => ?_⟩
  · obtain ⟨_, _, _, _, _, hframe⟩ := frameHeard_frame s l
    refine ⟨frameHeard s l, fun hpage => execSpotterFrameEnd_quiet hon l hpage, fun hpage => ⟨phrasesHeard (frameHeard s l), rfl,
      execSpotterFrameEnd_hears hon l hpage, rfl⟩, ?_, ?_, congrArg (fun u => u.aud.index) hframe,
      congrArg (fun u => u.aud.loads) hframe, fun r hr => ?_, fun hkeys => ⟨fun q hq => ?_, fun q b hq => ?_⟩, ?_⟩
    · rw [frameHeard_ring, ringTaken_length (lpFrame_length s l)]
    · rw [frameHeard_ring, ringTaken_last (lpFrame_length s l)]
    · obtain ⟨height, hdisabled, hzeroed, hmuted, hsettled⟩ := lpFrame_spec hr
      exact ⟨height, hdisabled, hzeroed, hmuted, hsettled⟩
    · rw [frameHeard_phrases, tget?_loadsTaken_none hq]
    · rw [frameHeard_phrases, tget?_loadsTaken_some hkeys hq]
      exact ⟨fun hempty => if_pos hempty, fun hsome => if_neg hsome⟩
    · rw [hframe]
  · obtain ⟨inputs, seen, hscored⟩ := phraseFrame_scored hrun hlo hhi hvlo hvhi
    rw [hscored]
    exact ⟨rfl, rfl, by simp [hits], fun hhit => if_pos hhit, fun hmiss => if_neg (Bool.eq_false_iff.mp hmiss)⟩
  · refine ⟨fun hheld => congrArg _ (if_pos hheld), fun hnone => congrArg _ (if_neg (by simp [hnone])),
      fun hmuted => ⟨congrArg _ (if_pos hmuted), hmuted, pinPdmClk_muted hmuted⟩,
      fun hoff => ⟨fun hopen => execMicMuteOn_off hopen hoff, fun hmuted => execMicMuteOff_off hmuted hoff⟩,
      fun hopen hon => ⟨mutedBlock s, reports_emit (execMicMuteOn_mutes hopen hon) hroom, rfl, rfl, rfl,
        mutedBlock_ring_length s, fun r hr => ?_, fun h hwait => mem_waitHdrs_mutedBlock hwait, mutedBlock_phrases s,
        fun e he => mem_phrases_mutedBlock he, rfl, rfl⟩,
      fun hmuted hon => reports_emit (execMicMuteOff_unmutes hmuted hon) hroom,
      fun hopen => congrArg _ (if_pos (by simp [hopen])), rfl⟩
    rw [mem_rings_mutedBlock hr]
    exact ⟨rfl, rfl⟩
  · have hexec := execAudioBlockEnd_on hpath hon hmode hring time hn hp
    refine ⟨fun hshort => hexec.trans (congrArg _ (if_pos hshort)), fun hdue => ?_⟩
    rw [if_neg (Nat.not_lt.mpr hdue)] at hexec
    refine ⟨fun hsleep => hexec.trans (congrArg _ (if_pos hsleep)), fun hawake hzero hpre => ?_, fun hawake hlive => ?_⟩
    · rw [if_neg (by omega), if_pos ⟨hzero, hpre⟩] at hexec
      exact hexec
    · rw [if_neg (by omega), if_neg] at hexec
      · exact hexec
      · rintro ⟨rfl, hpre⟩
        simp [hlive.resolve_left (by decide)] at hpre
  · rintro path first c d k _ off time rows pre p w body s hpath howner rfl rfl rfl hoff rfl hsome hlen hkey rfl hopen hepoch
      hwriter hfits hroom hquiet hdeck hup - -
    obtain rfl : off = audBase s path := hoff
    obtain ⟨hgap, hsettling, hmuted, hpre⟩ :=
      audHeader_flags s first rows (tget s.aud.paths {} path).gap pre time hpath
    rw [writeBlock_flies howner ⟨hkey, hopen, hepoch, hwriter, hdeck, hup, hquiet⟩ hsome hlen hfits hroom]
    exact ⟨_, _, _, rfl, tget_tset_self .., (tget?_tset_ne _ _ _ _ (Nat.ne_of_lt (Nat.lt_succ_self _))).trans
      (tget?_tset_self ..), rfl, rfl, rfl, rfl, rfl, tget?_tset_self .., rfl, rfl, rfl, rfl, audHeader_length ..,
      audHeader_version s first rows _ pre time hpath, audHeader_rows .., audHeader_first .., audHeader_time .., hgap,
      hsettling, hmuted, hpre, rfl, rfl⟩
  · subst hp hn
    refine ⟨execPrerollDelivery_waits, fun hread hready hkept hsome => ⟨fun hleft => ?_, fun hshort => ?_⟩,
      fun hread hready hlost => execPrerollDelivery_lost hread hready hlost⟩
    · exact (execPrerollDelivery_held hread hready hkept hsome).trans (congrArg _ (if_neg (Nat.not_lt.mpr hleft)))
    · exact (execPrerollDelivery_held hread hready hkept hsome).trans (congrArg _ (if_pos hshort))
  · intro m word s armed harmed
    rw [actionTarget_eq, harmed, harmed]
  · refine ⟨fun hnone => execCascadeDone_nothing hrun hnone, fun c st word rest u hresults hu => ?_,
      ⟨_, rfl, lingerExpired_casRuns hrun, fun k hk => tget?_tmod_ne _ _ _ _ hk, rfl⟩,
      fun cls id harmed hactive => triggerEntry_coalesces harmed hrun hactive cls id⟩
    have hexec := execCascadeDone_reports hrun hresults hu
    have hroom' : EventRoom u := by
      rw [hu]
      exact hroom
    refine ⟨fun hends => ?_, fun q hq hgoes => ?_⟩
    · rw [if_pos hends, hends] at hexec
      exact reports_emit hexec hroom'
    · rw [hq, if_neg hgoes] at hexec
      exact ⟨_, emit_reported u (some c) .ok .cascadeDone _ hroom', emit_only u (some c) .ok .cascadeDone _ hroom', hexec⟩
  · obtain ⟨hqueues, hctxs⟩ := triggerEntry_queues harmed hidle hctx himage hreload hqueue hdescent
      (Option.isSome_iff_ne_none.mp hjob) cls id
    refine ⟨_, _, rfl, hctxs, List.length_append, fun r hr => ?_, triggeredRun s m e cls id, ?_, rfl, rfl, rfl, rfl, rfl⟩
    · obtain rfl : triggeredReq m e = r := by simpa [withRun] using hr
      exact ⟨rfl, rfl⟩
    · rw [hqueues]
      exact tget?_tset_self ..

end Sys2Proof.Machine

/-!
PROOFS. The step and its outcomes (R516, R525, R526): what a step runs, and that every command answers a next state.
-/

namespace Sys2Proof.Machine

/-! ## One part of the device written -/

@[reducible] noncomputable def withNet (s : State) (net : Net) : State := { s with net := net }

@[reducible] noncomputable def withCtxs (s : State) (ctxs : Tab Ctx) : State := { s with ctxs := ctxs }

@[reducible] noncomputable def withSec (s : State) (sec : Sec) : State := { s with sec := sec }

@[reducible] noncomputable def withRst (s : State) (rst : Rst) : State := { s with rst := rst }

@[reducible] noncomputable def withSet (s : State) (set : SetDev) : State := { s with set := set }

@[reducible] noncomputable def withDdr (s : State) (ddr : Ddr) : State := { s with ddr := ddr }

@[reducible] noncomputable def withPcie (s : State) (pcie : Pcie) : State := { s with pcie := pcie }

@[reducible] noncomputable def withPwr (s : State) (pwr : Pwr) : State := { s with pwr := pwr }

@[reducible] noncomputable def withGrd (s : State) (grd : Grd) : State := { s with grd := grd }

@[reducible] noncomputable def withRel (s : State) (rel : Rel) : State := { s with rel := rel }

/-- Settles O53: the two branches of the step. -/
theorem stepRunsTheFrontCommand : Obligations.StepRunsTheFrontCommand := by
  constructor
  · intro c rest s hpending
    unfold step
    rw [hpending]
  · intro s hpending
    unfold step
    rw [hpending]

/-- An outcome that is a next state. -/
def IsNext : Out → Prop
  | .next _ => True
  | _ => False

theorem completes_of_isNext {i : Instr} {s : State} (h : IsNext (exec i s)) : Completes i s := by
  unfold Completes
  cases hout : exec i s with
  | next t => exact ⟨t, rfl⟩
  | fault r => rw [hout] at h; exact h.elim
  | refused r => rw [hout] at h; exact h.elim

theorem isNext_ite {p : Prop} [Decidable p] {a b : Out} (ha : IsNext a) (hb : IsNext b) : IsNext (if p then a else b) := by
  split
  · exact ha
  · exact hb

theorem isNext_helloProve (rq : Req) (keyDigest signature : Bytes) (s : State) :
    IsNext (execHelloProve rq keyDigest signature s) := by
  unfold execHelloProve
  split
  · exact trivial
  · exact isNext_ite trivial trivial

theorem isNext_ctxCreate (rq : Req) (params : CtxParams) (s : State) : IsNext (execCtxCreate rq params s) := by
  unfold execCtxCreate
  split
  · exact trivial
  · split <;> exact trivial

theorem isNext_exec (i : Instr) (s : State) : IsNext (exec i s) := by
  induction i with
  | helloOpen => exact isNext_ite trivial trivial
  | helloProve => exact isNext_helloProve ..
  | ctxCreate => exact isNext_ctxCreate ..
  | eventsLostReport => exact isNext_ite trivial trivial
  | coreJunctionBeat => exact isNext_ite trivial trivial
  | _ => exact trivial

/-- Settles O54: a meaning ends in a next state whatever it decides; five of them choose between such ends. -/
theorem everyCommandCompletes : Obligations.EveryCommandCompletes := fun i s => completes_of_isNext (isNext_exec i s)

end Sys2Proof.Machine

/-!
PROOFS. Guardrail's features (R489), its commands (R493, R494, R500, R502), and its polls, evaluations and faults
(R483 to R492, R497, R498).
-/

namespace Sys2Proof.Machine

/-! ## Features (R489) -/

/-- The rounded quotient by 256, from the quotient and the remainder. -/
theorem rne_of_split {p q : Int} {r : Nat} (hp : p = 256 * q + r) (hr : r < 256) : rne p 256 =
    if 2 * r < 256 then q else if 256 < 2 * r then q + 1 else if q % 2 = 0 then q else q + 1 := by
  have hdiv : p / 256 = q := ((Int.ediv_emod_unique (b := 256) (by decide)).mpr
    ⟨(Int.add_comm ..).trans hp.symm, Int.natCast_nonneg r, Int.ofNat_lt.mpr hr⟩).1
  have hquot : Int.fdiv p ((256 : Nat) : Int) = q := (Int.fdiv_eq_ediv_of_nonneg p (by decide)).trans hdiv
  have hrem : p - q * ((256 : Nat) : Int) = r := by
    rw [hp, Int.mul_comm q]
    exact add_sub_cancel_left ..
  rw [rne, hquot, hrem]
  exact if_congr Int.ofNat_lt rfl (if_congr Int.ofNat_lt rfl rfl)

section
variable {p n : Int} {m : Nat}

theorem near_lt (hnear : 2 * m < 256 ∨ (2 * m = 256 ∧ n % 2 = 0)) : m < 256 := by omega

/-- A number that lies less than a half above `n`, or a half above an even one. -/
theorem rne_above (hp : p = 256 * n + m) (hnear : 2 * m < 256 ∨ (2 * m = 256 ∧ n % 2 = 0)) : rne p 256 = n :=
  (rne_of_split hp (near_lt hnear)).trans (hnear.elim (fun h => if_pos h) fun h =>
    (if_neg h.1.not_lt).trans ((if_neg h.1.not_gt).trans (if_pos h.2)))

/-- A number that lies less than a half below `n`, or a half below an even one. -/
theorem rne_below (hp : p + m = 256 * n) (hpos : 0 < m) (hnear : 2 * m < 256 ∨ (2 * m = 256 ∧ n % 2 = 0)) :
    rne p 256 = n := by
  obtain ⟨k, hk⟩ := Nat.exists_eq_add_of_le' (near_lt hnear).le
  have htwice : 2 * k + 2 * m = 512 := (Nat.mul_add ..).symm.trans (congrArg (2 * ·) hk.symm)
  have hq : p = 256 * (n - 1) + k := (Int.add_left_inj (m : Int)).mp (hp.trans (by
    rw [Int.add_assoc, ← Int.natCast_add, ← hk, Int.mul_sub]
    exact (Int.sub_add_cancel ..).symm))
  refine (rne_of_split hq (hk ▸ Nat.lt_add_of_pos_right hpos)).trans ?_
  rcases hnear with hless | ⟨htie, heven⟩
  · have hmore : 256 < 2 * k := Nat.lt_of_add_lt_add_right (n := 2 * m) (htwice ▸ Nat.add_lt_add_left hless 256)
    exact (if_neg (Nat.lt_asymm hmore)).trans ((if_pos hmore).trans (Int.sub_add_cancel n 1))
  · have htie' : 2 * k = 256 := Nat.add_right_cancel (m := 256) ((congrArg (2 * k + ·) htie).symm.trans htwice)
    have hodd : ¬ (n - 1) % 2 = 0 := by omega
    exact (if_neg htie'.not_lt).trans ((if_neg htie'.not_gt).trans ((if_neg hodd).trans (Int.sub_add_cancel n 1)))

/-- The quotient by 256 that is nearest, and even where two are, is the rounded one. -/
theorem rne_eq_of_nearest (hnear : 2 * (256 * n - p).natAbs < 256 ∨ (2 * (256 * n - p).natAbs = 256 ∧ n % 2 = 0)) :
    rne p 256 = n := by
  obtain ⟨m, hm | hm⟩ := Int.eq_nat_or_neg (256 * n - p)
  · rw [hm, Int.natAbs_natCast] at hnear
    have hp : p + m = 256 * n := hm ▸ Int.add_comm .. ▸ Int.sub_add_cancel ..
    rcases Nat.eq_zero_or_pos m with rfl | hpos
    · exact rne_above ((Int.add_zero p).symm.trans (hp.trans (Int.add_zero _).symm)) hnear
    · exact rne_below hp hpos hnear
  · rw [hm, Int.natAbs_neg, Int.natAbs_natCast] at hnear
    exact rne_above (Int.sub_eq_iff_eq_add'.mp ((Int.neg_sub ..).symm.trans ((congrArg Neg.neg hm).trans (Int.neg_neg _)))) hnear

end

/-- Settles O60: the one rounding of a heard slot's feature. -/
theorem featureRule : Obligations.FeatureRule := by
  intro i x r p n s _ hon hheard hrecord hreading hp hnear
  have hfeature : grdFeature s i = sat (-128) 127 (rne p 256) := by
    simp only [grdFeature, grdRecord, hon, List.contains_iff_mem.mpr hheard, hrecord, hreading, hp]
    rfl
  rw [hfeature, rne_eq_of_nearest hnear]
  rfl

/-! ## Masks of four stops -/

/-- A mask is known by its bits. -/
theorem maskOf_filter_eq {n a : Nat} {p : Nat → Bool} (ha : a < 2 ^ n) (hbits : ∀ k < n, bit a k = p k) :
    maskOf ((List.range n).filter p) = a := by
  refine Nat.eq_of_testBit_eq fun k => ?_
  have hmask := bit_maskOf ((List.range n).filter p) k
  rw [bit] at hmask
  rw [hmask]
  by_cases hk : k < n
  · have hbit : a.testBit k = p k := hbits k hk
    rw [hbit, Bool.eq_iff_iff]
    simp [hk]
  · rw [Nat.testBit_lt_two_pow (ha.trans_le (Nat.pow_le_pow_right (by decide) (Nat.not_lt.mp hk)))]
    simp [hk]

theorem maskOf_eq_zero {l : List Nat} : maskOf l = 0 ↔ l = [] := by
  refine ⟨fun hzero => List.eq_nil_iff_forall_not_mem.mpr fun k hk => ?_, fun hnil => by rw [hnil]; rfl⟩
  have hbit := bit_maskOf l k
  rw [hzero, List.contains_iff_mem.mpr hk, bit, Nat.zero_testBit] at hbit
  cases hbit

theorem bit_or (a b k : Nat) : bit (a ||| b) k = (bit a k || bit b k) := Nat.testBit_or a b k

theorem bit_and (a b k : Nat) : bit (a &&& b) k = (bit a k && bit b k) := Nat.testBit_and a b k

theorem bit_fifteen_sub {a k : Nat} (ha : a < 16) (hk : k < 4) : bit (15 - a) k = !bit a k := by
  have hsub : 15 - a = 2 ^ 4 - (a + 1) := (Nat.add_sub_add_right 15 1 a).symm
  rw [hsub, bit, Nat.testBit_two_pow_sub_succ (by omega)]
  simp [hk, bit]

/-- The parts of `t` that an event changes, in `s`. -/
@[reducible] noncomputable def eventAs (s t : State) : State := { s with net := t.net, draws := t.draws }

/-- The parts of `t` that the frame `OnlyNet` leaves free, in `s`. -/
@[reducible] noncomputable def netAs (s t : State) : State := { s with net := t.net, draws := t.draws, rel := t.rel }

theorem emitDev_frame (s : State) (r : Reason) (b : Bytes) : emitDev s r b = eventAs s (emitDev s r b) :=
  emit_frame s none .ok r b

theorem OnlyNet.trans {s t u : State} (hst : OnlyNet s t) (htu : OnlyNet t u) : OnlyNet s u :=
  Eq.trans htu (congrArg (netAs · u) hst :)

theorem emitDev_onlyNet (s : State) (r : Reason) (b : Bytes) : OnlyNet s (emitDev s r b) :=
  (emitDev_frame s r b).trans (congrArg (netAs s) (emitDev_frame s r b)).symm

theorem OnlyReply.onlyNet {rq : Req} {s t : State} (h : OnlyReply rq s t) : OnlyNet s t :=
  h.1.trans (congrArg (netAs s) h.1).symm

theorem replyD_onlyNet (s : State) (rq : Req) (op : Nat) (st : Status) (r : Reason) (b : Bytes) :
    OnlyNet s (replyD s rq op st r b) := (replyAs_only s rq op 0 st r b).onlyNet

/-! ## GUARDRAIL_CFG (R494, R500, R502) -/

theorem causePersists_iff (s : State) (k : Nat) : causePersists s k = true ↔ grdOn s = false ∨ s.grd.fault = true ∨
    bit (directMask s s.grd.levels) k = true ∨ bit s.grd.asserted k = true ∨ bit (staleMask s) k = true := by
  simp [causePersists, or_assoc]

/-- The state in which the stops of a mask are released; unless none of them was latched, the release is reported. -/
noncomputable def stopsReleased (s : State) (a : Nat) (quiet : Bool) : State :=
  let s1 := withGrd s { s.grd with stopped := s.grd.stopped &&& (15 - a) }
  if quiet then s1 else emitDev s1 .grdReleased []

theorem stopsReleased_grd (s : State) (a : Nat) (quiet : Bool) :
    (stopsReleased s a quiet).grd = { s.grd with stopped := s.grd.stopped &&& (15 - a) } := by
  cases quiet with
  | true => rfl
  | false => exact emitDev_grd ..

theorem stopsReleased_only (s : State) (a : Nat) (quiet : Bool) :
    OnlyNet (withGrd s { s.grd with stopped := s.grd.stopped &&& (15 - a) }) (stopsReleased s a quiet) := by
  cases quiet with
  | true => rfl
  | false => exact emitDev_onlyNet ..

theorem stopsReleased_live {rq : Req} {s : State} (hlive : Live rq s) (a : Nat) (quiet : Bool) :
    Live rq (stopsReleased s a quiet) := by
  cases quiet with
  | true => exact hlive
  | false => exact emit_live (s := withGrd s { s.grd with stopped := s.grd.stopped &&& (15 - a) }) hlive ..

/-- The named stops of which `p` holds. -/
noncomputable def namedStops (o : Nat) (p : Nat → Bool) : List Nat := ((List.range 4).filter (fun k => bit o k)).filter p

theorem maskOf_namedStops {o a : Nat} {p : Nat → Bool} (ha : a < 16) (hbits : ∀ k < 4, bit a k = (bit o k && p k)) :
    maskOf (namedStops o p) = a := by
  unfold namedStops
  rw [List.filter_filter]
  exact maskOf_filter_eq ha fun k hk => (hbits k hk).trans (Bool.and_comm ..)

/-- No stop that is released was latched. -/
noncomputable def releaseQuiet (s : State) (o : Nat) : Bool :=
  ((namedStops o (fun k => !causePersists s k)).filter (fun k => bit s.grd.stopped k)).isEmpty

/-- The state in which RELEASE has released the stops of the mask `a` and not yet replied. -/
noncomputable def released (s : State) (o a : Nat) : State := stopsReleased s a (releaseQuiet s o)

/-- What RELEASE answers. -/
noncomputable def releaseReply (u : State) (rq : Req) (a b : Nat) : State :=
  if b = 0 then replyD u rq 0x01E0 .ok .none [BitVec.ofNat 8 a, BitVec.ofNat 8 b, 0, 0]
  else replyD u rq 0x01E0 .refused .grdReleaseActive [BitVec.ofNat 8 a, BitVec.ofNat 8 b, 0, 0]

section
variable {s : State} {o a b : Nat}

/-- RELEASE by the masks of the named stops that it releases and of those that it does not. -/
theorem execRelease_eq (ha : a < 16) (hb : b < 16) (hfree : ∀ k < 4, bit a k = (bit o k && !causePersists s k))
    (hheld : ∀ k < 4, bit b k = (bit o k && causePersists s k)) (rq : Req) :
    execRelease rq o s = .next (releaseReply (released s o a) rq a b) := by
  have hnone : (namedStops o (causePersists s)).isEmpty = true ↔ b = 0 := by
    rw [List.isEmpty_iff, ← maskOf_eq_zero, maskOf_namedStops hb hheld]
  have hmaskA : maskOf (namedStops o (fun k => !causePersists s k)) = a := maskOf_namedStops ha hfree
  have hmaskB : maskOf (namedStops o (causePersists s)) = b := maskOf_namedStops hb hheld
  unfold releaseReply released
  rw [← hmaskA, ← hmaskB]
  rw [← hmaskB] at hnone
  exact congrArg Host.Outcome.next (if_congr hnone rfl rfl)

variable {rq : Req} (hlive : Live rq s)
include hlive

theorem releaseReply_replied {q : Bool} {st : Status} {r : Reason} {body : Bytes} :
    Replied rq 0x01E0 0 st r body (replyD (stopsReleased s a q) rq 0x01E0 st r body) :=
  replyD_replied _ rq 0x01E0 st r body (stopsReleased_live hlive a q)

theorem releaseReply_zero (hb : b = 0) : Replied rq 0x01E0 0 .ok .none [BitVec.ofNat 8 a, 0, 0, 0] (releaseReply (released s o a) rq a b) := by
  subst hb
  exact releaseReply_replied hlive

theorem releaseReply_some (hb : b ≠ 0) : Replied rq 0x01E0 0 .refused .grdReleaseActive [BitVec.ofNat 8 a, BitVec.ofNat 8 b, 0, 0]
    (releaseReply (released s o a) rq a b) := by
  unfold releaseReply
  rw [if_neg hb]
  exact releaseReply_replied hlive

omit hlive in
theorem releaseReply_stopped : (releaseReply (released s o a) rq a b).grd.stopped = s.grd.stopped &&& (15 - a) := by
  refine iteInduction (motive := fun t : State => t.grd.stopped = _) (fun _ => ?_) (fun _ => ?_)
  · exact congrArg Grd.stopped ((replyD_grd ..).trans (stopsReleased_grd ..))
  · exact congrArg Grd.stopped ((replyD_grd ..).trans (stopsReleased_grd ..))

omit hlive in
theorem releaseReply_only : OnlyNet (withGrd s { s.grd with stopped := s.grd.stopped &&& (15 - a) })
    (releaseReply (released s o a) rq a b) :=
  (stopsReleased_only ..).trans (iteInduction (motive := OnlyNet (released s o a)) (fun _ => replyD_onlyNet ..) (fun _ => replyD_onlyNet ..))

end

/-- Settles O36: the three operations by their checks, and RELEASE by its two masks. -/
theorem guardrailCommands : Obligations.GuardrailCommands := by
  intro rq s hlive
  refine ⟨fun w => ⟨fun hon => answered_replyD (congrArg Host.Outcome.next (if_pos hon)) hlive, fun hoff hbad =>
      answered_replyD (congrArg Host.Outcome.next ((if_neg (Bool.eq_false_iff.mp hoff)).trans (if_pos (congrArg not hbad)))) hlive,
      fun hoff hgood => answered_replyD (congrArg Host.Outcome.next ((if_neg (Bool.eq_false_iff.mp hoff)).trans (if_neg ?_))) hlive⟩,
    answered_replyD rfl hlive, fun o a b ha hb _ hfree hheld => ⟨_, execRelease_eq ha hb hfree hheld rq, fun k hk => ?_,
      releaseReply_zero hlive, releaseReply_some hlive, ?_⟩, causePersists_iff s⟩
  · rw [hgood]
    exact Bool.false_ne_true
  · rw [releaseReply_stopped, bit_and, bit_fifteen_sub ha hk]
  · rw [releaseReply_stopped]
    exact releaseReply_only

/-! ## Stops that assert (R492, R493) -/

theorem bit_stopped_or {s : State} {mask k : Nat} (hk : k < 4) :
    bit (s.grd.stopped ||| maskOf (newStops s mask)) k = (bit s.grd.stopped k || bit mask k) := by
  rw [bit_or, bit_maskOf, Bool.eq_iff_iff]
  simp only [Bool.or_eq_true, List.contains_iff_mem, newStops, List.mem_filter, List.mem_range, hk, true_and,
    Bool.and_eq_true, Bool.not_eq_true']
  cases bit s.grd.stopped k <;> simp

theorem tget_foldl_tset {α : Type} (f : Nat → α) (d : α) (l : List Nat) (k : Nat) (t : Tab α) :
    tget (l.foldl (fun t i => tset t i (f i)) t) d k = if k ∈ l then f k else tget t d k := by
  induction l generalizing t with
  | nil => simp
  | cons i l ih =>
    rw [List.foldl_cons, ih]
    by_cases hmem : k ∈ l
    · simp [hmem]
    · by_cases hk : k = i
      · subst hk
        simp [hmem]
      · rw [tget_tset_ne _ _ _ _ _ hk]
        simp [hmem, hk]

/-- Guardrail and the parts of `t` that an event changes, in `s`. -/
@[reducible] noncomputable def grdAs (s t : State) : State := { s with grd := t.grd, net := t.net, draws := t.draws }

/-- From `s` to `t` nothing changes but Guardrail and what an event changes. -/
def OnlyGrd (s t : State) : Prop := t = grdAs s t

theorem OnlyGrd.trans {s t u : State} (hst : OnlyGrd s t) (htu : OnlyGrd t u) : OnlyGrd s u :=
  Eq.trans htu (congrArg (grdAs · u) hst :)

theorem emitDev_onlyGrd (s : State) (r : Reason) (b : Bytes) : OnlyGrd s (emitDev s r b) :=
  (emitDev_frame s r b).trans (congrArg (grdAs s) (emitDev_frame s r b)).symm

theorem assertStops_grd (s : State) (mask : Nat) (cause : Nat → GrdCause) : ∃ causes stops,
    (assertStops s mask cause).grd =
      { s.grd with stopped := s.grd.stopped ||| maskOf (newStops s mask), causes := causes, stops := stops } := by
  obtain ⟨_, _, causes, stops, hframe⟩ := assertStops_frame s mask cause
  exact ⟨causes, stops, congrArg State.grd hframe⟩

theorem assertStops_stopped (s : State) (mask : Nat) (cause : Nat → GrdCause) :
    (assertStops s mask cause).grd.stopped = s.grd.stopped ||| maskOf (newStops s mask) := by
  obtain ⟨_, _, hgrd⟩ := assertStops_grd s mask cause
  exact congrArg Grd.stopped hgrd

theorem assertStops_onlyGrd (s : State) (mask : Nat) (cause : Nat → GrdCause) : OnlyGrd s (assertStops s mask cause) := by
  unfold assertStops
  dsimp only
  split
  · rfl
  · exact OnlyGrd.trans (t := withGrd s _) rfl (emitDev_onlyGrd ..)

/-- What stops that newly latch leave of the causes. -/
theorem assertStops_causes {s : State} {mask k : Nat} (cause : Nat → GrdCause) (hk : k < 4) (hmask : bit mask k = true)
    (hnew : bit s.grd.stopped k = false) : tget (assertStops s mask cause).grd.causes {} k = cause k := by
  have hmem : k ∈ newStops s mask := by simp [newStops, hk, hmask, hnew]
  have hsome : ¬ (newStops s mask).isEmpty = true := mt List.isEmpty_iff.mp (List.ne_nil_of_mem hmem)
  have hassert : assertStops s mask cause = emitDev _ .grdStop _ := if_neg hsome
  rw [hassert, emitDev_grd]
  exact (tget_foldl_tset cause {} _ k _).trans (if_pos hmem)

theorem bit_directMask {s : State} {levels k : Nat} (hk : k < 4) : bit (directMask s levels) k = (List.range 8).any (fun i =>
    bit (live s (0x0022_0040 + 4 * i)) k && (bit levels i == bit (live s (0x0022_0040 + 4 * i)) 8)) := by
  unfold directMask
  rw [bit_maskOf, Bool.eq_iff_iff, List.contains_iff_mem, List.mem_filter, decide_eq_true_iff, directOf, ne_eq,
    maskOf_eq_zero, List.filter_eq_nil_iff, List.any_eq_true]
  simp [hk]

/-! ## Polls and frames (R483 to R487) -/

/-- The stops that two of the three votes name. -/
noncomputable def votedStops (s : State) : Nat :=
  (netVote s &&& ruleVote s) ||| (netVote s &&& s.grd.prevVote) ||| (ruleVote s &&& s.grd.prevVote)

/-- The stops that an evaluation has latched, before it keeps the votes. -/
noncomputable def votesStop (s : State) : State := assertStops s (votedStops s)
  (fun k => { votes := ofBool (bit (netVote s) k) + 2 * ofBool (bit (ruleVote s) k) + 4 * ofBool (bit s.grd.prevVote k) })

theorem evaluate_stopped {s : State} {k : Nat} (hk : k < 4) : bit (evaluate s).grd.stopped k =
    (bit s.grd.stopped k || ((bit (netVote s) k && bit (ruleVote s) k) ||
      (bit (netVote s) k && bit s.grd.prevVote k) || (bit (ruleVote s) k && bit s.grd.prevVote k))) := by
  have hstopped : (evaluate s).grd.stopped = (votesStop s).grd.stopped := rfl
  rw [hstopped, votesStop, assertStops_stopped, bit_stopped_or hk]
  simp only [votedStops, bit_or, bit_and]

theorem evaluate_onlyGrd (s : State) : OnlyGrd s (evaluate s) :=
  (assertStops_onlyGrd s (votedStops s) _).trans (t := votesStop s) rfl

/-- What a frame that is accepted leaves, before its evaluation. -/
noncomputable def frameAccepted (s : State) (n : Nat) (d : Bytes) : State :=
  (withGrd s { s.grd with
    frames := min (s.grd.frames + 1) (2 ^ 32 - 1),
    readings := (List.range 4).foldl (fun t i => tset t (4 * n + i) (field d (2 * i) 2)) s.grd.readings,
    heard := insertNum n s.grd.heard, stale := s.grd.stale &&& (15 - 2 ^ n) })

theorem frameAccepted_readings (s : State) (n : Nat) (d : Bytes) :
    (∀ i < 4, tget (frameAccepted s n d).grd.readings 0 (4 * n + i) = field d (2 * i) 2) ∧
    ∀ j, j < 4 * n ∨ 4 * n + 4 ≤ j → tget (frameAccepted s n d).grd.readings 0 j = tget s.grd.readings 0 j := by
  have hfold : (frameAccepted s n d).grd.readings =
      ((List.range 4).map (4 * n + ·)).foldl (fun t j => tset t j (field d (2 * (j - 4 * n)) 2)) s.grd.readings := by
    simp [frameAccepted, List.foldl_map]
  rw [hfold]
  constructor
  · intro i hi
    rw [tget_foldl_tset, if_pos (List.mem_map.mpr ⟨i, List.mem_range.mpr hi, rfl⟩), Nat.add_sub_cancel_left]
  · intro j hj
    rw [tget_foldl_tset, if_neg]
    intro hmem
    obtain ⟨i, hi, rfl⟩ := List.mem_map.mp hmem
    exact hj.elim (Nat.not_lt.mpr (Nat.le_add_right ..)) (Nat.not_le.mpr (Nat.add_lt_add_left (List.mem_range.mp hi) _))

/-- Guardrail runs and the slot is on, so that what is left decides. -/
theorem not_idle {b c : Bool} {p : Prop} (hb : b = true) (hc : c = true) (hp : ¬ p) : ¬ ((!b) = true ∨ (!c) = true ∨ p) := by
  subst hb hc
  exact fun h => h.elim Bool.false_ne_true (Or.elim · Bool.false_ne_true hp)

section
variable {s : State} {n : Nat}

theorem execSensorFrame_unpolled {d : Bytes} (hidle : grdOn s = false ∨ slotOn s n = false ∨ s.grd.bus ≠ some n) :
    execSensorFrame n d s = .next s :=
  congrArg Host.Outcome.next (if_pos (hidle.imp (congrArg not) (Or.imp_left (congrArg not))))

variable (hon : grdOn s = true) (hslot : slotOn s n = true)
include hon hslot

theorem execSensorFrame_discarded {d : Bytes} (hbus : s.grd.bus = some n) (hcrc : bit (slotReg s n) 30 = true)
    (hbad : crc8 (d.take 8) ≠ field d 8 1) : execSensorFrame n d s =
      .next (freeBus (withGrd s { s.grd with crcErr := min (s.grd.crcErr + 1) (2 ^ 32 - 1) })) :=
  congrArg Host.Outcome.next ((if_neg (not_idle hon hslot (not_not.mpr hbus))).trans (if_pos ⟨hcrc, hbad⟩))

theorem execSensorFrame_accepted {d : Bytes} (hbus : s.grd.bus = some n)
    (hgood : bit (slotReg s n) 30 = false ∨ crc8 (d.take 8) = field d 8 1) :
    execSensorFrame n d s = .next (freeBus (evaluate (frameAccepted s n d))) :=
  congrArg Host.Outcome.next ((if_neg (not_idle hon hslot (not_not.mpr hbus))).trans (if_neg fun h =>
    hgood.elim (Bool.eq_false_iff.mp · h.1) h.2))

end

/-! ## Faults (R498) and DOCK_N (R623, R626) -/

/-- The four stops that a fault latches. -/
noncomputable def faultStops (s : State) : State := assertStops s 15 (fun _ => { fault := true })

theorem grdFault_eq (s : State) : grdFault s = faultStops s ∧ s.grd.fault = true ∨
    grdFault s = emitDev { faultStops s with grd := { (faultStops s).grd with fault := true } } .grdFault [] := by
  by_cases hfault : s.grd.fault
  · exact .inl ⟨if_pos hfault, hfault⟩
  · exact .inr (if_neg hfault)

theorem bit_fifteen {k : Nat} (hk : k < 4) : bit 15 k = true := by
  interval_cases k <;> rfl

theorem faultStops_stopped {s : State} {k : Nat} (hk : k < 4) : bit (faultStops s).grd.stopped k = true := by
  unfold faultStops
  rw [assertStops_stopped]
  exact bit_stopped hk (bit_fifteen hk)

theorem faultStops_causes {s : State} {k : Nat} (hk : k < 4) (hnew : bit s.grd.stopped k = false) :
    (tget (faultStops s).grd.causes {} k).fault = true :=
  congrArg GrdCause.fault (assertStops_causes (fun _ => ({ fault := true } : GrdCause)) hk (bit_fifteen hk) hnew)

theorem grdFault_keeps (s : State) :
    (grdFault s).grd.stopped = (faultStops s).grd.stopped ∧ (grdFault s).grd.causes = (faultStops s).grd.causes := by
  rcases grdFault_eq s with ⟨heq, -⟩ | heq
  · rw [heq]
    exact ⟨rfl, rfl⟩
  · rw [heq, emitDev_grd]
    exact ⟨rfl, rfl⟩

theorem grdFault_fault (s : State) : (grdFault s).grd.fault = true := by
  rcases grdFault_eq s with ⟨heq, hfault⟩ | heq
  · obtain ⟨_, _, hgrd⟩ := assertStops_grd s 15 (fun _ => { fault := true })
    rw [heq]
    exact (congrArg Grd.fault hgrd).trans hfault
  · rw [heq, emitDev_grd]

theorem grdFault_onlyGrd (s : State) : OnlyGrd s (grdFault s) := by
  have hstops : OnlyGrd s (faultStops s) := assertStops_onlyGrd ..
  rcases grdFault_eq s with ⟨heq, -⟩ | heq
  · rwa [heq]
  · rw [heq]
    exact (hstops.trans (u := { faultStops s with grd := { (faultStops s).grd with fault := true } }) rfl).trans
      (emitDev_onlyGrd ..)

/-- An entry in progress that is aborted is gone. -/
theorem abortEntry_pwr (s : State) (cls id : Nat) :
    (abortEntry s cls id).pwr.entry = none ∧ (abortEntry s cls id).pwr.mode = s.pwr.mode := by
  unfold abortEntry
  split
  · next hentry => exact ⟨hentry, rfl⟩
  · dsimp only
    split
    · rw [replyD_pwr]
      exact ⟨rfl, rfl⟩
    · exact ⟨rfl, rfl⟩

theorem abortEntry_entry (s : State) (cls id : Nat) : (abortEntry s cls id).pwr.entry = none := (abortEntry_pwr s cls id).1

theorem abortEntry_mode (s : State) (cls id : Nat) : (abortEntry s cls id).pwr.mode = s.pwr.mode := (abortEntry_pwr s cls id).2

theorem abortEntry_grd (s : State) (cls id : Nat) : (abortEntry s cls id).grd = s.grd :=
  abortEntry_keeps (g := State.grd) (fun _ _ _ _ _ => rfl) s cls id

theorem wakeSource_awake {s : State} (hmode : s.pwr.mode ≠ .deep) : wakeSource s = s := by
  unfold wakeSource
  split
  · next hdeep => exact absurd hdeep hmode
  · rfl

theorem wakeSource_grd (s : State) : (wakeSource s).grd = s.grd := by
  unfold wakeSource
  split <;> rfl

theorem wakeSource_entry (s : State) : (wakeSource s).pwr.entry = s.pwr.entry := by
  unfold wakeSource
  split <;> rfl

theorem wakeSource_deep {s : State} (hmode : s.pwr.mode = .deep) : (wakeSource s).pwr.wake = true := by
  simp [wakeSource, hmode]

theorem execDockNEdge_level {s : State} {l : Bool} (hlevel : l = false ∨ s.grd.dockHigh = true) :
    execDockNEdge l s = .next (withGrd s { s.grd with dockHigh := l }) := by
  refine congrArg Host.Outcome.next (if_pos ?_)
  rcases hlevel with h | h <;> rw [h]
  · rfl
  · exact Bool.or_true _

/-- The state with DOCK_N high. -/
noncomputable def docked (s : State) : State := withGrd s { s.grd with dockHigh := true }

section
variable {s : State} (hdocked : s.grd.dockHigh = false)
include hdocked

theorem execDockNEdge_aborts {e : PwrEntry} (hentry : s.pwr.entry = some e) (hdeep : e.target = 3)
    (hnone : s.grd.deepOverride = false) : execDockNEdge true s = .next (wakeSource (abortEntry (docked s) 7 1)) := by
  unfold execDockNEdge
  rw [hdocked, hentry]
  exact congrArg (Host.Outcome.next ∘ wakeSource) (if_pos ⟨hdeep, congrArg not hnone⟩)

theorem execDockNEdge_keeps (hkept : ∀ e, s.pwr.entry = some e → ¬ (e.target = 3 ∧ (!s.grd.deepOverride) = true)) :
    execDockNEdge true s = .next (wakeSource (docked s)) := by
  unfold execDockNEdge
  rw [hdocked]
  cases hentry : s.pwr.entry with
  | none => rfl
  | some e => exact congrArg (Host.Outcome.next ∘ wakeSource) (if_neg (hkept e hentry))

end

/-! ## Each instruction that the stops hang on -/

theorem exec_sensorPoll_idle {s : State} {n : Nat} (hoff : grdOn s = false ∨ slotOn s n = false ∨ 4 ≤ n) :
    exec (.sensorPoll n) s = .next s :=
  congrArg Host.Outcome.next (if_pos (hoff.imp (congrArg not) (Or.imp_left (congrArg not))))

section
variable {s : State} {n : Nat} (hon : grdOn s = true) (hslot : slotOn s n = true) (hn : n < 4)
include hon hslot hn

theorem exec_sensorPoll_polls (hfree : s.grd.bus = none) :
    exec (.sensorPoll n) s = .next (withGrd s { s.grd with bus := some n }) := by
  refine congrArg Host.Outcome.next ((if_neg (not_idle hon hslot (Nat.not_le.mpr hn))).trans ?_)
  rw [hfree]

theorem exec_sensorPoll_waits {b : Nat} (hbusy : s.grd.bus = some b) (hb : b ≠ n) :
    exec (.sensorPoll n) s = .next (withGrd s { s.grd with waiting := insertNum n s.grd.waiting }) := by
  refine congrArg Host.Outcome.next ((if_neg (not_idle hon hslot (Nat.not_le.mpr hn))).trans ?_)
  rw [hbusy]
  exact if_neg hb

end

/-- What an active direct input does while Guardrail runs. -/
noncomputable def directStops (s : State) (l : Nat) : State :=
  assertStops (withGrd s { s.grd with levels := l % 256 }) (directMask s (l % 256))
    (fun k => { direct := directOf s (l % 256) k })

theorem directStops_levels (s : State) (l : Nat) : (directStops s l).grd.levels = l % 256 := by
  obtain ⟨_, _, hgrd⟩ := assertStops_grd (withGrd s { s.grd with levels := l % 256 }) (directMask s (l % 256))
    (fun k => { direct := directOf s (l % 256) k })
  exact congrArg Grd.levels hgrd

theorem directStops_stopped {s : State} {k : Nat} (l : Nat) (hk : k < 4) : bit (directStops s l).grd.stopped k =
    (bit s.grd.stopped k || (List.range 8).any (fun i =>
      bit (live s (0x0022_0040 + 4 * i)) k && (bit (l % 256) i == bit (live s (0x0022_0040 + 4 * i)) 8))) := by
  unfold directStops
  rw [assertStops_stopped, bit_stopped_or hk, bit_directMask hk]

/-- The slot that a frame has left stale. -/
noncomputable def staled (s : State) (n : Nat) : State := withGrd s { s.grd with stale := s.grd.stale ||| 2 ^ n }

/-- What a stale slot does. -/
noncomputable def staleStops (s : State) (n : Nat) : State :=
  emitDev (assertStops (staled s n) (live s (0x0022_008C + 0x10 * n) % 16) (fun _ => { stale := 2 ^ n })) .grdStale (leBytes 1 n)

theorem staleStops_stopped {s : State} {k : Nat} (n : Nat) (hk : k < 4) : bit (staleStops s n).grd.stopped k =
    (bit s.grd.stopped k || bit (live s (0x0022_008C + 0x10 * n)) k) := by
  unfold staleStops
  rw [emitDev_grd, assertStops_stopped, bit_stopped_or hk, bit_mod_sixteen _ _ hk]
  rfl

theorem staleStops_stale (s : State) (n k : Nat) : bit (staleStops s n).grd.stale k = (bit s.grd.stale k || k == n) := by
  obtain ⟨_, _, hgrd⟩ := assertStops_grd (staled s n) (live s (0x0022_008C + 0x10 * n) % 16) (fun _ => { stale := 2 ^ n })
  unfold staleStops
  rw [emitDev_grd, hgrd]
  refine (bit_or ..).trans (congrArg _ ?_)
  rw [bit, Nat.testBit_two_pow, Bool.eq_iff_iff]
  exact decide_eq_true_iff.trans (eq_comm.trans beq_iff_eq.symm)

theorem staleStops_onlyGrd (s : State) (n : Nat) : OnlyGrd s (staleStops s n) :=
  (OnlyGrd.trans (t := staled s n) rfl (assertStops_onlyGrd ..)).trans (emitDev_onlyGrd ..)

theorem exec_grdStale_stops {s : State} {n : Nat} (hon : grdOn s = true) (hn : n < 4) (hslot : slotOn s n = true) :
    exec (.grdStale n) s = .next (staleStops s n) :=
  congrArg Host.Outcome.next (if_neg fun h => not_idle hon hslot (Nat.not_le.mpr hn) (h.imp_right Or.symm))

theorem exec_fault {s : State} {i : Instr} (hi : i ∈ [Instr.grdParityCheck false, .gclkGap]) (hmode : s.pwr.mode = .awake) :
    exec i s = .next (grdFault s) := by
  rcases List.mem_cons.mp hi with rfl | hi
  · exact congrArg Host.Outcome.next (if_pos (decide_eq_true hmode))
  · obtain rfl := List.mem_singleton.mp hi
    exact congrArg Host.Outcome.next (if_pos hmode)

theorem exec_fault_asleep {s : State} {i : Instr} (hi : i ∈ [Instr.grdParityCheck false, .gclkGap])
    (hmode : s.pwr.mode ≠ .awake) : exec i s = .next s := by
  rcases List.mem_cons.mp hi with rfl | hi
  · exact congrArg Host.Outcome.next (if_neg fun h => hmode (of_decide_eq_true h))
  · obtain rfl := List.mem_singleton.mp hi
    exact congrArg Host.Outcome.next (if_neg hmode)

theorem exec_heartbeat_still {s : State} (hstill : grdOn s = false ∨ s.grd.fault = true) : exec .heartbeatToggle s = .next s := by
  refine congrArg Host.Outcome.next (if_neg ?_)
  rcases hstill with h | h <;> rw [h]
  · exact Bool.false_ne_true
  · rw [Bool.not_true, Bool.and_false]
    exact Bool.false_ne_true

/-- A rising edge of DOCK_N wakes the device and aborts an entry to DEEP that no override keeps. -/
theorem exec_dockNEdge_rises {s : State} (hdocked : s.grd.dockHigh = false) : ∃ t, exec (.dockNEdge true) s = .next t ∧
    t.grd.dockHigh = true ∧ (s.pwr.mode = .deep → t.pwr.wake = true) ∧
      (∀ e, s.pwr.entry = some e → e.target = 3 → s.grd.deepOverride = false → t.pwr.entry = none) ∧
      (∀ e, s.pwr.entry = some e → e.target ≠ 3 ∨ s.grd.deepOverride = true → t.pwr.entry = some e) ∧
      (s.pwr.entry = none → s.pwr.mode ≠ .deep → t = withGrd s { s.grd with dockHigh := true }) := by
  by_cases hrefused : ∃ e, s.pwr.entry = some e ∧ e.target = 3 ∧ s.grd.deepOverride = false
  · obtain ⟨e, hentry, hdeep, hnone⟩ := hrefused
    have hdock := congrArg Grd.dockHigh ((wakeSource_grd (abortEntry (docked s) 7 1)).trans (abortEntry_grd ..))
    have hgone := (wakeSource_entry (abortEntry (docked s) 7 1)).trans (abortEntry_entry ..)
    refine ⟨_, execDockNEdge_aborts hdocked hentry hdeep hnone, hdock, fun hmode => wakeSource_deep ((abortEntry_mode ..).trans hmode),
      fun _ _ _ _ => hgone, fun e' he' hkept => ?_, fun hno => nomatch hentry.symm.trans hno⟩
    cases hentry.symm.trans he'
    exact hkept.elim (absurd hdeep) fun hover => nomatch hnone.symm.trans hover
  · have hdock := congrArg Grd.dockHigh (wakeSource_grd (docked s))
    refine ⟨_, execDockNEdge_keeps hdocked fun e he h => hrefused ⟨e, he, h.1, Bool.not_eq_true' _ ▸ h.2⟩, hdock,
      fun hmode => wakeSource_deep hmode, fun e he hdeep hnone => absurd ⟨e, he, hdeep, hnone⟩ hrefused,
      fun _ he _ => (wakeSource_entry (docked s)).trans he, fun _ hmode => wakeSource_awake hmode⟩

/-- Settles O37: polls, frames and their evaluation, the direct and stale stops, and the faults and edges. -/
theorem guardrailStops : Obligations.GuardrailStops :=
  ⟨⟨fun n _ => ⟨exec_sensorPoll_idle, fun hon hslot hn => ⟨exec_sensorPoll_polls hon hslot hn, fun _ hbusy hb =>
        ⟨_, exec_sensorPoll_waits hon hslot hn hbusy hb, (mem_insertNum n n _).mpr (.inl rfl),
          fun m hm => (mem_insertNum n m _).trans (or_iff_right hm), rfl⟩⟩⟩,
    fun n d s => ⟨execSensorFrame_unpolled, fun hon hslot hbus =>
      ⟨fun hcrc hbad => ⟨_, execSensorFrame_discarded hon hslot hbus hcrc hbad, rfl, rfl, rfl, rfl, rfl⟩,
        fun hgood => ⟨frameAccepted s n d, evaluate (frameAccepted s n d), execSensorFrame_accepted hon hslot hbus hgood,
          (frameAccepted_readings s n d).1, (frameAccepted_readings s n d).2, (mem_insertNum n n _).mpr (.inl rfl), rfl,
          fun _ hk => evaluate_stopped hk, rfl, evaluate_onlyGrd _⟩⟩⟩,
    fun l s => ⟨fun hoff => congrArg Host.Outcome.next (if_neg (Bool.eq_false_iff.mp hoff)), fun hon =>
      ⟨directStops s l, congrArg Host.Outcome.next (if_pos hon), directStops_levels s l, fun _ hk => directStops_stopped l hk,
        OnlyGrd.trans (t := withGrd s { s.grd with levels := l % 256 }) rfl (assertStops_onlyGrd ..)⟩⟩,
    fun n s => ⟨fun hoff => congrArg Host.Outcome.next (if_pos (hoff.imp (congrArg not) (Or.imp_right (congrArg not)))),
      fun hon hn hslot => ⟨staleStops s n, exec_grdStale_stops hon hn hslot,
        fun _ hk => staleStops_stopped n hk, staleStops_stale s n, staleStops_onlyGrd s n⟩⟩⟩,
    fun s => ⟨fun hon hok => congrArg Host.Outcome.next (if_pos (by rw [hon, hok]; rfl)), exec_heartbeat_still,
      fun _ hi => ⟨exec_fault_asleep hi, fun hmode => ⟨grdFault s, exec_fault hi hmode, grdFault_fault s,
        fun _ hk => (grdFault_keeps s).1 ▸ faultStops_stopped hk,
        fun _ hk hnew => (grdFault_keeps s).2 ▸ faultStops_causes hk hnew, grdFault_onlyGrd s⟩⟩,
      rfl, fun _ => execDockNEdge_level, exec_dockNEdge_rises⟩⟩

end Sys2Proof.Machine

/-!
PROOFS. The sessions of the Kraros layer (R518 to R521): a HELLO OPEN, the proof, and the end of a session.
-/

namespace Sys2Proof.Machine

/-! ## The Kraros layer alone -/

theorem OnlyNet.refl (s : State) : OnlyNet s s := rfl

theorem deliver_onlyNet (s : State) (sid : Nat) (p : Packet) (lane : Option Nat) : OnlyNet s (deliver s sid p lane) := by
  unfold OnlyNet
  rw [deliver_frame]

/-- The session whose next outbound entry has number `k`. -/
noncomputable def numbered (e : Session) (k : Nat) : Session := { e with nextOut := k }

/-- The packet as it leaves for a session, with link number `k`. -/
noncomputable def linked (p : Packet) (sid k : Nat) : Packet := { p with sess := sid, link := k }

/-- The device when a packet has left for a session of the host or of management. -/
noncomputable def deliveredHost (s : State) (sid : Nat) (e : Session) (p : Packet) (lane : Option Nat) : State :=
  withNet s { s.net with
    sessions := tset s.net.sessions sid (numbered e ((e.nextOut + 1) % 2 ^ 32)),
    outbound := s.net.outbound ++ [{ pkt := linked p sid e.nextOut, lane := lane }],
    sent := { linked p sid e.nextOut with wire := wireOf s sid } :: s.net.sent }

theorem deliver_of_none {s : State} {sid : Nat} (h : tget? s.net.sessions sid = none) (p : Packet) (lane : Option Nat) :
    deliver s sid p lane = s := by
  unfold deliver
  rw [h]

theorem deliver_of_some {s : State} {sid : Nat} {e : Session} (hsess : tget? s.net.sessions sid = some e) (p : Packet)
    (lane : Option Nat) :
    deliver s sid p lane = if e.peer.isSome then sendPkt s (linked p sid 0) else deliveredHost s sid e p lane := by
  unfold deliver
  rw [hsess]
  rfl

theorem deliver_session_self {s : State} {sid : Nat} {e : Session} (hsess : tget? s.net.sessions sid = some e) (p : Packet)
    (lane : Option Nat) : ∃ k, tget? (deliver s sid p lane).net.sessions sid = some (numbered e k) := by
  rw [deliver_of_some hsess]
  exact iteInduction (motive := fun t : State => ∃ k, tget? t.net.sessions sid = some (numbered e k))
    (fun _ => ⟨e.nextOut, hsess⟩) (fun _ => ⟨_, tget?_tset_self ..⟩)

theorem mem_deliver_sent {s : State} {q : Packet} (hmem : q ∈ s.net.sent) (sid : Nat) (p : Packet) (lane : Option Nat) :
    q ∈ (deliver s sid p lane).net.sent := by
  rcases Option.eq_none_or_eq_some (tget? s.net.sessions sid) with h | ⟨e, h⟩
  · rw [deliver_of_none h]
    exact hmem
  · rw [deliver_of_some h]
    exact iteInduction (motive := fun t : State => q ∈ t.net.sent)
      (fun _ => List.mem_cons_of_mem _ hmem) (fun _ => List.mem_cons_of_mem _ hmem)

/-- The packet with the address that it leaves with. -/
noncomputable def wired (p : Packet) (w : Option Wire) : Packet := { p with wire := w }

theorem mem_deliver_self {s : State} {sid : Nat} {e : Session} (hsess : tget? s.net.sessions sid = some e) {p : Packet}
    (hwire : p.wire = none) (lane : Option Nat) :
    ∃ k, wired (linked p sid k) (wireOf s sid) ∈ (deliver s sid p lane).net.sent := by
  rw [deliver_of_some hsess]
  exact iteInduction (motive := fun t : State => ∃ k, wired (linked p sid k) (wireOf s sid) ∈ t.net.sent)
    (fun _ => ⟨0, List.mem_cons.mpr (.inl (congrArg (fun w => wired (linked p sid 0) (w.orElse fun _ => wireOf s sid)) hwire).symm)⟩)
    (fun _ => ⟨e.nextOut, List.mem_cons_self⟩)

/-- From `s` to `t` packets are delivered to one session: it lives on with another outbound number, no packet sent is
taken back, and no other session changes. -/
structure DeliveredTo (sid : Nat) (s t : State) : Prop where
  self : ∀ e, tget? s.net.sessions sid = some e → ∃ k, tget? t.net.sessions sid = some (numbered e k)
  others : ∀ m, m ≠ sid → tget? t.net.sessions m = tget? s.net.sessions m
  sent : ∀ q ∈ s.net.sent, q ∈ t.net.sent
  next : t.net.nextSession = s.net.nextSession
  only : OnlyNet s t

theorem DeliveredTo.trans {sid : Nat} {s t u : State} (hst : DeliveredTo sid s t) (htu : DeliveredTo sid t u) :
    DeliveredTo sid s u where
  self e he := (hst.self e he).elim fun k hk => (htu.self (numbered e k) hk).imp fun _ hj => hj
  others m hm := (htu.others m hm).trans (hst.others m hm)
  sent q hq := htu.sent q (hst.sent q hq)
  next := htu.next.trans hst.next
  only := hst.only.trans htu.only

theorem deliveredTo_deliver (s : State) (sid : Nat) (p : Packet) : DeliveredTo sid s (deliver s sid p none) where
  self _ he := deliver_session_self he p none
  others _ hm := deliver_session_ne _ _ _ _ _ hm
  sent _ hq := mem_deliver_sent hq sid p none
  next := by rw [deliver_net]
  only := deliver_onlyNet ..

theorem deliveredTo_deliverHeld (s : State) (sid : Nat) (host : Bool) : DeliveredTo sid s (deliverHeld s sid host) :=
  List.foldlRecOn (motive := DeliveredTo sid s) _ _
    ⟨fun e he => ⟨e.nextOut, he⟩, fun _ _ => rfl, fun _ hq => hq, rfl, rfl⟩
    fun _ ha p _ => ha.trans (deliveredTo_deliver _ sid p)

/-! ## HELLO OPEN (R518, R534) -/

/-- The session that a HELLO OPEN creates. -/
noncomputable def openedSession (s : State) (rq : Req) (mp : Nat) (ev : Bool) : Session :=
  { iface := rq.iface, src := rq.src, sport := rq.sport, port := rq.port, events := ev, openSeq := rq.seq,
    remembered := [rq.seq], highest := some rq.seq, maxPayload := mp, challenge := freeBytes s 32 }

/-- The state in which a HELLO OPEN has created its session and not yet replied. -/
noncomputable def sessionOpened (s : State) (rq : Req) (mp : Nat) (ev : Bool) : State :=
  let u := finishCmd s rq.sess rq.seq
  draw (withNet u { u.net with
    sessions := tmod (tset u.net.sessions s.net.nextSession
        { iface := rq.iface, src := rq.src, sport := rq.sport, port := rq.port, events := ev, openSeq := rq.seq,
          remembered := [rq.seq], highest := some rq.seq }) s.net.nextSession
      (fun e => { e with maxPayload := mp, challenge := freeBytes s 32 }),
    nextSession := s.net.nextSession + 1 })

/-- What the reply to a HELLO OPEN carries. -/
noncomputable def openReply (s : State) (rq : Req) (mp : Nat) : Packet :=
  { cls := .rsp, op := 0x0001, seq := rq.seq,
    payload := leBytes 1 rq.port ++ leBytes 1 (ofBool (authRequired s rq.iface)) ++ leBytes 2 mp ++ leBytes 4 s.rst.boots ++
      freeBytes s 32 }

theorem tget?_sessionOpened (s : State) (rq : Req) (mp : Nat) (ev : Bool) :
    tget? (sessionOpened s rq mp ev).net.sessions s.net.nextSession = some (openedSession s rq mp ev) := by
  simp only [sessionOpened, draw_net, tget?_tmod_self, tget?_tset_self, Option.map_some]
  rfl

theorem tget?_sessionOpened_ne {s : State} {rq : Req} {m : Nat} (mp : Nat) (ev : Bool) (hnew : m ≠ s.net.nextSession)
    (hown : m ≠ rq.sess) : tget? (sessionOpened s rq mp ev).net.sessions m = tget? s.net.sessions m := by
  simp only [sessionOpened, draw_net]
  rw [tget?_tmod_ne _ _ _ _ hnew, tget?_tset_ne _ _ _ _ hnew]
  exact tget?_tmod_ne _ _ _ _ hown

section
variable {s : State} {rq : Req} (hpeer : rq.iface = .host → (peerOf s rq.port rq.src).filter (fun i => ownIndex s < i) = none)
include hpeer

theorem openPeer_none : (if rq.iface = .host then (peerOf s rq.port rq.src).filter (fun i => ownIndex s < i) else none) = none := by
  split
  · next hhost => exact hpeer hhost
  · rfl

theorem execHelloOpen_full (hfull : sessionLimit rq.iface ≤ sessionCount s rq.iface) (mp : Nat) (ev : Bool) :
    execHelloOpen rq mp ev s = .next (sendPkt (finishCmd s rq.sess rq.seq)
      { sess := rq.sess, cls := .rsp, op := 0x0001, seq := rq.seq, status := .busy, reason := .ethSessionsFull,
        wire := some (wireTo s rq.iface rq.port rq.src rq.sport) }) := by
  unfold execHelloOpen
  rw [openPeer_none hpeer]
  exact if_pos ⟨rfl, hfull⟩

/-- The state after a HELLO OPEN that creates a session: its reply and the events held for it are delivered. -/
noncomputable def helloOpened (s : State) (rq : Req) (mp : Nat) (ev : Bool) : State :=
  let t := deliver (replyMeter (sessionOpened s rq mp ev) rq.iface) s.net.nextSession (openReply s rq mp) none
  if ev && true then deliverHeld t s.net.nextSession (decide (rq.iface = .host)) else t

theorem execHelloOpen_opens (hroom : sessionCount s rq.iface < sessionLimit rq.iface) (mp : Nat) (ev : Bool) :
    execHelloOpen rq mp ev s = .next (helloOpened s rq mp ev) := by
  unfold execHelloOpen
  rw [openPeer_none hpeer]
  exact if_neg fun h => Nat.not_le.mpr hroom h.2

end

theorem deliveredTo_helloOpened (s : State) (rq : Req) (mp : Nat) (ev : Bool) : DeliveredTo s.net.nextSession
    (deliver (replyMeter (sessionOpened s rq mp ev) rq.iface) s.net.nextSession (openReply s rq mp) none)
    (helloOpened s rq mp ev) :=
  iteInduction (motive := DeliveredTo s.net.nextSession _) (fun _ => deliveredTo_deliverHeld ..)
    (fun _ => ⟨fun e he => ⟨e.nextOut, he⟩, fun _ _ => rfl, fun _ hq => hq, rfl, rfl⟩)

section
variable (s : State) (rq : Req) (mp : Nat) (ev : Bool)

theorem helloOpened_replied : ∃ p ∈ (helloOpened s rq mp ev).net.sent, p.cls = .rsp ∧ p.op = 0x0001 ∧ p.seq = rq.seq ∧
    p.sess = s.net.nextSession ∧ p.status = .ok ∧ p.payload.drop 8 = freeBytes s 32 := by
  obtain ⟨l, w, hw⟩ := deliver_sent (replyMeter (sessionOpened s rq mp ev) rq.iface) s.net.nextSession (openReply s rq mp)
    none (Option.isSome_iff_exists.mpr ⟨_, tget?_sessionOpened s rq mp ev⟩)
  exact ⟨_, (deliveredTo_helloOpened s rq mp ev).sent _ (List.mem_of_head? hw), rfl, rfl, rfl, rfl, rfl, rfl⟩

/-- From the state that has created the session, with the reply's meters. -/
theorem deliveredTo_sessionOpened : DeliveredTo s.net.nextSession (replyMeter (sessionOpened s rq mp ev) rq.iface)
    (helloOpened s rq mp ev) :=
  (deliveredTo_deliver ..).trans (deliveredTo_helloOpened s rq mp ev)

theorem helloOpened_session : ∃ k, tget? (helloOpened s rq mp ev).net.sessions s.net.nextSession =
    some (numbered (openedSession s rq mp ev) k) :=
  (deliveredTo_sessionOpened s rq mp ev).self _ (tget?_sessionOpened s rq mp ev)

end

/-! ## The end of a session (R519, R521) -/

theorem OnlyNet.ending {s t : State} (h : OnlyNet s t) (sid : Nat) :
    OnlyNet { s with lanes := s.lanes.map (fun e => (e.1, laneDetach sid e.2)) } (endSession t sid) :=
  congrArg (endSession · sid) h

theorem endAnySession_ends {s : State} {sid : Nat} {e : Session} (hsess : tget? s.net.sessions sid = some e)
    (hpeer : e.peer = none) : endAnySession s sid = endSession s sid := by
  unfold endAnySession
  rw [hsess, Option.bind_some, hpeer]

section
variable {s : State} {rq : Req} {e : Session} (hsess : tget? s.net.sessions rq.sess = some e) (hpeer : e.peer = none)
include hsess

theorem endSession_replied (st : Status) (r : Reason) : Replied rq 0x0001 0 st r [] (endSession (replyD s rq 0x0001 st r []) rq.sess) :=
  replyD_replied s rq 0x0001 st r [] (Option.isSome_iff_exists.mpr ⟨e, hsess⟩)

include hpeer

/-- A reply and then the end of its session: the session is gone, and the reply is the last packet sent. -/
theorem endAnySession_replied (st : Status) (r : Reason) :
    endAnySession (replyD s rq 0x0001 st r []) rq.sess = endSession (replyD s rq 0x0001 st r []) rq.sess := by
  obtain ⟨x, hx, -, -, -, -, hxpeer, -⟩ := replyAs_session s rq 0x0001 0 st r [] e hsess
  exact endAnySession_ends hx (hxpeer.trans hpeer)

theorem execHelloProve_proves {k g : Bytes} (hgood : ((credentials s e.iface).contains k && Config.mldsaVerify k e.challenge g) = true) :
    execHelloProve rq k g s = .next (replyD (withNet s { s.net with
      sessions := tset s.net.sessions rq.sess { e with proved := true } }) rq 0x0001 .ok .none []) := by
  unfold execHelloProve
  rw [hsess]
  refine (if_pos (by unfold provableKeys; rw [hpeer]; exact hgood)).trans ?_
  rw [hpeer]

theorem execHelloProve_ends {k g : Bytes} (hbad : ((credentials s e.iface).contains k && Config.mldsaVerify k e.challenge g) = false) :
    execHelloProve rq k g s = .next (endSession (replyD s rq 0x0001 .auth .ethAuth []) rq.sess) := by
  unfold execHelloProve
  rw [hsess]
  refine (if_neg (by unfold provableKeys; rw [hpeer, hbad]; exact Bool.false_ne_true)).trans ?_
  rw [endAnySession_replied hsess hpeer]

end

theorem endSession_session_ne (s : State) (rq : Req) (st : Status) (r : Reason) (sid : Nat) (hsid : sid ≠ rq.sess) :
    tget? (endSession (replyD s rq 0x0001 st r []) rq.sess).net.sessions sid = tget? s.net.sessions sid :=
  (tget?_terase_ne _ _ _ hsid).trans (replyAs_session_ne _ _ _ _ _ _ _ _ hsid)

theorem freeBytes_length (s : State) (n : Nat) : (freeBytes s n).length = n :=
  (List.length_map ..).trans List.length_range

/-- Settles O1: an OPEN by what its delivered reply leaves, a proof by its check, and the ends of a session. -/
theorem sessionsOpenProveAndEnd : Obligations.SessionsOpenProveAndEnd :=
  ⟨fun rq mp ev s hpeer => ⟨fun hroom => (helloOpened_session s rq mp ev).elim fun _ hk => ⟨_, _, execHelloOpen_opens hpeer hroom mp ev,
        hk, rfl, rfl, rfl, rfl, rfl, rfl, rfl, rfl, freeBytes_length s 32, rfl, helloOpened_replied s rq mp ev,
        (deliveredTo_sessionOpened s rq mp ev).next, fun m hnew hown =>
          ((deliveredTo_sessionOpened s rq mp ev).others m hnew).trans (tget?_sessionOpened_ne mp ev hnew hown),
        OnlyNet.trans (t := replyMeter (sessionOpened s rq mp ev) rq.iface) rfl (deliveredTo_sessionOpened s rq mp ev).only⟩,
      fun hfull => execHelloOpen_full hpeer hfull mp ev⟩,
    fun rq _ _ s _ hsess hpeer => ⟨fun hgood => answered_replyD (execHelloProve_proves hsess hpeer hgood)
        (Option.isSome_iff_exists.mpr ⟨_, tget?_tset_self _ _ _⟩),
      fun hbad => ⟨_, execHelloProve_ends hsess hpeer hbad, tget?_terase_self _ _, endSession_replied hsess _ _,
        endSession_session_ne s rq _ _, (replyD_onlyNet ..).ending _⟩⟩,
    fun _ _ hlive => answered_replyD rfl hlive,
    fun rq s _ hsess hpeer => ⟨_, congrArg Host.Outcome.next (endAnySession_replied hsess hpeer .ok .none), tget?_terase_self _ _,
      (endSession_gone ..).2, endSession_replied hsess _ _, endSession_session_ne s rq _ _, (replyD_onlyNet ..).ending _⟩,
    fun _ _ _ hsess hpeer => ⟨_, congrArg Host.Outcome.next (endAnySession_ends hsess hpeer), tget?_terase_self _ _, rfl,
      fun _ hm => tget?_terase_ne _ _ _ hm, rfl⟩⟩

end Sys2Proof.Machine

/-!
PROOFS. Device and register reads (R534, R535).
-/

namespace Sys2Proof.Machine

/-! ## DEVICE_INFO (R534) -/

theorem deviceInfo_length (s : State) : (deviceInfo s).length = 88 := rfl

theorem deviceInfo_part (s : State) : field (deviceInfo s) 0 2 = 0x8230 := by
  have hread : field (deviceInfo s) 0 2 = leNat (leBytes 2 0x8230) := rfl
  exact hread.trans ((Ibc.leNat_leBytes ..).trans (Nat.mod_eq_of_lt (by decide)))

theorem deviceInfo_revision (s : State) : field (deviceInfo s) 2 1 = 0xB0 := by
  have hread : field (deviceInfo s) 2 1 = leNat (leBytes 1 0xB0) := rfl
  exact hread.trans ((Ibc.leNat_leBytes ..).trans (Nat.mod_eq_of_lt (by decide)))

theorem deviceInfo_role (s : State) : field (deviceInfo s) 3 1 = bits (live s 0x0023_0410) 31 30 := by
  have hread : field (deviceInfo s) 3 1 = leNat (leBytes 1 (bits (live s 0x0023_0410) 31 30)) := rfl
  exact hread.trans ((Ibc.leNat_leBytes ..).trans (Nat.mod_eq_of_lt ((Nat.mod_lt _ (by decide)).trans (by decide : 4 < 256))))

/-! ## REG_READ (R535) -/

/-- What a register read finds at an address: nothing where it may not be read or is no register. -/
noncomputable def readable (s : State) (rq : Req) (a : Nat) : Option Nat := if mayRead s rq a then regView s a else none

section
variable {s : State} {rq : Req} {a n : Nat}

theorem execRegRead_count (hcount : n = 0 ∨ 256 < n) :
    execRegRead rq a n s = .next (replyD s rq 0x0010 .malformed .ethParam []) :=
  congrArg Host.Outcome.next (if_pos hcount)

theorem execRegRead_counted (hcount : ¬ (n = 0 ∨ 256 < n)) : execRegRead rq a n s = .next (
    if ((List.range n).map (fun k => readable s rq (a + 4 * k))).all Option.isSome then
      replyD s rq 0x0010 .ok .none (((List.range n).map (fun k => readable s rq (a + 4 * k))).flatMap (fun v => leBytes 4 (v.getD 0)))
    else replyD s rq 0x0010 .refused .ethRegAccess []) := by
  simp only [execRegRead, if_neg hcount, List.map_map]
  rfl

theorem execRegRead_reads {vs : List Nat} (hsome : 1 ≤ n) (hmost : n ≤ 256) (hlength : vs.length = n)
    (hread : ∀ k < n, mayRead s rq (a + 4 * k) = true ∧ regView s (a + 4 * k) = some (vs.getD k 0)) :
    execRegRead rq a n s = .next (replyD s rq 0x0010 .ok .none (vs.flatMap (leBytes 4))) := by
  have hvalues : (List.range n).map (fun k => readable s rq (a + 4 * k)) = vs.map some := by
    refine List.ext_getElem (by simp [hlength]) fun k hk _ => ?_
    obtain ⟨hmay, hview⟩ := hread k (by simpa using hk)
    have hin : k < vs.length := hlength ▸ (by simpa using hk)
    simp [readable, hmay, hview, hin]
  rw [execRegRead_counted (by omega), hvalues, if_pos (by simp), List.flatMap_map]
  rfl

theorem execRegRead_refused {k : Nat} (hk : k < n) (hmost : n ≤ 256)
    (hno : mayRead s rq (a + 4 * k) = false ∨ regView s (a + 4 * k) = none) :
    execRegRead rq a n s = .next (replyD s rq 0x0010 .refused .ethRegAccess []) := by
  have hnone : readable s rq (a + 4 * k) = none := by
    rcases hno with hmay | hview
    · simp [readable, hmay]
    · simp [readable, hview]
  rw [execRegRead_counted (by omega), if_neg]
  intro hall
  have hread := List.all_eq_true.mp hall _ (List.mem_map.mpr ⟨k, List.mem_range.mpr hk, rfl⟩)
  rw [hnone] at hread
  cases hread

end

/-- Settles O2: what a device read carries, and a register read by its count and by what it finds. -/
theorem registerReadsAnswer : Obligations.RegisterReadsAnswer := by
  intro rq a n s hlive
  refine ⟨answered_replyD rfl hlive, deviceInfo_part s, deviceInfo_revision s, deviceInfo_role s, deviceInfo_length s, fun vs hsome hmost hlength hread => ?_,
    fun k hk hmost hno => ?_, fun hcount => ?_⟩
  · exact answered_replyD (execRegRead_reads hsome hmost hlength hread) hlive
  · exact answered_replyD (execRegRead_refused hk hmost hno) hlive
  · exact answered_replyD (execRegRead_count hcount) hlive

end Sys2Proof.Machine

/-!
PROOFS. The door (R509, R512 to R514, R519 to R522, R525): the checks of a datagram for the device, in their order.
-/

namespace Sys2Proof.Machine

/-! ## What passes the switch -/

section
variable {s : State} {d : Datagram}

theorem execDatagramReceive_bridged (hfor : forDevice s d = false) : execDatagramReceive d s = .next (bridge s d) :=
  congrArg Host.Outcome.next (if_pos (congrArg not hfor))

variable (hfor : forDevice s d = true)
include hfor

theorem execDatagramReceive_answers (hkind : d.kind ≠ .udp) :
    execDatagramReceive d s = .next (answerFrame (bridge s d) d) :=
  congrArg Host.Outcome.next ((if_neg (Bool.eq_false_iff.mp (congrArg not hfor))).trans (if_neg hkind))

theorem execDatagramReceive_receives (hkind : d.kind = .udp) :
    execDatagramReceive d s = .next (receive (bridge s d) d) :=
  congrArg Host.Outcome.next ((if_neg (Bool.eq_false_iff.mp (congrArg not hfor))).trans (if_pos hkind))

end

/-! ## A datagram that the device hears (R514) -/

section
variable {m : State} {d : Datagram}

theorem receive_deaf (hdeaf : hears m d = false) : receive m d = m :=
  if_pos (congrArg not hdeaf)

theorem receive_dropped (hheard : hears m d = true) (hbad : d.checksumOk = false ∨ d.bytes.length < 24) : receive m d =
    (withNet m { m.net with rxDrop := min (m.net.rxDrop + 1) 0xFFFF_FFFF }) :=
  (if_neg (fun h => Bool.false_ne_true ((congrArg not hheard).symm.trans h))).trans (if_pos (hbad.imp_left (congrArg not)))

theorem receive_cmd {h : Header} (hheard : hears m d = true) (hgood : d.checksumOk = true) (hlong : 24 ≤ d.bytes.length)
    (hh : readHeader d.bytes = h) (hcls : h.cls = 0) (hpeer : d.iface = .host → peerOf m d.port d.src = none) :
    receive m d = receiveCmd m d h := by
  have hnone : (if d.iface = .host then peerOf m d.port d.src else none) = none := by
    split
    · next hhost => exact hpeer hhost
    · rfl
  have hkept : ¬ ((!d.checksumOk) = true ∨ d.bytes.length < 24) := by simp [hgood, hlong]
  subst hh
  refine (if_neg (by simp [hheard])).trans ((if_neg hkept).trans ((if_pos hcls).trans ?_))
  rw [hnone]

end

/-! ## The checks of a command (R514, R520) -/

/-- A command of no session: HELLO OPEN, or refused. -/
noncomputable def sessionlessCmd (m : State) (d : Datagram) (h : Header) (p : Bytes) (rq : Req) (c : Nat) : State :=
  if h.op = 1 ∧ 1 ≤ p.length ∧ field p 0 1 = 0 then openHello m d h rq p else doorReply m rq h.op c .auth .ethSession

/-- A command from a session's own source, in the state `u` that has taken its LINK: a duplicate, a stale one, or a new one. -/
noncomputable def sequencedCmd (u : State) (d : Datagram) (h : Header) (p : Bytes) (rq : Req) (c : Nat) (x : Session) : State :=
  if x.remembered.contains h.seq then duplicate u h.sess x h rq p
  else if 1 ≤ (x.highest.getD h.seq + 2 ^ 32 - h.seq) % 2 ^ 32 ∧ (x.highest.getD h.seq + 2 ^ 32 - h.seq) % 2 ^ 32 ≤ 2 ^ 31 then
    doorReply u rq h.op c .malformed .ethStaleSeq
  else admitCmd u d h rq (some x) p

/-- A command that names a session: one that the device does not have or that is another source's is refused. -/
noncomputable def sessionCmd (m : State) (d : Datagram) (h : Header) (p : Bytes) (rq : Req) (c : Nat) : Option Session → State
  | none => doorReply m rq h.op c .auth .ethSession
  | some x =>
    if x.iface ≠ d.iface ∨ x.src ≠ d.src ∨ x.sport ≠ d.sport then doorReply m rq h.op c .auth .ethSession
    else sequencedCmd (match x.peer with
      | some i => settleReceive m i h.link []
      | none => acknowledge m h.sess h.link) d h p rq c x

/-- A command whose VERSION and LEN hold. -/
noncomputable def formedCmd (m : State) (d : Datagram) (h : Header) (p : Bytes) (rq : Req) (c : Nat) : State :=
  if h.sess = 0 then sessionlessCmd m d h p rq c else sessionCmd m d h p rq c (tget? m.net.sessions h.sess)

section
variable {m : State} {d : Datagram} {h : Header} {p : Bytes} {rq : Req} {c : Nat}

theorem receiveCmd_eq (hp : d.bytes.drop 24 = p)
    (hrq : rq = { iface := d.iface, sess := h.sess, src := d.src, sport := d.sport, port := d.port, seq := h.seq, ctx := h.ctx })
    (hc : c = if isScoped h.op p then h.ctx else 0) : receiveCmd m d h =
      if h.version ≠ 1 then doorReply m rq h.op c .malformed .ethVersion
      else if h.len ≠ p.length ∨ 8192 < h.len then doorReply m rq h.op c .malformed .ethLength
      else formedCmd m d h p rq c := by
  subst hc hrq hp
  unfold receiveCmd formedCmd sessionCmd sequencedCmd
  rfl

theorem formedCmd_sessionless (hsess : h.sess = 0) (hno : h.op ≠ 1 ∨ p = [] ∨ field p 0 1 ≠ 0) :
    formedCmd m d h p rq c = doorReply m rq h.op c .auth .ethSession := by
  refine (if_pos hsess).trans (if_neg ?_)
  rintro ⟨hop, hsome, hmode⟩
  rcases hno with hne | hnil | hfield
  · exact hne hop
  · exact List.ne_nil_of_length_pos hsome hnil
  · exact hfield hmode

theorem formedCmd_opens (hsess : h.sess = 0) (hop : h.op = 1) (hsome : 1 ≤ p.length) (hmode : field p 0 1 = 0) :
    formedCmd m d h p rq c = openHello m d h rq p :=
  (if_pos hsess).trans (if_pos ⟨hop, hsome, hmode⟩)

theorem formedCmd_session (hsess : h.sess ≠ 0) {e : Option Session} (he : tget? m.net.sessions h.sess = e) :
    formedCmd m d h p rq c = sessionCmd m d h p rq c e :=
  (if_neg hsess).trans (congrArg _ he)

theorem sessionCmd_sequenced {x : Session} (hiface : x.iface = d.iface) (hsrc : x.src = d.src) (hsport : x.sport = d.sport)
    (hpeer : x.peer = none) :
    sessionCmd m d h p rq c (some x) = sequencedCmd (acknowledge m h.sess h.link) d h p rq c x := by
  refine (if_neg (by simp [hiface, hsrc, hsport])).trans ?_
  rw [hpeer]

variable {u : State} {x : Session}

theorem sequencedCmd_duplicate (hknown : h.seq ∈ x.remembered) :
    sequencedCmd u d h p rq c x = duplicate u h.sess x h rq p :=
  if_pos (List.contains_iff_mem.mpr hknown)

variable (hnew : h.seq ∉ x.remembered) {b : Nat} (hb : b = (x.highest.getD h.seq + 2 ^ 32 - h.seq) % 2 ^ 32)
include hnew hb

theorem sequencedCmd_stale (hfirst : 1 ≤ b) (hlast : b ≤ 2 ^ 31) :
    sequencedCmd u d h p rq c x = doorReply u rq h.op c .malformed .ethStaleSeq :=
  (if_neg (mt List.contains_iff_mem.mp hnew)).trans (if_pos (hb ▸ ⟨hfirst, hlast⟩))

theorem sequencedCmd_admits (hfresh : b = 0 ∨ 2 ^ 31 < b) : sequencedCmd u d h p rq c x = admitCmd u d h rq (some x) p := by
  refine (if_neg (mt List.contains_iff_mem.mp hnew)).trans (if_neg (hb ▸ fun ⟨hfirst, hlast⟩ => ?_))
  exact hfresh.elim (Nat.ne_of_gt hfirst) (Nat.not_lt.mpr hlast)

end

/-! ## Duplicates (R520) -/

section
variable {u : State} {x : Session} {h : Header}

theorem duplicate_inProgress (hrun : h.seq ∈ x.inProgress) {sid : Nat} {rq : Req} {p : Bytes} {c : Nat}
    (hc : c = if isScoped h.op p then rq.ctx else 0) : duplicate u sid x h rq p = interim u rq h.op c :=
  (if_pos (List.contains_iff_mem.mpr hrun)).trans (by rw [hc])

variable (hdone : h.seq ∉ x.inProgress)
include hdone

theorem duplicate_held {sid : Nat} {o : OutEntry} (hheld : heldReply u sid h.seq = some o) (rq : Req) (p : Bytes) :
    duplicate u sid x h rq p = sendPkt u o.pkt := by
  unfold duplicate
  rw [if_neg (mt List.contains_iff_mem.mp hdone), hheld]

theorem duplicate_acknowledged {sid : Nat} (hnone : heldReply u sid h.seq = none) (rq : Req) (p : Bytes) :
    duplicate u sid x h rq p = u := by
  unfold duplicate
  rw [if_neg (mt List.contains_iff_mem.mp hdone), hnone]

end

/-! ## Acceptance (R520, R522, R525) -/

/-- An acknowledgement frees outbound entries, and with them bytes of lanes. -/
theorem acknowledge_frame (s : State) (sid link : Nat) : ∃ lanes, acknowledge s sid link = { s with
    net := { s.net with outbound := s.net.outbound.filter (fun e => !((e.pkt.sess == sid) && ackedBy link e.pkt.link)) },
    lanes := lanes } := by
  have hfold (l : List OutEntry) (t : State) : ∃ lanes, l.foldl (fun a e => match e.lane with
      | some l => laneAck a l (laneBytes e)
      | none => a) t = { t with lanes := lanes } := by
    induction l generalizing t with
    | nil => exact ⟨t.lanes, rfl⟩
    | cons e l ih =>
      rw [List.foldl_cons]
      cases e.lane with
      | none => exact ih t
      | some n => exact ih (laneAck t n (laneBytes e))
  exact hfold _ _

theorem acknowledge_wireTo (s : State) (sid link : Nat) :
    wireTo (acknowledge s sid link) = wireTo s ∧ (acknowledge s sid link).pwr = s.pwr := by
  obtain ⟨lanes, hframe⟩ := acknowledge_frame s sid link
  rw [hframe]
  exact ⟨rfl, rfl⟩

/-- The state in which a command has its place in the queue and its number is remembered. -/
noncomputable def cmdQueued (s : State) (h : Header) (rq : Req) (p : Bytes) : State :=
  monSample (withNet s { s.net with
    queue := s.net.queue ++ [{ req := rq, op := h.op, payload := p, bad := h.bad }],
    sessions := tmod s.net.sessions rq.sess (fun x =>
      { x with remembered := (h.seq :: x.remembered).take 1024, highest := some h.seq, inProgress := h.seq :: x.inProgress }) })
    1 2 ((s.net.queue ++ [({ req := rq, op := h.op, payload := p, bad := h.bad } : QEntry)]).length : Int)

section
variable (s : State) (d : Datagram) (h : Header) (rq : Req) (p : Bytes)

theorem acceptCmd_eq : acceptCmd s d h rq p =
    if d.late || (isScoped h.op p && s.pwr.restoring.contains rq.ctx) then
      interim (cmdQueued s h rq p) rq h.op (if isScoped h.op p then rq.ctx else 0)
    else cmdQueued s h rq p := rfl

/-- What an acceptance and its interim reply both leave. -/
theorem acceptCmd_keeps {α : Type} (f : State → α)
    (hf : ∀ c, f (interim (cmdQueued s h rq p) rq h.op c) = f (cmdQueued s h rq p)) :
    f (acceptCmd s d h rq p) = f (cmdQueued s h rq p) :=
  (congrArg f (acceptCmd_eq s d h rq p)).trans ((apply_ite f _ _ _).trans (ite_eq_right_iff.mpr fun _ => hf _))

theorem acceptCmd_onlyNet : acceptCmd s d h rq p =
    { s with net := (acceptCmd s d h rq p).net, rel := (acceptCmd s d h rq p).rel } :=
  iteInduction (motive := fun t : State => t = { s with net := t.net, rel := t.rel }) (fun _ => rfl) (fun _ => rfl)

variable {d h rq p}

theorem acceptCmd_late (hlate : d.late = true) {c : Nat} (hc : c = if isScoped h.op p then rq.ctx else 0) :
    (acceptCmd s d h rq p).net.sent.head? = some
      { sess := rq.sess, cls := .rsp, op := h.op, seq := rq.seq, ctx := c, interim := true,
        wire := some (wireTo s rq.iface rq.port rq.src rq.sport) } :=
  (congrArg (fun t : State => t.net.sent.head?) ((acceptCmd_eq s d h rq p).trans (if_pos (by rw [hlate]; rfl)))).trans
    (by subst hc; rfl)

theorem acceptCmd_quick (hquick : d.late = false) (hrestored : isScoped h.op p = true → rq.ctx ∉ s.pwr.restoring) :
    (acceptCmd s d h rq p).net.sent = s.net.sent := by
  have hnow : ¬ (d.late || (isScoped h.op p && s.pwr.restoring.contains rq.ctx)) = true := by
    rw [hquick, Bool.false_or, Bool.and_eq_true, List.contains_iff_mem]
    exact fun hslow => hrestored hslow.1 hslow.2
  have hquiet : acceptCmd s d h rq p = cmdQueued s h rq p := (acceptCmd_eq s d h rq p).trans (if_neg hnow)
  rw [hquiet]
  rfl

end

section
variable {s : State} {d : Datagram} {h : Header} {rq : Req} {e : Option Session} {p : Bytes}

theorem admitCmd_refuses {st : Status} {r : Reason} (hrefused : doorChecks s e h rq p = some (st, r)) {c : Nat}
    (hc : c = if isScoped h.op p then rq.ctx else 0) : admitCmd s d h rq e p = doorReply s rq h.op c st r := by
  unfold admitCmd
  rw [hrefused, hc]

theorem admitCmd_accepts (hpassed : doorChecks s e h rq p = none) : admitCmd s d h rq e p = acceptCmd s d h rq p := by
  unfold admitCmd
  rw [hpassed]

theorem openHello_first (hnone : s.net.sessions = []) (hempty : s.net.queue = []) :
    openHello s d h rq p = admitCmd s d h rq none p := by
  unfold openHello
  rw [hnone, hempty]
  rfl

end

/-! ## The checks after the duplicate check (R514, R516, R525, R546) -/

section
variable {s : State} {e : Option Session} {h : Header} {rq : Req} {p : Bytes}

theorem not_not_true {b : Bool} (h : b = true) : ¬ (!b) = true := fun hnot => Bool.false_ne_true ((congrArg not h).symm.trans hnot)

theorem doorChecks_unknown (hop : h.op ∉ knownOps) : doorChecks s e h rq p = some (.malformed, .ethOpcode) :=
  if_pos (congrArg not (Bool.eq_false_iff.mpr (mt List.contains_iff_mem.mp hop)))

variable (hop : h.op ∈ knownOps)
include hop

theorem doorChecks_length (hlen : lengthOk h.op p = false) : doorChecks s e h rq p = some (.malformed, .ethLength) :=
  (if_neg (not_not_true (List.contains_iff_mem.mpr hop))).trans (if_pos (congrArg not hlen))

variable (hlen : lengthOk h.op p = true)
include hlen

/-- What is left when the opcode is known and the payload matches it. -/
theorem doorChecks_matched : doorChecks s e h rq p =
    if !acceptedOn rq.iface (e.any (fun x => x.peer.isSome)) h.op p then some (.refused, .ethPort)
    else if e.any (fun x => !authOk s x h.op) then some (.auth, .ethAuth)
    else if queueRoom rq.iface ≤ queueHeld s rq.iface then some (.busy, .ethQueueFull)
    else if isScoped h.op p && decide (32 ≤ contextHeld s rq.ctx) then some (.busy, .ethCtxLimit)
    else none :=
  (if_neg (not_not_true (List.contains_iff_mem.mpr hop))).trans (if_neg (not_not_true hlen))

theorem doorChecks_port (hport : acceptedOn rq.iface (e.any (fun x => x.peer.isSome)) h.op p = false) :
    doorChecks s e h rq p = some (.refused, .ethPort) :=
  (doorChecks_matched hop hlen).trans (if_pos (congrArg not hport))

variable (hport : acceptedOn rq.iface (e.any (fun x => x.peer.isSome)) h.op p = true)
include hport

theorem doorChecks_unproved {x : Session} (hx : e = some x) (hauth : authOk s x h.op = false) :
    doorChecks s e h rq p = some (.auth, .ethAuth) :=
  (doorChecks_matched hop hlen).trans ((if_neg (not_not_true hport)).trans
    (if_pos ((congrArg (Option.any fun x => !authOk s x h.op) hx).trans (congrArg not hauth))))

variable (hauth : ∀ x, e = some x → authOk s x h.op = true)
include hauth

omit hop hlen hport in
theorem none_unproved : e.any (fun x => !authOk s x h.op) = false := by
  rcases e.eq_none_or_eq_some with h | ⟨x, h⟩
  · exact congrArg (Option.any _) h
  · exact (congrArg (Option.any _) h).trans (congrArg not (hauth x h))

/-- What is left when the session may act: the room of the queue and the context's share of it. -/
theorem doorChecks_room {n : Nat} (hn : n = queueRoom rq.iface) : doorChecks s e h rq p =
    if n ≤ queueHeld s rq.iface then some (.busy, .ethQueueFull)
    else if isScoped h.op p && decide (32 ≤ contextHeld s rq.ctx) then some (.busy, .ethCtxLimit)
    else none :=
  hn ▸ (doorChecks_matched hop hlen).trans ((if_neg (not_not_true hport)).trans
    (if_neg (Bool.eq_false_iff.mp (none_unproved hauth))))

end

theorem queueRoom_eq : (i : Iface) → queueRoom i = match i with
    | .host => 224
    | .mgmt => 32
  | .host => rfl
  | .mgmt => rfl

theorem contextFull_iff {b : Bool} {n : Nat} : (b && decide (32 ≤ n)) = true ↔ b = true ∧ 32 ≤ n := by
  rw [Bool.and_eq_true, decide_eq_true_eq]

theorem contextFree {b : Bool} {n : Nat} (hrest : b = false ∨ n < 32) : ¬ (b && decide (32 ≤ n)) = true := fun hfull =>
  have ⟨hscoped, hmost⟩ := contextFull_iff.mp hfull
  hrest.elim (Bool.eq_false_iff.mp · hscoped) (Nat.not_lt.mpr hmost)

/-! ## The switch (R507 to R509) -/

theorem foldl_sendFrame (d : Datagram) (l : List Nat) (s : State) : l.foldl (fun a p => sendFrame a p d) s =
    (withNet s { s.net with frames := l.reverse.map (fun p => (p, d)) ++ s.net.frames }) := by
  induction l generalizing s with
  | nil => rfl
  | cons p l ih =>
    rw [List.foldl_cons, ih]
    simp [sendFrame]

/-- The ports that a frame may go out on (R509). -/
noncomputable def openPorts (s : State) (d : Datagram) : List Nat :=
  [0, 1, 2].filter (fun p => p != d.port && (tget s.net.ports {} p).link && vlanMember s p (frameVid d))

theorem mem_openPorts {s : State} {d : Datagram} {p : Nat} : p ∈ openPorts s d ↔
    p < 3 ∧ p ≠ d.port ∧ (tget s.net.ports {} p).link = true ∧ bit (tget s.net.vlans 7 (frameVid d)) p = true :=
  List.mem_filter.trans (and_congr (List.mem_range (n := 3)) (by
    rw [Bool.and_eq_true, Bool.and_eq_true, bne_iff_ne, and_assoc]
    rfl))

theorem mem_bridgePorts {s : State} {d : Datagram} {p : Nat} : p ∈ bridgePorts s d ↔ p ∈ openPorts s d ∧
    d.dmac ≠ .own ∧ ∀ a q, d.dmac = .station a → tget? s.net.stations (frameVid d * 2 ^ 48 + a) = some q → p = q := by
  change p ∈ (match d.dmac with
    | .own => []
    | .group => openPorts s d
    | .station a => match tget? s.net.stations (frameVid d * 2 ^ 48 + a) with
      | some p => (openPorts s d).filter (· == p)
      | none => openPorts s d) ↔ _
  generalize openPorts s d = l
  cases d.dmac with
  | own => exact iff_of_false List.not_mem_nil fun h => h.2.1 rfl
  | group => exact ⟨fun h => ⟨h, nofun, nofun⟩, And.left⟩
  | station a =>
    dsimp only
    cases hseen : tget? s.net.stations (frameVid d * 2 ^ 48 + a) with
    | none =>
      refine ⟨fun h => ⟨h, nofun, fun b q hb hq => ?_⟩, And.left⟩
      rw [← MacDst.station.inj hb, hseen] at hq
      exact nomatch hq
    | some q =>
      refine List.mem_filter.trans (and_congr_right fun _ => beq_iff_eq.trans ⟨fun h => ⟨nofun, fun b r hb hr => ?_⟩, fun h => ?_⟩)
      · exact h.trans (Option.some.inj (hseen.symm.trans (MacDst.station.inj hb ▸ hr)))
      · exact h.2 a q rfl hseen

theorem bridge_off {s : State} {d : Datagram} (hoff : switchOn s = false ∨ d.port = 3 ∨ frameTaken s d = false) :
    bridge s d = s :=
  if_pos (by rcases hoff with h | h | h <;> simp [h])

theorem switch_ignores {s : State} {d : Datagram} (hoff : switchOn s = false ∨ frameTaken s d = false) :
    exec (.datagramReceive d) s = .next s := by
  have hfor : forDevice s d = false := by rcases hoff with h | h <;> simp [forDevice, h]
  exact (execDatagramReceive_bridged hfor).trans (congrArg _ (bridge_off (hoff.imp_right .inr)))

theorem bridge_eq {s : State} {d : Datagram} (hon : switchOn s = true) (htaken : frameTaken s d = true)
    (hport : d.port ≠ 3) : bridge s d = withNet s { s.net with
      stations := tset s.net.stations (frameVid d * 2 ^ 48 + d.smac) d.port,
      frames := (bridgePorts s d).reverse.map (fun p => (p, d)) ++ s.net.frames } :=
  (if_neg (by simp [hon, htaken, hport])).trans (foldl_sendFrame ..)

theorem bridge_passes {s : State} {d : Datagram} (hon : switchOn s = true) (htaken : frameTaken s d = true)
    (hport : d.port ≠ 3) : ∃ l : List Nat, (bridge s d).net.frames = l.map (fun p => (p, d)) ++ s.net.frames ∧
      (∀ p, p ∈ l ↔ p < 3 ∧ p ≠ d.port ∧ (tget s.net.ports {} p).link = true ∧ bit (tget s.net.vlans 7 (frameVid d)) p = true ∧
        d.dmac ≠ .own ∧
        (∀ a q, d.dmac = .station a → tget? s.net.stations (frameVid d * 2 ^ 48 + a) = some q → p = q)) ∧
      tget? (bridge s d).net.stations (frameVid d * 2 ^ 48 + d.smac) = some d.port ∧
      bridge s d = withNet s { s.net with stations := (bridge s d).net.stations, frames := (bridge s d).net.frames } := by
  rw [bridge_eq hon htaken hport]
  exact ⟨_, rfl, fun p => List.mem_reverse.trans (mem_bridgePorts.trans ((and_congr_left' mem_openPorts).trans
    (by simp only [and_assoc]))), tget?_tset_self .., rfl⟩

theorem answerFrame_replies {s : State} {d : Datagram} {k : NetKind}
    (hkind : (d.kind = .arpRequest ∧ k = .arpReply) ∨ (d.kind = .neighbourSolicit ∧ k = .neighbourAdvert) ∨
      (d.kind = .echoRequest ∧ k = .echoReply)) (hown : ownAddr s d.iface d.dst = some d.dst)
    (htag : d.tag.map Prod.snd = (ownTag s d.iface).map Prod.snd) {r : Datagram}
    (hr : r = { d with kind := k, src := d.dst, dst := d.src, dmac := .station d.smac, smac := 0, tag := ownTag s d.iface }) :
    answerFrame s d = withNet s { s.net with frames := (d.port, r) :: s.net.frames } := by
  have hanswer : answerKind d.kind = some k := by
    rcases hkind with ⟨h, rfl⟩ | ⟨h, rfl⟩ | ⟨h, rfl⟩ <;> rw [h] <;> rfl
  subst hr
  unfold answerFrame
  rw [hanswer]
  exact if_pos ⟨hown, htag⟩

theorem answerFrame_silent {s : State} {d : Datagram}
    (hno : ownAddr s d.iface d.dst ≠ some d.dst ∨ d.kind = .udp ∨ d.kind = .other) : answerFrame s d = s := by
  unfold answerFrame
  rcases hno with hown | hkind | hkind
  · split
    · exact if_neg fun h => hown h.1
    · rfl
  · rw [hkind]
    rfl
  · rw [hkind]
    rfl

/-- Settles O38: the checks in their order, what each refuses, and the switch. -/
theorem doorChecksInOrder : Obligations.DoorChecksInOrder := by
  refine ⟨fun d h p rq s m hm hh hp hrq hfor hkind => ?_, fun e h rq p s => ⟨doorChecks_unknown, doorChecks_length,
      fun hop hlen set hset => ⟨fun hport => doorChecks_port hop hlen (hset ▸ hport), fun hport =>
        ⟨fun x hx hauth => doorChecks_unproved hop hlen (hset ▸ hport) hx hauth, fun hauth n hn =>
          have hroom := hn.trans (queueRoom_eq rq.iface).symm
          have hchecks := doorChecks_room (s := s) hop hlen (hset ▸ hport) hauth hroom
          ⟨fun hfull => hchecks.trans (if_pos hfull), fun hfree => ⟨fun hscoped hmost =>
            hchecks.trans ((if_neg (Nat.not_le.mpr hfree)).trans (if_pos (contextFull_iff.mpr ⟨hscoped, hmost⟩))),
            fun hrest => hchecks.trans ((if_neg (Nat.not_le.mpr hfree)).trans (if_neg (contextFree hrest)))⟩⟩⟩⟩⟩,
    fun d s => ⟨switch_ignores, fun hport => bridge_off (.inr (.inl hport)), bridge_passes,
      fun hfor => execDatagramReceive_bridged hfor, fun hfor => execDatagramReceive_answers hfor,
      fun k hk hown htag r hr => answerFrame_replies hk hown htag hr, answerFrame_silent⟩⟩
  have hreceive : exec (.datagramReceive d) s = .next (receive m d) := hm ▸ execDatagramReceive_receives hfor hkind
  refine ⟨fun hdeaf => hreceive.trans (congrArg _ (receive_deaf hdeaf)),
    fun hheard hbad => hreceive.trans (congrArg _ (receive_dropped hheard hbad)),
    fun hheard hgood hlong hcls hpeer c hc => ?_⟩
  have hcmd := hreceive.trans (congrArg _ ((receive_cmd hheard hgood hlong hh hcls hpeer).trans (receiveCmd_eq hp hrq hc)))
  refine ⟨fun hversion => hcmd.trans (congrArg _ (if_pos hversion)), fun hversion hlen =>
    hcmd.trans (congrArg _ ((if_neg (not_not.mpr hversion)).trans (if_pos hlen))), fun hversion hlen hmost => ?_⟩
  have hformed := hcmd.trans (congrArg _ ((if_neg (not_not.mpr hversion)).trans
    (if_neg (not_or.mpr ⟨not_not.mpr hlen, Nat.not_lt.mpr hmost⟩))))
  have hctx : c = if isScoped h.op p then rq.ctx else 0 := hrq ▸ hc
  have hsid : rq.sess = h.sess := hrq ▸ rfl
  refine ⟨fun hsess hno => hformed.trans (congrArg _ (formedCmd_sessionless hsess hno)),
    fun hsess hnone => hformed.trans (congrArg _ (formedCmd_session hsess hnone)),
    fun x hsess hx => ⟨fun hsource => hformed.trans (congrArg _ ((formedCmd_session hsess hx).trans (if_pos hsource))),
      fun hiface hsrc hsport hpeer u hu => ?_⟩,
    fun hsess hop hsome hmode hnone hempty hchecks => ⟨_, hformed.trans (congrArg _ ((formedCmd_opens hsess hop hsome hmode).trans
      ((openHello_first hnone hempty).trans (admitCmd_accepts hchecks)))),
      (acceptCmd_keeps m d h rq p (fun t => t.net.queue) fun _ => rfl).trans (by rw [← hop]; exact congrArg (· ++ _) hempty)⟩⟩
  have hseq := hu ▸ hformed.trans (congrArg _ ((formedCmd_session hsess hx).trans (sessionCmd_sequenced hiface hsrc hsport hpeer)))
  refine ⟨fun hknown =>
      have hdup := hseq.trans (congrArg _ (sequencedCmd_duplicate hknown))
      ⟨fun hrun => hdup.trans (congrArg _ (duplicate_inProgress hrun hctx)),
        fun hdone o hheld => hdup.trans (congrArg _ (duplicate_held hdone hheld rq p)),
        fun hdone hnone => hdup.trans (congrArg _ (duplicate_acknowledged hdone hnone rq p))⟩,
    fun hnew b hb => ⟨fun hfirst hlast => hseq.trans (congrArg _ (sequencedCmd_stale hnew hb hfirst hlast)), fun hfresh => ?_⟩⟩
  have hadmit := hseq.trans (congrArg _ (sequencedCmd_admits hnew hb hfresh))
  refine ⟨fun st r hrefused => hadmit.trans (congrArg _ (admitCmd_refuses hrefused hctx)),
    fun hpassed => ⟨_, hadmit.trans (congrArg _ (admitCmd_accepts hpassed)), acceptCmd_keeps u d h rq p (fun t => t.net.queue) fun _ => rfl,
      fun y hy => ?_, fun hlate => ?_, fun hquick hrestored => acceptCmd_quick u hquick ?_, acceptCmd_onlyNet u d h rq p⟩⟩
  · refine (acceptCmd_keeps u d h rq p (fun t => tget? t.net.sessions h.sess) fun _ => rfl).trans ?_
    exact hsid ▸ (tget?_tmod_self ..).trans (congrArg (Option.map _) (hsid ▸ hy))
  · exact (acceptCmd_late u hlate hctx).trans (by rw [hu, (acknowledge_wireTo m h.sess h.link).1])
  · rw [hu, (acknowledge_wireTo m h.sess h.link).2]
    exact hrestored

end Sys2Proof.Machine

/-!
PROOFS. Dispatch (R513, R526, R579, R622, R667), the outbound store (R523, R532) and the links of the ports (R546).
-/

namespace Sys2Proof.Machine

/-! ## COMMAND_DISPATCH (R526) -/

theorem execCommandDispatch_none {s : State} (hidle : storeFull s = true ∨ s.net.queue = []) :
    execCommandDispatch s = .next s := by
  refine congrArg Host.Outcome.next (iteInduction (motive := fun t => t = s) (fun _ => rfl) fun hroom => ?_)
  rw [hidle.resolve_left hroom]
  rfl

/-- The device when an entry has left the queue. -/
noncomputable def dequeued (s : State) (q : List QEntry) : State := withNet s { s.net with queue := q }

/-- The device when a command is dispatched. -/
noncomputable def dispatchedTo (u : State) (i : Instr) : State :=
  { u with net := { u.net with dispatched := u.net.dispatched ++ [i] }, draws := u.draws + 2 }

section
variable {u : State} {e : QEntry} (hlive : Live e.req u)
include hlive

theorem dispatchEntry_live : dispatchEntry u e =
    match dispatchRefusal u e with
    | some (st, r) => refuseDispatch u e st r
    | none =>
      match readCommand u e with
      | some i => dispatchedTo u i
      | none => refuseDispatch u e .malformed .ethOpcode :=
  if_neg fun h => Option.isSome_iff_ne_none.mp hlive (Option.isNone_iff_eq_none.mp h.2)

theorem dispatchEntry_refuses (hsess : e.req.sess ≠ 0) {st : Status} {r : Reason} (hrefusal : dispatchRefusal u e = some (st, r)) :
    dispatchEntry u e = replyAs u e.req e.op (if isScoped e.op e.payload then e.req.ctx else 0) st r [] := by
  rw [dispatchEntry_live hlive, hrefusal]
  exact if_neg hsess

theorem dispatchEntry_dispatches {i : Instr} (hpass : dispatchRefusal u e = none) (hread : readCommand u e = some i) :
    dispatchEntry u e = dispatchedTo u i := by
  rw [dispatchEntry_live hlive, hpass, hread]

end

section
variable {s : State} {e : QEntry} {q : List QEntry} (hroom : storeFull s = false) (hqueue : s.net.queue = e :: q)
  (hfree : heldBack s e = false)
include hroom hqueue hfree

/-- The first entry leaves the queue when it is not held back. -/
theorem execCommandDispatch_first : execCommandDispatch s = .next (dispatchEntry (dequeued s q) e) := by
  have hfirst : s.net.queue.find? (fun e => !heldBack s e) = some e :=
    (congrArg _ hqueue).trans (List.find?_cons_of_pos (p := fun e => !heldBack s e) (congrArg not hfree))
  have hrest : s.net.queue.eraseP (fun e => !heldBack s e) = q :=
    (congrArg _ hqueue).trans (List.eraseP_cons_of_pos (p := fun e => !heldBack s e) (congrArg not hfree))
  refine congrArg Host.Outcome.next ((if_neg (Bool.eq_false_iff.mp hroom)).trans ?_)
  rw [hfirst]
  exact congrArg (fun q => dispatchEntry (dequeued s q) e) hrest

variable {u : State} (hlive : Live e.req s) (hu : u = dequeued s q)
include hlive hu

theorem execCommandDispatch_refuses (hsess : e.req.sess ≠ 0) {c : Nat} (hc : c = if isScoped e.op e.payload then e.req.ctx else 0)
    {st : Status} {r : Reason} (hrefusal : dispatchRefusal s e = some (st, r)) :
    Answered .commandDispatch s e.req e.op c st r [] u := by
  subst hu hc
  exact ⟨_, (execCommandDispatch_first hroom hqueue hfree).trans
      (congrArg _ (dispatchEntry_refuses (u := dequeued s q) hlive hsess hrefusal)),
    replyAs_replied (dequeued s q) e.req e.op _ st r [] hlive, replyAs_only (dequeued s q) e.req e.op _ st r []⟩

theorem execCommandDispatch_dispatches {i : Instr} (hpass : dispatchRefusal s e = none) (hread : readCommand u e = some i) :
    exec .commandDispatch s = .next (dispatchedTo (dequeued s q) i) := by
  subst hu
  exact (execCommandDispatch_first hroom hqueue hfree).trans
    (congrArg _ (dispatchEntry_dispatches (u := dequeued s q) hlive hpass hread))

end

/-! ## The refusals at dispatch (R513, R579, R622, R667, R707) -/

section
variable {s : State} {e : QEntry}

theorem dispatchRefusal_reserved (hbad : e.bad = true ∨
    (reservedFields e.op e.payload).any (fun r => field e.payload r.1 r.2 != 0) = true ∨ modeOk e.op e.payload = false) :
    dispatchRefusal s e = some (.malformed, .ethParam) := by
  refine if_pos ?_
  rcases hbad with h | h | h <;> simp only [h, Bool.true_or, Bool.or_true, Bool.not_false]

variable (hgood : e.bad = false) (hzero : (reservedFields e.op e.payload).any (fun r => field e.payload r.1 r.2 != 0) = false)
  (hmode : modeOk e.op e.payload = true)
include hgood hzero hmode

theorem dispatchRefusal_checked : dispatchRefusal s e =
    if e.op = 0x01C1 ∧ 2 < field e.payload 1 1 then some (.refused, .fwMode)
    else if (e.op = 0x01D0 ∨ e.op = 0x01D1) ∧ field e.payload 1 3 ≠ 0 then some (.refused, .relCoreParam)
    else if s.pwr.entry.isSome ∧ e.op ≠ 0x0001 ∧ e.op ≠ 0x0191 then some (.busy, .pwrEntering)
    else if s.rst.recovery ∧ !([0x0001, 0x0002, 0x01C0, 0x01C1].contains e.op) then some (.refused, .ethPort)
    else if s.sec.error ∧ !([0x0001, 0x0002, 0x0191].contains e.op) then some (.fault, .secSelftest)
    else if !s.ddr.inService && !runsWithoutDdr e.op e.payload then some (.fault, .ddrNotReady)
    else none := by
  refine if_neg ?_
  rw [hgood, hzero, hmode]
  decide

theorem dispatchRefusal_core (hop : e.op = 0x01D0 ∨ e.op = 0x01D1) (hcore : field e.payload 1 3 ≠ 0) :
    dispatchRefusal s e = some (.refused, .relCoreParam) :=
  (dispatchRefusal_checked hgood hzero hmode).trans ((if_neg fun h => hop.elim (fun h0 => absurd (h.1.symm.trans h0) (by decide))
    (fun h1 => absurd (h.1.symm.trans h1) (by decide))).trans (if_pos ⟨hop, hcore⟩))

variable (hop : e.op ≠ 0x01C1) (hcore : e.op = 0x01D0 ∨ e.op = 0x01D1 → field e.payload 1 3 = 0)
include hop hcore

/-- What is left when the fields hold. -/
theorem dispatchRefusal_formed : dispatchRefusal s e =
    if s.pwr.entry.isSome ∧ e.op ≠ 0x0001 ∧ e.op ≠ 0x0191 then some (.busy, .pwrEntering)
    else if s.rst.recovery ∧ !([0x0001, 0x0002, 0x01C0, 0x01C1].contains e.op) then some (.refused, .ethPort)
    else if s.sec.error ∧ !([0x0001, 0x0002, 0x0191].contains e.op) then some (.fault, .secSelftest)
    else if !s.ddr.inService && !runsWithoutDdr e.op e.payload then some (.fault, .ddrNotReady)
    else none :=
  (dispatchRefusal_checked hgood hzero hmode).trans
    ((if_neg fun h => hop h.1).trans (if_neg fun h => h.2 (hcore h.1)))

theorem dispatchRefusal_entering (hentry : s.pwr.entry ≠ none) (hbarred : e.op ∉ [0x0001, 0x0191]) :
    dispatchRefusal s e = some (.busy, .pwrEntering) :=
  (dispatchRefusal_formed hgood hzero hmode hop hcore).trans (if_pos ⟨Option.isSome_iff_ne_none.mpr hentry,
    fun h => hbarred (h ▸ .head _), fun h => hbarred (h ▸ .tail _ (.head _))⟩)

variable (hentry : s.pwr.entry = none) (hrecovery : s.rst.recovery = false)
include hentry hrecovery

theorem dispatchRefusal_running : dispatchRefusal s e =
    if s.sec.error ∧ !([0x0001, 0x0002, 0x0191].contains e.op) then some (.fault, .secSelftest)
    else if !s.ddr.inService && !runsWithoutDdr e.op e.payload then some (.fault, .ddrNotReady)
    else none :=
  (dispatchRefusal_formed hgood hzero hmode hop hcore).trans ((if_neg fun h => Option.isSome_iff_ne_none.mp h.1 hentry).trans
    (if_neg fun h => Bool.eq_false_iff.mp hrecovery h.1))

theorem dispatchRefusal_error (herror : s.sec.error = true) (hbarred : e.op ∉ [0x0001, 0x0002, 0x0191]) :
    dispatchRefusal s e = some (.fault, .secSelftest) :=
  (dispatchRefusal_running hgood hzero hmode hop hcore hentry hrecovery).trans
    (if_pos ⟨herror, congrArg not (Bool.eq_false_iff.mpr (mt List.contains_iff_mem.mp hbarred))⟩)

variable (hsound : s.sec.error = false)
include hsound

theorem dispatchRefusal_sound : dispatchRefusal s e =
    if !s.ddr.inService && !runsWithoutDdr e.op e.payload then some (.fault, .ddrNotReady) else none :=
  (dispatchRefusal_running hgood hzero hmode hop hcore hentry hrecovery).trans (if_neg fun h => Bool.eq_false_iff.mp hsound h.1)

theorem dispatchRefusal_noDdr (hservice : s.ddr.inService = false) (hneeds : runsWithoutDdr e.op e.payload = false) :
    dispatchRefusal s e = some (.fault, .ddrNotReady) :=
  (dispatchRefusal_sound hgood hzero hmode hop hcore hentry hrecovery hsound).trans
    (if_pos (congrArg₂ (fun a b => !a && !b) hservice hneeds))

theorem dispatchRefusal_none (hruns : s.ddr.inService = true ∨ runsWithoutDdr e.op e.payload = true) :
    dispatchRefusal s e = none :=
  (dispatchRefusal_sound hgood hzero hmode hop hcore hentry hrecovery hsound).trans (if_neg fun h =>
    hruns.elim (Bool.eq_false_iff.mp (Bool.not_eq_true' _ ▸ (Bool.and_eq_true_iff.mp h).1))
      (Bool.eq_false_iff.mp (Bool.not_eq_true' _ ▸ (Bool.and_eq_true_iff.mp h).2)))

end

/-! ## Retransmission (R523) -/

/-- The outbound entries once that of a number of a session has been sent again. -/
noncomputable def sentAgain (sid num : Nat) (l : List OutEntry) : List OutEntry :=
  l.map (fun x => if (x.pkt.sess == sid) && (x.pkt.link == num) then { x with interval := min (2 * x.interval) 256 } else x)

theorem find?_sentAgain {sid num : Nat} {l : List OutEntry} {e : OutEntry}
    (hfound : l.find? (fun o => o.pkt.sess == sid && o.pkt.link == num) = some e) :
    (sentAgain sid num l).find? (fun o => o.pkt.sess == sid && o.pkt.link == num) =
      some { e with interval := min (2 * e.interval) 256 } := by
  have hsame : (fun o : OutEntry => o.pkt.sess == sid && o.pkt.link == num) ∘
      (fun x => if (x.pkt.sess == sid) && (x.pkt.link == num) then { x with interval := min (2 * x.interval) 256 } else x) =
      fun o => o.pkt.sess == sid && o.pkt.link == num := by
    funext x
    rw [Function.comp_apply]
    split <;> rfl
  unfold sentAgain
  rw [List.find?_map, hsame, hfound, Option.map_some, if_pos (List.find?_some hfound)]

theorem resend_found {sid num : Nat} {e : OutEntry} {s : State}
    (hfound : s.net.outbound.find? (fun o => o.pkt.sess == sid && o.pkt.link == num) = some e) :
    resend s sid num = withNet s { s.net with
      outbound := sentAgain sid num s.net.outbound,
      sent := { e.pkt with wire := e.pkt.wire.orElse (fun _ => wireOf s sid) } :: s.net.sent } := by
  have hsid : e.pkt.sess = sid :=
    beq_iff_eq.mp (Bool.and_eq_true_iff.mp (List.find?_some (p := fun o : OutEntry => o.pkt.sess == sid && o.pkt.link == num) hfound)).1
  subst hsid
  unfold resend
  rw [hfound]
  rfl

theorem mem_outbound_acknowledge (sid link : Nat) (e : OutEntry) (s : State) : e ∈ (acknowledge s sid link).net.outbound ↔
    e ∈ s.net.outbound ∧ (e.pkt.sess ≠ sid ∨ 2 ^ 31 ≤ (link + 2 ^ 32 - e.pkt.link) % 2 ^ 32) := by
  obtain ⟨lanes, hframe⟩ := acknowledge_frame s sid link
  rw [hframe]
  simp only [List.mem_filter, ackedBy, Bool.not_eq_true', Bool.and_eq_false_iff, beq_eq_false_iff_ne, decide_eq_false_iff_not,
    Nat.not_lt]

/-! ## Lost events (R532) -/

theorem execEventsLostReport_none {s : State} (hno : s.net.lostSince = 0 ∨ 1024 ≤ eventEntries s ∨ storeFull s = true) :
    execEventsLostReport s = .next s := if_pos hno

theorem execEventsLostReport_reports {s : State} (hlost : s.net.lostSince ≠ 0) (hroom : EventRoom s) : execEventsLostReport s =
    .next (emitDev (withNet s { s.net with lostSince := 0 }) .ethEventsLost (leBytes 4 s.net.lostSince)) := by
  obtain ⟨hfew, hfree⟩ := hroom
  refine if_neg ?_
  simp [hlost, hfew, hfree]

theorem ethLinkUp_none {p v : Nat} (hno : v ∉ (portPhy p).rates) (mka : Bool) (s : State) : exec (.ethLinkUp p ⟨v, mka⟩) s = .next s :=
  congrArg Host.Outcome.next (if_pos (congrArg not (Bool.eq_false_iff.mpr (mt List.contains_iff_mem.mp hno))))

theorem ethLinkUp_reports {p v : Nat} (hrate : v ∈ (portPhy p).rates) (mka : Bool) {s : State} (hroom : EventRoom s) :
    Reports (.ethLinkUp p ⟨v, mka⟩) s none .ok .ethLinkUp (leBytes 1 p ++ leBytes 1 v)
      (withNet s { s.net with
        ports := tset s.net.ports p { link := true, speed := v, macsec := mka && s.sec.caks.any (fun e => e.1 / 4 == p) } }) :=
  reports_emit (congrArg Host.Outcome.next (if_neg (Bool.eq_false_iff.mp (congrArg not (List.contains_iff_mem.mpr hrate))))) hroom

/-- Settles O39: the refusals in their order and the dispatch, then the store and the links. -/
theorem dispatchAndOutbound : Obligations.DispatchAndOutbound :=
  ⟨fun _ => execCommandDispatch_none,
    fun _ _ _ _ hroom hqueue hfree hlive hsess hu _ hc =>
      ⟨fun hbad => execCommandDispatch_refuses hroom hqueue hfree hlive hu hsess hc (dispatchRefusal_reserved hbad),
        fun hgood hzero hmode hop hcore =>
          execCommandDispatch_refuses hroom hqueue hfree hlive hu hsess hc (dispatchRefusal_core hgood hzero hmode hop hcore),
        fun hgood hzero hmode hop hcore =>
          ⟨fun hentry hbarred => execCommandDispatch_refuses hroom hqueue hfree hlive hu hsess hc
              (dispatchRefusal_entering hgood hzero hmode hop hcore hentry hbarred),
            fun hentry hrecovery herror hbarred => execCommandDispatch_refuses hroom hqueue hfree hlive hu hsess hc
              (dispatchRefusal_error hgood hzero hmode hop hcore hentry hrecovery herror hbarred),
            fun hentry hrecovery hsound hservice hneeds => execCommandDispatch_refuses hroom hqueue hfree hlive hu hsess hc
              (dispatchRefusal_noDdr hgood hzero hmode hop hcore hentry hrecovery hsound hservice hneeds),
            fun hentry hrecovery hsound hruns _ hread => execCommandDispatch_dispatches hroom hqueue hfree hlive hu
              (dispatchRefusal_none hgood hzero hmode hop hcore hentry hrecovery hsound hruns) hread⟩⟩,
    fun _ _ _ _ hfound => ⟨_, _, congrArg Host.Outcome.next (resend_found hfound), rfl, find?_sentAgain hfound, rfl, rfl, rfl⟩,
    mem_outbound_acknowledge,
    fun _ => ⟨execEventsLostReport_none, fun hlost hroom => reports_emit (execEventsLostReport_reports hlost hroom) hroom⟩,
    fun _ _ mka s hroom => ⟨fun hno => ethLinkUp_none hno mka s, fun hrate => ethLinkUp_reports hrate mka hroom,
      reports_emit rfl hroom⟩⟩

end Sys2Proof.Machine

/-!
PROOFS. Zeroisation and the error state (R637, R649, R667), self-tests (R666, R673), the management watchdog and trials
(R677, R694), and ATTEST (R543, R661, R664).
-/

namespace Sys2Proof.Machine

/-! ## Zeroisation and the error state (R637, R649, R667) -/

/-- The security record with every key cleared. -/
noncomputable def keysCleared (c : Sec) : Sec :=
  { c with keys := [], fwKeyHeld := false, drbgHeld := false, caks := [], cakBuf := [], storageHeld := false }

/-- The error state, and the parts of `t` that its event changes, in `s`. -/
@[reducible] noncomputable def errorAs (s t : State) : State :=
  { s with net := t.net, draws := t.draws, rel := t.rel, sec := { s.sec with error := true } }

/-- The error state is entered once, and beside it an event alone changes something. -/
theorem enterError_only (s : State) : enterError s = errorAs s (enterError s) :=
  iteInduction (motive := fun t : State => t = errorAs s t)
    (fun herror => (congrArg (fun e => withSec s { s.sec with error := e }) herror :)) (fun _ =>
      have hevent := emitDev_frame (withSec s { s.sec with error := true }) .secError []
      (congrArg (unavailFrom · 2) hevent :).trans (congrArg (fun t => errorAs s (unavailFrom t 2)) hevent).symm)

theorem enterError_sec (s : State) : (enterError s).sec = { s.sec with error := true } := congrArg State.sec (enterError_only s)

theorem enterError_enters {s : State} (hsound : s.sec.error = false) :
    enterError s = unavailFrom (emitDev (withSec s { s.sec with error := true }) .secError []) 2 :=
  if_neg (Bool.eq_false_iff.mp hsound)

theorem zeroise_sec (s : State) : (zeroise s).sec = { keysCleared s.sec with error := true } := enterError_sec (clearKeys s)

/-- A tamper trigger while Tlaog runs. -/
theorem tamper_runs {s : State} (hruns : tlaogRuns s = true) :
    tamper s = zeroise (emitDev (abortEntry s 6 0) .secTamper []) := if_pos hruns

theorem tamper_sec {s : State} (hruns : tlaogRuns s = true) : (tamper s).sec = { keysCleared s.sec with error := true } := by
  have hsec : (emitDev (abortEntry s 6 0) .secTamper []).sec = s.sec :=
    (emit_sec ..).trans (abortEntry_keeps (g := State.sec) (fun _ _ _ _ _ => rfl) s 6 0)
  rw [tamper_runs hruns, zeroise_sec, hsec]

theorem tamper_entry {s : State} (hruns : tlaogRuns s = true) : (tamper s).pwr.entry = none := by
  have hpwr : (tamper s).pwr = (abortEntry s 6 0).pwr := (congrArg State.pwr (tamper_runs hruns)).trans
    ((congrArg State.pwr (enterError_only (clearKeys (emitDev (abortEntry s 6 0) .secTamper [])))).trans (emit_pwr ..))
  rw [hpwr, abortEntry_entry]

section
variable {β : Type} {g : State → β}
  (hg : ∀ s net draws rel pwr sec, g { s with net := net, draws := draws, rel := rel, pwr := pwr, sec := sec } = g s)
include hg

theorem emitDev_keeps (s : State) (r : Reason) (b : Bytes) : g (emitDev s r b) = g s := by
  rw [emitDev_frame]
  exact hg s _ _ s.rel s.pwr s.sec

theorem zeroise_keeps (s : State) : g (zeroise s) = g s := by
  have hclear : g (clearKeys s) = g s := hg s s.net s.draws s.rel s.pwr _
  unfold zeroise enterError
  split
  · exact hclear
  · exact (hg _ _ _ _ _ _).trans ((emitDev_keeps hg _ .secError []).trans (hg s s.net s.draws s.rel s.pwr _))

theorem tamper_keeps {s : State} (hruns : tlaogRuns s = true) : g (tamper s) = g s := by
  rw [tamper_runs hruns, zeroise_keeps hg, emitDev_keeps hg]
  exact abortEntry_keeps (fun s net draws rel pwr => hg s net draws rel pwr s.sec) s 6 0

end

theorem tamper_off {s : State} (hstill : tlaogRuns s = false) (hoff : s.pwr.mode = .off) : tamper s = s := by
  simp [tamper, hstill, hoff]

theorem tamper_reset {s : State} (hstill : tlaogRuns s = false) (hon : s.pwr.mode ≠ .off) : tamper s = clearKeys s := by
  simp [tamper, hstill, hon]

/-! ## Periodic self-tests (R666, R673) -/

section
variable {s : State} {p : Bool}

theorem execPeriodicSelfTest_still (hstill : tlaogRuns s = false) : execPeriodicSelfTest p s = .next s := by
  simp [execPeriodicSelfTest, hstill]

variable (hruns : tlaogRuns s = true)
include hruns

theorem execPeriodicSelfTest_deferred (hlater : s.pwr.entry ≠ none ∨ s.pwr.mode ≠ .awake) :
    execPeriodicSelfTest p s = .next (withSec s { s.sec with deferred := true }) := by
  have hwaits : s.pwr.entry.isSome = true ∨ s.pwr.mode ≠ .awake := hlater.imp_left Option.isSome_iff_ne_none.mpr
  simp only [execPeriodicSelfTest, hruns, Bool.not_true, Bool.false_eq_true, if_false, if_pos hwaits]

theorem execPeriodicSelfTest_runs (hentry : s.pwr.entry = none) (hmode : s.pwr.mode = .awake) : execPeriodicSelfTest p s =
    .next (if p then (withSec s { s.sec with deferred := false })
      else enterError (withSec s { s.sec with deferred := false })) := by
  have hnow : ¬ (s.pwr.entry.isSome = true ∨ s.pwr.mode ≠ .awake) := by simp [hentry, hmode]
  simp only [execPeriodicSelfTest, hruns, Bool.not_true, Bool.false_eq_true, if_false, if_neg hnow]

end

/-! ## The end of every session (R521, R677) -/

theorem emit_sessions_nil {s : State} (hnone : s.net.sessions = []) (c : Option Nat) (st : Status) (r : Reason) (b : Bytes) :
    (emit s c st r b).net.sessions = [] := by
  have htargets : eventTargets s c.isNone = [] := by simp [eventTargets, hnone]
  unfold emit
  split
  · exact hnone
  · rw [htargets]
    exact hnone

theorem foldl_endSession_sessions (l : List Nat) (s : State) :
    (l.foldl endSession s).net.sessions = s.net.sessions.filter (fun e => !l.contains e.1) := by
  induction l generalizing s with
  | nil => exact (List.filter_true _).symm
  | cons k l ih =>
    refine (ih (endSession s k)).trans (List.filter_filter.trans (List.filter_congr fun e _ => ?_))
    rw [List.contains_cons, Bool.not_or, Bool.and_comm]

theorem endAllSessions_sessions {s : State} (hpeers : s.set.peers = []) : (endAllSessions s).net.sessions = [] := by
  have hset : endSetSessions s = s := by unfold endSetSessions; rw [hpeers]; rfl
  rw [endAllSessions, hset]
  refine (foldl_endSession_sessions _ s).trans (List.filter_eq_nil_iff.mpr fun e he => ?_)
  rw [List.contains_iff_mem.mpr (List.mem_map_of_mem he)]
  exact Bool.false_ne_true

theorem endAllSessions_keeps {β : Type} {g : State → β} (hg : ∀ s net lanes, g { s with net := net, lanes := lanes } = g s)
    {s : State} (hpeers : s.set.peers = []) : g (endAllSessions s) = g s := by
  have hset : endSetSessions s = s := by unfold endSetSessions; rw [hpeers]; rfl
  rw [endAllSessions, hset]
  exact List.foldlRecOn (motive := fun t => g t = g s) _ _ rfl fun t ht sid _ => (hg t _ _).trans ht

theorem unavailTo_frame (s : State) (cause : Nat) : ∃ draws rel, unavailTo s cause = { s with draws := draws, rel := rel } := by
  unfold unavailTo
  dsimp only
  split
  · exact ⟨_, _, rfl⟩
  · exact ⟨s.draws, _, rfl⟩

/-! ## The management watchdog (R677, R694) -/

/-- The management processor's restart. -/
noncomputable def mgmtRestarted (s : State) : State := unavailTo (emitDev (endAllSessions (unavailFrom s 1)) .relMgmtRestart []) 1

theorem mgmtRestarted_sessions {s : State} (hpeers : s.set.peers = []) : (mgmtRestarted s).net.sessions = [] := by
  obtain ⟨draws, rel, hlast⟩ := unavailTo_frame (emitDev (endAllSessions (unavailFrom s 1)) .relMgmtRestart []) 1
  unfold mgmtRestarted
  rw [hlast]
  exact emit_sessions_nil (endAllSessions_sessions (s := unavailFrom s 1) hpeers) ..

theorem mgmtRestarted_keeps {β : Type} {g : State → β}
    (hg : ∀ s net draws rel lanes, g { s with net := net, draws := draws, rel := rel, lanes := lanes } = g s) {s : State}
    (hpeers : s.set.peers = []) : g (mgmtRestarted s) = g s := by
  obtain ⟨draws, rel, hlast⟩ := unavailTo_frame (emitDev (endAllSessions (unavailFrom s 1)) .relMgmtRestart []) 1
  unfold mgmtRestarted
  rw [hlast, hg _ (emitDev _ _ _).net draws rel (emitDev _ _ _).lanes, emitDev_frame,
    hg (endAllSessions _) _ _ (endAllSessions _).rel (endAllSessions _).lanes,
    endAllSessions_keeps (fun s net lanes => hg s net s.draws s.rel lanes) (by exact hpeers)]
  exact hg s s.net s.draws _ s.lanes

section
variable {s : State} (hboots : s.rst.up = true ∨ s.rst.booting = true) (hmode : s.pwr.mode = .awake)
include hboots hmode

theorem mgmtWatchdog_acts : ¬ ((!s.rst.up && !s.rst.booting) = true ∨ s.pwr.mode ≠ .awake) := by
  rcases hboots with h | h <;> simp [h, hmode]

theorem execMgmtWatchdogExpire_trial (htrial : s.rel.trial = true) : execMgmtWatchdogExpire s = .next (revert s) := by
  unfold execMgmtWatchdogExpire
  rw [if_neg (mgmtWatchdog_acts hboots hmode), if_pos htrial]

theorem execMgmtWatchdogExpire_restarts (htrial : s.rel.trial = false) : execMgmtWatchdogExpire s = .next (mgmtRestarted s) :=
  congrArg Host.Outcome.next ((if_neg (mgmtWatchdog_acts hboots hmode)).trans (if_neg (Bool.eq_false_iff.mp htrial)))

end

theorem execMgmtWatchdogExpire_down {s : State}
    (hdown : (s.rst.up = false ∧ s.rst.booting = false) ∨ s.pwr.mode ≠ .awake) : execMgmtWatchdogExpire s = .next s := by
  unfold execMgmtWatchdogExpire
  rw [if_pos (by simpa using hdown)]

/-! ## ATTEST (R543, R661, R664) -/

section
variable {s : State} {rq : Req} {e : Session} (hsess : tget? s.net.sessions rq.sess = some e) {nonce : Bytes} {off len : Nat}
include hsess

theorem execAttest_long (hlong : e.maxPayload < len + 8) :
    execAttest rq nonce off len s = .next (replyC s rq 0x01A0 .malformed .ethLength []) := by
  simp only [execAttest, hsess, if_pos hlong]

variable (hfits : len + 8 ≤ e.maxPayload)
include hfits

theorem execAttest_error (herror : s.sec.error = true) :
    execAttest rq nonce off len s = .next (replyC s rq 0x01A0 .fault .secSelftest []) := by
  simp only [execAttest, hsess, if_neg (Nat.not_lt.mpr hfits), herror, if_true]

variable (hsound : s.sec.error = false)
include hsound

theorem execAttest_unknown (hctx : liveCtx s rq.ctx = none) :
    execAttest rq nonce off len s = .next (replyC s rq 0x01A0 .noContext .ctxUnknown []) := by
  simp only [execAttest, hsess, if_neg (Nat.not_lt.mpr hfits), hsound, Bool.false_eq_true, if_false, onCtx, hctx]

variable {x : Ctx} (hctx : liveCtx s rq.ctx = some x)
include hctx

theorem execAttest_held {r : Bytes} (hheld : x.report = some (nonce, r)) :
    execAttest rq nonce off len s = .next (replyC s rq 0x01A0 .ok .none (reportSlice r off len)) := by
  simp only [execAttest, hsess, if_neg (Nat.not_lt.mpr hfits), hsound, Bool.false_eq_true, if_false, onCtx, hctx, hheld, if_true]

theorem execAttest_forms (hnew : ∀ r, x.report ≠ some (nonce, r)) :
    execAttest rq nonce off len s = .next (formReport s rq nonce off len x) := by
  simp only [execAttest, hsess, if_neg (Nat.not_lt.mpr hfits), hsound, Bool.false_eq_true, if_false, onCtx, hctx]
  cases hreport : x.report with
  | none => rfl
  | some held =>
    obtain ⟨n, r⟩ := held
    have hother : n ≠ nonce := fun h => hnew r (h ▸ hreport)
    exact congrArg Host.Outcome.next (if_neg hother)

end

theorem formReport_own {s : State} {rq : Req} (hown : crossedMembers s rq.ctx = [] ∨ setRole s ≠ 1) (nonce : Bytes)
    (off len : Nat) (x : Ctx) : formReport s rq nonce off len x =
      replyC (modCtx s rq.ctx (fun y => { y with report := some (nonce, attestReport s rq.ctx x nonce) })) rq 0x01A0 .ok .none
        (reportSlice (attestReport s rq.ctx x nonce) off len) := by
  have hnone : (if setRole s = 1 then crossedMembers s rq.ctx else []).isEmpty = true := by
    rcases hown with h | h <;> simp [h]
  exact if_pos hnone

/-- Settles O41: what each trigger leaves, and ATTEST by its checks. -/
theorem zeroisationAndAttestation : Obligations.ZeroisationAndAttestation :=
  ⟨fun s => ⟨fun hstill => ⟨fun _ => execPeriodicSelfTest_still hstill, fun hoff => congrArg Host.Outcome.next (tamper_off hstill hoff),
        fun hon => congrArg Host.Outcome.next (tamper_reset hstill hon)⟩,
      fun hruns =>
        have hsec := tamper_sec hruns
        ⟨⟨tamper s, rfl, congrArg Sec.keys hsec, congrArg Sec.caks hsec, congrArg Sec.fwKeyHeld hsec, congrArg Sec.drbgHeld hsec,
          congrArg Sec.storageHeld hsec, congrArg Sec.error hsec, tamper_entry hruns,
          tamper_keeps (g := State.grd) (fun _ _ _ _ _ _ => rfl) hruns, tamper_keeps (g := State.ctxs) (fun _ _ _ _ _ _ => rfl) hruns,
          tamper_keeps (g := State.regs) (fun _ _ _ _ _ _ => rfl) hruns⟩,
        fun hlater _ => execPeriodicSelfTest_deferred hruns hlater, fun hentry hmode =>
        have hexec := fun p => execPeriodicSelfTest_runs (p := p) hruns hentry hmode
        ⟨hexec true, fun herror => (hexec false).trans (congrArg Host.Outcome.next (if_pos herror)), fun hsound hroom =>
          ⟨_, _, emit_reported _ none .ok .secError [] hroom, (hexec false).trans (congrArg Host.Outcome.next (enterError_enters hsound)),
            rfl, (mem_insertNum 2 2 _).mpr (.inl rfl)⟩⟩⟩,
      execMgmtWatchdogExpire_down, execMgmtWatchdogExpire_trial, fun hboots hmode htrial hpeers =>
      ⟨_, execMgmtWatchdogExpire_restarts hboots hmode htrial, mgmtRestarted_sessions hpeers,
        mgmtRestarted_keeps (g := State.t3) (fun _ _ _ _ _ => rfl) hpeers, mgmtRestarted_keeps (g := State.decks) (fun _ _ _ _ _ => rfl) hpeers,
        mgmtRestarted_keeps (g := State.grd) (fun _ _ _ _ _ => rfl) hpeers, mgmtRestarted_keeps (g := State.regs) (fun _ _ _ _ _ => rfl) hpeers⟩,
      fun htrial hup => congrArg Host.Outcome.next (if_pos ⟨htrial, hup⟩), fun hno => congrArg Host.Outcome.next (if_neg fun h =>
        hno.elim (Bool.eq_false_iff.mp · h.1) (Bool.eq_false_iff.mp · h.2))⟩,
    fun rq nonce off len e s hsess =>
      have hlive : Live rq s := Option.isSome_iff_exists.mpr ⟨e, hsess⟩
      ⟨fun hlong => answered_replyC (execAttest_long hsess hlong) hlive,
        fun hfits herror => answered_replyC (execAttest_error hsess hfits herror) hlive, fun hfits hsound =>
        ⟨fun hctx => answered_replyC (execAttest_unknown hsess hfits hsound hctx) hlive, fun x hctx =>
          ⟨fun _ hheld => answered_replyC (execAttest_held hsess hfits hsound hctx hheld) hlive, fun hnew hown _ hr =>
            hr ▸ answered_replyC ((execAttest_forms hsess hfits hsound hctx hnew).trans
              (congrArg Host.Outcome.next (formReport_own hown nonce off len x))) (live_modCtx hlive ..)⟩⟩⟩⟩

end Sys2Proof.Machine

/-!
PROOFS. The key registers of Tlaog (R649, R660) and the records of the configuration region (R771).
-/

namespace Sys2Proof.Machine

/-! ## TLAOG_ZEROISE and TLAOG_CAK_DATA (R649, R660) -/

theorem execTlaogZeroise_other {v : Word} (hother : v ≠ 0x5A45_524F#32) (s : State) : execTlaogZeroise v s = .next s := by
  refine congrArg Host.Outcome.next (if_neg fun hvalue => hother ?_)
  exact BitVec.eq_of_toNat_eq hvalue

section
variable {s : State} {need : Nat} (hneed : need = if bit s.sec.cakSel 4 then 8 else 4)
include hneed

theorem cakWord_collects (v : Word) (hmore : s.sec.cakBuf.length + 1 < need) :
    cakWord s v = withSec s { s.sec with cakBuf := s.sec.cakBuf ++ [v] } := by
  refine if_pos ?_
  rw [List.length_append, ← hneed]
  exact hmore

theorem cakWord_last (v : Word) (hlast : need ≤ s.sec.cakBuf.length + 1) : cakWord s v = withSec s { s.sec with
    caks := tset s.sec.caks (s.sec.cakSel % 16) (s.sec.cakBuf ++ [v]), cakBuf := [] } := by
  refine if_neg ?_
  rw [List.length_append, ← hneed]
  exact Nat.not_lt.mpr hlast

end

/-! ## The records of the configuration region (R771) -/

/-- The bytes of a record. -/
noncomputable def recordSize (k : Nat) : Nat := if k = 0 then 16 else 768

section
variable {s : State} {k : Nat} (hsel : s.rst.recSel = some k) (v : Nat)
include hsel

theorem recWord_joins (hmore : s.rst.recBuf.length + 4 < recordSize k) :
    recWord s v = ((withRst s { s.rst with recBuf := s.rst.recBuf ++ leBytes 4 v }), none) := by
  have hlength : (s.rst.recBuf ++ leBytes 4 v).length = s.rst.recBuf.length + 4 := by rw [List.length_append, leBytes_length]
  rw [← hlength] at hmore
  unfold recWord
  rw [hsel]
  unfold recordSize at hmore
  split at hmore
  · next hk => exact (if_pos hk).trans ((if_neg (Nat.lt_asymm hmore)).trans (if_neg (Nat.ne_of_lt hmore)))
  · next hk => exact (if_neg hk).trans ((if_neg (Nat.lt_asymm hmore)).trans (if_neg (Nat.ne_of_lt hmore)))

end

theorem recWord_board {s : State} (hsel : s.rst.recSel = some 0) (hlast : s.rst.recBuf.length = 12) (v : Nat) :
    recWord s v = ((withRst s { s.rst with
      recBuf := s.rst.recBuf ++ leBytes 4 v, boardFlash := s.rst.recBuf ++ leBytes 4 v }), none) := by
  have hlength : (s.rst.recBuf ++ leBytes 4 v).length = 16 := by rw [List.length_append, leBytes_length, hlast]
  simp [recWord, hsel, hlength]

theorem recWord_set {s : State} (hsel : s.rst.recSel = some 1) (hlast : s.rst.recBuf.length = 764) (v : Nat) :
    recWord s v = ((withRst s { s.rst with
      recBuf := s.rst.recBuf ++ leBytes 4 v, setFlash := s.rst.recBuf ++ leBytes 4 v }), none) := by
  have hlength : (s.rst.recBuf ++ leBytes 4 v).length = 768 := by rw [List.length_append, leBytes_length, hlast]
  simp [recWord, hsel, hlength]

theorem recWord_none {s : State} (hsel : s.rst.recSel = none) (v : Nat) : recWord s v = (s, some .rstParam) := by
  unfold recWord
  rw [hsel]

section
variable {rq : Req} {s u : State} {v : Word}

/-- A word that a record takes is answered, and what it leaves is the record's. -/
theorem answered_recData (hword : recWord s v.toNat = (u, none)) (hlive : Live rq u) :
    Answered (.rstRecData rq v) s rq 0x0011 0 .ok .none [1, 0, 0, 0] u := by
  refine answered_replyD ?_ hlive
  simp only [exec_rstRecData, execRstRecData, hword]
  rfl

theorem answered_recSel (hsel : v.toNat % 256 ≤ 1) (hlive : Live rq s) :
    Answered (.rstRecSel rq v) s rq 0x0011 0 .ok .none [1, 0, 0, 0]
      (withRst s { s.rst with recSel := some (v.toNat % 256), recBuf := [] }) := by
  refine answered_replyD ?_ hlive
  simp only [exec_rstRecSel, execRstRecSel, recSelect, if_pos hsel]
  rfl

theorem answered_recSel_refused (hsel : 1 < v.toNat % 256) (hlive : Live rq s) :
    Answered (.rstRecSel rq v) s rq 0x0011 0 .refused .rstParam [0, 0, 0, 0] s := by
  refine answered_replyD ?_ hlive
  simp only [exec_rstRecSel, execRstRecSel, recSelect, if_neg (Nat.not_le.mpr hsel)]
  rfl

end

/-- Settles O5: the two key registers, the records by word, and the save. -/
theorem keyRegistersAndRecords : Obligations.KeyRegistersAndRecords := by
  refine ⟨⟨fun v s hother => execTlaogZeroise_other hother s, fun s => ?_, fun v s hmore => ?_, fun v s hlast => ?_⟩,
    fun rq s hlive => ⟨fun v hsel => answered_recSel hsel hlive, fun v hsel => answered_recSel_refused hsel hlive,
      fun v k hsel hmore => answered_recData (recWord_joins hsel _ hmore) hlive,
      fun v hsel hlast => answered_recData (recWord_board hsel hlast _) hlive,
      fun v hsel hlast => answered_recData (recWord_set hsel hlast _) hlive, fun v hsel => ?_, fun hidle => ?_,
      fun hsaving => ?_⟩⟩
  · refine ⟨zeroise s, rfl, zeroise_sec s, ?_⟩
    rw [zeroise_sec]
    exact enterError_only (clearKeys s)
  · exact congrArg Host.Outcome.next (cakWord_collects rfl v hmore)
  · exact congrArg Host.Outcome.next (cakWord_last rfl v hlast)
  · refine answered_replyD ?_ hlive
    simp only [exec_rstRecData, execRstRecData, recWord_none hsel]
    rfl
  · have hnone : ¬ s.rst.saving.isSome = true := by simp [hidle]
    exact ⟨_, congrArg Host.Outcome.next (if_neg hnone), rfl, rfl, rfl, rfl⟩
  · refine answered_replyD (congrArg Host.Outcome.next ((if_pos (Option.isSome_iff_ne_none.mpr hsaving)).trans ?_)) hlive
    rfl

end Sys2Proof.Machine

/-!
PROOFS. Power: wake sources, envelopes and thermal limits (O9), entries to DEEP and OFF and the exit from DEEP (O7).
-/

namespace Sys2Proof.Machine

/-! ## The wake sources (R626, R766, R791, R792) -/

theorem wakeSource_starts {s : State} (hmode : s.pwr.mode = .deep) :
    wakeSource s = withPwr s { s.pwr with wake := true, mainEn := s.pwr.mainEn || !s.pwr.mainMin } := by
  unfold wakeSource
  split
  · rfl
  · next hother => exact absurd hmode hother

theorem abortEntry_none {s : State} (hentry : s.pwr.entry = none) (cls id : Nat) : abortEntry s cls id = s := by
  unfold abortEntry
  rw [hentry]

section
variable {s : State}

theorem execWakeNFall_awake (hmode : s.pwr.mode = .awake) (hentry : s.pwr.entry = none) :
    exec .wakeNFall s = .next (withPwr s { s.pwr with wakeLow := true }) := by
  rw [exec_wakeNFall]
  unfold execWakeNFall
  rw [hmode]
  exact congrArg Host.Outcome.next (abortEntry_none (s := withPwr s { s.pwr with wakeLow := true }) hentry 7 0)

theorem execWakeNFall_deep (hmode : s.pwr.mode = .deep) : exec .wakeNFall s = .next (withPwr s { s.pwr with
    wakeLow := true, wake := true, mainEn := s.pwr.mainEn || !s.pwr.mainMin }) := by
  rw [exec_wakeNFall]
  unfold execWakeNFall
  rw [hmode]
  exact congrArg Host.Outcome.next (wakeSource_starts (s := withPwr s { s.pwr with wakeLow := true }) hmode)

theorem execWakeNFall_off (hmode : s.pwr.mode = .off) (hmin : s.pwr.onMin = false) : exec .wakeNFall s = .next { s with
    pwr := { s.pwr with wakeLow := true, powerOn := true, mainEn := true }, rst := { s.rst with cause := 1 } } := by
  rw [exec_wakeNFall]
  unfold execWakeNFall
  rw [hmode]
  exact congrArg Host.Outcome.next (if_neg (Bool.eq_false_iff.mp hmin))

theorem execWakeNFall_latched (hmode : s.pwr.mode = .off) (hmin : s.pwr.onMin = true) :
    exec .wakeNFall s = .next (withPwr s { s.pwr with wakeLow := true, wake := true }) := by
  rw [exec_wakeNFall]
  unfold execWakeNFall
  rw [hmode]
  exact congrArg Host.Outcome.next (if_pos hmin)

theorem execDeepTimerExpire_deep (hmode : s.pwr.mode = .deep) (htimer : s.pwr.deepTimer = true) :
    exec .deepTimerExpire s = .next (withPwr s { s.pwr with
      deepTimer := false, wake := true, mainEn := s.pwr.mainEn || !s.pwr.mainMin }) := by
  have hrun : exec .deepTimerExpire s = .next (wakeSource (withPwr s { s.pwr with deepTimer := false })) :=
    congrArg Host.Outcome.next (if_pos ⟨hmode, htimer⟩)
  exact hrun.trans (congrArg _ (wakeSource_starts hmode))

theorem execDeepTimerExpire_other (hmode : s.pwr.mode ≠ .deep) : exec .deepTimerExpire s = .next s :=
  congrArg Host.Outcome.next (if_neg fun h => hmode h.1)

theorem execPwrMainEnMinimumLowEnd_deep (hmin : s.pwr.mainMin = true) (hmode : s.pwr.mode = .deep) :
    exec .pwrMainEnMinimumLowEnd s = .next (withPwr s { s.pwr with
      mainMin := false, mainEn := s.pwr.mainEn || s.pwr.wake }) := by
  refine congrArg Host.Outcome.next ((if_pos hmin).trans ?_)
  rw [decide_eq_true hmode, Bool.and_true]

theorem execPwrOnMinimumLowEnd_latched (hmin : s.pwr.onMin = true) (hwake : s.pwr.wake = true) :
    exec .pwrOnMinimumLowEnd s = .next { s with
      pwr := { s.pwr with onMin := false, wake := false, powerOn := true, mainEn := true },
      rst := { s.rst with cause := 1 } } :=
  congrArg Host.Outcome.next ((if_pos hmin).trans (if_pos hwake))

theorem execPwrOnMinimumLowEnd_idle (hmin : s.pwr.onMin = true) (hwake : s.pwr.wake = false) :
    exec .pwrOnMinimumLowEnd s = .next (withPwr s { s.pwr with onMin := false }) :=
  congrArg Host.Outcome.next ((if_pos hmin).trans (if_neg (Bool.eq_false_iff.mp hwake)))

end

/-! ## ACLK and the envelopes (R629 to R631, R385) -/

/-- The Kraros layer, the draws and the contexts of `t`, in `s`. -/
@[reducible] noncomputable def netAndCtxsAs (s t : State) : State := { s with net := t.net, draws := t.draws, ctxs := t.ctxs }

/-- From `s` to `t` nothing changes but the Kraros layer, the draws and the contexts. -/
def OnlyNetAndCtxs (s t : State) : Prop := t = netAndCtxsAs s t

theorem OnlyNetAndCtxs.trans {s t u : State} (hst : OnlyNetAndCtxs s t) (htu : OnlyNetAndCtxs t u) : OnlyNetAndCtxs s u :=
  Eq.trans htu (congrArg (netAndCtxsAs · u) hst :)

theorem emit_onlyNetAndCtxs (s : State) (c : Option Nat) (st : Status) (r : Reason) (b : Bytes) :
    OnlyNetAndCtxs s (emit s c st r b) :=
  have hevent : emit s c st r b = eventAs s (emit s c st r b) := emit_frame ..
  hevent.trans (congrArg (netAndCtxsAs s) hevent).symm

theorem boundEvents_onlyNetAndCtxs (s : State) : OnlyNetAndCtxs s (boundEvents s) := by
  unfold boundEvents
  dsimp only
  refine List.foldlRecOn _ _ (rfl : OnlyNetAndCtxs s s) fun a ha e _ => ha.trans ?_
  split
  · exact OnlyNetAndCtxs.trans (by exact rfl) (emit_onlyNetAndCtxs ..)
  · rfl

theorem setAclk_onlyNetAndCtxs (s : State) (mhz : Nat) :
    OnlyNetAndCtxs (withPwr s { s.pwr with aclk := mhz }) (setAclk s mhz) := boundEvents_onlyNetAndCtxs _

theorem setAclk_pwr (s : State) (mhz : Nat) : (setAclk s mhz).pwr = { s.pwr with aclk := mhz } :=
  congrArg State.pwr (setAclk_onlyNetAndCtxs s mhz)

theorem setAclk_rel (s : State) (mhz : Nat) : (setAclk s mhz).rel = s.rel :=
  (congrArg State.rel (setAclk_onlyNetAndCtxs s mhz) :)

/-- The power record of `t` and what the events of R385 change, in `s`. -/
@[reducible] noncomputable def aclkAs (s t : State) : State :=
  { s with net := t.net, draws := t.draws, pwr := t.pwr, ctxs := t.ctxs }

theorem setAclk_only (s : State) (mhz : Nat) : setAclk s mhz = aclkAs s (setAclk s mhz) :=
  Eq.trans (setAclk_onlyNetAndCtxs s mhz) (congrArg (aclkAs s) (setAclk_onlyNetAndCtxs s mhz)).symm

/-- The clock of an envelope, as the INT4 limit of 60 W leaves it (R629 to R631). -/
noncomputable def glideClock (int4 : Bool) (watts : Nat) : Nat := if int4 && decide (watts = 60) then 1700 else aclkCap watts

theorem glideClock_low (int4 : Bool) {w : Nat} (hw : w ≠ 60) : glideClock int4 w = aclkCap w := by
  unfold glideClock
  rw [decide_eq_false hw, Bool.and_false]
  rfl

/-- The clock and the voltage's bound of each envelope (R629 to R631, R786). -/
theorem envelope_caps {w mhz mv : Nat} {int4 : Bool}
    (h : (w = 60 ∧ int4 = false ∧ mhz = 2000 ∧ mv = 850) ∨ (w = 60 ∧ int4 = true ∧ mhz = 1700 ∧ mv = 850) ∨
      (w = 45 ∧ mhz = 1600 ∧ mv = 800) ∨ (w = 30 ∧ mhz = 900 ∧ mv = 720) ∨ (w = 15 ∧ mhz = 400 ∧ mv = 650)) :
    glideClock int4 w = mhz ∧ vddMax w = mv := by
  have hcaps {k m v : Nat} (hclock : glideClock int4 k = m) (hvolt : vddMax k = v) (hw : w = k) (hrest : mhz = m ∧ mv = v) :
      glideClock int4 w = mhz ∧ vddMax w = mv :=
    ⟨(congrArg _ hw).trans (hclock.trans hrest.1.symm), (congrArg _ hw).trans (hvolt.trans hrest.2.symm)⟩
  have hlow {k : Nat} (hk : k ≠ 60) : glideClock int4 k = aclkCap k := glideClock_low int4 hk
  exact h.elim (fun h => hcaps (congrArg (glideClock · 60) h.2.1) rfl h.1 h.2.2)
    (Or.elim · (fun h => hcaps (congrArg (glideClock · 60) h.2.1) rfl h.1 h.2.2)
    (Or.elim · (And.elim (hcaps (hlow (by decide)) rfl)) (Or.elim · (And.elim (hcaps (hlow (by decide)) rfl)) (And.elim (hcaps (hlow (by decide)) rfl)))))

/-- The state of a glide that reaches its envelope, before its clock is set. -/
noncomputable def glided (s : State) (w : Nat) : State :=
  writeAvs (withPwr s { s.pwr with gliding := false, int4 := s.pwr.int4 && decide (w = 60) }) w

theorem execEnvelopeGlide_gliding {s : State} {w mhz : Nat} (hglide : s.pwr.gliding = true) (hw : s.pwr.watts = w)
    (hclock : glideClock s.pwr.int4 w = mhz) : exec .envelopeGlide s = .next (setAclk (glided s w) mhz) := by
  subst hw hclock
  refine congrArg Host.Outcome.next ((if_neg ?_).trans (congrArg (setAclk (glided s s.pwr.watts)) ?_))
  · rw [hglide]
    exact Bool.false_ne_true
  · unfold glideClock
    cases s.pwr.int4 && decide (s.pwr.watts = 60) <;> rfl

/-- The state in which the INT4 limit is off again, with the hour's record of it. -/
noncomputable def burstAgain (s : State) : State :=
  draw { s with
    pwr := { s.pwr with int4 := false },
    rel := { s.rel with hourly := tset s.rel.hourly 14 (tget s.rel.hourly 0 14 + Config.freeAmount s.draws 14) } }

theorem burstAgain_only (s : State) : ∀ t, t = setAclk (burstAgain s) 2000 →
    t = { s with net := t.net, draws := t.draws, pwr := t.pwr, ctxs := t.ctxs, rel := { s.rel with hourly := t.rel.hourly } } := by
  intro t ht
  have hrel : t.rel = (burstAgain s).rel := (congrArg State.rel ht).trans (setAclk_rel ..)
  rw [hrel, ht]
  exact setAclk_only ..

section
variable {s : State} (hwatts : s.pwr.watts = 60) (hglide : s.pwr.gliding = false)
include hwatts hglide

theorem execInt4Limit_changes {above : Bool} (hint4 : s.pwr.int4 = !above) :
    ¬ (s.pwr.watts ≠ 60 ∨ s.pwr.gliding = true ∨ s.pwr.int4 = above) := by
  rw [hint4, hglide]
  rintro (h | h | h)
  · exact h hwatts
  · exact Bool.false_ne_true h
  · exact Bool.not_not_eq.mpr rfl h

theorem execInt4Limit_above (hint4 : s.pwr.int4 = false) :
    exec (.int4Limit true) s = .next (setAclk (withPwr s { s.pwr with int4 := true }) 1700) :=
  congrArg Host.Outcome.next (if_neg (execInt4Limit_changes (above := true) hwatts hglide hint4))

theorem execInt4Limit_noBurst (hint4 : s.pwr.int4 = true) (hburst : noBurst s = true) :
    exec (.int4Limit false) s = .next s :=
  congrArg Host.Outcome.next ((if_neg (execInt4Limit_changes (above := false) hwatts hglide hint4)).trans (if_pos hburst))

theorem execInt4Limit_below (hint4 : s.pwr.int4 = true) (hburst : noBurst s = false) :
    exec (.int4Limit false) s = .next (setAclk (burstAgain s) 2000) :=
  congrArg Host.Outcome.next ((if_neg (execInt4Limit_changes (above := false) hwatts hglide hint4)).trans (if_neg (Bool.eq_false_iff.mp hburst)))

end

/-! ## The thermal outputs (R800 to R802) -/

theorem execThermN_hot {temp : Nat} (htemp : 100 ≤ temp) (s : State) :
    exec (.thermN temp) s = .next (withPwr s { s.pwr with thermLow := true }) :=
  congrArg Host.Outcome.next (if_pos htemp)

theorem execThermN_held {temp : Nat} (hlow : 95 ≤ temp) (hhigh : temp < 100) (s : State) : exec (.thermN temp) s = .next s :=
  congrArg Host.Outcome.next ((if_neg (Nat.not_le.mpr hhigh)).trans (if_neg (Nat.not_lt.mpr hlow)))

theorem execThermN_cool {temp : Nat} (htemp : temp < 95) (s : State) :
    exec (.thermN temp) s = .next (withPwr s { s.pwr with thermLow := false }) :=
  congrArg Host.Outcome.next ((if_neg (Nat.not_le.mpr (htemp.trans (by decide)))).trans (if_pos htemp))

theorem execThermalTrip_on {s : State} (hmode : s.pwr.mode ≠ .off) : exec .thermalTrip s = .next { coldReset s 0 with
    pwr := { (coldReset s 0).pwr with mode := .off, powerOn := false, mainEn := false, startup := false },
    rel := { (coldReset s 0).rel with orderly := false } } :=
  congrArg Host.Outcome.next (if_neg hmode)

/-- Settles O9, case by case: each wake source by the power mode, each envelope by its clock's cap, each thermal output by its
threshold. -/
theorem wakeSourcesAndEnvelopes : Obligations.WakeSourcesAndEnvelopes :=
  ⟨fun _ => ⟨execWakeNFall_awake, execWakeNFall_deep, execWakeNFall_off, execWakeNFall_latched,
      execDeepTimerExpire_deep, execDeepTimerExpire_other, execPwrMainEnMinimumLowEnd_deep, execPwrOnMinimumLowEnd_latched,
      execPwrOnMinimumLowEnd_idle⟩,
    fun s w mhz hglide hw _ hcase =>
      have hcaps := envelope_caps hcase
      have hpwr := setAclk_pwr (glided s w) mhz
      ⟨_, execEnvelopeGlide_gliding hglide hw hcaps.1, hpwr ▸ hcaps.2 ▸ Nat.min_le_left .., hpwr ▸ rfl, setAclk_only (glided s w) mhz⟩,
    fun s hwatts hglide => ⟨fun hint4 => ⟨_, execInt4Limit_above hwatts hglide hint4, setAclk_pwr .., setAclk_only ..⟩,
      execInt4Limit_noBurst hwatts hglide,
      fun hint4 hburst => ⟨_, execInt4Limit_below hwatts hglide hint4 hburst, setAclk_pwr .., burstAgain_only s _ rfl⟩⟩,
    fun _ s => ⟨fun h => execThermN_hot h s, fun hlow hhigh => execThermN_held hlow hhigh s, fun h => execThermN_cool h s⟩,
    fun _ hmode => ⟨_, execThermalTrip_on hmode, rfl, rfl, rfl, rfl, rfl, rfl, rfl, rfl, rfl, rfl, rfl⟩⟩

/-! ## ENTER (R618 to R622) -/

/-- The step's mark on an object. -/
noncomputable def dirtyMark (o : Nat × Obj) : Nat × Obj :=
  if o.2.homeTier = 3 ∧ o.2.upper.isSome then (o.1, { o.2 with dirty := true }) else o

theorem dirtyMark_dirty {o : Nat × Obj} (hhome : (dirtyMark o).2.homeTier = 3) (hupper : (dirtyMark o).2.upper ≠ none) :
    (dirtyMark o).2.dirty = true := by
  unfold dirtyMark at *
  split
  · rfl
  · next hmark =>
    rw [if_neg hmark] at hhome hupper
    exact absurd ⟨hhome, Option.isSome_iff_ne_none.mpr hupper⟩ hmark

/-- Step 2 changes the contexts alone. -/
theorem enterStep2_only (s : State) : enterStep2 s = withCtxs s (enterStep2 s).ctxs := by
  have hpages (l : List (Nat × Nat × Obj)) : l.foldl (fun a p => unmapPage a p.1 p.2.1 p.2.2) s =
      withCtxs s (l.foldl (fun a p => unmapPage a p.1 p.2.1 p.2.2) s).ctxs :=
    List.foldlRecOn (motive := fun t : State => t = withCtxs s t.ctxs) l _ rfl fun t ht p _ =>
      (congrArg (withCtxs · (unmapPage t p.1 p.2.1 p.2.2).ctxs) ht :)
  exact congrArg (fun t : State => { t with ctxs := (enterStep2 s).ctxs }) (hpages _)

/-- Step 2 leaves every upper copy of an object at home in T3 DIRTY. -/
theorem enterStep2_dirty (s : State) : ∀ e ∈ (enterStep2 s).ctxs, ∀ o ∈ e.2.objs,
    o.2.homeTier = 3 → o.2.upper ≠ none → o.2.dirty = true := by
  intro e he o ho hhome hupper
  obtain ⟨e', -, rfl⟩ := List.mem_map.mp he
  obtain ⟨o', -, rfl⟩ := List.mem_map.mp ho
  exact dirtyMark_dirty hhome hupper

section
variable {rq : Req} {client : Nat} {s : State}

/-- The state from which the interim reply of an entry leaves. -/
noncomputable def entered (s : State) (rq : Req) (target : Nat) : State :=
  withPwr s { s.pwr with entry := some { target := target, req := some rq }, saveOk := true }

/-- ENTER where no entry is in progress: the refusers, then the size of the save. -/
noncomputable def enterIdle (s : State) (rq : Req) (target : Nat) : State :=
  match refuser s target with
  | some who => refuseEnter s rq target who
  | none =>
    if target = 3 ∧ saveArea s < Config.freeAmount s.draws 621 then replyD (draw s) rq 0x0190 .noQuota .pwrNoSave []
    else interim (entered (if target = 3 then saveTables (enterStep2 (draw s)) else persistOdo s) rq target) rq 0x0190 0

/-- ENTER of DEEP or OFF by a session's client: one in progress, then the refusers, then the size of the save. -/
theorem execPowerVoteEnter_eq (hclient : client ≠ 0) {target : Nat} (htarget : target = 3 ∨ target = 4) :
    exec (.powerVoteEnter rq client target) s =
      .next (if s.pwr.entry.isSome then replyD s rq 0x0190 .busy .pwrEntering [] else enterIdle s rq target) :=
  congrArg Host.Outcome.next ((if_neg hclient).trans (if_neg fun h => htarget.elim h.1 h.2))

theorem answered_enterBusy (hlive : Live rq s) (hclient : client ≠ 0) {target : Nat} (htarget : target = 3 ∨ target = 4)
    (hentry : s.pwr.entry ≠ none) : Answered (.powerVoteEnter rq client target) s rq 0x0190 0 .busy .pwrEntering [] s :=
  answered_replyD ((execPowerVoteEnter_eq hclient htarget).trans
    (congrArg _ (if_pos (Option.isSome_iff_ne_none.mpr hentry)))) hlive

/-- No entry being in progress, the refuser decides. -/
theorem execPowerVoteEnter_idle (hclient : client ≠ 0) {target : Nat} (htarget : target = 3 ∨ target = 4)
    (hentry : s.pwr.entry = none) :
    exec (.powerVoteEnter rq client target) s = .next (enterIdle s rq target) :=
  (execPowerVoteEnter_eq hclient htarget).trans (congrArg _ (if_neg fun h => Option.isSome_iff_ne_none.mp h hentry))

theorem enterIdle_refused {target : Nat} {who : Nat × Nat} (h : refuser s target = some who) :
    enterIdle s rq target = refuseEnter s rq target who := by
  unfold enterIdle
  rw [h]

theorem enterIdle_unrefused {target : Nat} (h : refuser s target = none) : enterIdle s rq target =
    if target = 3 ∧ saveArea s < Config.freeAmount s.draws 621 then replyD (draw s) rq 0x0190 .noQuota .pwrNoSave []
    else interim (entered (if target = 3 then saveTables (enterStep2 (draw s)) else persistOdo s) rq target) rq 0x0190 0 := by
  unfold enterIdle
  rw [h]

theorem answered_enterRefused (hlive : Live rq s) (hclient : client ≠ 0) {target : Nat} (htarget : target = 3 ∨ target = 4)
    (hentry : s.pwr.entry = none) {cl id : Nat} (hrefuser : refuser s target = some (cl, id)) :
    Answered (.powerVoteEnter rq client target) s rq 0x0190 0 .refused .pwrRefused (leBytes 1 cl ++ [0] ++ leBytes 2 id)
      (withPwr s { s.pwr with
        log := tset s.pwr.log s.pwr.logHead { kind := 1, target := target, cls := cl, id := id, hours := s.rel.odo.hours },
        logHead := (s.pwr.logHead + 1) % 16, refused := min (s.pwr.refused + 1) (2 ^ 32 - 1) }) :=
  have hrun := (execPowerVoteEnter_idle hclient htarget hentry).trans (congrArg _ (enterIdle_refused hrefuser))
  answered_replyD hrun hlive

/-- An ENTER that none refuses and whose save fits begins the entry with an interim reply. -/
theorem execPowerVoteEnter_accepted (hclient : client ≠ 0) {target : Nat} (htarget : target = 3 ∨ target = 4)
    (hentry : s.pwr.entry = none) (hrefuser : refuser s target = none)
    (hfits : ¬ (target = 3 ∧ saveArea s < Config.freeAmount s.draws 621)) {u : State}
    (hu : (if target = 3 then saveTables (enterStep2 (draw s)) else persistOdo s) = u) :
    exec (.powerVoteEnter rq client target) s = .next (interim (entered u rq target) rq 0x0190 0) := by
  subst hu
  exact (execPowerVoteEnter_idle hclient htarget hentry).trans
    (congrArg _ ((enterIdle_unrefused hrefuser).trans (if_neg hfits)))

theorem answered_enterNoSave (hlive : Live rq s) (hclient : client ≠ 0) (hentry : s.pwr.entry = none)
    (hrefuser : refuser s 3 = none) (hlarge : saveArea s < Config.freeAmount s.draws 621) :
    Answered (.powerVoteEnter rq client 3) s rq 0x0190 0 .noQuota .pwrNoSave [] s :=
  ⟨_, (execPowerVoteEnter_idle hclient (.inl rfl) hentry).trans
      (congrArg _ ((enterIdle_unrefused hrefuser).trans (if_pos ⟨rfl, hlarge⟩))),
    replyD_replied (draw s) rq _ _ _ _ hlive, replyAs_only (draw s) ..⟩

/-- An entry to DEEP that is accepted: the interim reply has left, and the upper copies of T3 are DIRTY. -/
theorem execPowerVoteEnter_deep (hclient : client ≠ 0) (hentry : s.pwr.entry = none) (hrefuser : refuser s 3 = none)
    (hfits : ¬ saveArea s < Config.freeAmount s.draws 621) :
    ∃ t, exec (.powerVoteEnter rq client 3) s = .next t ∧
      t.net.sent.head? = some
        { sess := rq.sess, cls := .rsp, op := 0x0190, seq := rq.seq, interim := true,
          wire := some (wireTo s rq.iface rq.port rq.src rq.sport) } ∧
      t.pwr.entry = some { target := 3, req := some rq } ∧
      ∀ e ∈ t.ctxs, ∀ o ∈ e.2.objs, o.2.homeTier = 3 → o.2.upper ≠ none → o.2.dirty = true :=
  ⟨_, execPowerVoteEnter_accepted hclient (.inl rfl) hentry hrefuser (fun h => hfits h.2)
    ((if_pos rfl).trans (congrArg saveTables (enterStep2_only (draw s)))), rfl, rfl, enterStep2_dirty (draw s)⟩

end

/-! ## A vote aborts an entry (R623) -/

/-- An entry whose reply has left is aborted without one, and logged. -/
theorem abortEntry_answered {s : State} {e : PwrEntry} (hentry : s.pwr.entry = some e) (hreq : e.req = none) (cls id : Nat) :
    abortEntry s cls id = logRefusal (withPwr s { s.pwr with entry := none, saved := none }) 2 e.target cls id := by
  unfold abortEntry
  rw [hentry]
  dsimp only
  rw [hreq]

/-- A vote for one of domains [10:0] that is cast while no descent runs joins the votes, and aborts the entry in progress. -/
theorem castVote_low {s : State} {mask : Nat} (hdescent : descending s = false) (hmask : mask % 2 ^ 11 ≠ 0) (cls id : Nat) :
    ∃ votes, castVote s cls id mask = syncUp (abortEntry (withPwr s { s.pwr with votes := votes }) cls id) := by
  unfold castVote voteCast
  rw [cancelDescent_awake hdescent]
  exact ⟨_, congrArg syncUp (if_pos hmask)⟩

theorem castVote_aborts {s : State} {cls id mask target : Nat} (hentry : s.pwr.entry = some { target := target, req := none })
    (hdescent : descending s = false) (hmask : mask % 2 ^ 11 ≠ 0) : ∃ pwr, castVote s cls id mask = withPwr s pwr ∧
      pwr.entry = none ∧ pwr.aborted = min (s.pwr.aborted + 1) (2 ^ 32 - 1) ∧
      tget? pwr.log s.pwr.logHead = some { kind := 2, target := target, cls := cls, id := id, hours := s.rel.odo.hours } := by
  obtain ⟨votes, hcast⟩ := castVote_low hdescent hmask cls id
  rw [abortEntry_answered (by exact hentry) rfl] at hcast
  exact ⟨_, hcast, rfl, rfl, tget?_tset_self ..⟩

/-- The bits below 11 of a mask are among the domains it names. -/
theorem namedDomains_low (m : Nat) : namedDomains m % 2 ^ 11 = m % 2 ^ 11 := by
  have hhigh : m / 2 ^ 16 % 2 ^ 16 * 2 ^ 16 = m / 2 ^ 16 % 2 ^ 16 * 2 ^ 5 * 2 ^ 11 :=
    (Nat.mul_assoc (m / 2 ^ 16 % 2 ^ 16) (2 ^ 5) (2 ^ 11)).symm
  unfold namedDomains
  rw [hhigh, Nat.add_mul_mod_self_right, Nat.mod_mod]

theorem answered_castAborts {rq : Req} {client m target : Nat} {s : State} (hlive : Live rq s) (hclient : client ≠ 0)
    (hentry : s.pwr.entry = some { target := target, req := none }) (hdescent : descending s = false) (hm : m % 2 ^ 11 ≠ 0) :
    ∃ u, Answered (.powerVoteCast rq client m) s rq 0x0190 0 .ok .none [] u ∧ u.pwr.entry = none ∧
      u.pwr.aborted = min (s.pwr.aborted + 1) (2 ^ 32 - 1) ∧
      tget? u.pwr.log s.pwr.logHead = some
        { kind := 2, target := target, cls := client, id := rq.sess % 2 ^ 16, hours := s.rel.odo.hours } := by
  obtain ⟨pwr, hcast, hnone, habort, hlog⟩ := castVote_aborts (cls := client) (id := rq.sess % 2 ^ 16) hentry hdescent
    ((namedDomains_low m).symm ▸ hm)
  have hrun : exec (.powerVoteCast rq client m) s = .next (replyD (castVote s client (rq.sess % 2 ^ 16) (namedDomains m))
      rq 0x0190 .ok .none []) := congrArg Host.Outcome.next (voteCommand_session hclient m true)
  exact ⟨(withPwr s pwr), answered_replyD (hrun.trans (by rw [hcast])) hlive, hnone, habort, hlog⟩

/-! ## The exit from DEEP (R606, R625, R627, R628) -/

/-- The state at the exit from DEEP, with its PLLs locked and its tables to be restored. -/
noncomputable def deepAwake (s : State) (ok : Bool) : State :=
  { s with
    pwr := { s.pwr with
      mode := .awake, wake := false, deepTimer := false, mainMin := false, restoring := restoreOrder s,
      saveOk := ok && s.pwr.saved == some s.pwr.saveCount && !s.sec.error },
    rst := { s.rst with lock := 0xFF } }

/-- The exit verifies the kept training of an enabled DDR4 controller. -/
noncomputable def ddrAwake (s s1 : State) : State := if pageOn s 0x0003_8000 then ddrTrain s1 true else s1

/-- The exit starts an enabled Guardrail with its stops latched and its fault kept. -/
noncomputable def grdAwake (s s2 : State) : State :=
  if pageOn s grdPage then { grdStart s2 with grd := { (grdStart s2).grd with fault := s.grd.fault } } else s2

/-- The exit persists an Odometer that has not been persisted in the last 64 units. -/
noncomputable def odoAwake (s s3 : State) : State := if s.rel.odo.persistHours / 64 < s.rel.odo.hours / 64 then persistOdo s3 else s3

/-- What an exit from DEEP may change of `t`, in `s`. -/
@[reducible] noncomputable def awakeAs (s t : State) : State :=
  { s with net := t.net, draws := t.draws, pwr := t.pwr, rst := t.rst, ddr := t.ddr, grd := t.grd, rel := t.rel }

/-- From `s` to `t` nothing changes but what an exit from DEEP may change. -/
def OnlyAwake (s t : State) : Prop := t = awakeAs s t

theorem OnlyAwake.trans {s t u : State} (hst : OnlyAwake s t) (htu : OnlyAwake t u) : OnlyAwake s u :=
  Eq.trans htu (congrArg (awakeAs · u) hst :)

theorem stateChanged_onlyAwake (old : Nat) (s : State) : OnlyAwake s (stateChanged old s) :=
  have hevent : stateChanged old s = eventAs s (stateChanged old s) := stateChanged_frame ..
  hevent.trans (congrArg (awakeAs s) hevent).symm

theorem ddrAwake_only (s s1 : State) : OnlyAwake s1 (ddrAwake s s1) :=
  iteInduction (motive := OnlyAwake s1) (fun _ => rfl) (fun _ => rfl)

theorem grdAwake_only (s s2 : State) : OnlyAwake s2 (grdAwake s s2) :=
  iteInduction (motive := OnlyAwake s2) (fun _ => rfl) (fun _ => rfl)

theorem odoAwake_only (s s3 : State) : OnlyAwake s3 (odoAwake s s3) :=
  iteInduction (motive := OnlyAwake s3) (fun _ => rfl) (fun _ => rfl)

theorem ddrAwake_keeps {β : Type} {g : State → β} (hg : ∀ s ddr, g (withDdr s ddr) = g s) (s s1 : State) :
    g (ddrAwake s s1) = g s1 :=
  iteInduction (motive := fun t => g t = g s1) (fun _ => hg ..) (fun _ => rfl)

theorem grdAwake_keeps {β : Type} {g : State → β} (hg : ∀ s grd, g (withGrd s grd) = g s) (s s2 : State) :
    g (grdAwake s s2) = g s2 :=
  iteInduction (motive := fun t => g t = g s2) (fun _ => hg s2 _) (fun _ => rfl)

/-- The state that an exit from DEEP reaches. -/
noncomputable def deepExited (s : State) (ok : Bool) : State := stateChanged 3 (odoAwake s (grdAwake s (ddrAwake s (deepAwake s ok))))

section
variable (s : State) (ok : Bool)

/-- Of the records the Odometer and the exit's report change their own alone. -/
theorem deepExited_eq {β : Type} {g : State → β} (hg : ∀ s net draws rel, g { s with net := net, draws := draws, rel := rel } = g s) :
    g (deepExited s ok) = g (grdAwake s (ddrAwake s (deepAwake s ok))) := by
  unfold deepExited
  rw [stateChanged_frame, hg _ _ _ (odoAwake s _).rel]
  exact iteInduction (motive := fun t => g t = g (grdAwake s _)) (fun _ => hg _ (grdAwake s _).net (grdAwake s _).draws _) (fun _ => rfl)

theorem deepExited_pwr : (deepExited s ok).pwr = (deepAwake s ok).pwr :=
  (deepExited_eq s ok (g := State.pwr) fun _ _ _ _ => rfl).trans
    ((grdAwake_keeps (g := State.pwr) (fun _ _ => rfl) ..).trans (ddrAwake_keeps (g := State.pwr) (fun _ _ => rfl) ..))

theorem deepExited_rst : (deepExited s ok).rst = (deepAwake s ok).rst :=
  (deepExited_eq s ok (g := State.rst) fun _ _ _ _ => rfl).trans
    ((grdAwake_keeps (g := State.rst) (fun _ _ => rfl) ..).trans (ddrAwake_keeps (g := State.rst) (fun _ _ => rfl) ..))

theorem deepExited_ddr : (deepExited s ok).ddr = (ddrAwake s (deepAwake s ok)).ddr :=
  (deepExited_eq s ok (g := State.ddr) fun _ _ _ _ => rfl).trans (grdAwake_keeps (g := State.ddr) (fun _ _ => rfl) ..)

theorem deepExited_grd : (deepExited s ok).grd = (grdAwake s (ddrAwake s (deepAwake s ok))).grd :=
  deepExited_eq s ok (g := State.grd) fun _ _ _ _ => rfl

theorem deepExited_only : OnlyAwake s (deepExited s ok) :=
  OnlyAwake.trans (t := deepAwake s ok) rfl
    ((ddrAwake_only ..).trans ((grdAwake_only ..).trans ((odoAwake_only ..).trans (stateChanged_onlyAwake ..))))

section
variable {s : State} (ok : Bool)

theorem deepExited_ddr_on (hon : pageOn s 0x0003_8000 = true) :
    (deepExited s ok).ddr = (ddrTrain (deepAwake s ok) true).ddr :=
  (deepExited_ddr s ok).trans (congrArg State.ddr (if_pos hon))

theorem deepExited_ddr_off (hoff : pageOn s 0x0003_8000 = false) : (deepExited s ok).ddr = s.ddr :=
  (deepExited_ddr s ok).trans (congrArg State.ddr (if_neg (Bool.eq_false_iff.mp hoff) : ddrAwake s (deepAwake s ok) = _) :)

theorem deepExited_grd_on (hon : pageOn s grdPage = true) :
    (deepExited s ok).grd = { (grdStart (ddrAwake s (deepAwake s ok))).grd with fault := s.grd.fault } :=
  (deepExited_grd s ok).trans (congrArg State.grd (if_pos hon))

theorem deepExited_grd_off (hoff : pageOn s grdPage = false) : (deepExited s ok).grd = s.grd :=
  (deepExited_grd s ok).trans ((congrArg State.grd (if_neg (Bool.eq_false_iff.mp hoff))).trans
    (ddrAwake_keeps (g := State.grd) (fun _ _ => rfl) ..))

end

end

theorem execDeepExit_frame {s : State} (hmode : s.pwr.mode = .deep) (hwake : s.pwr.wake = true) (hmain : s.pwr.mainEn = true)
    (ok : Bool) : ∃ t, exec (.deepExit ok) s = .next t ∧
      t.pwr = (deepAwake s ok).pwr ∧ t.rst = (deepAwake s ok).rst ∧
      (pageOn s 0x0003_8000 = true → t.ddr.training = true ∧ t.ddr.verifying = true) ∧
      (pageOn s 0x0003_8000 = false → t.ddr = s.ddr) ∧
      (pageOn s grdPage = true → t.grd.stopped = 15 ∧ t.grd.fault = s.grd.fault ∧ t.grd.heard = []) ∧
      (pageOn s grdPage = false → t.grd = s.grd) ∧ OnlyAwake s t :=
  ⟨deepExited s ok, congrArg Host.Outcome.next (if_pos ⟨hmode, hwake, hmain⟩), deepExited_pwr s ok, deepExited_rst s ok,
    fun hon => ⟨congrArg Ddr.training (deepExited_ddr_on ok hon), congrArg Ddr.verifying (deepExited_ddr_on ok hon)⟩,
    deepExited_ddr_off ok,
    fun hon => ⟨congrArg Grd.stopped (deepExited_grd_on ok hon), (congrArg Grd.fault (deepExited_grd_on ok hon) :),
      congrArg Grd.heard (deepExited_grd_on ok hon)⟩,
    deepExited_grd_off ok, deepExited_only s ok⟩

/-! ## The tables are restored (R625, R628) -/

section
variable {s : State} {c : Nat} {rest : List Nat} (hrest : s.pwr.restoring = c :: rest) (hmode : s.pwr.mode = .awake)
  (hddr : s.ddr.inService = true)
include hrest hmode hddr

theorem execTableRestore_good (hgood : s.pwr.saveOk = true) :
    exec .tableRestore s = .next (restoreCtx (withPwr s { s.pwr with restoring := rest }) c) := by
  rw [exec_tableRestore]
  unfold execTableRestore
  rw [hrest]
  exact congrArg Host.Outcome.next ((if_neg (by simp [hmode, hddr])).trans (if_pos hgood))

theorem execTableRestore_bad (hbad : s.pwr.saveOk = false) :
    exec .tableRestore s = .next (emitDev (s.ctxs.foldl
      (fun a e => if e.2.st = .destroying then a else beginDestroy a e.1 none e.2)
      (withPwr s { s.pwr with restoring := [] })) .pwrRestoreFail []) := by
  rw [exec_tableRestore]
  unfold execTableRestore
  rw [hrest]
  exact congrArg Host.Outcome.next ((if_neg (by simp [hmode, hddr])).trans (if_neg (by simp [hbad])))

end

/-- One context's tables restored: its streams renewed, and its lost objects, if there are any, told. -/
theorem restoreCtx_eq {s : State} {c : Nat} {x : Ctx} (hctx : tget? s.ctxs c = some x) : restoreCtx s c =
    if 0 < lostObjects x then
      emit (setCtx s c (renewStreams x)) (some c) .ok .pwrT3Lost (leBytes 4 (lostObjects x))
    else setCtx s c (renewStreams x) := by
  unfold restoreCtx
  rw [hctx]

theorem tableRestore_context {s : State} {c : Nat} {rest : List Nat} {x : Ctx} (hrest : s.pwr.restoring = c :: rest)
    (hmode : s.pwr.mode = .awake) (hddr : s.ddr.inService = true) (hgood : s.pwr.saveOk = true)
    (hctx : tget? s.ctxs c = some x) {u : State}
    (hu : u = setCtx (withPwr s { s.pwr with restoring := rest }) c (renewStreams x)) :
    (lostObjects x = 0 → exec .tableRestore s = .next u) ∧
      (0 < lostObjects x → EventRoom s → Reports .tableRestore s (some c) .ok .pwrT3Lost (leBytes 4 (lostObjects x)) u) := by
  have hrun := execTableRestore_good hrest hmode hddr hgood
  rw [restoreCtx_eq (by exact hctx), ← hu] at hrun
  exact ⟨fun hnone => hrun.trans (congrArg _ (if_neg (Nat.not_lt.mpr hnone.le))), fun hlost hroom =>
    reports_emit (hrun.trans (congrArg _ (if_pos hlost))) (by rw [hu]; exact hroom)⟩

/-- Settles O7: ENTER by the entry in progress, the refusers and the size of the save; the aborting vote; the exit from DEEP and
the restoration of the tables. -/
theorem powerEntryAndExit : Obligations.PowerEntryAndExit := by
  refine ⟨fun rq client s hlive hclient => ⟨fun target htarget => ⟨answered_enterBusy hlive hclient htarget,
      fun _ hlow => if_pos hlow, fun cl id hentry => answered_enterRefused hlive hclient htarget hentry⟩, ?_, ?_, ?_⟩, ?_, ?_, ?_⟩
  · exact fun hentry hrefuser =>
      execPowerVoteEnter_accepted hclient (.inr rfl) hentry hrefuser (by omega) (if_neg (by omega))
  · intro hentry hrefuser
    by_cases hlarge : saveArea s < Config.freeAmount s.draws 621
    · exact .inl (answered_enterNoSave hlive hclient hentry hrefuser hlarge)
    · exact .inr (execPowerVoteEnter_deep hclient hentry hrefuser hlarge)
  · exact fun m target hentry hdescent hm => answered_castAborts hlive hclient hentry hdescent hm
  · exact fun ok s hmode hwake hmain => execDeepExit_frame hmode hwake hmain ok
  · exact fun c rest x s hrest hmode hddr hgood hctx u hu => tableRestore_context hrest hmode hddr hgood hctx hu
  · intro s hrest hmode hddr hbad
    obtain ⟨c, rest, hcons⟩ := List.exists_cons_of_ne_nil hrest
    exact execTableRestore_bad hcons hmode hddr hbad

end Sys2Proof.Machine

/-!
PROOFS. Device sets: remote writes (O45), and set sessions, crossings and aggregated attestation (O44).
-/

namespace Sys2Proof.Machine

/-! ## Settled writes (R722, R725, R727) -/

theorem mirrorDone_none {s : State} (hnone : s.set.mirrors = []) (rq : Req) (ok : Bool) : mirrorDone s rq ok = s := by
  unfold mirrorDone
  rw [hnone]
  rfl

/-- The outcome of a mirror copy goes to the mirrored write from the state before the copy's bytes are counted. -/
theorem settleOut_mirror {w : RemoteOut} {rq : Req} (hsrc : w.src = .mirror rq) (s : State) (st : Status) (r : Reason) :
    settleOut s w st r = mirrorDone s rq (decide (st = .ok)) := by
  unfold settleOut
  rw [hsrc]

/-- A copy of one byte, sent for context 0 and behind the 16 bytes of its header. -/
noncomputable def byteCopy : RemoteOut :=
  { num := 1, ctx := 0, payload := List.replicate 17 0,
    src := .mirror { iface := .host, sess := 0, src := 0, sport := 0, port := 0, seq := 0, ctx := 0 } }

/-- A device with context 0 and nothing else. -/
noncomputable def oneContext : State := { ctxs := [(0, {})] }

/-- Refutes O45: a settled mirror copy counts no bytes in REMOTE_OUT. -/
theorem not_remoteWrites : ¬ Obligations.RemoteWrites := by
  rintro ⟨-, -, hcounts⟩
  obtain ⟨y, hy, hcount⟩ := hcounts byteCopy .ok .none {} oneContext rfl
  rw [settleOut_mirror rfl, mirrorDone_none rfl] at hy
  obtain rfl : ({} : Ctx) = y := Option.some.inj hy
  exact absurd hcount (by decide)

/-! ## What leaves toward a peer (R710 to R712, R723) -/

theorem peerAt_setPeer_ne (s : State) {i k : Nat} (hne : k ≠ i) (p : Peer) : peerAt (setPeer s i p) k = peerAt s k :=
  tget_tset_ne _ _ _ _ _ hne

/-- A HELLO OPEN that leaves on the port of its peer. -/
theorem sendHello_open_sent {u : State} {i : Nat} {p : Peer} (hp : peerAt u i = p) (hopener : p.opener = true) :
    (sendHello u i 0 []).net.sent =
      { sess := p.sess.getD 0, cls := .cmd, op := 0x0001, seq := p.cmdSeq % 2 ^ 32, payload := [0, 1, 0, 32, 0, 0, 0, 0],
        wire := some (wireTo u .host p.port ((memberAddrs u i).headD 0) (live u 0x0023_0010 % 2 ^ 16)) } :: u.net.sent := by
  have hwire : peerWire u i = some (wireTo u .host p.port ((memberAddrs u i).headD 0) (live u 0x0023_0010 % 2 ^ 16)) :=
    (if_pos (hp ▸ hopener)).trans (by rw [hp])
  rw [sendHello, if_pos rfl, hwire]
  exact hp ▸ rfl

/-! ## Set sessions (R710 to R712, R726) -/

section
variable {i : Nat} {s : State}

/-- The peer toward which an OPEN is about to leave. -/
noncomputable def opening (s : State) (i : Nat) : Peer :=
  { peerAt s i with state := .proving, port := if Config.freeBit s.draws then 1 else 2, sess := none, opener := true }

theorem opening_port (s : State) (i : Nat) : (opening s i).port = 1 ∨ (opening s i).port = 2 := by
  unfold opening
  dsimp only
  split
  · exact .inl rfl
  · exact .inr rfl

/-- The state in which an OPEN toward a peer has left. -/
noncomputable def opened (s : State) (i : Nat) : State := sendHello (draw (setPeer s i (opening s i))) i 0 []

theorem execSetSessionOpen_opens (hup : s.rst.up = true) (hmode : s.pwr.mode = .awake) (hmember : bit (setMembers s) i = true)
    (hlower : i < ownIndex s) (hdown : (peerAt s i).state ≠ .up) : exec (.setSessionOpen i) s = .next (opened s i) :=
  congrArg Host.Outcome.next (if_pos ⟨hup, hmode, hmember, hlower, hdown⟩)

theorem peerAt_opened (s : State) (i : Nat) : peerAt (opened s i) i =
    { opening s i with cmdSeq := (peerAt s i).cmdSeq + 1, awaiting := some ((peerAt s i).cmdSeq, 0) } :=
  (peerAt_setPeer ..).trans (congrArg (fun p : Peer => { p with cmdSeq := p.cmdSeq + 1, awaiting := some (p.cmdSeq, 0) })
    (peerAt_setPeer s i (opening s i)))

theorem opened_sent (s : State) (i : Nat) : (opened s i).net.sent =
    { sess := 0, cls := .cmd, op := 0x0001, seq := (peerAt s i).cmdSeq % 2 ^ 32, payload := [0, 1, 0, 32, 0, 0, 0, 0],
      wire := some (wireTo s .host (opening s i).port ((memberAddrs s i).headD 0) (live s 0x0023_0010 % 2 ^ 16)) } :: s.net.sent :=
  sendHello_open_sent (u := draw (setPeer s i (opening s i))) (peerAt_setPeer s i (opening s i)) rfl

theorem peerAt_opened_ne (s : State) {i k : Nat} (hk : k ≠ i) : peerAt (opened s i) k = peerAt s k :=
  (peerAt_setPeer_ne _ hk _).trans (peerAt_setPeer_ne s hk _)

theorem execSetSessionOpen_none (h : s.rst.up = false ∨ s.pwr.mode ≠ .awake ∨ bit (setMembers s) i = false ∨ ownIndex s ≤ i ∨
    (peerAt s i).state = .up) : exec (.setSessionOpen i) s = .next s := by
  refine congrArg Host.Outcome.next (if_neg ?_)
  rintro ⟨hup, hmode, hmember, hlower, hdown⟩
  obtain h | h | h | h | h := h
  · exact Bool.false_ne_true (h.symm.trans hup)
  · exact h hmode
  · exact Bool.false_ne_true (h.symm.trans hmember)
  · exact Nat.not_lt.mpr h hlower
  · exact hdown h

theorem execSetRefresh_down (hdown : (peerAt s i).state ≠ .up) : exec (.setRefresh i) s = .next s :=
  congrArg Host.Outcome.next (if_neg hdown)

/-- The peer to which a REFRESH has just left. -/
noncomputable def refreshed (p : Peer) : Peer := { p with told := p.settled, cmdSeq := p.cmdSeq + 1, awaiting := some (p.cmdSeq, 2) }

theorem peerAt_tellSettled (s : State) (i : Nat) :
    peerAt (tellSettled s i) i = { peerAt s i with told := (peerAt s i).settled } := peerAt_setPeer ..

theorem peerAt_refreshed (s : State) (i : Nat) : peerAt (sendHello s i 2 []) i = refreshed (peerAt s i) :=
  (peerAt_setPeer ..).trans (congrArg (fun p : Peer => { p with cmdSeq := p.cmdSeq + 1, awaiting := some (p.cmdSeq, 2) })
    (peerAt_tellSettled s i))

/-- HELLO REFRESH carries the settlement, which the peer has then been told. -/
theorem execSetRefresh_sends {p : Peer} (hp : peerAt s i = p) (hup : p.state = .up) :
    ∃ t k, exec (.setRefresh i) s = .next t ∧ t.net.sent.head? = some k ∧ k.cls = .cmd ∧
      k.op = 1 ∧ k.sess = p.sess.getD 0 ∧ field k.payload 0 1 = 2 ∧ k.link = p.settled % 2 ^ 32 ∧ (peerAt t i).told = p.settled ∧
      (peerAt t i).state = .up ∧ (peerAt t i).unsettled = p.unsettled :=
  have htell := (peerAt_tellSettled s i).trans (congrArg (fun q : Peer => { q with told := q.settled }) hp :)
  have hend := (peerAt_refreshed s i).trans (congrArg refreshed hp)
  ⟨_, _, congrArg Host.Outcome.next (if_pos (hp ▸ hup)), rfl, rfl, rfl, (congrArg (fun q : Peer => q.sess.getD 0) htell :), rfl,
    (congrArg (fun q : Peer => q.settled % 2 ^ 32) htell :), congrArg Peer.told hend, (congrArg Peer.state hend).trans hup,
    (congrArg Peer.unsettled hend :)⟩

theorem execSetPeerDown_none (hdown : (peerAt s i).state ≠ .up) (hproving : (peerAt s i).state ≠ .proving) :
    exec (.setPeerDown i) s = .next s := congrArg Host.Outcome.next (if_neg fun h => h.elim hdown hproving)

theorem reports_setPeerDown (h : (peerAt s i).state = .up ∨ (peerAt s i).state = .proving) (hroom : EventRoom (peerGone s i .lost)) :
    Reports (.setPeerDown i) s none .ok .setPeerDown (leBytes 1 i) (peerGone s i .lost) :=
  reports_emit (congrArg Host.Outcome.next (if_pos h)) hroom

/-- The end of the session of a peer that is lost. -/
noncomputable def sessionEnded (s : State) (i : Nat) : State :=
  match (peerAt s i).sess with
  | some sid => if (peerAt s i).opener then s else endSession s sid
  | none => s

/-- The loss of a peer leaves the set and the contexts to the end of its session. -/
theorem sessionEnded_keeps (s : State) (i : Nat) : (sessionEnded s i).set = s.set ∧ (sessionEnded s i).ctxs = s.ctxs := by
  unfold sessionEnded
  split
  · exact iteInduction (motive := fun t : State => t.set = s.set ∧ t.ctxs = s.ctxs) (fun _ => ⟨rfl, rfl⟩) (fun _ => ⟨rfl, rfl⟩)
  · exact ⟨rfl, rfl⟩

/-- What is left of a peer that is lost. -/
noncomputable def lostPeer (p : Peer) (st : PeerSt) : Peer := { state := st, port := p.port, hops := p.hops, retx := p.retx, cmdSeq := p.cmdSeq }

/-- A lost peer's entry, and the writes and headers that named it. -/
noncomputable def forgotten (s : State) (i : Nat) (st : PeerSt) : State :=
  let s2 := setPeer (sessionEnded s i) i (lostPeer (peerAt s i) st)
  { s2 with
    flights := s2.flights.map (fun f => (f.1, { f.2 with src := forgetRemote i f.2.src })),
    waitHdrs := s2.waitHdrs.map (fun h => (h.1, forgetRemote i h.2)) }

theorem peerGone_eq (s : State) (i : Nat) (st : PeerSt) {s3 : State}
    (hs3 : s3 = (peerAt s i).unsettled.foldl (fun a w => settleOut a w .timeout .setPeerLost) (forgotten s i st)) :
    peerGone s i st = settleAll (dropMember i s3.set.aggregates.length (dropCopies s3 i)) := by
  subst hs3
  unfold peerGone forgotten sessionEnded
  rfl

theorem dropCopies_none {s : State} (hnone : s.set.mirrors = []) (i : Nat) :
    dropCopies s i = withSet s { s.set with mirrors := [] } := by
  unfold dropCopies
  rw [hnone]
  rfl

theorem dropMember_none {n : Nat} (hn : n = 0) (i : Nat) (s : State) : dropMember i n s = s := by
  subst hn
  rfl

theorem settleAll_none {s : State} (hnone : s.ctxs = []) : settleAll s = s := by
  unfold settleAll
  rw [hnone]
  rfl

/-- With nothing that waits for the peer, its loss changes its own entry alone among the peers. -/
theorem peerGone_peers (hctxs : s.ctxs = []) (hmirrors : s.set.mirrors = []) (haggregates : s.set.aggregates = [])
    (hunsettled : (peerAt s i).unsettled = []) (st : PeerSt) :
    (peerGone s i st).set.peers = tset s.set.peers i (lostPeer (peerAt s i) st) := by
  obtain ⟨hset, hsame⟩ := sessionEnded_keeps s i
  have hcopies : dropCopies (forgotten s i st) i = { forgotten s i st with set := { (forgotten s i st).set with mirrors := [] } } :=
    dropCopies_none (s := forgotten s i st) ((congrArg SetDev.mirrors hset).trans hmirrors) i
  have hlength : (forgotten s i st).set.aggregates.length = 0 :=
    List.length_eq_zero_iff.mpr ((congrArg SetDev.aggregates hset).trans haggregates)
  rw [peerGone_eq s i st (s3 := forgotten s i st) (by rw [hunsettled]; rfl),
    dropMember_none hlength, hcopies,
    settleAll_none (by exact hsame.trans hctxs)]
  exact congrArg (fun a : SetDev => tset a.peers i (lostPeer (peerAt s i) st)) hset

theorem peerGone_quiet (hctxs : s.ctxs = []) (hmirrors : s.set.mirrors = []) (haggregates : s.set.aggregates = [])
    (hunsettled : (peerAt s i).unsettled = []) (st : PeerSt) :
    (peerAt (peerGone s i st) i).state = st ∧ (peerAt (peerGone s i st) i).sess = none ∧
      ∀ k, k ≠ i → peerAt (peerGone s i st) k = peerAt s k :=
  have hpeers := peerGone_peers hctxs hmirrors haggregates hunsettled st
  have hself : peerAt (peerGone s i st) i = lostPeer (peerAt s i) st :=
    (congrArg (fun t => tget t ({} : Peer) i) hpeers).trans (tget_tset_self ..)
  ⟨congrArg Peer.state hself, congrArg Peer.sess hself, fun k hk =>
    (congrArg (fun t => tget t ({} : Peer) k) hpeers).trans (tget_tset_ne _ _ _ _ _ hk)⟩

end

/-! ## Crossings (R713 to R716) -/

/-- Both ends of an entry are this member or a peer that is up. -/
def BothReached (s : State) (c : Crossing) : Prop :=
  (c.devA = ownIndex s ∨ (peerAt s c.devA).state = .up) ∧ (c.devB = ownIndex s ∨ (peerAt s c.devB).state = .up)

theorem bothReached_iff (s : State) (c : Crossing) : ((c.devA == ownIndex s || decide ((peerAt s c.devA).state = .up)) &&
    (c.devB == ownIndex s || decide ((peerAt s c.devB).state = .up))) = true ↔ BothReached s c := by
  simp only [BothReached, Bool.and_eq_true, Bool.or_eq_true, beq_iff_eq, decide_eq_true_eq]

theorem live_clearCrossing (s : State) (k : Nat) :
    live (clearCrossing s k) (0x0023_0500 + 8 * k) = 0 ∧ live (clearCrossing s k) (0x0023_0504 + 8 * k) = 0 := by
  have hfirst : tget? (clearCrossing s k).regs.live (0x0023_0500 + 8 * k) = some 0 :=
    (tget?_tset_ne _ _ _ _ (by omega)).trans (tget?_tset_self ..)
  have hsecond : tget? (clearCrossing s k).regs.live (0x0023_0504 + 8 * k) = some 0 := tget?_tset_self ..
  constructor
  · rw [live, hfirst]
    rfl
  · rw [live, hsecond]
    rfl

section
variable {k : Nat} {a b : Word} {s : State}

theorem execCrossingInstall_none (h : 64 ≤ k ∨ (setRole s ≠ 1 ∧ setRole s ≠ 2)) : exec (.crossingInstall k a b) s = .next s := by
  refine congrArg Host.Outcome.next ?_
  by_cases hk : 64 ≤ k
  · exact if_pos hk
  · obtain ⟨htrunk, hbranch⟩ := h.resolve_left hk
    rw [if_neg hk, if_neg htrunk, if_neg hbranch]

variable (hk : k < 64)
include hk

theorem execCrossingInstall_trunk (hrole : setRole s = 1) : exec (.crossingInstall k a b) s = .next (installTrunk s k a.toNat) :=
  congrArg Host.Outcome.next ((if_neg (Nat.not_le.mpr hk)).trans (if_pos hrole))

theorem execCrossingInstall_branch (hrole : setRole s = 2) :
    exec (.crossingInstall k a b) s = .next (installBranch s k a.toNat b.toNat) :=
  congrArg Host.Outcome.next ((if_neg (Nat.not_le.mpr hk)).trans ((if_neg (by omega)).trans (if_pos hrole)))

theorem execCrossingInstall_invalid (hrole : setRole s = 1) (hvalid : bit (live s (0x0023_0500 + 8 * k)) 31 = false) :
    exec (.crossingInstall k a b) s = .next (withSet s { s.set with installed := terase s.set.installed k }) :=
  (execCrossingInstall_trunk hk hrole).trans (congrArg _ (if_pos (congrArg not hvalid)))

section
variable {c : Crossing} (hrole : setRole s = 1) (hvalid : bit (live s (0x0023_0500 + 8 * k)) 31 = true)
  (hc : c = crossingAt (live s) k)
include hrole hvalid hc

theorem execCrossingInstall_waits (hreach : ¬ BothReached s c) : exec (.crossingInstall k a b) s = .next s := by
  subst hc
  refine (execCrossingInstall_trunk hk hrole).trans (congrArg _ ((if_neg (by rw [hvalid]; exact Bool.false_ne_true)).trans (if_pos ?_)))
  rw [Bool.not_eq_true', Bool.eq_false_iff]
  exact mt (bothReached_iff s _).mp hreach

/-- A valid entry whose ends are reached: the report of an installed one, or the installation at both ends. -/
theorem execCrossingInstall_reached (hreach : BothReached s c) : exec (.crossingInstall k a b) s = .next (
    if tget? s.set.installed k = some c then (if bit a.toNat 31 then s else clearCrossing s k)
    else if endLive s c.devA c.ctxA (Config.freeBit s.draws) && endLive s c.devB c.ctxB (Config.freeBit (s.draws + 1)) then
      draw (draw (withSet s { s.set with installed := tset s.set.installed k c }))
    else draw (draw (setReason (clearCrossing s k) 0x0023_0400 .setCrossingParam))) := by
  subst hc
  refine (execCrossingInstall_trunk hk hrole).trans (congrArg _ ((if_neg (by rw [hvalid]; exact Bool.false_ne_true)).trans (if_neg ?_)))
  rw [Bool.not_eq_true', Bool.eq_false_iff]
  exact not_not.mpr ((bothReached_iff s _).mpr hreach)

theorem execCrossingInstall_reported (hreach : BothReached s c) (hinstalled : tget? s.set.installed k = some c) :
    (bit a.toNat 31 = true → exec (.crossingInstall k a b) s = .next s) ∧
    (bit a.toNat 31 = false → ∃ t, exec (.crossingInstall k a b) s = .next t ∧ tget? t.set.installed k = none ∧
      live t (0x0023_0500 + 8 * k) = 0 ∧ live t (0x0023_0504 + 8 * k) = 0 ∧
      (∀ m, m ≠ k → tget? t.set.installed m = tget? s.set.installed m) ∧ t = { s with set := t.set, regs := t.regs }) := by
  have hrun := (execCrossingInstall_reached (a := a) (b := b) hk hrole hvalid hc hreach).trans (congrArg _ (if_pos hinstalled))
  obtain ⟨hfirst, hsecond⟩ := live_clearCrossing s k
  exact ⟨fun hstands => hrun.trans (congrArg _ (if_pos hstands)), fun hcleared => ⟨clearCrossing s k,
    hrun.trans (congrArg _ (if_neg (Bool.eq_false_iff.mp hcleared))), tget?_terase_self .., hfirst, hsecond,
    fun m hm => tget?_terase_ne _ _ _ hm, rfl⟩⟩

section
variable (hnew : tget? s.set.installed k ≠ some c) (hown : c.devA = ownIndex s) (hup : (peerAt s c.devB).state = .up)
include hnew hown hup

/-- The own end decides first whether the entry can be installed. -/
theorem execCrossingInstall_own : exec (.crossingInstall k a b) s = .next (
    if (liveCtx s c.ctxA).isSome && endLive s c.devB c.ctxB (Config.freeBit (s.draws + 1)) then
      draw (draw (withSet s { s.set with installed := tset s.set.installed k c }))
    else draw (draw (setReason (clearCrossing s k) 0x0023_0400 .setCrossingParam))) := by
  have hend : endLive s c.devA c.ctxA (Config.freeBit s.draws) = (liveCtx s c.ctxA).isSome := if_pos hown
  rw [execCrossingInstall_reached hk hrole hvalid hc ⟨.inl hown, .inr hup⟩, if_neg hnew, hend]

theorem execCrossingInstall_noContext (hctx : liveCtx s c.ctxA = none) :
    ∃ t, exec (.crossingInstall k a b) s = .next t ∧ tget? t.set.installed k = none ∧
      live t (0x0023_0500 + 8 * k) = 0 ∧ live t (0x0023_0504 + 8 * k) = 0 := by
  obtain ⟨hfirst, hsecond⟩ := live_clearCrossing s k
  exact ⟨_, (execCrossingInstall_own hk hrole hvalid hc hnew hown hup).trans (congrArg _ (if_neg (by rw [hctx]; exact Bool.false_ne_true))),
    tget?_terase_self .., hfirst, hsecond⟩

theorem execCrossingInstall_context :
    ∃ t, exec (.crossingInstall k a b) s = .next t ∧
      (tget? t.set.installed k = some c ∨ tget? t.set.installed k = none) ∧
      (∀ m, m ≠ k → tget? t.set.installed m = tget? s.set.installed m) := by
  refine ⟨_, execCrossingInstall_own hk hrole hvalid hc hnew hown hup, ?_⟩
  split
  · exact ⟨.inl (tget?_tset_self ..), fun m hm => tget?_tset_ne _ _ _ _ hm⟩
  · exact ⟨.inr (tget?_terase_self ..), fun m hm => tget?_terase_ne _ _ _ hm⟩

end

end

section
variable {c : Crossing} (hrole : setRole s = 2) (hup : (peerAt s 0).state = .up)
  (hc : c = ({ devA := bits a.toNat 26 24, ctxA := bits a.toNat 8 0, devB := bits b.toNat 26 24, ctxB := bits b.toNat 8 0,
               mirror := bit a.toNat 30 } : Crossing)) (hown : c.devB = ownIndex s) (hother : c.devA ≠ c.devB)
include hrole hup hc hown hother

/-- A Branch at the entry's second end: VALID and its own context decide. -/
theorem execCrossingInstall_branchOwn : exec (.crossingInstall k a b) s = .next (
    if bit a.toNat 31 = true ∧ (liveCtx s c.ctxB).isSome = true then
      (withSet s { s.set with installed := tset s.set.installed k c })
    else (withSet s { s.set with installed := terase s.set.installed k })) := by
  have hfar : endLive s c.devA c.ctxA true = true := if_neg (by rw [← hown]; exact hother)
  have hnear : endLive s c.devB c.ctxB true = (liveCtx s c.ctxB).isSome := if_pos hown
  have hmine : (c.devA == ownIndex s || c.devB == ownIndex s) = true := by rw [hown, beq_self_eq_true, Bool.or_true]
  subst hc
  refine (execCrossingInstall_branch hk hrole).trans (congrArg _ ((if_neg (not_not.mpr hup)).trans (if_congr ?_ rfl rfl)))
  rw [hmine, hfar, hnear, Bool.and_true, Bool.and_true, Bool.and_eq_true]

end

end

/-! ## Aggregated attestation (R730, R731) -/

section
variable {c i : Nat} {a : Aggregate} {rest : List (Nat × Aggregate)} {s : State}

theorem execAttestReportTimeout_none (hnone : s.set.aggregates = []) : exec (.attestReportTimeout c i) s = .next s := by
  refine congrArg Host.Outcome.next ?_
  unfold updateAggregate
  rw [hnone]
  rfl

/-- The first aggregate waits for the member: it is left out, and the aggregate is finished if it was the last. -/
theorem execAttestReportTimeout_first (hfirst : s.set.aggregates = (c, a) :: rest) (hwaits : i ∈ a.waiting) :
    exec (.attestReportTimeout c i) s = .next (if (leaveOut i a).waiting.isEmpty then
        finishAggregate (withSet s { s.set with aggregates := rest }) (leaveOut i a)
      else (withSet s { s.set with aggregates := (c, leaveOut i a) :: rest })) := by
  have hselected : (c == c && a.waiting.contains i) = true := by rw [beq_self_eq_true, List.contains_iff_mem.mpr hwaits]; rfl
  refine congrArg Host.Outcome.next ?_
  unfold updateAggregate
  rw [hfirst, List.find?_cons_of_pos (a := (c, a)) hselected]
  dsimp only
  rw [List.eraseP_cons_of_pos (a := (c, a)) hselected]

theorem execAttestReportTimeout_others (hfirst : s.set.aggregates = (c, a) :: rest) (hwaits : i ∈ a.waiting)
    (hothers : ∃ m ∈ a.waiting, m ≠ i) : ∃ t b, exec (.attestReportTimeout c i) s = .next t ∧
      t.set.aggregates = (c, b) :: rest ∧ i ∉ b.waiting ∧ b.missing = true ∧ b.reports = a.reports ∧ b.req = a.req := by
  have hleft : (leaveOut i a).waiting ≠ [] :=
    have ⟨_, hm, hne⟩ := hothers
    List.ne_nil_of_mem (List.mem_filter.mpr ⟨hm, decide_eq_true hne⟩)
  exact ⟨_, leaveOut i a, (execAttestReportTimeout_first hfirst hwaits).trans (congrArg _ (if_neg (mt List.isEmpty_iff.mp hleft))),
    rfl, fun h => of_decide_eq_true (List.mem_filter.mp h).2 rfl, rfl, rfl, rfl⟩

theorem aggregateBytes_header (a : Aggregate) : (aggregateBytes a).take 4 = [0x49, 0x56, 0x53, 0x54] ∧
    field (aggregateBytes a) 4 2 = a.reports.length % 65536 ∧ (aggregateBytes a).drop 16 = (a.reports.map Prod.snd).flatten := by
  refine ⟨rfl, ?_, rfl⟩
  have hbytes : aggregateBytes a =
      [0x49, 0x56, 0x53, 0x54] ++ (leBytes 2 a.reports.length ++ (zeros 10 ++ (a.reports.map Prod.snd).flatten)) := by
    simp [aggregateBytes]
  rw [hbytes]
  exact field_append (before := [0x49, 0x56, 0x53, 0x54]) rfl _ 2 _

theorem finishAggregate_held {x : Ctx} (hctx : liveCtx s a.req.ctx = some x) : finishAggregate s a =
    holdReport s a.req a.nonce (aggregateBytes a) a.off a.len (if a.missing then .timeout else .ok)
      (if a.missing then .setPeerLost else .none) := by
  unfold finishAggregate
  rw [hctx]

/-- The last member awaited has not returned its report: the aggregate ends without it. -/
theorem execAttestReportTimeout_last (hfirst : s.set.aggregates = (c, a) :: rest) (hlast : a.waiting = [i])
    (hctx : (liveCtx s a.req.ctx).isSome) : exec (.attestReportTimeout c i) s = .next
      (holdReport (withSet s { s.set with aggregates := rest }) a.req a.nonce (aggregateBytes (leaveOut i a)) a.off a.len
        .timeout .setPeerLost) := by
  have hnobody : (leaveOut i a).waiting.isEmpty = true := by
    refine List.isEmpty_iff.mpr (List.filter_eq_nil_iff.mpr fun m hm hne => of_decide_eq_true hne ?_)
    exact List.mem_singleton.mp (hlast ▸ hm)
  have hwaits : i ∈ a.waiting := hlast ▸ List.mem_singleton_self i
  obtain ⟨x, hx⟩ := Option.isSome_iff_exists.mp hctx
  exact (execAttestReportTimeout_first hfirst hwaits).trans (congrArg _ ((if_pos hnobody).trans (finishAggregate_held hx)))

theorem holdReport_aggregates (s : State) (rq : Req) (nonce report : Bytes) (off len : Nat) (st : Status) (r : Reason) :
    (holdReport s rq nonce report off len st r).set.aggregates = s.set.aggregates :=
  (congrArg (fun t : State => t.set.aggregates) (replyAs_only _ rq 0x01A0 rq.ctx st r (reportSlice report off len)).1 :)

end

/-- Settles O44: set sessions by the peer's state, crossings by the role and the entry, the aggregate by who is still awaited. -/
theorem setSessionsAndCrossings : Obligations.SetSessionsAndCrossings :=
  ⟨fun i _ s hp => ⟨fun hup hmode hmember hlower hdown =>
      have hpeer := peerAt_opened s i
      ⟨opened s i, execSetSessionOpen_opens hup hmode hmember hlower (hp ▸ hdown), congrArg Peer.state hpeer, congrArg Peer.opener hpeer,
        congrArg Peer.sess hpeer, hp ▸ congrArg Peer.awaiting hpeer, hp ▸ congrArg Peer.cmdSeq hpeer,
        hpeer ▸ opening_port s i, hp ▸ hpeer ▸ opened_sent s i, fun _ hk => peerAt_opened_ne s hk⟩,
      fun h => execSetSessionOpen_none (hp ▸ h), fun hdown => execSetRefresh_down (hp ▸ hdown), fun hup => execSetRefresh_sends hp hup,
      fun hdown hproving => execSetPeerDown_none (hp ▸ hdown) (hp ▸ hproving), fun h _ hu hroom =>
      ⟨hu ▸ reports_setPeerDown (hp ▸ h) (hu ▸ hroom), fun hctxs hmirrors haggregates hunsettled =>
        hu ▸ peerGone_quiet hctxs hmirrors haggregates (hp ▸ hunsettled) .lost⟩⟩,
    fun _ _ _ _ => ⟨execCrossingInstall_none, execCrossingInstall_invalid,
      fun _ hk hrole hvalid hc => ⟨execCrossingInstall_waits hk hrole hvalid hc,
        fun hinstalled hA hB => execCrossingInstall_reported hk hrole hvalid hc ⟨hA, hB⟩ hinstalled,
        fun hnew hown _ => ⟨fun hup hctx => execCrossingInstall_noContext hk hrole hvalid hc hnew hown hup hctx,
          fun hup _ => execCrossingInstall_context hk hrole hvalid hc hnew hown hup⟩⟩,
      fun _ hk hrole hup hc hown hother =>
        have hrun := execCrossingInstall_branchOwn hk hrole hup hc hown hother
        ⟨fun hvalid hctx => hrun.trans (congrArg _ (if_pos ⟨hvalid, hctx⟩)), fun h => hrun.trans (congrArg _ (if_neg fun hall =>
          h.elim (Bool.eq_false_iff.mp · hall.1) fun hno => Bool.false_ne_true ((congrArg Option.isSome hno).symm.trans hall.2)))⟩,
      fun hk hrole hdown => (execCrossingInstall_branch hk hrole).trans (congrArg _ (if_pos hdown))⟩,
    fun _ i a _ _ => ⟨execAttestReportTimeout_none, execAttestReportTimeout_others, fun hfirst hlast hlive hctx =>
      have hbytes := aggregateBytes_header (leaveOut i a)
      ⟨_, aggregateBytes (leaveOut i a), execAttestReportTimeout_last hfirst hlast hctx, holdReport_aggregates .., hbytes.1, hbytes.2.1,
        hbytes.2.2, replyAs_replied _ a.req 0x01A0 a.req.ctx .timeout .setPeerLost _ hlive⟩⟩⟩

end Sys2Proof.Machine

/-!
PROOFS. Fencing and repair of a core, and words that ECC cannot correct (O43).
-/

namespace Sys2Proof.Machine

/-! ## What the steps of a fence leave (R683) -/

/-- From `s` to `t` the fenced cores, the record of the fences and the memories stay, and no window opens. -/
structure FenceKeeps (s t : State) : Prop where
  fenced : t.fenced = s.fenced
  fencing : t.rel.fencing = s.rel.fencing
  cause : t.rel.lastCause = s.rel.lastCause
  memory : memories t = memories s
  wins : ∀ k, (winAt t k).state = .opened → (winAt s k).state = .opened

theorem FenceKeeps.refl (s : State) : FenceKeeps s s := ⟨rfl, rfl, rfl, rfl, fun _ h => h⟩

theorem FenceKeeps.trans {s t u : State} (hst : FenceKeeps s t) (htu : FenceKeeps t u) : FenceKeeps s u where
  fenced := htu.fenced.trans hst.fenced
  fencing := htu.fencing.trans hst.fencing
  cause := htu.cause.trans hst.cause
  memory := htu.memory.trans hst.memory
  wins k h := hst.wins k (htu.wins k h)

theorem FenceKeeps.foldl {α : Type} {f : State → α → State} (hf : ∀ a e, FenceKeeps a (f a e)) (l : List α) (s : State) :
    FenceKeeps s (l.foldl f s) :=
  List.foldlRecOn _ _ (FenceKeeps.refl s) fun a ha e _ => ha.trans (hf a e)

theorem replyAs_fenceKeeps (s : State) (rq : Req) (op ctx : Nat) (st : Status) (r : Reason) (b : Bytes) :
    FenceKeeps s (replyAs s rq op ctx st r b) := by
  obtain ⟨hframe, -⟩ := replyAs_only s rq op ctx st r b
  rw [hframe]
  exact ⟨rfl, rfl, rfl, rfl, fun _ h => h⟩

theorem emit_fenceKeeps (s : State) (c : Option Nat) (st : Status) (r : Reason) (b : Bytes) :
    FenceKeeps s (emit s c st r b) := by
  rw [emit_frame]
  exact ⟨rfl, rfl, rfl, rfl, fun _ h => h⟩

theorem setWin_fenceKeeps {s : State} {k : Nat} {w : Win} (hw : w.state = .opened → (winAt s k).state = .opened) :
    FenceKeeps s (setWin s k w) := by
  refine ⟨rfl, rfl, rfl, rfl, fun m hm => ?_⟩
  by_cases hmk : m = k
  · subst hmk
    rw [winAt_setWin] at hm
    exact hw hm
  · rwa [winAt_setWin_ne _ _ _ _ hmk] at hm

theorem wake_fenceKeeps (s : State) (k : Nat) : FenceKeeps s (wake s k) := by
  cases hwait : (winAt s k).waiting with
  | none =>
    rw [wake_none hwait]
    exact FenceKeeps.refl s
  | some who =>
    have hwin : FenceKeeps s (setWin s k { winAt s k with waiting := none }) := setWin_fenceKeeps fun h => h
    obtain ⟨u, rfl, hwake | hwake⟩ := wake_eq hwait <;> rw [hwake]
    · exact hwin.trans ⟨rfl, rfl, rfl, rfl, fun _ h => h⟩
    · refine hwin.trans (FenceKeeps.trans ?_ (emit_fenceKeeps ..))
      exact ⟨rfl, rfl, rfl, rfl, fun _ h => h⟩

theorem winAnswer_fenceKeeps (s : State) (who : WinBy) (slot op : Nat) (st : Status) (r : Reason) (value : Nat) (body : Bytes) :
    FenceKeeps s (winAnswer s who slot op st r value body) := by
  unfold winAnswer
  split
  · exact replyAs_fenceKeeps ..
  · split <;> exact ⟨rfl, rfl, rfl, rfl, fun _ h => h⟩

/-! ## The windows of the core's table close (R683 step 2) -/

theorem closePoint_fenceKeeps (s : State) (k : Nat) : FenceKeeps s (closePoint s k) := by
  unfold closePoint
  dsimp only
  split
  · exact setWin_fenceKeeps (by simp)
  · exact FenceKeeps.refl s

theorem closePoint_notOpened (s : State) (k : Nat) : (winAt (closePoint s k) k).state ≠ .opened := by
  unfold closePoint
  dsimp only
  split
  · rw [winAt_setWin]
    simp
  · next h => exact h

theorem closeDone_fenceKeeps (s : State) (k : Nat) : FenceKeeps s (closeDone s k) := by
  unfold closeDone
  dsimp only
  split
  · exact ((setWin_fenceKeeps (by simp)).trans (wake_fenceKeeps _ k)).trans
      (FenceKeeps.foldl (fun a q => winAnswer_fenceKeeps a ..) ..)
  · exact FenceKeeps.refl s

theorem closeEntry_fenceKeeps (s : State) (k : Nat) : FenceKeeps s (closeEntry s k) :=
  (closePoint_fenceKeeps s k).trans (closeDone_fenceKeeps _ k)

theorem closeEntry_notOpened (s : State) (k : Nat) : (winAt (closeEntry s k) k).state ≠ .opened :=
  fun h => closePoint_notOpened s k ((closeDone_fenceKeeps (closePoint s k) k).wins k h)

theorem foldl_closeEntry_notOpened {k : Nat} {l : List Nat} (hk : k ∈ l) (s : State) :
    (winAt (l.foldl closeEntry s) k).state ≠ .opened := by
  induction l generalizing s with
  | nil => exact absurd hk List.not_mem_nil
  | cons a l ih =>
    by_cases hl : k ∈ l
    · exact ih hl _
    · obtain rfl : k = a := (List.mem_cons.mp hk).resolve_right hl
      exact fun h => closeEntry_notOpened s k ((FenceKeeps.foldl closeEntry_fenceKeeps l (closeEntry s k)).wins k h)

theorem closeHome_fenceKeeps (s : State) (p : Nat) : FenceKeeps s (closeHome s p) := FenceKeeps.foldl closeEntry_fenceKeeps ..

/-- An open entry is listed in the windows. -/
theorem mem_wins_of_opened {s : State} {k : Nat} (hopen : (winAt s k).state = .opened) : (k, winAt s k) ∈ s.wins := by
  cases hk : s.wins.lookup k with
  | none => simp [winAt, tget, hk] at hopen
  | some w =>
    have hwin : winAt s k = w := by simp [winAt, tget, hk]
    obtain ⟨l₁, l₂, hwins, -⟩ := List.lookup_eq_some_iff.mp hk
    rw [hwin, hwins]
    exact List.mem_append_right _ (List.mem_cons_self ..)

theorem closeHome_closes (s : State) {p k : Nat} (hk : k / 256 = p) : (winAt (closeHome s p) k).state ≠ .opened := by
  intro h
  have hopen := (closeHome_fenceKeeps s p).wins k h
  refine foldl_closeEntry_notOpened (List.mem_map.mpr ⟨(k, winAt s k), ?_, rfl⟩) s h
  exact List.mem_filter.mpr ⟨mem_wins_of_opened hopen, by simp [hk, hopen]⟩

/-! ## The core stops, and its firmware work moves (R683 steps 1, 3 and 5) -/

theorem abortLogged_fenceKeeps (s : State) (target cls id : Nat) : FenceKeeps s
    (logRefusal (withPwr s { s.pwr with entry := none, saved := none }) 2 target cls id) :=
  ⟨rfl, rfl, rfl, rfl, fun _ h => h⟩

theorem abortEntry_fenceKeeps (s : State) (cls id : Nat) : FenceKeeps s (abortEntry s cls id) := by
  unfold abortEntry
  split
  · exact FenceKeeps.refl s
  · dsimp only
    split
    · exact (abortLogged_fenceKeeps ..).trans (replyAs_fenceKeeps ..)
    · exact abortLogged_fenceKeeps ..

theorem voteCast_fenceKeeps (s : State) (cls id mask : Nat) : FenceKeeps s (voteCast s cls id mask) := by
  have hsync (t : State) : FenceKeeps t (syncUp t) := ⟨rfl, rfl, rfl, rfl, fun _ h => h⟩
  unfold voteCast
  split
  · exact (abortEntry_fenceKeeps s cls id).trans (hsync _)
  · exact hsync s

theorem haltCore_fenceKeeps (s : State) (n : Nat) : FenceKeeps s (haltCore s n) := ⟨rfl, rfl, rfl, rfl, fun _ h => h⟩

theorem moveFirmware_fenceKeeps (s : State) (p m : Nat) (e : CvEntry) : FenceKeeps s (moveFirmware s p m e) := by
  unfold moveFirmware
  refine FenceKeeps.trans ?_ (voteCast_fenceKeeps ..)
  exact ⟨rfl, rfl, rfl, rfl, fun _ h => h⟩

theorem reissue_fenceKeeps (s : State) (n : Nat) : FenceKeeps s (reissue s n) := by
  refine FenceKeeps.foldl (fun a e => ?_) _ s
  split
  · exact moveFirmware_fenceKeeps ..
  · exact FenceKeeps.refl a

/-! ## The fence (R682 to R684) -/

/-- A fence aborts an entry in progress. -/
noncomputable def fenceAborted (s : State) (n : Nat) : State := abortEntry (if shareOn s n then unavailFrom s (16 + n) else s) 6 0x01D0

/-- The fence point: the core is fenced, and the fence counted and recorded. -/
noncomputable def fencePoint (s : State) (n cause : Nat) (req : Option Req) : State :=
  let s2 := fenceAborted s n
  { s2 with
    fenced := insertNum n s2.fenced,
    rel := { s2.rel with
      lastCause := cause, fencing := s2.rel.fencing ++ [(n, cause, req)],
      odo := { s2.rel.odo with fences := min (s2.rel.odo.fences + 1) (2 ^ 32 - 1) } } }

/-- The fence with its windows closed, its queues stopped and its firmware work moved. -/
noncomputable def fenceStopped (s : State) (n cause : Nat) (req : Option Req) : State :=
  reissue (haltCore (closeHome (fencePoint s n cause req) (physOf s n)) n) n

/-- The fence with its Deck's content lost. -/
noncomputable def deckLost (s : State) (n cause : Nat) (req : Option Req) : State :=
  { fenceStopped s n cause req with decks := terase (fenceStopped s n cause req).decks (physOf s n) }

/-- The fence with the upper copies lost that the Deck held. -/
noncomputable def fenceLost (s : State) (n cause : Nat) (req : Option Req) : State := loseUppers (deckLost s n cause req) n

section
variable (s : State) (n cause : Nat) (req : Option Req)

theorem fenceAborted_keeps : FenceKeeps s (fenceAborted s n) :=
  have hshare : FenceKeeps s (if shareOn s n then unavailFrom s (16 + n) else s) :=
    iteInduction (fun _ => ⟨rfl, rfl, rfl, rfl, fun _ h => h⟩) (fun _ => .refl s)
  hshare.trans (abortEntry_fenceKeeps ..)

theorem fencePoint_cores : (fencePoint s n cause req).cores = s.cores :=
  (abortEntry_keeps (g := State.cores) (fun _ _ _ _ _ => rfl) ..).trans
    (iteInduction (motive := fun t : State => t.cores = s.cores) (fun _ => rfl) (fun _ => rfl))

theorem fenceStopped_closed : FenceKeeps (closeHome (fencePoint s n cause req) (physOf s n)) (fenceStopped s n cause req) :=
  (haltCore_fenceKeeps ..).trans (reissue_fenceKeeps ..)

theorem fenceStopped_keeps : FenceKeeps (fencePoint s n cause req) (fenceStopped s n cause req) :=
  (closeHome_fenceKeeps ..).trans (fenceStopped_closed ..)

theorem loseUppers_fenceKeeps : FenceKeeps s (loseUppers s n) := by
  refine FenceKeeps.foldl (fun a e => ?_) _ s
  have hmod : FenceKeeps a (modCtx a e.1 (loseCore n)) := ⟨rfl, rfl, rfl, rfl, fun _ h => h⟩
  exact iteInduction (motive := FenceKeeps a) (fun _ => hmod.trans (emit_fenceKeeps ..)) (fun _ => hmod)

theorem fenceLost_fenced : (fenceLost s n cause req).fenced = insertNum n s.fenced :=
  (loseUppers_fenceKeeps (deckLost s n cause req) n).fenced.trans
    ((fenceStopped_keeps s n cause req).fenced.trans (congrArg (insertNum n) (fenceAborted_keeps s n).fenced))

theorem mem_fenceLost_fencing : (n, cause, req) ∈ (fenceLost s n cause req).rel.fencing := by
  unfold fenceLost
  rw [(loseUppers_fenceKeeps (deckLost s n cause req) n).fencing]
  refine (fenceStopped_keeps s n cause req).fencing ▸ ?_
  exact List.mem_append_right _ (List.mem_singleton_self _)

theorem fenceLost_cause : (fenceLost s n cause req).rel.lastCause = cause :=
  (loseUppers_fenceKeeps (deckLost s n cause req) n).cause.trans (fenceStopped_keeps s n cause req).cause

theorem fenceLost_memory : memories (fenceLost s n cause req) = (s.span, terase s.decks (physOf s n), s.t3, s.t4) :=
  (loseUppers_fenceKeeps (deckLost s n cause req) n).memory.trans
    (congrArg (fun m : Ram × Tab Ram × Ext × Ext => (m.1, terase m.2.1 (physOf s n), m.2.2))
      ((fenceStopped_keeps s n cause req).memory.trans (fenceAborted_keeps s n).memory))

theorem fenceLost_decks : (fenceLost s n cause req).decks = terase s.decks (physOf s n) :=
  congrArg (fun m : Ram × Tab Ram × Ext × Ext => m.2.1) (fenceLost_memory s n cause req)

theorem fenceLost_windows (k : Nat) (hk : k / 256 = physOf s n) : (winAt (fenceLost s n cause req) k).state ≠ .opened :=
  fun h => closeHome_closes (fencePoint s n cause req) hk
    ((fenceStopped_closed s n cause req).wins k ((loseUppers_fenceKeeps (deckLost s n cause req) n).wins k h))

theorem mem_fenceLost_self : n ∈ (fenceLost s n cause req).fenced := by
  rw [fenceLost_fenced, mem_insertNum]
  exact .inl rfl

theorem mem_fenceLost_ne (m : Nat) (hm : m ≠ n) : m ∈ (fenceLost s n cause req).fenced ↔ m ∈ s.fenced := by
  rw [fenceLost_fenced, mem_insertNum]
  exact or_iff_right hm

theorem fenceLost_deck_self : tget? (fenceLost s n cause req).decks (physOf s n) = none :=
  (congrArg (tget? · (physOf s n)) (fenceLost_decks s n cause req)).trans (tget?_terase_self ..)

theorem fenceLost_deck_ne (p : Nat) (hp : p ≠ physOf s n) : tget? (fenceLost s n cause req).decks p = tget? s.decks p :=
  (congrArg (tget? · p) (fenceLost_decks s n cause req)).trans (tget?_terase_ne _ _ _ hp)

/-- The fence's last state: the stream commands that waited for the Deck's chunks go on, and the jobs with a stage there stop. -/
noncomputable def fenceSettled (s : State) (n cause : Nat) (req : Option Req) : State :=
  freeStreams (fenceLost s n cause req) (coreOf s (physOf s n)).chunks

theorem fenceCore_eq : fenceCore s n cause req = releaseWork (settleAll
    ((jobsOn (fenceSettled s n cause req) n).foldl (fun a c => fenceJob a n c) (fenceSettled s n cause req))) := by
  have hcore : coreOf (fencePoint s n cause req) (physOf s n) = coreOf s (physOf s n) := by
    rw [coreOf, fencePoint_cores, coreOf]
  unfold fenceSettled
  rw [← hcore]
  rfl

end

/-! ## CORE_FENCE and the automatic fence (R682, R683) -/

section
variable {rq : Req} {n : Nat} {s : State}

theorem answered_fenceParam (hlive : Live rq s) (hn : 8 ≤ n) : Answered (.coreFence rq n) s rq 0x01D0 0 .refused .relCoreParam [] s :=
  answered_replyD (congrArg Host.Outcome.next (if_pos hn)) hlive

theorem answered_fenceBusy (hlive : Live rq s) (hn : n < 8) (hrepair : repairingCore s n = true) :
    Answered (.coreFence rq n) s rq 0x01D0 0 .busy .relBusy [] s :=
  answered_replyD (congrArg Host.Outcome.next ((if_neg (Nat.not_le.mpr hn)).trans (if_pos hrepair))) hlive

/-- A core below 8 that is not being repaired: fenced already, or fenced now. -/
theorem execCoreFence_eq (hn : n < 8) (hrepair : repairingCore s n = false) : exec (.coreFence rq n) s = .next (
    if s.fenced.contains n then replyD s rq 0x01D0 .ok .none [] else interim (fenceCore s n 0 (some rq)) rq 0x01D0 0) :=
  congrArg Host.Outcome.next ((if_neg (Nat.not_le.mpr hn)).trans (if_neg (Bool.eq_false_iff.mp hrepair)))

theorem answered_fencedAlready (hlive : Live rq s) (hn : n < 8) (hrepair : repairingCore s n = false) (hfenced : n ∈ s.fenced) :
    Answered (.coreFence rq n) s rq 0x01D0 0 .ok .none [] s :=
  answered_replyD ((execCoreFence_eq hn hrepair).trans (congrArg _ (if_pos (List.contains_iff_mem.mpr hfenced)))) hlive

theorem execCoreFence_fences (hn : n < 8) (hrepair : repairingCore s n = false) (hserves : n ∉ s.fenced) :
    exec (.coreFence rq n) s = .next (interim (releaseWork (settleAll ((jobsOn (fenceSettled s n 0 (some rq)) n).foldl
      (fun a c => fenceJob a n c) (fenceSettled s n 0 (some rq))))) rq 0x01D0 0) :=
  (execCoreFence_eq hn hrepair).trans (congrArg _ ((if_neg (mt List.contains_iff_mem.mp hserves)).trans
    (congrArg (interim · rq 0x01D0 0) (fenceCore_eq s n 0 (some rq)))))

/-- The device does not fence where one of its conditions fails. -/
theorem execAutoFence_none {c : Nat} (h : 8 ≤ n ∨ n ∈ s.fenced ∨ bit (live s 0x0027_0050) 31 = false ∨
    fenceCause s n c = false) : exec (.autoFence n c) s = .next s :=
  congrArg Host.Outcome.next (if_pos (h.imp_right (Or.imp List.contains_iff_mem.mpr
    (Or.imp (congrArg not) fun hcause => .inl (congrArg not hcause)))))

theorem fenceCause_fewErrors (hfew : recentUes s n < bits (live s 0x0027_0050) 7 0) : fenceCause s n 1 = false := by
  simp [fenceCause, hfew]

theorem execAutoFence_fences {c : Nat} (hn : n < 8) (hserves : n ∉ s.fenced) (hauto : bit (live s 0x0027_0050) 31 = true)
    (hmode : s.pwr.mode = .awake) (hcause : fenceCause s n c = true) :
    exec (.autoFence n c) s = .next (releaseWork (settleAll ((jobsOn (fenceSettled s n c none) n).foldl
      (fun a c => fenceJob a n c) (fenceSettled s n c none)))) := by
  refine congrArg Host.Outcome.next ((if_neg ?_).trans (fenceCore_eq s n c none))
  rw [hauto, hcause]
  rintro (h | h | h | h | h)
  · exact Nat.not_le.mpr hn h
  · exact hserves (List.contains_iff_mem.mp h)
  · exact Bool.false_ne_true h
  · exact Bool.false_ne_true h
  · exact h hmode

/-! ## CORE_REPAIR (R686 to R690) -/

theorem answered_repairParam (hlive : Live rq s) (hn : 8 ≤ n) (b : Bool) :
    Answered (.coreRepair rq n b) s rq 0x01D1 0 .refused .relCoreParam [] s :=
  answered_replyD (congrArg Host.Outcome.next (if_pos hn)) hlive

theorem notFenced_iff : (!s.fenced.contains n) = true ↔ n ∉ s.fenced := by
  rw [Bool.not_eq_true', ← Bool.not_eq_true, List.contains_iff_mem]

theorem answered_notFenced (hlive : Live rq s) (hn : n < 8) (b : Bool)
    (h : n ∉ s.fenced ∨ s.rel.fencing.any (fun f => f.1 == n) = true) :
    Answered (.coreRepair rq n b) s rq 0x01D1 0 .refused .relNotFenced [] s :=
  answered_replyD (congrArg Host.Outcome.next ((if_neg (Nat.not_le.mpr hn)).trans
    (if_pos (h.imp_left notFenced_iff.mpr)))) hlive

section
variable (hn : n < 8) (hfenced : n ∈ s.fenced) (hdone : s.rel.fencing.any (fun f => f.1 == n) = false)
include hn hfenced hdone

/-- A core whose fence is done: the Relief core, then a repair in progress, decides. -/
theorem execCoreRepair_fenced (b : Bool) : exec (.coreRepair rq n b) s = .next (
    if s.rel.consumed ∨ s.rel.reliefBad then replyD s rq 0x01D1 .refused .relNoRelief []
    else if s.rel.repairing.isSome then replyD s rq 0x01D1 .busy .relBusy []
    else interim (withRel s { s.rel with repairing := some (n, b, some rq) }) rq 0x01D1 0) := by
  refine congrArg Host.Outcome.next ((if_neg (Nat.not_le.mpr hn)).trans (if_neg ?_))
  rw [hdone]
  exact fun h => h.elim (fun hout => notFenced_iff.mp hout hfenced) Bool.false_ne_true

theorem answered_noRelief (hlive : Live rq s) (b : Bool) (h : s.rel.consumed = true ∨ s.rel.reliefBad = true) :
    Answered (.coreRepair rq n b) s rq 0x01D1 0 .refused .relNoRelief [] s :=
  answered_replyD ((execCoreRepair_fenced hn hfenced hdone b).trans (congrArg _ (if_pos h))) hlive

omit hn hfenced hdone in
theorem reliefFree (hunused : s.rel.consumed = false) (hgood : s.rel.reliefBad = false) :
    ¬ (s.rel.consumed = true ∨ s.rel.reliefBad = true) :=
  fun h => h.elim (Bool.eq_false_iff.mp hunused) (Bool.eq_false_iff.mp hgood)

variable (hunused : s.rel.consumed = false) (hgood : s.rel.reliefBad = false)
include hunused hgood

theorem answered_repairBusy (hlive : Live rq s) (b : Bool) (hbusy : s.rel.repairing ≠ none) :
    Answered (.coreRepair rq n b) s rq 0x01D1 0 .busy .relBusy [] s :=
  answered_replyD ((execCoreRepair_fenced hn hfenced hdone b).trans (congrArg _ ((if_neg (reliefFree hunused hgood)).trans
    (if_pos (Option.isSome_iff_ne_none.mpr hbusy))))) hlive

theorem execCoreRepair_begins (b : Bool) (hidle : s.rel.repairing = none) : exec (.coreRepair rq n b) s =
    .next (interim (withRel s { s.rel with repairing := some (n, b, some rq) }) rq 0x01D1 0) :=
  (execCoreRepair_fenced hn hfenced hdone b).trans
    (congrArg _ ((if_neg (reliefFree hunused hgood)).trans (if_neg (by rw [hidle]; exact Bool.false_ne_true))))

end

theorem carryRepair_eq {b : Bool} {req : Option Req} (hrepair : s.rel.repairing = some (n, b, req)) {v : State}
    (hv : v = withRel s { s.rel with repairing := none }) :
    carryRepair s = releaseDestroys (if b then repairCore v n req else repairFails v n req) := by
  subst hv
  unfold carryRepair
  rw [hrepair]

/-- With no CTX_DESTROY that waits, the end of a fence or repair releases nothing. -/
theorem releaseDestroys_none (hnone : s.rel.heldDestroys = []) : releaseDestroys s = s := by
  rw [releaseDestroys, hnone]
  exact iteInduction (motive := fun t => t = s)
    (fun _ => congrArg (fun l => (withRel s { s.rel with heldDestroys := l })) hnone.symm) (fun _ => rfl)

/-- The state in which the Relief core has failed. -/
noncomputable def reliefFailed (s : State) (n : Nat) : State :=
  { s with
    rel := { s.rel with repairing := none, reliefBad := true },
    rst := { s.rst with repair := some (n, physOf s n, s.rel.unmapped, s.rel.odo.hours, true) } }

/-- A repair whose Relief core fails is answered, and leaves the core fenced. -/
theorem carryRepair_fails (hrepair : s.rel.repairing = some (n, false, some rq)) (hnone : s.rel.heldDestroys = []) :
    carryRepair s = replyD (reliefFailed s n) rq 0x01D1 .fault .relReliefFail [] := by
  have hheld : (replyD (reliefFailed s n) rq 0x01D1 .fault .relReliefFail []).rel.heldDestroys = s.rel.heldDestroys :=
    (congrArg (fun t : State => t.rel.heldDestroys) (replyAs_only (reliefFailed s n) rq 0x01D1 0 .fault .relReliefFail []).1 :)
  exact (carryRepair_eq hrepair rfl).trans (releaseDestroys_none (hheld.trans hnone))

theorem replyD_reliefBad : (replyD (reliefFailed s n) rq 0x01D1 .fault .relReliefFail []).rel.reliefBad = true :=
  (congrArg (fun t : State => t.rel.reliefBad) (replyAs_only (reliefFailed s n) rq 0x01D1 0 .fault .relReliefFail []).1 :)

end

/-! ## The Relief core takes over (R687 to R690) -/

/-- An entry of a table whose values have been changed one by one. -/
theorem tget?_map {α : Type} (t : Tab α) (f : Nat → α → α) (k : Nat) :
    tget? (t.map (fun e => (e.1, f e.1 e.2))) k = (tget? t k).map (f k) := by
  induction t with
  | nil => rfl
  | cons e r ih =>
    unfold tget? at *
    rw [List.map_cons, List.lookup_cons, List.lookup_cons, ih]
    cases hk : k == e.1 with
    | false => simp
    | true => simp [eq_of_beq hk]

/-- The image that a repair of core `n` leaves: a stage there marks it for a reload. -/
noncomputable def reloadMark (n : Nat) (im : Image) : Image := if stageOn im n then { im with reload := true } else im

/-- The context that a repair of core `n` leaves. -/
noncomputable def reloadMarks (n : Nat) (x : Ctx) : Ctx := { x with images := x.images.map (fun i => (i.1, reloadMark n i.2)) }

theorem mapRelief_ctxs (s : State) (n : Nat) : (mapRelief s n).ctxs = s.ctxs.map (fun e => (e.1, reloadMarks n e.2)) := by
  refine List.map_congr_left fun e _ => ?_
  refine congrArg (fun l => (e.1, { e.2 with images := l })) (List.map_congr_left fun i _ => ?_)
  unfold reloadMark
  split <;> rfl

theorem mapRelief_reload {s : State} {n c i : Nat} {x : Ctx} {im : Image} (hctx : tget? s.ctxs c = some x)
    (himage : tget? x.images i = some im) (hstage : stageOn im n = true) :
    ∃ y k, tget? (mapRelief s n).ctxs c = some y ∧ tget? y.images i = some k ∧ k.reload = true := by
  refine ⟨reloadMarks n x, reloadMark n im, ?_, ?_, ?_⟩
  · rw [mapRelief_ctxs, tget?_map s.ctxs (fun _ => reloadMarks n), hctx]
    rfl
  · exact (tget?_map x.images (fun _ => reloadMark n) i).trans (congrArg _ himage)
  · simp [reloadMark, hstage]

theorem physOf_mapRelief_self {s : State} {n : Nat} (hn : n < s.coreMap.length) : physOf (mapRelief s n) n = s.rel.unmapped :=
  congrArg (Option.getD · n) (List.getElem?_set_self hn)

theorem physOf_mapRelief_ne (s : State) {n m : Nat} (hm : m ≠ n) : physOf (mapRelief s n) m = physOf s m :=
  congrArg (Option.getD · m) (List.getElem?_set_ne hm.symm)

theorem notMem_fenced_mapRelief (s : State) (n : Nat) : n ∉ (mapRelief s n).fenced :=
  fun h => of_decide_eq_true (List.mem_filter.mp h).2 rfl

theorem mapRelief_decks_new (s : State) (n : Nat) : tget? (mapRelief s n).decks s.rel.unmapped = none := tget?_terase_self ..

theorem mapRelief_decks_other (s : State) (n : Nat) {p : Nat} (hnew : p ≠ s.rel.unmapped) (hold : p ≠ physOf s n) :
    tget? (mapRelief s n).decks p = tget? s.decks p :=
  (tget?_terase_ne _ _ _ hnew).trans (tget?_terase_ne _ _ _ hold)

/-! ## Words that ECC corrects and words that it cannot (R678, R679) -/

/-- The state with the words counted that ECC has corrected in a read. -/
noncomputable def corrected (s : State) (home n : Nat) : State :=
  if n = 0 then s else
    (withRel s { s.rel with ce := tset s.rel.ce home (min (tget s.rel.ce 0 home + n) (2 ^ 32 - 1)) })

/-- The state with a word counted and recorded that ECC cannot correct. -/
noncomputable def noted (s : State) (home w : Nat) : State :=
  (withRel s { s.rel with
    ue := tset s.rel.ue home (min (tget s.rel.ue 0 home + 1) (2 ^ 32 - 1)),
    ueAddr := (if home = 9 then 15 else home) * 2 ^ 28 + w / 32,
    ueAt := (home, s.rel.odo.hours) :: s.rel.ueAt.filter (fun e => decide (s.rel.odo.hours < e.2 + 1536)) })

/-- The first word that ECC cannot correct is counted, recorded and reported. -/
theorem noteWord_eq (s : State) (home w : Nat) : noteWord s home w = emitDev (noted s home w) .relEccUe
    (leBytes 1 (if home = 9 then 15 else home) ++ leBytes 4 (w / 32)) := rfl

section
variable {home n : Nat} {runs : List (Nat × Nat)} {s : State} {r : Ram} (hr : ramOf s home = r)
  (hn : n = (r.hits r.soft runs).length)
include hr hn

theorem eccScan_corrects (hbad : r.hits r.bad runs = []) : eccScan s home runs = (corrected s home n, none) := by
  subst hr
  subst hn
  unfold eccScan
  dsimp only
  rw [hbad]
  rfl

theorem eccScan_fails {w : Nat} {rest : List Nat} (hbad : r.hits r.bad runs = w :: rest) :
    eccScan s home runs = (emitDev (noted (corrected s home n) home w) .relEccUe
      (leBytes 1 (if home = 9 then 15 else home) ++ leBytes 4 (w / 32)), some (ueReason home)) := by
  subst hr
  subst hn
  unfold eccScan
  dsimp only
  rw [hbad]
  rfl

end

theorem corrected_counts (s : State) {home n : Nat} (hn : n ≠ 0) :
    corrected s home n = withRel s { s.rel with ce := (corrected s home n).rel.ce } ∧
      tget (corrected s home n).rel.ce 0 home = min (tget s.rel.ce 0 home + n) (2 ^ 32 - 1) ∧
      ∀ h, h ≠ home → tget (corrected s home n).rel.ce 0 h = tget s.rel.ce 0 h := by
  unfold corrected
  rw [if_neg hn]
  exact ⟨rfl, tget_tset_self .., fun _ hh => tget_tset_ne _ _ _ _ _ hh⟩

theorem corrected_only (s : State) (home n : Nat) :
    corrected s home n = withRel s { s.rel with ce := (corrected s home n).rel.ce } :=
  iteInduction (motive := fun t : State => t = withRel s { s.rel with ce := t.rel.ce }) (fun _ => rfl) (fun _ => rfl)

theorem noted_ue (s : State) (home n w : Nat) :
    tget (noted (corrected s home n) home w).rel.ue 0 home = min (tget s.rel.ue 0 home + 1) (2 ^ 32 - 1) := by
  have hue : (corrected s home n).rel.ue = s.rel.ue := (congrArg (fun t : State => t.rel.ue) (corrected_only s home n) :)
  exact (tget_tset_self ..).trans (by rw [hue])

theorem noted_only (s : State) (home n w : Nat) : ∀ v, v = noted (corrected s home n) home w →
    v = withRel s { s.rel with ce := v.rel.ce, ue := v.rel.ue, ueAddr := v.rel.ueAddr, ueAt := v.rel.ueAt } := by
  rintro v rfl
  exact (congrArg (fun u : State => (withRel u { u.rel with
    ce := (noted (corrected s home n) home w).rel.ce, ue := (noted (corrected s home n) home w).rel.ue,
    ueAddr := (noted (corrected s home n) home w).rel.ueAddr, ueAt := (noted (corrected s home n) home w).rel.ueAt }))
    (corrected_only s home n) :)

/-- Settles O43: fences by what the core is doing, repairs by the Relief core, and a read by its first bad word. -/
theorem fencingAndRepair : Obligations.FencingAndRepair :=
  ⟨fun rq n s hlive => ⟨fun hn => ⟨answered_fenceParam hlive hn, answered_repairParam hlive hn, fun _ =>
      execAutoFence_none (.inl hn)⟩, answered_fenceBusy hlive, answered_fencedAlready hlive,
    fun _ hfenced _ => execAutoFence_none (.inr (.inl hfenced)), fun hn hrepair hserves => ⟨fenceLost s n 0 (some rq), _, rfl,
      execCoreFence_fences hn hrepair hserves, mem_fenceLost_self .., mem_fenceLost_ne s n 0 (some rq), fenceLost_windows s n 0 (some rq),
      fenceLost_deck_self .., fenceLost_deck_ne s n 0 (some rq),
      congrArg (fun m : Ram × Tab Ram × Ext × Ext => m.1) (fenceLost_memory s n 0 (some rq)),
      congrArg (fun m : Ram × Tab Ram × Ext × Ext => m.2.2.1) (fenceLost_memory s n 0 (some rq)),
      congrArg (fun m : Ram × Tab Ram × Ext × Ext => m.2.2.2) (fenceLost_memory s n 0 (some rq)), mem_fenceLost_fencing ..⟩,
    fun h => h.elim (fun hoff => execAutoFence_none (.inr (.inr (.inl hoff))))
      (fun hfew => execAutoFence_none (.inr (.inr (.inr (fenceCause_fewErrors hfew))))),
    fun hoff _ => execAutoFence_none (.inr (.inr (.inl hoff))), fun hn hserves hauto hmode c _ hcause =>
      ⟨fenceLost s n c none, _, rfl, execAutoFence_fences hn hserves hauto hmode hcause, mem_fenceLost_self .., fenceLost_cause ..,
        fenceLost_deck_self .., fenceLost_deck_ne s n c none⟩,
    fun b hn => ⟨answered_notFenced hlive hn b, fun hfenced hdone hrelief =>
      answered_noRelief hn hfenced hdone hlive b hrelief, fun hfenced hdone hunused hgood =>
      ⟨answered_repairBusy hn hfenced hdone hunused hgood hlive b, execCoreRepair_begins hn hfenced hdone hunused hgood b⟩⟩,
    fun _ _ _ hrepair hv => ⟨fun hb => (carryRepair_eq hrepair hv).trans (congrArg _ (if_pos hb)), fun hb hnone =>
      ⟨_, carryRepair_fails (hb ▸ hrepair) hnone, replyD_replied (reliefFailed s n) rq 0x01D1 .fault .relReliefFail [] hlive,
        replyD_reliefBad, replyD_keeps (g := State.fenced) (fun _ _ _ _ _ => rfl) .., replyD_keeps (g := State.coreMap) (fun _ _ _ _ _ => rfl) ..,
        replyD_keeps (g := State.decks) (fun _ _ _ _ _ => rfl) ..⟩⟩,
    fun _ hn => ⟨mapRelief s n, rfl, physOf_mapRelief_self hn, notMem_fenced_mapRelief s n, rfl, rfl,
      mapRelief_decks_new s n, fun _ hm => physOf_mapRelief_ne s hm, fun _ hnew hold => mapRelief_decks_other s n hnew hold,
      fun _ _ _ _ => mapRelief_reload⟩⟩,
  fun home _ s _ n hr hn => ⟨fun hclean => ⟨_, eccScan_corrects hr hn hclean, fun h0 => if_pos h0, corrected_counts s⟩,
    fun w _ hbad => ⟨ueReason home, _, eccScan_fails hr hn hbad, rfl, noted_ue s home n w, rfl, noted_only s home n w _ rfl⟩⟩⟩

end Sys2Proof.Machine

/-!
PROOFS. Reset, boot, clocks and the PCIe link (O46).
-/

namespace Sys2Proof.Machine

/-! ## What the reports of a boot leave (R675, R767) -/

/-- The parts of `t` that the reports of a boot change, in `s`. -/
@[reducible] noncomputable def announcedAs (s t : State) : State :=
  { s with
    net := t.net, draws := t.draws,
    rel := { s.rel with unavailable := t.rel.unavailable, odo := { s.rel.odo with unavailMs := t.rel.odo.unavailMs } } }

/-- From `s` to `t` reports have left and the count of unavailable time has moved on; with no session, none has come and no
command either. -/
structure Announced (s t : State) : Prop where
  only : t = announcedAs s t
  quiet : s.net.sessions = [] → t.net.sessions = [] ∧ t.net.queue = s.net.queue

theorem Announced.refl (s : State) : Announced s s := ⟨rfl, fun h => ⟨h, rfl⟩⟩

theorem Announced.trans {s t u : State} (hst : Announced s t) (htu : Announced t u) : Announced s u where
  only := htu.only.trans (congrArg (announcedAs · u) hst.only :)
  quiet h := ⟨(htu.quiet (hst.quiet h).1).1, (htu.quiet (hst.quiet h).1).2.trans (hst.quiet h).2⟩

theorem Announced.ite {s t u : State} {c : Prop} [Decidable c] (ht : Announced s t) (hu : Announced s u) :
    Announced s (if c then t else u) :=
  iteInduction (fun _ => ht) (fun _ => hu)

theorem emit_queue_of_sessions_nil {s : State} (hnone : s.net.sessions = []) (c : Option Nat) (st : Status) (r : Reason)
    (b : Bytes) : (emit s c st r b).net.queue = s.net.queue := by
  have htargets : eventTargets s c.isNone = [] := by simp [eventTargets, hnone]
  unfold emit
  split
  · rfl
  · simp only [htargets, draw]

theorem emitDev_announced (s : State) (r : Reason) (b : Bytes) : Announced s (emitDev s r b) where
  only := (emitDev_frame s r b).trans (congrArg (announcedAs s) (emitDev_frame s r b)).symm
  quiet h := ⟨emit_sessions_nil h .., emit_queue_of_sessions_nil h ..⟩

theorem unavailFrom_announced (s : State) (cause : Nat) : Announced s (unavailFrom s cause) := ⟨rfl, fun h => ⟨h, rfl⟩⟩

theorem unavailTo_announced (s : State) (cause : Nat) : Announced s (unavailTo s cause) :=
  iteInduction (motive := Announced s) (fun _ => ⟨rfl, fun h => ⟨h, rfl⟩⟩) (fun _ => ⟨rfl, fun h => ⟨h, rfl⟩⟩)

/-! ## The last step of a boot (R675, R767, R811) -/

/-- The interfaces are enabled and the start-up votes withdrawn: the state that the last reports of a boot leave from. -/
noncomputable def interfacesUp (s : State) : State :=
  { s with
    rst := { s.rst with up := true, booting := false, lock := 0x1FF },
    pwr := { s.pwr with
      up := s.pwr.up ||| ((2 ^ 11 - 1) &&& ((2 ^ 11 - 1) ^^^ maskOf s.fenced)), startup := false } }

theorem bootDone_announced (s : State) : Announced (interfacesUp s) (bootDone s) := by
  unfold bootDone
  extract_lets up r p s1 s2 s3 s4 s5 s6
  have hdone : Announced s1 s2 := emitDev_announced ..
  have hfallback : Announced s1 s3 := (hdone.trans (emitDev_announced ..)).ite hdone
  have hreverted : Announced s1 s4 := (hfallback.trans (emitDev_announced ..)).ite hfallback
  have hcause : Announced s1 s5 := hreverted.trans (unavailTo_announced ..)
  have herror : Announced s1 s6 := hcause.ite (hcause.trans (unavailTo_announced ..))
  exact herror.ite (List.foldlRecOn _ _ herror fun a ha n _ => ha.trans (unavailTo_announced a _))

theorem Announced.interfacesUp {s t : State} (h : Announced s t) : Announced (interfacesUp s) (interfacesUp t) where
  only := congrArg Sys2Proof.Machine.interfacesUp h.only
  quiet := h.quiet

/-! ## The steps of a cold boot (R767) -/

theorem takePolicy_only (s : State) (slot : Nat) : takePolicy s slot = withSec s (takePolicy s slot).sec := by
  unfold takePolicy
  split <;> rfl

/-- The images boot: keys are derived, the self-tests run and the slot is recorded. -/
theorem bootImages_only (s : State) (slot : Nat) (selfTest : Bool) : bootImages s slot selfTest =
    { s with sec := (bootImages s slot selfTest).sec, rst := { s.rst with bootSlot := slot } } :=
  congrArg (fun t : State => { t with sec := (bootImages s slot selfTest).sec, rst := { t.rst with bootSlot := slot } })
    (takePolicy_only s slot)

/-- The Odometer starts over, with this boot its first. -/
noncomputable def odometerStart (s : State) : State :=
  { s with
    rel := { s.rel with odo := { cycles := 1, unorderly := if s.rel.orderly then 0 else 1 }, orderly := false },
    rst := { s.rst with boots := (s.rst.boots + 1) % 2 ^ 32 } }

/-- With no copy of the Odometer its counts start over, and this boot is the first. -/
theorem bootOdometer_announced {s : State} (hcopies : s.rel.copies = []) (copies : List Bool) :
    Announced (odometerStart s) (bootOdometer s copies) := by
  have hnone : (s.rel.copies.zip copies).find? (fun c => c.2) = none := by rw [hcopies]; rfl
  unfold bootOdometer
  rw [hnone]
  exact ((Announced.refl (odometerStart s)).ite (unavailFrom_announced ..)).trans (emitDev_announced ..)

/-- With no snapshot the region's blocks keep their reset values, and a bad tag is reported. -/
theorem applyRegion_announced {s : State} (hsnapshot : s.rst.snapshot = []) (blocks : List (Nat × List Nat)) (good : Bool) :
    Announced s (applyRegion blocks good s) := by
  unfold applyRegion
  split
  · exact List.foldlRecOn _ _ (Announced.refl s) fun a ha b _ => ha.trans (emitDev_announced a ..)
  · rw [if_pos (List.isEmpty_iff.mpr hsnapshot)]
    exact Announced.refl s

/-- The board and set records of the region are in force, and the weight record of a region whose tag is good. -/
noncomputable def regionStart (s : State) (good : Bool) : State :=
  { s with
    rst := { s.rst with board := s.rst.boardFlash, setRec := s.rst.setFlash },
    grd := { s.grd with weights := if good then s.rst.savedWeights else none } }

theorem bootRegion_announced {s : State} (hsnapshot : s.rst.snapshot = []) (good : Bool) :
    Announced (regionStart s good) (bootRegion s good) :=
  applyRegion_announced (s := regionStart s good) hsnapshot snapBlocks good

theorem bootRepair_none {s : State} (hrepair : s.rst.repair = none) (cores : List Bool) : bootRepair s true cores = s := by
  unfold bootRepair
  rw [if_neg (by decide), hrepair]

/-! ## The slot that boots (R642, R643, R693) -/

theorem slotChoice_recovery (s : State) : slotChoice s [false, false] = none := by
  have hnone : ∀ k, [false, false].getD k false = false := fun k => by
    rcases k with _ | _ | k <;> rfl
  unfold slotChoice
  dsimp only
  rw [hnone, hnone, if_neg (by decide), if_neg (by decide)]

theorem slotChoice_first {s : State} {ok : List Bool} {want slot : Nat}
    (hwant : want = (if s.rel.armed then 1 - s.rst.activeSlot else s.rst.activeSlot))
    (hslot : (ok.getD want false = true ∧ slot = want) ∨
      (ok.getD want false = false ∧ ok.getD (1 - want) false = true ∧ slot = 1 - want)) : slotChoice s ok = some slot := by
  unfold slotChoice
  rw [← hwant]
  dsimp only
  obtain ⟨hok, rfl⟩ | ⟨hbad, hok, rfl⟩ := hslot
  · rw [if_pos hok]
  · rw [if_neg (by rw [hbad]; decide), if_pos hok]

/-- The state in which the images of the slot to boot are loaded. -/
noncomputable def coldStart (s : State) (slot want : Nat) : State :=
  { s with
    rst := { s.rst with porstLow := false, held := false, fallback := decide (slot ≠ want) },
    pwr := { s.pwr with mode := .awake, powerOn := true, mainEn := true, startup := true },
    rel := { s.rel with armed := false, trial := s.rel.armed && decide (slot = want) } }

theorem coldBoot_recovery {s : State} {b : BootInput} (hslot : slotChoice s b.slotOk = none) : coldBoot s b = bootRecovery
    { s with
      rst := { s.rst with porstLow := false, held := false },
      pwr := { s.pwr with mode := .awake, powerOn := true, mainEn := true, startup := true } } := by
  unfold coldBoot
  rw [hslot]

theorem coldBoot_slot {s : State} {b : BootInput} {slot want : Nat}
    (hwant : want = (if s.rel.armed then 1 - s.rst.activeSlot else s.rst.activeSlot)) (hslot : slotChoice s b.slotOk = some slot)
    (htest : b.selfTest = true) {u : State}
    (hu : bootRepair (bootRegion (bootOdometer (bootImages (writeAvs (coldStart s slot want) s.pwr.watts) slot true) b.copies)
      b.snapshot) b.repair b.cores = u) :
    coldBoot s b = if u.ddr.training then (withRst u { u.rst with booting := true }) else bootDone u := by
  subst hu
  subst hwant
  unfold coldBoot
  rw [hslot, htest]
  rfl

/-- The Odometer and the region of a boot. -/
noncomputable def bootStored (a : State) (copies : List Bool) (good : Bool) : State := bootRegion (bootOdometer a copies) good

/-- What the Odometer and the region leave alone, and the cycles that they set. -/
noncomputable def bootHeld (s : State) : Sec × PwrMode × Ddr × Bool × Bool × Nat × Nat :=
  (s.sec, s.pwr.mode, s.ddr, s.rel.trial, s.rel.armed, s.rel.odo.cycles, s.grd.stopped)

section
variable {a : State} (hcopies : a.rel.copies = []) (hsnapshot : a.rst.snapshot = []) (copies : List Bool) (good : Bool)
include hcopies

theorem bootOdometer_rst : (bootOdometer a copies).rst = { a.rst with boots := (a.rst.boots + 1) % 2 ^ 32 } :=
  (congrArg State.rst (bootOdometer_announced hcopies copies).only :)

include hsnapshot

theorem bootStored_announced : Announced (regionStart (bootOdometer a copies) good) (bootStored a copies good) :=
  bootRegion_announced ((congrArg Rst.snapshot (bootOdometer_rst hcopies copies)).trans hsnapshot) good

theorem bootStored_rst : (bootStored a copies good).rst =
    { a.rst with boots := (a.rst.boots + 1) % 2 ^ 32, board := a.rst.boardFlash, setRec := a.rst.setFlash } :=
  (congrArg State.rst (bootStored_announced hcopies hsnapshot copies good).only :).trans
    (congrArg (fun r : Rst => { r with board := r.boardFlash, setRec := r.setFlash }) (bootOdometer_rst hcopies copies))

theorem bootStored_weights : (bootStored a copies good).grd.weights = if good then a.rst.savedWeights else none :=
  (congrArg (fun t : State => t.grd.weights) (bootStored_announced hcopies hsnapshot copies good).only :).trans
    (congrArg (fun r : Rst => if good then r.savedWeights else none) (bootOdometer_rst hcopies copies) :)

theorem bootStored_held : bootHeld (bootStored a copies good) = bootHeld (odometerStart a) :=
  (congrArg bootHeld (bootStored_announced hcopies hsnapshot copies good).only :).trans
    (congrArg bootHeld (bootOdometer_announced hcopies copies).only :)

end

/-- The images of the slot have booted. -/
noncomputable def imagesBooted (s : State) (slot want : Nat) : State := bootImages (writeAvs (coldStart s slot want) s.pwr.watts) slot true

/-- A boot that meets no fault, before its last step. -/
noncomputable def slotBooted (s : State) (b : BootInput) (slot want : Nat) : State := bootStored (imagesBooted s slot want) b.copies b.snapshot

section
variable {s : State} {b : BootInput} {slot want : Nat}

theorem imagesBooted_rst : (imagesBooted s slot want).rst = { (coldStart s slot want).rst with bootSlot := slot } :=
  congrArg State.rst (bootImages_only (writeAvs (coldStart s slot want) s.pwr.watts) slot true)

theorem imagesBooted_rel : (imagesBooted s slot want).rel = (coldStart s slot want).rel :=
  (congrArg State.rel (bootImages_only (writeAvs (coldStart s slot want) s.pwr.watts) slot true) :)

theorem imagesBooted_held : bootHeld (odometerStart (imagesBooted s slot want)) =
    ((imagesBooted s slot want).sec, .awake, s.ddr, s.rel.armed && decide (slot = want), false, 1, s.grd.stopped) :=
  (congrArg (fun t => bootHeld (odometerStart t))
    (bootImages_only (writeAvs (coldStart s slot want) s.pwr.watts) slot true) :)

variable (hsnapshot : s.rst.snapshot = []) (hcopies : s.rel.copies = [])
include hsnapshot hcopies

theorem slotBooted_rst : (slotBooted s b slot want).rst = { (coldStart s slot want).rst with
    bootSlot := slot, boots := (s.rst.boots + 1) % 2 ^ 32, board := s.rst.boardFlash, setRec := s.rst.setFlash } :=
  (bootStored_rst ((congrArg Rel.copies imagesBooted_rel).trans hcopies) ((congrArg Rst.snapshot imagesBooted_rst).trans hsnapshot) ..).trans
    (congrArg (fun r : Rst => { r with boots := (r.boots + 1) % 2 ^ 32, board := r.boardFlash, setRec := r.setFlash }) imagesBooted_rst)

theorem slotBooted_weights : (slotBooted s b slot want).grd.weights = if b.snapshot then s.rst.savedWeights else none :=
  (bootStored_weights ((congrArg Rel.copies imagesBooted_rel).trans hcopies) ((congrArg Rst.snapshot imagesBooted_rst).trans hsnapshot) ..).trans
    (congrArg (fun r : Rst => if b.snapshot then r.savedWeights else none) (imagesBooted_rst (s := s) (slot := slot) (want := want)) :)

theorem slotBooted_held : bootHeld (slotBooted s b slot want) =
    ((imagesBooted s slot want).sec, .awake, s.ddr, s.rel.armed && decide (slot = want), false, 1, s.grd.stopped) :=
  (bootStored_held ((congrArg Rel.copies imagesBooted_rel).trans hcopies)
    ((congrArg Rst.snapshot imagesBooted_rst).trans hsnapshot) ..).trans imagesBooted_held

/-- A boot that meets no fault, with no snapshot, no repair and no copy of the Odometer, goes to its end. -/
theorem coldBoot_boots (hwant : want = (if s.rel.armed then 1 - s.rst.activeSlot else s.rst.activeSlot))
    (hslot : slotChoice s b.slotOk = some slot) (htest : b.selfTest = true)
    (hgood : b.repair = true) (hrepair : s.rst.repair = none) (htrain : s.ddr.training = false) :
    coldBoot s b = bootDone (slotBooted s b slot want) := by
  have hrst := slotBooted_rst (b := b) (slot := slot) (want := want) hsnapshot hcopies
  have hnone : bootRepair (slotBooted s b slot want) b.repair b.cores = slotBooted s b slot want := by
    rw [hgood]
    exact bootRepair_none ((congrArg Rst.repair hrst).trans hrepair) b.cores
  refine (coldBoot_slot hwant hslot htest hnone).trans (if_neg ?_)
  exact Bool.eq_false_iff.mp ((congrArg (fun h => h.2.2.1.training) (slotBooted_held hsnapshot hcopies) :).trans htrain)

/-- What such a boot leaves. -/
theorem bootDone_booted : ∀ t, t = bootDone (slotBooted s b slot want) → t.rst.up = true ∧ t.rst.booting = false ∧
    t.rst.bootSlot = slot ∧ t.rst.porstLow = false ∧ t.pwr.mode = .awake ∧ t.rst.boots = (s.rst.boots + 1) % 2 ^ 32 ∧
    t.rel.odo.cycles = 1 ∧ t.sec.fwKeyHeld = true ∧ t.sec.selfTest = true ∧ t.rel.trial = (s.rel.armed && decide (slot = want)) ∧
    t.rel.armed = false ∧ t.grd.weights = (if b.snapshot then s.rst.savedWeights else none) ∧ t.grd.stopped = s.grd.stopped := by
  rintro t rfl
  have hend := (bootDone_announced (slotBooted s b slot want)).only
  have hrst := slotBooted_rst (b := b) (slot := slot) (want := want) hsnapshot hcopies
  have hrst' : (bootDone (slotBooted s b slot want)).rst = (interfacesUp (slotBooted s b slot want)).rst := (congrArg State.rst hend :)
  have hheld := (congrArg bootHeld hend :).trans (slotBooted_held (b := b) (slot := slot) (want := want) hsnapshot hcopies)
  exact ⟨congrArg Rst.up hrst', congrArg Rst.booting hrst', (congrArg Rst.bootSlot hrst' :).trans (congrArg Rst.bootSlot hrst :),
    (congrArg Rst.porstLow hrst' :).trans (congrArg Rst.porstLow hrst :), congrArg (fun h => h.2.1) hheld,
    (congrArg Rst.boots hrst' :).trans (congrArg Rst.boots hrst :), congrArg (fun h => h.2.2.2.2.2.1) hheld,
    congrArg (fun h => h.1.fwKeyHeld) hheld, congrArg (fun h => h.1.selfTest) hheld, congrArg (fun h => h.2.2.2.1) hheld,
    congrArg (fun h => h.2.2.2.2.1) hheld,
    (congrArg (fun t : State => t.grd.weights) hend :).trans (slotBooted_weights hsnapshot hcopies),
    congrArg (fun h => h.2.2.2.2.2.2) hheld⟩

end

/-! ## PORST_N (R763, R764, R767) -/

theorem execPorstNAsserted_on {s : State} (hmode : s.pwr.mode ≠ .off) : exec .porstNAsserted s = .next (coldReset s 0) :=
  congrArg Host.Outcome.next (if_neg hmode)

theorem execPorstN_released {s : State} (hlow : s.rst.porstLow = true) (hon : s.pwr.powerOn = true) (b : BootInput) :
    exec (.porstN b) s = .next (coldBoot s b) := congrArg Host.Outcome.next (if_pos ⟨hlow, hon⟩)

theorem execPorstN_held {s : State} (h : s.rst.porstLow = false ∨ s.pwr.powerOn = false) (b : BootInput) :
    exec (.porstN b) s = .next s :=
  congrArg Host.Outcome.next (if_neg fun ⟨hlow, hon⟩ => h.elim (Bool.eq_false_iff.mp · hlow) (Bool.eq_false_iff.mp · hon))

/-! ## The warm restart (R773) -/

theorem warmBusy_iff (s : State) : warmBusy s = true ↔
    s.pwr.entry ≠ none ∨ s.rel.fencing ≠ [] ∨ s.rel.repairing ≠ none ∨ s.rel.stage ≠ none := by
  simp [warmBusy, Option.isSome_iff_ne_none, or_assoc]

theorem answered_warmBusy {rq : Req} {s : State} (hlive : Live rq s) (hbusy : warmBusy s = true) :
    Answered (.rstWarm rq) s rq 0x0011 0 .busy .rstBusy [0, 0, 0, 0] s :=
  answered_replyD (congrArg Host.Outcome.next (if_pos hbusy)) hlive

theorem foldl_audRelease_keeps {β : Type} {g : State → β} (hg : ∀ s aud regs, g { s with aud := aud, regs := regs } = g s)
    (l : List Nat) (s : State) : g (l.foldl audRelease s) = g s :=
  List.foldlRecOn (motive := fun t => g t = g s) _ _ rfl fun t ht _ _ =>
    (iteInduction (motive := fun u => g u = g t) (fun _ => hg ..) (fun _ => hg t _ t.regs)).trans ht

/-- What a warm restart keeps. -/
noncomputable def warmHeld (s : State) : Ext × Ext × Ddr × Grd × Nat × Nat × Tab Word × List Instr :=
  (s.t3, s.t4, s.ddr, s.grd, s.rel.odo.cycles, s.rst.bootSlot, s.rst.snapshot, s.pending)

section
variable {s : State} (hpeers : s.set.peers = [])
include hpeers

theorem warmReset_held : warmHeld (warmReset s) = warmHeld s :=
  (foldl_audRelease_keeps (g := warmHeld) (fun _ _ _ => rfl) _ (endAllSessions s)).trans
    (endAllSessions_keeps (g := warmHeld) (fun _ _ _ => rfl) hpeers)

theorem warmReset_sessions : (warmReset s).net.sessions = [] :=
  (foldl_audRelease_keeps (g := fun t => t.net.sessions) (fun _ _ _ => rfl) _ (endAllSessions s)).trans
    (endAllSessions_sessions hpeers)

end

/-- The state after step 1 of a warm restart, whose cause is recorded and whose changed watches start over. -/
noncomputable def warmCause (s : State) : State :=
  draw (clearWatch s { warmReset s with
    rst := { (warmReset s).rst with
      cause := 4, board := (warmReset s).rst.boardFlash, setRec := (warmReset s).rst.setFlash, saving := none,
      recSel := none, recBuf := [] } })

theorem warmRestart_announced {s : State} (hsnapshot : (warmReset s).rst.snapshot = []) :
    Announced (interfacesUp (warmCause s)) (warmRestart s) :=
  (applyRegion_announced (s := warmCause s) hsnapshot _ _).interfacesUp.trans (bootDone_announced _)

/-- What a warm restart takes and what it keeps, with no set session and no snapshot. -/
theorem warmRestart_takes {s u : State} (hpeers : u.set.peers = []) (hsnapshot : s.rst.snapshot = [])
    (hsame : warmHeld u = warmHeld s) : ∀ t, t = warmRestart u →
    t.rst.cause = 4 ∧ t.ctxs = [] ∧ t.wins = [] ∧ t.flights = [] ∧ t.sec.keys = [] ∧ t.lanes = [] ∧ t.decks = [] ∧
      t.span.valid = [] ∧ t.net.sessions = [] ∧ t.net.queue = [] ∧ t.t3 = s.t3 ∧ t.t4 = s.t4 ∧ t.ddr = s.ddr ∧
      t.grd = s.grd ∧ t.rel.odo.cycles = s.rel.odo.cycles ∧ t.rst.bootSlot = s.rst.bootSlot ∧
      t.pending = s.pending := by
  rintro t rfl
  have hreset := (warmReset_held hpeers).trans hsame
  have hend := warmRestart_announced ((congrArg (fun h => h.2.2.2.2.2.2.1) hreset :).trans hsnapshot)
  have hquiet := hend.quiet (warmReset_sessions hpeers)
  have hheld := (congrArg warmHeld hend.only :).trans hreset
  exact ⟨(congrArg (fun t : State => t.rst.cause) hend.only :), (congrArg State.ctxs hend.only :), (congrArg State.wins hend.only :),
    (congrArg State.flights hend.only :), (congrArg (fun t : State => t.sec.keys) hend.only :), (congrArg State.lanes hend.only :),
    (congrArg State.decks hend.only :), (congrArg (fun t : State => t.span.valid) hend.only :), hquiet.1, hquiet.2,
    congrArg (·.1) hheld, congrArg (·.2.1) hheld, congrArg (·.2.2.1) hheld, congrArg (·.2.2.2.1) hheld,
    congrArg (·.2.2.2.2.1) hheld, congrArg (·.2.2.2.2.2.1) hheld, congrArg (·.2.2.2.2.2.2.2) hheld⟩

/-- The state whose reply to a warm restart has left. -/
noncomputable def warmReplied (s : State) (rq : Req) : State := replyD s rq 0x0011 .ok .none [1, 0, 0, 0]

theorem execRstWarm_restarts {rq : Req} {s : State} (hidle : ¬ warmBusy s = true) :
    exec (.rstWarm rq) s = .next (warmRestart (warmReplied s rq)) := congrArg Host.Outcome.next (if_neg hidle)

theorem warmReplied_held (s : State) (rq : Req) : warmHeld (warmReplied s rq) = warmHeld s :=
  (congrArg warmHeld (replyAs_only s rq 0x0011 0 .ok .none [1, 0, 0, 0]).1 :)

theorem warmReplied_set (s : State) (rq : Req) : (warmReplied s rq).set = s.set :=
  (congrArg State.set (replyAs_only s rq 0x0011 0 .ok .none [1, 0, 0, 0]).1 :)

/-! ## REFCLK, the PLLs and the PCIe link (R637, R754, R758, R759, R762) -/

theorem tamper_t4 (s : State) : (tamper s).t4 = s.t4 := by
  by_cases hruns : tlaogRuns s = true
  · exact tamper_keeps (g := State.t4) (fun _ _ _ _ _ _ => rfl) hruns
  · rw [tamper, if_neg hruns]
    exact iteInduction (motive := fun t : State => t.t4 = s.t4) (fun _ => rfl) (fun _ => rfl)

theorem execRefclkInterruption_on {s : State} (hmode : s.pwr.mode ≠ .off) (hlow : s.rst.porstLow = false) :
    exec .refclkInterruption s = .next (holdReset (tamper s) 2) :=
  congrArg Host.Outcome.next (if_neg (not_or.mpr ⟨hmode, Bool.eq_false_iff.mp hlow⟩))

theorem execPllLoss_locked {s : State} {p : Nat} (hlock : bit (locks s) p = true) (hlow : s.rst.porstLow = false) (hp : p < 9) :
    exec (.pllLoss p) s = .next (if p = 0 then tamper s else if p = 1 then grdFault s else holdReset s 3) := by
  refine congrArg Host.Outcome.next (if_neg ?_)
  rw [hlock, hlow]
  exact fun h => h.elim Bool.false_ne_true (Or.elim · (Nat.not_le.mpr hp) Bool.false_ne_true)

theorem execPllLoss_unlocked {s : State} {p : Nat} (h : bit (locks s) p = false ∨ 9 ≤ p ∨ s.rst.porstLow = true) :
    exec (.pllLoss p) s = .next s := congrArg Host.Outcome.next (if_pos (h.imp_left (congrArg not)))

theorem reports_pcieLinkDown {s : State} (hup : s.pcie.up = true) (hroom : EventRoom s) :
    Reports .pcieLinkDown s none .ok .pcieLinkDown []
      (withPcie s { s.pcie with up := false, gen := 0, width := 0, ready := false }) :=
  reports_emit (congrArg Host.Outcome.next (if_pos hup)) hroom

theorem execPcieLinkUp_none {s : State} (h : pageOn s 0x0024_0000 = false ∨ s.pcie.up = true ∨ s.pwr.mode ≠ .awake) (g w : Nat) :
    exec (.pcieLinkUp g w) s = .next s :=
  congrArg Host.Outcome.next (if_neg fun ⟨hon, hdown, hmode⟩ => h.elim (Bool.eq_false_iff.mp · hon)
    (Or.elim · (fun hup => Bool.false_ne_true ((congrArg not hup).symm.trans hdown)) (absurd hmode)))

theorem reports_pcieLinkUp {s : State} (hon : pageOn s 0x0024_0000 = true) (hdown : s.pcie.up = false)
    (hmode : s.pwr.mode = .awake) (hroom : EventRoom s) (g w : Nat) {a b : Nat} (ha : a = min g (live s 0x0024_0010 % 4))
    (hb : b = min w (bits (live s 0x0024_0010) 3 2)) :
    Reports (.pcieLinkUp g w) s none .ok .pcieLinkUp (leBytes 1 a ++ leBytes 1 b)
      (withPcie s { s.pcie with up := true, gen := a, width := b, ready := true }) := by
  subst ha
  subst hb
  exact reports_emit (congrArg Host.Outcome.next (if_pos ⟨hon, congrArg not hdown, hmode⟩)) hroom

/-- Settles O46: the resets by what each clears, the boot by its slot, and the clocks and the link by the state they meet. -/
theorem resetClocksAndLinks : Obligations.ResetClocksAndLinks :=
  ⟨⟨fun _ => ⟨fun hmode => congrArg Host.Outcome.next (if_pos hmode), fun hmode => ⟨_, execPorstNAsserted_on hmode, rfl,
      rfl, rfl, rfl, rfl, rfl, rfl, rfl, rfl, rfl, rfl, rfl, rfl, rfl, rfl, rfl, rfl, rfl, rfl, rfl, rfl, rfl, rfl⟩⟩,
    fun b s => ⟨fun h => execPorstN_held h b, fun hlow hon hslots _ => ⟨_, (execPorstN_released hlow hon b).trans
        (congrArg _ (coldBoot_recovery ((congrArg (slotChoice s) hslots).trans (slotChoice_recovery s)))), rfl, rfl, rfl, rfl, rfl, rfl, rfl⟩,
      fun _ _ _ _ hlow hon _ _ hwant hslot htest hsnapshot hgood hrepair htrain hcopies => ⟨_, (execPorstN_released hlow hon b).trans
        (congrArg _ (coldBoot_boots hsnapshot hcopies hwant (slotChoice_first hwant hslot) htest hgood hrepair htrain)),
        bootDone_booted hsnapshot hcopies _ rfl⟩⟩,
    fun rq s hlive => ⟨fun h => answered_warmBusy hlive ((warmBusy_iff s).mpr h),
      fun hentry hfencing hrepairing hstage hpeers hsnapshot =>
        have hidle : ¬ warmBusy s = true := fun h => ((warmBusy_iff s).mp h).elim (· hentry)
          (Or.elim · (· hfencing) (Or.elim · (· hrepairing) (· hstage)))
        ⟨_, execRstWarm_restarts hidle, warmRestart_takes ((congrArg SetDev.peers (warmReplied_set s rq)).trans hpeers) hsnapshot
          (warmReplied_held s rq) _ rfl⟩⟩⟩,
    fun s => ⟨fun h => congrArg Host.Outcome.next (if_pos h),
      fun hmode hlow => ⟨_, execRefclkInterruption_on hmode hlow, rfl, rfl, rfl, rfl, rfl, tamper_t4 s, rfl⟩,
      fun hheld => congrArg Host.Outcome.next (if_neg (Bool.eq_false_iff.mp hheld)),
      fun hheld => ⟨freeBoot s, congrArg Host.Outcome.next (if_pos hheld)⟩,
      fun _ => ⟨execPllLoss_unlocked, fun hlock hlow hp =>
        have hrun := execPllLoss_locked hlock hlow hp
        ⟨fun h0 => hrun.trans (congrArg _ (if_pos h0)),
          fun h1 => hrun.trans (congrArg _ ((if_neg (h1 ▸ Nat.one_ne_zero)).trans (if_pos h1))),
          fun h2 => ⟨_, hrun.trans (congrArg _ ((if_neg (Nat.ne_of_gt (Nat.lt_of_lt_of_le Nat.zero_lt_two h2))).trans
            (if_neg (Nat.ne_of_gt h2)))), rfl, rfl, rfl, rfl, rfl⟩⟩⟩,
      fun hdown => congrArg Host.Outcome.next (if_neg (Bool.eq_false_iff.mp hdown)), reports_pcieLinkDown,
      fun g w => ⟨fun h => execPcieLinkUp_none h g w, fun hon hdown hmode hroom _ _ ha hb =>
        reports_pcieLinkUp hon hdown hmode hroom g w ha hb⟩⟩⟩

end Sys2Proof.Machine

/-! PROOFS. The operations of a lane: what a quiet packet boundary, a delivery and a hand-over leave of it, and LANE_CFG and
LANE_FLUSH (O29). -/

namespace Sys2Proof.Machine

/-! ## A lane in the table -/

theorem tset_tset {α : Type} (k : Nat) (v w : α) : ∀ t : Tab α, tset (tset t k v) k w = tset t k w
  | [] => (if_neg (Nat.lt_irrefl k)).trans (if_pos rfl)
  | (j, x) :: r => by
    by_cases hlt : k < j
    · have hset (u : α) : tset ((j, x) :: r) k u = (k, u) :: (j, x) :: r := if_pos hlt
      exact (congrArg (tset · k w) (hset v)).trans (((if_neg (Nat.lt_irrefl k)).trans (if_pos rfl)).trans (hset w).symm)
    · by_cases heq : k = j
      · have hset (u : α) : tset ((j, x) :: r) k u = (k, u) :: r := (if_neg hlt).trans (if_pos heq)
        exact (congrArg (tset · k w) (hset v)).trans (((if_neg (Nat.lt_irrefl k)).trans (if_pos rfl)).trans (hset w).symm)
      · have hset (r : Tab α) (u : α) : tset ((j, x) :: r) k u = (j, x) :: tset r k u := (if_neg hlt).trans (if_neg heq)
        exact (congrArg (tset · k w) (hset r v)).trans ((hset _ w).trans
          ((congrArg ((j, x) :: ·) (tset_tset k v w r)).trans (hset r w).symm))

theorem setLane_setLane (s : State) (n : Nat) (l m : Lane) : setLane (setLane s n l) n m = setLane s n m :=
  congrArg (fun t : Tab Lane => { s with lanes := t }) (tset_tset n l m s.lanes)

theorem laneAt_setLane_ne (s : State) {n m : Nat} (hne : m ≠ n) (l : Lane) : laneAt (setLane s n l) m = laneAt s m :=
  tget_tset_ne s.lanes n m l {} hne

theorem laneAt_congr {s t : State} (h : t.lanes = s.lanes) (n : Nat) : laneAt t n = laneAt s n :=
  congrArg (fun lanes => tget lanes ({} : Lane) n) h

theorem replyC_onlyNet (s : State) (rq : Req) (op : Nat) (st : Status) (r : Reason) (b : Bytes) :
    OnlyNet s (replyC s rq op st r b) := (replyAs_only s rq op rq.ctx st r b).onlyNet

theorem OnlyNet.lanes {s t : State} (h : OnlyNet s t) : t.lanes = s.lanes := (congrArg State.lanes (h : t = netAs s t) :)

/-- The reply to a LANE_CFG leaves its lane as it was written. -/
theorem laneAt_replied (s : State) (n : Nat) (l : Lane) (rq : Req) : laneAt (replyC (setLane s n l) rq 0x0170 .ok .none []) n = l :=
  (laneAt_congr (replyC_onlyNet ..).lanes n).trans (laneAt_setLane ..)

/-! ## What is written to a lane -/

/-- The lane that has sent `k` bytes of its draining bank. -/
noncomputable def sentAs (l : Lane) (k : Nat) : Lane := { l with sentBytes := k }

/-- The lane of a session that has been sent `k` bytes of its draining bank. -/
noncomputable def sessioned (l : Lane) (sess : Option Nat) (k : Nat) : Lane := { l with sess := sess, sentBytes := k }

/-- The lane that a LANE_CFG of context `c` waits for. -/
noncomputable def owned (l : Lane) (c : Nat) (g : LaneCfg) : Lane := { l with owner := some c, pend := some g }

/-- The lane that a LANE_FLUSH waits for. -/
noncomputable def flushed (l : Lane) (rq : Req) : Lane := { l with flush := l.flush ++ [rq] }

/-- The lane whose status keeps a reason. -/
noncomputable def reasoned (l : Lane) (r : Reason) : Lane := { l with cfgReason := r }

/-- The fields of a LANE_CFG. -/
noncomputable def cfgOf (rq : Req) (mode enable level idle : Nat) : LaneCfg :=
  { mode := mode, enable := enable == 1, level := level, idle := idle, sess := rq.sess }

/-! ## What a lane becomes -/

/-- The lanes and the parts of `t` that a reply changes, in `s`. -/
@[reducible] noncomputable def lanesAs (s t : State) : State :=
  { s with lanes := t.lanes, net := t.net, draws := t.draws, rel := t.rel }

/-- From `s` to `t` lane `n` becomes `l` and every other lane stays; besides the lanes only the Kraros layer, the counter of
draws and the meters of `rel` change. -/
structure LaneBecomes (n : Nat) (l : Lane) (s t : State) : Prop where
  lane : laneAt t n = l
  others : ∀ m, m ≠ n → laneAt t m = laneAt s m
  frame : t = lanesAs s t

theorem LaneBecomes.trans {n : Nat} {a b : Lane} {s t u : State} (hst : LaneBecomes n a s t) (htu : LaneBecomes n b t u) :
    LaneBecomes n b s u where
  lane := htu.lane
  others m hm := (htu.others m hm).trans (hst.others m hm)
  frame := htu.frame.trans (congrArg (lanesAs · u) hst.frame :)

theorem OnlyNet.lane_becomes {s t : State} (h : OnlyNet s t) (n : Nat) : LaneBecomes n (laneAt s n) s t where
  lane := laneAt_congr h.lanes n
  others m _ := laneAt_congr h.lanes m
  frame := Eq.trans (h : t = netAs s t) (congrArg (lanesAs s) (h : t = netAs s t)).symm

theorem setLane_becomes (s : State) (n : Nat) (l : Lane) : LaneBecomes n l s (setLane s n l) :=
  ⟨laneAt_setLane s n l, fun _ hm => laneAt_setLane_ne s hm l, rfl⟩

theorem LaneBecomes.set {n : Nat} {l : Lane} {s t : State} (h : LaneBecomes n l s t) : LaneBecomes n l s (setLane t n l) :=
  h.trans (setLane_becomes t n l)

/-! ## Where nothing waits -/

theorem servePuts_of_none {s : State} {n : Nat} {l : Lane} (hlane : laneAt s n = l) (h : l.waiting = []) :
    servePuts s n = setLane s n l := by
  subst hlane
  exact (congrArg (fun w => retryPuts n w (setLane s n { laneAt s n with waiting := [] })) h).trans
    (congrArg (fun w => setLane s n { laneAt s n with waiting := w }) h.symm)

theorem servePuts_setLane {l : Lane} (h : l.waiting = []) (s : State) (n : Nat) : servePuts (setLane s n l) n = setLane s n l :=
  (servePuts_of_none (laneAt_setLane s n l) h).trans (setLane_setLane ..)

theorem flushOut_of_none {s : State} {n : Nat} (h : (laneAt s n).flushing = []) : flushOut s n = s :=
  if_pos (.inl (List.isEmpty_iff.mpr h))

theorem flushOut_of_draining {s : State} {n : Nat} (h : (laneAt s n).draining ≠ []) : flushOut s n = s :=
  if_pos (.inr (congrArg not (List.isEmpty_eq_false_iff.mpr h)))

theorem flushOut_of_drained {s : State} {n : Nat} {l : Lane} (hlane : laneAt s n = l) (h : l.flushing ≠ []) (hdrained : l.draining = []) :
    flushOut s n = handOver s n := by
  subst hlane
  exact if_neg (Or.elim · (fun hnone => h (List.isEmpty_iff.mp hnone))
    (fun hsome => Bool.false_ne_true ((congrArg (fun b : Bytes => !b.isEmpty) hdrained).symm.trans hsome)))

theorem boundary_of_opened {s : State} {n : Nat} (hopened : (laneAt s n).opened ≠ none) : boundary s n = flushOut s n :=
  if_pos (Option.isSome_iff_ne_none.mpr hopened)

/-- The lane at a packet boundary: the flushes that waited for it have taken effect. -/
noncomputable def bounded (l : Lane) : Lane := { l with flush := [], flushing := l.flushing ++ l.flush }

theorem bounded_of_noFlush {l : Lane} (h : l.flush = []) : bounded l = l :=
  congrArg₂ (fun a b => { l with flush := a, flushing := b }) h.symm ((congrArg (l.flushing ++ ·) h).trans (List.append_nil _))

section
variable {s t : State} {n : Nat} (hopened : (laneAt s n).opened = none) (ht : flushOut (setLane s n (bounded (laneAt s n))) n = t)
include hopened ht

/-- Where no packet is open the flush takes effect first, and the LANE_CFG follows once no hand-over is owed. -/
theorem boundary_of_noCfg (hpend : (laneAt t n).pend = none) : boundary s n = t := by
  subst ht
  refine (if_neg (fun h => Option.isSome_iff_ne_none.mp h hopened)).trans ?_
  rw [bounded] at hpend
  rw [hpend]
  rfl

theorem boundary_of_cfg {g : LaneCfg} (hpend : (laneAt t n).pend = some g) (hflushing : (laneAt t n).flushing = []) :
    boundary s n = applyCfg t n g := by
  subst ht
  refine (if_neg (fun h => Option.isSome_iff_ne_none.mp h hopened)).trans ?_
  rw [bounded] at hpend hflushing ⊢
  rw [hpend]
  exact if_pos (List.isEmpty_iff.mpr hflushing)

end

/-! ## Delivery and hand-over (R562 to R567) -/

/-- From `s` to `t` bytes of a draining bank are sent: lane `n` changes in the count of bytes sent alone, and no packet that
was sent is taken back. -/
def Sends (n : Nat) (s t : State) : Prop :=
  (∃ k, LaneBecomes n (sentAs (laneAt s n) k) s t) ∧ s.net.sent ⊆ t.net.sent

theorem Sends.refl (n : Nat) (s : State) : Sends n s s :=
  ⟨⟨(laneAt s n).sentBytes, rfl, fun _ _ => rfl, rfl⟩, List.Subset.refl _⟩

theorem LaneBecomes.sends {n : Nat} {l : Lane} {s t u : State} (hst : LaneBecomes n l s t) (htu : Sends n t u) :
    ∃ k, LaneBecomes n (sentAs l k) s u :=
  htu.1.imp fun k hk => hst.trans
    ⟨hk.lane.trans (congrArg (sentAs · k) hst.lane), hk.others, hk.frame⟩

theorem Sends.trans {n : Nat} {s t u : State} (hst : Sends n s t) (htu : Sends n t u) : Sends n s u :=
  ⟨hst.1.elim fun _ hk => (hk.sends htu).imp fun _ h => h, List.Subset.trans hst.2 htu.2⟩

theorem deliver_sends (n : Nat) (s : State) (sid : Nat) (p : Packet) (lane : Option Nat) : Sends n s (deliver s sid p lane) :=
  ⟨⟨(laneAt s n).sentBytes, (deliver_onlyNet ..).lane_becomes n⟩, fun _ hq => mem_deliver_sent hq ..⟩

theorem sends_setLane_deliver (n : Nat) (s : State) (k sid : Nat) (p : Packet) (lane : Option Nat) :
    Sends n s (deliver (setLane s n (sentAs (laneAt s n) k)) sid p lane) :=
  ⟨(setLane_becomes s n (sentAs (laneAt s n) k)).sends (deliver_sends ..),
    (deliver_sends n (setLane s n (sentAs (laneAt s n) k)) ..).2⟩

theorem laneSend_sends (n fuel : Nat) (s : State) : Sends n s (laneSend n fuel s) := by
  induction fuel generalizing s with
  | zero => exact Sends.refl n s
  | succ fuel ih =>
    unfold laneSend
    dsimp only
    split
    · exact Sends.refl n s
    · exact iteInduction (motive := Sends n s) (fun _ => Sends.refl n s) fun _ =>
        Sends.trans (sends_setLane_deliver n s ..) (ih (deliver ..))

theorem sendLane_of_drained {s : State} {n : Nat} (h : (laneAt s n).draining = []) : sendLane s n = s := by
  unfold sendLane laneSend
  dsimp only
  split
  · rfl
  · exact if_pos (.inl ((congrArg List.length h).trans_le (Nat.zero_le _)))

/-- The lane whose banks have swapped, before a byte is sent. -/
noncomputable def swapped (l : Lane) : Lane :=
  { l with draining := l.filling.flatMap LanePkt.bytes, filling := [], sentBytes := 0, flushing := [] }

/-- The device when the banks of a lane have swapped, before a flush is answered or a byte sent. -/
noncomputable def swapBanks (s : State) (n : Nat) : State :=
  setLane (odoSample s 12 (heldShare n (laneAt s n))) n (swapped (laneAt s n))

theorem swapBanks_becomes (s : State) (n : Nat) : LaneBecomes n (swapped (laneAt s n)) s (swapBanks s n) :=
  ⟨laneAt_setLane .., fun _ hm => laneAt_setLane_ne _ hm _, rfl⟩

/-- The device when the flushes that a hand-over serves are answered, before a byte is sent. -/
noncomputable def flushAnswered (s : State) (n : Nat) : State :=
  (laneAt s n).flushing.foldl (fun a rq => replyC a rq 0x0171 .ok .none []) (swapBanks s n)

theorem flushAnswered_becomes (s : State) (n : Nat) : LaneBecomes n (swapped (laneAt s n)) s (flushAnswered s n) :=
  have honly : OnlyNet (swapBanks s n) (flushAnswered s n) :=
    List.foldlRecOn (motive := OnlyNet (swapBanks s n)) _ _ (OnlyNet.refl _) fun _ ha rq _ => ha.trans (replyC_onlyNet _ rq ..)
  (swapBanks_becomes s n).trans ⟨(honly.lane_becomes n).lane.trans (swapBanks_becomes s n).lane,
    (honly.lane_becomes n).others, (honly.lane_becomes n).frame⟩

theorem handOver_sends (s : State) (n : Nat) : Sends n (flushAnswered s n) (handOver s n) := laneSend_sends ..

/-- A hand-over gives the complete packets to the draining bank; the lane keeps its open packet, its numbers and its lost
count. -/
theorem handOver_becomes (s : State) (n : Nat) : ∃ k, LaneBecomes n (sentAs (swapped (laneAt s n)) k) s (handOver s n) :=
  (flushAnswered_becomes s n).sends (handOver_sends s n)

theorem wireOf_finishCmd (s : State) (sid seq : Nat) : wireOf (finishCmd s sid seq) sid = wireOf s sid := by
  unfold wireOf
  rw [finishCmd, tget?_tmod_self]
  exact Option.map_map ..

/-- The final reply to a command, with link number `k`, as it leaves. -/
noncomputable def finalReply (rq : Req) (op : Nat) (st : Status) (r : Reason) (b : Bytes) (k : Nat) (w : Option Wire) : Packet :=
  { sess := rq.sess, cls := .rsp, op := op, seq := rq.seq, ctx := rq.ctx, status := st, reason := r, link := k, payload := b, wire := w }

/-- The final reply to a command of a context goes where the command's session is. -/
theorem mem_replyC_sent {s : State} {rq : Req} (hlive : Live rq s) (op : Nat) (st : Status) (r : Reason) (b : Bytes) :
    ∃ k, finalReply rq op st r b k (wireOf s rq.sess) ∈ (replyC s rq op st r b).net.sent := by
  obtain ⟨e, he⟩ := Option.isSome_iff_exists.mp ((finishCmd_live (replyMeter s rq.iface) rq.sess rq.seq rq.sess).trans hlive)
  have hwire : wireOf (finishCmd (replyMeter s rq.iface) rq.sess rq.seq) rq.sess = wireOf s rq.sess := wireOf_finishCmd ..
  rw [← hwire]
  exact mem_deliver_self he rfl none

/-- A hand-over that one flush awaits answers it. -/
theorem handOver_answers {s : State} {n : Nat} {l : Lane} {rq : Req} (hlane : laneAt s n = l) (hone : l.flushing = [rq])
    (hlive : Live rq s) : ∃ b k, LaneBecomes n (sentAs (swapped l) b) s (handOver s n) ∧
      finalReply rq 0x0171 .ok .none [] k (wireOf s rq.sess) ∈ (handOver s n).net.sent := by
  subst hlane
  obtain ⟨b, hb⟩ := handOver_becomes s n
  obtain ⟨k, hk⟩ := mem_replyC_sent (s := swapBanks s n) (rq := rq) hlive 0x0171 .ok .none []
  have hanswered : flushAnswered s n = replyC (swapBanks s n) rq 0x0171 .ok .none [] :=
    congrArg (List.foldl (fun a rq => replyC a rq 0x0171 .ok .none []) (swapBanks s n)) hone
  exact ⟨b, k, hb, (handOver_sends s n).2 (hanswered ▸ hk)⟩

/-! ## What a LANE_CFG makes of a lane (R549, R550) -/

/-- The lane that a LANE_CFG in force leaves, but for its session. -/
noncomputable def cfgTaken (l : Lane) (g : LaneCfg) : Lane :=
  let l0 := { l with pend := none }
  let l1 :=
    if g.enable then
      if l.enable then l0
      else { l0 with enable := true, lost := 0, begun := 0, offset := if l.draining.isEmpty then 0 else l.offset }
    else loseBy { l0 with enable := false, filling := [], opened := none } (l.filling.length + (if l.opened.isSome then 1 else 0))
  { l1 with mode := g.mode, level := g.level, idle := g.idle }

/-- The device in which a lane is written and the outbound store is `o`. -/
noncomputable def lanePlaced (s : State) (n : Nat) (o : List OutEntry) (l : Lane) : State :=
  { s with lanes := tset s.lanes n l, net := { s.net with outbound := o } }

/-- A LANE_CFG that comes into force on a drained lane writes the lane, and withdraws what the outbound store holds of it
where the session changes. -/
theorem applyCfg_places {s : State} {n : Nat} {g : LaneCfg} {l c m : Lane} (hlane : laneAt s n = l) (hc : cfgTaken l g = c)
    (hsess : l.sess = c.sess) (hsent : l.sentBytes = c.sentBytes) (hdrained : m.draining = [])
    (hfree : ∀ k, laneFree (sessioned c (some g.sess) k) = sentAs m k) :
    ∃ o, applyCfg s n g = lanePlaced s n o (sentAs m (if l.sess = some g.sess then l.sentBytes else 0)) := by
  subst hlane
  by_cases h : (laneAt s n).sess = some g.sess
  · have hself : cfgTaken (laneAt s n) g = sessioned c (some g.sess) (laneAt s n).sentBytes :=
      hc.trans (congrArg₂ (sessioned c) (hsess.symm.trans h) hsent.symm)
    exact ⟨s.net.outbound, (if_pos h).trans ((congrArg (fun c => setLane s n (laneFree c)) hself).trans
      ((congrArg (setLane s n) (hfree _)).trans (congrArg (fun k => setLane s n (sentAs m k)) (if_pos h).symm)))⟩
  · exact ⟨(withdrawLane s n).net.outbound, (if_neg h).trans ((congrArg (fun c : Lane =>
        sendLane (setLane (withdrawLane s n) n (laneFree (sessioned c (some g.sess) 0))) n) hc).trans
      ((congrArg (fun c => sendLane (setLane (withdrawLane s n) n c) n) (hfree 0)).trans
        ((sendLane_of_drained ((congrArg Lane.draining (laneAt_setLane _ n (sentAs m 0))).trans hdrained)).trans
          (congrArg (fun k => setLane (withdrawLane s n) n (sentAs m k)) (if_neg h).symm))))⟩

theorem laneFree_disabled {l : Lane} (hoff : l.enable = false) (hdrained : l.draining = []) :
    laneFree l = { l with owner := none, sess := none } :=
  if_pos (by rw [hoff, hdrained]; rfl)

theorem enabled_lane {l : Lane} (hdrained : l.draining = []) : ∀ e, e = l.enable →
    (if e then l else { l with enable := true, lost := 0, begun := 0, offset := if l.draining.isEmpty then 0 else l.offset }) =
      { l with
        enable := true, lost := if e then l.lost else 0, begun := if e then l.begun else 0, offset := if e then l.offset else 0 }
  | true, h => congrArg (fun b => { l with enable := b }) h.symm
  | false, _ => congrArg (fun o => { l with enable := true, lost := 0, begun := 0, offset := o })
      (if_pos (List.isEmpty_iff.mpr hdrained))

theorem cfgTaken_enables {l : Lane} {g : LaneCfg} (hdrained : l.draining = []) (hon : g.enable = true) : cfgTaken l g =
    { l with
      pend := none, enable := true, mode := g.mode, level := g.level, idle := g.idle, lost := if l.enable then l.lost else 0,
      begun := if l.enable then l.begun else 0, offset := if l.enable then l.offset else 0 } :=
  congrArg (fun c : Lane => { c with mode := g.mode, level := g.level, idle := g.idle })
    ((if_pos hon).trans (enabled_lane (l := { l with pend := none }) hdrained l.enable rfl))

theorem cfgTaken_disables {l : Lane} {g : LaneCfg} (hopened : l.opened = none) (hoff : g.enable = false) : cfgTaken l g =
    { l with
      pend := none, enable := false, mode := g.mode, level := g.level, idle := g.idle, filling := [],
      lost := min (l.lost + l.filling.length) 0xFFFF_FFFF } :=
  (congrArg (fun c : Lane => { c with mode := g.mode, level := g.level, idle := g.idle })
    (if_neg (Bool.eq_false_iff.mp hoff))).trans (congrArg₂ (fun o p : Option (LanePkt × Nat × Nat) => { l with
      pend := none, enable := false, mode := g.mode, level := g.level, idle := g.idle, filling := [], opened := p,
      lost := min (l.lost + (l.filling.length + (if o.isSome then 1 else 0))) 0xFFFF_FFFF }) hopened hopened.symm)

/-! ## The parameters of LANE_CFG (R549) -/

theorem laneParamBad_iff (n mode enable level idle : Nat) : laneParamBad n mode enable level idle = true ↔
    31 < n ∨ 3 < mode ∨ 1 < enable ∨ level % 8 ≠ 0 ∨ (n < 24 ∧ (16384 < level ∨ idle ≠ 0)) ∨
      (24 ≤ n ∧ (level < 8 ∨ 131072 < level ∨ (idle ≠ 0 ∧ (idle < 10 ∨ 100000 < idle)))) := by
  unfold laneParamBad
  rw [Bool.or_eq_true, Bool.or_eq_true, Bool.or_eq_true, Bool.or_eq_true, decide_eq_true_eq, decide_eq_true_eq, decide_eq_true_eq,
    bne_iff_ne, or_assoc, or_assoc, or_assoc]
  refine or_congr_right (or_congr_right (or_congr_right (or_congr_right ?_)))
  by_cases hn : n < 24
  · simp [hn, Nat.not_le.mpr hn]
  · simp [hn, Nat.not_lt.mp hn, or_assoc]

theorem laneParam_good {n mode enable level idle : Nat} (hn : n < 32) (hmode : mode < 4) (henable : enable < 2)
    (hlevel : level % 8 = 0) (hsmall : n < 24 → level ≤ 16384 ∧ idle = 0)
    (hlarge : 24 ≤ n → 8 ≤ level ∧ level ≤ 131072 ∧ (idle = 0 ∨ (10 ≤ idle ∧ idle ≤ 100000))) :
    ¬ laneParamBad n mode enable level idle = true := by
  rw [laneParamBad_iff]
  rintro (h | h | h | h | ⟨h24, h⟩ | ⟨h24, h⟩)
  · exact Nat.not_lt.mpr (Nat.le_of_lt_succ hn) h
  · exact Nat.not_lt.mpr (Nat.le_of_lt_succ hmode) h
  · exact Nat.not_lt.mpr (Nat.le_of_lt_succ henable) h
  · exact h hlevel
  · obtain ⟨hle, hidle⟩ := hsmall h24
    exact h.elim (Nat.not_lt.mpr hle) (· hidle)
  · obtain ⟨hge, hle, hidle⟩ := hlarge h24
    exact h.elim (Nat.not_lt.mpr hge) (Or.elim · (Nat.not_lt.mpr hle) fun h => hidle.elim h.1 fun hrange =>
      h.2.elim (Nat.not_lt.mpr hrange.1) (Nat.not_lt.mpr hrange.2))

/-! ## LANE_CFG and LANE_FLUSH (R549, R550, R567, R571) -/

theorem onlyReply_lanePlaced {rq : Req} {s t : State} {n : Nat} {l : Lane} (h : OnlyReply rq (setLane s n l) t) (o : List OutEntry)
    (m : Lane) : OnlyReply rq (setLane s n m) (lanePlaced t n o m) :=
  ⟨(congrArg (fun v : State => lanePlaced v n o m) h.1).trans (congrArg (fun lanes : Tab Lane => { s with
      lanes := lanes, net := { s.net with sessions := t.net.sessions, outbound := o, sent := t.net.sent }, draws := t.draws,
      rel := { s.rel with odo := { s.rel.odo with recs := t.rel.odo.recs }, monitors := t.rel.monitors } })
      (tset_tset n l m s.lanes)), h.2⟩

theorem lanePlaced_setLane (s : State) (n : Nat) (o : List OutEntry) (l m : Lane) :
    lanePlaced (setLane s n l) n o m = lanePlaced s n o m :=
  congrArg (fun lanes : Tab Lane => { s with lanes := lanes, net := { s.net with outbound := o } }) (tset_tset n l m s.lanes)

/-- Where nothing waits, a LANE_CFG that awaits its boundary comes into force at it. -/
theorem boundary_configures {u : State} {n : Nat} {g : LaneCfg} {l c m : Lane} (hlane : laneAt u n = l) (hwait : m.waiting = [])
    (hflush : l.flush = []) (hflushing : l.flushing = []) (hopened : l.opened = none) (hpend : l.pend = some g)
    (hc : cfgTaken l g = c) (hsess : l.sess = c.sess) (hsent : l.sentBytes = c.sentBytes) (hdrained : m.draining = [])
    (hfree : ∀ k, laneFree (sessioned c (some g.sess) k) = sentAs m k) :
    ∃ o, servePuts (boundary u n) n =
      lanePlaced u n o (sentAs m (if l.sess = some g.sess then l.sentBytes else 0)) := by
  have hset : laneAt (setLane u n l) n = l := laneAt_setLane ..
  have hflushed : flushOut (setLane u n (bounded (laneAt u n))) n = setLane u n l := by
    rw [hlane, bounded_of_noFlush hflush]
    exact flushOut_of_none ((congrArg Lane.flushing hset).trans hflushing)
  have hboundary := boundary_of_cfg ((congrArg Lane.opened hlane).trans hopened) hflushed ((congrArg Lane.pend hset).trans hpend)
    ((congrArg Lane.flushing hset).trans hflushing)
  obtain ⟨o, ho⟩ := applyCfg_places hset hc hsess hsent hdrained hfree
  refine ⟨o, ?_⟩
  rw [hboundary, ho, lanePlaced_setLane]
  exact servePuts_setLane (l := (sentAs m (if l.sess = some g.sess then l.sentBytes else 0))) hwait
    (withNet u { u.net with outbound := o }) n

/-- From `s` to `t` the filling bank of lane `n`, which was `l`, is handed over, and the flushes that waited are answered. -/
def HandedOver (n : Nat) (l : Lane) (s t : State) : Prop :=
  (laneAt t n).draining = l.filling.flatMap LanePkt.bytes ∧ (laneAt t n).filling = [] ∧ (laneAt t n).flush = [] ∧
    (laneAt t n).flushing = [] ∧ (laneAt t n).offset = l.offset ∧ (laneAt t n).lost = l.lost ∧
    (∀ m, m ≠ n → laneAt t m = laneAt s m) ∧ t = lanesAs s t

theorem LaneBecomes.handedOver {n b : Nat} {l : Lane} {rq : Req} {s t : State}
    (h : LaneBecomes n (sentAs (swapped (bounded (flushed l rq))) b) s t) : HandedOver n l s t :=
  ⟨(congrArg Lane.draining h.lane :), (congrArg Lane.filling h.lane :), (congrArg Lane.flush h.lane :),
    (congrArg Lane.flushing h.lane :), (congrArg Lane.offset h.lane :), (congrArg Lane.lost h.lane :), h.others, h.frame⟩

section
variable {rq : Req} {n : Nat} {l : Lane} {s : State} (hlive : Live rq s) (hctx : (liveCtx s rq.ctx).isSome)
  (hlane : laneAt s n = l)

theorem otherOwner_foreign {c : Nat} (howner : l.owner = some c) (hne : c ≠ rq.ctx) : l.owner.isSome = true ∧ l.owner ≠ some rq.ctx :=
  ⟨Option.isSome_iff_exists.mpr ⟨c, howner⟩, fun h => hne (Option.some.inj (howner.symm.trans h))⟩

theorem owner_notForeign (howner : l.owner = none ∨ l.owner = some rq.ctx) : ¬ (l.owner.isSome = true ∧ l.owner ≠ some rq.ctx) :=
  fun h => howner.elim (Option.isSome_iff_ne_none.mp h.1) h.2

include hlive hlane

theorem answered_laneRefuse {i : Instr} {op : Nat} {r : Reason} (hexec : exec i s = .next (laneRefuse s rq op n r)) :
    Answered i s rq op rq.ctx .refused r [] (if n < 32 then setLane s n (reasoned l r) else s) := by
  subst hlane
  exact answered_replyC hexec (iteInduction (motive := Live rq) (fun _ => hlive) (fun _ => hlive))

theorem answered_laneRefuse_of_lt (hn : n < 32) {i : Instr} {op : Nat} {r : Reason}
    (hexec : exec i s = .next (laneRefuse s rq op n r)) :
    Answered i s rq op rq.ctx .refused r [] (setLane s n (reasoned l r)) :=
  Eq.mp (congrArg (Answered i s rq op rq.ctx .refused r []) (if_pos hn)) (answered_laneRefuse hlive hlane hexec)

include hctx

theorem laneCfg_of_badParam {mode enable level idle : Nat} (hbad : laneParamBad n mode enable level idle = true) :
    Answered (.laneCfg rq n mode enable level idle) s rq 0x0170 rq.ctx .refused .laneParam []
      (if n < 32 then setLane s n (reasoned l .laneParam) else s) :=
  answered_laneRefuse hlive hlane (congrArg Host.Outcome.next ((onCtx_of_live hctx _ _).trans (if_pos hbad)))

theorem laneCfg_of_otherOwner {mode enable level idle c : Nat} (hgood : ¬ laneParamBad n mode enable level idle = true)
    (hn : n < 32) (howner : l.owner = some c) (hne : c ≠ rq.ctx) :
    Answered (.laneCfg rq n mode enable level idle) s rq 0x0170 rq.ctx .refused .laneOwner []
      (setLane s n (reasoned l .laneOwner)) :=
  answered_laneRefuse_of_lt hlive hlane hn (congrArg Host.Outcome.next (((onCtx_of_live hctx _ _).trans (if_neg hgood)).trans
    (if_pos (hlane.symm ▸ otherOwner_foreign howner hne))))

omit hlive in
theorem exec_laneCfg_taken {mode enable level idle : Nat} (hgood : ¬ laneParamBad n mode enable level idle = true)
    (howner : l.owner = some rq.ctx ∨ l.owner = none ∧ enable = 1) :
    exec (.laneCfg rq n mode enable level idle) s = .next (servePuts (boundary
      (replyC (setLane s n (owned l rq.ctx (cfgOf rq mode enable level idle))) rq 0x0170 .ok .none []) n) n) := by
  subst hlane
  exact congrArg Host.Outcome.next ((((onCtx_of_live hctx _ _).trans (if_neg hgood)).trans
    (if_neg (owner_notForeign (howner.symm.imp_left And.left)))).trans (if_neg fun h => howner.elim
      (fun hsome => Option.some_ne_none _ (hsome.symm.trans (Option.isNone_iff_eq_none.mp h.1)))
      (fun hnone => Nat.one_ne_zero (hnone.2.symm.trans h.2))))

/-- A LANE_CFG that finds the lane between packets and drained comes into force before anything else happens. -/
theorem laneCfg_applied {mode enable level idle : Nat} (hgood : ¬ laneParamBad n mode enable level idle = true)
    (howner : l.owner = some rq.ctx ∨ l.owner = none ∧ enable = 1) {g : LaneCfg}
    (hg : g = cfgOf rq mode enable level idle)
    (hflush : l.flush = []) (hflushing : l.flushing = []) (hopened : l.opened = none) {c m : Lane} (hwait : m.waiting = [])
    (hc : cfgTaken (owned l rq.ctx g) g = c) (hsess : l.sess = c.sess)
    (hsent : l.sentBytes = c.sentBytes) (hdrained : m.draining = [])
    (hfree : ∀ k, laneFree (sessioned c (some g.sess) k) = sentAs m k) :
    Answered (.laneCfg rq n mode enable level idle) s rq 0x0170 rq.ctx .ok .none []
      (setLane s n { m with sentBytes := if l.sess = some rq.sess then l.sentBytes else 0 }) := by
  subst hg
  have hu := laneAt_replied s n (owned l rq.ctx (cfgOf rq mode enable level idle)) rq
  obtain ⟨o, ho⟩ := boundary_configures hu hwait hflush hflushing hopened rfl hc hsess hsent hdrained hfree
  exact ⟨_, (exec_laneCfg_taken hctx hlane hgood howner).trans (congrArg _ ho), replyC_replied _ rq _ _ _ _ hlive,
    onlyReply_lanePlaced (replyAs_only ..) o _⟩

section
variable {mode enable level idle : Nat} (hgood : ¬ laneParamBad n mode enable level idle = true) {g : LaneCfg}
include hgood

theorem laneCfg_enables (howner : l.owner = none ∨ l.owner = some rq.ctx) (hon : enable = 1)
    (hg : g = cfgOf rq mode enable level idle) (hwait : l.waiting = [])
    (hflush : l.flush = []) (hflushing : l.flushing = []) (hopened : l.opened = none) (hdrained : l.draining = []) :
    Answered (.laneCfg rq n mode enable level idle) s rq 0x0170 rq.ctx .ok .none [] (setLane s n { l with
      owner := some rq.ctx, pend := none, enable := true, mode := mode, level := level, idle := idle, sess := some rq.sess,
      sentBytes := if l.sess = some rq.sess then l.sentBytes else 0, lost := if l.enable then l.lost else 0,
      begun := if l.enable then l.begun else 0, offset := if l.enable then l.offset else 0 }) := by
  subst hon hg
  exact laneCfg_applied hlive hctx hlane hgood (howner.symm.imp_right (⟨·, rfl⟩)) rfl hflush hflushing hopened
    (m := { l with
      owner := some rq.ctx, pend := none, enable := true, mode := mode, level := level, idle := idle, sess := some rq.sess,
      lost := if l.enable then l.lost else 0, begun := if l.enable then l.begun else 0, offset := if l.enable then l.offset else 0 })
    hwait (cfgTaken_enables hdrained rfl) rfl rfl hdrained fun _ => rfl

theorem laneCfg_disables (howner : l.owner = some rq.ctx) (hoff : enable = 0)
    (hg : g = cfgOf rq mode enable level idle) (hwait : l.waiting = [])
    (hflush : l.flush = []) (hflushing : l.flushing = []) (hopened : l.opened = none) (hdrained : l.draining = []) :
    Answered (.laneCfg rq n mode enable level idle) s rq 0x0170 rq.ctx .ok .none [] (setLane s n { l with
      owner := none, sess := none, pend := none, enable := false, mode := mode, level := level, idle := idle, filling := [],
      sentBytes := if l.sess = some rq.sess then l.sentBytes else 0, lost := min (l.lost + l.filling.length) 0xFFFF_FFFF }) := by
  subst hoff hg
  have hc := cfgTaken_disables
    (l := owned l rq.ctx (cfgOf rq mode 0 level idle)) (g := cfgOf rq mode 0 level idle) hopened rfl
  exact laneCfg_applied hlive hctx hlane hgood (.inl howner) rfl hflush hflushing hopened
    (m := { l with
      owner := none, sess := none, pend := none, enable := false, mode := mode, level := level, idle := idle, filling := [],
      lost := min (l.lost + l.filling.length) 0xFFFF_FFFF })
    hwait hc rfl rfl hdrained fun _ => laneFree_disabled rfl (by exact hdrained)

end

theorem laneCfg_waits {mode enable level idle : Nat} (hgood : ¬ laneParamBad n mode enable level idle = true)
    (howner : l.owner = some rq.ctx ∨ l.owner = none ∧ enable = 1) (hwait : l.waiting = []) (hflushing : l.flushing = [])
    (hopened : l.opened ≠ none) {g : LaneCfg}
    (hg : g = cfgOf rq mode enable level idle) :
    Answered (.laneCfg rq n mode enable level idle) s rq 0x0170 rq.ctx .ok .none []
      (setLane s n (owned l rq.ctx g)) := by
  subst hg
  have hu := laneAt_replied s n (owned l rq.ctx (cfgOf rq mode enable level idle)) rq
  have hrun := exec_laneCfg_taken hctx hlane hgood howner
  rw [boundary_of_opened (fun h => hopened ((congrArg Lane.opened hu).symm.trans h)),
    flushOut_of_none ((congrArg Lane.flushing hu).trans hflushing), servePuts_of_none hu hwait] at hrun
  exact ⟨_, hrun, replyC_replied _ rq _ _ _ _ hlive, onlyReply_lanePlaced (replyAs_only ..) _ _⟩

theorem laneFlush_of_otherOwner {c : Nat} (hn : n < 32) (howner : l.owner = some c) (hne : c ≠ rq.ctx) :
    Answered (.laneFlush rq n) s rq 0x0171 rq.ctx .refused .laneOwner [] (setLane s n (reasoned l .laneOwner)) :=
  answered_laneRefuse_of_lt hlive hlane hn (congrArg Host.Outcome.next ((onCtx_of_live hctx _ _).trans
    (if_pos (hlane.symm ▸ otherOwner_foreign howner hne))))

theorem laneFlush_of_disabled (hn : n < 32) (howner : l.owner = none ∨ l.owner = some rq.ctx)
    (hoff : l.enable = false ∨ ∃ g, l.pend = some g ∧ g.enable = false) :
    Answered (.laneFlush rq n) s rq 0x0171 rq.ctx .refused .laneDisabled []
      (setLane s n (reasoned l .laneDisabled)) := by
  refine answered_laneRefuse_of_lt hlive hlane hn (congrArg Host.Outcome.next (((onCtx_of_live hctx _ _).trans
    (if_neg (hlane.symm ▸ owner_notForeign howner))).trans (if_pos (.inr (hoff.imp ?_ ?_)))))
  · exact fun h => congrArg not ((congrArg Lane.enable hlane).trans h)
  · rintro ⟨g, hpend, hg⟩
    rw [hlane, hpend]
    exact congrArg not hg

omit hlive

theorem exec_laneFlush_taken (hn : n < 32) (howner : l.owner = some rq.ctx) (hon : l.enable = true) (hpend : l.pend = none) :
    exec (.laneFlush rq n) s = .next (servePuts (boundary (setLane s n (flushed l rq)) n) n) := by
  subst hlane
  refine congrArg Host.Outcome.next (((onCtx_of_live hctx _ _).trans (if_neg (owner_notForeign (.inr howner)))).trans
    (if_neg ?_))
  rw [hpend, hon]
  exact fun h => h.elim (Nat.not_le.mpr hn) (Or.elim · Bool.false_ne_true Bool.false_ne_true)

omit hctx hlane in
/-- What a flush makes of a lane with no packet open, before a hand-over. -/
theorem boundary_flushes {t : State} (hopened : l.opened = none) (hpend : (laneAt t n).pend = none)
    (ht : flushOut (setLane s n (bounded (flushed l rq))) n = t) :
    boundary (setLane s n (flushed l rq)) n = t := by
  have hat := laneAt_setLane s n (flushed l rq)
  refine boundary_of_noCfg ((congrArg Lane.opened hat).trans hopened) ?_ hpend
  rw [hat, setLane_setLane]
  exact ht

variable (hn : n < 32) (howner : l.owner = some rq.ctx) (hon : l.enable = true) (hpend : l.pend = none) (hwait : l.waiting = [])
include hn howner hon hpend hwait

theorem laneFlush_waitsForBoundary (hopened : l.opened ≠ none) (hflushing : l.flushing = []) :
    exec (.laneFlush rq n) s = .next (setLane s n (flushed l rq)) := by
  have hat := laneAt_setLane s n (flushed l rq)
  rw [exec_laneFlush_taken hctx hlane hn howner hon hpend,
    boundary_of_opened (fun h => hopened ((congrArg Lane.opened hat).symm.trans h)),
    flushOut_of_none ((congrArg Lane.flushing hat).trans hflushing)]
  exact congrArg Host.Outcome.next (servePuts_setLane (l := (flushed l rq)) hwait s n)

theorem laneFlush_waitsForBank (hopened : l.opened = none) (hdraining : l.draining ≠ []) :
    exec (.laneFlush rq n) s = .next (setLane s n { l with flush := [], flushing := l.flushing ++ (l.flush ++ [rq]) }) := by
  have hat := laneAt_setLane s n (bounded (flushed l rq))
  rw [exec_laneFlush_taken hctx hlane hn howner hon hpend, boundary_flushes hopened ((congrArg Lane.pend hat).trans hpend)
    (flushOut_of_draining (fun h => hdraining ((congrArg Lane.draining hat).symm.trans h)))]
  exact congrArg Host.Outcome.next (servePuts_setLane (l := bounded (flushed l rq)) hwait s n)

include hlive in
/-- A flush that finds the lane between packets and drained hands over the filling bank and is answered. -/
theorem laneFlush_handsOver (hopened : l.opened = none) (hdrained : l.draining = []) (hflush : l.flush = [])
    (hflushing : l.flushing = []) : ∃ t k, exec (.laneFlush rq n) s = .next t ∧
      finalReply rq 0x0171 .ok .none [] k (wireOf s rq.sess) ∈ t.net.sent ∧ HandedOver n l s t := by
  have hset := setLane_becomes s n (bounded (flushed l rq))
  have hone : (bounded (flushed l rq)).flushing = [rq] :=
    congrArg₂ (fun a b => a ++ (b ++ [rq])) hflushing hflush
  have hout := flushOut_of_drained hset.lane (fun h => List.cons_ne_nil rq [] (hone.symm.trans h)) hdrained
  obtain ⟨b, k, hhand, hsent⟩ := handOver_answers hset.lane hone hlive
  exact ⟨_, k, (exec_laneFlush_taken hctx hlane hn howner hon hpend).trans (congrArg _
      ((congrArg (servePuts · n) (boundary_flushes hopened ((congrArg Lane.pend hhand.lane).trans hpend) hout)).trans
        (servePuts_of_none hhand.lane hwait))), hsent, (hset.trans hhand).set.handedOver⟩

end

/-- Settles O29: each form of LANE_CFG and LANE_FLUSH from what a packet boundary does to the lane. -/
theorem lanesAreConfiguredAndFlushed : Obligations.LanesAreConfiguredAndFlushed :=
  ⟨fun _ _ _ _ _ _ _ _ hlive hctx hlane _ hg =>
    ⟨fun hbad => laneCfg_of_badParam hlive hctx hlane ((laneParamBad_iff ..).mpr hbad),
      fun hn hmode henable hlevel hsmall hlarge =>
        have hgood := laneParam_good hn hmode henable hlevel hsmall hlarge
        ⟨fun _ howner hne => laneCfg_of_otherOwner hlive hctx hlane hgood hn howner hne,
          fun howner hwait hflush hflushing =>
            ⟨fun hopened hdrained hon => laneCfg_enables hlive hctx hlane hgood howner hon hg hwait hflush hflushing hopened hdrained,
              fun hopened hdrained hoff howned =>
                laneCfg_disables hlive hctx hlane hgood howned hoff hg hwait hflush hflushing hopened hdrained,
              fun hopened howned => laneCfg_waits hlive hctx hlane hgood
                (howned.elim .inl fun hon => howner.symm.imp_right (⟨·, hon⟩)) hwait hflushing hopened hg⟩⟩⟩,
    fun _ _ _ _ hlive hctx hlane hn => ⟨fun _ howner hne => laneFlush_of_otherOwner hlive hctx hlane hn howner hne,
      fun howner hoff => laneFlush_of_disabled hlive hctx hlane hn howner hoff, fun howner hon hpend hwait =>
      ⟨laneFlush_waitsForBoundary hctx hlane hn howner hon hpend hwait,
        laneFlush_waitsForBank hctx hlane hn howner hon hpend hwait,
        laneFlush_handsOver hlive hctx hlane hn howner hon hpend hwait⟩⟩⟩

end Sys2Proof.Machine

/-!
PROOFS. Firmware update, the Odometer and the traffic counters (O42).
-/

namespace Sys2Proof.Machine

/-! ## FW_STAGE (R691, R692) -/

/-- The range of a chunk's target and bounds. -/
theorem stageRange_bad {tg tot m : Nat} (h : tg = 0 ∨ 5 < tg ∨ tot < m) : (!within tg 1 5 || decide (tot < m)) = true := by
  rcases h with rfl | h | h
  · rfl
  · unfold within
    rw [decide_eq_false (Nat.not_le.mpr h), Bool.and_false]
    rfl
  · rw [decide_eq_true h, Bool.or_true]

theorem stageRange_good {tg tot m : Nat} (hlow : 1 ≤ tg) (hhigh : tg ≤ 5) (hfits : m ≤ tot) :
    ¬ (!within tg 1 5 || decide (tot < m)) = true := by
  unfold within
  rw [decide_eq_true hlow, decide_eq_true hhigh, decide_eq_false (Nat.not_lt.mpr hfits)]
  exact Bool.false_ne_true

/-- The bytes of the staging that a chunk at an offset above 0 continues. -/
noncomputable def stagedNext (s : State) (tg tot off : Nat) : Option Bytes :=
  match s.rel.stage with
  | some g => if g.target = tg ∧ g.total = tot ∧ g.bytes.length = off then some g.bytes else none
  | none => none

/-- The bytes `b` are what a chunk at the offset continues. -/
def Continues (s : State) (tg tot off : Nat) (b : Bytes) : Prop :=
  (off = 0 ∧ b = []) ∨ (off ≠ 0 ∧ ∃ g, s.rel.stage = some g ∧ g.target = tg ∧ g.total = tot ∧ g.bytes.length = off ∧ b = g.bytes)

section
variable {s : State} {tg tot off : Nat}

theorem stagedNext_of_none (h : s.rel.stage = none) : stagedNext s tg tot off = none := by
  unfold stagedNext
  rw [h]

theorem stagedNext_of_some {g : Stage} (h : s.rel.stage = some g) : stagedNext s tg tot off =
    if g.target = tg ∧ g.total = tot ∧ g.bytes.length = off then some g.bytes else none := by
  unfold stagedNext
  rw [h]

theorem stagedSoFar_eq (s : State) (tg tot off : Nat) (d : Bytes) : stagedSoFar s tg tot off d =
    if !within tg 1 5 || decide (tot < off + d.length) then none else if off = 0 then some [] else stagedNext s tg tot off := rfl

theorem stagedSoFar_broken (hoff : off ≠ 0) (h : stagedNext s tg tot off = none) (d : Bytes) : stagedSoFar s tg tot off d = none :=
  (stagedSoFar_eq ..).trans (iteInduction (motive := (· = none)) (fun _ => rfl) fun _ => (if_neg hoff).trans h)

theorem stagedSoFar_outOfRange {d : Bytes} (h : tg = 0 ∨ 5 < tg ∨ tot < off + d.length) : stagedSoFar s tg tot off d = none :=
  (stagedSoFar_eq ..).trans (if_pos (stageRange_bad h))

theorem stagedSoFar_refused {d : Bytes} (h : tg = 0 ∨ 5 < tg ∨ tot < off + d.length ∨ (off ≠ 0 ∧ s.rel.stage = none) ∨
    (∃ g, off ≠ 0 ∧ s.rel.stage = some g ∧ (g.target ≠ tg ∨ g.total ≠ tot ∨ g.bytes.length ≠ off))) :
    stagedSoFar s tg tot off d = none := by
  rcases h with h | h | h | ⟨hoff, hstage⟩ | ⟨g, hoff, hstage, hother⟩
  · exact stagedSoFar_outOfRange (.inl h)
  · exact stagedSoFar_outOfRange (.inr (.inl h))
  · exact stagedSoFar_outOfRange (.inr (.inr h))
  · exact stagedSoFar_broken hoff (stagedNext_of_none hstage) d
  · exact stagedSoFar_broken hoff ((stagedNext_of_some hstage).trans (if_neg fun h =>
      hother.elim (· h.1) (Or.elim · (· h.2.1) (· h.2.2)))) d

variable {b : Bytes} (h : Continues s tg tot off b)
include h

theorem stagedSoFar_continues {d : Bytes} (hlow : 1 ≤ tg) (hhigh : tg ≤ 5) (hfits : off + d.length ≤ tot) :
    stagedSoFar s tg tot off d = some b := by
  refine (stagedSoFar_eq ..).trans ((if_neg (stageRange_good hlow hhigh hfits)).trans ?_)
  rcases h with ⟨hoff, hb⟩ | ⟨hoff, g, hstage, htarget, htotal, hlength, hb⟩
  · exact (if_pos hoff).trans (congrArg some hb.symm)
  · exact (if_neg hoff).trans ((stagedNext_of_some hstage).trans
      ((if_pos ⟨htarget, htotal, hlength⟩).trans (congrArg some hb.symm)))

theorem staged_length (d : Bytes) : (b ++ d).length = off + d.length := by
  refine List.length_append.trans (congrArg (· + d.length) ?_)
  rcases h with ⟨hoff, hb⟩ | ⟨-, g, -, -, -, hlength, hb⟩
  · exact (congrArg List.length hb).trans hoff.symm
  · exact (congrArg List.length hb).trans hlength

end

/-- A chunk that continues its staging joins it: the state whose end, if this is the last chunk, follows. -/
noncomputable def stageJoined (s : State) (tg tot : Nat) (b : Bytes) : State :=
  withRel s { s.rel with armed := false, stage := some { target := tg, total := tot, bytes := b } }

/-- A staging that is refused at its end is gone. -/
noncomputable def stageDropped (s : State) : State := withRel s { s.rel with stage := none }

/-- A staging that is verified at its end is written. -/
noncomputable def stageWritten (s : State) (tg : Nat) (b : Bytes) : State :=
  withRel s { s.rel with
    stage := none, images := tset s.rel.images (8 * spareSlot s + tg) b, staged := insertNum tg s.rel.staged }

theorem finishStage_refuses {s : State} {b : Bytes} {tg : Nat} {st : Status} {r : Reason} (hfault : fwFault s b tg = some (st, r))
    (rq : Req) : finishStage s rq tg b = replyD (stageDropped s) rq 0x01C0 st r [] := by
  unfold finishStage
  rw [hfault]
  rfl

theorem finishStage_writes {s : State} {b : Bytes} {tg : Nat} (hfault : fwFault s b tg = none) (rq : Req) :
    finishStage s rq tg b = replyD (stageWritten s tg b) rq 0x01C0 .ok .none (fwDigest b) := by
  unfold finishStage
  rw [hfault]
  rfl

section
variable {rq : Req} {s : State} {tg tot off : Nat} {d b : Bytes} (hlive : Live rq s)
include hlive

theorem answered_stageInTrial (htrial : s.rel.trial = true) :
    Answered (.fwStage rq tg tot off d) s rq 0x01C0 0 .refused .fwMode [] s :=
  answered_replyD (congrArg Host.Outcome.next (if_pos htrial)) hlive

theorem answered_stageBroken (htrial : s.rel.trial = false) (hbroken : stagedSoFar s tg tot off d = none) :
    Answered (.fwStage rq tg tot off d) s rq 0x01C0 0 .malformed .fwSequence [] s := by
  refine answered_replyD (congrArg Host.Outcome.next ((if_neg (Bool.eq_false_iff.mp htrial)).trans ?_)) hlive
  rw [hbroken]

omit hlive in
theorem execFwStage_continues (htrial : s.rel.trial = false) (hsofar : stagedSoFar s tg tot off d = some b) :
    exec (.fwStage rq tg tot off d) s = .next (if (b ++ d).length = tot then finishStage (stageJoined s tg tot (b ++ d)) rq tg (b ++ d)
      else replyD (stageJoined s tg tot (b ++ d)) rq 0x01C0 .ok .none []) := by
  refine congrArg Host.Outcome.next ((if_neg (Bool.eq_false_iff.mp htrial)).trans ?_)
  rw [hsofar]
  rfl

theorem answered_stageKept (htrial : s.rel.trial = false) (hsofar : stagedSoFar s tg tot off d = some b)
    (hmore : (b ++ d).length ≠ tot) :
    Answered (.fwStage rq tg tot off d) s rq 0x01C0 0 .ok .none [] (stageJoined s tg tot (b ++ d)) :=
  answered_replyD (u := stageJoined s tg tot (b ++ d))
    ((execFwStage_continues htrial hsofar).trans (congrArg _ (if_neg hmore))) hlive

variable (htrial : s.rel.trial = false) (hsofar : stagedSoFar s tg tot off d = some b) (hlast : (b ++ d).length = tot)
include htrial hsofar hlast

theorem answered_stageRefused {st : Status} {r : Reason} (hfault : fwFault s (b ++ d) tg = some (st, r)) :
    Answered (.fwStage rq tg tot off d) s rq 0x01C0 0 st r [] (stageDropped (stageJoined s tg tot (b ++ d))) :=
  answered_replyD (u := stageDropped (stageJoined s tg tot (b ++ d))) ((execFwStage_continues htrial hsofar).trans
    (congrArg _ ((if_pos hlast).trans (finishStage_refuses (s := stageJoined s tg tot (b ++ d)) hfault rq)))) hlive

theorem answered_stageWritten (hfault : fwFault s (b ++ d) tg = none) :
    Answered (.fwStage rq tg tot off d) s rq 0x01C0 0 .ok .none (fwDigest (b ++ d))
      (stageWritten (stageJoined s tg tot (b ++ d)) tg (b ++ d)) :=
  answered_replyD (u := stageWritten (stageJoined s tg tot (b ++ d)) tg (b ++ d)) ((execFwStage_continues htrial hsofar).trans
    (congrArg _ ((if_pos hlast).trans (finishStage_writes (s := stageJoined s tg tot (b ++ d)) hfault rq)))) hlive

end

/-! ## FW_ACTIVATE (R644, R693) -/

/-- One type of the slot that boots next: a staged one stays, any other is copied from the booted slot. -/
noncomputable def copyType (s : State) (t : Tab Bytes) (ty : Nat) : Tab Bytes :=
  if s.rel.staged.contains ty then t
  else match tget? s.rel.images (8 * s.rst.bootSlot + ty) with
    | some b => tset t (8 * spareSlot s + ty) b
    | none => terase t (8 * spareSlot s + ty)

theorem copyType_staged {s : State} {ty : Nat} (h : ty ∈ s.rel.staged) (t : Tab Bytes) : copyType s t ty = t :=
  if_pos (List.contains_iff_mem.mpr h)

theorem tget?_copyType_self {s : State} {ty : Nat} (h : ty ∉ s.rel.staged) (t : Tab Bytes) :
    tget? (copyType s t ty) (8 * spareSlot s + ty) = tget? s.rel.images (8 * s.rst.bootSlot + ty) := by
  refine (congrArg (tget? · _) (if_neg (mt List.contains_iff_mem.mp h))).trans ?_
  cases tget? s.rel.images (8 * s.rst.bootSlot + ty) with
  | some b => exact tget?_tset_self ..
  | none => exact tget?_terase_self ..

theorem tget?_copyType_ne (s : State) (t : Tab Bytes) {ty k : Nat} (hk : k ≠ ty) :
    tget? (copyType s t ty) (8 * spareSlot s + k) = tget? t (8 * spareSlot s + k) := by
  have hkey : 8 * spareSlot s + k ≠ 8 * spareSlot s + ty := fun h => hk (Nat.add_left_cancel h)
  refine iteInduction (motive := fun u => tget? u _ = tget? t _) (fun _ => rfl) (fun _ => ?_)
  cases tget? s.rel.images (8 * s.rst.bootSlot + ty) with
  | some b => exact tget?_tset_ne _ _ _ _ hkey
  | none => exact tget?_terase_ne _ _ _ hkey

theorem tget?_foldl_copyType_staged {s : State} {ty : Nat} (h : ty ∈ s.rel.staged) (l : List Nat) (t : Tab Bytes) :
    tget? (l.foldl (copyType s) t) (8 * spareSlot s + ty) = tget? t (8 * spareSlot s + ty) :=
  List.foldlRecOn (motive := fun u => tget? u _ = tget? t _) l _ rfl fun u hu a _ => by
    by_cases ha : ty = a
    · exact (congrArg (tget? · _) (copyType_staged (ha ▸ h) u)).trans hu
    · exact (tget?_copyType_ne s u ha).trans hu

theorem tget?_foldl_copyType {s : State} {ty : Nat} (h : ty ∉ s.rel.staged) : ∀ (l : List Nat) (t : Tab Bytes), ty ∈ l →
    tget? (l.foldl (copyType s) t) (8 * spareSlot s + ty) = tget? s.rel.images (8 * s.rst.bootSlot + ty) := by
  have hkeeps (l : List Nat) (t : Tab Bytes)
      (ht : tget? t (8 * spareSlot s + ty) = tget? s.rel.images (8 * s.rst.bootSlot + ty)) :
      tget? (l.foldl (copyType s) t) (8 * spareSlot s + ty) = tget? s.rel.images (8 * s.rst.bootSlot + ty) :=
    List.foldlRecOn (motive := fun u => tget? u _ = _) l _ ht fun u hu a _ => by
      by_cases ha : ty = a
      · exact ha ▸ tget?_copyType_self h u
      · exact (tget?_copyType_ne s u ha).trans hu
  intro l
  induction l with
  | nil => exact fun _ => nofun
  | cons a l ih =>
    intro t hmem
    by_cases ha : ty = a
    · exact hkeeps l _ (ha ▸ tget?_copyType_self h t)
    · exact ih _ ((List.mem_cons.mp hmem).resolve_left ha)

/-- The types of a firmware image. -/
theorem mem_types {ty : Nat} (hlow : 1 ≤ ty) (hhigh : ty ≤ 5) : ty ∈ [1, 2, 3, 4, 5] :=
  (List.mem_range'_1.mpr ⟨hlow, Nat.lt_succ_of_le hhigh⟩ : ty ∈ List.range' 1 5)

/-- The slot that boots next is armed: its staged types stay, and the others are copied from the booted slot. -/
noncomputable def slotArmed (s : State) : State :=
  withRel s { s.rel with images := [1, 2, 3, 4, 5].foldl (copyType s) s.rel.images, armed := true }

theorem slotArmed_images (s : State) {ty : Nat} (hlow : 1 ≤ ty) (hhigh : ty ≤ 5) :
    tget? (slotArmed s).rel.images (8 * spareSlot s + ty) =
      if ty ∈ s.rel.staged then tget? s.rel.images (8 * spareSlot s + ty) else tget? s.rel.images (8 * s.rst.bootSlot + ty) := by
  by_cases hs : ty ∈ s.rel.staged
  · exact (tget?_foldl_copyType_staged hs ..).trans (if_pos hs).symm
  · exact (tget?_foldl_copyType hs _ _ (mem_types hlow hhigh)).trans (if_neg hs).symm

section
variable {rq : Req} {s : State} (hlive : Live rq s)
include hlive

theorem answered_armRefused {tg cores : Nat} (h : tg ≠ 0 ∨ cores ≠ 0 ∨ s.rel.staged = [] ∨ s.rel.trial = true) :
    Answered (.fwActivateArm rq tg cores) s rq 0x01C1 0 .refused .fwMode [] s :=
  answered_replyD (congrArg Host.Outcome.next (if_pos (h.imp_right (Or.imp_right (Or.imp_left List.isEmpty_iff.mpr))))) hlive

theorem answered_armed {tg cores : Nat} (htg : tg = 0) (hcores : cores = 0) (hstaged : s.rel.staged ≠ []) (htrial : s.rel.trial = false) :
    Answered (.fwActivateArm rq tg cores) s rq 0x01C1 0 .ok .none [] (slotArmed s) :=
  answered_replyD (u := slotArmed s) (congrArg Host.Outcome.next (if_neg fun h => h.elim (· htg) (Or.elim · (· hcores)
    (Or.elim · (fun hnone => hstaged (List.isEmpty_iff.mp hnone)) (Bool.eq_false_iff.mp htrial))))) hlive

theorem answered_confirmRefused {tg : Nat} (h : tg ≠ 0 ∨ s.rel.trial = false) :
    Answered (.fwActivateConfirm rq tg) s rq 0x01C1 0 .refused .fwMode [] s :=
  answered_replyD (congrArg Host.Outcome.next (if_pos (h.imp_right (congrArg not)))) hlive

theorem answered_disarmRefused {tg : Nat} (h : tg ≠ 0 ∨ s.rel.armed = false) :
    Answered (.fwActivateDisarm rq tg) s rq 0x01C1 0 .refused .fwMode [] s :=
  answered_replyD (congrArg Host.Outcome.next (if_pos (h.imp_right (congrArg not)))) hlive

omit hlive in
theorem mode_taken {tg : Nat} {b : Bool} (htg : tg = 0) (hb : b = true) : ¬ (tg ≠ 0 ∨ (!b) = true) :=
  fun h => h.elim (· htg) fun hnot => Bool.false_ne_true ((congrArg not hb).symm.trans hnot)

theorem answered_disarmed {tg : Nat} (htg : tg = 0) (harmed : s.rel.armed = true) :
    Answered (.fwActivateDisarm rq tg) s rq 0x01C1 0 .ok .none [] (withRel s { s.rel with armed := false }) :=
  answered_replyD (congrArg Host.Outcome.next (if_neg (mode_taken htg harmed))) hlive

end

theorem le_foldl_max : ∀ (l : List Nat) (n : Nat), n ≤ l.foldl max n ∧ ∀ k ∈ l, k ≤ l.foldl max n
  | [], n => ⟨Nat.le_refl n, fun _ => nofun⟩
  | a :: l, n => by
    obtain ⟨hstart, hall⟩ := le_foldl_max l (max n a)
    exact ⟨(Nat.le_max_left n a).trans hstart, fun k hk => (List.mem_cons.mp hk).elim
      (fun h => h ▸ (Nat.le_max_right n a).trans hstart) (hall k)⟩

/-- No image of a slot has an SVN above the slot's. -/
theorem fwSvn_le_slotSvn {s : State} {slot ty : Nat} {b : Bytes} (hlow : 1 ≤ ty) (hhigh : ty ≤ 5)
    (himage : tget? s.rel.images (8 * slot + ty) = some b) : fwSvn b ≤ slotSvn s slot :=
  (le_foldl_max ([1, 2, 3, 4, 5].filterMap (fun ty => (tget? s.rel.images (8 * slot + ty)).map fwSvn)) 0).2 _
    (List.mem_filterMap.mpr ⟨ty, mem_types hlow hhigh, congrArg (Option.map fwSvn) himage⟩)

/-- CONFIRM in a trial: the state whose reply and event then leave. -/
noncomputable def confirmed (s : State) : State :=
  { s with
    rel := { s.rel with trial := false, staged := [] },
    rst := { s.rst with activeSlot := s.rst.bootSlot },
    sec := { s.sec with minSvn := max s.sec.minSvn (slotSvn s s.rst.bootSlot) } }

/-- What the reply and the event of CONFIRM leave alone. -/
noncomputable def confirmHeld (s : State) : Bool × List Nat × Tab Bytes × Rst × Sec :=
  (s.rel.trial, s.rel.staged, s.rel.images, s.rst, s.sec)

theorem OnlyReply.confirmHeld {rq : Req} {s t : State} (h : OnlyReply rq s t) : confirmHeld t = confirmHeld s :=
  (congrArg Machine.confirmHeld h.1 :)

theorem confirmHeld_emitDev (s : State) (r : Reason) (b : Bytes) : confirmHeld (emitDev s r b) = confirmHeld s :=
  (congrArg confirmHeld (emitDev_frame s r b) :)

theorem execFwActivateConfirm_trial {rq : Req} {s : State} {tg : Nat} (htg : tg = 0) (htrial : s.rel.trial = true) :
    ∃ t, exec (.fwActivateConfirm rq tg) s = .next t ∧ t.rel.trial = false ∧ t.rel.staged = [] ∧
      t.rst.activeSlot = s.rst.bootSlot ∧ s.sec.minSvn ≤ t.sec.minSvn ∧
      (∀ ty b, 1 ≤ ty → ty ≤ 5 → tget? s.rel.images (8 * s.rst.bootSlot + ty) = some b → fwSvn b ≤ t.sec.minSvn) ∧
      t.rel.images = s.rel.images := by
  have hheld := (confirmHeld_emitDev (replyD (confirmed s) rq 0x01C1 .ok .none []) .fwConfirmed
    (leBytes 1 (confirmed s).sec.minSvn)).trans (replyAs_only (confirmed s) rq 0x01C1 0 .ok .none []).confirmHeld
  have hsvn := congrArg (fun h => h.2.2.2.2.minSvn) hheld
  exact ⟨_, congrArg Host.Outcome.next (if_neg (mode_taken htg htrial)), congrArg (fun h => h.1) hheld, congrArg (fun h => h.2.1) hheld,
    congrArg (fun h => h.2.2.2.1.activeSlot) hheld, (Nat.le_max_left ..).trans_eq hsvn.symm, fun ty b hlow hhigh himage =>
      ((fwSvn_le_slotSvn hlow hhigh himage).trans (Nat.le_max_right ..)).trans_eq hsvn.symm, congrArg (fun h => h.2.2.1) hheld⟩

/-! ## The Odometer (R696 to R701) -/

/-- From `s` to `t` the records of the Odometer change, and the amounts of the hour that ends. -/
def OnlyRecords (s t : State) : Prop :=
  t = withRel s { s.rel with odo := { s.rel.odo with recs := t.rel.odo.recs }, hourly := t.rel.hourly }

theorem OnlyRecords.trans {s t u : State} (hst : OnlyRecords s t) (htu : OnlyRecords t u) : OnlyRecords s u :=
  Eq.trans htu (congrArg (fun v : State => withRel v
    { v.rel with odo := { v.rel.odo with recs := u.rel.odo.recs }, hourly := u.rel.hourly }) hst :)

theorem hourlySamples_records (s : State) : OnlyRecords s (hourlySamples s) :=
  OnlyRecords.trans (t := ([9, 10, 13, 14].filter (fun id => (decide (id ≠ 9) && decide (id ≠ 13)) || s.ddr.inService)).foldl
      (fun a id => odoSample a id (tget s.rel.hourly 0 id : Nat)) s)
    (List.foldlRecOn (motive := OnlyRecords s) _ _ rfl fun a ha id _ =>
      ha.trans (u := odoSample a id (tget s.rel.hourly 0 id : Nat)) rfl) rfl

/-- An hour unit that ends outside OFF: HOURS advances, and contexts may report again. -/
noncomputable def unitEnded (s : State) : State :=
  { s with
    rel := { s.rel with odo := { s.rel.odo with hours := min (s.rel.odo.hours + 1) (2 ^ 32 - 1) } },
    sec := { s.sec with reported := [] } }

/-- What the end of an hour unit changes of `t`, in `s`. -/
noncomputable def unitAs (s t : State) : State := { s with rel := t.rel, sec := t.sec }

/-- What the end of an hour unit leaves. -/
def UnitEnds (s t : State) : Prop :=
  t.rel.odo.hours = min (s.rel.odo.hours + 1) 0xFFFF_FFFF ∧ t.sec.reported = [] ∧
    (t.rel.odo.hours % 64 ≠ 0 → t.rel.odo.recs = s.rel.odo.recs) ∧ t = unitAs s t

theorem unitEnds_samples {s : State} (hhour : ¬ (unitEnded s).rel.odo.hours % 64 ≠ 0) : UnitEnds s (hourlySamples (unitEnded s)) :=
  have honly := hourlySamples_records (unitEnded s)
  have hhours : (hourlySamples (unitEnded s)).rel.odo.hours = (unitEnded s).rel.odo.hours :=
    (congrArg (fun t : State => t.rel.odo.hours) honly :)
  ⟨hhours, (congrArg (fun t : State => t.sec.reported) honly :), fun h => absurd (hhours ▸ h) hhour,
    Eq.trans honly (congrArg (unitAs s) honly).symm⟩

theorem execHourUnitTick_counts {s : State} (hmode : s.pwr.mode ≠ .off) : exec .hourUnitTick s = .next (
    if (unitEnded s).rel.odo.hours % 64 ≠ 0 then unitEnded s
    else if s.pwr.mode = .awake then hourlySamples (unitEnded s)
    else withRel (unitEnded s) { (unitEnded s).rel with hourly := [] }) :=
  congrArg Host.Outcome.next (if_neg hmode)

theorem execHourUnitTick_advances {s : State} (hmode : s.pwr.mode ≠ .off) :
    ∃ t, exec .hourUnitTick s = .next t ∧ UnitEnds s t :=
  ⟨_, execHourUnitTick_counts hmode, iteInduction (motive := UnitEnds s) (fun _ => ⟨rfl, rfl, fun _ => rfl, rfl⟩)
    fun hhour => iteInduction (motive := UnitEnds s) (fun _ => unitEnds_samples hhour) fun _ => ⟨rfl, rfl, fun _ => rfl, rfl⟩⟩

theorem execOdometerPersist_due {s : State} (hmode : s.pwr.mode = .awake)
    (hdue : s.rel.odo.persistHours / 64 < s.rel.odo.hours / 64) : ∃ t, exec .odometerPersist s = .next t ∧
      t.rel.odo = { s.rel.odo with persistHours := s.rel.odo.hours } ∧ t.rel.copies.head? = some t.rel.odo ∧
      t.rel.copies.length ≤ 2 ∧ t = withRel s { s.rel with odo := t.rel.odo, copies := t.rel.copies } :=
  ⟨persistOdo s, congrArg Host.Outcome.next (if_pos ⟨hmode, hdue⟩), rfl, rfl, List.length_take_le .., rfl⟩

theorem execOdometerPersist_notDue {s : State} (h : s.pwr.mode ≠ .awake ∨ s.rel.odo.hours / 64 ≤ s.rel.odo.persistHours / 64) :
    exec .odometerPersist s = .next s :=
  congrArg Host.Outcome.next (if_neg fun hdue => h.elim (· hdue.1) (Nat.not_le.mpr hdue.2))

/-! ## Histograms (R697, R698) -/

/-- The linear bins are 50 units wide; the first and the last take what lies beyond. -/
theorem binOf_linear {b v : Int} {i : Nat} (hi : i < 32) (hlow : i = 0 ∨ b + 50 * (i : Int) ≤ v)
    (hhigh : i = 31 ∨ v < b + 50 * ((i : Int) + 1)) : binOf (some (b, 50)) v = i := by
  refine Nat.le_antisymm ?_ (Nat.le_min.mpr ⟨Nat.le_of_lt_succ hi, ?_⟩)
  · rcases hhigh with rfl | h
    · exact Nat.min_le_left ..
    · exact (Nat.min_le_right ..).trans (Int.toNat_le.mpr (Int.lt_add_one_iff.mp (Int.ediv_lt_of_lt_mul (by decide)
        (Int.sub_left_lt_of_lt_add (Int.mul_comm .. ▸ h)))))
  · rcases hlow with rfl | h
    · exact Nat.zero_le _
    · have hle : (i : Int) ≤ (v - b) / 50 :=
        Int.le_ediv_of_mul_le (by decide) (Int.le_sub_left_of_add_le (Int.mul_comm .. ▸ h))
      exact (Int.le_toNat (Int.le_trans (Int.natCast_nonneg i) hle)).mpr hle

theorem binOf_log {k v : Nat} (hk : 1 ≤ k) (hk30 : k ≤ 30) (hlow : 2 ^ (k - 1) ≤ v) (hhigh : v < 2 ^ k) : binOf none v = k := by
  have hpos : 0 < v := Nat.lt_of_lt_of_le (Nat.two_pow_pos _) hlow
  have hlog : Nat.log2 v + 1 = k := ((Nat.log2_eq_iff (Nat.pos_iff_ne_zero.mp hpos)).mpr
    ⟨hlow, (Nat.sub_add_cancel hk).symm ▸ hhigh⟩).symm ▸ Nat.sub_add_cancel hk
  exact (if_neg (Int.not_le.mpr (Int.natCast_pos.mpr hpos))).trans ((congrArg (Nat.min 31) hlog).trans
    (Nat.min_eq_right (hk30.trans (by decide))))

theorem toSigned_nonneg {v : Nat} (hv : v < 2 ^ 31) : toSigned 32 (v % 2 ^ 32) = v := by
  have hmod : v % 2 ^ 32 % 2 ^ 32 = v := (Nat.mod_mod ..).trans (Nat.mod_eq_of_lt (hv.trans (by decide)))
  rw [toSigned, hmod]
  exact if_pos hv

theorem max_taken (c : Bool) (m v : Int) (hc : c = false) : (if (c || decide (m < v)) = true then v else m) = max m v := by
  subst hc
  rcases Int.lt_or_le m v with h | h
  · exact (if_pos (decide_eq_true h)).trans (Int.max_eq_right (Int.le_of_lt h)).symm
  · exact (if_neg (decide_eq_true_iff.not.mpr (Int.not_lt.mpr h))).trans (Int.max_eq_left h).symm

theorem min_taken (c : Bool) (m v : Int) (hc : c = false) : (if (c || decide (v < m)) = true then v else m) = min m v := by
  subst hc
  rcases Int.lt_or_le v m with h | h
  · exact (if_pos (decide_eq_true h)).trans (Int.min_eq_right (Int.le_of_lt h)).symm
  · exact (if_neg (decide_eq_true_iff.not.mpr (Int.not_lt.mpr h))).trans (Int.min_eq_left h).symm

/-! A sample that falls in bin `i` counts there and nowhere else. -/

section
variable {h k : Hist} (hh : h = k) (lin : Option (Int × Nat)) (hours cycle : Nat) {v : Int} {i : Nat}
include hh

theorem add_bin_self (hbin : binOf lin v = i) : tget (k.add lin hours cycle v).bins 0 i = min (tget h.bins 0 i + 1) 0xFFFF_FFFF := by
  subst hh hbin
  exact tget_tset_self ..

theorem add_bin_ne (hbin : binOf lin v = i) : ∀ j, j ≠ i → tget (k.add lin hours cycle v).bins 0 j = tget h.bins 0 j := by
  subst hh hbin
  exact fun j hj => tget_tset_ne _ _ _ _ _ hj

theorem add_ends (hsome : h.samples ≠ 0) : (k.add lin hours cycle v).max = max h.max v ∧ (k.add lin hours cycle v).min = min h.min v := by
  subst hh
  exact ⟨max_taken _ h.max v (decide_eq_false hsome), min_taken _ h.min v (decide_eq_false hsome)⟩

end

theorem odoScale_temperature {id : Nat} {b : Int} (hid : id ≤ 8) (hb : b = if id = 0 then -400 else -800) : odoScale id = some (b, 50) := by
  subst hb
  by_cases hzero : id = 0
  · exact (if_pos hzero).trans (congrArg (fun b : Int => some (b, 50)) (if_pos hzero).symm)
  · exact ((if_neg hzero).trans (if_pos hid)).trans (congrArg (fun b : Int => some (b, 50)) (if_neg hzero).symm)

section
variable {id i v : Nat} {s : State}

theorem execOdometerSample_none (h : 8 < id ∨ s.pwr.mode ≠ .awake ∨ s.rst.up = false) :
    exec (.odometerSample id v) s = .next s :=
  congrArg Host.Outcome.next (if_pos (h.imp_right (Or.imp_right (congrArg not))))

variable (hv : v < 2 ^ 31) (hid : id ≤ 8) (hmode : s.pwr.mode = .awake) (hup : s.rst.up = true)
include hv hid hmode hup

theorem execOdometerSample_taken : exec (.odometerSample id v) s = .next (odoSample s id v) :=
  (congrArg Host.Outcome.next (if_neg fun h => h.elim (Nat.not_lt.mpr hid) (Or.elim · (· hmode)
    fun hdown => Bool.false_ne_true ((congrArg not hup).symm.trans hdown)))).trans
    (congrArg (fun v => Host.Outcome.next (odoSample s id v)) (toSigned_nonneg hv))

theorem execOdometerSample_bins {h : Hist} {b : Int} (hh : h = tget s.rel.odo.recs {} id) (hb : b = (if id = 0 then -400 else -800 : Int))
    (hi : i < 32) (hlow : i = 0 ∨ b + 50 * (i : Int) ≤ v) (hhigh : i = 31 ∨ (v : Int) < b + 50 * ((i : Int) + 1)) :
    ∃ t k, exec (.odometerSample id v) s = .next t ∧ tget? t.rel.odo.recs id = some k ∧ k.samples = h.samples + 1 ∧
      tget k.bins 0 i = min (tget h.bins 0 i + 1) 0xFFFF_FFFF ∧ (∀ j, j ≠ i → tget k.bins 0 j = tget h.bins 0 j) ∧
      (h.samples ≠ 0 → k.max = max h.max v ∧ k.min = min h.min v) ∧
      (∀ j, j ≠ id → tget? t.rel.odo.recs j = tget? s.rel.odo.recs j) :=
  have hbin : binOf (odoScale id) v = i := (congrArg (binOf · v) (odoScale_temperature hid hb)).trans (binOf_linear hi hlow hhigh)
  ⟨odoSample s id v, (tget s.rel.odo.recs {} id).add (odoScale id) s.rel.odo.hours s.rel.odo.cycles v,
    execOdometerSample_taken hv hid hmode hup, tget?_tset_self .., congrArg (fun h => h.samples + 1) hh.symm,
    add_bin_self hh _ _ _ hbin, add_bin_ne hh _ _ _ hbin, add_ends hh _ _ _, fun _ hj => tget?_tset_ne _ _ _ _ hj⟩

end

/-! ## The Odometer's stream and the monitors' blocks (R699, R701 to R703) -/

theorem length_flatMap_const {α β : Type} {f : α → List β} {k : Nat} (hf : ∀ a, (f a).length = k) :
    ∀ l : List α, (l.flatMap f).length = l.length * k
  | [] => (Nat.zero_mul k).symm
  | a :: l => (congrArg List.length (List.flatMap_cons ..)).trans (List.length_append.trans
      ((congrArg₂ (· + ·) (hf a) (length_flatMap_const hf l)).trans ((Nat.add_comm ..).trans (Nat.succ_mul ..).symm)))

theorem histBins_length (h : Hist) : (histBins h).length = 128 :=
  length_flatMap_const (f := fun i => leBytes 4 (tget h.bins 0 i)) (k := 4) (fun _ => rfl) (List.range 32)

theorem odoRecord_length (o : Odo) (id : Nat) : (odoRecord o id).length = 192 :=
  List.length_append.trans (congrArg (64 + ·) (histBins_length _))

theorem odoStream_length (o : Odo) : (odoStream o).length = 2944 :=
  List.length_append.trans (congrArg (64 + ·) (length_flatMap_const (odoRecord_length o) (List.range 15)))

theorem monBlock_length (s : State) (sel cls i : Nat) : (monBlock s sel cls i).length = 192 :=
  List.length_append.trans (congrArg (64 + ·) (histBins_length _))

section
variable {rq : Req} {cur len : Nat} {e : Session} {s : State} (hsess : tget? s.net.sessions rq.sess = some e)
include hsess

/-- The session that has taken the snapshot `b`. -/
noncomputable def snapped (s : State) (rq : Req) (e : Session) (b : Bytes) : State :=
  (withNet s { s.net with sessions := tset s.net.sessions rq.sess { e with snapshot := b } })

/-- ODOMETER_READ of a session that lives: its length, its cursor, then the reading. -/
theorem execOdometerRead_eq : exec (.odometerRead rq cur len) s = .next (
    if e.maxPayload < len + 8 then replyD s rq 0x01B0 .malformed .ethLength []
    else if 2944 ≤ cur ∨ (cur ≠ 0 ∧ e.snapshot.isEmpty) then replyD s rq 0x01B0 .malformed .odoCursor []
    else replyD (snapped s rq e (if cur = 0 then odoStream s.rel.odo else e.snapshot)) rq 0x01B0 .ok .none
      (odoBody (if cur = 0 then odoStream s.rel.odo else e.snapshot) cur len)) := by
  refine congrArg Host.Outcome.next ?_
  rw [hsess]
  rfl

theorem session_live : Live rq s := Option.isSome_iff_exists.mpr ⟨e, hsess⟩

theorem answered_odometerLong (hlong : e.maxPayload < len + 8) :
    Answered (.odometerRead rq cur len) s rq 0x01B0 0 .malformed .ethLength [] s :=
  answered_replyD ((execOdometerRead_eq hsess).trans (congrArg _ (if_pos hlong))) (session_live hsess)

theorem answered_odometerCursor (hfits : len + 8 ≤ e.maxPayload) (hcur : 2944 ≤ cur ∨ (cur ≠ 0 ∧ e.snapshot = [])) :
    Answered (.odometerRead rq cur len) s rq 0x01B0 0 .malformed .odoCursor [] s :=
  answered_replyD ((execOdometerRead_eq hsess).trans (congrArg _ ((if_neg (Nat.not_lt.mpr hfits)).trans
    (if_pos (hcur.imp_right (And.imp_right List.isEmpty_iff.mpr)))))) (session_live hsess)

theorem answered_odometer (hfits : len + 8 ≤ e.maxPayload) (hcur : cur < 2944) {b : Bytes}
    (hb : (cur = 0 ∧ b = odoStream s.rel.odo) ∨ (cur ≠ 0 ∧ e.snapshot ≠ [] ∧ b = e.snapshot)) :
    Answered (.odometerRead rq cur len) s rq 0x01B0 0 .ok .none
      (leBytes 4 (if cur + (slice b cur len).length < 2944 then cur + (slice b cur len).length else 0) ++
        leBytes 4 (slice b cur len).length ++ slice b cur len)
      (withNet s { s.net with sessions := tset s.net.sessions rq.sess { e with snapshot := b } }) := by
  have hsnap : (if cur = 0 then odoStream s.rel.odo else e.snapshot) = b :=
    hb.elim (fun h => (if_pos h.1).trans h.2.symm) (fun h => (if_neg h.1).trans h.2.2.symm)
  have hok : ¬ (2944 ≤ cur ∨ (cur ≠ 0 ∧ e.snapshot.isEmpty = true)) := Or.rec (Nat.not_le.mpr hcur) fun hnone =>
    hb.elim (fun h => hnone.1 h.1) (fun h => h.2.1 (List.isEmpty_iff.mp hnone.2))
  exact answered_replyD (u := snapped s rq e b) ((execOdometerRead_eq hsess).trans (congrArg _ ((if_neg (Nat.not_lt.mpr hfits)).trans
    ((if_neg hok).trans (congrArg (fun b => replyD (snapped s rq e b) rq 0x01B0 .ok .none (odoBody b cur len)) hsnap)))))
    (session_live (s := snapped s rq e b) (tget?_tset_self ..))

end

section
variable {rq : Req} {sel cls i : Nat} {s : State} (hlive : Live rq s) (hcls : cls = bits sel 31 28) (hi : i = sel % 256)
include hlive hcls hi

theorem answered_countersSelect (h : bits sel 26 8 ≠ 0 ∨ monCount cls ≤ i) :
    Answered (.countersRead rq sel) s rq 0x01B1 0 .malformed .cntSelect [] s := by
  subst hcls hi
  exact answered_replyD (congrArg Host.Outcome.next (if_pos h)) hlive

variable (hzero : bits sel 26 8 = 0) (hcount : i < monCount cls)
include hzero hcount

omit hlive in
theorem execCountersRead_reads : exec (.countersRead rq sel) s = .next (replyD (if bit sel 27 then
    (withRel s { s.rel with monitors := tset s.rel.monitors (256 * cls + i) ({}, s.rel.odo.hours) }) else s)
    rq 0x01B1 .ok .none (monBlock s sel cls i)) := by
  subst hcls hi
  exact congrArg Host.Outcome.next (if_neg (Or.rec (· hzero) (Nat.not_le.mpr hcount)))

theorem answered_countersKept (hkeep : bit sel 27 = false) :
    Answered (.countersRead rq sel) s rq 0x01B1 0 .ok .none (monBlock s sel cls i) s :=
  answered_replyD ((execCountersRead_reads hcls hi hzero hcount).trans
    (congrArg (fun t => Host.Outcome.next (replyD t rq 0x01B1 .ok .none (monBlock s sel cls i))) (if_neg (Bool.eq_false_iff.mp hkeep)))) hlive

theorem answered_countersCleared (hclear : bit sel 27 = true) :
    Answered (.countersRead rq sel) s rq 0x01B1 0 .ok .none (monBlock s sel cls i)
      (withRel s { s.rel with monitors := tset s.rel.monitors (256 * cls + i) ({}, s.rel.odo.hours) }) :=
  answered_replyD ((execCountersRead_reads hcls hi hzero hcount).trans
    (congrArg (fun t => Host.Outcome.next (replyD t rq 0x01B1 .ok .none (monBlock s sel cls i))) (if_pos hclear))) hlive

end

/-- Settles O42: FW_STAGE by what the chunk continues, FW_ACTIVATE by its mode, then the Odometer and the monitors. -/
theorem firmwareAndOdometer : Obligations.FirmwareAndOdometer :=
  ⟨fun _ _ hlive =>
    ⟨fun _ _ _ d => ⟨answered_stageInTrial hlive, fun htrial h => answered_stageBroken hlive htrial (stagedSoFar_refused h),
      fun htrial hlow hhigh hfits _ hb =>
        ⟨fun hmore => answered_stageKept hlive htrial (stagedSoFar_continues hb hlow hhigh hfits)
            (Nat.ne_of_lt ((staged_length hb d).trans_lt hmore)),
          fun hlast => ⟨fun _ _ => answered_stageRefused hlive htrial (stagedSoFar_continues hb hlow hhigh hfits)
              ((staged_length hb d).trans hlast),
            fun hfault => ⟨_, answered_stageWritten hlive htrial (stagedSoFar_continues hb hlow hhigh hfits)
              ((staged_length hb d).trans hlast) hfault, tget?_tset_self .., (mem_insertNum ..).mpr (.inl rfl),
              fun _ hk => tget?_tset_ne _ _ _ _ hk, rfl⟩⟩⟩⟩,
      fun _ _ => ⟨answered_armRefused hlive, fun htg hcores hstaged htrial => ⟨_, answered_armed hlive htg hcores hstaged htrial, rfl,
        fun _ hlow hhigh _ => slotArmed_images _ hlow hhigh, rfl⟩⟩,
      fun _ => ⟨answered_confirmRefused hlive, execFwActivateConfirm_trial, answered_disarmRefused hlive, answered_disarmed hlive⟩⟩,
    fun _ => ⟨fun hmode => congrArg Host.Outcome.next (if_pos hmode), execHourUnitTick_advances, execOdometerPersist_due,
      execOdometerPersist_notDue⟩,
    fun _ _ _ _ hv => ⟨execOdometerSample_none, fun hid hmode hup _ _ hh hb hi hlow hhigh =>
      execOdometerSample_bins hv hid hmode hup hh hb hi hlow hhigh⟩,
    fun _ _ => binOf_log,
    fun _ _ _ _ _ hsess => ⟨answered_odometerLong hsess, answered_odometerCursor hsess,
      fun hfits hcur _ hb => answered_odometer hsess hfits hcur hb⟩,
    odoStream_length,
    fun _ _ _ _ _ hlive _ hcls hi => ⟨answered_countersSelect hlive hcls hi, fun hzero hcount =>
      ⟨monBlock_length .., answered_countersKept hlive hcls hi hzero hcount, answered_countersCleared hlive hcls hi hzero hcount⟩⟩⟩

end Sys2Proof.Machine
